-- ==== Sys2Proof/Word.lean ====
section
/-! DEFINITION. Word.lean: the word types of the machine (R2, R43, R161). -/
namespace Sys2Proof

/-- One byte of memory. -/
abbrev Byte := BitVec 8
/-- A general register, a pointer, a special register (R43). -/
abbrev Word := BitVec 64
/-- A vector register, 512 bits, and a fetch line or memory line read as one number (R29, R161). -/
abbrev Line := BitVec 512
/-- A predicate register, 16 bits (R43). -/
abbrev Pred := BitVec 16
/-- The 96 bits of an instruction (R29). -/
abbrev Insn96 := BitVec 96

end Sys2Proof
end

