-- ==== Sys2Proof/Syntax.lean ====
section
/-! DEFINITION. Syntax.lean: operand types, and Instr, one constructor per row of the opcode table. -/
namespace Sys2Proof

/-- A general register g0..g63 (R43). -/
abbrev GReg := BitVec 6
/-- A vector register v0..v31 (R43). -/
abbrev VReg := BitVec 5
/-- A predicate register p0..p7 (R43). -/
abbrev PReg := BitVec 3
/-- An accumulator tile a0..a15 (R43). -/
abbrev AReg := BitVec 4
/-- An operand slot o0..o31 (R43). -/
abbrev OReg := BitVec 5
/-- A copy handle h0..h15 (R43). -/
abbrev HReg := BitVec 4
/-- A circular buffer cb0..cb7 (R43). -/
abbrev CbReg := BitVec 3
/-- A completion counter k0..k15 (R43). -/
abbrev KReg := BitVec 4

/-- The header of an instruction word (R37): switch marker, guard predicate, guard negated. -/
structure Hdr where
  s : Bool
  g : PReg
  n : Bool
deriving DecidableEq, Repr

/-- Operation width M<0> of class 0x1, of ATOM and of PATOM (R118, R198): 32 or 64 bits. -/
inductive Wd | w | d
deriving DecidableEq, Repr

/-- Addressing mode AM (R40): .l, .c, .x, .g. -/
inductive Mode | l | c | x | g
deriving DecidableEq, Repr

/-- Conditions of SETP and VICMP (R118), in code order. -/
inductive Cond | eq | ne | lt | ge | ltu | geu | tst | tstz
deriving DecidableEq, Repr

/-- Conditions of VCMP and FCMP (R164), in code order. -/
inductive FCond | eq | ne | lt | le | gt | ge | un | or
deriving DecidableEq, Repr

/-- Floating-point formats of M<5:4> (R164). -/
inductive Fmt | f32 | f16 | bf16
deriving DecidableEq, Repr

/-- Rounding field M<2:0> (R61): %frm, or one of the four modes. -/
inductive Rm | cur | rn | rz | ru | rd
deriving DecidableEq, Repr

/-- Formats of VCVT and FCVT (R164). -/
inductive NFmt | f32 | f16 | bf16 | i32 | u32 | i16 | u16 | i8 | u8 | i64 | u64
deriving DecidableEq, Repr

/-- Views of class 0x6 (R164). -/
inductive View | i32 | i16 | i8
deriving DecidableEq, Repr

/-- Block formats of M<9:8> (R164). -/
inductive Bx | bx4 | bx8 | bx16
deriving DecidableEq, Repr

/-- Load sizes, SZ 0 to 6 (R40). -/
inductive LdSz | b | h | w | d | bu | hu | wu
deriving DecidableEq, Repr

/-- Store sizes, SZ 0 to 3 (R40). -/
inductive StSz | b | h | w | d
deriving DecidableEq, Repr

/-- A memory operand (R180): mode, base, index, scale code, displacement. -/
structure MemOp where
  am   : Mode
  a    : GReg
  b    : GReg
  sc   : BitVec 2
  disp : BitVec 16
deriving DecidableEq, Repr

/-- Atomic operations of M<7:4> (R198), in code order. -/
inductive AtomOp | add | min | max | umin | umax | and | or | xor | swap | cas | fadd32
deriving DecidableEq, Repr

/-- Place kinds of CPY (R268), in code order. -/
inductive CKind | l | c | x | g | o | cb
deriving DecidableEq, Repr

/-- Levels of a card (R321). -/
inductive Lvl | L1 | L2 | L3 | L4 | L5
deriving DecidableEq, Repr

/-- Unit formats of ALD and AST (R325). -/
inductive TFmt | f32 | f16 | bf16 | bx8 | bx16
deriving DecidableEq, Repr

/-- Destination of PGET with its size (R336). -/
inductive PeerLd | g (sz : LdSz) (d : GReg) | v (d : VReg)
deriving DecidableEq, Repr

/-- Data of PPUT with its size (R336). -/
inductive PeerSt | g (sz : StSz) (d : GReg) | v (d : VReg)
deriving DecidableEq, Repr

/-- The four forms of MOV (R126). -/
inductive MovForm
  | gg (wd : Wd) (d a : GReg)
  | pg (d : PReg) (a : GReg)
  | gp (d : GReg) (a : PReg)
  | pp (d a : PReg)
deriving DecidableEq, Repr

/-- Special registers of MFS and MTS (R105, R350). -/
inductive SReg
  | tid | nthr | core | cluster | die | ctx | incarn | launch | tenant | isel
  | fflags | frm | bxdelta | synclim | part
  | trapvec | trapcause | trappc | trapaddr | trapinfo | tstat | region
deriving DecidableEq, Repr

/-- Core registers of CSRR and CSRW (R371): ISSUE, STRAY, FPAR, XMIS, JNLREF, SAVES and the eight windows. -/
inductive Csr | issue | stray | fpar | xmis | jnlref | saves | win (i : BitVec 3)
deriving DecidableEq, Repr

/-- An image file (R55), with the page frames that system software gives the loader for it. -/
structure ImageFile where
  bytes  : List Byte
  frames : List Nat
deriving DecidableEq, Repr

/-- A request of system software at the command port (R377): a launch outside a graph, or a node of a graph; slots of a tenant's sealed
experience of an image that it marks frozen (R158). -/
inductive SchedCmd
  | launch (desc : Line)
  | node (graph : Nat) (desc : Line)
  | freeze (tenant : Nat) (hash : BitVec 256) (slots : List Nat)
deriving DecidableEq, Repr

/-- An error that a detector reports (R425): the record's KIND, whether the retry failed too, the unit, the address, and the
core and context concerned. -/
structure MCheck where
  kind    : BitVec 8
  lasting : Bool
  unit    : BitVec 32
  addr    : Word
  core    : Nat
  ctx     : Nat
deriving DecidableEq, Repr

/-- A table or register that system software writes and that has no row of its own (CONTROL_REGISTER_WRITE, R371). -/
inductive Ctl
  /-- core register n of a core (R371) -/
  | coreReg (core n : Nat)
  /-- word of a core's debug block by byte offset (R410): DCTL, DEDGE, PCBP0 to PCBP3 -/
  | debug (core off : Nat)
  /-- word of an entry of the fabric group table (R335) -/
  | fabricGroup (group word : Nat)
  /-- root page of a tenant (R358) -/
  | tenantRoot (tenant : Nat)
  /-- deficit weight of a tenant (R381) -/
  | tenantWeight (tenant : Nat)
  /-- trace ring of a die: base, size or write index of a tenant's ring, none for the system ring (R399) -/
  | ring (die : Nat) (tenant : Option Nat) (field : Nat)
  /-- time-series ring of a die (R411) -/
  | seriesRing (die field : Nat)
  /-- machine-check ring (R425) -/
  | checkRing (field : Nat)
  /-- tick exponent k (R411) -/
  | tickExp
  /-- containment rectangle that a cluster belongs to (R435) -/
  | rectangle (cluster : Nat)
  /-- poison policy of a rectangle (R436) -/
  | poisonPolicy (rect : Nat)
deriving DecidableEq, Repr

/-- One constructor per row of the opcode table: 222 instructions and 103 events. An instruction carries its header and its
decoded operands; an event carries which part of the machine takes the step, and what an outside party brings. -/
inductive Instr where
  -- class 0x0: thread control (R107)
  /-- NOP (R108). -/
  | nop (h : Hdr)
  /-- YIELD (R108). -/
  | yieldT (h : Hdr)
  /-- WAIT (R108). -/
  | wait (h : Hdr)
  /-- DOZE (R110). -/
  | doze (h : Hdr) (a : GReg)
  /-- NOWNS (R109). -/
  | nowns (h : Hdr) (d : GReg)
  /-- EXIT (R111). -/
  | exit (h : Hdr) (a : GReg)
  /-- JOIN (R112). -/
  | join (h : Hdr) (d : GReg) (a : GReg)
  /-- LEAVE (R112). -/
  | leave (h : Hdr) (a : GReg)
  /-- GBAR (R113). -/
  | gbar (h : Hdr) (a : GReg)
  /-- GARRIVE (R113). -/
  | garrive (h : Hdr) (a : GReg)
  /-- GWAIT (R113). -/
  | gwait (h : Hdr) (a : GReg)
  /-- PHASE (R101). -/
  | phase (h : Hdr) (a : GReg)
  /-- GINFO_SIZE (R115). -/
  | ginfoSize (h : Hdr) (d : GReg) (a : GReg)
  /-- GINFO_RANK (R115). -/
  | ginfoRank (h : Hdr) (d : GReg) (a : GReg)
  /-- MFS (R116). -/
  | mfs (h : Hdr) (d : GReg) (r : SReg)
  /-- MTS (R116). -/
  | mts (h : Hdr) (r : SReg) (a : GReg)
  -- class 0x1: integer (R119)
  /-- ADD (R120). -/
  | add (h : Hdr) (wd : Wd) (d : GReg) (a : GReg) (b : GReg)
  /-- ADD_IMM (R120). -/
  | addImm (h : Hdr) (wd : Wd) (d : GReg) (a : GReg) (imm : BitVec 48)
  /-- SUB (R120). -/
  | sub (h : Hdr) (wd : Wd) (d : GReg) (a : GReg) (b : GReg)
  /-- SUB_IMM (R120). -/
  | subImm (h : Hdr) (wd : Wd) (d : GReg) (a : GReg) (imm : BitVec 48)
  /-- MUL (R120). -/
  | mul (h : Hdr) (wd : Wd) (d : GReg) (a : GReg) (b : GReg)
  /-- MUL_IMM (R120). -/
  | mulImm (h : Hdr) (wd : Wd) (d : GReg) (a : GReg) (imm : BitVec 48)
  /-- MULH (R120). -/
  | mulh (h : Hdr) (wd : Wd) (d : GReg) (a : GReg) (b : GReg)
  /-- MULH_IMM (R120). -/
  | mulhImm (h : Hdr) (wd : Wd) (d : GReg) (a : GReg) (imm : BitVec 48)
  /-- MULHU (R120). -/
  | mulhu (h : Hdr) (wd : Wd) (d : GReg) (a : GReg) (b : GReg)
  /-- MULHU_IMM (R120). -/
  | mulhuImm (h : Hdr) (wd : Wd) (d : GReg) (a : GReg) (imm : BitVec 48)
  /-- DIV (R121). -/
  | div (h : Hdr) (wd : Wd) (d : GReg) (a : GReg) (b : GReg)
  /-- DIV_IMM (R121). -/
  | divImm (h : Hdr) (wd : Wd) (d : GReg) (a : GReg) (imm : BitVec 48)
  /-- DIVU (R121). -/
  | divu (h : Hdr) (wd : Wd) (d : GReg) (a : GReg) (b : GReg)
  /-- DIVU_IMM (R121). -/
  | divuImm (h : Hdr) (wd : Wd) (d : GReg) (a : GReg) (imm : BitVec 48)
  /-- REM (R121). -/
  | rem (h : Hdr) (wd : Wd) (d : GReg) (a : GReg) (b : GReg)
  /-- REM_IMM (R121). -/
  | remImm (h : Hdr) (wd : Wd) (d : GReg) (a : GReg) (imm : BitVec 48)
  /-- REMU (R121). -/
  | remu (h : Hdr) (wd : Wd) (d : GReg) (a : GReg) (b : GReg)
  /-- REMU_IMM (R121). -/
  | remuImm (h : Hdr) (wd : Wd) (d : GReg) (a : GReg) (imm : BitVec 48)
  /-- AND (R120). -/
  | andd (h : Hdr) (wd : Wd) (d : GReg) (a : GReg) (b : GReg)
  /-- AND_IMM (R120). -/
  | andImm (h : Hdr) (wd : Wd) (d : GReg) (a : GReg) (imm : BitVec 48)
  /-- OR (R120). -/
  | orr (h : Hdr) (wd : Wd) (d : GReg) (a : GReg) (b : GReg)
  /-- OR_IMM (R120). -/
  | orImm (h : Hdr) (wd : Wd) (d : GReg) (a : GReg) (imm : BitVec 48)
  /-- XOR (R120). -/
  | xor (h : Hdr) (wd : Wd) (d : GReg) (a : GReg) (b : GReg)
  /-- XOR_IMM (R120). -/
  | xorImm (h : Hdr) (wd : Wd) (d : GReg) (a : GReg) (imm : BitVec 48)
  /-- ANDN (R120). -/
  | andn (h : Hdr) (wd : Wd) (d : GReg) (a : GReg) (b : GReg)
  /-- ANDN_IMM (R120). -/
  | andnImm (h : Hdr) (wd : Wd) (d : GReg) (a : GReg) (imm : BitVec 48)
  /-- SHL (R120). -/
  | shl (h : Hdr) (wd : Wd) (d : GReg) (a : GReg) (b : GReg)
  /-- SHL_IMM (R120). -/
  | shlImm (h : Hdr) (wd : Wd) (d : GReg) (a : GReg) (imm : BitVec 48)
  /-- SHR (R120). -/
  | shr (h : Hdr) (wd : Wd) (d : GReg) (a : GReg) (b : GReg)
  /-- SHR_IMM (R120). -/
  | shrImm (h : Hdr) (wd : Wd) (d : GReg) (a : GReg) (imm : BitVec 48)
  /-- SRA (R120). -/
  | sra (h : Hdr) (wd : Wd) (d : GReg) (a : GReg) (b : GReg)
  /-- SRA_IMM (R120). -/
  | sraImm (h : Hdr) (wd : Wd) (d : GReg) (a : GReg) (imm : BitVec 48)
  /-- ROL (R120). -/
  | rol (h : Hdr) (wd : Wd) (d : GReg) (a : GReg) (b : GReg)
  /-- ROL_IMM (R120). -/
  | rolImm (h : Hdr) (wd : Wd) (d : GReg) (a : GReg) (imm : BitVec 48)
  /-- MIN (R120). -/
  | min (h : Hdr) (wd : Wd) (d : GReg) (a : GReg) (b : GReg)
  /-- MIN_IMM (R120). -/
  | minImm (h : Hdr) (wd : Wd) (d : GReg) (a : GReg) (imm : BitVec 48)
  /-- MAX (R120). -/
  | max (h : Hdr) (wd : Wd) (d : GReg) (a : GReg) (b : GReg)
  /-- MAX_IMM (R120). -/
  | maxImm (h : Hdr) (wd : Wd) (d : GReg) (a : GReg) (imm : BitVec 48)
  /-- MINU (R120). -/
  | minu (h : Hdr) (wd : Wd) (d : GReg) (a : GReg) (b : GReg)
  /-- MINU_IMM (R120). -/
  | minuImm (h : Hdr) (wd : Wd) (d : GReg) (a : GReg) (imm : BitVec 48)
  /-- MAXU (R120). -/
  | maxu (h : Hdr) (wd : Wd) (d : GReg) (a : GReg) (b : GReg)
  /-- MAXU_IMM (R120). -/
  | maxuImm (h : Hdr) (wd : Wd) (d : GReg) (a : GReg) (imm : BitVec 48)
  /-- SETP (R122). -/
  | setp (h : Hdr) (wd : Wd) (c : Cond) (d : PReg) (a : GReg) (b : GReg)
  /-- SETP_IMM (R122). -/
  | setpImm (h : Hdr) (wd : Wd) (c : Cond) (d : PReg) (a : GReg) (imm : BitVec 48)
  /-- SEL (R123). -/
  | sel (h : Hdr) (wd : Wd) (d : GReg) (a : GReg) (b : GReg) (c : PReg)
  /-- CLZ (R120). -/
  | clz (h : Hdr) (wd : Wd) (d : GReg) (a : GReg)
  /-- CTZ (R120). -/
  | ctz (h : Hdr) (wd : Wd) (d : GReg) (a : GReg)
  /-- POPC (R120). -/
  | popc (h : Hdr) (wd : Wd) (d : GReg) (a : GReg)
  /-- BREV (R120). -/
  | brev (h : Hdr) (wd : Wd) (d : GReg) (a : GReg)
  /-- BFX (R125). -/
  | bfx (h : Hdr) (wd : Wd) (sx : Bool) (d : GReg) (a : GReg) (b : GReg) (c : GReg)
  /-- BFX_IMM (R125). -/
  | bfxImm (h : Hdr) (wd : Wd) (sx : Bool) (d : GReg) (a : GReg) (pos : BitVec 6) (len : BitVec 7)
  /-- BFI (R125). -/
  | bfi (h : Hdr) (wd : Wd) (d : GReg) (a : GReg) (b : GReg) (c : GReg)
  /-- BFI_IMM (R125). -/
  | bfiImm (h : Hdr) (wd : Wd) (d : GReg) (a : GReg) (pos : BitVec 6) (len : BitVec 7)
  /-- MOV (R126). -/
  | mov (h : Hdr) (f : MovForm)
  /-- PLOG (R124). -/
  | plog (h : Hdr) (tt : BitVec 4) (d : PReg) (a : PReg) (b : PReg)
  /-- LI (R126). -/
  | li (h : Hdr) (wd : Wd) (d : GReg) (imm : BitVec 48)
  /-- LI_HI (R126). -/
  | liHi (h : Hdr) (d : GReg) (imm : BitVec 16)
  -- class 0x2: address (R128)
  /-- LEA (R129). -/
  | lea (h : Hdr) (d : GReg) (a : GReg) (imm : BitVec 48)
  /-- MKPTR (R130). -/
  | mkptr (h : Hdr) (d : GReg) (a : GReg) (b : GReg)
  /-- GETBAND (R130). -/
  | getband (h : Hdr) (d : GReg) (a : GReg)
  /-- CADDR (R131). -/
  | caddr (h : Hdr) (d : GReg) (a : GReg) (b : GReg) (c : GReg)
  /-- CHKPTR (R132). -/
  | chkptr (h : Hdr) (d : GReg) (a : GReg)
  -- class 0x3: control (R133)
  /-- BR (R135). -/
  | br (h : Hdr) (x : BitVec 16) (disp : BitVec 32)
  /-- BRI (R136). -/
  | bri (h : Hdr) (a : GReg)
  /-- CALL (R136). -/
  | call (h : Hdr) (disp : BitVec 32)
  /-- CALLI (R136). -/
  | calli (h : Hdr) (a : GReg)
  /-- RET (R136). -/
  | ret (h : Hdr) (a : GReg)
  /-- LOOP (R137). -/
  | loop (h : Hdr) (a : GReg) (b : GReg) (x : BitVec 16) (disp : BitVec 32)
  -- class 0x4: experience (R154)
  /-- XRD (R155). -/
  | xrd (h : Hdr) (hdr : Bool) (d : GReg) (a : GReg)
  /-- XSEL (R155). -/
  | xsel (h : Hdr) (d : PReg) (b : Option GReg) (x : BitVec 16)
  /-- XUNR (R155). -/
  | xunr (h : Hdr) (d : GReg) (b : Option GReg) (x : BitVec 16)
  /-- XPFD (R155). -/
  | xpfd (h : Hdr) (d : GReg) (a : GReg) (b : Option GReg) (x : BitVec 16)
  /-- XNOTE (R155). -/
  | xnote (h : Hdr) (a : GReg) (x : BitVec 16)
  /-- XFLUSH (R155). -/
  | xflush (h : Hdr)
  -- class 0x5: vector float, scalar float, planker (R165)
  /-- VADD (R166). -/
  | vadd (h : Hdr) (f : Fmt) (rm : Rm) (d : VReg) (a : VReg) (b : VReg)
  /-- VSUB (R166). -/
  | vsub (h : Hdr) (f : Fmt) (rm : Rm) (d : VReg) (a : VReg) (b : VReg)
  /-- VMUL (R166). -/
  | vmul (h : Hdr) (f : Fmt) (rm : Rm) (d : VReg) (a : VReg) (b : VReg)
  /-- VFMA (R166). -/
  | vfma (h : Hdr) (f : Fmt) (rm : Rm) (d : VReg) (a : VReg) (b : VReg) (c : VReg)
  /-- VFMS (R166). -/
  | vfms (h : Hdr) (f : Fmt) (rm : Rm) (d : VReg) (a : VReg) (b : VReg) (c : VReg)
  /-- VFNMA (R166). -/
  | vfnma (h : Hdr) (f : Fmt) (rm : Rm) (d : VReg) (a : VReg) (b : VReg) (c : VReg)
  /-- VMIN (R166). -/
  | vmin (h : Hdr) (f : Fmt) (d : VReg) (a : VReg) (b : VReg)
  /-- VMAX (R166). -/
  | vmax (h : Hdr) (f : Fmt) (d : VReg) (a : VReg) (b : VReg)
  /-- VABS (R166). -/
  | vabs (h : Hdr) (f : Fmt) (d : VReg) (a : VReg)
  /-- VNEG (R166). -/
  | vneg (h : Hdr) (f : Fmt) (d : VReg) (a : VReg)
  /-- VRCP (R167). -/
  | vrcp (h : Hdr) (f : Fmt) (rm : Rm) (d : VReg) (a : VReg)
  /-- VRSQ (R167). -/
  | vrsq (h : Hdr) (f : Fmt) (rm : Rm) (d : VReg) (a : VReg)
  /-- VEXP2 (R167). -/
  | vexp2 (h : Hdr) (f : Fmt) (rm : Rm) (d : VReg) (a : VReg)
  /-- VLOG2 (R167). -/
  | vlog2 (h : Hdr) (f : Fmt) (rm : Rm) (d : VReg) (a : VReg)
  /-- VDIV (R166). -/
  | vdiv (h : Hdr) (f : Fmt) (rm : Rm) (d : VReg) (a : VReg) (b : VReg)
  /-- VSQRT (R166). -/
  | vsqrt (h : Hdr) (f : Fmt) (rm : Rm) (d : VReg) (a : VReg)
  /-- VCVT (R168). -/
  | vcvt (h : Hdr) (rm : Rm) (part : BitVec 2) (t : NFmt) (src : NFmt) (d : VReg) (a : VReg)
  /-- VCMP (R169). -/
  | vcmp (h : Hdr) (f : Fmt) (c : FCond) (d : PReg) (a : VReg) (b : VReg)
  /-- VRED (R171). -/
  | vred (h : Hdr) (f : Fmt) (rm : Rm) (d : VReg) (a : VReg)
  /-- VDOT (R171). -/
  | vdot (h : Hdr) (f : Fmt) (rm : Rm) (d : VReg) (a : VReg) (b : VReg)
  /-- FADD (R170). -/
  | fadd (h : Hdr) (f : Fmt) (rm : Rm) (d : GReg) (a : GReg) (b : GReg)
  /-- FMUL (R170). -/
  | fmul (h : Hdr) (f : Fmt) (rm : Rm) (d : GReg) (a : GReg) (b : GReg)
  /-- FFMA (R170). -/
  | ffma (h : Hdr) (f : Fmt) (rm : Rm) (d : GReg) (a : GReg) (b : GReg) (c : GReg)
  /-- FCMP (R170). -/
  | fcmp (h : Hdr) (f : Fmt) (c : FCond) (d : PReg) (a : GReg) (b : GReg)
  /-- FCVT (R170). -/
  | fcvt (h : Hdr) (rm : Rm) (t : NFmt) (src : NFmt) (d : GReg) (a : GReg)
  /-- REP (R175). -/
  | rep (h : Hdr) (n1 : BitVec 3) (st : BitVec 4) (a : GReg)
  /-- REPWAIT (R178). -/
  | repwait (h : Hdr)
  -- class 0x6: vector integer and lanes (R172)
  /-- VIADD (R172). -/
  | viadd (h : Hdr) (vw : View) (d : VReg) (a : VReg) (b : VReg)
  /-- VISUB (R172). -/
  | visub (h : Hdr) (vw : View) (d : VReg) (a : VReg) (b : VReg)
  /-- VIMUL (R172). -/
  | vimul (h : Hdr) (vw : View) (d : VReg) (a : VReg) (b : VReg)
  /-- VAND (R172). -/
  | vand (h : Hdr) (vw : View) (d : VReg) (a : VReg) (b : VReg)
  /-- VOR (R172). -/
  | vor (h : Hdr) (vw : View) (d : VReg) (a : VReg) (b : VReg)
  /-- VXOR (R172). -/
  | vxor (h : Hdr) (vw : View) (d : VReg) (a : VReg) (b : VReg)
  /-- VSHL (R172). -/
  | vshl (h : Hdr) (vw : View) (d : VReg) (a : VReg) (b : VReg)
  /-- VSHR (R172). -/
  | vshr (h : Hdr) (vw : View) (d : VReg) (a : VReg) (b : VReg)
  /-- VSRA (R172). -/
  | vsra (h : Hdr) (vw : View) (d : VReg) (a : VReg) (b : VReg)
  /-- VIMIN (R172). -/
  | vimin (h : Hdr) (u : Bool) (vw : View) (d : VReg) (a : VReg) (b : VReg)
  /-- VIMAX (R172). -/
  | vimax (h : Hdr) (u : Bool) (vw : View) (d : VReg) (a : VReg) (b : VReg)
  /-- VSEL (R172). -/
  | vsel (h : Hdr) (vw : View) (d : VReg) (a : VReg) (b : VReg) (c : PReg)
  /-- VSHUF (R172). -/
  | vshuf (h : Hdr) (vw : View) (d : VReg) (a : VReg) (b : VReg)
  /-- VBCAST (R172). -/
  | vbcast (h : Hdr) (vw : View) (d : VReg) (a : GReg)
  /-- VINS (R172). -/
  | vins (h : Hdr) (vw : View) (d : VReg) (a : GReg) (b : GReg)
  /-- VEXT (R172). -/
  | vext (h : Hdr) (u : Bool) (vw : View) (d : GReg) (a : VReg) (b : GReg)
  /-- VCMPRS (R172). -/
  | vcmprs (h : Hdr) (vw : View) (d : VReg) (a : VReg) (c : PReg)
  /-- VEXPND (R172). -/
  | vexpnd (h : Hdr) (vw : View) (d : VReg) (a : VReg) (c : PReg)
  /-- VIOTA (R172). -/
  | viota (h : Hdr) (vw : View) (d : VReg) (c : Option PReg)
  /-- VICMP (R172). -/
  | vicmp (h : Hdr) (vw : View) (c : Cond) (d : PReg) (a : VReg) (b : VReg)
  -- class 0x7: block formats (R173)
  /-- VQNT (R174). -/
  | vqnt (h : Hdr) (rn : Bool) (f : Fmt) (bx : Bx) (d : VReg) (a : VReg) (b : Option VReg) (c : Option GReg)
  /-- VDQNT (R174). -/
  | vdqnt (h : Hdr) (rm : Rm) (part : BitVec 2) (f : Fmt) (bx : Bx) (d : VReg) (a : VReg) (c : Option GReg)
  /-- VSRND (R174). -/
  | vsrnd (h : Hdr) (part : BitVec 2) (f : Fmt) (d : VReg) (a : VReg) (b : GReg) (c : GReg)
  /-- VBXDOT (R174). -/
  | vbxdot (h : Hdr) (rm : Rm) (bx : Bx) (d : VReg) (a : VReg) (b : VReg) (c : Option GReg)
  -- class 0x8: memory (R194)
  /-- LD (R195). -/
  | ld (h : Hdr) (sz : LdSz) (nc : Bool) (x : BitVec 16) (d : GReg) (m : MemOp)
  /-- ST (R195). -/
  | st (h : Hdr) (sz : StSz) (bset : Bool) (d : GReg) (m : MemOp)
  /-- VLD (R195). -/
  | vld (h : Hdr) (nc : Bool) (x : BitVec 16) (d : VReg) (m : MemOp)
  /-- VST (R195). -/
  | vst (h : Hdr) (bset : Bool) (d : VReg) (m : MemOp)
  /-- LDS (R196). -/
  | lds (h : Hdr) (d : GReg) (m : MemOp)
  /-- STS (R196). -/
  | sts (h : Hdr) (d : GReg) (m : MemOp)
  /-- LDF (R196). -/
  | ldf (h : Hdr) (d : GReg) (m : MemOp)
  /-- FESET (R196). -/
  | feset (h : Hdr) (m : MemOp)
  /-- FECLR (R196). -/
  | feclr (h : Hdr) (m : MemOp)
  /-- LDACQ (R197). -/
  | ldacq (h : Hdr) (sz : LdSz) (d : GReg) (m : MemOp)
  /-- STREL (R214). -/
  | strel (h : Hdr) (sz : StSz) (d : GReg) (m : MemOp)
  /-- ATOM (R198). -/
  | atom (h : Hdr) (wd : Wd) (op : AtomOp) (am : Mode) (d : GReg) (a : GReg) (b : GReg) (disp : BitVec 16)
  /-- PREF (R199). -/
  | pref (h : Hdr) (d : GReg) (m : MemOp)
  /-- VLDX (R200). -/
  | vldx (h : Hdr) (cm : Bool) (d : VReg) (a : GReg) (b : VReg) (sc : BitVec 2) (disp : BitVec 16)
  /-- VSTX (R200). -/
  | vstx (h : Hdr) (cm : Bool) (d : VReg) (a : GReg) (b : VReg) (sc : BitVec 2) (disp : BitVec 16)
  -- class 0x9: coordinate volumes (R255)
  /-- CLD (R256). -/
  | cld (h : Hdr) (tid : BitVec 8) (d : GReg) (a : GReg) (b : GReg) (disp : BitVec 16)
  /-- CST (R258). -/
  | cst (h : Hdr) (tid : BitVec 8) (d : GReg) (a : GReg) (b : GReg) (disp : BitVec 16)
  /-- CVLD (R256). -/
  | cvld (h : Hdr) (tid : BitVec 8) (d : VReg) (a : GReg) (b : GReg) (disp : BitVec 16)
  /-- CVST (R258). -/
  | cvst (h : Hdr) (tid : BitVec 8) (d : VReg) (a : GReg) (b : GReg) (disp : BitVec 16)
  /-- CPROBE (R257). -/
  | cprobe (h : Hdr) (tid : BitVec 8) (d : GReg) (a : GReg)
  /-- CCLR (R259). -/
  | cclr (h : Hdr) (tid : BitVec 8) (a : GReg)
  /-- CTILE_FIND (R260). -/
  | ctileFind (h : Hdr) (tid : BitVec 8) (d : GReg) (a : GReg)
  /-- CTILE_DETACH (R260). -/
  | ctileDetach (h : Hdr) (tid : BitVec 8) (d : GReg) (a : GReg)
  /-- CTILE_PTILE (R260). -/
  | ctilePtile (h : Hdr) (tid : BitVec 8) (a : GReg)
  /-- CTILE_PNODE (R260). -/
  | ctilePnode (h : Hdr) (tid : BitVec 8) (a : GReg)
  /-- CLBINV (R261). -/
  | clbinv (h : Hdr) (tid : BitVec 8)
  -- class 0xA: copy, stream, circular buffer, gather (R267)
  /-- CPY (R269). -/
  | cpy (h : Hdr) (dk : CKind) (sk : CKind) (d : HReg) (a : GReg) (b : GReg) (c : GReg)
  /-- CPYW (R272). -/
  | cpyw (h : Hdr) (a : HReg) (b : GReg)
  /-- CPYT (R273). -/
  | cpyt (h : Hdr) (d : GReg) (a : HReg) (b : GReg)
  /-- DEAL (R274). -/
  | deal (h : Hdr) (die : Bool) (d : KReg) (a : GReg) (b : GReg) (c : GReg) (total : BitVec 32)
  /-- SARM (R275). -/
  | sarm (h : Hdr) (wr : Bool) (n2 : BitVec 10) (n1 : BitVec 10) (n0 : BitVec 10) (tid : BitVec 8) (d : VReg) (b : GReg) (c : GReg)
  /-- SDROP (R278). -/
  | sdrop (h : Hdr) (a : VReg)
  /-- CBSET (R280). -/
  | cbset (h : Hdr) (d : CbReg) (a : GReg) (b : GReg)
  /-- CBRSV (R281). -/
  | cbrsv (h : Hdr) (d : GReg) (a : CbReg)
  /-- CBCMT (R281). -/
  | cbcmt (h : Hdr) (a : CbReg)
  /-- CBACQ (R281). -/
  | cbacq (h : Hdr) (d : GReg) (a : CbReg)
  /-- CBREL (R281). -/
  | cbrel (h : Hdr) (a : CbReg)
  /-- GET (R285). -/
  | get (h : Hdr) (i64 : Bool) (pm : Mode) (lm : Mode) (tid : BitVec 8) (d : KReg) (a : GReg) (b : GReg) (c : GReg)
  /-- PUT (R285). -/
  | put (h : Hdr) (i64 : Bool) (pm : Mode) (lm : Mode) (cmb : BitVec 2) (tid : BitVec 8) (d : KReg) (a : GReg) (b : GReg) (c : GReg)
  /-- GPWAIT (R289). -/
  | gpwait (h : Hdr) (sub : Bool) (d : GReg) (a : KReg) (b : GReg)
  -- class 0xB: tile (R321)
  /-- CARD (R322). -/
  | card (h : Hdr) (lvl : Lvl) (a : VReg)
  /-- CWAIT (R323). -/
  | cwait (h : Hdr) (d : GReg) (a : GReg)
  /-- OCLAIM (R324). -/
  | oclaim (h : Hdr) (d : GReg) (a : GReg)
  /-- OREL (R324). -/
  | orel (h : Hdr) (a : GReg)
  /-- OFILL (R325). -/
  | ofill (h : Hdr) (d : OReg) (a : VReg) (b : GReg)
  /-- ACLR (R325). -/
  | aclr (h : Hdr) (d : AReg)
  /-- AST (R325). -/
  | ast (h : Hdr) (am : Mode) (f : TFmt) (act : BitVec 2) (vr1 : BitVec 5) (vc1 : BitVec 5) (a : AReg) (b : GReg) (c : Option GReg)
  /-- ALD (R325). -/
  | ald (h : Hdr) (am : Mode) (f : TFmt) (d : AReg) (a : GReg)
  /-- TDSET (R326). -/
  | tdset (h : Hdr) (tid : BitVec 8) (a : VReg)
  /-- TDGET (R326). -/
  | tdget (h : Hdr) (tid : BitVec 8) (d : VReg)
  -- class 0xC: fabric (R336)
  /-- PGET (R337). -/
  | pget (h : Hdr) (f : PeerLd) (a : GReg) (b : GReg) (disp : BitVec 16)
  /-- PPUT (R337). -/
  | pput (h : Hdr) (f : PeerSt) (a : GReg) (b : GReg) (disp : BitVec 16)
  /-- PATOM (R337). -/
  | patom (h : Hdr) (wd : Wd) (op : AtomOp) (d : GReg) (a : GReg) (b : GReg) (disp : BitVec 16)
  /-- FBAR (R339). -/
  | fbar (h : Hdr) (a : GReg) (b : GReg)
  -- class 0xD: system (R368)
  /-- TRAP (R369). -/
  | trap (h : Hdr) (code : BitVec 8)
  /-- ERET (R370). -/
  | eret (h : Hdr)
  /-- ERET_NEXT (R370). -/
  | eretNext (h : Hdr)
  /-- CSRR (R371). -/
  | csrr (h : Hdr) (d : GReg) (r : Csr)
  /-- CSRW (R371). -/
  | csrw (h : Hdr) (r : Csr) (a : GReg)
  /-- TLBINV_PAGE (R372). -/
  | tlbinvPage (h : Hdr) (a : GReg) (b : GReg)
  /-- TLBINV_TENANT (R372). -/
  | tlbinvTenant (h : Hdr) (a : GReg) (b : GReg)
  /-- TLBINV_ALL (R372). -/
  | tlbinvAll (h : Hdr) (a : GReg) (b : GReg)
  /-- JNLRD (R373). -/
  | jnlrd (h : Hdr) (word : BitVec 4) (d : GReg) (a : GReg)
  /-- JNLCLR (R373). -/
  | jnlclr (h : Hdr) (a : GReg)
  /-- JNLCLR_RESEND (R373). -/
  | jnlclrResend (h : Hdr) (a : GReg)
  /-- CTXSV (R374). -/
  | ctxsv (h : Hdr) (a : GReg) (b : GReg)
  /-- CTXLD (R374). -/
  | ctxld (h : Hdr) (a : GReg) (b : GReg)
  /-- FENCEI (R375). -/
  | fencei (h : Hdr)
  -- class 0xE: scheduling (R389)
  /-- LAUNCH (R390). -/
  | launch (h : Hdr) (d : GReg) (a : GReg)
  /-- GLAUNCH (R386). -/
  | glaunch (h : Hdr) (d : GReg) (a : GReg) (b : GReg)
  /-- GNODE_GRAPH (R385). -/
  | gnodeGraph (h : Hdr) (d : GReg) (a : GReg)
  /-- GNODE_NODE (R392). -/
  | gnodeNode (h : Hdr) (d : GReg) (a : GReg) (b : GReg)
  /-- GNODE_EDGE (R392). -/
  | gnodeEdge (h : Hdr) (d : GReg) (a : GReg) (b : GReg)
  /-- GNODE_DROP (R387). -/
  | gnodeDrop (h : Hdr) (d : GReg) (a : GReg)
  /-- GDONE (R392). -/
  | gdone (h : Hdr) (d : GReg) (a : GReg) (b : GReg)
  /-- GRAB_TAKE (R388). -/
  | grabTake (h : Hdr) (d : GReg) (a : GReg)
  /-- GRAB_SET (R393). -/
  | grabSet (h : Hdr) (d : GReg) (a : GReg) (b : GReg)
  /-- QSTAT_LAUNCH (R394). -/
  | qstatLaunch (h : Hdr) (d : GReg) (a : GReg)
  /-- QSTAT_QUEUE (R394). -/
  | qstatQueue (h : Hdr) (d : GReg) (a : GReg)
  /-- QSTAT_RANGE (R394). -/
  | qstatRange (h : Hdr) (d : GReg) (a : GReg)
  /-- QSTAT_INST (R394). -/
  | qstatInst (h : Hdr) (d : GReg) (a : GReg)
  -- class 0xF: debug and trace (R413)
  /-- RENTER (R414). -/
  | renter (h : Hdr) (id : BitVec 16)
  /-- RLEAVE (R414). -/
  | rleave (h : Hdr)
  /-- TRACE (R415). -/
  | trace (h : Hdr) (tag : BitVec 16) (a : GReg)
  /-- BRK (R416). -/
  | brk (h : Hdr) (code : BitVec 16) (scope : BitVec 2)
  /-- WPSET (R417). -/
  | wpset (h : Hdr) (idx : BitVec 3) (kind : BitVec 2) (scope : BitVec 2) (am : Mode) (a : GReg)
  /-- WPCLR (R417). -/
  | wpclr (h : Hdr) (idx : BitVec 3) (am : Mode) (a : GReg)
  /-- CNTRD (R418). -/
  | cntrd (h : Hdr) (lat : Bool) (n : BitVec 8) (d : GReg)
  -- events of the outside parties
  /-- PAGE_MAPPED_RESTORE (R354). -/
  | pageMappedRestore (tenant : Nat) (page : Nat) (mapped : Bool)
  /-- SCHEDULER_COMMAND (R377). -/
  | schedulerCommand (c : SchedCmd)
  /-- IMAGE_LOAD (R57). -/
  | imageLoad (tenant : Nat) (image : ImageFile)
  /-- FABRIC_BARRIER_ARRIVE (R339). -/
  | fabricBarrierArrive (group : Nat) (rank : Nat)
  /-- PROGRESS_PROBE (R341). -/
  | progressProbe (group : Nat) (rank : Nat) (held : Bool)
  /-- REPLICA_SET_CHANGE (R343). -/
  | replicaSetChange (set : Nat) (add : List Nat) (remove : List Nat)
  /-- GANG_SWITCH (R364): the cores of a partition, each with the physical address of its save area. -/
  | gangSwitch (areas : List (Nat × Word))
  /-- GANG_RESUME (R364). -/
  | gangResume (areas : List (Nat × Word))
  /-- DCMD_STOP (R410). -/
  | dcmdStop (core : Nat) (scope : BitVec 2) (edge : Bool)
  /-- DCMD_RESUME (R408). -/
  | dcmdResume (core : Nat)
  /-- DCMD_STEP_CONTEXT (R407). -/
  | dcmdStepContext (core : Nat) (ctx : Nat) (eng : Bool)
  /-- DCMD_STEP_GROUP (R407). -/
  | dcmdStepGroup (core : Nat) (handle : BitVec 32) (eng : Bool)
  /-- CLOCK_RATE_ADJUST (R397). -/
  | clockRateAdjust (adj : Word)
  /-- CLOCK_STEP_FORWARD (R397). -/
  | clockStepForward (ns : Word)
  /-- MACHINE_CHECK (R425). -/
  | machineCheck (m : MCheck)
  /-- ATTESTATION_REQUEST (R367). -/
  | attestationRequest (tenant : Nat) (launch : Nat) (nonce : BitVec 256)
  /-- PCIE_HOST_ACCESS (R446). -/
  | pcieHostAccess (bar2 : Bool) (wr : Bool) (addr : Word) (data : Word)
  /-- THERMAL_REPORT (R449). -/
  | thermalReport (die : Nat) (temp : Nat)
  /-- PLIMIT_SET (R448). -/
  | plimitSet (w : BitVec 32)
  /-- CONTROL_REGISTER_WRITE (R371). -/
  | controlRegisterWrite (r : Ctl) (v : Word)
  /-- SYSTEM_CORE_ACCESS (R360). -/
  | systemCoreAccess (hart : Nat) (wr : Bool) (sz : StSz) (addr : Word) (data : Word)
  /-- HART_START_REQUEST (R441). -/
  | hartStartRequest (hart : Nat)
  -- events: the steps of the machine and of the outside parties (95_what_each_step_holds.md)
  /-- PAIR_ISSUE (R34). -/
  | pairIssue (w1 : Insn96) (w2 : Insn96)
  /-- FETCH_LINE (R452). -/
  | fetchLine (core : Nat) (ctx : Nat)
  /-- PLANKER_REISSUE (R176). -/
  | plankerReissue (core : Nat) (pos : Nat)
  /-- DRAIN (R208). -/
  | drain (core : Nat) (ctx : Nat)
  /-- MESSAGE_DELIVER (R206). -/
  | messageDeliver (i : Nat)
  /-- HOME_SERVE (R204). -/
  | homeServe (q : Nat)
  /-- LONG_RESULT_LAND (R83). -/
  | longResultLand (core : Nat) (ctx : Nat) (i : Nat)
  /-- STORE_ACKNOWLEDGE (R214). -/
  | storeAcknowledge (i : Nat)
  /-- DOZE_WAKE (R110). -/
  | dozeWake (core : Nat) (ctx : Nat)
  /-- SYNC_LIMIT (R104). -/
  | syncLimit (core : Nat) (ctx : Nat)
  /-- SYNC_CANCEL_RETURN (R196). -/
  | syncCancelReturn (i : Nat)
  /-- CONTEXT_REUSE_DELAY (R91). -/
  | contextReuseDelay (core : Nat) (ctx : Nat)
  /-- STRAY_MESSAGE_DISCARD (R91). -/
  | strayMessageDiscard (i : Nat)
  /-- ENGINE_ACCESS_RETRY (R290). -/
  | engineAccessRetry (i : Nat)
  /-- LAUNCH_START (R381). -/
  | launchStart 
  /-- THREAD_START (R27). -/
  | threadStart (launch : Nat)
  /-- PRIORITY_AGING (R380). -/
  | priorityAging (launch : Nat)
  /-- DEFICIT_CHARGE (R381). -/
  | deficitCharge 
  /-- CORE_GATE (R383). -/
  | coreGate (core : Nat)
  /-- CORE_WAKE (R448). -/
  | coreWake (core : Nat)
  /-- DONE_MESSAGE (R28). -/
  | doneMessage (core : Nat) (launch : Nat)
  /-- COMPLETION_COMBINE (R28). -/
  | completionCombine (i : Nat)
  /-- GRAPH_NODE_COMPLETE (R386). -/
  | graphNodeComplete (inst : Nat) (node : Nat)
  /-- INSTANCE_FILL (R158). -/
  | instanceFill (launch : Nat)
  /-- INSTANCE_SEAL (R159). -/
  | instanceSeal (launch : Nat)
  /-- GROUP_REQUEST_ARRIVE (R95). -/
  | groupRequestArrive (i : Nat)
  /-- BARRIER_ARRIVAL (R95). -/
  | barrierArrival (i : Nat)
  /-- GROUP_RELEASE (R95). -/
  | groupRelease (i : Nat)
  /-- EXPERIENCE_FILL_LAND (R144). -/
  | experienceFillLand (i : Nat)
  /-- MERGE_REPLY (R148). -/
  | mergeReply (i : Nat)
  /-- ENGINE_KICK_ACCEPT (R219). -/
  | engineKickAccept (i : Nat)
  /-- CHUNK_COMPLETE (R269). -/
  | chunkComplete (core : Nat) (op : Nat) (chunk : Nat)
  /-- CB_STAGE_WRITE (R270). -/
  | cbStageWrite (core : Nat) (op : Nat)
  /-- DEAL_COMPLETE (R274). -/
  | dealComplete (i : Nat)
  /-- STREAM_STRIP_LOAD (R276). -/
  | streamStripLoad (core : Nat) (ctx : Nat) (v : Nat)
  /-- FILL_NOTICE (R282). -/
  | fillNotice (i : Nat)
  /-- STAGE_FREE_NOTICE (R282). -/
  | stageFreeNotice (i : Nat)
  /-- GATHER_COMPLETE (R285). -/
  | gatherComplete (core : Nat) (op : Nat)
  /-- CLB_WALK (R254). -/
  | clbWalk (i : Nat)
  /-- CARD_ACCEPT (R302). -/
  | cardAccept (lvl : Lvl) (unit : Nat) (i : Nat)
  /-- CARD_DECOMPOSE (R315). -/
  | cardDecompose (lvl : Lvl) (unit : Nat)
  /-- CARD_PARITY_REFETCH (R316). -/
  | cardParityRefetch (lvl : Lvl) (unit : Nat)
  /-- CARD_RUN (R305). -/
  | cardRun (core : Nat)
  /-- SLOT_CLAIM_GRANT (R324). -/
  | slotClaimGrant (core : Nat)
  /-- CHILD_REPORT (R318). -/
  | childReport (i : Nat)
  /-- CARD_RETIRE (R304). -/
  | cardRetire (lvl : Lvl) (unit : Nat)
  /-- FLIT_REPLAY (R334). -/
  | flitReplay (link : Nat) (ok : Bool)
  /-- FABRIC_BARRIER_RELEASE (R339). -/
  | fabricBarrierRelease (group : Nat)
  /-- FABRIC_TIMEOUT (R340). -/
  | fabricTimeout (group : Nat)
  /-- REPLICA_INVALIDATE_ACK (R343). -/
  | replicaInvalidateAck (set : Nat) (frame : Nat)
  /-- TLB_INVALIDATE (R230). -/
  | tlbInvalidate (i : Nat)
  /-- BREAKPOINT_HIT (R401). -/
  | breakpointHit (core : Nat) (ctx : Nat)
  /-- STOP_ARRIVE (R404). -/
  | stopArrive (core : Nat)
  /-- PRECISE_STOP_TIMEOUT (R406). -/
  | preciseStopTimeout (core : Nat) (ctx : Nat)
  /-- ENGINE_STEP_LIMIT (R408). -/
  | engineStepLimit (core : Nat)
  /-- TICK_LATCH (R411). -/
  | tickLatch 
  /-- PTP_EVENT_MESSAGE (R397). -/
  | ptpEventMessage (port : Nat)
  /-- KEEPALIVE_RESPONSE (R406). -/
  | keepaliveResponse (port : Nat)
  /-- PAIR_TIMEOUT (R428). -/
  | pairTimeout (core : Nat) (ctx : Nat)
  /-- PAIR_MISMATCH (R430). -/
  | pairMismatch (core : Nat)
  /-- CHECKPOINT_CLOSE (R433). -/
  | checkpointClose 
  /-- COMMIT_RECORD (R433). -/
  | commitRecord 
  /-- ROLLBACK (R434). -/
  | rollback 
  /-- CONTAINMENT (R435). -/
  | containment (cluster : Nat)
  /-- POWER_ON (R441). -/
  | powerOn 
  /-- BOOT_IMAGE_FETCH (R441). -/
  | bootImageFetch (ok : Bool)
  /-- BOOT_VERIFY (R441). -/
  | bootVerify (ok : Bool) (cfg : List Byte)
  /-- BOOT_RETRY_WAIT (R443). -/
  | bootRetryWait 
  /-- REDFISH_POWER (R445). -/
  | redfishPower (op : BitVec 2)
  /-- REDFISH_BOOT_STATE (R445). -/
  | redfishBootState 
  /-- CXL_PORT_DOWN (R440). -/
  | cxlPortDown (port : Nat)
  /-- REFUSED_WITH_RETRY_RESEND (R196). -/
  | refusedWithRetryResend (i : Nat)
  /-- ETHERNET_FRAME_RECEIVE (R444). -/
  | ethernetFrameReceive (port : Nat) (frame : List Byte)
  /-- MACHINE_CHECK_THREAD_END (R425). -/
  | machineCheckThreadEnd (core : Nat) (ctx : Nat)
deriving DecidableEq, Repr

end Sys2Proof
end

