-- ==== Sys2Proof/WellFormed.lean ====
section
/-! DEFINITION. WellFormed.lean: the combinations of operands that an instruction accepts, where its fields taken one by one
would allow more. A combination that is not well formed takes ILLEGAL_INSN (R42). -/
namespace Sys2Proof

/-- Kind of a conversion format: a floating-point format, or an integer of w bits. -/
def NFmt.bits : NFmt → Nat
  | .f32 | .i32 | .u32 => 32
  | .f16 | .bf16 | .i16 | .u16 => 16
  | .i8 | .u8 => 8
  | .i64 | .u64 => 64

/-- The format is a floating-point format. -/
def NFmt.isFloat : NFmt → Bool
  | .f32 | .f16 | .bf16 => true
  | _ => false

/-- The pairs VCVT accepts, one way (R168): float with another float, f32 with i32 to u8, f16 and bf16 with i16 and u16. -/
def cvtPair (x y : NFmt) : Bool :=
  (x.isFloat && y.isFloat && x != y) ||
  (x == .f32 && !y.isFloat && y.bits != 64) ||
  ((x == .f16 || x == .bf16) && (y == .i16 || y == .u16))

/-- The pairs VCVT accepts (R168). -/
def vcvtOk (t src : NFmt) : Bool := cvtPair t src || cvtPair src t

/-- The pairs FCVT accepts (R170): a float with another float, or a float with any integer. -/
def fcvtOk (t src : NFmt) : Bool :=
  (t.isFloat && src.isFloat && t != src) || (t.isFloat != src.isFloat)

/-- Part of VCVT (R168): below 32 over the narrow width, 0 when the widths are equal. -/
def vcvtPart (t src : NFmt) (part : BitVec 2) : Bool :=
  if t.bits == src.bits then part == 0 else part.toNat < 32 / min t.bits src.bits

/-- The instruction is one that the machine accepts (R42 with the rule of each instruction). Events are always accepted. -/
def Instr.wf : Instr → Bool
  | .li _ wd _ imm => wd == .d || imm.extractLsb' 32 16 == 0
  | .vcvt _ _ part t src _ _ => vcvtOk t src && vcvtPart t src part
  | .fcvt _ _ t src _ _ => fcvtOk t src
  | .vqnt _ _ f bx _ _ b c => (b.isSome == (f == .f32)) && (bx != .bx16 || c.isSome)
  | .vdqnt _ _ part f bx _ _ c => (part == 0 || (f == .f32 && part == 1)) && (bx != .bx16 || c.isSome)
  | .vsrnd _ part f _ _ _ _ => f != .f32 && part.toNat ≤ 1
  | .vbxdot _ _ bx _ _ _ c => bx != .bx16 || c.isSome
  | .ld _ _ nc _ _ m => !nc || m.am == .g
  | .st _ _ bset _ m => !bset || m.am == .g
  | .vld _ nc _ _ m => !nc || m.am == .g
  | .vst _ bset _ m => !bset || m.am == .g
  | .lds _ _ m => m.am != .g
  | .sts _ _ m => m.am != .g
  | .ldf _ _ m => m.am != .g
  | .feset _ m => m.am != .g
  | .feclr _ m => m.am != .g
  | .atom _ wd op _ _ _ _ _ => op != .fadd32 || wd == .w
  | .pref _ _ m => m.am == .g
  | .patom _ wd op d _ _ _ => (op != .fadd32 || wd == .w) && (op != .cas || d != 63)
  | .jnlrd _ word _ _ => word.toNat ≤ 3 || 8 ≤ word.toNat
  | .renter _ id => id != 0
  | .wpset _ idx kind _ am _ => am != .c && kind != 0 && (am == .g || idx.toNat ≤ 3)
  | .wpclr _ idx am _ => am != .c && (am == .g || idx.toNat ≤ 3)
  | .cntrd _ _ n _ => n.toNat ≤ 0x0E
  | _ => true

end Sys2Proof
end

