-- ==== Sys2Proof/Decode.lean ====
section
/-! DEFINITION. Decode.lean: the 96-bit word in its parts, decoding (total, refusing by name), and the encoder. -/
namespace Sys2Proof

/-- Why a word is no legal instruction (R42). Each of them makes the issue take ILLEGAL_INSN. -/
inductive Reject
  /-- FN not assigned in its class (R45) -/
  | unassignedFn
  /-- a reserved field or bit is set (R41) -/
  | reservedField
  /-- SZ not accepted (R40, R194) -/
  | badSize
  /-- AM not accepted (R194, R336) -/
  | badMode
  /-- a specifier unassigned or of the wrong kind (R43, R44) -/
  | badSpecifier
  /-- a condition code of 8 to 15 (R118, R164) -/
  | badCondition
  /-- a format, view or rounding code not assigned (R61, R164, R325) -/
  | badFormat
  /-- a sub-operation not assigned (R198, R255, R268, R389) -/
  | badOperation
  /-- a special or core register number in no table (R105, R371) -/
  | badNumber
  /-- a combination of fields that the instruction does not accept (WellFormed.lean) -/
  | illFormed
deriving DecidableEq, Repr

/-- The parts of an instruction word (R37, R39). Formats I, B and E read the same bytes under other names:
I: M is b and c, IMM48 is m, x and z. B: A is d, B is a, M is b and c, X is m, DISP32 is x and z.
E: LVL or ENG is the high byte of m, TID its low byte, IMM32 is x and z. M: AM, SC, SZ are c, DISP16 is z. -/
structure Raw where
  s   : Bool
  g   : BitVec 3
  n   : Bool
  cls : BitVec 4
  fn  : BitVec 7
  d   : BitVec 8
  a   : BitVec 8
  b   : BitVec 8
  c   : BitVec 8
  m   : BitVec 16
  x   : BitVec 16
  z   : BitVec 16
deriving DecidableEq, Repr

/-- A word cut into its parts (R37, R39). -/
def Raw.ofWord (w : Insn96) : Raw :=
  { s := w.getLsbD 95, g := w.extractLsb' 92 3, n := w.getLsbD 91
    cls := w.extractLsb' 87 4, fn := w.extractLsb' 80 7
    d := w.extractLsb' 72 8, a := w.extractLsb' 64 8, b := w.extractLsb' 56 8, c := w.extractLsb' 48 8
    m := w.extractLsb' 32 16, x := w.extractLsb' 16 16, z := w.extractLsb' 0 16 }

/-- The word of the parts (R37, R39). -/
def Raw.toWord (r : Raw) : Insn96 :=
  BitVec.ofBool r.s ++ r.g ++ BitVec.ofBool r.n ++ r.cls ++ r.fn ++ r.d ++ r.a ++ r.b ++ r.c ++ r.m ++ r.x ++ r.z

/-- M of formats I and B (R39). -/
def Raw.mi (r : Raw) : BitVec 16 := r.b ++ r.c
/-- IMM48 of format I (R39). -/
def Raw.imm48 (r : Raw) : BitVec 48 := r.m ++ r.x ++ r.z
/-- DISP32 of format B and IMM32 of format E (R39). -/
def Raw.imm32 (r : Raw) : BitVec 32 := r.x ++ r.z

/-- The parts of a word of format A or M. -/
def rawA (h : Hdr) (cls : BitVec 4) (fn : BitVec 7) (d a b c : BitVec 8) (m x z : BitVec 16) : Raw :=
  ⟨h.s, h.g, h.n, cls, fn, d, a, b, c, m, x, z⟩
/-- The parts of a word of format I. -/
def rawI (h : Hdr) (cls : BitVec 4) (fn : BitVec 7) (d a : BitVec 8) (m : BitVec 16) (imm : BitVec 48) : Raw :=
  ⟨h.s, h.g, h.n, cls, fn, d, a, m.extractLsb' 8 8, m.extractLsb' 0 8,
    imm.extractLsb' 32 16, imm.extractLsb' 16 16, imm.extractLsb' 0 16⟩
/-- The parts of a word of format B. -/
def rawB (h : Hdr) (cls : BitVec 4) (fn : BitVec 7) (a b : BitVec 8) (x : BitVec 16) (disp : BitVec 32) : Raw :=
  ⟨h.s, h.g, h.n, cls, fn, a, b, 0, 0, x, disp.extractLsb' 16 16, disp.extractLsb' 0 16⟩
/-- The parts of a word of format E. -/
def rawE (h : Hdr) (cls : BitVec 4) (fn : BitVec 7) (d a b c : BitVec 8) (m : BitVec 16) (imm : BitVec 32) : Raw :=
  ⟨h.s, h.g, h.n, cls, fn, d, a, b, c, m, imm.extractLsb' 16 16, imm.extractLsb' 0 16⟩

/-- A sub-field put at bit lo of a field of n bits. -/
def putAt (n lo : Nat) {k : Nat} (v : BitVec k) : BitVec n := v.setWidth n <<< lo

/-- Pass when b holds, else refuse under the name e. -/
def need (b : Bool) (e : Reject) : Except Reject Unit := if b then .ok () else .error e
/-- A reserved field must be zero (R41). -/
def zero {k : Nat} (f : BitVec k) : Except Reject Unit := need (f == 0) .reservedField

/-- A g specifier (R43). -/
def isG (s : BitVec 8) : Bool := s.extractLsb' 6 2 == 0
/-- The g register of a specifier (R43). -/
def gReg (s : BitVec 8) : Except Reject GReg :=
  if isG s then .ok (s.extractLsb' 0 6) else .error .badSpecifier
/-- The v register of a specifier (R43). -/
def vReg (s : BitVec 8) : Except Reject VReg :=
  if s.extractLsb' 5 3 == 2 then .ok (s.extractLsb' 0 5) else .error .badSpecifier
/-- The p register of a specifier (R43). -/
def pReg (s : BitVec 8) : Except Reject PReg :=
  if s.extractLsb' 3 5 == 12 then .ok (s.extractLsb' 0 3) else .error .badSpecifier
/-- The accumulator of a specifier (R43). -/
def aReg (s : BitVec 8) : Except Reject AReg :=
  if s.extractLsb' 4 4 == 8 then .ok (s.extractLsb' 0 4) else .error .badSpecifier
/-- The operand slot of a specifier, 0x90 to 0xAF (R43). -/
def oReg (s : BitVec 8) : Except Reject OReg :=
  if (s - 0x90).extractLsb' 5 3 == 0 then .ok ((s - 0x90).extractLsb' 0 5) else .error .badSpecifier
/-- The copy handle of a specifier (R43). -/
def hReg (s : BitVec 8) : Except Reject HReg :=
  if s.extractLsb' 4 4 == 11 then .ok (s.extractLsb' 0 4) else .error .badSpecifier
/-- The circular buffer of a specifier (R43). -/
def cbReg (s : BitVec 8) : Except Reject CbReg :=
  if s.extractLsb' 3 5 == 24 then .ok (s.extractLsb' 0 3) else .error .badSpecifier
/-- The completion counter of a specifier, 0xC8 to 0xD7 (R43). -/
def kReg (s : BitVec 8) : Except Reject KReg :=
  if (s - 0xC8).extractLsb' 4 4 == 0 then .ok ((s - 0xC8).extractLsb' 0 4) else .error .badSpecifier
/-- An optional g register; 0xFF is none (R41). -/
def optGReg (s : BitVec 8) : Except Reject (Option GReg) :=
  if s == 0xFF then .ok none else (gReg s).map some
/-- An optional p register; 0xFF is none (R41). -/
def optPReg (s : BitVec 8) : Except Reject (Option PReg) :=
  if s == 0xFF then .ok none else (pReg s).map some
/-- B of VQNT: a v register, or zero (R173). -/
def zeroVReg (s : BitVec 8) : Except Reject (Option VReg) :=
  if s == 0 then .ok none else (vReg s).map some

/-- The specifier of a g register (R43). -/
def gSpec (r : GReg) : BitVec 8 := r.setWidth 8
/-- The specifier of a v register (R43). -/
def vSpec (r : VReg) : BitVec 8 := 0x40#8 + r.setWidth 8
/-- The specifier of a p register (R43). -/
def pSpec (r : PReg) : BitVec 8 := 0x60#8 + r.setWidth 8
/-- The specifier of an accumulator (R43). -/
def aSpec (r : AReg) : BitVec 8 := 0x80#8 + r.setWidth 8
/-- The specifier of an operand slot (R43). -/
def oSpec (r : OReg) : BitVec 8 := 0x90#8 + r.setWidth 8
/-- The specifier of a copy handle (R43). -/
def hSpec (r : HReg) : BitVec 8 := 0xB0#8 + r.setWidth 8
/-- The specifier of a circular buffer (R43). -/
def cbSpec (r : CbReg) : BitVec 8 := 0xC0#8 + r.setWidth 8
/-- The specifier of a completion counter (R43). -/
def kSpec (r : KReg) : BitVec 8 := 0xC8#8 + r.setWidth 8
/-- The specifier of an optional g register (R41). -/
def optGSpec : Option GReg → BitVec 8
  | none => 0xFF
  | some r => gSpec r
/-- The specifier of an optional p register (R41). -/
def optPSpec : Option PReg → BitVec 8
  | none => 0xFF
  | some r => pSpec r
/-- B of VQNT (R173). -/
def zeroVSpec : Option VReg → BitVec 8
  | none => 0
  | some r => vSpec r

/-- Width bit M<0> (R118). -/
def wdOf (v : BitVec 1) : Wd := if v == 1 then .d else .w
def wdBits : Wd → BitVec 1
  | .w => 0 | .d => 1
/-- Mode field AM (R40). -/
def modeOf (v : BitVec 2) : Mode := match v.toNat with | 0 => .l | 1 => .c | 2 => .x | _ => .g
def modeBits : Mode → BitVec 2
  | .l => 0 | .c => 1 | .x => 2 | .g => 3
/-- AM of VLDX and VSTX, .l or .c (R194). -/
def lcOf (v : BitVec 2) : Except Reject Bool :=
  match v.toNat with | 0 => .ok false | 1 => .ok true | _ => .error .badMode
def lcBits (c : Bool) : BitVec 2 := if c then 1 else 0
/-- Size of ATOM and PATOM, SZ 2 or 3 (R194, R336). -/
def wdszOf (v : BitVec 4) : Except Reject Wd :=
  match v.toNat with | 2 => .ok .w | 3 => .ok .d | _ => .error .badSize
def wdszBits : Wd → BitVec 4
  | .w => 2 | .d => 3
/-- SZ of a load (R40). -/
def ldszOf (v : BitVec 4) : Except Reject LdSz :=
  match v.toNat with
  | 0 => .ok .b | 1 => .ok .h | 2 => .ok .w | 3 => .ok .d | 4 => .ok .bu | 5 => .ok .hu | 6 => .ok .wu
  | _ => .error .badSize
def ldszBits : LdSz → BitVec 4
  | .b => 0 | .h => 1 | .w => 2 | .d => 3 | .bu => 4 | .hu => 5 | .wu => 6
/-- SZ of a store (R40). -/
def stszOf (v : BitVec 4) : Except Reject StSz :=
  match v.toNat with | 0 => .ok .b | 1 => .ok .h | 2 => .ok .w | 3 => .ok .d | _ => .error .badSize
def stszBits : StSz → BitVec 4
  | .b => 0 | .h => 1 | .w => 2 | .d => 3
/-- Condition of SETP and VICMP (R118). -/
def condOf (v : BitVec 4) : Except Reject Cond :=
  match v.toNat with
  | 0 => .ok .eq | 1 => .ok .ne | 2 => .ok .lt | 3 => .ok .ge | 4 => .ok .ltu | 5 => .ok .geu | 6 => .ok .tst | 7 => .ok .tstz
  | _ => .error .badCondition
def condBits : Cond → BitVec 4
  | .eq => 0 | .ne => 1 | .lt => 2 | .ge => 3 | .ltu => 4 | .geu => 5 | .tst => 6 | .tstz => 7
/-- Condition of VCMP and FCMP (R164). -/
def fcondOf (v : BitVec 4) : Except Reject FCond :=
  match v.toNat with
  | 0 => .ok .eq | 1 => .ok .ne | 2 => .ok .lt | 3 => .ok .le | 4 => .ok .gt | 5 => .ok .ge | 6 => .ok .un | 7 => .ok .or
  | _ => .error .badCondition
def fcondBits : FCond → BitVec 4
  | .eq => 0 | .ne => 1 | .lt => 2 | .le => 3 | .gt => 4 | .ge => 5 | .un => 6 | .or => 7
/-- Format M<5:4> (R164). -/
def fmtOf (v : BitVec 2) : Except Reject Fmt :=
  match v.toNat with | 0 => .ok .f32 | 1 => .ok .f16 | 2 => .ok .bf16 | _ => .error .badFormat
def fmtBits : Fmt → BitVec 2
  | .f32 => 0 | .f16 => 1 | .bf16 => 2
/-- Rounding field M<2:0> (R61). -/
def rmOf (v : BitVec 3) : Except Reject Rm :=
  match v.toNat with | 0 => .ok .cur | 1 => .ok .rn | 2 => .ok .rz | 3 => .ok .ru | 4 => .ok .rd | _ => .error .badFormat
def rmBits : Rm → BitVec 3
  | .cur => 0 | .rn => 1 | .rz => 2 | .ru => 3 | .rd => 4
/-- Formats of VCVT and FCVT (R164). -/
def nfmtOf (v : BitVec 4) : Except Reject NFmt :=
  match v.toNat with
  | 0 => .ok .f32 | 1 => .ok .f16 | 2 => .ok .bf16 | 4 => .ok .i32 | 5 => .ok .u32 | 6 => .ok .i16 | 7 => .ok .u16
  | 8 => .ok .i8 | 9 => .ok .u8 | 10 => .ok .i64 | 11 => .ok .u64 | _ => .error .badFormat
def nfmtBits : NFmt → BitVec 4
  | .f32 => 0 | .f16 => 1 | .bf16 => 2 | .i32 => 4 | .u32 => 5 | .i16 => 6 | .u16 => 7 | .i8 => 8 | .u8 => 9
  | .i64 => 10 | .u64 => 11
/-- View M<5:4> of class 0x6 (R164). -/
def viewOf (v : BitVec 2) : Except Reject View :=
  match v.toNat with | 0 => .ok .i32 | 1 => .ok .i16 | 2 => .ok .i8 | _ => .error .badFormat
def viewBits : View → BitVec 2
  | .i32 => 0 | .i16 => 1 | .i8 => 2
/-- Block format M<9:8> (R164). -/
def bxOf (v : BitVec 2) : Except Reject Bx :=
  match v.toNat with | 0 => .ok .bx4 | 1 => .ok .bx8 | 2 => .ok .bx16 | _ => .error .badFormat
def bxBits : Bx → BitVec 2
  | .bx4 => 0 | .bx8 => 1 | .bx16 => 2
/-- Atomic operation M<7:4> (R198). -/
def atomOf (v : BitVec 4) : Except Reject AtomOp :=
  match v.toNat with
  | 0 => .ok .add | 1 => .ok .min | 2 => .ok .max | 3 => .ok .umin | 4 => .ok .umax | 5 => .ok .and | 6 => .ok .or
  | 7 => .ok .xor | 8 => .ok .swap | 9 => .ok .cas | 10 => .ok .fadd32 | _ => .error .badOperation
def atomBits : AtomOp → BitVec 4
  | .add => 0 | .min => 1 | .max => 2 | .umin => 3 | .umax => 4 | .and => 5 | .or => 6 | .xor => 7 | .swap => 8
  | .cas => 9 | .fadd32 => 10
/-- Place kind of CPY (R268). -/
def ckindOf (v : BitVec 4) : Except Reject CKind :=
  match v.toNat with
  | 0 => .ok .l | 1 => .ok .c | 2 => .ok .x | 3 => .ok .g | 4 => .ok .o | 5 => .ok .cb | _ => .error .badOperation
def ckindBits : CKind → BitVec 4
  | .l => 0 | .c => 1 | .x => 2 | .g => 3 | .o => 4 | .cb => 5
/-- LVL of CARD (R321). -/
def lvlOf (v : BitVec 8) : Except Reject Lvl :=
  match v.toNat with
  | 1 => .ok .L1 | 2 => .ok .L2 | 3 => .ok .L3 | 4 => .ok .L4 | 5 => .ok .L5 | _ => .error .reservedField
def lvlBits : Lvl → BitVec 8
  | .L1 => 1 | .L2 => 2 | .L3 => 3 | .L4 => 4 | .L5 => 5
/-- Unit format of ALD and AST (R325). -/
def tfmtOf (v : BitVec 4) : Except Reject TFmt :=
  match v.toNat with
  | 0 => .ok .f32 | 1 => .ok .f16 | 2 => .ok .bf16 | 4 => .ok .bx8 | 5 => .ok .bx16 | _ => .error .badFormat
def tfmtBits : TFmt → BitVec 4
  | .f32 => 0 | .f16 => 1 | .bf16 => 2 | .bx8 => 4 | .bx16 => 5
/-- Number of a special register (R105, R350). -/
def sregOf (v : BitVec 12) : Except Reject SReg :=
  match v.toNat with
  | 0x000 => .ok .tid | 0x001 => .ok .nthr | 0x002 => .ok .core | 0x003 => .ok .cluster | 0x004 => .ok .die
  | 0x005 => .ok .ctx | 0x006 => .ok .incarn | 0x007 => .ok .launch | 0x008 => .ok .tenant | 0x009 => .ok .isel
  | 0x010 => .ok .fflags | 0x011 => .ok .frm | 0x012 => .ok .bxdelta | 0x013 => .ok .synclim | 0x014 => .ok .part
  | 0x020 => .ok .trapvec | 0x021 => .ok .trapcause | 0x022 => .ok .trappc | 0x023 => .ok .trapaddr
  | 0x024 => .ok .trapinfo | 0x025 => .ok .tstat | 0x030 => .ok .region | _ => .error .badNumber
def sregBits : SReg → BitVec 12
  | .tid => 0x000 | .nthr => 0x001 | .core => 0x002 | .cluster => 0x003 | .die => 0x004
  | .ctx => 0x005 | .incarn => 0x006 | .launch => 0x007 | .tenant => 0x008 | .isel => 0x009
  | .fflags => 0x010 | .frm => 0x011 | .bxdelta => 0x012 | .synclim => 0x013 | .part => 0x014
  | .trapvec => 0x020 | .trapcause => 0x021 | .trappc => 0x022 | .trapaddr => 0x023
  | .trapinfo => 0x024 | .tstat => 0x025 | .region => 0x030
/-- Number of a core register (R371). -/
def csrOf (v : BitVec 12) : Except Reject Csr :=
  match v.toNat with
  | 0x001 => .ok .issue | 0x002 => .ok .stray | 0x003 => .ok .fpar | 0x004 => .ok .xmis | 0x005 => .ok .jnlref
  | 0x006 => .ok .saves
  | _ => if v.extractLsb' 3 9 == 0x80 then .ok (.win (v.extractLsb' 0 3)) else .error .badNumber
def csrBits : Csr → BitVec 12
  | .issue => 1 | .stray => 2 | .fpar => 3 | .xmis => 4 | .jnlref => 5 | .saves => 6 | .win i => 0x400#12 + i.setWidth 12

/-- Class 0x0 (R45). -/
def decodeThread (h : Hdr) (r : Raw) : Except Reject Instr :=
  match r.fn.toNat with
  | 0x0 => do
    zero r.d
    zero r.a
    zero r.b
    zero r.c
    zero r.m
    zero r.x
    zero r.z
    return .nop h
  | 0x1 => do
    zero r.d
    zero r.a
    zero r.b
    zero r.c
    zero r.m
    zero r.x
    zero r.z
    return .yieldT h
  | 0x2 => do
    zero r.d
    zero r.a
    zero r.b
    zero r.c
    zero r.m
    zero r.x
    zero r.z
    return .wait h
  | 0x3 => do
    zero r.d
    let a ← gReg r.a
    zero r.b
    zero r.c
    zero r.m
    zero r.x
    zero r.z
    return .doze h a
  | 0x4 => do
    let d ← gReg r.d
    zero r.a
    zero r.b
    zero r.c
    zero r.m
    zero r.x
    zero r.z
    return .nowns h d
  | 0x5 => do
    zero r.d
    let a ← gReg r.a
    zero r.b
    zero r.c
    zero r.m
    zero r.x
    zero r.z
    return .exit h a
  | 0x6 => do
    let d ← gReg r.d
    let a ← gReg r.a
    zero r.b
    zero r.c
    zero r.m
    zero r.x
    zero r.z
    return .join h d a
  | 0x7 => do
    zero r.d
    let a ← gReg r.a
    zero r.b
    zero r.c
    zero r.m
    zero r.x
    zero r.z
    return .leave h a
  | 0x8 => do
    zero r.d
    let a ← gReg r.a
    zero r.b
    zero r.c
    zero r.m
    zero r.x
    zero r.z
    return .gbar h a
  | 0x9 => do
    zero r.d
    let a ← gReg r.a
    zero r.b
    zero r.c
    zero r.m
    zero r.x
    zero r.z
    return .garrive h a
  | 0xa => do
    zero r.d
    let a ← gReg r.a
    zero r.b
    zero r.c
    zero r.m
    zero r.x
    zero r.z
    return .gwait h a
  | 0xb => do
    zero r.d
    let a ← gReg r.a
    zero r.b
    zero r.c
    zero r.m
    zero r.x
    zero r.z
    return .phase h a
  | 0xc => do
    let d ← gReg r.d; let a ← gReg r.a; zero r.b; zero r.c
    zero (r.m &&& 0xfffe#16); zero r.x; zero r.z
    return if r.m == 0 then .ginfoSize h d a else .ginfoRank h d a
  | 0xd => do
    let d ← gReg r.d
    zero r.a
    zero r.mi
    zero (r.imm48 &&& 0xfffffffff000#48)
    let r ← sregOf (r.imm48.extractLsb' 0 12)
    return .mfs h d r
  | 0xe => do
    zero r.d
    let a ← gReg r.a
    zero r.mi
    zero (r.imm48 &&& 0xfffffffff000#48)
    let r ← sregOf (r.imm48.extractLsb' 0 12)
    return .mts h r a
  | _ => .error .unassignedFn

/-- Class 0x1 (R45). -/
def decodeInteger (h : Hdr) (r : Raw) : Except Reject Instr :=
  match r.fn.toNat with
  | 0x0 => do
    let d ← gReg r.d
    let a ← gReg r.a
    let b ← gReg r.b
    zero r.c
    zero (r.m &&& 0xfffe#16)
    let wd := wdOf (r.m.extractLsb' 0 1)
    zero r.x
    zero r.z
    return .add h wd d a b
  | 0x1 => do
    let d ← gReg r.d
    let a ← gReg r.a
    let b ← gReg r.b
    zero r.c
    zero (r.m &&& 0xfffe#16)
    let wd := wdOf (r.m.extractLsb' 0 1)
    zero r.x
    zero r.z
    return .sub h wd d a b
  | 0x2 => do
    let d ← gReg r.d
    let a ← gReg r.a
    let b ← gReg r.b
    zero r.c
    zero (r.m &&& 0xfffe#16)
    let wd := wdOf (r.m.extractLsb' 0 1)
    zero r.x
    zero r.z
    return .mul h wd d a b
  | 0x3 => do
    let d ← gReg r.d
    let a ← gReg r.a
    let b ← gReg r.b
    zero r.c
    zero (r.m &&& 0xfffe#16)
    let wd := wdOf (r.m.extractLsb' 0 1)
    zero r.x
    zero r.z
    return .mulh h wd d a b
  | 0x4 => do
    let d ← gReg r.d
    let a ← gReg r.a
    let b ← gReg r.b
    zero r.c
    zero (r.m &&& 0xfffe#16)
    let wd := wdOf (r.m.extractLsb' 0 1)
    zero r.x
    zero r.z
    return .mulhu h wd d a b
  | 0x5 => do
    let d ← gReg r.d
    let a ← gReg r.a
    let b ← gReg r.b
    zero r.c
    zero (r.m &&& 0xfffe#16)
    let wd := wdOf (r.m.extractLsb' 0 1)
    zero r.x
    zero r.z
    return .div h wd d a b
  | 0x6 => do
    let d ← gReg r.d
    let a ← gReg r.a
    let b ← gReg r.b
    zero r.c
    zero (r.m &&& 0xfffe#16)
    let wd := wdOf (r.m.extractLsb' 0 1)
    zero r.x
    zero r.z
    return .divu h wd d a b
  | 0x7 => do
    let d ← gReg r.d
    let a ← gReg r.a
    let b ← gReg r.b
    zero r.c
    zero (r.m &&& 0xfffe#16)
    let wd := wdOf (r.m.extractLsb' 0 1)
    zero r.x
    zero r.z
    return .rem h wd d a b
  | 0x8 => do
    let d ← gReg r.d
    let a ← gReg r.a
    let b ← gReg r.b
    zero r.c
    zero (r.m &&& 0xfffe#16)
    let wd := wdOf (r.m.extractLsb' 0 1)
    zero r.x
    zero r.z
    return .remu h wd d a b
  | 0x9 => do
    let d ← gReg r.d
    let a ← gReg r.a
    let b ← gReg r.b
    zero r.c
    zero (r.m &&& 0xfffe#16)
    let wd := wdOf (r.m.extractLsb' 0 1)
    zero r.x
    zero r.z
    return .andd h wd d a b
  | 0xa => do
    let d ← gReg r.d
    let a ← gReg r.a
    let b ← gReg r.b
    zero r.c
    zero (r.m &&& 0xfffe#16)
    let wd := wdOf (r.m.extractLsb' 0 1)
    zero r.x
    zero r.z
    return .orr h wd d a b
  | 0xb => do
    let d ← gReg r.d
    let a ← gReg r.a
    let b ← gReg r.b
    zero r.c
    zero (r.m &&& 0xfffe#16)
    let wd := wdOf (r.m.extractLsb' 0 1)
    zero r.x
    zero r.z
    return .xor h wd d a b
  | 0xc => do
    let d ← gReg r.d
    let a ← gReg r.a
    let b ← gReg r.b
    zero r.c
    zero (r.m &&& 0xfffe#16)
    let wd := wdOf (r.m.extractLsb' 0 1)
    zero r.x
    zero r.z
    return .andn h wd d a b
  | 0xd => do
    let d ← gReg r.d
    let a ← gReg r.a
    let b ← gReg r.b
    zero r.c
    zero (r.m &&& 0xfffe#16)
    let wd := wdOf (r.m.extractLsb' 0 1)
    zero r.x
    zero r.z
    return .shl h wd d a b
  | 0xe => do
    let d ← gReg r.d
    let a ← gReg r.a
    let b ← gReg r.b
    zero r.c
    zero (r.m &&& 0xfffe#16)
    let wd := wdOf (r.m.extractLsb' 0 1)
    zero r.x
    zero r.z
    return .shr h wd d a b
  | 0xf => do
    let d ← gReg r.d
    let a ← gReg r.a
    let b ← gReg r.b
    zero r.c
    zero (r.m &&& 0xfffe#16)
    let wd := wdOf (r.m.extractLsb' 0 1)
    zero r.x
    zero r.z
    return .sra h wd d a b
  | 0x10 => do
    let d ← gReg r.d
    let a ← gReg r.a
    let b ← gReg r.b
    zero r.c
    zero (r.m &&& 0xfffe#16)
    let wd := wdOf (r.m.extractLsb' 0 1)
    zero r.x
    zero r.z
    return .rol h wd d a b
  | 0x11 => do
    let d ← gReg r.d
    let a ← gReg r.a
    let b ← gReg r.b
    zero r.c
    zero (r.m &&& 0xfffe#16)
    let wd := wdOf (r.m.extractLsb' 0 1)
    zero r.x
    zero r.z
    return .min h wd d a b
  | 0x12 => do
    let d ← gReg r.d
    let a ← gReg r.a
    let b ← gReg r.b
    zero r.c
    zero (r.m &&& 0xfffe#16)
    let wd := wdOf (r.m.extractLsb' 0 1)
    zero r.x
    zero r.z
    return .max h wd d a b
  | 0x13 => do
    let d ← gReg r.d
    let a ← gReg r.a
    let b ← gReg r.b
    zero r.c
    zero (r.m &&& 0xfffe#16)
    let wd := wdOf (r.m.extractLsb' 0 1)
    zero r.x
    zero r.z
    return .minu h wd d a b
  | 0x14 => do
    let d ← gReg r.d
    let a ← gReg r.a
    let b ← gReg r.b
    zero r.c
    zero (r.m &&& 0xfffe#16)
    let wd := wdOf (r.m.extractLsb' 0 1)
    zero r.x
    zero r.z
    return .maxu h wd d a b
  | 0x15 => do
    let d ← pReg r.d
    let a ← gReg r.a
    let b ← gReg r.b
    zero r.c
    zero (r.m &&& 0xffe0#16)
    let wd := wdOf (r.m.extractLsb' 0 1)
    let c ← condOf (r.m.extractLsb' 1 4)
    zero r.x
    zero r.z
    return .setp h wd c d a b
  | 0x16 => do
    let d ← gReg r.d
    let a ← gReg r.a
    let b ← gReg r.b
    let c ← pReg r.c
    zero (r.m &&& 0xfffe#16)
    let wd := wdOf (r.m.extractLsb' 0 1)
    zero r.x
    zero r.z
    return .sel h wd d a b c
  | 0x17 => do
    let d ← gReg r.d
    let a ← gReg r.a
    zero r.b
    zero r.c
    zero (r.m &&& 0xfffe#16)
    let wd := wdOf (r.m.extractLsb' 0 1)
    zero r.x
    zero r.z
    return .clz h wd d a
  | 0x18 => do
    let d ← gReg r.d
    let a ← gReg r.a
    zero r.b
    zero r.c
    zero (r.m &&& 0xfffe#16)
    let wd := wdOf (r.m.extractLsb' 0 1)
    zero r.x
    zero r.z
    return .ctz h wd d a
  | 0x19 => do
    let d ← gReg r.d
    let a ← gReg r.a
    zero r.b
    zero r.c
    zero (r.m &&& 0xfffe#16)
    let wd := wdOf (r.m.extractLsb' 0 1)
    zero r.x
    zero r.z
    return .popc h wd d a
  | 0x1a => do
    let d ← gReg r.d
    let a ← gReg r.a
    zero r.b
    zero r.c
    zero (r.m &&& 0xfffe#16)
    let wd := wdOf (r.m.extractLsb' 0 1)
    zero r.x
    zero r.z
    return .brev h wd d a
  | 0x1b => do
    let d ← gReg r.d
    let a ← gReg r.a
    let b ← gReg r.b
    let c ← gReg r.c
    zero (r.m &&& 0xfffc#16)
    let wd := wdOf (r.m.extractLsb' 0 1)
    let sx := (r.m.extractLsb' 1 1) == 1#1
    zero r.x
    zero r.z
    return .bfx h wd sx d a b c
  | 0x1c => do
    let d ← gReg r.d
    let a ← gReg r.a
    let b ← gReg r.b
    let c ← gReg r.c
    zero (r.m &&& 0xfffe#16)
    let wd := wdOf (r.m.extractLsb' 0 1)
    zero r.x
    zero r.z
    return .bfi h wd d a b c
  | 0x1d => do
    zero r.b; zero r.c; zero r.x; zero r.z
    if isG r.d && isG r.a then do
      zero (r.m &&& 0xfffe#16)
      let d ← gReg r.d; let a ← gReg r.a
      return .mov h (.gg (wdOf (r.m.extractLsb' 0 1)) d a)
    else do
      zero r.m
      if isG r.d then do
        let d ← gReg r.d; let a ← pReg r.a
        return .mov h (.gp d a)
      else do
        let d ← pReg r.d
        if isG r.a then do
          let a ← gReg r.a
          return .mov h (.pg d a)
        else do
          let a ← pReg r.a
          return .mov h (.pp d a)
  | 0x1f => do
    let d ← pReg r.d
    let a ← pReg r.a
    let b ← pReg r.b
    zero r.c
    zero (r.m &&& 0xffe1#16)
    let tt := (r.m.extractLsb' 1 4)
    zero r.x
    zero r.z
    return .plog h tt d a b
  | 0x40 => do
    let d ← gReg r.d
    let a ← gReg r.a
    zero (r.mi &&& 0xfffe#16)
    let wd := wdOf (r.mi.extractLsb' 0 1)
    let imm := (r.imm48.extractLsb' 0 48)
    return .addImm h wd d a imm
  | 0x41 => do
    let d ← gReg r.d
    let a ← gReg r.a
    zero (r.mi &&& 0xfffe#16)
    let wd := wdOf (r.mi.extractLsb' 0 1)
    let imm := (r.imm48.extractLsb' 0 48)
    return .subImm h wd d a imm
  | 0x42 => do
    let d ← gReg r.d
    let a ← gReg r.a
    zero (r.mi &&& 0xfffe#16)
    let wd := wdOf (r.mi.extractLsb' 0 1)
    let imm := (r.imm48.extractLsb' 0 48)
    return .mulImm h wd d a imm
  | 0x43 => do
    let d ← gReg r.d
    let a ← gReg r.a
    zero (r.mi &&& 0xfffe#16)
    let wd := wdOf (r.mi.extractLsb' 0 1)
    let imm := (r.imm48.extractLsb' 0 48)
    return .mulhImm h wd d a imm
  | 0x44 => do
    let d ← gReg r.d
    let a ← gReg r.a
    zero (r.mi &&& 0xfffe#16)
    let wd := wdOf (r.mi.extractLsb' 0 1)
    let imm := (r.imm48.extractLsb' 0 48)
    return .mulhuImm h wd d a imm
  | 0x45 => do
    let d ← gReg r.d
    let a ← gReg r.a
    zero (r.mi &&& 0xfffe#16)
    let wd := wdOf (r.mi.extractLsb' 0 1)
    let imm := (r.imm48.extractLsb' 0 48)
    return .divImm h wd d a imm
  | 0x46 => do
    let d ← gReg r.d
    let a ← gReg r.a
    zero (r.mi &&& 0xfffe#16)
    let wd := wdOf (r.mi.extractLsb' 0 1)
    let imm := (r.imm48.extractLsb' 0 48)
    return .divuImm h wd d a imm
  | 0x47 => do
    let d ← gReg r.d
    let a ← gReg r.a
    zero (r.mi &&& 0xfffe#16)
    let wd := wdOf (r.mi.extractLsb' 0 1)
    let imm := (r.imm48.extractLsb' 0 48)
    return .remImm h wd d a imm
  | 0x48 => do
    let d ← gReg r.d
    let a ← gReg r.a
    zero (r.mi &&& 0xfffe#16)
    let wd := wdOf (r.mi.extractLsb' 0 1)
    let imm := (r.imm48.extractLsb' 0 48)
    return .remuImm h wd d a imm
  | 0x49 => do
    let d ← gReg r.d
    let a ← gReg r.a
    zero (r.mi &&& 0xfffe#16)
    let wd := wdOf (r.mi.extractLsb' 0 1)
    let imm := (r.imm48.extractLsb' 0 48)
    return .andImm h wd d a imm
  | 0x4a => do
    let d ← gReg r.d
    let a ← gReg r.a
    zero (r.mi &&& 0xfffe#16)
    let wd := wdOf (r.mi.extractLsb' 0 1)
    let imm := (r.imm48.extractLsb' 0 48)
    return .orImm h wd d a imm
  | 0x4b => do
    let d ← gReg r.d
    let a ← gReg r.a
    zero (r.mi &&& 0xfffe#16)
    let wd := wdOf (r.mi.extractLsb' 0 1)
    let imm := (r.imm48.extractLsb' 0 48)
    return .xorImm h wd d a imm
  | 0x4c => do
    let d ← gReg r.d
    let a ← gReg r.a
    zero (r.mi &&& 0xfffe#16)
    let wd := wdOf (r.mi.extractLsb' 0 1)
    let imm := (r.imm48.extractLsb' 0 48)
    return .andnImm h wd d a imm
  | 0x4d => do
    let d ← gReg r.d
    let a ← gReg r.a
    zero (r.mi &&& 0xfffe#16)
    let wd := wdOf (r.mi.extractLsb' 0 1)
    let imm := (r.imm48.extractLsb' 0 48)
    return .shlImm h wd d a imm
  | 0x4e => do
    let d ← gReg r.d
    let a ← gReg r.a
    zero (r.mi &&& 0xfffe#16)
    let wd := wdOf (r.mi.extractLsb' 0 1)
    let imm := (r.imm48.extractLsb' 0 48)
    return .shrImm h wd d a imm
  | 0x4f => do
    let d ← gReg r.d
    let a ← gReg r.a
    zero (r.mi &&& 0xfffe#16)
    let wd := wdOf (r.mi.extractLsb' 0 1)
    let imm := (r.imm48.extractLsb' 0 48)
    return .sraImm h wd d a imm
  | 0x50 => do
    let d ← gReg r.d
    let a ← gReg r.a
    zero (r.mi &&& 0xfffe#16)
    let wd := wdOf (r.mi.extractLsb' 0 1)
    let imm := (r.imm48.extractLsb' 0 48)
    return .rolImm h wd d a imm
  | 0x51 => do
    let d ← gReg r.d
    let a ← gReg r.a
    zero (r.mi &&& 0xfffe#16)
    let wd := wdOf (r.mi.extractLsb' 0 1)
    let imm := (r.imm48.extractLsb' 0 48)
    return .minImm h wd d a imm
  | 0x52 => do
    let d ← gReg r.d
    let a ← gReg r.a
    zero (r.mi &&& 0xfffe#16)
    let wd := wdOf (r.mi.extractLsb' 0 1)
    let imm := (r.imm48.extractLsb' 0 48)
    return .maxImm h wd d a imm
  | 0x53 => do
    let d ← gReg r.d
    let a ← gReg r.a
    zero (r.mi &&& 0xfffe#16)
    let wd := wdOf (r.mi.extractLsb' 0 1)
    let imm := (r.imm48.extractLsb' 0 48)
    return .minuImm h wd d a imm
  | 0x54 => do
    let d ← gReg r.d
    let a ← gReg r.a
    zero (r.mi &&& 0xfffe#16)
    let wd := wdOf (r.mi.extractLsb' 0 1)
    let imm := (r.imm48.extractLsb' 0 48)
    return .maxuImm h wd d a imm
  | 0x55 => do
    let d ← pReg r.d
    let a ← gReg r.a
    zero (r.mi &&& 0xffe0#16)
    let wd := wdOf (r.mi.extractLsb' 0 1)
    let c ← condOf (r.mi.extractLsb' 1 4)
    let imm := (r.imm48.extractLsb' 0 48)
    return .setpImm h wd c d a imm
  | 0x5b => do
    let d ← gReg r.d
    let a ← gReg r.a
    zero (r.mi &&& 0xfffc#16)
    let wd := wdOf (r.mi.extractLsb' 0 1)
    let sx := (r.mi.extractLsb' 1 1) == 1#1
    zero (r.imm48 &&& 0xffffffff80c0#48)
    let pos := (r.imm48.extractLsb' 0 6)
    let len := (r.imm48.extractLsb' 8 7)
    return .bfxImm h wd sx d a pos len
  | 0x5c => do
    let d ← gReg r.d
    let a ← gReg r.a
    zero (r.mi &&& 0xfffe#16)
    let wd := wdOf (r.mi.extractLsb' 0 1)
    zero (r.imm48 &&& 0xffffffff80c0#48)
    let pos := (r.imm48.extractLsb' 0 6)
    let len := (r.imm48.extractLsb' 8 7)
    return .bfiImm h wd d a pos len
  | 0x5e => do
    let d ← gReg r.d; zero r.a
    zero (r.mi &&& 0xfffc#16)
    match (r.mi.extractLsb' 0 2).toNat with
    | 0 => return .li h .w d r.imm48
    | 1 => return .li h .d d r.imm48
    | 3 => do
      zero (r.imm48 &&& 0xffffffff0000#48)
      return .liHi h d (r.imm48.extractLsb' 0 16)
    | _ => .error .reservedField
  | _ => .error .unassignedFn

/-- Class 0x2 (R45). -/
def decodeAddress (h : Hdr) (r : Raw) : Except Reject Instr :=
  match r.fn.toNat with
  | 0x0 => do
    let d ← gReg r.d
    let a ← gReg r.a
    zero r.mi
    let imm := (r.imm48.extractLsb' 0 48)
    return .lea h d a imm
  | 0x1 => do
    let d ← gReg r.d
    let a ← gReg r.a
    let b ← gReg r.b
    zero r.c
    zero r.m
    zero r.x
    zero r.z
    return .mkptr h d a b
  | 0x2 => do
    let d ← gReg r.d
    let a ← gReg r.a
    zero r.b
    zero r.c
    zero r.m
    zero r.x
    zero r.z
    return .getband h d a
  | 0x3 => do
    let d ← gReg r.d
    let a ← gReg r.a
    let b ← gReg r.b
    let c ← gReg r.c
    zero r.m
    zero r.x
    zero r.z
    return .caddr h d a b c
  | 0x4 => do
    let d ← gReg r.d
    let a ← gReg r.a
    zero r.b
    zero r.c
    zero r.m
    zero r.x
    zero r.z
    return .chkptr h d a
  | _ => .error .unassignedFn

/-- Class 0x3 (R45). -/
def decodeControl (h : Hdr) (r : Raw) : Except Reject Instr :=
  match r.fn.toNat with
  | 0x0 => do
    zero r.d
    zero r.a
    zero r.mi
    let x := r.m
    let disp := (r.imm32.extractLsb' 0 32)
    return .br h x disp
  | 0x1 => do
    let a ← gReg r.d
    zero r.a
    zero r.mi
    zero r.m
    zero r.imm32
    return .bri h a
  | 0x2 => do
    zero r.d
    zero r.a
    zero r.mi
    zero r.m
    let disp := (r.imm32.extractLsb' 0 32)
    return .call h disp
  | 0x3 => do
    let a ← gReg r.d
    zero r.a
    zero r.mi
    zero r.m
    zero r.imm32
    return .calli h a
  | 0x4 => do
    let a ← gReg r.d
    zero r.a
    zero r.mi
    zero r.m
    zero r.imm32
    return .ret h a
  | 0x5 => do
    let a ← gReg r.d
    let b ← gReg r.a
    zero r.mi
    let x := r.m
    let disp := (r.imm32.extractLsb' 0 32)
    return .loop h a b x disp
  | _ => .error .unassignedFn

/-- Class 0x4 (R45). -/
def decodeExperience (h : Hdr) (r : Raw) : Except Reject Instr :=
  match r.fn.toNat with
  | 0x0 => do
    let d ← gReg r.d
    let a ← gReg r.a
    zero r.b
    zero r.c
    zero (r.m &&& 0xfffe#16)
    let hdr := (r.m.extractLsb' 0 1) == 1#1
    zero r.x
    zero r.z
    return .xrd h hdr d a
  | 0x1 => do
    let d ← pReg r.d
    zero r.a
    let b ← optGReg r.b
    zero r.c
    zero r.m
    let x := r.x
    zero r.z
    return .xsel h d b x
  | 0x2 => do
    let d ← gReg r.d
    zero r.a
    let b ← optGReg r.b
    zero r.c
    zero r.m
    let x := r.x
    zero r.z
    return .xunr h d b x
  | 0x3 => do
    let d ← gReg r.d
    let a ← gReg r.a
    let b ← optGReg r.b
    zero r.c
    zero r.m
    let x := r.x
    zero r.z
    return .xpfd h d a b x
  | 0x4 => do
    zero r.d
    let a ← gReg r.a
    zero r.b
    zero r.c
    zero r.m
    let x := r.x
    zero r.z
    return .xnote h a x
  | 0x5 => do
    zero r.d
    zero r.a
    zero r.b
    zero r.c
    zero r.m
    zero r.x
    zero r.z
    return .xflush h
  | _ => .error .unassignedFn

/-- Class 0x5 (R45). -/
def decodeFloat (h : Hdr) (r : Raw) : Except Reject Instr :=
  match r.fn.toNat with
  | 0x0 => do
    let d ← vReg r.d
    let a ← vReg r.a
    let b ← vReg r.b
    zero r.c
    zero (r.m &&& 0xffc8#16)
    let rm ← rmOf (r.m.extractLsb' 0 3)
    let f ← fmtOf (r.m.extractLsb' 4 2)
    zero r.x
    zero r.z
    return .vadd h f rm d a b
  | 0x1 => do
    let d ← vReg r.d
    let a ← vReg r.a
    let b ← vReg r.b
    zero r.c
    zero (r.m &&& 0xffc8#16)
    let rm ← rmOf (r.m.extractLsb' 0 3)
    let f ← fmtOf (r.m.extractLsb' 4 2)
    zero r.x
    zero r.z
    return .vsub h f rm d a b
  | 0x2 => do
    let d ← vReg r.d
    let a ← vReg r.a
    let b ← vReg r.b
    zero r.c
    zero (r.m &&& 0xffc8#16)
    let rm ← rmOf (r.m.extractLsb' 0 3)
    let f ← fmtOf (r.m.extractLsb' 4 2)
    zero r.x
    zero r.z
    return .vmul h f rm d a b
  | 0x3 => do
    let d ← vReg r.d
    let a ← vReg r.a
    let b ← vReg r.b
    let c ← vReg r.c
    zero (r.m &&& 0xffc8#16)
    let rm ← rmOf (r.m.extractLsb' 0 3)
    let f ← fmtOf (r.m.extractLsb' 4 2)
    zero r.x
    zero r.z
    return .vfma h f rm d a b c
  | 0x4 => do
    let d ← vReg r.d
    let a ← vReg r.a
    let b ← vReg r.b
    let c ← vReg r.c
    zero (r.m &&& 0xffc8#16)
    let rm ← rmOf (r.m.extractLsb' 0 3)
    let f ← fmtOf (r.m.extractLsb' 4 2)
    zero r.x
    zero r.z
    return .vfms h f rm d a b c
  | 0x5 => do
    let d ← vReg r.d
    let a ← vReg r.a
    let b ← vReg r.b
    let c ← vReg r.c
    zero (r.m &&& 0xffc8#16)
    let rm ← rmOf (r.m.extractLsb' 0 3)
    let f ← fmtOf (r.m.extractLsb' 4 2)
    zero r.x
    zero r.z
    return .vfnma h f rm d a b c
  | 0x6 => do
    let d ← vReg r.d
    let a ← vReg r.a
    let b ← vReg r.b
    zero r.c
    zero (r.m &&& 0xffcf#16)
    let f ← fmtOf (r.m.extractLsb' 4 2)
    zero r.x
    zero r.z
    return .vmin h f d a b
  | 0x7 => do
    let d ← vReg r.d
    let a ← vReg r.a
    let b ← vReg r.b
    zero r.c
    zero (r.m &&& 0xffcf#16)
    let f ← fmtOf (r.m.extractLsb' 4 2)
    zero r.x
    zero r.z
    return .vmax h f d a b
  | 0x8 => do
    let d ← vReg r.d
    let a ← vReg r.a
    zero r.b
    zero r.c
    zero (r.m &&& 0xffcf#16)
    let f ← fmtOf (r.m.extractLsb' 4 2)
    zero r.x
    zero r.z
    return .vabs h f d a
  | 0x9 => do
    let d ← vReg r.d
    let a ← vReg r.a
    zero r.b
    zero r.c
    zero (r.m &&& 0xffcf#16)
    let f ← fmtOf (r.m.extractLsb' 4 2)
    zero r.x
    zero r.z
    return .vneg h f d a
  | 0xa => do
    let d ← vReg r.d
    let a ← vReg r.a
    zero r.b
    zero r.c
    zero (r.m &&& 0xffc8#16)
    let rm ← rmOf (r.m.extractLsb' 0 3)
    let f ← fmtOf (r.m.extractLsb' 4 2)
    zero r.x
    zero r.z
    return .vrcp h f rm d a
  | 0xb => do
    let d ← vReg r.d
    let a ← vReg r.a
    zero r.b
    zero r.c
    zero (r.m &&& 0xffc8#16)
    let rm ← rmOf (r.m.extractLsb' 0 3)
    let f ← fmtOf (r.m.extractLsb' 4 2)
    zero r.x
    zero r.z
    return .vrsq h f rm d a
  | 0xc => do
    let d ← vReg r.d
    let a ← vReg r.a
    zero r.b
    zero r.c
    zero (r.m &&& 0xffc8#16)
    let rm ← rmOf (r.m.extractLsb' 0 3)
    let f ← fmtOf (r.m.extractLsb' 4 2)
    zero r.x
    zero r.z
    return .vexp2 h f rm d a
  | 0xd => do
    let d ← vReg r.d
    let a ← vReg r.a
    zero r.b
    zero r.c
    zero (r.m &&& 0xffc8#16)
    let rm ← rmOf (r.m.extractLsb' 0 3)
    let f ← fmtOf (r.m.extractLsb' 4 2)
    zero r.x
    zero r.z
    return .vlog2 h f rm d a
  | 0xe => do
    let d ← vReg r.d
    let a ← vReg r.a
    let b ← vReg r.b
    zero r.c
    zero (r.m &&& 0xffc8#16)
    let rm ← rmOf (r.m.extractLsb' 0 3)
    let f ← fmtOf (r.m.extractLsb' 4 2)
    zero r.x
    zero r.z
    return .vdiv h f rm d a b
  | 0xf => do
    let d ← vReg r.d
    let a ← vReg r.a
    zero r.b
    zero r.c
    zero (r.m &&& 0xffc8#16)
    let rm ← rmOf (r.m.extractLsb' 0 3)
    let f ← fmtOf (r.m.extractLsb' 4 2)
    zero r.x
    zero r.z
    return .vsqrt h f rm d a
  | 0x10 => do
    let d ← vReg r.d
    let a ← vReg r.a
    zero r.b
    zero r.c
    zero (r.m &&& 0x38#16)
    let rm ← rmOf (r.m.extractLsb' 0 3)
    let part := (r.m.extractLsb' 6 2)
    let t ← nfmtOf (r.m.extractLsb' 8 4)
    let src ← nfmtOf (r.m.extractLsb' 12 4)
    zero r.x
    zero r.z
    return .vcvt h rm part t src d a
  | 0x11 => do
    let d ← pReg r.d
    let a ← vReg r.a
    let b ← vReg r.b
    zero r.c
    zero (r.m &&& 0xf0cf#16)
    let f ← fmtOf (r.m.extractLsb' 4 2)
    let c ← fcondOf (r.m.extractLsb' 8 4)
    zero r.x
    zero r.z
    return .vcmp h f c d a b
  | 0x12 => do
    let d ← vReg r.d
    let a ← vReg r.a
    zero r.b
    zero r.c
    zero (r.m &&& 0xffc8#16)
    let rm ← rmOf (r.m.extractLsb' 0 3)
    let f ← fmtOf (r.m.extractLsb' 4 2)
    zero r.x
    zero r.z
    return .vred h f rm d a
  | 0x13 => do
    let d ← vReg r.d
    let a ← vReg r.a
    let b ← vReg r.b
    zero r.c
    zero (r.m &&& 0xffc8#16)
    let rm ← rmOf (r.m.extractLsb' 0 3)
    let f ← fmtOf (r.m.extractLsb' 4 2)
    zero r.x
    zero r.z
    return .vdot h f rm d a b
  | 0x14 => do
    let d ← gReg r.d
    let a ← gReg r.a
    let b ← gReg r.b
    zero r.c
    zero (r.m &&& 0xffc8#16)
    let rm ← rmOf (r.m.extractLsb' 0 3)
    let f ← fmtOf (r.m.extractLsb' 4 2)
    zero r.x
    zero r.z
    return .fadd h f rm d a b
  | 0x15 => do
    let d ← gReg r.d
    let a ← gReg r.a
    let b ← gReg r.b
    zero r.c
    zero (r.m &&& 0xffc8#16)
    let rm ← rmOf (r.m.extractLsb' 0 3)
    let f ← fmtOf (r.m.extractLsb' 4 2)
    zero r.x
    zero r.z
    return .fmul h f rm d a b
  | 0x16 => do
    let d ← gReg r.d
    let a ← gReg r.a
    let b ← gReg r.b
    let c ← gReg r.c
    zero (r.m &&& 0xffc8#16)
    let rm ← rmOf (r.m.extractLsb' 0 3)
    let f ← fmtOf (r.m.extractLsb' 4 2)
    zero r.x
    zero r.z
    return .ffma h f rm d a b c
  | 0x17 => do
    let d ← pReg r.d
    let a ← gReg r.a
    let b ← gReg r.b
    zero r.c
    zero (r.m &&& 0xf0cf#16)
    let f ← fmtOf (r.m.extractLsb' 4 2)
    let c ← fcondOf (r.m.extractLsb' 8 4)
    zero r.x
    zero r.z
    return .fcmp h f c d a b
  | 0x18 => do
    let d ← gReg r.d
    let a ← gReg r.a
    zero r.b
    zero r.c
    zero (r.m &&& 0xf8#16)
    let rm ← rmOf (r.m.extractLsb' 0 3)
    let t ← nfmtOf (r.m.extractLsb' 8 4)
    let src ← nfmtOf (r.m.extractLsb' 12 4)
    zero r.x
    zero r.z
    return .fcvt h rm t src d a
  | 0x19 => do
    zero r.d
    let a ← gReg r.a
    zero r.b
    zero r.c
    zero (r.m &&& 0xf08f#16)
    let n1 := (r.m.extractLsb' 4 3)
    let st := (r.m.extractLsb' 8 4)
    zero r.x
    zero r.z
    return .rep h n1 st a
  | 0x1a => do
    zero r.d
    zero r.a
    zero r.b
    zero r.c
    zero r.m
    zero r.x
    zero r.z
    return .repwait h
  | _ => .error .unassignedFn

/-- Class 0x6 (R45). -/
def decodeVInt (h : Hdr) (r : Raw) : Except Reject Instr :=
  match r.fn.toNat with
  | 0x0 => do
    let d ← vReg r.d
    let a ← vReg r.a
    let b ← vReg r.b
    zero r.c
    zero (r.m &&& 0xffcf#16)
    let vw ← viewOf (r.m.extractLsb' 4 2)
    zero r.x
    zero r.z
    return .viadd h vw d a b
  | 0x1 => do
    let d ← vReg r.d
    let a ← vReg r.a
    let b ← vReg r.b
    zero r.c
    zero (r.m &&& 0xffcf#16)
    let vw ← viewOf (r.m.extractLsb' 4 2)
    zero r.x
    zero r.z
    return .visub h vw d a b
  | 0x2 => do
    let d ← vReg r.d
    let a ← vReg r.a
    let b ← vReg r.b
    zero r.c
    zero (r.m &&& 0xffcf#16)
    let vw ← viewOf (r.m.extractLsb' 4 2)
    zero r.x
    zero r.z
    return .vimul h vw d a b
  | 0x3 => do
    let d ← vReg r.d
    let a ← vReg r.a
    let b ← vReg r.b
    zero r.c
    zero (r.m &&& 0xffcf#16)
    let vw ← viewOf (r.m.extractLsb' 4 2)
    zero r.x
    zero r.z
    return .vand h vw d a b
  | 0x4 => do
    let d ← vReg r.d
    let a ← vReg r.a
    let b ← vReg r.b
    zero r.c
    zero (r.m &&& 0xffcf#16)
    let vw ← viewOf (r.m.extractLsb' 4 2)
    zero r.x
    zero r.z
    return .vor h vw d a b
  | 0x5 => do
    let d ← vReg r.d
    let a ← vReg r.a
    let b ← vReg r.b
    zero r.c
    zero (r.m &&& 0xffcf#16)
    let vw ← viewOf (r.m.extractLsb' 4 2)
    zero r.x
    zero r.z
    return .vxor h vw d a b
  | 0x6 => do
    let d ← vReg r.d
    let a ← vReg r.a
    let b ← vReg r.b
    zero r.c
    zero (r.m &&& 0xffcf#16)
    let vw ← viewOf (r.m.extractLsb' 4 2)
    zero r.x
    zero r.z
    return .vshl h vw d a b
  | 0x7 => do
    let d ← vReg r.d
    let a ← vReg r.a
    let b ← vReg r.b
    zero r.c
    zero (r.m &&& 0xffcf#16)
    let vw ← viewOf (r.m.extractLsb' 4 2)
    zero r.x
    zero r.z
    return .vshr h vw d a b
  | 0x8 => do
    let d ← vReg r.d
    let a ← vReg r.a
    let b ← vReg r.b
    zero r.c
    zero (r.m &&& 0xffcf#16)
    let vw ← viewOf (r.m.extractLsb' 4 2)
    zero r.x
    zero r.z
    return .vsra h vw d a b
  | 0x9 => do
    let d ← vReg r.d
    let a ← vReg r.a
    let b ← vReg r.b
    zero r.c
    zero (r.m &&& 0xffcd#16)
    let u := (r.m.extractLsb' 1 1) == 1#1
    let vw ← viewOf (r.m.extractLsb' 4 2)
    zero r.x
    zero r.z
    return .vimin h u vw d a b
  | 0xa => do
    let d ← vReg r.d
    let a ← vReg r.a
    let b ← vReg r.b
    zero r.c
    zero (r.m &&& 0xffcd#16)
    let u := (r.m.extractLsb' 1 1) == 1#1
    let vw ← viewOf (r.m.extractLsb' 4 2)
    zero r.x
    zero r.z
    return .vimax h u vw d a b
  | 0xb => do
    let d ← vReg r.d
    let a ← vReg r.a
    let b ← vReg r.b
    let c ← pReg r.c
    zero (r.m &&& 0xffcf#16)
    let vw ← viewOf (r.m.extractLsb' 4 2)
    zero r.x
    zero r.z
    return .vsel h vw d a b c
  | 0xc => do
    let d ← vReg r.d
    let a ← vReg r.a
    let b ← vReg r.b
    zero r.c
    zero (r.m &&& 0xffcf#16)
    let vw ← viewOf (r.m.extractLsb' 4 2)
    zero r.x
    zero r.z
    return .vshuf h vw d a b
  | 0xd => do
    let d ← vReg r.d
    let a ← gReg r.a
    zero r.b
    zero r.c
    zero (r.m &&& 0xffcf#16)
    let vw ← viewOf (r.m.extractLsb' 4 2)
    zero r.x
    zero r.z
    return .vbcast h vw d a
  | 0xe => do
    let d ← vReg r.d
    let a ← gReg r.a
    let b ← gReg r.b
    zero r.c
    zero (r.m &&& 0xffcf#16)
    let vw ← viewOf (r.m.extractLsb' 4 2)
    zero r.x
    zero r.z
    return .vins h vw d a b
  | 0xf => do
    let d ← gReg r.d
    let a ← vReg r.a
    let b ← gReg r.b
    zero r.c
    zero (r.m &&& 0xffcd#16)
    let u := (r.m.extractLsb' 1 1) == 1#1
    let vw ← viewOf (r.m.extractLsb' 4 2)
    zero r.x
    zero r.z
    return .vext h u vw d a b
  | 0x10 => do
    let d ← vReg r.d
    let a ← vReg r.a
    zero r.b
    let c ← pReg r.c
    zero (r.m &&& 0xffcf#16)
    let vw ← viewOf (r.m.extractLsb' 4 2)
    zero r.x
    zero r.z
    return .vcmprs h vw d a c
  | 0x11 => do
    let d ← vReg r.d
    let a ← vReg r.a
    zero r.b
    let c ← pReg r.c
    zero (r.m &&& 0xffcf#16)
    let vw ← viewOf (r.m.extractLsb' 4 2)
    zero r.x
    zero r.z
    return .vexpnd h vw d a c
  | 0x12 => do
    let d ← vReg r.d
    zero r.a
    zero r.b
    let c ← optPReg r.c
    zero (r.m &&& 0xffcf#16)
    let vw ← viewOf (r.m.extractLsb' 4 2)
    zero r.x
    zero r.z
    return .viota h vw d c
  | 0x13 => do
    let d ← pReg r.d
    let a ← vReg r.a
    let b ← vReg r.b
    zero r.c
    zero (r.m &&& 0xf0cf#16)
    let vw ← viewOf (r.m.extractLsb' 4 2)
    let c ← condOf (r.m.extractLsb' 8 4)
    zero r.x
    zero r.z
    return .vicmp h vw c d a b
  | _ => .error .unassignedFn

/-- Class 0x7 (R45). -/
def decodeBlock (h : Hdr) (r : Raw) : Except Reject Instr :=
  match r.fn.toNat with
  | 0x0 => do
    let d ← vReg r.d
    let a ← vReg r.a
    let b ← zeroVReg r.b
    let c ← optGReg r.c
    zero (r.m &&& 0xfcce#16)
    let rn := (r.m.extractLsb' 0 1) == 1#1
    let f ← fmtOf (r.m.extractLsb' 4 2)
    let bx ← bxOf (r.m.extractLsb' 8 2)
    zero r.x
    zero r.z
    return .vqnt h rn f bx d a b c
  | 0x1 => do
    let d ← vReg r.d
    let a ← vReg r.a
    zero r.b
    let c ← optGReg r.c
    zero (r.m &&& 0xfc08#16)
    let rm ← rmOf (r.m.extractLsb' 0 3)
    let f ← fmtOf (r.m.extractLsb' 4 2)
    let part := (r.m.extractLsb' 6 2)
    let bx ← bxOf (r.m.extractLsb' 8 2)
    zero r.x
    zero r.z
    return .vdqnt h rm part f bx d a c
  | 0x2 => do
    let d ← vReg r.d
    let a ← vReg r.a
    let b ← gReg r.b
    let c ← gReg r.c
    zero (r.m &&& 0xff0f#16)
    let f ← fmtOf (r.m.extractLsb' 4 2)
    let part := (r.m.extractLsb' 6 2)
    zero r.x
    zero r.z
    return .vsrnd h part f d a b c
  | 0x3 => do
    let d ← vReg r.d
    let a ← vReg r.a
    let b ← vReg r.b
    let c ← optGReg r.c
    zero (r.m &&& 0xfcf8#16)
    let rm ← rmOf (r.m.extractLsb' 0 3)
    let bx ← bxOf (r.m.extractLsb' 8 2)
    zero r.x
    zero r.z
    return .vbxdot h rm bx d a b c
  | _ => .error .unassignedFn

/-- Class 0x8 (R45). -/
def decodeMemory (h : Hdr) (r : Raw) : Except Reject Instr :=
  match r.fn.toNat with
  | 0x0 => do
    let d ← gReg r.d
    let a ← gReg r.a
    let b ← gReg r.b
    let am := modeOf (r.c.extractLsb' 6 2)
    let sc := r.c.extractLsb' 4 2
    let sz ← ldszOf (r.c.extractLsb' 0 4)
    zero (r.m &&& 0xfffd#16)
    let nc := (r.m.extractLsb' 1 1) == 1#1
    let x := r.x
    return .ld h sz nc x d ⟨am, a, b, sc, r.z⟩
  | 0x1 => do
    let d ← gReg r.d
    let a ← gReg r.a
    let b ← gReg r.b
    let am := modeOf (r.c.extractLsb' 6 2)
    let sc := r.c.extractLsb' 4 2
    let sz ← stszOf (r.c.extractLsb' 0 4)
    zero (r.m &&& 0xfffe#16)
    let bset := (r.m.extractLsb' 0 1) == 1#1
    zero r.x
    return .st h sz bset d ⟨am, a, b, sc, r.z⟩
  | 0x2 => do
    let d ← vReg r.d
    let a ← gReg r.a
    let b ← gReg r.b
    let am := modeOf (r.c.extractLsb' 6 2)
    let sc := r.c.extractLsb' 4 2
    need (r.c.extractLsb' 0 4 == 8#4) .badSize
    zero (r.m &&& 0xfffd#16)
    let nc := (r.m.extractLsb' 1 1) == 1#1
    let x := r.x
    return .vld h nc x d ⟨am, a, b, sc, r.z⟩
  | 0x3 => do
    let d ← vReg r.d
    let a ← gReg r.a
    let b ← gReg r.b
    let am := modeOf (r.c.extractLsb' 6 2)
    let sc := r.c.extractLsb' 4 2
    need (r.c.extractLsb' 0 4 == 8#4) .badSize
    zero (r.m &&& 0xfffe#16)
    let bset := (r.m.extractLsb' 0 1) == 1#1
    zero r.x
    return .vst h bset d ⟨am, a, b, sc, r.z⟩
  | 0x4 => do
    let d ← gReg r.d
    let a ← gReg r.a
    let b ← gReg r.b
    let am := modeOf (r.c.extractLsb' 6 2)
    let sc := r.c.extractLsb' 4 2
    need (r.c.extractLsb' 0 4 == 3#4) .badSize
    zero r.m
    zero r.x
    return .lds h d ⟨am, a, b, sc, r.z⟩
  | 0x5 => do
    let d ← gReg r.d
    let a ← gReg r.a
    let b ← gReg r.b
    let am := modeOf (r.c.extractLsb' 6 2)
    let sc := r.c.extractLsb' 4 2
    need (r.c.extractLsb' 0 4 == 3#4) .badSize
    zero r.m
    zero r.x
    return .sts h d ⟨am, a, b, sc, r.z⟩
  | 0x6 => do
    let d ← gReg r.d
    let a ← gReg r.a
    let b ← gReg r.b
    let am := modeOf (r.c.extractLsb' 6 2)
    let sc := r.c.extractLsb' 4 2
    need (r.c.extractLsb' 0 4 == 3#4) .badSize
    zero r.m
    zero r.x
    return .ldf h d ⟨am, a, b, sc, r.z⟩
  | 0x7 => do
    zero r.d
    let a ← gReg r.a
    let b ← gReg r.b
    let am := modeOf (r.c.extractLsb' 6 2)
    let sc := r.c.extractLsb' 4 2
    need (r.c.extractLsb' 0 4 == 3#4) .badSize
    zero r.m
    zero r.x
    return .feset h ⟨am, a, b, sc, r.z⟩
  | 0x8 => do
    zero r.d
    let a ← gReg r.a
    let b ← gReg r.b
    let am := modeOf (r.c.extractLsb' 6 2)
    let sc := r.c.extractLsb' 4 2
    need (r.c.extractLsb' 0 4 == 3#4) .badSize
    zero r.m
    zero r.x
    return .feclr h ⟨am, a, b, sc, r.z⟩
  | 0x9 => do
    let d ← gReg r.d
    let a ← gReg r.a
    let b ← gReg r.b
    let am := modeOf (r.c.extractLsb' 6 2)
    let sc := r.c.extractLsb' 4 2
    let sz ← ldszOf (r.c.extractLsb' 0 4)
    zero r.m
    zero r.x
    return .ldacq h sz d ⟨am, a, b, sc, r.z⟩
  | 0xa => do
    let d ← gReg r.d
    let a ← gReg r.a
    let b ← gReg r.b
    let am := modeOf (r.c.extractLsb' 6 2)
    let sc := r.c.extractLsb' 4 2
    let sz ← stszOf (r.c.extractLsb' 0 4)
    zero r.m
    zero r.x
    return .strel h sz d ⟨am, a, b, sc, r.z⟩
  | 0xb => do
    let d ← gReg r.d
    let a ← gReg r.a
    let b ← gReg r.b
    zero (r.c &&& 0x30#8)
    let am := modeOf (r.c.extractLsb' 6 2)
    let wd ← wdszOf (r.c.extractLsb' 0 4)
    zero (r.m &&& 0xff0f#16)
    let op ← atomOf (r.m.extractLsb' 4 4)
    zero r.x
    let disp := r.z
    return .atom h wd op am d a b disp
  | 0xc => do
    let d ← gReg r.d
    let a ← gReg r.a
    let b ← gReg r.b
    let am := modeOf (r.c.extractLsb' 6 2)
    let sc := r.c.extractLsb' 4 2
    need (r.c.extractLsb' 0 4 == 0#4) .badSize
    zero r.m
    zero r.x
    return .pref h d ⟨am, a, b, sc, r.z⟩
  | 0xd => do
    let d ← vReg r.d
    let a ← gReg r.a
    let b ← vReg r.b
    let cm ← lcOf (r.c.extractLsb' 6 2)
    let sc := (r.c.extractLsb' 4 2)
    need (r.c.extractLsb' 0 4 == 2#4) .badSize
    zero r.m
    zero r.x
    let disp := r.z
    return .vldx h cm d a b sc disp
  | 0xe => do
    let d ← vReg r.d
    let a ← gReg r.a
    let b ← vReg r.b
    let cm ← lcOf (r.c.extractLsb' 6 2)
    let sc := (r.c.extractLsb' 4 2)
    need (r.c.extractLsb' 0 4 == 2#4) .badSize
    zero r.m
    zero r.x
    let disp := r.z
    return .vstx h cm d a b sc disp
  | _ => .error .unassignedFn

/-- Class 0x9 (R45). -/
def decodeVolume (h : Hdr) (r : Raw) : Except Reject Instr :=
  match r.fn.toNat with
  | 0x0 => do
    let d ← gReg r.d
    let a ← gReg r.a
    let b ← gReg r.b
    zero r.c
    zero (r.m &&& 0xff00#16)
    let tid := (r.m.extractLsb' 0 8)
    zero r.x
    let disp := r.z
    return .cld h tid d a b disp
  | 0x1 => do
    let d ← gReg r.d
    let a ← gReg r.a
    let b ← gReg r.b
    zero r.c
    zero (r.m &&& 0xff00#16)
    let tid := (r.m.extractLsb' 0 8)
    zero r.x
    let disp := r.z
    return .cst h tid d a b disp
  | 0x2 => do
    let d ← vReg r.d
    let a ← gReg r.a
    let b ← gReg r.b
    zero r.c
    zero (r.m &&& 0xff00#16)
    let tid := (r.m.extractLsb' 0 8)
    zero r.x
    let disp := r.z
    return .cvld h tid d a b disp
  | 0x3 => do
    let d ← vReg r.d
    let a ← gReg r.a
    let b ← gReg r.b
    zero r.c
    zero (r.m &&& 0xff00#16)
    let tid := (r.m.extractLsb' 0 8)
    zero r.x
    let disp := r.z
    return .cvst h tid d a b disp
  | 0x4 => do
    let d ← gReg r.d
    let a ← gReg r.a
    zero r.b
    zero r.c
    zero (r.m &&& 0xff00#16)
    let tid := (r.m.extractLsb' 0 8)
    zero r.x
    zero r.z
    return .cprobe h tid d a
  | 0x5 => do
    zero r.d
    let a ← gReg r.a
    zero r.b
    zero r.c
    zero (r.m &&& 0xff00#16)
    let tid := (r.m.extractLsb' 0 8)
    zero r.x
    zero r.z
    return .cclr h tid a
  | 0x6 => do
    let a ← gReg r.a; zero r.b; zero r.c
    zero (r.m &&& 0xff00#16)
    let tid := r.m.extractLsb' 0 8
    match r.imm32.toNat with
    | 0 => do let d ← gReg r.d; return .ctileFind h tid d a
    | 1 => do let d ← gReg r.d; return .ctileDetach h tid d a
    | 2 => do zero r.d; return .ctilePtile h tid a
    | 3 => do zero r.d; return .ctilePnode h tid a
    | _ => .error .badOperation
  | 0x7 => do
    zero r.d
    zero r.a
    zero r.b
    zero r.c
    zero (r.m &&& 0xff00#16)
    let tid := (r.m.extractLsb' 0 8)
    zero r.x
    zero r.z
    return .clbinv h tid
  | _ => .error .unassignedFn

/-- Class 0xa (R45). -/
def decodeCopy (h : Hdr) (r : Raw) : Except Reject Instr :=
  match r.fn.toNat with
  | 0x0 => do
    let d ← hReg r.d
    let a ← gReg r.a
    let b ← gReg r.b
    let c ← gReg r.c
    zero r.m
    zero (r.imm32 &&& 0xffffff00#32)
    let dk ← ckindOf (r.imm32.extractLsb' 0 4)
    let sk ← ckindOf (r.imm32.extractLsb' 4 4)
    return .cpy h dk sk d a b c
  | 0x1 => do
    zero r.d
    let a ← hReg r.a
    let b ← gReg r.b
    zero r.c
    zero r.m
    zero r.imm32
    return .cpyw h a b
  | 0x2 => do
    let d ← gReg r.d
    let a ← hReg r.a
    let b ← gReg r.b
    zero r.c
    zero r.m
    zero r.imm32
    return .cpyt h d a b
  | 0x3 => do
    let d ← kReg r.d
    let a ← gReg r.a
    let b ← gReg r.b
    let c ← gReg r.c
    zero (r.m &&& 0xfeff#16)
    let die := (r.m.extractLsb' 8 1) == 1#1
    let total := (r.imm32.extractLsb' 0 32)
    return .deal h die d a b c total
  | 0x4 => do
    let d ← vReg r.d
    zero r.a
    let b ← gReg r.b
    let c ← gReg r.c
    zero (r.m &&& 0xff00#16)
    let tid := (r.m.extractLsb' 0 8)
    zero (r.imm32 &&& 0x40000000#32)
    let wr := (r.imm32.extractLsb' 31 1) == 1#1
    let n2 := (r.imm32.extractLsb' 20 10)
    let n1 := (r.imm32.extractLsb' 10 10)
    let n0 := (r.imm32.extractLsb' 0 10)
    return .sarm h wr n2 n1 n0 tid d b c
  | 0x5 => do
    zero r.d
    let a ← vReg r.a
    zero r.b
    zero r.c
    zero r.m
    zero r.imm32
    return .sdrop h a
  | 0x6 => do
    let d ← cbReg r.d
    let a ← gReg r.a
    let b ← gReg r.b
    zero r.c
    zero r.m
    zero r.imm32
    return .cbset h d a b
  | 0x7 => do
    let d ← gReg r.d
    let a ← cbReg r.a
    zero r.b
    zero r.c
    zero r.m
    zero r.imm32
    return .cbrsv h d a
  | 0x8 => do
    zero r.d
    let a ← cbReg r.a
    zero r.b
    zero r.c
    zero r.m
    zero r.imm32
    return .cbcmt h a
  | 0x9 => do
    let d ← gReg r.d
    let a ← cbReg r.a
    zero r.b
    zero r.c
    zero r.m
    zero r.imm32
    return .cbacq h d a
  | 0xa => do
    zero r.d
    let a ← cbReg r.a
    zero r.b
    zero r.c
    zero r.m
    zero r.imm32
    return .cbrel h a
  | 0xb => do
    let d ← kReg r.d
    let a ← gReg r.a
    let b ← gReg r.b
    let c ← gReg r.c
    zero (r.m &&& 0xff00#16)
    let tid := (r.m.extractLsb' 0 8)
    zero (r.imm32 &&& 0xffffffe0#32)
    let i64 := (r.imm32.extractLsb' 0 1) == 1#1
    let pm := modeOf (r.imm32.extractLsb' 1 2)
    let lm := modeOf (r.imm32.extractLsb' 3 2)
    return .get h i64 pm lm tid d a b c
  | 0xc => do
    let d ← kReg r.d
    let a ← gReg r.a
    let b ← gReg r.b
    let c ← gReg r.c
    zero (r.m &&& 0xff00#16)
    let tid := (r.m.extractLsb' 0 8)
    zero (r.imm32 &&& 0xffffff80#32)
    let i64 := (r.imm32.extractLsb' 0 1) == 1#1
    let pm := modeOf (r.imm32.extractLsb' 1 2)
    let lm := modeOf (r.imm32.extractLsb' 3 2)
    let cmb := (r.imm32.extractLsb' 5 2)
    return .put h i64 pm lm cmb tid d a b c
  | 0xd => do
    let d ← gReg r.d
    let a ← kReg r.a
    let b ← gReg r.b
    zero r.c
    zero r.m
    zero (r.imm32 &&& 0xfffffffe#32)
    let sub := (r.imm32.extractLsb' 0 1) == 1#1
    return .gpwait h sub d a b
  | _ => .error .unassignedFn

/-- Class 0xb (R45). -/
def decodeTile (h : Hdr) (r : Raw) : Except Reject Instr :=
  match r.fn.toNat with
  | 0x0 => do
    zero r.d
    let a ← vReg r.a
    zero r.b
    zero r.c
    zero (r.m &&& 0xff#16)
    let lvl ← lvlOf (r.m.extractLsb' 8 8)
    zero r.imm32
    return .card h lvl a
  | 0x1 => do
    let d ← gReg r.d
    let a ← gReg r.a
    zero r.b
    zero r.c
    zero r.m
    zero r.imm32
    return .cwait h d a
  | 0x2 => do
    let d ← gReg r.d
    let a ← gReg r.a
    zero r.b
    zero r.c
    zero r.m
    zero r.imm32
    return .oclaim h d a
  | 0x3 => do
    zero r.d
    let a ← gReg r.a
    zero r.b
    zero r.c
    zero r.m
    zero r.imm32
    return .orel h a
  | 0x4 => do
    let d ← oReg r.d
    let a ← vReg r.a
    let b ← gReg r.b
    zero r.c
    zero r.m
    zero r.imm32
    return .ofill h d a b
  | 0x5 => do
    let d ← aReg r.d
    zero r.a
    zero r.b
    zero r.c
    zero r.m
    zero r.imm32
    return .aclr h d
  | 0x6 => do
    zero r.d
    let a ← aReg r.a
    let b ← gReg r.b
    let c ← optGReg r.c
    zero r.m
    zero (r.imm32 &&& 0xfc00ff00#32)
    let am := modeOf (r.imm32.extractLsb' 0 2)
    let f ← tfmtOf (r.imm32.extractLsb' 2 4)
    let act := (r.imm32.extractLsb' 6 2)
    let vr1 := (r.imm32.extractLsb' 16 5)
    let vc1 := (r.imm32.extractLsb' 21 5)
    return .ast h am f act vr1 vc1 a b c
  | 0x7 => do
    let d ← aReg r.d
    let a ← gReg r.a
    zero r.b
    zero r.c
    zero r.m
    zero (r.imm32 &&& 0xffffffc0#32)
    let am := modeOf (r.imm32.extractLsb' 0 2)
    let f ← tfmtOf (r.imm32.extractLsb' 2 4)
    return .ald h am f d a
  | 0x8 => do
    zero r.d
    let a ← vReg r.a
    zero r.b
    zero r.c
    zero (r.m &&& 0xff00#16)
    let tid := (r.m.extractLsb' 0 8)
    zero r.imm32
    return .tdset h tid a
  | 0x9 => do
    let d ← vReg r.d
    zero r.a
    zero r.b
    zero r.c
    zero (r.m &&& 0xff00#16)
    let tid := (r.m.extractLsb' 0 8)
    zero r.imm32
    return .tdget h tid d
  | _ => .error .unassignedFn

/-- Class 0xc (R45). -/
def decodeFabric (h : Hdr) (r : Raw) : Except Reject Instr :=
  match r.fn.toNat with
  | 0x0 => do
    let a ← gReg r.a; let b ← gReg r.b
    need (r.c.extractLsb' 4 4 == 12#4) .badMode
    zero r.m; zero r.x
    if r.c.extractLsb' 0 4 == 8#4 then do
      let d ← vReg r.d
      return .pget h (.v d) a b r.z
    else do
      let sz ← ldszOf (r.c.extractLsb' 0 4); let d ← gReg r.d
      return .pget h (.g sz d) a b r.z
  | 0x1 => do
    let a ← gReg r.a; let b ← gReg r.b
    need (r.c.extractLsb' 4 4 == 12#4) .badMode
    zero r.m; zero r.x
    if r.c.extractLsb' 0 4 == 8#4 then do
      let d ← vReg r.d
      return .pput h (.v d) a b r.z
    else do
      let sz ← stszOf (r.c.extractLsb' 0 4); let d ← gReg r.d
      return .pput h (.g sz d) a b r.z
  | 0x2 => do
    let d ← gReg r.d
    let a ← gReg r.a
    let b ← gReg r.b
    zero (r.c &&& 0x30#8)
    need (r.c.extractLsb' 6 2 == 3#2) .badSize
    let wd ← wdszOf (r.c.extractLsb' 0 4)
    zero (r.m &&& 0xff0f#16)
    let op ← atomOf (r.m.extractLsb' 4 4)
    zero r.x
    let disp := r.z
    return .patom h wd op d a b disp
  | 0x3 => do
    zero r.d
    let a ← gReg r.a
    let b ← gReg r.b
    zero r.c
    zero r.m
    zero r.imm32
    return .fbar h a b
  | _ => .error .unassignedFn

/-- Class 0xd (R45). -/
def decodeSystem (h : Hdr) (r : Raw) : Except Reject Instr :=
  match r.fn.toNat with
  | 0x0 => do
    zero r.d
    zero r.a
    zero r.mi
    zero (r.imm48 &&& 0xffffffffff00#48)
    let code := (r.imm48.extractLsb' 0 8)
    return .trap h code
  | 0x1 => do
    zero r.d; zero r.a; zero r.b; zero r.c
    zero (r.m &&& 0xfffe#16); zero r.x; zero r.z
    return if r.m == 0 then .eret h else .eretNext h
  | 0x2 => do
    let d ← gReg r.d
    zero r.a
    zero r.mi
    zero (r.imm48 &&& 0xfffffffff000#48)
    let r ← csrOf (r.imm48.extractLsb' 0 12)
    return .csrr h d r
  | 0x3 => do
    zero r.d
    let a ← gReg r.a
    zero r.mi
    zero (r.imm48 &&& 0xfffffffff000#48)
    let r ← csrOf (r.imm48.extractLsb' 0 12)
    return .csrw h r a
  | 0x4 => do
    zero r.d; let a ← gReg r.a; let b ← gReg r.b; zero r.c; zero r.x; zero r.z
    match r.m.toNat with
    | 0 => return .tlbinvPage h a b
    | 1 => return .tlbinvTenant h a b
    | 2 => return .tlbinvAll h a b
    | _ => .error .badOperation
  | 0x5 => do
    let d ← gReg r.d
    let a ← gReg r.a
    zero r.b
    zero r.c
    zero (r.m &&& 0xfff0#16)
    let word := (r.m.extractLsb' 0 4)
    zero r.x
    zero r.z
    return .jnlrd h word d a
  | 0x6 => do
    zero r.d; let a ← gReg r.a; zero r.b; zero r.c
    zero (r.m &&& 0xfffe#16); zero r.x; zero r.z
    return if r.m == 0 then .jnlclr h a else .jnlclrResend h a
  | 0x7 => do
    zero r.d
    let a ← gReg r.a
    let b ← gReg r.b
    zero r.c
    zero r.m
    zero r.x
    zero r.z
    return .ctxsv h a b
  | 0x8 => do
    zero r.d
    let a ← gReg r.a
    let b ← gReg r.b
    zero r.c
    zero r.m
    zero r.x
    zero r.z
    return .ctxld h a b
  | 0x9 => do
    zero r.d
    zero r.a
    zero r.b
    zero r.c
    zero r.m
    zero r.x
    zero r.z
    return .fencei h
  | _ => .error .unassignedFn

/-- Class 0xe (R45). -/
def decodeSched (h : Hdr) (r : Raw) : Except Reject Instr :=
  match r.fn.toNat with
  | 0x0 => do
    let d ← gReg r.d
    let a ← gReg r.a
    zero r.b
    zero r.c
    zero r.m
    zero r.imm32
    return .launch h d a
  | 0x1 => do
    let d ← gReg r.d
    let a ← gReg r.a
    let b ← gReg r.b
    zero r.c
    zero r.m
    zero r.imm32
    return .glaunch h d a b
  | 0x2 => do
    let d ← gReg r.d; let a ← gReg r.a; zero r.c; zero r.m
    match r.imm32.toNat with
    | 0 => do zero r.b; return .gnodeGraph h d a
    | 1 => do let b ← gReg r.b; return .gnodeNode h d a b
    | 2 => do let b ← gReg r.b; return .gnodeEdge h d a b
    | 3 => do zero r.b; return .gnodeDrop h d a
    | _ => .error .badOperation
  | 0x3 => do
    let d ← gReg r.d
    let a ← gReg r.a
    let b ← gReg r.b
    zero r.c
    zero r.m
    zero r.imm32
    return .gdone h d a b
  | 0x4 => do
    let d ← gReg r.d; let a ← gReg r.a; zero r.c; zero r.m
    match r.imm32.toNat with
    | 0 => do zero r.b; return .grabTake h d a
    | 1 => do let b ← gReg r.b; return .grabSet h d a b
    | _ => .error .badOperation
  | 0x5 => do
    let d ← gReg r.d; let a ← gReg r.a; zero r.b; zero r.c; zero r.m
    match r.imm32.toNat with
    | 0 => return .qstatLaunch h d a
    | 1 => return .qstatQueue h d a
    | 2 => return .qstatRange h d a
    | 3 => return .qstatInst h d a
    | _ => .error .badOperation
  | _ => .error .unassignedFn

/-- Class 0xf (R45). -/
def decodeDebug (h : Hdr) (r : Raw) : Except Reject Instr :=
  match r.fn.toNat with
  | 0x0 => do
    zero r.d
    zero r.a
    zero r.mi
    zero (r.imm48 &&& 0xffffffff0000#48)
    let id := (r.imm48.extractLsb' 0 16)
    return .renter h id
  | 0x1 => do
    zero r.d
    zero r.a
    zero r.b
    zero r.c
    zero r.m
    zero r.x
    zero r.z
    return .rleave h
  | 0x2 => do
    zero r.d
    let a ← gReg r.a
    zero r.b
    zero r.c
    let tag := (r.m.extractLsb' 0 16)
    zero r.x
    zero r.z
    return .trace h tag a
  | 0x3 => do
    zero r.d
    zero r.a
    zero r.mi
    zero (r.imm48 &&& 0xfffffffc0000#48)
    let code := (r.imm48.extractLsb' 0 16)
    let scope := (r.imm48.extractLsb' 16 2)
    return .brk h code scope
  | 0x4 => do
    zero r.d
    let a ← gReg r.a
    zero r.b
    zero r.c
    zero (r.m &&& 0xfe00#16)
    let idx := (r.m.extractLsb' 0 3)
    let kind := (r.m.extractLsb' 3 2)
    let scope := (r.m.extractLsb' 5 2)
    let am := modeOf (r.m.extractLsb' 7 2)
    zero r.x
    zero r.z
    return .wpset h idx kind scope am a
  | 0x5 => do
    zero r.d
    let a ← gReg r.a
    zero r.b
    zero r.c
    zero (r.m &&& 0xfe78#16)
    let idx := (r.m.extractLsb' 0 3)
    let am := modeOf (r.m.extractLsb' 7 2)
    zero r.x
    zero r.z
    return .wpclr h idx am a
  | 0x6 => do
    let d ← gReg r.d
    zero r.a
    zero (r.mi &&& 0xfffe#16)
    let lat := (r.mi.extractLsb' 0 1) == 1#1
    zero (r.imm48 &&& 0xffffffffff00#48)
    let n := (r.imm48.extractLsb' 0 8)
    return .cntrd h lat n d
  | _ => .error .unassignedFn

/-- The instruction that a word's parts stand for, by class (R45), or the reason for refusing it (R42). -/
def decodeRaw (r : Raw) : Except Reject Instr :=
  let h : Hdr := ⟨r.s, r.g, r.n⟩
  match r.cls.toNat with
  | 0x0 => decodeThread h r
  | 0x1 => decodeInteger h r
  | 0x2 => decodeAddress h r
  | 0x3 => decodeControl h r
  | 0x4 => decodeExperience h r
  | 0x5 => decodeFloat h r
  | 0x6 => decodeVInt h r
  | 0x7 => decodeBlock h r
  | 0x8 => decodeMemory h r
  | 0x9 => decodeVolume h r
  | 0xa => decodeCopy h r
  | 0xb => decodeTile h r
  | 0xc => decodeFabric h r
  | 0xd => decodeSystem h r
  | 0xe => decodeSched h r
  | _ => decodeDebug h r

/-- Decoding (R42): total on every word; a word that is no legal instruction is refused by name. -/
def decode (w : Insn96) : Except Reject Instr := do
  let i ← decodeRaw (Raw.ofWord w)
  need i.wf .illFormed
  return i

/-- The parts of an instruction's word, by the encoding tables of R45 and the class chapters; an event has none. -/
def encodeRaw : Instr → Option Raw
  | .nop h => some (rawA h 0x0 0x0 0#8 0#8 0#8 (0#8) (0#16) 0#16 0#16)
  | .yieldT h => some (rawA h 0x0 0x1 0#8 0#8 0#8 (0#8) (0#16) 0#16 0#16)
  | .wait h => some (rawA h 0x0 0x2 0#8 0#8 0#8 (0#8) (0#16) 0#16 0#16)
  | .doze h a => some (rawA h 0x0 0x3 0#8 (gSpec a) 0#8 (0#8) (0#16) 0#16 0#16)
  | .nowns h d => some (rawA h 0x0 0x4 (gSpec d) 0#8 0#8 (0#8) (0#16) 0#16 0#16)
  | .exit h a => some (rawA h 0x0 0x5 0#8 (gSpec a) 0#8 (0#8) (0#16) 0#16 0#16)
  | .join h d a => some (rawA h 0x0 0x6 (gSpec d) (gSpec a) 0#8 (0#8) (0#16) 0#16 0#16)
  | .leave h a => some (rawA h 0x0 0x7 0#8 (gSpec a) 0#8 (0#8) (0#16) 0#16 0#16)
  | .gbar h a => some (rawA h 0x0 0x8 0#8 (gSpec a) 0#8 (0#8) (0#16) 0#16 0#16)
  | .garrive h a => some (rawA h 0x0 0x9 0#8 (gSpec a) 0#8 (0#8) (0#16) 0#16 0#16)
  | .gwait h a => some (rawA h 0x0 0xa 0#8 (gSpec a) 0#8 (0#8) (0#16) 0#16 0#16)
  | .phase h a => some (rawA h 0x0 0xb 0#8 (gSpec a) 0#8 (0#8) (0#16) 0#16 0#16)
  | .ginfoSize h d a => some (rawA h 0 0xc (gSpec d) (gSpec a) 0 0 0 0 0)
  | .ginfoRank h d a => some (rawA h 0 0xc (gSpec d) (gSpec a) 0 0 1 0 0)
  | .mfs h d r => some (rawI h 0x0 0xd (gSpec d) 0#8 (0#16) (putAt 48 0 (sregBits r)))
  | .mts h r a => some (rawI h 0x0 0xe 0#8 (gSpec a) (0#16) (putAt 48 0 (sregBits r)))
  | .add h wd d a b => some (rawA h 0x1 0x0 (gSpec d) (gSpec a) (gSpec b) (0#8) (putAt 16 0 (wdBits wd)) 0#16 0#16)
  | .addImm h wd d a imm => some (rawI h 0x1 0x40 (gSpec d) (gSpec a) (putAt 16 0 (wdBits wd)) (putAt 48 0 imm))
  | .sub h wd d a b => some (rawA h 0x1 0x1 (gSpec d) (gSpec a) (gSpec b) (0#8) (putAt 16 0 (wdBits wd)) 0#16 0#16)
  | .subImm h wd d a imm => some (rawI h 0x1 0x41 (gSpec d) (gSpec a) (putAt 16 0 (wdBits wd)) (putAt 48 0 imm))
  | .mul h wd d a b => some (rawA h 0x1 0x2 (gSpec d) (gSpec a) (gSpec b) (0#8) (putAt 16 0 (wdBits wd)) 0#16 0#16)
  | .mulImm h wd d a imm => some (rawI h 0x1 0x42 (gSpec d) (gSpec a) (putAt 16 0 (wdBits wd)) (putAt 48 0 imm))
  | .mulh h wd d a b => some (rawA h 0x1 0x3 (gSpec d) (gSpec a) (gSpec b) (0#8) (putAt 16 0 (wdBits wd)) 0#16 0#16)
  | .mulhImm h wd d a imm => some (rawI h 0x1 0x43 (gSpec d) (gSpec a) (putAt 16 0 (wdBits wd)) (putAt 48 0 imm))
  | .mulhu h wd d a b => some (rawA h 0x1 0x4 (gSpec d) (gSpec a) (gSpec b) (0#8) (putAt 16 0 (wdBits wd)) 0#16 0#16)
  | .mulhuImm h wd d a imm => some (rawI h 0x1 0x44 (gSpec d) (gSpec a) (putAt 16 0 (wdBits wd)) (putAt 48 0 imm))
  | .div h wd d a b => some (rawA h 0x1 0x5 (gSpec d) (gSpec a) (gSpec b) (0#8) (putAt 16 0 (wdBits wd)) 0#16 0#16)
  | .divImm h wd d a imm => some (rawI h 0x1 0x45 (gSpec d) (gSpec a) (putAt 16 0 (wdBits wd)) (putAt 48 0 imm))
  | .divu h wd d a b => some (rawA h 0x1 0x6 (gSpec d) (gSpec a) (gSpec b) (0#8) (putAt 16 0 (wdBits wd)) 0#16 0#16)
  | .divuImm h wd d a imm => some (rawI h 0x1 0x46 (gSpec d) (gSpec a) (putAt 16 0 (wdBits wd)) (putAt 48 0 imm))
  | .rem h wd d a b => some (rawA h 0x1 0x7 (gSpec d) (gSpec a) (gSpec b) (0#8) (putAt 16 0 (wdBits wd)) 0#16 0#16)
  | .remImm h wd d a imm => some (rawI h 0x1 0x47 (gSpec d) (gSpec a) (putAt 16 0 (wdBits wd)) (putAt 48 0 imm))
  | .remu h wd d a b => some (rawA h 0x1 0x8 (gSpec d) (gSpec a) (gSpec b) (0#8) (putAt 16 0 (wdBits wd)) 0#16 0#16)
  | .remuImm h wd d a imm => some (rawI h 0x1 0x48 (gSpec d) (gSpec a) (putAt 16 0 (wdBits wd)) (putAt 48 0 imm))
  | .andd h wd d a b => some (rawA h 0x1 0x9 (gSpec d) (gSpec a) (gSpec b) (0#8) (putAt 16 0 (wdBits wd)) 0#16 0#16)
  | .andImm h wd d a imm => some (rawI h 0x1 0x49 (gSpec d) (gSpec a) (putAt 16 0 (wdBits wd)) (putAt 48 0 imm))
  | .orr h wd d a b => some (rawA h 0x1 0xa (gSpec d) (gSpec a) (gSpec b) (0#8) (putAt 16 0 (wdBits wd)) 0#16 0#16)
  | .orImm h wd d a imm => some (rawI h 0x1 0x4a (gSpec d) (gSpec a) (putAt 16 0 (wdBits wd)) (putAt 48 0 imm))
  | .xor h wd d a b => some (rawA h 0x1 0xb (gSpec d) (gSpec a) (gSpec b) (0#8) (putAt 16 0 (wdBits wd)) 0#16 0#16)
  | .xorImm h wd d a imm => some (rawI h 0x1 0x4b (gSpec d) (gSpec a) (putAt 16 0 (wdBits wd)) (putAt 48 0 imm))
  | .andn h wd d a b => some (rawA h 0x1 0xc (gSpec d) (gSpec a) (gSpec b) (0#8) (putAt 16 0 (wdBits wd)) 0#16 0#16)
  | .andnImm h wd d a imm => some (rawI h 0x1 0x4c (gSpec d) (gSpec a) (putAt 16 0 (wdBits wd)) (putAt 48 0 imm))
  | .shl h wd d a b => some (rawA h 0x1 0xd (gSpec d) (gSpec a) (gSpec b) (0#8) (putAt 16 0 (wdBits wd)) 0#16 0#16)
  | .shlImm h wd d a imm => some (rawI h 0x1 0x4d (gSpec d) (gSpec a) (putAt 16 0 (wdBits wd)) (putAt 48 0 imm))
  | .shr h wd d a b => some (rawA h 0x1 0xe (gSpec d) (gSpec a) (gSpec b) (0#8) (putAt 16 0 (wdBits wd)) 0#16 0#16)
  | .shrImm h wd d a imm => some (rawI h 0x1 0x4e (gSpec d) (gSpec a) (putAt 16 0 (wdBits wd)) (putAt 48 0 imm))
  | .sra h wd d a b => some (rawA h 0x1 0xf (gSpec d) (gSpec a) (gSpec b) (0#8) (putAt 16 0 (wdBits wd)) 0#16 0#16)
  | .sraImm h wd d a imm => some (rawI h 0x1 0x4f (gSpec d) (gSpec a) (putAt 16 0 (wdBits wd)) (putAt 48 0 imm))
  | .rol h wd d a b => some (rawA h 0x1 0x10 (gSpec d) (gSpec a) (gSpec b) (0#8) (putAt 16 0 (wdBits wd)) 0#16 0#16)
  | .rolImm h wd d a imm => some (rawI h 0x1 0x50 (gSpec d) (gSpec a) (putAt 16 0 (wdBits wd)) (putAt 48 0 imm))
  | .min h wd d a b => some (rawA h 0x1 0x11 (gSpec d) (gSpec a) (gSpec b) (0#8) (putAt 16 0 (wdBits wd)) 0#16 0#16)
  | .minImm h wd d a imm => some (rawI h 0x1 0x51 (gSpec d) (gSpec a) (putAt 16 0 (wdBits wd)) (putAt 48 0 imm))
  | .max h wd d a b => some (rawA h 0x1 0x12 (gSpec d) (gSpec a) (gSpec b) (0#8) (putAt 16 0 (wdBits wd)) 0#16 0#16)
  | .maxImm h wd d a imm => some (rawI h 0x1 0x52 (gSpec d) (gSpec a) (putAt 16 0 (wdBits wd)) (putAt 48 0 imm))
  | .minu h wd d a b => some (rawA h 0x1 0x13 (gSpec d) (gSpec a) (gSpec b) (0#8) (putAt 16 0 (wdBits wd)) 0#16 0#16)
  | .minuImm h wd d a imm => some (rawI h 0x1 0x53 (gSpec d) (gSpec a) (putAt 16 0 (wdBits wd)) (putAt 48 0 imm))
  | .maxu h wd d a b => some (rawA h 0x1 0x14 (gSpec d) (gSpec a) (gSpec b) (0#8) (putAt 16 0 (wdBits wd)) 0#16 0#16)
  | .maxuImm h wd d a imm => some (rawI h 0x1 0x54 (gSpec d) (gSpec a) (putAt 16 0 (wdBits wd)) (putAt 48 0 imm))
  | .setp h wd c d a b => some (rawA h 0x1 0x15 (pSpec d) (gSpec a) (gSpec b) (0#8) (putAt 16 0 (wdBits wd) ||| putAt 16 1 (condBits c)) 0#16 0#16)
  | .setpImm h wd c d a imm => some (rawI h 0x1 0x55 (pSpec d) (gSpec a) (putAt 16 0 (wdBits wd) ||| putAt 16 1 (condBits c)) (putAt 48 0 imm))
  | .sel h wd d a b c => some (rawA h 0x1 0x16 (gSpec d) (gSpec a) (gSpec b) ((pSpec c)) (putAt 16 0 (wdBits wd)) 0#16 0#16)
  | .clz h wd d a => some (rawA h 0x1 0x17 (gSpec d) (gSpec a) 0#8 (0#8) (putAt 16 0 (wdBits wd)) 0#16 0#16)
  | .ctz h wd d a => some (rawA h 0x1 0x18 (gSpec d) (gSpec a) 0#8 (0#8) (putAt 16 0 (wdBits wd)) 0#16 0#16)
  | .popc h wd d a => some (rawA h 0x1 0x19 (gSpec d) (gSpec a) 0#8 (0#8) (putAt 16 0 (wdBits wd)) 0#16 0#16)
  | .brev h wd d a => some (rawA h 0x1 0x1a (gSpec d) (gSpec a) 0#8 (0#8) (putAt 16 0 (wdBits wd)) 0#16 0#16)
  | .bfx h wd sx d a b c => some (rawA h 0x1 0x1b (gSpec d) (gSpec a) (gSpec b) ((gSpec c)) (putAt 16 0 (wdBits wd) ||| putAt 16 1 (BitVec.ofBool sx)) 0#16 0#16)
  | .bfxImm h wd sx d a pos len => some (rawI h 0x1 0x5b (gSpec d) (gSpec a) (putAt 16 0 (wdBits wd) ||| putAt 16 1 (BitVec.ofBool sx)) (putAt 48 0 pos ||| putAt 48 8 len))
  | .bfi h wd d a b c => some (rawA h 0x1 0x1c (gSpec d) (gSpec a) (gSpec b) ((gSpec c)) (putAt 16 0 (wdBits wd)) 0#16 0#16)
  | .bfiImm h wd d a pos len => some (rawI h 0x1 0x5c (gSpec d) (gSpec a) (putAt 16 0 (wdBits wd)) (putAt 48 0 pos ||| putAt 48 8 len))
  | .mov h (.gg wd d a) => some (rawA h 1 0x1d (gSpec d) (gSpec a) 0 0 (putAt 16 0 (wdBits wd)) 0 0)
  | .mov h (.pg d a) => some (rawA h 1 0x1d (pSpec d) (gSpec a) 0 0 0 0 0)
  | .mov h (.gp d a) => some (rawA h 1 0x1d (gSpec d) (pSpec a) 0 0 0 0 0)
  | .mov h (.pp d a) => some (rawA h 1 0x1d (pSpec d) (pSpec a) 0 0 0 0 0)
  | .plog h tt d a b => some (rawA h 0x1 0x1f (pSpec d) (pSpec a) (pSpec b) (0#8) (putAt 16 1 tt) 0#16 0#16)
  | .li h wd d imm => some (rawI h 1 0x5e (gSpec d) 0 (putAt 16 0 (wdBits wd)) imm)
  | .liHi h d imm => some (rawI h 1 0x5e (gSpec d) 0 3 (putAt 48 0 imm))
  | .lea h d a imm => some (rawI h 0x2 0x0 (gSpec d) (gSpec a) (0#16) (putAt 48 0 imm))
  | .mkptr h d a b => some (rawA h 0x2 0x1 (gSpec d) (gSpec a) (gSpec b) (0#8) (0#16) 0#16 0#16)
  | .getband h d a => some (rawA h 0x2 0x2 (gSpec d) (gSpec a) 0#8 (0#8) (0#16) 0#16 0#16)
  | .caddr h d a b c => some (rawA h 0x2 0x3 (gSpec d) (gSpec a) (gSpec b) ((gSpec c)) (0#16) 0#16 0#16)
  | .chkptr h d a => some (rawA h 0x2 0x4 (gSpec d) (gSpec a) 0#8 (0#8) (0#16) 0#16 0#16)
  | .br h x disp => some (rawB h 0x3 0x0 0#8 0#8 x (putAt 32 0 disp))
  | .bri h a => some (rawB h 0x3 0x1 (gSpec a) 0#8 0#16 (0#32))
  | .call h disp => some (rawB h 0x3 0x2 0#8 0#8 0#16 (putAt 32 0 disp))
  | .calli h a => some (rawB h 0x3 0x3 (gSpec a) 0#8 0#16 (0#32))
  | .ret h a => some (rawB h 0x3 0x4 (gSpec a) 0#8 0#16 (0#32))
  | .loop h a b x disp => some (rawB h 0x3 0x5 (gSpec a) (gSpec b) x (putAt 32 0 disp))
  | .xrd h hdr d a => some (rawA h 0x4 0x0 (gSpec d) (gSpec a) 0#8 (0#8) (putAt 16 0 (BitVec.ofBool hdr)) 0#16 0#16)
  | .xsel h d b x => some (rawA h 0x4 0x1 (pSpec d) 0#8 (optGSpec b) (0#8) (0#16) x 0#16)
  | .xunr h d b x => some (rawA h 0x4 0x2 (gSpec d) 0#8 (optGSpec b) (0#8) (0#16) x 0#16)
  | .xpfd h d a b x => some (rawA h 0x4 0x3 (gSpec d) (gSpec a) (optGSpec b) (0#8) (0#16) x 0#16)
  | .xnote h a x => some (rawA h 0x4 0x4 0#8 (gSpec a) 0#8 (0#8) (0#16) x 0#16)
  | .xflush h => some (rawA h 0x4 0x5 0#8 0#8 0#8 (0#8) (0#16) 0#16 0#16)
  | .vadd h f rm d a b => some (rawA h 0x5 0x0 (vSpec d) (vSpec a) (vSpec b) (0#8) (putAt 16 0 (rmBits rm) ||| putAt 16 4 (fmtBits f)) 0#16 0#16)
  | .vsub h f rm d a b => some (rawA h 0x5 0x1 (vSpec d) (vSpec a) (vSpec b) (0#8) (putAt 16 0 (rmBits rm) ||| putAt 16 4 (fmtBits f)) 0#16 0#16)
  | .vmul h f rm d a b => some (rawA h 0x5 0x2 (vSpec d) (vSpec a) (vSpec b) (0#8) (putAt 16 0 (rmBits rm) ||| putAt 16 4 (fmtBits f)) 0#16 0#16)
  | .vfma h f rm d a b c => some (rawA h 0x5 0x3 (vSpec d) (vSpec a) (vSpec b) ((vSpec c)) (putAt 16 0 (rmBits rm) ||| putAt 16 4 (fmtBits f)) 0#16 0#16)
  | .vfms h f rm d a b c => some (rawA h 0x5 0x4 (vSpec d) (vSpec a) (vSpec b) ((vSpec c)) (putAt 16 0 (rmBits rm) ||| putAt 16 4 (fmtBits f)) 0#16 0#16)
  | .vfnma h f rm d a b c => some (rawA h 0x5 0x5 (vSpec d) (vSpec a) (vSpec b) ((vSpec c)) (putAt 16 0 (rmBits rm) ||| putAt 16 4 (fmtBits f)) 0#16 0#16)
  | .vmin h f d a b => some (rawA h 0x5 0x6 (vSpec d) (vSpec a) (vSpec b) (0#8) (putAt 16 4 (fmtBits f)) 0#16 0#16)
  | .vmax h f d a b => some (rawA h 0x5 0x7 (vSpec d) (vSpec a) (vSpec b) (0#8) (putAt 16 4 (fmtBits f)) 0#16 0#16)
  | .vabs h f d a => some (rawA h 0x5 0x8 (vSpec d) (vSpec a) 0#8 (0#8) (putAt 16 4 (fmtBits f)) 0#16 0#16)
  | .vneg h f d a => some (rawA h 0x5 0x9 (vSpec d) (vSpec a) 0#8 (0#8) (putAt 16 4 (fmtBits f)) 0#16 0#16)
  | .vrcp h f rm d a => some (rawA h 0x5 0xa (vSpec d) (vSpec a) 0#8 (0#8) (putAt 16 0 (rmBits rm) ||| putAt 16 4 (fmtBits f)) 0#16 0#16)
  | .vrsq h f rm d a => some (rawA h 0x5 0xb (vSpec d) (vSpec a) 0#8 (0#8) (putAt 16 0 (rmBits rm) ||| putAt 16 4 (fmtBits f)) 0#16 0#16)
  | .vexp2 h f rm d a => some (rawA h 0x5 0xc (vSpec d) (vSpec a) 0#8 (0#8) (putAt 16 0 (rmBits rm) ||| putAt 16 4 (fmtBits f)) 0#16 0#16)
  | .vlog2 h f rm d a => some (rawA h 0x5 0xd (vSpec d) (vSpec a) 0#8 (0#8) (putAt 16 0 (rmBits rm) ||| putAt 16 4 (fmtBits f)) 0#16 0#16)
  | .vdiv h f rm d a b => some (rawA h 0x5 0xe (vSpec d) (vSpec a) (vSpec b) (0#8) (putAt 16 0 (rmBits rm) ||| putAt 16 4 (fmtBits f)) 0#16 0#16)
  | .vsqrt h f rm d a => some (rawA h 0x5 0xf (vSpec d) (vSpec a) 0#8 (0#8) (putAt 16 0 (rmBits rm) ||| putAt 16 4 (fmtBits f)) 0#16 0#16)
  | .vcvt h rm part t src d a => some (rawA h 0x5 0x10 (vSpec d) (vSpec a) 0#8 (0#8) (putAt 16 0 (rmBits rm) ||| putAt 16 6 part ||| putAt 16 8 (nfmtBits t) ||| putAt 16 12 (nfmtBits src)) 0#16 0#16)
  | .vcmp h f c d a b => some (rawA h 0x5 0x11 (pSpec d) (vSpec a) (vSpec b) (0#8) (putAt 16 4 (fmtBits f) ||| putAt 16 8 (fcondBits c)) 0#16 0#16)
  | .vred h f rm d a => some (rawA h 0x5 0x12 (vSpec d) (vSpec a) 0#8 (0#8) (putAt 16 0 (rmBits rm) ||| putAt 16 4 (fmtBits f)) 0#16 0#16)
  | .vdot h f rm d a b => some (rawA h 0x5 0x13 (vSpec d) (vSpec a) (vSpec b) (0#8) (putAt 16 0 (rmBits rm) ||| putAt 16 4 (fmtBits f)) 0#16 0#16)
  | .fadd h f rm d a b => some (rawA h 0x5 0x14 (gSpec d) (gSpec a) (gSpec b) (0#8) (putAt 16 0 (rmBits rm) ||| putAt 16 4 (fmtBits f)) 0#16 0#16)
  | .fmul h f rm d a b => some (rawA h 0x5 0x15 (gSpec d) (gSpec a) (gSpec b) (0#8) (putAt 16 0 (rmBits rm) ||| putAt 16 4 (fmtBits f)) 0#16 0#16)
  | .ffma h f rm d a b c => some (rawA h 0x5 0x16 (gSpec d) (gSpec a) (gSpec b) ((gSpec c)) (putAt 16 0 (rmBits rm) ||| putAt 16 4 (fmtBits f)) 0#16 0#16)
  | .fcmp h f c d a b => some (rawA h 0x5 0x17 (pSpec d) (gSpec a) (gSpec b) (0#8) (putAt 16 4 (fmtBits f) ||| putAt 16 8 (fcondBits c)) 0#16 0#16)
  | .fcvt h rm t src d a => some (rawA h 0x5 0x18 (gSpec d) (gSpec a) 0#8 (0#8) (putAt 16 0 (rmBits rm) ||| putAt 16 8 (nfmtBits t) ||| putAt 16 12 (nfmtBits src)) 0#16 0#16)
  | .rep h n1 st a => some (rawA h 0x5 0x19 0#8 (gSpec a) 0#8 (0#8) (putAt 16 4 n1 ||| putAt 16 8 st) 0#16 0#16)
  | .repwait h => some (rawA h 0x5 0x1a 0#8 0#8 0#8 (0#8) (0#16) 0#16 0#16)
  | .viadd h vw d a b => some (rawA h 0x6 0x0 (vSpec d) (vSpec a) (vSpec b) (0#8) (putAt 16 4 (viewBits vw)) 0#16 0#16)
  | .visub h vw d a b => some (rawA h 0x6 0x1 (vSpec d) (vSpec a) (vSpec b) (0#8) (putAt 16 4 (viewBits vw)) 0#16 0#16)
  | .vimul h vw d a b => some (rawA h 0x6 0x2 (vSpec d) (vSpec a) (vSpec b) (0#8) (putAt 16 4 (viewBits vw)) 0#16 0#16)
  | .vand h vw d a b => some (rawA h 0x6 0x3 (vSpec d) (vSpec a) (vSpec b) (0#8) (putAt 16 4 (viewBits vw)) 0#16 0#16)
  | .vor h vw d a b => some (rawA h 0x6 0x4 (vSpec d) (vSpec a) (vSpec b) (0#8) (putAt 16 4 (viewBits vw)) 0#16 0#16)
  | .vxor h vw d a b => some (rawA h 0x6 0x5 (vSpec d) (vSpec a) (vSpec b) (0#8) (putAt 16 4 (viewBits vw)) 0#16 0#16)
  | .vshl h vw d a b => some (rawA h 0x6 0x6 (vSpec d) (vSpec a) (vSpec b) (0#8) (putAt 16 4 (viewBits vw)) 0#16 0#16)
  | .vshr h vw d a b => some (rawA h 0x6 0x7 (vSpec d) (vSpec a) (vSpec b) (0#8) (putAt 16 4 (viewBits vw)) 0#16 0#16)
  | .vsra h vw d a b => some (rawA h 0x6 0x8 (vSpec d) (vSpec a) (vSpec b) (0#8) (putAt 16 4 (viewBits vw)) 0#16 0#16)
  | .vimin h u vw d a b => some (rawA h 0x6 0x9 (vSpec d) (vSpec a) (vSpec b) (0#8) (putAt 16 1 (BitVec.ofBool u) ||| putAt 16 4 (viewBits vw)) 0#16 0#16)
  | .vimax h u vw d a b => some (rawA h 0x6 0xa (vSpec d) (vSpec a) (vSpec b) (0#8) (putAt 16 1 (BitVec.ofBool u) ||| putAt 16 4 (viewBits vw)) 0#16 0#16)
  | .vsel h vw d a b c => some (rawA h 0x6 0xb (vSpec d) (vSpec a) (vSpec b) ((pSpec c)) (putAt 16 4 (viewBits vw)) 0#16 0#16)
  | .vshuf h vw d a b => some (rawA h 0x6 0xc (vSpec d) (vSpec a) (vSpec b) (0#8) (putAt 16 4 (viewBits vw)) 0#16 0#16)
  | .vbcast h vw d a => some (rawA h 0x6 0xd (vSpec d) (gSpec a) 0#8 (0#8) (putAt 16 4 (viewBits vw)) 0#16 0#16)
  | .vins h vw d a b => some (rawA h 0x6 0xe (vSpec d) (gSpec a) (gSpec b) (0#8) (putAt 16 4 (viewBits vw)) 0#16 0#16)
  | .vext h u vw d a b => some (rawA h 0x6 0xf (gSpec d) (vSpec a) (gSpec b) (0#8) (putAt 16 1 (BitVec.ofBool u) ||| putAt 16 4 (viewBits vw)) 0#16 0#16)
  | .vcmprs h vw d a c => some (rawA h 0x6 0x10 (vSpec d) (vSpec a) 0#8 ((pSpec c)) (putAt 16 4 (viewBits vw)) 0#16 0#16)
  | .vexpnd h vw d a c => some (rawA h 0x6 0x11 (vSpec d) (vSpec a) 0#8 ((pSpec c)) (putAt 16 4 (viewBits vw)) 0#16 0#16)
  | .viota h vw d c => some (rawA h 0x6 0x12 (vSpec d) 0#8 0#8 ((optPSpec c)) (putAt 16 4 (viewBits vw)) 0#16 0#16)
  | .vicmp h vw c d a b => some (rawA h 0x6 0x13 (pSpec d) (vSpec a) (vSpec b) (0#8) (putAt 16 4 (viewBits vw) ||| putAt 16 8 (condBits c)) 0#16 0#16)
  | .vqnt h rn f bx d a b c => some (rawA h 0x7 0x0 (vSpec d) (vSpec a) (zeroVSpec b) ((optGSpec c)) (putAt 16 0 (BitVec.ofBool rn) ||| putAt 16 4 (fmtBits f) ||| putAt 16 8 (bxBits bx)) 0#16 0#16)
  | .vdqnt h rm part f bx d a c => some (rawA h 0x7 0x1 (vSpec d) (vSpec a) 0#8 ((optGSpec c)) (putAt 16 0 (rmBits rm) ||| putAt 16 4 (fmtBits f) ||| putAt 16 6 part ||| putAt 16 8 (bxBits bx)) 0#16 0#16)
  | .vsrnd h part f d a b c => some (rawA h 0x7 0x2 (vSpec d) (vSpec a) (gSpec b) ((gSpec c)) (putAt 16 4 (fmtBits f) ||| putAt 16 6 part) 0#16 0#16)
  | .vbxdot h rm bx d a b c => some (rawA h 0x7 0x3 (vSpec d) (vSpec a) (vSpec b) ((optGSpec c)) (putAt 16 0 (rmBits rm) ||| putAt 16 8 (bxBits bx)) 0#16 0#16)
  | .ld h sz nc x d m => some (rawA h 0x8 0x0 (gSpec d) (gSpec m.a) (gSpec m.b) (putAt 8 6 (modeBits m.am) ||| putAt 8 4 m.sc ||| putAt 8 0 (ldszBits sz)) (putAt 16 1 (BitVec.ofBool nc)) x m.disp)
  | .st h sz bset d m => some (rawA h 0x8 0x1 (gSpec d) (gSpec m.a) (gSpec m.b) (putAt 8 6 (modeBits m.am) ||| putAt 8 4 m.sc ||| putAt 8 0 (stszBits sz)) (putAt 16 0 (BitVec.ofBool bset)) 0#16 m.disp)
  | .vld h nc x d m => some (rawA h 0x8 0x2 (vSpec d) (gSpec m.a) (gSpec m.b) (putAt 8 6 (modeBits m.am) ||| putAt 8 4 m.sc ||| putAt 8 0 8#4) (putAt 16 1 (BitVec.ofBool nc)) x m.disp)
  | .vst h bset d m => some (rawA h 0x8 0x3 (vSpec d) (gSpec m.a) (gSpec m.b) (putAt 8 6 (modeBits m.am) ||| putAt 8 4 m.sc ||| putAt 8 0 8#4) (putAt 16 0 (BitVec.ofBool bset)) 0#16 m.disp)
  | .lds h d m => some (rawA h 0x8 0x4 (gSpec d) (gSpec m.a) (gSpec m.b) (putAt 8 6 (modeBits m.am) ||| putAt 8 4 m.sc ||| putAt 8 0 3#4) (0#16) 0#16 m.disp)
  | .sts h d m => some (rawA h 0x8 0x5 (gSpec d) (gSpec m.a) (gSpec m.b) (putAt 8 6 (modeBits m.am) ||| putAt 8 4 m.sc ||| putAt 8 0 3#4) (0#16) 0#16 m.disp)
  | .ldf h d m => some (rawA h 0x8 0x6 (gSpec d) (gSpec m.a) (gSpec m.b) (putAt 8 6 (modeBits m.am) ||| putAt 8 4 m.sc ||| putAt 8 0 3#4) (0#16) 0#16 m.disp)
  | .feset h m => some (rawA h 0x8 0x7 0#8 (gSpec m.a) (gSpec m.b) (putAt 8 6 (modeBits m.am) ||| putAt 8 4 m.sc ||| putAt 8 0 3#4) (0#16) 0#16 m.disp)
  | .feclr h m => some (rawA h 0x8 0x8 0#8 (gSpec m.a) (gSpec m.b) (putAt 8 6 (modeBits m.am) ||| putAt 8 4 m.sc ||| putAt 8 0 3#4) (0#16) 0#16 m.disp)
  | .ldacq h sz d m => some (rawA h 0x8 0x9 (gSpec d) (gSpec m.a) (gSpec m.b) (putAt 8 6 (modeBits m.am) ||| putAt 8 4 m.sc ||| putAt 8 0 (ldszBits sz)) (0#16) 0#16 m.disp)
  | .strel h sz d m => some (rawA h 0x8 0xa (gSpec d) (gSpec m.a) (gSpec m.b) (putAt 8 6 (modeBits m.am) ||| putAt 8 4 m.sc ||| putAt 8 0 (stszBits sz)) (0#16) 0#16 m.disp)
  | .atom h wd op am d a b disp => some (rawA h 0x8 0xb (gSpec d) (gSpec a) (gSpec b) (putAt 8 6 (modeBits am) ||| putAt 8 0 (wdszBits wd)) (putAt 16 4 (atomBits op)) 0#16 disp)
  | .pref h d m => some (rawA h 0x8 0xc (gSpec d) (gSpec m.a) (gSpec m.b) (putAt 8 6 (modeBits m.am) ||| putAt 8 4 m.sc ||| putAt 8 0 0#4) (0#16) 0#16 m.disp)
  | .vldx h cm d a b sc disp => some (rawA h 0x8 0xd (vSpec d) (gSpec a) (vSpec b) (putAt 8 6 (lcBits cm) ||| putAt 8 4 sc ||| putAt 8 0 2#4) (0#16) 0#16 disp)
  | .vstx h cm d a b sc disp => some (rawA h 0x8 0xe (vSpec d) (gSpec a) (vSpec b) (putAt 8 6 (lcBits cm) ||| putAt 8 4 sc ||| putAt 8 0 2#4) (0#16) 0#16 disp)
  | .cld h tid d a b disp => some (rawA h 0x9 0x0 (gSpec d) (gSpec a) (gSpec b) (0#8) (putAt 16 0 tid) 0#16 disp)
  | .cst h tid d a b disp => some (rawA h 0x9 0x1 (gSpec d) (gSpec a) (gSpec b) (0#8) (putAt 16 0 tid) 0#16 disp)
  | .cvld h tid d a b disp => some (rawA h 0x9 0x2 (vSpec d) (gSpec a) (gSpec b) (0#8) (putAt 16 0 tid) 0#16 disp)
  | .cvst h tid d a b disp => some (rawA h 0x9 0x3 (vSpec d) (gSpec a) (gSpec b) (0#8) (putAt 16 0 tid) 0#16 disp)
  | .cprobe h tid d a => some (rawA h 0x9 0x4 (gSpec d) (gSpec a) 0#8 (0#8) (putAt 16 0 tid) 0#16 0#16)
  | .cclr h tid a => some (rawA h 0x9 0x5 0#8 (gSpec a) 0#8 (0#8) (putAt 16 0 tid) 0#16 0#16)
  | .ctileFind h tid d a => some (rawE h 9 6 (gSpec d) (gSpec a) 0 0 (putAt 16 0 tid) 0)
  | .ctileDetach h tid d a => some (rawE h 9 6 (gSpec d) (gSpec a) 0 0 (putAt 16 0 tid) 1)
  | .ctilePtile h tid a => some (rawE h 9 6 0 (gSpec a) 0 0 (putAt 16 0 tid) 2)
  | .ctilePnode h tid a => some (rawE h 9 6 0 (gSpec a) 0 0 (putAt 16 0 tid) 3)
  | .clbinv h tid => some (rawA h 0x9 0x7 0#8 0#8 0#8 (0#8) (putAt 16 0 tid) 0#16 0#16)
  | .cpy h dk sk d a b c => some (rawE h 0xa 0x0 (hSpec d) (gSpec a) (gSpec b) (gSpec c) (0#16) (putAt 32 0 (ckindBits dk) ||| putAt 32 4 (ckindBits sk)))
  | .cpyw h a b => some (rawE h 0xa 0x1 0#8 (hSpec a) (gSpec b) 0#8 (0#16) (0#32))
  | .cpyt h d a b => some (rawE h 0xa 0x2 (gSpec d) (hSpec a) (gSpec b) 0#8 (0#16) (0#32))
  | .deal h die d a b c total => some (rawE h 0xa 0x3 (kSpec d) (gSpec a) (gSpec b) (gSpec c) (putAt 16 8 (BitVec.ofBool die)) (putAt 32 0 total))
  | .sarm h wr n2 n1 n0 tid d b c => some (rawE h 0xa 0x4 (vSpec d) 0#8 (gSpec b) (gSpec c) (putAt 16 0 tid) (putAt 32 31 (BitVec.ofBool wr) ||| putAt 32 20 n2 ||| putAt 32 10 n1 ||| putAt 32 0 n0))
  | .sdrop h a => some (rawE h 0xa 0x5 0#8 (vSpec a) 0#8 0#8 (0#16) (0#32))
  | .cbset h d a b => some (rawE h 0xa 0x6 (cbSpec d) (gSpec a) (gSpec b) 0#8 (0#16) (0#32))
  | .cbrsv h d a => some (rawE h 0xa 0x7 (gSpec d) (cbSpec a) 0#8 0#8 (0#16) (0#32))
  | .cbcmt h a => some (rawE h 0xa 0x8 0#8 (cbSpec a) 0#8 0#8 (0#16) (0#32))
  | .cbacq h d a => some (rawE h 0xa 0x9 (gSpec d) (cbSpec a) 0#8 0#8 (0#16) (0#32))
  | .cbrel h a => some (rawE h 0xa 0xa 0#8 (cbSpec a) 0#8 0#8 (0#16) (0#32))
  | .get h i64 pm lm tid d a b c => some (rawE h 0xa 0xb (kSpec d) (gSpec a) (gSpec b) (gSpec c) (putAt 16 0 tid) (putAt 32 0 (BitVec.ofBool i64) ||| putAt 32 1 (modeBits pm) ||| putAt 32 3 (modeBits lm)))
  | .put h i64 pm lm cmb tid d a b c => some (rawE h 0xa 0xc (kSpec d) (gSpec a) (gSpec b) (gSpec c) (putAt 16 0 tid) (putAt 32 0 (BitVec.ofBool i64) ||| putAt 32 1 (modeBits pm) ||| putAt 32 3 (modeBits lm) ||| putAt 32 5 cmb))
  | .gpwait h sub d a b => some (rawE h 0xa 0xd (gSpec d) (kSpec a) (gSpec b) 0#8 (0#16) (putAt 32 0 (BitVec.ofBool sub)))
  | .card h lvl a => some (rawE h 0xb 0x0 0#8 (vSpec a) 0#8 0#8 (putAt 16 8 (lvlBits lvl)) (0#32))
  | .cwait h d a => some (rawE h 0xb 0x1 (gSpec d) (gSpec a) 0#8 0#8 (0#16) (0#32))
  | .oclaim h d a => some (rawE h 0xb 0x2 (gSpec d) (gSpec a) 0#8 0#8 (0#16) (0#32))
  | .orel h a => some (rawE h 0xb 0x3 0#8 (gSpec a) 0#8 0#8 (0#16) (0#32))
  | .ofill h d a b => some (rawE h 0xb 0x4 (oSpec d) (vSpec a) (gSpec b) 0#8 (0#16) (0#32))
  | .aclr h d => some (rawE h 0xb 0x5 (aSpec d) 0#8 0#8 0#8 (0#16) (0#32))
  | .ast h am f act vr1 vc1 a b c => some (rawE h 0xb 0x6 0#8 (aSpec a) (gSpec b) (optGSpec c) (0#16) (putAt 32 0 (modeBits am) ||| putAt 32 2 (tfmtBits f) ||| putAt 32 6 act ||| putAt 32 16 vr1 ||| putAt 32 21 vc1))
  | .ald h am f d a => some (rawE h 0xb 0x7 (aSpec d) (gSpec a) 0#8 0#8 (0#16) (putAt 32 0 (modeBits am) ||| putAt 32 2 (tfmtBits f)))
  | .tdset h tid a => some (rawE h 0xb 0x8 0#8 (vSpec a) 0#8 0#8 (putAt 16 0 tid) (0#32))
  | .tdget h tid d => some (rawE h 0xb 0x9 (vSpec d) 0#8 0#8 0#8 (putAt 16 0 tid) (0#32))
  | .pget h (.g sz d) a b disp => some (rawA h 0xc 0 (gSpec d) (gSpec a) (gSpec b) (putAt 8 4 12#4 ||| putAt 8 0 (ldszBits sz)) 0 0 disp)
  | .pget h (.v d) a b disp => some (rawA h 0xc 0 (vSpec d) (gSpec a) (gSpec b) 0xc8 0 0 disp)
  | .pput h (.g sz d) a b disp => some (rawA h 0xc 1 (gSpec d) (gSpec a) (gSpec b) (putAt 8 4 12#4 ||| putAt 8 0 (stszBits sz)) 0 0 disp)
  | .pput h (.v d) a b disp => some (rawA h 0xc 1 (vSpec d) (gSpec a) (gSpec b) 0xc8 0 0 disp)
  | .patom h wd op d a b disp => some (rawA h 0xc 0x2 (gSpec d) (gSpec a) (gSpec b) (putAt 8 6 3#2 ||| putAt 8 0 (wdszBits wd)) (putAt 16 4 (atomBits op)) 0#16 disp)
  | .fbar h a b => some (rawE h 0xc 0x3 0#8 (gSpec a) (gSpec b) 0#8 (0#16) (0#32))
  | .trap h code => some (rawI h 0xd 0x0 0#8 0#8 (0#16) (putAt 48 0 code))
  | .eret h => some (rawA h 0xd 1 0 0 0 0 0 0 0)
  | .eretNext h => some (rawA h 0xd 1 0 0 0 0 1 0 0)
  | .csrr h d r => some (rawI h 0xd 0x2 (gSpec d) 0#8 (0#16) (putAt 48 0 (csrBits r)))
  | .csrw h r a => some (rawI h 0xd 0x3 0#8 (gSpec a) (0#16) (putAt 48 0 (csrBits r)))
  | .tlbinvPage h a b => some (rawA h 0xd 4 0 (gSpec a) (gSpec b) 0 0 0 0)
  | .tlbinvTenant h a b => some (rawA h 0xd 4 0 (gSpec a) (gSpec b) 0 1 0 0)
  | .tlbinvAll h a b => some (rawA h 0xd 4 0 (gSpec a) (gSpec b) 0 2 0 0)
  | .jnlrd h word d a => some (rawA h 0xd 0x5 (gSpec d) (gSpec a) 0#8 (0#8) (putAt 16 0 word) 0#16 0#16)
  | .jnlclr h a => some (rawA h 0xd 6 0 (gSpec a) 0 0 0 0 0)
  | .jnlclrResend h a => some (rawA h 0xd 6 0 (gSpec a) 0 0 1 0 0)
  | .ctxsv h a b => some (rawA h 0xd 0x7 0#8 (gSpec a) (gSpec b) (0#8) (0#16) 0#16 0#16)
  | .ctxld h a b => some (rawA h 0xd 0x8 0#8 (gSpec a) (gSpec b) (0#8) (0#16) 0#16 0#16)
  | .fencei h => some (rawA h 0xd 0x9 0#8 0#8 0#8 (0#8) (0#16) 0#16 0#16)
  | .launch h d a => some (rawE h 0xe 0x0 (gSpec d) (gSpec a) 0#8 0#8 (0#16) (0#32))
  | .glaunch h d a b => some (rawE h 0xe 0x1 (gSpec d) (gSpec a) (gSpec b) 0#8 (0#16) (0#32))
  | .gnodeGraph h d a => some (rawE h 0xe 2 (gSpec d) (gSpec a) 0 0 0 0)
  | .gnodeNode h d a b => some (rawE h 0xe 2 (gSpec d) (gSpec a) (gSpec b) 0 0 1)
  | .gnodeEdge h d a b => some (rawE h 0xe 2 (gSpec d) (gSpec a) (gSpec b) 0 0 2)
  | .gnodeDrop h d a => some (rawE h 0xe 2 (gSpec d) (gSpec a) 0 0 0 3)
  | .gdone h d a b => some (rawE h 0xe 0x3 (gSpec d) (gSpec a) (gSpec b) 0#8 (0#16) (0#32))
  | .grabTake h d a => some (rawE h 0xe 4 (gSpec d) (gSpec a) 0 0 0 0)
  | .grabSet h d a b => some (rawE h 0xe 4 (gSpec d) (gSpec a) (gSpec b) 0 0 1)
  | .qstatLaunch h d a => some (rawE h 0xe 5 (gSpec d) (gSpec a) 0 0 0 0)
  | .qstatQueue h d a => some (rawE h 0xe 5 (gSpec d) (gSpec a) 0 0 0 1)
  | .qstatRange h d a => some (rawE h 0xe 5 (gSpec d) (gSpec a) 0 0 0 2)
  | .qstatInst h d a => some (rawE h 0xe 5 (gSpec d) (gSpec a) 0 0 0 3)
  | .renter h id => some (rawI h 0xf 0x0 0#8 0#8 (0#16) (putAt 48 0 id))
  | .rleave h => some (rawA h 0xf 0x1 0#8 0#8 0#8 (0#8) (0#16) 0#16 0#16)
  | .trace h tag a => some (rawA h 0xf 0x2 0#8 (gSpec a) 0#8 (0#8) (putAt 16 0 tag) 0#16 0#16)
  | .brk h code scope => some (rawI h 0xf 0x3 0#8 0#8 (0#16) (putAt 48 0 code ||| putAt 48 16 scope))
  | .wpset h idx kind scope am a => some (rawA h 0xf 0x4 0#8 (gSpec a) 0#8 (0#8) (putAt 16 0 idx ||| putAt 16 3 kind ||| putAt 16 5 scope ||| putAt 16 7 (modeBits am)) 0#16 0#16)
  | .wpclr h idx am a => some (rawA h 0xf 0x5 0#8 (gSpec a) 0#8 (0#8) (putAt 16 0 idx ||| putAt 16 7 (modeBits am)) 0#16 0#16)
  | .cntrd h lat n d => some (rawI h 0xf 0x6 (gSpec d) 0#8 (putAt 16 0 (BitVec.ofBool lat)) (putAt 48 0 n))
  | .pairIssue _ _ => none
  | .fetchLine _ _ => none
  | .plankerReissue _ _ => none
  | .drain _ _ => none
  | .messageDeliver _ => none
  | .homeServe _ => none
  | .longResultLand _ _ _ => none
  | .storeAcknowledge _ => none
  | .dozeWake _ _ => none
  | .syncLimit _ _ => none
  | .syncCancelReturn _ => none
  | .contextReuseDelay _ _ => none
  | .strayMessageDiscard _ => none
  | .pageMappedRestore _ _ _ => none
  | .engineAccessRetry _ => none
  | .schedulerCommand _ => none
  | .launchStart => none
  | .threadStart _ => none
  | .priorityAging _ => none
  | .deficitCharge => none
  | .coreGate _ => none
  | .coreWake _ => none
  | .doneMessage _ _ => none
  | .completionCombine _ => none
  | .graphNodeComplete _ _ => none
  | .imageLoad _ _ => none
  | .instanceFill _ => none
  | .instanceSeal _ => none
  | .groupRequestArrive _ => none
  | .barrierArrival _ => none
  | .groupRelease _ => none
  | .experienceFillLand _ => none
  | .mergeReply _ => none
  | .engineKickAccept _ => none
  | .chunkComplete _ _ _ => none
  | .cbStageWrite _ _ => none
  | .dealComplete _ => none
  | .streamStripLoad _ _ _ => none
  | .fillNotice _ => none
  | .stageFreeNotice _ => none
  | .gatherComplete _ _ => none
  | .clbWalk _ => none
  | .cardAccept _ _ _ => none
  | .cardDecompose _ _ => none
  | .cardParityRefetch _ _ => none
  | .cardRun _ => none
  | .slotClaimGrant _ => none
  | .childReport _ => none
  | .cardRetire _ _ => none
  | .flitReplay _ _ => none
  | .fabricBarrierArrive _ _ => none
  | .fabricBarrierRelease _ => none
  | .fabricTimeout _ => none
  | .progressProbe _ _ _ => none
  | .replicaSetChange _ _ _ => none
  | .replicaInvalidateAck _ _ => none
  | .tlbInvalidate _ => none
  | .gangSwitch _ => none
  | .gangResume _ => none
  | .breakpointHit _ _ => none
  | .stopArrive _ => none
  | .preciseStopTimeout _ _ => none
  | .dcmdStop _ _ _ => none
  | .dcmdResume _ => none
  | .dcmdStepContext _ _ _ => none
  | .dcmdStepGroup _ _ _ => none
  | .engineStepLimit _ => none
  | .tickLatch => none
  | .ptpEventMessage _ => none
  | .clockRateAdjust _ => none
  | .clockStepForward _ => none
  | .keepaliveResponse _ => none
  | .machineCheck _ => none
  | .pairTimeout _ _ => none
  | .pairMismatch _ => none
  | .checkpointClose => none
  | .commitRecord => none
  | .rollback => none
  | .containment _ => none
  | .powerOn => none
  | .bootImageFetch _ => none
  | .bootVerify _ _ => none
  | .bootRetryWait => none
  | .redfishPower _ => none
  | .redfishBootState => none
  | .attestationRequest _ _ _ => none
  | .pcieHostAccess _ _ _ _ => none
  | .cxlPortDown _ => none
  | .plimitSet _ => none
  | .thermalReport _ _ => none
  | .controlRegisterWrite _ _ => none
  | .refusedWithRetryResend _ => none
  | .ethernetFrameReceive _ _ => none
  | .hartStartRequest _ => none
  | .machineCheckThreadEnd _ _ => none
  | .systemCoreAccess _ _ _ _ _ => none

/-- The word of an instruction; none for an event. -/
def encode (i : Instr) : Option Insn96 := (encodeRaw i).map Raw.toWord

/-- The instruction that the decoder reads from a word of nbits bits, the first word's bits lowest. -/
def decodeTableWord (nbits w : Nat) : Option Instr :=
  if nbits ≤ 96 then (decode (BitVec.ofNat 96 (w % 2 ^ nbits))).toOption else none

end Sys2Proof
end

