-- ==== Sys2Proof/Config.lean ====
section
/-! DEFINITION. Config.lean: the constants of the device, and the free values, which nothing in Lean can evaluate. -/
namespace Sys2Proof.Config

/-- Free choice of a number below n: which of the enabled steps comes next (R206, R207). Log entries 1 and 2. -/
opaque pick : Nat → Nat
/-- Free byte: what a memory access under another tenant's key reads (R366). Log entry 8. -/
opaque freeByte : Nat → Byte
/-- Free line: a value that the spec does not state. Log entries 1 and 20. -/
opaque freeLine : Nat → Line
/-- Free word: a value that the spec does not state. Log entry 1. -/
opaque freeWord : Nat → Word

/-- Fabric hops to another device (R342). Log entry 86. -/
opaque fabricHops : Nat → Nat

/-- The device identifier (R367, R442). Log entry 20. -/
opaque deviceId : BitVec 128

/-- The keys under which the security core enciphers a tenant's experience and authenticates it (R159). Log entry 20. -/
opaque tenantKey : BitVec 16 → BitVec 128
opaque tenantMacKey : BitVec 16 → BitVec 256

/-- Cores of the device (R12). -/
def cores : Nat := 8192
/-- Memory stops of the device (R23). -/
def stops : Nat := 64
/-- Bytes of a pool (R18). -/
def poolBytes : Nat := 65536
/-- Start of the system area of a pool (R18). -/
def sysArea : Nat := 0xF000
/-- Long results that a context may hold (R86). -/
def maxLong : Nat := 32
/-- Entries of the posted-store journal (R191, R357). -/
def journalSize : Nat := 64
/-- Store-buffer entries of a core (R205). -/
def sbEntries : Nat := 256
/-- Store-buffer entries that each context can always take (R205). -/
def sbOwn : Nat := 8
/-- Entries of a thread's spill area (R205). -/
def spillEntries : Nat := 2048
/-- Entries moved to the spill area at a time (R205). -/
def spillMove : Nat := 16
/-- Lines of a snapshot cache (R22). -/
def snapLines : Nat := 256
/-- Waiters of a pool port (R196). -/
def portWaiters : Nat := 32
/-- Records of a violation log (R361). -/
def vlogSize : Nat := 16
/-- Save records of a core (R363). -/
def saveRecords : Nat := 64
/-- Device clock units per nominal nanosecond: 2^40 fractions of 9, so that a core cycle of 4/9 ns is whole
(R396, R412). -/
def clkPerNs : Nat := 9 * 2 ^ 40

end Sys2Proof.Config
end

