-- ==== Sys2Proof/Machine/State.lean ====
section
/-! DEFINITION. State.lean: everything the machine holds, as plain data, and the state right after reset. -/
namespace Sys2Proof.Machine

/-- A sparse table: pairs in rising order of key, at most one for each key. -/
abbrev Tab (α : Type) := List (Nat × α)

/-! ### Identities and requests -/

/-- The identity that a thread-directed message carries (R362). -/
structure Who where
  core : Nat
  ctx  : Nat
  inc  : BitVec 16
deriving DecidableEq, Repr

/-- Which kind of unit makes an access (AGENT of R361). -/
inductive Agent
  | thread (w : Who)
  | copy (core : Nat)
  | seqr (core : Nat)
  | cluster (n : Nat)
  | die (n : Nat)
  | package
  | fabric
  | peer (n : Nat)
  | sys (hart : Nat)
  | host
deriving DecidableEq, Repr

/-- What a home knows of a requester: the agent, its tenant and launch, its mode (R358), the launch of the
thread's region ids, top first (R400). -/
structure Asker where
  agent   : Agent
  tenant  : BitVec 16
  launch  : BitVec 32
  sup     : Bool
  regions : Word
deriving DecidableEq, Repr

/-- Where an access is performed (R181): a pool port, checked against the windows or not (R184), with the address as presented (R361); a memory stop; a peer of
a fabric group (R337); or a unit with no memory of its own. -/
inductive Place
  | pool (core off : Nat) (win : Bool) (ea : Word)
  | glob (va : Word)
  | peer (group rank : Nat) (va : Word)
  | unit
deriving DecidableEq, Repr

/-- An entry of a store buffer (R205): the line address as issued, its mode, the bytes, the PC of the youngest store. -/
structure SbEnt where
  am    : Mode
  line  : Word
  mask  : BitVec 64
  data  : Line
  bset  : Bool
  pc    : Word
  spill : Bool
  /-- a PPUT names a peer: fabric group and rank (R337) -/
  peer  : Option (Nat × Nat)
deriving DecidableEq, Repr

/-- Why a remote access failed: KIND of R352, or a page absent (R354), and the address. -/
structure RFault where
  kind   : BitVec 8
  absent : Bool
  addr   : Word
deriving DecidableEq, Repr

/-- A pattern of a stream register (R275 to R278). -/
structure Stream where
  wr    : Bool
  /-- the copy unit has accepted the SARM and read its entry (R291) -/
  ready : Bool
  tid   : BitVec 8
  start : Word
  p1    : BitVec 32
  p2    : BitVec 32
  n0    : Nat
  n1    : Nat
  n2    : Nat
  mode  : Mode
  base  : Word
  /-- next strip the thread pops or pushes, strips loaded from there on, each with the record of a refused one -/
  next   : Nat
  ahead  : List (Line × Option RFault)
  last   : Line
  /-- pushed strips that have not left the copy unit's buffer: strip number, bytes, mask -/
  out    : List (Nat × Line × BitVec 64)
  fault  : Option RFault
deriving DecidableEq, Repr

/-- An operation that a kick carries to its engine (R219). -/
inductive KOp
  | card (lvl : Lvl) (card : Line)
  | cpy (dk sk : CKind) (h : HReg) (a b : Word) (n : Nat)
  | deal (die : Bool) (k : KReg) (a b c : Word) (total : Nat)
  | sarm (v : VReg)
  | sdrop (v : VReg) (st : Stream)
  | gather (put i64 : Bool) (pm lm : Mode) (cmb : BitVec 2) (tid : BitVec 8) (k : KReg) (a b : Word) (n : Nat)
  | launch (desc : Word)
  | glaunch (graph mbox : Word)
  | gnodeNode (graph desc : Word)
  | gdone (inst node : Word)
deriving DecidableEq, Repr

/-- What a home is asked to do. -/
inductive ROp
  /-- read n bytes; with line, the whole 64-byte line comes back for the snapshot cache (R193) -/
  | load (n : Nat) (line : Bool)
  /-- write the masked bytes of a 64-byte line; with bset, retag its granules (R195); held in journal entry j -/
  | store (data : Line) (mask : BitVec 64) (bset : Bool) (j : Nat)
  /-- read-modify-write (R198) -/
  | atom (op : AtomOp) (wd : Wd) (b cmp : Word)
  | lds
  | sts (x : Word)
  | ldf
  | feset
  | feclr
  /-- CHKPTR (R132) -/
  | probe
  /-- a line for the snapshot cache (R199) -/
  | pref
  /-- wait for DONE (R323) -/
  | cwait
  | wpset (idx kind scope : Nat)
  | wpclr (idx : Nat)
  /-- merge of an experience contribution (R149): the merge's number on the core, the counts, and the entry's own word 1 -/
  | merge (core launch slot id : Nat) (n c0 c1 c2 c3 : Nat) (view : Word)
  /-- fetch of an experience slot, as the fill of an entry, for a reading instruction, or both (R144, R152) -/
  | xread (core launch slot : Nat) (fill : Option Nat) (answer : Bool)
  /-- GINFO at the group's slice (R115) -/
  | ginfo (handle : BitVec 32) (rank : Bool)
  /-- requests to the scheduler (R389) -/
  | gnodeGraph (flags : Word)
  | gnodeEdge (a b : Word)
  | gnodeDrop (a : Word)
  | grabTake (a : Word)
  | grabSet (a b : Word)
  | qstat (what : Nat) (a : Word)
  /-- a kick (R219) -/
  | kick (k : KOp)
  /-- CTXSV sent again after a refused frame access (R374) -/
  | ctxsv (frame : Word) (ctx : Nat)
  /-- a request to a CLB walker (R253, R254): 0 read, 1 allocate for a store, 2 probe, 3 find, 4 detach, 5 push a tile, 6 push
  a node, 7 clear, 8 whether the tile exists; channel, elements read, the stores that the thread held in its buffer at issue (R192); whether
an invalidation has poisoned the walk, which then fills nothing (R261) -/
  | walk (what : Nat) (tid : BitVec 8) (entry : Line) (coord : Word) (ch : Int) (n : Nat) (sb : List SbEnt) (dead : Bool)
deriving DecidableEq, Repr

/-- A request in the channels or at a home (R203). Its tag names the long result or the park that it answers. -/
structure Req where
  who   : Asker
  place : Place
  op    : ROp
  tag   : Nat
  /-- a lane of VLDX: where its four bytes go in the register (R200) -/
  lane  : Option Nat
deriving DecidableEq, Repr

/-- The answer to a request. The data lies at its own place in the 64-byte line that holds it. -/
structure Reply where
  dst   : Who
  tag   : Nat
  data  : Line
  flags : BitVec 6
  fault : Option RFault
  lane  : Option Nat
deriving DecidableEq, Repr

/-- Where a long result goes (R82). For g: the size and the byte at which the value starts in the line. For v: the bytes
that the performed lanes write. -/
inductive Dest
  | none
  | g (r : GReg) (sz : LdSz) (off : Nat)
  | p (r : PReg)
  | v (r : VReg) (mask : BitVec 64)
deriving DecidableEq, Repr

/-- How a reply becomes a value: as it stands; from the two words of an experience slot (R155). -/
inductive Shape
  | plain
  | xsel
  | xunr
  | xpfd (cap : Word)
deriving DecidableEq, Repr

/-- A long result outstanding (R83, R86), with what a replay needs (R352). -/
structure Pend where
  tag   : Nat
  dest  : Dest
  reqs  : List Req
  /-- core cycle of the issue (R141) -/
  since : Nat
  /-- PC of the issue, for the experience report (R143) -/
  pc    : Word
  /-- experience slot that the latency is reported to; 0xFFFF none (R142) -/
  xs    : BitVec 16
  /-- the line is to be placed in the snapshot cache (R193, R209) -/
  fill  : Bool
  /-- the landing empties the snapshot cache (R197) -/
  acq   : Bool
  /-- bytes forwarded from the thread's own buffer (R192) -/
  fwd   : Line
  fmask : BitVec 64
  /-- replies still to come, and the lanes that have come (R200) -/
  left  : Nat
  got   : Line
  shape : Shape
  /-- flags that land with the value (R64), and that everything has come: the value is written when the next turn begins (R83) -/
  flags : BitVec 6
  landed : Bool
deriving DecidableEq, Repr

/-- A record of the replay list (R352): the long result, and why its request failed. -/
structure Replay where
  tag   : Nat
  fault : RFault
  /-- not yet taken as a trap -/
  due   : Bool
deriving DecidableEq, Repr

/-! ### A context -/

/-- Registers that a pair reads as they stood before it (R34). -/
structure Regs where
  g       : Vector Word 64
  v       : Vector Line 32
  p       : Vector Pred 8
  fflags  : BitVec 6
  frm     : BitVec 2
  bxdelta : BitVec 4
  synclim : BitVec 32
  trapvec : Word
deriving DecidableEq, Repr

/-- A place that buffered stores are matched against (R210): bytes of a pool, of a tenant's addresses, or of a tenant's addresses
at a peer (R338). -/
inductive Span
  | pool (core off n : Nat)
  | glob (va n : Nat)
  | peer (group rank va n : Nat)
deriving DecidableEq, Repr

/-- A planker capture (R175): n, stagger s, reissues k, the captured instructions, the next reissue. -/
structure Capture where
  n    : Nat
  s    : Nat
  k    : Nat
  code : List Instr
  next : Nat
deriving DecidableEq, Repr

/-- State of a group handle in a thread's table (R97, R112). -/
inductive HState | joining | member | leaving
deriving DecidableEq, Repr

/-- An entry of a thread's handle table (R93): the rank is kept by the slice. `arrived` is the barrier that the thread has
arrived at and that has not released it; `waitFor` is the barrier recorded by GARRIVE (R113). -/
structure HEnt where
  handle  : BitVec 32
  st      : HState
  tag     : Nat
  arrived : Bool
  waitFor : Option Bool
deriving DecidableEq, Repr

/-- What a parked context waits for (R78). -/
inductive PCond
  /-- every long result has landed (R85) -/
  | noLong
  /-- room for n more long results among 32 (R86) -/
  | longRoom (n : Nat)
  /-- the thread's capture has no reissues left (R177, R178) -/
  | captured
  /-- the position's capture is free (R175) -/
  | capFree (pos : Nat)
  /-- every buffered store has left and been acknowledged (R214) -/
  | drained
  /-- the same, and every earlier kick has been acknowledged (R313) -/
  | kicked
  /-- the buffered stores that overlap have left and been acknowledged (R191, R196) -/
  | clearOf (spans : List Span)
  /-- the reply with this tag (R196) -/
  | reply (tag : Nat)
  /-- a free journal entry for the thread's own store (R191) -/
  | journal
  | idle (h : HReg)
  | mask (h : HReg) (m : Word)
  | counter (k : KReg) (target : BitVec 32)
  | cbFree (cb : CbReg)
  | cbFilled (cb : CbReg)
  | claim (id : Nat)
  /-- no card names the slot (R325) -/
  | unnamed (slot : OReg)
  /-- the next strip of a read stream has landed (R276) -/
  | strip (v : VReg)
  /-- the save record of an old identity is gone (R374) -/
  | record (ctx : Nat) (inc : BitVec 16)
  /-- fewer than 64 save records (R363) -/
  | saveRoom
  /-- the release of the barrier of a handle (R113) -/
  | barrier (handle : BitVec 32)
  /-- the pending JOIN or LEAVE of a handle (R97) -/
  | handle (handle : BitVec 32)
deriving DecidableEq, Repr

/-- What a parked context does when its condition is met: the rest of its instruction, with the operands it read at issue. -/
inductive Cont
  /-- issue the instruction from its start -/
  | again
  /-- nothing more: go on with the next instruction -/
  | finish
  /-- send a request whose reply is a long result (R198) -/
  | send (p : Pend)
  /-- send a synchronising request and park for its reply (R196) -/
  | sync (d : Dest) (r : Req) (limited : Bool)
  /-- the reply of a parked access goes to its destination; with acq, the snapshot cache is emptied (R222) -/
  | got (d : Dest) (acq : Bool)
  /-- .l stores (R191) -/
  | pool (l : List (Nat × Line × BitVec 64))
  /-- the store of STREL or TDSET, once the drain is done (R214) -/
  | release (e : SbEnt) (dropTid : Option (BitVec 8))
  /-- PHASE after its drain, and after its release (R101) -/
  | phaseArrive (handle : BitVec 32)
  | phaseDone (handle : BitVec 32)
  | fbarArrive (group count : Nat)
  | fbarDone
  /-- a kick, with the bitmap that the handle of a copy held before (R226, R269) -/
  | kick (d : Dest) (k : KOp) (bits : Word)
  | sarm (v : VReg) (st : Stream)
  /-- CPY once its handle is idle (R269) -/
  | cpy (dk sk : CKind) (h : HReg) (a b : Word) (n : Nat)
  | cpyw (h : HReg)
  | gpwait (sub : Bool) (d : GReg) (k : KReg) (target : BitVec 32)
  | cbrsv (d : GReg) (cb : CbReg)
  | cbcmt (cb : CbReg)
  | cbacq (d : GReg) (cb : CbReg)
  | oclaim (d : GReg) (id : Nat)
  | ofill (slot : OReg) (data : Line) (u : Nat)
  | ast (am : Mode) (f : TFmt) (act : BitVec 2) (vr1 vc1 : BitVec 5) (a : AReg) (dst : Word) (bias : Option Word)
  | ald (am : Mode) (f : TFmt) (d : AReg) (src : Word)
  /-- CST and CVST when the tile is known and its OCC bit set (R258): channel values by element -/
  | cst (entry : Line) (coord : Word) (ch : Int) (data : Line) (n : Nat)
  /-- CCLR once the walker has found whether the tile exists: the request that clears (R259) -/
  | cclr (r : Req)
  | tlbinv (scope : Nat) (va : Word) (tenant : BitVec 16)
  | fencei
  | ctxsv (frame : Word) (ctx : Nat)
  | rep (n s k : Nat)
deriving DecidableEq, Repr

/-- The kind of a park (R78, R412): at a marker, on a synchronising access, on a group. -/
inductive PKind | marker | sync | group
deriving DecidableEq, Repr

/-- State of a context (R78), halted and saved apart: halted is a flag of its own, a saved thread is no longer a context. -/
inductive Run
  | free
  | ready
  | parked (kind : PKind) (cond : PCond) (k : Cont) (limited : Bool)
  | dozing (until' : Nat)
  /-- stopped by a machine check: issues nothing more (R425) -/
  | stopped
deriving DecidableEq, Repr

/-- What the drain step may move for a thread (R208). -/
inductive Want
  | nothing
  | all
  | overlap (spans : List Span)
deriving DecidableEq, Repr

/-- A thread's state, with the context it runs on. -/
structure Ctx where
  run    : Run
  halted : Bool
  /-- halted at a region edge (R406) -/
  edge   : Bool
  /-- a precise stop waits for the next region edge: turns waited (R406) -/
  edgeWait : Option Nat
  /-- the condition of the park held when the turn began (R78) -/
  due    : Bool
  /-- a step of the debugger lets the context issue once (R407) -/
  stepping : Bool
  /-- turns until a freed context takes a thread (R91) -/
  reuse  : Nat
  inc    : BitVec 16
  tid    : BitVec 32
  nthr   : BitVec 32
  launch : BitVec 32
  tenant : BitVec 16
  sup    : Bool
  part   : Word
  /-- start instant (R81) -/
  start  : Nat
  pc     : Word
  npc    : Word
  /-- the next issue enters its instruction other than by falling through: launch entry or handler entry (R32) -/
  entry  : Bool
  /-- 0 alone, 1 first of a pair, 2 second of a pair: which instruction is being performed (R34) -/
  half   : Nat
  /-- which half of the pair at pc has parked the thread, 0 none: for the trap that its access may take (R34, R350) -/
  pairOf : Nat
  /-- registers as they stood before the pair (R34) -/
  view   : Option Regs
  regs   : Regs
  hnd    : Bool
  trapcause : BitVec 8
  trappc    : Word
  trapaddr  : Word
  trapinfo  : Word
  /-- region ids, top first, and the overflow count (R398) -/
  regions : List (BitVec 16)
  ovf     : BitVec 16
  handles : List HEnt
  pend    : List Pend
  landing : List Reply
  replay  : List Replay
  /-- the reply that a parked access waits for -/
  answer  : Option Reply
  sb      : List SbEnt
  want    : Want
  /-- streams as they stood before the instruction that waits in a drain (R226, R276) -/
  popped  : Tab Stream
  streams : Tab Stream
  /-- records of strips refused in the final drain of a SDROP, by register (R290) -/
  dropRec : Tab RFault
  cap     : Option Capture
  /-- turns ready without issuing (R81), turns parked on a limited access (R104) -/
  readyTurns : Nat
  syncTurns  : Nat
  /-- a cancel is on its way to the port (R196) -/
  cancelling : Bool
  /-- effective address of the latest synchronising access (R351) -/
  syncEa     : Word
  /-- breakpoints that do not match at the next issue of an instruction: their numbers and its PC (R401) -/
  bpPass  : List (Nat × Word)
  /-- instructions issued since the hit instant of a stop on its way (R405) -/
  skid    : Nat
  /-- the skid register: recorded skid and whether at an edge (R405, R410) -/
  skidReg : Option (Nat × Bool)
  nextTag : Nat
  /-- saved on a page fault (R354, R363) -/
  pageFault : Bool
deriving DecidableEq, Repr

/-! ### A core -/

/-- State of a journal entry (R357). -/
inductive JState | free | inFlight | refused
deriving DecidableEq, Repr

/-- A posted-store journal entry (R191, R357). -/
structure JEnt where
  st     : JState
  am     : Mode
  line   : Word
  mask   : BitVec 64
  pc     : Word
  kind   : BitVec 8
  bset   : Bool
  ctx    : Nat
  inc    : BitVec 16
  data   : Line
  /-- the refusal has been taken as a trap (R356) -/
  taken  : Bool
  /-- a drain has met the refusal inside a handler (R226, R356) -/
  met    : Bool
  /-- order in which the entries left their buffers (R356) -/
  seq    : Nat
  /-- the long result that the acknowledgement lands (R197) -/
  tag    : Option Nat
  peer   : Option (Nat × Nat)
  launch : BitVec 32
deriving DecidableEq, Repr

/-- A copy handle (R266): bitmap, BUSY, fault record. -/
structure Handle where
  bits  : Word
  busy  : Bool
  fault : Option RFault
deriving DecidableEq, Repr

/-- A completion counter (R266). -/
structure Counter where
  n     : BitVec 32
  fault : Option RFault
deriving DecidableEq, Repr

/-- A circular buffer (R280 to R283). -/
structure CBuf where
  set    : Bool
  core   : Nat
  base   : Nat
  pcb    : Nat
  pcore  : Nat
  role   : Nat
  count  : Nat
  size   : Nat
  free   : Nat
  filled : Nat
  pidx   : Nat
  cidx   : Nat
  reserved : Nat
  acquired : Nat
  /-- the partner's rectangle is contained (R283) -/
  lost   : Bool
deriving DecidableEq, Repr

/-- Who holds an operand slot (R303), and whether a release waits for a card to retire. -/
inductive Holder | free | ctx (w : Who) | seqr
deriving DecidableEq, Repr
structure SlotHold where
  by'     : Holder
  pending : Bool
deriving DecidableEq, Repr

/-- A claim for slots (R324): a context's, or the sequencer's for a card. -/
structure Claim where
  id   : Nat
  who  : Option Who
  n    : Nat
  card : Nat
  granted : Option (BitVec 32)
deriving DecidableEq, Repr

/-- A line of the snapshot cache (R193). -/
structure SnapLine where
  tenant : BitVec 16
  line   : Nat
  data   : Line
deriving DecidableEq, Repr

/-- A report to an experience slot (R142). -/
inductive XRep
  | outcome (o : Bool)
  | latency (c : Nat)
  | trip (t : Nat)
deriving DecidableEq, Repr

/-- A report that waits for the fill: from which PC, and the kind its owner requires; none for XNOTE (R143, R144). -/
structure XHeld where
  rep  : XRep
  pc   : Word
  kind : Option Nat
deriving DecidableEq, Repr

/-- What a core has reported since its last merge (R149): reports, counts by kind. -/
structure XContrib where
  n : Nat
  c0 : Nat
  c1 : Nat
  c2 : Nat
  c3 : Nat
deriving DecidableEq, Repr

/-- An entry of the experience cache (R144). -/
structure XEnt where
  /-- number of the entry on its core, which its fill names -/
  id     : Nat
  launch : Nat
  slot   : Nat
  w0     : Word
  view   : Option Word
  contrib : XContrib
  held   : List XHeld
  /-- merges on their way: the number of each and the reports made since it was sent (R148) -/
  merging : List (Nat × List XRep)
  /-- given up before its fill has come: it is merged when the fill lands, for the XFLUSH that waits -/
  gone   : Bool
  ask    : Option (Asker × Nat)
deriving DecidableEq, Repr

/-- A tile pointer that the CLB holds (R253). -/
structure ClbEnt where
  launch : Nat
  tid    : BitVec 8
  tile   : Int × Int × Int
  ptr    : Word
deriving DecidableEq, Repr

/-- A copy of a VOL entry (R247). -/
structure VolCopy where
  launch : Nat
  tid    : BitVec 8
  entry  : Line
deriving DecidableEq, Repr

/-- A watchpoint (R402): the word, kind bits, scope, the tenant that set it. -/
structure Watch where
  word   : Nat
  kind   : Nat
  scope  : Nat
  tenant : BitVec 16
deriving DecidableEq, Repr

/-- A record of a violation log (R361). -/
structure VRec where
  addr   : Word
  mband  : BitVec 6
  kind   : BitVec 8
  who    : Asker
  time   : Nat
deriving DecidableEq, Repr

/-- A launch with threads or stores on a core (R28, R92, R186). -/
structure Resident where
  launch : BitVec 32
  live   : Nat
  status : BitVec 32
  /-- stores of exited threads not yet sent (R102): owner and entries -/
  left   : List (Who × SbEnt)
  done   : Bool
deriving DecidableEq, Repr

/-- A save record (R363): the old identity, the address of its frame, and the thread that wrote it, through whose translation
the frame is written. -/
structure SaveRec where
  who    : Who
  frame  : Word
  writer : Asker
deriving DecidableEq, Repr

/-- An operation in the copy unit (R269, R274, R285). -/
structure COp where
  id    : Nat
  who   : Asker
  core  : Nat
  op    : KOp
  entry : Line
  done  : Word
  fault : Option RFault
  stages : Nat
deriving DecidableEq, Repr

/-- An entry of an engine hart's store buffer (R203, R205): who stores, where, the bytes. -/
structure EEnt where
  who  : Asker
  pl   : Place
  data : Line
  mask : BitVec 64
deriving DecidableEq, Repr

/-- The store buffer of an engine hart (R17, R203, R205) while it holds the stores of a step of an operation: the step, by its
tag, what has not left yet, the first final fault, and what the step has to report once all is acknowledged (R221). -/
structure EBuf where
  own   : Agent
  tag   : Nat
  lane  : Option Nat
  ents  : List EEnt
  fault : Option RFault
  note  : List Nat
deriving DecidableEq, Repr

/-- A pool port's waiting request (R196). -/
abbrev Waiter := Req

/-- Power state of a core (R383, R448): gated, waking until an instant, awake. -/
inductive Power | gated | waking (until' : Nat) | awake
deriving DecidableEq, Repr

/-- A core (R15 to R22). -/
structure Core where
  ctxs    : Tab Ctx
  /-- alignment of the core's cycle count against the device's (R15) -/
  phase   : Nat
  power   : Power
  idleSince : Nat
  pool    : List Host.Cell
  /-- pool words whose full-empty bit is empty (R20) -/
  empties : List Nat
  /-- poisoned pool words (R436) -/
  ppoison : List Nat
  part    : Option Word
  tenant  : BitVec 16
  residents : List Resident
  /-- issue policy: GTO, or RR (R79) -/
  policy  : Bool
  /-- the latest reading of the core's own copy of the nanosecond counter (R396) -/
  clock   : Nat
  /-- threads that ended within the last 1 ms: instant and lifetime, in ns (R383) -/
  lived   : List (Nat × Nat)
  /-- core registers written in this turn, which take effect at the next (R79, R371) -/
  csrs    : List (Csr × Word)
  stray   : BitVec 32
  fpar    : BitVec 32
  xmis    : BitVec 32
  wins    : Tab Word
  jnl     : Tab JEnt
  jseq    : Nat
  handles : Tab Handle
  counters : Tab Counter
  cbs     : Tab CBuf
  slots   : Tab SlotHold
  /-- operand memory: byte at slot * 2048 + offset (R21) -/
  opmem   : List Host.Cell
  /-- poisoned 64-byte units of operand memory (R436) -/
  opoison : List Nat
  claims  : List Claim
  nextClaim : Nat
  snap    : List SnapLine
  /-- prefetches on their way (R199): context, tag, line -/
  prefs   : List (Nat × Nat × Nat)
  lines   : Tab Line
  xcache  : List XEnt
  /-- entries and merges numbered so far -/
  xnext   : Nat
  clb     : List ClbEnt
  vols    : List VolCopy
  waiters : List Waiter
  wps     : Tab Watch
  vlog    : List VRec
  vover   : BitVec 32
  dctl    : BitVec 4
  dedge   : BitVec 32
  pcbp    : Tab Word
  held    : Bool
  cnt     : Tab Word
  cntLat  : Tab Word
  /-- position: slot that issued last, whether its issue was YIELD (R80, R81) -/
  last    : Tab (Nat × Bool)
  /-- position: which context holds the planker capture (R175) -/
  capHold : Tab Nat
  seqs    : Tab Nat
  copies  : List COp
  saves   : List SaveRec
  /-- threads saved on a page fault (R354): old context number, the context, the addresses that it needs and the answers for
  their pages -/
  paged   : List (Nat × Ctx × List (Nat × Option Bool))
  /-- threads saved by CTXSV, by old context number and incarnation: what a frame holds in a layout of the core's own (R363) -/
  frames  : Tab Ctx
  /-- gang switch: the core does not issue (R364) -/
  stopped : Bool
  /-- lasting fault or containment: the core is dead until the device resets (R435) -/
  dead    : Bool
deriving DecidableEq, Repr

/-! ### Messages -/

/-- A message in the channels (R203). -/
inductive Body
  | req (r : Req)
  | reply (r : Reply)
  /-- acknowledgement of a store: journal of a core, entry, refusal kind -/
  | storeAck (core j : Nat) (fault : Option RFault)
  /-- JOIN or LEAVE to the slice (R112); an ending thread's LEAVE has no result -/
  | group (who : Who) (launch handle : BitVec 32) (join : Bool) (tag : Option Nat)
  /-- arrival at a barrier; `leave` for an ending thread of handle 0 (R95, R96) -/
  | arrive (who : Who) (launch handle : BitVec 32) (leave : Bool)
  | release (who : Who) (handle : BitVec 32)
  /-- fill of an experience entry: words 0 and 1, or refused -/
  | xfill (core launch slot id : Nat) (w : Option (Word × Word))
  /-- answer to a merge: its number, the slot's word 1, or refused; the reports that it held; the XFLUSH that waits for it -/
  | mergeReply (core launch slot id : Nat) (w1 : Option Word) (n : Nat) (to' : Option (Who × Nat))
  | fill (core cb : Nat)
  | stageFree (core cb : Nat)
  | cancel (core : Nat) (who : Who) (tag : Nat)
  | cancelBack (who : Who) (tag : Nat)
  /-- status of a launch from an occupied core to its parent (R28) -/
  | status (launch core : Nat) (word : BitVec 32)
  /-- report of a child card: parent unit, parent card, child number, fault code, severity, path, unit, units done, flags -/
  | report (lvl unit card child : Nat) (code sev path funit prog : Nat) (satf nanf : Bool) (at' : Nat)
  /-- invalidation to a stop (R230) -/
  | inval (stop : Nat) (who : Who) (tag scope : Nat) (va : Word) (tenant : BitVec 16)
  /-- CLBINV to a core; `told`: the entries are dropped and the walks in flight poisoned, the acknowledgement is to come (R261) -/
  | clbinv (core : Nat) (who : Who) (tag launch : Nat) (tid : BitVec 8) (told : Bool)
  /-- refused with retry: waits to be resent (R196, R364) -/
  | retry (r : Req)
deriving DecidableEq, Repr

/-- A message with the instant at which it was sent (R91). -/
structure Msg where
  born : Nat
  body : Body
deriving DecidableEq, Repr

/-- An access held at a stop or an engine until a page is mapped (R354, R290). -/
structure Held where
  req   : Req
  page  : Nat
  /-- none: not answered yet -/
  answer : Option Bool
deriving DecidableEq, Repr

/-! ### Memory and its stops -/

/-- A translation held by a stop (R230): stop, tenant, page number at the leaf's level, level, the leaf entry and its place. -/
structure TlbEnt where
  stop   : Nat
  tenant : BitVec 16
  vpn    : Nat
  level  : Nat
  pte    : Word
deriving DecidableEq, Repr

/-- A record of an undo log (R431): a line, its old contents as enciphered: the bytes, the key of each 16-byte block, the bands of
the two granules. -/
structure UndoRec where
  line : Nat
  old  : Line
  tags : List (Option (BitVec 16))
  bands : List (BitVec 6)
deriving DecidableEq, Repr

/-- A memory stop (R23). -/
structure Stop where
  wps    : Tab Watch
  vlog   : List VRec
  vover  : BitVec 32
  log    : List UndoRec
  early  : Bool
deriving DecidableEq, Repr

/-- A replica set (R342, R343): frames as (peer, frame), frame 0 the lead; peer 0 is this device. -/
structure Replica where
  frames  : List (Nat × Nat)
  removed : List (Nat × Nat)
deriving DecidableEq, Repr

/-- A write that the lead of a replica set has applied and that goes to the set's other frames (R231): the frames that have not applied it,
the line within the page, the bytes, and the acknowledgements that wait for them. -/
structure Fwd where
  set    : Nat
  frames : List (Nat × Nat)
  off    : Nat
  tenant : BitVec 16
  data   : Line
  mask   : BitVec 64
  held   : List Msg
deriving DecidableEq, Repr

/-- Physical memory and what the stops keep of it. -/
structure Memory where
  bytes  : List Host.Cell
  /-- band of each 32-byte granule (R360) -/
  bands  : Tab (BitVec 6)
  /-- poisoned lines (R436) -/
  poison : List Nat
  /-- tenant under whose key a 16-byte block was last written (R366) -/
  keys   : Tab (BitVec 16)
  /-- tenant table: root page of each tenant (R358) -/
  roots  : Tab Word
  tlb    : List TlbEnt
  stops  : Tab Stop
  replicas : Tab Replica
  /-- writes that a lead forwards, oldest first (R231) -/
  fwds   : List Fwd
  interval : Nat
  cxlDown  : List Nat
deriving DecidableEq, Repr

/-! ### Launches, scheduler, groups -/

inductive LState | queued | running | done | rejected
deriving DecidableEq, Repr

/-- A launch (R377 to R386). -/
structure Launch where
  id     : Nat
  desc   : Line
  tenant : BitVec 16
  service : Bool
  sup    : Bool
  prio   : Nat
  level  : Nat
  st     : LState
  next   : Nat
  ended  : Nat
  /-- occupied cores in the order in which they took their first thread (R28) -/
  cores  : List Nat
  /-- status words received from children, by parent core (R28) -/
  heard  : List (Nat × Nat × BitVec 32)
  status : BitVec 32
  cause  : Nat
  /-- instance and node of a graph (R386) -/
  node   : Option (Nat × Nat)
  filled : Bool
  /-- the launch's own experience instance: its slots' bytes (R157, R244) -/
  inst   : Option (List Byte)
  sealed' : Bool
deriving DecidableEq, Repr

/-- A launch waiting at a level (R379, R380). -/
structure QEnt where
  launch : Nat
  level  : Nat
  tenant : BitVec 16
  since  : Nat
deriving DecidableEq, Repr

/-- A node of a graph template (R385), with the tenant and the rights that its creator gave its launches. -/
structure GNode where
  id    : Nat
  desc  : Line
  tenant : BitVec 16
  sup   : Bool
  prio  : Nat
  preds : Nat
  succs : List Nat
deriving DecidableEq, Repr

structure Graph where
  id     : Nat
  tenant : BitVec 16
  serial : Bool
  nodes  : List GNode
deriving DecidableEq, Repr

/-- State of a node of an instance (R386): waiting for predecessors, queued, ended with its completion to be served, complete. -/
inductive NState | waiting | queued | ended | done
deriving DecidableEq, Repr

structure INode where
  node : GNode
  left : Nat
  st   : NState
deriving DecidableEq, Repr

/-- An instance of a graph (R386, R387). -/
structure Inst where
  id     : Nat
  graph  : Nat
  tenant : BitVec 16
  serial : Bool
  mbox   : Word
  /-- 1 waiting, 2 running, 3 done (R394) -/
  st     : Nat
  nodes  : List INode
  status : BitVec 32
deriving DecidableEq, Repr

structure Range where
  next      : Word
  remaining : Nat
  minchunk  : Nat
  consumers : Nat
  tenant    : BitVec 16
deriving DecidableEq, Repr

/-- A group (R93 to R95). Handle 0 counts its members and keeps no list of them. -/
structure Group where
  launch  : BitVec 32
  handle  : BitVec 32
  members : List Who
  size    : Nat
  arrived : List Who
  count   : Nat
  joins   : List (Who × Nat)
  leaves  : List (Who × Option Nat)
deriving DecidableEq, Repr

structure Sched where
  launches : Tab Launch
  nextLaunch : Nat
  queue    : List QEnt
  finished : List Nat
  lastTenant : Tab Nat
  deficits : Tab Int
  weights  : Tab Nat
  groups   : List Group
  graphs   : List Graph
  insts    : List Inst
  nextGraph : Nat
  nextNode : Nat
  nextInst : Nat
  ranges   : Tab Range
  plimit   : Nat
  plimitMax : Nat
  lastCharge : Nat
  disabled : List Nat
deriving DecidableEq, Repr

/-! ### Experience store, images -/

/-- An entry of a tenant's sealed store (R158, R159). -/
structure Sealed where
  tenant : BitVec 16
  hash   : BitVec 256
  /-- the slots, enciphered, and the HMAC over them -/
  data   : List Byte
  mac    : List Byte
  frozen : List Nat
deriving DecidableEq, Repr

/-- A loaded image (R56, R57): tenant, hash, place of its experience section and slot count. -/
structure Image where
  tenant : BitVec 16
  hash   : BitVec 256
  entry  : Word
  text   : Word
  xinst  : Word
  xbytes : List Byte
deriving DecidableEq, Repr

/-! ### Levels -/

/-- A child card of a running card: number of the child, the unit, the card, whether it is one segment of a split K (R315), the
first pair of the block of 32 that it takes of a GMS card's group. -/
structure Child where
  no    : Nat
  unit  : Nat
  card  : Line
  part  : Bool
  pairs : Option Nat
  sent  : Bool
  done  : Bool
  tries : Nat
  /-- where a replay goes on (R319) -/
  resume : Nat
deriving DecidableEq, Repr

/-- A card in a unit's queue (R298 to R320). -/
structure CardRec where
  id     : Nat
  card   : Line
  who    : Asker
  /-- core that executed the CARD (R295) -/
  origin : Nat
  /-- parent: level, unit, card, child number; none for a pushed card -/
  parent : Option (Nat × Nat × Nat × Nat)
  accepted : Bool
  /-- the entries of A, B, C and D, read when the level accepts the card (R294) -/
  ents   : List Line
  /-- units run so far, and whether the card is a segment of a split K, the first pair of its block of a GMS
  card's group; at a level above L1, groups whose blocks have been issued -/
  at'    : Nat
  part   : Bool
  pairs  : Option Nat
  parityTries : Nat
  /-- which A tile a slot of the staging ring holds in a cluster's pool: by cluster * 65536 + slot (R317) -/
  ring   : Tab Nat
  slots  : Option (BitVec 32)
  children : List Child
  issued : Bool
  ran    : Bool
  code   : Nat
  sev    : Nat
  path   : Nat
  funit  : Nat
  prog   : Nat
  satf   : Bool
  nanf   : Bool
deriving DecidableEq, Repr

/-- A unit of a level: its queue and the cards it has accepted. -/
structure LUnit where
  queue : List CardRec
  next  : Nat
  /-- children issued so far: SEQ of a child card (R316) -/
  sent  : Nat
deriving DecidableEq, Repr

/-! ### Fabric -/

/-- A timer of the fabric engine (R340, R341): nanoseconds counted, the instant from which it counts, none while a member
reports a held status, and the members that do. -/
structure FTimer where
  elapsed : Nat
  from'   : Option Nat
  held    : List Nat
deriving DecidableEq, Repr

/-- A fabric barrier in progress (R339, R340): the count that the first arrival fixes, 0 before it; the local arrivals with the
tags that their threads wait for; the members that have arrived. -/
structure FBarrier where
  count   : Nat
  local'  : List (Who × Nat)
  ranks   : List Nat
  timer   : FTimer
deriving DecidableEq, Repr

structure Fabric where
  groups  : Tab Word
  words1  : Tab Word
  bars    : Tab FBarrier
  /-- memory of peers by group and rank (R337) -/
  peerMem : Tab (List Host.Cell)
  /-- paths declared down, by the group and rank that they lead to (R334) -/
  down    : List Nat
  /-- timer of a group's collective card in progress (R340) -/
  timers  : Tab FTimer
deriving DecidableEq, Repr

/-! ### Debug, trace, time -/

/-- A stop in force or on its way (R403, R404): scope, centre, hit instant, precise, cores added, cores reached. -/
structure DStop where
  scope  : Nat
  core   : Nat
  hit    : Nat
  edge   : Bool
  extra  : List Nat
  reached : List Nat
  /-- the threads that it halts (R405) -/
  halts  : List Who
  /-- the group records of the stop have been written (R405) -/
  noted  : Bool
deriving DecidableEq, Repr

/-- A ring of records (R399). -/
structure Ring where
  base  : Word
  size  : Nat
  windex : Nat
  rindex : Nat
  drops : Nat
deriving DecidableEq, Repr

/-- A step that lets the engines run (R408): the core of the command, the cycle that ends it, the cores that step, and the copies and cards
that were there before. -/
structure EngStep where
  core   : Nat
  limit  : Nat
  cores  : List Nat
  copies : List (Nat × Nat)
  cards  : List Nat
deriving DecidableEq, Repr

structure Debug where
  stops   : List DStop
  rings   : Tab Ring
  series  : Tab Ring
  check   : Option Ring
  tickExp : Nat
  tick    : Nat
  /-- cycles since reset at the last tick (R411) -/
  tickCyc : Nat
  stepEngines : Option EngStep
  pkgHalt : Bool
deriving DecidableEq, Repr

/-! ### Reliability, boot, ports -/

/-- What a checkpoint close saves (R433): cores with their contexts and pools, messages as the routers spilled them, what homes and
engines held, the levels' units, the scheduler, the fabric's barriers. -/
structure Checkpt where
  cores  : Tab Core
  chan   : List Msg
  homes  : List Req
  parked : List Held
  units  : Tab LUnit
  ebufs  : List EBuf
  fwds   : List Fwd
  sched  : Sched
  bars   : Tab FBarrier
deriving DecidableEq, Repr

structure Reliab where
  /-- transient faults counted since a unit's last record, by unit and kind (R425) -/
  transients : Tab Nat
  contained : List Nat
  /-- containment rectangle of a cluster, named by a number; at reset each cluster's own (R435) -/
  rects    : Tab Nat
  /-- cores of a pair whose state lives on in the agreeing copies, although their own cluster is contained (R430) -/
  moved    : List Nat
  policyOff : List Nat
  /-- clusters in which a lasting fault has been found, and whose rectangles are to be contained (R435) -/
  faulty   : List Nat
  /-- close in progress: copies acknowledged (R433) -/
  closing  : Bool
  saved    : Option Checkpt
  commits  : List Nat
  journals : Tab (List (Nat × Line))
  /-- replay points of pairs, by twin A's core (R429) -/
  points   : Tab Core
  mismatch : Tab Nat
  /-- entries of a pair's reply log since its replay point (R429) -/
  logged   : Tab Nat
  /-- experience reports of a pair since its replay point, oldest first: launch, slot, report (R151) -/
  reports  : Tab (List (Nat × BitVec 16 × XHeld))
deriving DecidableEq, Repr

structure Boot where
  state    : Nat
  failures : Nat
  since    : Nat
  secver   : Nat
  config   : List Byte
  measure  : List (BitVec 256)
  harts    : List Nat
  junction : Tab Nat
  wakeRefused : List Nat
  railOff  : Bool
  ptpStamps : List (Nat × Nat)
  portBuf  : Tab (List (List Byte))
  portDrops : Tab Nat
  pendingReset : Bool
deriving DecidableEq, Repr

/-- What the device tells system software, the management service, the host or the debugger, oldest first. -/
inductive Out
  | pageFault (tenant page : Nat)
  | accessFault (hart : Nat) (kind : BitVec 8) (addr : Word)
  | loaded (hart : Nat) (data : Word)
  | result (word : Word)
  | imageRefused (tenant : Nat)
  | hmacFailed (launch : Nat)
  | machineCheck (m : MCheck) (time : Nat)
  | bootState (n : Nat)
  | attested (report : List Byte)
  | hostRead (data : Word)
  | frame (port : Nat) (bytes : List Byte)
  | probe (group rank : Nat) (held : Bool)
  | keepalive (port : Nat)
  | temperature (die temp : Nat)
  | thermalStop (die : Nat)
  | earlyClose (stop : Nat)
  | stray (core : Nat)
  | doorbell (addr data : Word)
  | timestamp (port time : Nat)
  | cycle (op : Nat)
deriving DecidableEq, Repr

/-! ### The whole machine -/

/-- A trap that the latest issue has taken: cause, address, info (R349). -/
structure Taken where
  cause : BitVec 8
  addr  : Word
  info  : Word
deriving DecidableEq, Repr

/-- A step that follows at once, before any other: the planker's reissue of this turn (R176), a containment that the poison
policy requires (R436), a replay of a pair (R430). -/
inductive Follow
  | reissue (core pos : Nat)
  | contain (cluster : Nat)
deriving DecidableEq, Repr

structure State where
  /-- cycles since reset (R15, R412) -/
  cycle  : Nat
  /-- the active core whose issue slot of this cycle comes next (model's own) -/
  slot   : Nat
  /-- master counter in parts of 2^-40 / 9 ns (R396) -/
  clk    : Nat
  /-- rate adjustment in 2^-40 ns per ns (R397) -/
  rate   : Int
  /-- outside events not yet taken, oldest first (model's own) -/
  agenda : List Instr
  /-- steps that follow at once (model's own) -/
  follow : List Follow
  /-- number of the next free value (model's own) -/
  fresh  : Nat
  /-- core and context that is issuing (model's own) -/
  me     : Nat × Nat
  /-- the trap that the latest issue took, for the pair (model's own) -/
  took   : Option Taken
  cores  : Tab Core
  chan   : List Msg
  homes  : List Req
  parked : List Held
  mem    : Memory
  sched  : Sched
  store  : List Sealed
  images : List Image
  units  : Tab LUnit
  /-- store buffers of the engine harts that hold stores (R203) -/
  ebufs  : List EBuf
  fabric : Fabric
  dbg    : Debug
  rel    : Reliab
  boot   : Boot
  out    : List Out
deriving DecidableEq, Repr

/-- Why the machine stops. -/
inductive Fault
  /-- raised by a step when the core rail has been removed at 125 degrees and no outside event is left (R449): the device
  needs a reset. Safe: the device does nothing more. -/
  | railOff
deriving DecidableEq, Repr

/-- Why a step has no meaning. -/
inductive Refusal
  /-- raised by the dispatcher for an instruction that has no meaning yet. Safe. -/
  | notModelled (mnemonic : String)
deriving DecidableEq, Repr

/-! ### Reset -/

/-- Registers of a newly started thread (R20, R62, R104, R105). -/
def Regs.reset : Regs :=
  { g := Vector.replicate 64 0, v := Vector.replicate 32 0
    p := #v[0xFFFF, 0, 0, 0, 0, 0, 0, 0]
    fflags := 0, frm := 0, bxdelta := 4, synclim := 65536, trapvec := 0 }

/-- A context that holds no thread, with incarnation 0 (R27). -/
def Ctx.reset : Ctx :=
  { run := .free, halted := false, edge := false, edgeWait := none, due := false, stepping := false, reuse := 0, inc := 0
    tid := 0, nthr := 0, launch := 0, tenant := 0, sup := false, part := 0, start := 0
    pc := 0, npc := 0, entry := false, half := 0, pairOf := 0, view := none, regs := Regs.reset
    hnd := false, trapcause := 0, trappc := 0, trapaddr := 0, trapinfo := 0
    regions := [], ovf := 0, handles := [], pend := [], landing := [], replay := [], answer := none
    sb := [], want := .nothing, popped := [], streams := [], dropRec := [], cap := none, readyTurns := 0, syncTurns := 0, cancelling := false, syncEa := 0
    bpPass := [], skid := 0, skidReg := none, nextTag := 0, pageFault := false }

/-- A gated core (R441 step 1). The alignment of its cycle count, which R15 leaves open, is 0 until the core wakes (log entry 76). -/
def Core.reset : Core :=
  { ctxs := [], phase := 0, power := .gated, idleSince := 0, pool := [], empties := [], ppoison := [], part := none
    tenant := 0, residents := [], policy := false, csrs := [], clock := 0, lived := [], stray := 0, fpar := 0, xmis := 0, wins := [], jnl := [], jseq := 0
    handles := [], counters := [], cbs := [], slots := [], opmem := [], opoison := [], claims := [], nextClaim := 0
    snap := [], prefs := [], lines := [], xcache := [], xnext := 0, clb := [], vols := [], waiters := [], wps := []
    vlog := [], vover := 0, dctl := 0, dedge := 4096, pcbp := [], held := false, cnt := [], cntLat := []
    last := [], capHold := [], seqs := [], copies := [], saves := [], paged := [], frames := []
    stopped := false, dead := false }

/-- An idle handle: bitmap all ones (R266). -/
def Handle.reset : Handle := { bits := BitVec.allOnes 64, busy := false, fault := none }
/-- A counter of 0 (R266). -/
def Counter.reset : Counter := { n := 0, fault := none }
/-- A buffer that no CBSET has configured. -/
def CBuf.reset : CBuf :=
  { set := false, core := 0, base := 0, pcb := 0, pcore := 0, role := 0, count := 0, size := 0, free := 0, filled := 0
    pidx := 0, cidx := 0, reserved := 0, acquired := 0, lost := false }
/-- A free journal entry (R357). -/
def JEnt.reset : JEnt :=
  { st := .free, am := .l, line := 0, mask := 0, pc := 0, kind := 0, bset := false, ctx := 0, inc := 0, data := 0
    taken := false, met := false, seq := 0, tag := none, peer := none, launch := 0 }
/-- A memory stop after reset. -/
def Stop.reset : Stop := { wps := [], vlog := [], vover := 0, log := [], early := false }
/-- An empty unit of a level. -/
def LUnit.reset : LUnit := { queue := [], next := 0, sent := 0 }
/-- Memory after reset: nothing listed. -/
def Memory.reset : Memory :=
  { bytes := [], bands := [], poison := [], keys := [], roots := [], tlb := [], stops := [], replicas := [], fwds := []
    interval := 0, cxlDown := [] }
/-- The scheduler after reset. -/
def Sched.reset : Sched :=
  { launches := [], nextLaunch := 1, queue := [], finished := [], lastTenant := [], deficits := [], weights := []
    groups := [], graphs := [], insts := [], nextGraph := 1, nextNode := 1, nextInst := 1, ranges := []
    plimit := 8000, plimitMax := 8000, lastCharge := 0, disabled := [] }
def Fabric.reset : Fabric :=
  { groups := [], words1 := [], bars := [], peerMem := [], down := [], timers := [] }
def Debug.reset : Debug :=
  { stops := [], rings := [], series := [], check := none, tickExp := 12, tick := 0, tickCyc := 0, stepEngines := none, pkgHalt := false }
def Reliab.reset : Reliab :=
  { transients := [], contained := [], rects := [], moved := [], policyOff := [], faulty := [], closing := false, saved := none, commits := [], journals := []
    points := [], mismatch := [], logged := [], reports := [] }
/-- Boot state: system software runs on hart 0 (log entry 16). -/
def Boot.reset : Boot :=
  { state := 3, failures := 0, since := 0, secver := 0, config := [], measure := [], harts := [0], junction := []
    wakeRefused := [], railOff := false, ptpStamps := [], portBuf := [], portDrops := [], pendingReset := false }

/-- The machine right after reset: no thread runs, every core is gated, memory lists nothing (R27, R441). -/
def State.reset : State :=
  { cycle := 0, slot := 0, clk := 0, rate := 0, agenda := [], follow := [], fresh := 0, me := (0, 0), took := none
    cores := [], chan := [], homes := [], parked := [], mem := Memory.reset, sched := Sched.reset
    store := [], images := [], units := [], ebufs := [], fabric := Fabric.reset, dbg := Debug.reset, rel := Reliab.reset
    boot := Boot.reset, out := [] }

end Sys2Proof.Machine
end

