-- ==== Sys2Proof/Machine/Bits.lean ====
section
/-! DEFINITION. Bits.lean: sparse tables, bytes of memory in their canonical form, byte order, fields, sign extension. -/
namespace Sys2Proof.Machine

/-! ### Sparse tables -/

/-- The entry of a key. -/
def tget {α : Type} : Tab α → Nat → Option α
  | [], _ => none
  | (j, v) :: t, k => if k = j then some v else tget t k

/-- Set the entry of a key, keeping the keys in rising order. -/
def tset {α : Type} : Tab α → Nat → α → Tab α
  | [], k, v => [(k, v)]
  | (j, w) :: t, k, v =>
    if k < j then (k, v) :: (j, w) :: t else if k = j then (k, v) :: t else (j, w) :: tset t k v

/-- Drop the entry of a key. -/
def tdel {α : Type} : Tab α → Nat → Tab α
  | [], _ => []
  | (j, w) :: t, k => if k = j then t else (j, w) :: tdel t k

/-- The entry of a key, or d. -/
def tgetD {α : Type} (t : Tab α) (k : Nat) (d : α) : α := (tget t k).getD d

/-- Set a key to v in a table whose unlisted keys read d: setting d drops the entry. -/
def tput {α : Type} [DecidableEq α] (d : α) (t : Tab α) (k : Nat) (v : α) : Tab α :=
  if v = d then tdel t k else tset t k v

/-- The keys rise strictly from above b. -/
def risesFrom {α : Type} : Nat → Tab α → Bool
  | _, [] => true
  | b, (j, _) :: t => decide (b ≤ j) && risesFrom (j + 1) t

/-! ### Bytes -/

/-- A byte of memory; an unlisted byte reads 0 (log entry 4). -/
def rdByte (m : List Host.Cell) (a : Nat) : Byte := tgetD m a 0
/-- Write a byte, keeping the canonical form. -/
def wrByte (m : List Host.Cell) (a : Nat) (b : Byte) : List Host.Cell := tput 0 m a b

/-- The canonical form of memory: addresses strictly rising, no entry that an unlisted byte would read as. -/
def cellsOk (m : List Host.Cell) : Bool := risesFrom 0 m && m.all (fun c => c.2 != 0)

/-- n bytes from a on as one little-endian number (R2). -/
def rdN (m : List Host.Cell) (a : Nat) : Nat → Nat
  | 0 => 0
  | n + 1 => (rdByte m a).toNat + 256 * rdN m (a + 1) n

/-- Write the low n bytes of a number from a on, little-endian (R2). -/
def wrN (m : List Host.Cell) (a : Nat) : Nat → Nat → List Host.Cell
  | 0, _ => m
  | n + 1, v => wrN (wrByte m a (BitVec.ofNat 8 v)) (a + 1) n (v / 256)

/-- The 64-byte line at a. -/
def rdLine (m : List Host.Cell) (a : Nat) : Line := BitVec.ofNat 512 (rdN m a 64)

/-- Byte i of a line. -/
def lineByte (l : Line) (i : Nat) : Byte := l.extractLsb' (8 * i) 8

/-- Write the bytes of a line that the mask names, at a + i for byte i, from byte i on. -/
def wrMasked (m : List Host.Cell) (a : Nat) (l : Line) (mask : BitVec 64) : Nat → List Host.Cell
  | 0 => m
  | n + 1 =>
    let m := wrMasked m a l mask n
    if mask.getLsbD n then wrByte m (a + n) (lineByte l n) else m

/-- The bits of the bytes that a mask names. -/
def spread (mask : BitVec 64) : Nat → Line
  | 0 => 0
  | n + 1 => spread mask n ||| (if mask.getLsbD n then 0xFF#512 <<< (8 * n) else 0)

/-- The bytes of `new` that the mask names, the others from `old`. -/
def mergeLine (old new : Line) (mask : BitVec 64) : Line :=
  let m := spread mask 64
  (old &&& ~~~m) ||| (new &&& m)

/-- Mask of n bytes from byte off of a line. -/
def byteMask (off n : Nat) : BitVec 64 := BitVec.ofNat 64 ((2 ^ n - 1) * 2 ^ off)

/-- A value of n bytes put at byte off of a line. -/
def atByte (off : Nat) (v : Nat) : Line := BitVec.ofNat 512 (v * 2 ^ (8 * off))

/-- n bytes of a line from byte off on. -/
def fromByte (l : Line) (off n : Nat) : Nat := (l.toNat / 2 ^ (8 * off)) % 2 ^ (8 * n)

/-- The bytes of a mask over lanes of four bytes (R38). -/
def laneBytes (lanes : BitVec 16) : Nat → BitVec 64
  | 0 => 0
  | n + 1 => laneBytes lanes n ||| (if lanes.getLsbD n then 0xF#64 <<< (4 * n) else 0)

/-- A list of bytes written from a on. -/
def wrBytes (m : List Host.Cell) (a : Nat) : List Byte → List Host.Cell
  | [] => m
  | b :: t => wrBytes (wrByte m a b) (a + 1) t

/-- n bytes from a on, as a list. -/
def rdBytes (m : List Host.Cell) (a : Nat) : Nat → List Byte
  | 0 => []
  | n + 1 => rdByte m a :: rdBytes m (a + 1) n

/-- A list of bytes as one little-endian number. -/
def ofBytes : List Byte → Nat
  | [] => 0
  | b :: t => b.toNat + 256 * ofBytes t

/-- The low n bytes of a number, lowest first. -/
def toBytes : Nat → Nat → List Byte
  | 0, _ => []
  | n + 1, v => BitVec.ofNat 8 v :: toBytes n (v / 256)

/-! ### Fields and signs -/

/-- Bits hi..lo of a word as a number. -/
def fld {n : Nat} (w : BitVec n) (hi lo : Nat) : Nat := (w.toNat / 2 ^ lo) % 2 ^ (hi + 1 - lo)

/-- 32-bit word i of a line. -/
def word32 (l : Line) (i : Nat) : BitVec 32 := l.extractLsb' (32 * i) 32
/-- 64-bit word i of a line. -/
def word64 (l : Line) (i : Nat) : Word := l.extractLsb' (64 * i) 64
/-- A line with its 32-bit word i replaced. -/
def setWord32 (l : Line) (i : Nat) (w : BitVec 32) : Line :=
  (l &&& ~~~(0xFFFFFFFF#512 <<< (32 * i))) ||| (w.setWidth 512 <<< (32 * i))

/-- The signed value of the low w bits of n. -/
def signedOf (w n : Nat) : Int :=
  let m := n % 2 ^ w
  if 2 * m < 2 ^ w then (m : Int) else (m : Int) - 2 ^ w

/-- The value of an integer modulo 2^w. -/
def modPow (w : Nat) (i : Int) : Nat := (i % (2 ^ w : Int)).toNat

/-- Width in bits of an operation (R118). -/
def wdWidth : Wd → Nat
  | .w => 32
  | .d => 64

/-- Sign-extend the low w bits of n to 64 (R120). -/
def sextW (w n : Nat) : Word := BitVec.ofInt 64 (signedOf w n)

/-- Bytes of a load size (R40). -/
def ldBytes : LdSz → Nat
  | .b | .bu => 1
  | .h | .hu => 2
  | .w | .wu => 4
  | .d => 8

/-- Bytes of a store size (R40). -/
def stBytes : StSz → Nat
  | .b => 1 | .h => 2 | .w => 4 | .d => 8

/-- A loaded value extended to 64 bits (R40). -/
def ldExtend (sz : LdSz) (n : Nat) : Word :=
  match sz with
  | .b => sextW 8 n | .h => sextW 16 n | .w => sextW 32 n
  | .d => BitVec.ofNat 64 n
  | .bu => BitVec.ofNat 64 (n % 2 ^ 8) | .hu => BitVec.ofNat 64 (n % 2 ^ 16) | .wu => BitVec.ofNat 64 (n % 2 ^ 32)

/-- min a b saturating at 0xFFFF (R141). -/
def sat16 (n : Nat) : Nat := min n 0xFFFF

/-- An element of a list replaced. -/
def setAt {α : Type} : List α → Nat → α → List α
  | [], _, _ => []
  | _ :: t, 0, v => v :: t
  | x :: t, i + 1, v => x :: setAt t i v

/-- An element of a list dropped. -/
def dropAt {α : Type} : List α → Nat → List α
  | [], _ => []
  | _ :: t, 0 => t
  | x :: t, i + 1 => x :: dropAt t i

/-- The numbers below n. -/
def upTo : Nat → List Nat
  | 0 => []
  | n + 1 => upTo n ++ [n]

end Sys2Proof.Machine
end

