-- ==== Sys2Proof/Machine/Operands.lean ====
section
/-! DEFINITION. Operands.lean: what each instruction names (registers read and written, guard kind), register reads and
writes, guards, the partition word's allotment, and the effective address. -/
namespace Sys2Proof.Machine

/-! ### The partition word (R88, R89) -/

/-- General registers per thread (R88). -/
def partG (part : Word) : Nat := match fld part 3 2 with | 0 => 16 | 1 => 32 | _ => 64
/-- Vector registers per thread (R88). -/
def partV (part : Word) : Nat := 8 * (match fld part 5 4 with | 0 => 0 | 1 => 1 | 2 => 2 | _ => 4)
/-- Accumulator tiles (R88). -/
def partAcc (part : Word) : Nat := fld part 9 6
/-- Contexts per position (R88). -/
def partCtx (part : Word) : Nat := fld part 1 0 + 1
/-- Stream registers allowed (R88). -/
def partStrm (part : Word) : Bool := part.getLsbD 10
/-- Paired dispatch (R88). -/
def partPair (part : Word) : Bool := part.getLsbD 11
/-- Experience frozen (R88). -/
def partFrzx (part : Word) : Bool := part.getLsbD 12

/-- Bytes of the register area (R89). -/
def partRegs (part : Word) : Nat := 8 * partCtx part * (partG part * 8 + partV part * 64 + 16 + 64)
/-- Bytes of the scratchpad (R89); 0 where the word is not acceptable. -/
def partScratch (part : Word) : Nat := 65536 - partRegs part - partAcc part * 4096 - 4096
/-- First pool offset that is not reachable: scratchpad and tiles lie below it (R18, R183). -/
def partTop (part : Word) : Nat := 0xF000 - partRegs part
/-- The partition word divides the pool (R89). -/
def partOk (part : Word) : Bool :=
  partRegs part + partAcc part * 4096 + 4096 ≤ 65536 && fld part 63 13 == 0 && fld part 3 2 != 3 &&
  partAcc part ≤ 8 && (!partStrm part || fld part 5 4 == 3)

/-! ### What an instruction names -/

/-- What an instruction names: general, vector and accumulator registers (R44), vector sources (R276), destinations (R84),
whether its guard is by lanes (R38, R162), whether it is of classes 0x5 to 0x7 and so parks behind reissues and is captured
(R175, R177), whether it parks as a marker does whatever S holds (R78), whether it is performed under any guard (BR, R135). -/
structure Use where
  h    : Hdr
  g    : List GReg := []
  v    : List VReg := []
  acc  : List AReg := []
  vs   : List VReg := []
  dg   : List GReg := []
  dp   : List PReg := []
  dv   : List VReg := []
  lanes : Bool := false
  some' : Bool := false
  always : Bool := false
  vec  : Bool := false
  mark : Bool := false
deriving DecidableEq, Repr

/-- The header of an event, which has none. -/
def noHdr : Hdr := { s := false, g := 0, n := false }

/-- What each instruction names (the operand tables of the class chapters). -/
def usesOf : Instr → Use
  | .nop h => { h := h }
  | .yieldT h => { h := h }
  | .wait h => { h := h, mark := true }
  | .doze h a => { h := h, g := [a] }
  | .nowns h d => { h := h, g := [d], dg := [d] }
  | .exit h a => { h := h, g := [a], mark := true }
  | .join h d a => { h := h, g := [d, a], dg := [d] }
  | .leave h a => { h := h, g := [a] }
  | .gbar h a => { h := h, g := [a] }
  | .garrive h a => { h := h, g := [a] }
  | .gwait h a => { h := h, g := [a] }
  | .phase h a => { h := h, g := [a] }
  | .ginfoSize h d a => { h := h, g := [d, a], dg := [d] }
  | .ginfoRank h d a => { h := h, g := [d, a], dg := [d] }
  | .mfs h d _ => { h := h, g := [d], dg := [d] }
  | .mts h _ a => { h := h, g := [a] }
  | .add h _ d a b => { h := h, g := [d, a, b], dg := [d] }
  | .addImm h _ d a _ => { h := h, g := [d, a], dg := [d] }
  | .sub h _ d a b => { h := h, g := [d, a, b], dg := [d] }
  | .subImm h _ d a _ => { h := h, g := [d, a], dg := [d] }
  | .mul h _ d a b => { h := h, g := [d, a, b], dg := [d] }
  | .mulImm h _ d a _ => { h := h, g := [d, a], dg := [d] }
  | .mulh h _ d a b => { h := h, g := [d, a, b], dg := [d] }
  | .mulhImm h _ d a _ => { h := h, g := [d, a], dg := [d] }
  | .mulhu h _ d a b => { h := h, g := [d, a, b], dg := [d] }
  | .mulhuImm h _ d a _ => { h := h, g := [d, a], dg := [d] }
  | .div h _ d a b => { h := h, g := [d, a, b], dg := [d] }
  | .divImm h _ d a _ => { h := h, g := [d, a], dg := [d] }
  | .divu h _ d a b => { h := h, g := [d, a, b], dg := [d] }
  | .divuImm h _ d a _ => { h := h, g := [d, a], dg := [d] }
  | .rem h _ d a b => { h := h, g := [d, a, b], dg := [d] }
  | .remImm h _ d a _ => { h := h, g := [d, a], dg := [d] }
  | .remu h _ d a b => { h := h, g := [d, a, b], dg := [d] }
  | .remuImm h _ d a _ => { h := h, g := [d, a], dg := [d] }
  | .andd h _ d a b => { h := h, g := [d, a, b], dg := [d] }
  | .andImm h _ d a _ => { h := h, g := [d, a], dg := [d] }
  | .orr h _ d a b => { h := h, g := [d, a, b], dg := [d] }
  | .orImm h _ d a _ => { h := h, g := [d, a], dg := [d] }
  | .xor h _ d a b => { h := h, g := [d, a, b], dg := [d] }
  | .xorImm h _ d a _ => { h := h, g := [d, a], dg := [d] }
  | .andn h _ d a b => { h := h, g := [d, a, b], dg := [d] }
  | .andnImm h _ d a _ => { h := h, g := [d, a], dg := [d] }
  | .shl h _ d a b => { h := h, g := [d, a, b], dg := [d] }
  | .shlImm h _ d a _ => { h := h, g := [d, a], dg := [d] }
  | .shr h _ d a b => { h := h, g := [d, a, b], dg := [d] }
  | .shrImm h _ d a _ => { h := h, g := [d, a], dg := [d] }
  | .sra h _ d a b => { h := h, g := [d, a, b], dg := [d] }
  | .sraImm h _ d a _ => { h := h, g := [d, a], dg := [d] }
  | .rol h _ d a b => { h := h, g := [d, a, b], dg := [d] }
  | .rolImm h _ d a _ => { h := h, g := [d, a], dg := [d] }
  | .min h _ d a b => { h := h, g := [d, a, b], dg := [d] }
  | .minImm h _ d a _ => { h := h, g := [d, a], dg := [d] }
  | .max h _ d a b => { h := h, g := [d, a, b], dg := [d] }
  | .maxImm h _ d a _ => { h := h, g := [d, a], dg := [d] }
  | .minu h _ d a b => { h := h, g := [d, a, b], dg := [d] }
  | .minuImm h _ d a _ => { h := h, g := [d, a], dg := [d] }
  | .maxu h _ d a b => { h := h, g := [d, a, b], dg := [d] }
  | .maxuImm h _ d a _ => { h := h, g := [d, a], dg := [d] }
  | .setp h _ _ d a b => { h := h, g := [a, b], dp := [d] }
  | .setpImm h _ _ d a _ => { h := h, g := [a], dp := [d] }
  | .sel h _ d a b _ => { h := h, g := [d, a, b], dg := [d] }
  | .clz h _ d a => { h := h, g := [d, a], dg := [d] }
  | .ctz h _ d a => { h := h, g := [d, a], dg := [d] }
  | .popc h _ d a => { h := h, g := [d, a], dg := [d] }
  | .brev h _ d a => { h := h, g := [d, a], dg := [d] }
  | .bfx h _ _ d a b c => { h := h, g := [d, a, b, c], dg := [d] }
  | .bfxImm h _ _ d a _ _ => { h := h, g := [d, a], dg := [d] }
  | .bfi h _ d a b c => { h := h, g := [d, a, b, c], dg := [d] }
  | .bfiImm h _ d a _ _ => { h := h, g := [d, a], dg := [d] }
  | .mov h (.gg _ d a) => { h := h, g := [d, a], dg := [d] }
  | .mov h (.pg d a) => { h := h, g := [a], dp := [d] }
  | .mov h (.gp d _) => { h := h, g := [d], dg := [d] }
  | .mov h (.pp d _) => { h := h, dp := [d] }
  | .plog h _ d _ _ => { h := h, dp := [d] }
  | .li h _ d _ => { h := h, g := [d], dg := [d] }
  | .liHi h d _ => { h := h, g := [d], dg := [d] }
  | .lea h d a _ => { h := h, g := [d, a], dg := [d] }
  | .mkptr h d a b => { h := h, g := [d, a, b], dg := [d] }
  | .getband h d a => { h := h, g := [d, a], dg := [d] }
  | .caddr h d a b c => { h := h, g := [d, a, b, c], dg := [d] }
  | .chkptr h d a => { h := h, g := [d, a], dg := [d] }
  | .br h _ _ => { h := h, always := true }
  | .bri h a => { h := h, g := [a] }
  | .call h _ => { h := h, dg := [1] }
  | .calli h a => { h := h, g := [a], dg := [1] }
  | .ret h a => { h := h, g := [a] }
  | .loop h a b _ _ => { h := h, g := [a, b], dg := [a] }
  | .xrd h _ d a => { h := h, g := [d, a], dg := [d] }
  | .xsel h d b _ => { h := h, g := b.toList, dp := [d] }
  | .xunr h d b _ => { h := h, g := [d] ++ b.toList, dg := [d] }
  | .xpfd h d a b _ => { h := h, g := [d, a] ++ b.toList, dg := [d] }
  | .xnote h a _ => { h := h, g := [a] }
  | .xflush h => { h := h }
  | .vadd h _ _ d a b => { h := h, v := [d, a, b], vs := [a, b], dv := [d], lanes := true, vec := true }
  | .vsub h _ _ d a b => { h := h, v := [d, a, b], vs := [a, b], dv := [d], lanes := true, vec := true }
  | .vmul h _ _ d a b => { h := h, v := [d, a, b], vs := [a, b], dv := [d], lanes := true, vec := true }
  | .vfma h _ _ d a b c => { h := h, v := [d, a, b, c], vs := [a, b, c], dv := [d], lanes := true, vec := true }
  | .vfms h _ _ d a b c => { h := h, v := [d, a, b, c], vs := [a, b, c], dv := [d], lanes := true, vec := true }
  | .vfnma h _ _ d a b c => { h := h, v := [d, a, b, c], vs := [a, b, c], dv := [d], lanes := true, vec := true }
  | .vmin h _ d a b => { h := h, v := [d, a, b], vs := [a, b], dv := [d], lanes := true, vec := true }
  | .vmax h _ d a b => { h := h, v := [d, a, b], vs := [a, b], dv := [d], lanes := true, vec := true }
  | .vabs h _ d a => { h := h, v := [d, a], vs := [a], dv := [d], lanes := true, vec := true }
  | .vneg h _ d a => { h := h, v := [d, a], vs := [a], dv := [d], lanes := true, vec := true }
  | .vrcp h _ _ d a => { h := h, v := [d, a], vs := [a], dv := [d], lanes := true, vec := true }
  | .vrsq h _ _ d a => { h := h, v := [d, a], vs := [a], dv := [d], lanes := true, vec := true }
  | .vexp2 h _ _ d a => { h := h, v := [d, a], vs := [a], dv := [d], lanes := true, vec := true }
  | .vlog2 h _ _ d a => { h := h, v := [d, a], vs := [a], dv := [d], lanes := true, vec := true }
  | .vdiv h _ _ d a b => { h := h, v := [d, a, b], vs := [a, b], dv := [d], lanes := true, vec := true }
  | .vsqrt h _ _ d a => { h := h, v := [d, a], vs := [a], dv := [d], lanes := true, vec := true }
  | .vcvt h _ _ _ _ d a => { h := h, v := [d, a], vs := [a], dv := [d], lanes := true, vec := true }
  | .vcmp h _ _ d a b => { h := h, v := [a, b], vs := [a, b], dp := [d], vec := true }
  | .vred h _ _ d a => { h := h, v := [d, a], vs := [a], dv := [d], some' := true, vec := true }
  | .vdot h _ _ d a b => { h := h, v := [d, a, b], vs := [a, b], dv := [d], some' := true, vec := true }
  | .fadd h _ _ d a b => { h := h, g := [d, a, b], dg := [d], vec := true }
  | .fmul h _ _ d a b => { h := h, g := [d, a, b], dg := [d], vec := true }
  | .ffma h _ _ d a b c => { h := h, g := [d, a, b, c], dg := [d], vec := true }
  | .fcmp h _ _ d a b => { h := h, g := [a, b], dp := [d], vec := true }
  | .fcvt h _ _ _ d a => { h := h, g := [d, a], dg := [d], vec := true }
  | .rep h _ _ a => { h := h, g := [a] }
  | .repwait h => { h := h }
  | .viadd h _ d a b => { h := h, v := [d, a, b], vs := [a, b], dv := [d], lanes := true, vec := true }
  | .visub h _ d a b => { h := h, v := [d, a, b], vs := [a, b], dv := [d], lanes := true, vec := true }
  | .vimul h _ d a b => { h := h, v := [d, a, b], vs := [a, b], dv := [d], lanes := true, vec := true }
  | .vand h _ d a b => { h := h, v := [d, a, b], vs := [a, b], dv := [d], lanes := true, vec := true }
  | .vor h _ d a b => { h := h, v := [d, a, b], vs := [a, b], dv := [d], lanes := true, vec := true }
  | .vxor h _ d a b => { h := h, v := [d, a, b], vs := [a, b], dv := [d], lanes := true, vec := true }
  | .vshl h _ d a b => { h := h, v := [d, a, b], vs := [a, b], dv := [d], lanes := true, vec := true }
  | .vshr h _ d a b => { h := h, v := [d, a, b], vs := [a, b], dv := [d], lanes := true, vec := true }
  | .vsra h _ d a b => { h := h, v := [d, a, b], vs := [a, b], dv := [d], lanes := true, vec := true }
  | .vimin h _ _ d a b => { h := h, v := [d, a, b], vs := [a, b], dv := [d], lanes := true, vec := true }
  | .vimax h _ _ d a b => { h := h, v := [d, a, b], vs := [a, b], dv := [d], lanes := true, vec := true }
  | .vsel h _ d a b _ => { h := h, v := [d, a, b], vs := [a, b], dv := [d], lanes := true, vec := true }
  | .vshuf h _ d a b => { h := h, v := [d, a, b], vs := [a, b], dv := [d], lanes := true, vec := true }
  | .vbcast h _ d a => { h := h, g := [a], v := [d], dv := [d], lanes := true, vec := true }
  | .vins h _ d a b => { h := h, g := [a, b], v := [d], vs := [d], dv := [d], lanes := true, vec := true }
  | .vext h _ _ d a b => { h := h, g := [d, b], v := [a], vs := [a], dg := [d], vec := true }
  | .vcmprs h _ d a _ => { h := h, v := [d, a], vs := [a], dv := [d], lanes := true, vec := true }
  | .vexpnd h _ d a _ => { h := h, v := [d, a], vs := [a], dv := [d], lanes := true, vec := true }
  | .viota h _ d _ => { h := h, v := [d], dv := [d], lanes := true, vec := true }
  | .vicmp h _ _ d a b => { h := h, v := [a, b], vs := [a, b], dp := [d], vec := true }
  | .vqnt h _ _ _ d a b c => { h := h, g := c.toList, v := [d, a] ++ b.toList, vs := [a] ++ b.toList, dg := c.toList, dv := [d], vec := true }
  | .vdqnt h _ _ _ _ d a c => { h := h, g := c.toList, v := [d, a], vs := [a], dv := [d], lanes := true, vec := true }
  | .vsrnd h _ _ d a b c => { h := h, g := [b, c], v := [d, a], vs := [a], dv := [d], lanes := true, vec := true }
  | .vbxdot h _ _ d a b c => { h := h, g := c.toList, v := [d, a, b], vs := [d, a, b], dv := [d], vec := true }
  | .ld h _ _ _ d m => { h := h, g := [m.a, m.b, d], dg := [d] }
  | .st h _ _ d m => { h := h, g := [m.a, m.b, d] }
  | .vld h _ _ d m => { h := h, g := [m.a, m.b], v := [d], dv := [d], lanes := true }
  | .vst h _ d m => { h := h, g := [m.a, m.b], v := [d], vs := [d], lanes := true }
  | .lds h d m => { h := h, g := [m.a, m.b, d], dg := [d] }
  | .sts h d m => { h := h, g := [m.a, m.b, d] }
  | .ldf h d m => { h := h, g := [m.a, m.b, d], dg := [d] }
  | .feset h m => { h := h, g := [m.a, m.b] }
  | .feclr h m => { h := h, g := [m.a, m.b] }
  | .ldacq h _ d m => { h := h, g := [m.a, m.b, d], dg := [d] }
  | .strel h _ d m => { h := h, g := [m.a, m.b, d] }
  | .atom h _ _ _ d a b _ => { h := h, g := [d, a, b], dg := [d] }
  | .pref h d m => { h := h, g := [m.a, m.b, d] }
  | .vldx h _ d a b _ _ => { h := h, g := [a], v := [d, b], vs := [b], dv := [d], lanes := true }
  | .vstx h _ d a b _ _ => { h := h, g := [a], v := [d, b], vs := [d, b], lanes := true }
  | .cld h _ d a b _ => { h := h, g := [d, a, b], dg := [d] }
  | .cst h _ d a b _ => { h := h, g := [d, a, b] }
  | .cvld h _ d a b _ => { h := h, g := [a, b], v := [d], dv := [d] }
  | .cvst h _ d a b _ => { h := h, g := [a, b], v := [d], vs := [d] }
  | .cprobe h _ d a => { h := h, g := [d, a], dg := [d] }
  | .cclr h _ a => { h := h, g := [a] }
  | .ctileFind h _ d a => { h := h, g := [d, a], dg := [d] }
  | .ctileDetach h _ d a => { h := h, g := [d, a], dg := [d] }
  | .ctilePtile h _ a => { h := h, g := [a] }
  | .ctilePnode h _ a => { h := h, g := [a] }
  | .clbinv h _ => { h := h }
  | .cpy h _ _ _ a b c => { h := h, g := [a, b, c] }
  | .cpyw h _ b => { h := h, g := [b] }
  | .cpyt h d _ b => { h := h, g := [d, b], dg := [d] }
  | .deal h _ _ a b c _ => { h := h, g := [a, b, c] }
  | .sarm h _ _ _ _ _ d b c => { h := h, g := [b, c], v := [d] }
  | .sdrop h a => { h := h, v := [a] }
  | .cbset h _ a b => { h := h, g := [a, b] }
  | .cbrsv h d _ => { h := h, g := [d], dg := [d] }
  | .cbcmt h _ => { h := h }
  | .cbacq h d _ => { h := h, g := [d], dg := [d] }
  | .cbrel h _ => { h := h, mark := true }
  | .get h _ _ _ _ _ a b c => { h := h, g := [a, b, c] }
  | .put h _ _ _ _ _ _ a b c => { h := h, g := [a, b, c] }
  | .gpwait h _ d _ b => { h := h, g := [d, b], dg := [d] }
  | .card h _ a => { h := h, v := [a], vs := [a] }
  | .cwait h d a => { h := h, g := [d, a], dg := [d] }
  | .oclaim h d a => { h := h, g := [d, a], dg := [d] }
  | .orel h a => { h := h, g := [a] }
  | .ofill h _ a b => { h := h, g := [b], v := [a], vs := [a] }
  | .aclr h d => { h := h, acc := [d] }
  | .ast h _ _ _ _ _ a b c => { h := h, g := [b] ++ c.toList, acc := [a] }
  | .ald h _ _ d a => { h := h, g := [a], acc := [d] }
  | .tdset h _ a => { h := h, v := [a], vs := [a] }
  | .tdget h _ d => { h := h, v := [d], dv := [d] }
  | .pget h (.g _ d) a b _ => { h := h, g := [d, a, b], dg := [d] }
  | .pget h (.v d) a b _ => { h := h, g := [a, b], v := [d], dv := [d], lanes := true }
  | .pput h (.g _ d) a b _ => { h := h, g := [d, a, b] }
  | .pput h (.v d) a b _ => { h := h, g := [a, b], v := [d], vs := [d], lanes := true }
  | .patom h _ .cas d a b _ => { h := h, g := [d, d + 1, a, b], dg := [d] }
  | .patom h _ _ d a b _ => { h := h, g := [d, a, b], dg := [d] }
  | .fbar h a b => { h := h, g := [a, b] }
  | .trap h _ => { h := h }
  | .eret h => { h := h, mark := true }
  | .eretNext h => { h := h, mark := true }
  | .csrr h d _ => { h := h, g := [d], dg := [d] }
  | .csrw h _ a => { h := h, g := [a] }
  | .tlbinvPage h a b => { h := h, g := [a, b] }
  | .tlbinvTenant h a b => { h := h, g := [a, b] }
  | .tlbinvAll h a b => { h := h, g := [a, b] }
  | .jnlrd h _ d a => { h := h, g := [d, a], dg := [d] }
  | .jnlclr h a => { h := h, g := [a] }
  | .jnlclrResend h a => { h := h, g := [a] }
  | .ctxsv h a b => { h := h, g := [a, b] }
  | .ctxld h a b => { h := h, g := [a, b] }
  | .fencei h => { h := h }
  | .launch h d a => { h := h, g := [d, a], dg := [d] }
  | .glaunch h d a b => { h := h, g := [d, a, b], dg := [d] }
  | .gnodeGraph h d a => { h := h, g := [d, a], dg := [d] }
  | .gnodeNode h d a b => { h := h, g := [d, a, b], dg := [d] }
  | .gnodeEdge h d a b => { h := h, g := [d, a, b], dg := [d] }
  | .gnodeDrop h d a => { h := h, g := [d, a], dg := [d] }
  | .gdone h d a b => { h := h, g := [d, a, b], dg := [d] }
  | .grabTake h d a => { h := h, g := [d, a], dg := [d] }
  | .grabSet h d a b => { h := h, g := [d, a, b], dg := [d] }
  | .qstatLaunch h d a => { h := h, g := [d, a], dg := [d] }
  | .qstatQueue h d a => { h := h, g := [d, a], dg := [d] }
  | .qstatRange h d a => { h := h, g := [d, a], dg := [d] }
  | .qstatInst h d a => { h := h, g := [d, a], dg := [d] }
  | .renter h _ => { h := h }
  | .rleave h => { h := h }
  | .trace h _ a => { h := h, g := [a] }
  | .brk h _ _ => { h := h }
  | .wpset h _ _ _ _ a => { h := h, g := [a] }
  | .wpclr h _ _ a => { h := h, g := [a] }
  | .cntrd h _ _ d => { h := h, g := [d], dg := [d] }
  | .pairIssue _ _ => { h := noHdr }
  | .fetchLine _ _ => { h := noHdr }
  | .plankerReissue _ _ => { h := noHdr }
  | .drain _ _ => { h := noHdr }
  | .messageDeliver _ => { h := noHdr }
  | .homeServe _ => { h := noHdr }
  | .longResultLand _ _ _ => { h := noHdr }
  | .storeAcknowledge _ => { h := noHdr }
  | .dozeWake _ _ => { h := noHdr }
  | .syncLimit _ _ => { h := noHdr }
  | .syncCancelReturn _ => { h := noHdr }
  | .contextReuseDelay _ _ => { h := noHdr }
  | .strayMessageDiscard _ => { h := noHdr }
  | .pageMappedRestore _ _ _ => { h := noHdr }
  | .engineAccessRetry _ => { h := noHdr }
  | .schedulerCommand _ => { h := noHdr }
  | .launchStart => { h := noHdr }
  | .threadStart _ => { h := noHdr }
  | .priorityAging _ => { h := noHdr }
  | .deficitCharge => { h := noHdr }
  | .coreGate _ => { h := noHdr }
  | .coreWake _ => { h := noHdr }
  | .doneMessage _ _ => { h := noHdr }
  | .completionCombine _ => { h := noHdr }
  | .graphNodeComplete _ _ => { h := noHdr }
  | .imageLoad _ _ => { h := noHdr }
  | .instanceFill _ => { h := noHdr }
  | .instanceSeal _ => { h := noHdr }
  | .groupRequestArrive _ => { h := noHdr }
  | .barrierArrival _ => { h := noHdr }
  | .groupRelease _ => { h := noHdr }
  | .experienceFillLand _ => { h := noHdr }
  | .mergeReply _ => { h := noHdr }
  | .engineKickAccept _ => { h := noHdr }
  | .chunkComplete _ _ _ => { h := noHdr }
  | .cbStageWrite _ _ => { h := noHdr }
  | .dealComplete _ => { h := noHdr }
  | .streamStripLoad _ _ _ => { h := noHdr }
  | .fillNotice _ => { h := noHdr }
  | .stageFreeNotice _ => { h := noHdr }
  | .gatherComplete _ _ => { h := noHdr }
  | .clbWalk _ => { h := noHdr }
  | .cardAccept _ _ _ => { h := noHdr }
  | .cardDecompose _ _ => { h := noHdr }
  | .cardParityRefetch _ _ => { h := noHdr }
  | .cardRun _ => { h := noHdr }
  | .slotClaimGrant _ => { h := noHdr }
  | .childReport _ => { h := noHdr }
  | .cardRetire _ _ => { h := noHdr }
  | .flitReplay _ _ => { h := noHdr }
  | .fabricBarrierArrive _ _ => { h := noHdr }
  | .fabricBarrierRelease _ => { h := noHdr }
  | .fabricTimeout _ => { h := noHdr }
  | .progressProbe _ _ _ => { h := noHdr }
  | .replicaSetChange _ _ _ => { h := noHdr }
  | .replicaInvalidateAck _ _ => { h := noHdr }
  | .tlbInvalidate _ => { h := noHdr }
  | .gangSwitch _ => { h := noHdr }
  | .gangResume _ => { h := noHdr }
  | .breakpointHit _ _ => { h := noHdr }
  | .stopArrive _ => { h := noHdr }
  | .preciseStopTimeout _ _ => { h := noHdr }
  | .dcmdStop _ _ _ => { h := noHdr }
  | .dcmdResume _ => { h := noHdr }
  | .dcmdStepContext _ _ _ => { h := noHdr }
  | .dcmdStepGroup _ _ _ => { h := noHdr }
  | .engineStepLimit _ => { h := noHdr }
  | .tickLatch => { h := noHdr }
  | .ptpEventMessage _ => { h := noHdr }
  | .clockRateAdjust _ => { h := noHdr }
  | .clockStepForward _ => { h := noHdr }
  | .keepaliveResponse _ => { h := noHdr }
  | .machineCheck _ => { h := noHdr }
  | .pairTimeout _ _ => { h := noHdr }
  | .pairMismatch _ => { h := noHdr }
  | .checkpointClose => { h := noHdr }
  | .commitRecord => { h := noHdr }
  | .rollback => { h := noHdr }
  | .containment _ => { h := noHdr }
  | .powerOn => { h := noHdr }
  | .bootImageFetch _ => { h := noHdr }
  | .bootVerify _ _ => { h := noHdr }
  | .bootRetryWait => { h := noHdr }
  | .redfishPower _ => { h := noHdr }
  | .redfishBootState => { h := noHdr }
  | .attestationRequest _ _ _ => { h := noHdr }
  | .pcieHostAccess _ _ _ _ => { h := noHdr }
  | .cxlPortDown _ => { h := noHdr }
  | .plimitSet _ => { h := noHdr }
  | .thermalReport _ _ => { h := noHdr }
  | .controlRegisterWrite _ _ => { h := noHdr }
  | .refusedWithRetryResend _ => { h := noHdr }
  | .ethernetFrameReceive _ _ => { h := noHdr }
  | .hartStartRequest _ => { h := noHdr }
  | .machineCheckThreadEnd _ _ => { h := noHdr }
  | .systemCoreAccess _ _ _ _ _ => { h := noHdr }

/-- The specifiers of the destinations (R43), for PENDING_WRITE and for a pair that writes one register twice. -/
def Use.dests (u : Use) : List (BitVec 8) := u.dg.map gSpec ++ u.dv.map vSpec ++ u.dp.map pSpec

/-- Every register that the instruction names is allotted (R44). -/
def Use.allotted (u : Use) (part : Word) : Bool :=
  u.g.all (fun r => r.toNat < partG part) && u.v.all (fun r => r.toNat < partV part) &&
  u.acc.all (fun r => r.toNat < partAcc part)

/-! ### Registers -/

/-- Read a general register; g0 reads zero (R43). -/
def Regs.getG (r : Regs) (i : GReg) : Word := if i = 0 then 0 else r.g[i.toNat]
/-- Write a general register; a write to g0 is discarded (R43). -/
def Regs.setG (r : Regs) (i : GReg) (v : Word) : Regs :=
  if i = 0 then r else { r with g := r.g.set i.toNat v }
/-- Read a vector register. -/
def Regs.getV (r : Regs) (i : VReg) : Line := r.v[i.toNat]
/-- Write a vector register. -/
def Regs.setV (r : Regs) (i : VReg) (x : Line) : Regs := { r with v := r.v.set i.toNat x }
/-- Read a predicate; p0 reads all ones (R43). -/
def Regs.getP (r : Regs) (i : PReg) : Pred := if i = 0 then 0xFFFF else r.p[i.toNat]
/-- Write a predicate; a write to p0 is discarded (R43). -/
def Regs.setP (r : Regs) (i : PReg) (x : Pred) : Regs :=
  if i = 0 then r else { r with p := r.p.set i.toNat x }

/-- The guard's lanes (R162). -/
def Regs.gmask (r : Regs) (h : Hdr) : Pred := r.getP h.g ^^^ (if h.n then 0xFFFF else 0)
/-- The guard's bit 0 (R38). -/
def Regs.guard (r : Regs) (h : Hdr) : Bool := (r.gmask h).getLsbD 0

/-- The instruction is performed, by its own kind of guard (R38, R162). -/
def Use.performed (u : Use) (r : Regs) : Bool :=
  u.always || (if u.lanes || u.some' then r.gmask u.h != 0 else r.guard u.h)

/-! ### Effective addresses (R180) -/

/-- Displacement DISP16, sign-extended (R40). -/
def disp64 (d : BitVec 16) : Word := d.signExtend 64

/-- The effective address from base, index and displacement: in .g, within bits 56..0, the band kept (R180). None when a .g
base has bit 57 set. -/
def eaOf (am : Mode) (base idx : Word) (disp : BitVec 16) : Option Word :=
  match am with
  | .g =>
    if base.getLsbD 57 then none
    else some ((base &&& 0xFE00000000000000#64) ||| ((base + idx + disp64 disp) &&& 0x01FFFFFFFFFFFFFF#64))
  | _ => some (base + idx + disp64 disp)

/-- Index scaled by SC (R40). -/
def scaled (x : Word) (sc : BitVec 2) : Word := x <<< sc.toNat

/-- The effective address of a memory operand (R180); an index of g0 adds nothing. -/
def Regs.ea (r : Regs) (m : MemOp) : Option Word := eaOf m.am (r.getG m.a) (scaled (r.getG m.b) m.sc) m.disp

/-- The bits of an effective address that must be zero are zero (R181). -/
def eaClean (am : Mode) (ea : Word) : Bool :=
  match am with
  | .l => fld ea 63 16 == 0
  | .c => fld ea 63 26 == 0
  | .x => fld ea 63 29 == 0
  | .g => !ea.getLsbD 57

/-! ### Numbering (R12) -/

/-- Mesh coordinates of a core (R12). -/
def coreX (c : Nat) : Nat := c % 128
def coreY (c : Nat) : Nat := c / 128
/-- Die of a core (R12). -/
def dieOf (c : Nat) : Nat := (coreY c / 16) * 4 + coreX c / 32
/-- Cluster of a core (R12). -/
def clusterOf (c : Nat) : Nat := dieOf c * 32 + ((coreY c % 16) / 4) * 8 + (coreX c % 32) / 4
/-- Core within its cluster (R12). -/
def inCluster (c : Nat) : Nat := (coreY c % 4) * 4 + coreX c % 4
/-- The core with a given number within a cluster (R12). -/
def coreOfCluster (cl i : Nat) : Nat :=
  let die := cl / 32
  let pos := cl % 32
  ((die / 4) * 16 + (pos / 8) * 4 + i / 4) * 128 + (die % 4) * 32 + (pos % 8) * 4 + i % 4
/-- The core with a given index within a die (R274). -/
def coreOfDie (die i : Nat) : Nat := ((die / 4) * 16 + i / 32) * 128 + (die % 4) * 32 + i % 32

/-- The pool byte that a .l, .c or .x address of a core names (R181). -/
def poolOf (core : Nat) (am : Mode) (ea : Word) : Nat × Nat :=
  match am with
  | .l => (core, fld ea 15 0)
  | .c => (coreOfCluster (clusterOf core) (fld ea 9 6), fld ea 25 10 * 64 + fld ea 5 0)
  | _ => (fld ea 28 16, fld ea 15 0)

/-- Hash of nine address bits to a stop (R439). -/
def stopHash (v : Nat) : Nat :=
  let c := v / 64 % 8
  let u := (v % 64) ^^^ (9 * c)
  4 * (u % 16) + u / 16 % 4

/-- Home stop of a global address (R24). -/
def homeStop (va : Word) : Nat := stopHash (fld va 20 12)

end Sys2Proof.Machine
end

