-- ==== Sys2Proof/Machine/Float.lean ====
section
/-! DEFINITION. Float.lean: the number formats, rounding, arithmetic, table functions and conversions (R58 to R65, R167). -/
namespace Sys2Proof.Machine

/-- The four rounding modes (R61). -/
inductive RMode | rn | rz | ru | rd
deriving DecidableEq, Repr

/-- The mode of an instruction: its own, or the one in %frm (R61). -/
def modeIn (frm : BitVec 2) : Rm → RMode
  | .rn => .rn | .rz => .rz | .ru => .ru | .rd => .rd
  | .cur => match frm.toNat with | 0 => .rn | 1 => .rz | 2 => .ru | _ => .rd

/-- A value of a format: NaN (signalling or not), infinity, or (-1)^neg * m * 2^e. -/
inductive Num
  | nan (sig : Bool)
  | inf (neg : Bool)
  | fin (neg : Bool) (m : Nat) (e : Int)
deriving DecidableEq, Repr

/-- Exponent bits, fraction bits and bias (R58). -/
def fmtE : Fmt → Nat
  | .f32 => 8 | .f16 => 5 | .bf16 => 8
def fmtF : Fmt → Nat
  | .f32 => 23 | .f16 => 10 | .bf16 => 7
def fmtBias : Fmt → Nat
  | .f32 => 127 | .f16 => 15 | .bf16 => 127
/-- Width in bits of a format (R58). -/
def fmtBits' : Fmt → Nat
  | .f32 => 32 | .f16 => 16 | .bf16 => 16

/-- Canonical NaN (R58). -/
def canonNaN : Fmt → Nat
  | .f32 => 0x7FC00000 | .f16 => 0x7E00 | .bf16 => 0x7FC0

/-- Flag bits of %fflags (R62). -/
def flagSAT : BitVec 6 := 32
def flagNV : BitVec 6 := 16
def flagDZ : BitVec 6 := 8
def flagOF : BitVec 6 := 4
def flagUF : BitVec 6 := 2
def flagNX : BitVec 6 := 1

/-- A flag when a condition holds. -/
def flagIf (c : Bool) (f : BitVec 6) : BitVec 6 := if c then f else 0

/-- The value of an encoding (R58). -/
def toNum (f : Fmt) (n : Nat) : Num :=
  let fb := fmtF f
  let eb := fmtE f
  let frac := n % 2 ^ fb
  let ex := n / 2 ^ fb % 2 ^ eb
  let neg := n / 2 ^ (fb + eb) % 2 == 1
  if ex = 2 ^ eb - 1 then
    if frac = 0 then .inf neg else .nan (frac / 2 ^ (fb - 1) == 0)
  else if ex = 0 then .fin neg frac (1 - (fmtBias f : Int) - fb)
  else .fin neg (frac + 2 ^ fb) ((ex : Int) - fmtBias f - fb)

/-- Number of bits of m. -/
def bitLen (m : Nat) : Nat := if m = 0 then 0 else Nat.log2 m + 1

/-- Encode sign, biased exponent, fraction. -/
def packF (f : Fmt) (neg : Bool) (ex frac : Nat) : Nat :=
  (if neg then 2 ^ (fmtE f + fmtF f) else 0) + ex * 2 ^ fmtF f + frac

/-- Infinity of a format. -/
def infF (f : Fmt) (neg : Bool) : Nat := packF f neg (2 ^ fmtE f - 1) 0
/-- Largest finite number of a format (R58). -/
def maxF (f : Fmt) (neg : Bool) : Nat := packF f neg (2 ^ fmtE f - 2) (2 ^ fmtF f - 1)
/-- Zero with a sign. -/
def zeroF (f : Fmt) (neg : Bool) : Nat := packF f neg 0 0

/-- Whether a mode raises the magnitude, from the sign, the quotient's parity, the remainder against one half (less, equal,
greater as -1, 0, 1) and whether anything is discarded (R61). -/
def roundsUp (mode : RMode) (neg odd : Bool) (half : Int) (inexact : Bool) : Bool :=
  match mode with
  | .rn => decide (half > 0) || (half == 0 && odd)
  | .rz => false
  | .ru => inexact && !neg
  | .rd => inexact && neg

/-- Cut m at bit `shift`: the quotient, whether anything is discarded, and the discarded part against one half. `more` says
that the exact value lies above m by less than one unit. -/
def cutAt (m : Nat) (shift : Int) (more : Bool) : Nat × Bool × Int :=
  if shift ≤ 0 then (m * 2 ^ (-shift).toNat, more, -1)
  else
    let k := shift.toNat
    if bitLen m + 1 < k then (0, m != 0 || more, -1)
    else
      let q := m / 2 ^ k
      let r := m % 2 ^ k
      let h := 2 ^ (k - 1)
      (q, r != 0 || more, if r < h then -1 else if r = h && !more then 0 else 1)

/-- Round (-1)^neg * m * 2^e to a format once (R61, R63): the encoding and the flags OF, UF, NX. `more`: the exact value
lies above m by less than one unit of m, and m has bits to spare. -/
def roundTo (f : Fmt) (mode : RMode) (neg : Bool) (m : Nat) (e : Int) (more : Bool := false) : Nat × BitVec 6 :=
  if m = 0 && !more then (zeroF f neg, 0)
  else
    let fb : Int := fmtF f
    let emin : Int := 1 - fmtBias f
    let lead : Int := e + bitLen m - 1
    let q := max lead emin - fb
    let (k, inexact, half) := cutAt m (q - e) more
    let k := if roundsUp mode neg (k % 2 == 1) half inexact then k + 1 else k
    let (k, q) := if k = 2 ^ (fmtF f + 1) then (k / 2, q + 1) else (k, q)
    if k < 2 ^ fmtF f then
      (packF f neg 0 k, flagIf inexact (flagUF ||| flagNX))
    else
      let ex : Int := q + fb + fmtBias f
      if ex ≥ 2 ^ fmtE f - 1 then
        (match mode with
          | .rn => infF f neg
          | .rz => maxF f neg
          | .ru => if neg then maxF f neg else infF f neg
          | .rd => if neg then infF f neg else maxF f neg, flagOF ||| flagNX)
      else (packF f neg ex.toNat (k - 2 ^ fmtF f), flagIf inexact flagNX)

/-- The canonical NaN with NV where asked (R60). -/
def nanR (f : Fmt) (nv : Bool) : Nat × BitVec 6 := (canonNaN f, flagIf nv flagNV)

/-- A NaN operand is signalling (R60). -/
def isSig : Num → Bool
  | .nan s => s
  | _ => false
/-- A NaN. -/
def isNaN : Num → Bool
  | .nan _ => true
  | _ => false
/-- The sign with which a value carries. -/
def negN : Num → Bool
  | .inf s => s
  | .fin s _ _ => s
  | .nan _ => false
/-- The opposite value. -/
def flipN : Num → Num
  | .nan s => .nan s
  | .inf s => .inf (!s)
  | .fin s m e => .fin (!s) m e

/-- Deliver a value in a format, rounding once. -/
def putNum (f : Fmt) (mode : RMode) : Num → Nat × BitVec 6
  | .nan s => nanR f s
  | .inf s => (infF f s, 0)
  | .fin s m e => roundTo f mode s m e

/-- Signed mantissas on one exponent. -/
def alignInt (s : Bool) (m : Nat) (e lo : Int) : Int :=
  let v : Int := (m * 2 ^ (e - lo).toNat : Nat)
  if s then -v else v

/-- The exact sum of two finite values: an exact zero takes the common sign, or the mode's (R59). -/
def addFin (mode : RMode) (s1 : Bool) (m1 : Nat) (e1 : Int) (s2 : Bool) (m2 : Nat) (e2 : Int) : Num :=
  let lo := min e1 e2
  let z := alignInt s1 m1 e1 lo + alignInt s2 m2 e2 lo
  if z = 0 then .fin (if s1 == s2 then s1 else mode == .rd) 0 0
  else .fin (z < 0) z.natAbs lo

/-- a + b before rounding, and NV (R60). -/
def addNum (mode : RMode) (a b : Num) : Num × Bool :=
  match a, b with
  | .nan s, y => (.nan false, s || isSig y)
  | x, .nan s => (.nan false, s || isSig x)
  | .inf s, .inf t => if s == t then (.inf s, false) else (.nan false, true)
  | .inf s, _ => (.inf s, false)
  | _, .inf t => (.inf t, false)
  | .fin s m e, .fin t n g => (addFin mode s m e t n g, false)

/-- a * b before rounding, and NV (R60). -/
def mulNum (a b : Num) : Num × Bool :=
  match a, b with
  | .nan s, y => (.nan false, s || isSig y)
  | x, .nan s => (.nan false, s || isSig x)
  | .inf s, .inf t => (.inf (s != t), false)
  | .inf s, .fin t m _ => if m = 0 then (.nan false, true) else (.inf (s != t), false)
  | .fin s m _, .inf t => if m = 0 then (.nan false, true) else (.inf (s != t), false)
  | .fin s m e, .fin t n g => (.fin (s != t) (m * n) (e + g), false)

/-- Deliver a value with the NV of its operation. -/
def finish (f : Fmt) (mode : RMode) (r : Num × Bool) : Nat × BitVec 6 :=
  let (v, fl) := putNum f mode r.1
  (v, fl ||| flagIf r.2 flagNV)

/-- a + b (R166). -/
def fAdd (f : Fmt) (mode : RMode) (a b : Nat) : Nat × BitVec 6 := finish f mode (addNum mode (toNum f a) (toNum f b))
/-- a - b (R166). -/
def fSub (f : Fmt) (mode : RMode) (a b : Nat) : Nat × BitVec 6 :=
  finish f mode (addNum mode (toNum f a) (flipN (toNum f b)))
/-- a * b (R166). -/
def fMul (f : Fmt) (mode : RMode) (a b : Nat) : Nat × BitVec 6 := finish f mode (mulNum (toNum f a) (toNum f b))

/-- a * b + c before rounding (R166): 0 times infinity is invalid even beside a quiet NaN. -/
def fmaNum (mode : RMode) (a b c : Num) : Num × Bool :=
  let (p, nv) := mulNum a b
  let (r, nv') := addNum mode p c
  (r, nv || nv')

/-- a * b + c, a * b - c, c - a * b (R166). -/
def fFma (f : Fmt) (mode : RMode) (a b c : Nat) : Nat × BitVec 6 :=
  finish f mode (fmaNum mode (toNum f a) (toNum f b) (toNum f c))
def fFms (f : Fmt) (mode : RMode) (a b c : Nat) : Nat × BitVec 6 :=
  finish f mode (fmaNum mode (toNum f a) (toNum f b) (flipN (toNum f c)))
def fFnma (f : Fmt) (mode : RMode) (a b c : Nat) : Nat × BitVec 6 :=
  finish f mode (fmaNum mode (flipN (toNum f a)) (toNum f b) (toNum f c))

/-- a / b (R166, R60, R63). -/
def fDiv (f : Fmt) (mode : RMode) (a b : Nat) : Nat × BitVec 6 :=
  match toNum f a, toNum f b with
  | .nan s, y => nanR f (s || isSig y)
  | x, .nan s => nanR f (s || isSig x)
  | .inf _, .inf _ => nanR f true
  | .inf s, y => (infF f (s != negN y), 0)
  | x, .inf t => (zeroF f (negN x != t), 0)
  | .fin s m e, .fin t n g =>
    if n = 0 then (if m = 0 then nanR f true else (infF f (s != t), flagDZ))
    else
      let k := 64 + bitLen n
      let q := m * 2 ^ k / n
      roundTo f mode (s != t) q (e - g - k) (m * 2 ^ k % n != 0)

/-- Integer square root, the bits from 2^(i-1) down on top of r. -/
def isqrtFrom (n : Nat) : Nat → Nat → Nat
  | 0, r => r
  | i + 1, r => if (r + 2 ^ i) * (r + 2 ^ i) ≤ n then isqrtFrom n i (r + 2 ^ i) else isqrtFrom n i r
/-- The integer square root of n. -/
def isqrt (n : Nat) : Nat := isqrtFrom n (bitLen n / 2 + 1) 0

/-- The square root of a (R166). -/
def fSqrt (f : Fmt) (mode : RMode) (a : Nat) : Nat × BitVec 6 :=
  match toNum f a with
  | .nan s => nanR f s
  | .inf s => if s then nanR f true else (infF f false, 0)
  | .fin s m e =>
    if m = 0 then (zeroF f s, 0)
    else if s then nanR f true
    else
      let k : Nat := if e % 2 = 0 then 128 else 129
      let r := isqrt (m * 2 ^ k)
      roundTo f mode false r ((e - k) / 2) (r * r != m * 2 ^ k)

/-- Order of two values that are no NaN; -0 and +0 are equal. -/
def cmpNum (a b : Num) : Ordering :=
  match a, b with
  | .inf s, .inf t => if s == t then .eq else if s then .lt else .gt
  | .inf s, _ => if s then .lt else .gt
  | _, .inf t => if t then .gt else .lt
  | .fin s m e, .fin t n g =>
    let lo := min e g
    compare (alignInt s m e lo) (alignInt t n g lo)
  | _, _ => .eq

/-- The smaller or larger of two values (R60): -0 is less than +0; one NaN gives the number. -/
def fMinMax (f : Fmt) (mx : Bool) (a b : Nat) : Nat × BitVec 6 :=
  let x := toNum f a
  let y := toNum f b
  let fl := flagIf (isSig x || isSig y) flagNV
  match isNaN x, isNaN y with
  | true, true => (canonNaN f, fl)
  | true, false => (b, fl)
  | false, true => (a, fl)
  | false, false =>
    let aLess := match cmpNum x y with | .lt => true | .gt => false | .eq => negN x && !negN y
    (if aLess != mx then a else b, fl)

/-- |a| and -a (R166): a NaN gives the canonical NaN. -/
def fAbs (f : Fmt) (a : Nat) : Nat × BitVec 6 :=
  match toNum f a with
  | .nan s => nanR f s
  | _ => (a % 2 ^ (fmtE f + fmtF f), 0)
def fNeg (f : Fmt) (a : Nat) : Nat × BitVec 6 :=
  match toNum f a with
  | .nan s => nanR f s
  | x => ((if negN x then 0 else 2 ^ (fmtE f + fmtF f)) + a % 2 ^ (fmtE f + fmtF f), 0)

/-- A comparison and its NV (R169). -/
def fCmp (f : Fmt) (c : FCond) (a b : Nat) : Bool × BitVec 6 :=
  let x := toNum f a
  let y := toNum f b
  let un := isNaN x || isNaN y
  let sig := flagIf (isSig x || isSig y) flagNV
  let o := cmpNum x y
  match c with
  | .eq => (!un && o == .eq, sig)
  | .ne => (un || o != .eq, sig)
  | .un => (un, sig)
  | .or => (!un, sig)
  | .lt => (!un && o == .lt, flagIf un flagNV)
  | .le => (!un && o != .gt, flagIf un flagNV)
  | .gt => (!un && o == .gt, flagIf un flagNV)
  | .ge => (!un && o != .lt, flagIf un flagNV)

/-! ### Table functions (R167) -/

/-- n / d rounded to the nearest integer, ties to even. -/
def divRne (n d : Nat) : Nat :=
  let q := n / d
  let r := 2 * (n % d)
  if r > d || (r = d && q % 2 = 1) then q + 1 else q

/-- Entry k of 1/u on [1, 2] (R167). -/
def tabRcp (k : Nat) : Nat := divRne (2 ^ 42) (1024 + k)
/-- Entry k of u^(-1/2) on [u0, 2 u0] (R167): the root of 2^74 / (u0 (1024 + k)). -/
def tabRsq (u0 k : Nat) : Nat :=
  let d := u0 * (1024 + k)
  let r := isqrt (2 ^ 74 / d)
  if (2 * r + 1) * (2 * r + 1) * d < 4 * 2 ^ 74 then r + 1 else r
/-- The largest t of i bits, on top of r, with t^1024 at most n. -/
def rootFrom (n : Nat) : Nat → Nat → Nat
  | 0, r => r
  | i + 1, r => if (r + 2 ^ i) ^ 1024 ≤ n then rootFrom n i (r + 2 ^ i) else rootFrom n i r
/-- Entry k of 2^u on [0, 1] (R167): half of the 1024th root of 2^(33 * 1024 + k), rounded. -/
def tabExp2 (k : Nat) : Nat := (rootFrom (2 ^ (33 * 1024 + k)) 35 0 + 1) / 2
/-- Bits of a base-two logarithm by repeated squaring: x is a fixed-point number in [1, 2) with 256 fraction bits. -/
def logBits : Nat → Nat → Nat → Nat
  | 0, _, acc => acc
  | i + 1, x, acc =>
    let y := x * x / 2 ^ 256
    if y ≥ 2 ^ 257 then logBits i (y / 2) (2 * acc + 1) else logBits i y (2 * acc)
/-- Entry k of log2 u on [1, 2] (R167): 33 bits, rounded. -/
def tabLog2 (k : Nat) : Nat :=
  if k ≥ 1024 then 2 ^ 32 else (logBits 33 ((1024 + k) * 2 ^ 246) 0 + 1) / 2

/-- Interpolation between table entries at the 23-bit fraction q (R167). -/
def interp (t : Nat → Nat) (q : Nat) : Int :=
  let j := q / 2 ^ 13
  let x : Nat := q % 2 ^ 13
  let a : Int := t j
  let b : Int := t (j + 1)
  a + (b - a) * x / 2 ^ 13

/-- A finite nonzero value as 2^e * (1 + q / 2^23): the exponent and the fraction, exact for the three formats. -/
def normQ (m : Nat) (e : Int) : Int × Nat :=
  let l := bitLen m - 1
  (e + l, m * 2 ^ 23 / 2 ^ l - 2 ^ 23)

/-- Round a computed value, setting NX unless the function's value is exact here (R167). -/
def roundTab (f : Fmt) (mode : RMode) (neg : Bool) (m : Nat) (e : Int) (exact : Bool) : Nat × BitVec 6 :=
  let (v, fl) := roundTo f mode neg m e
  if exact then (v, fl)
  else
    let tiny := v / 2 ^ fmtF f % 2 ^ fmtE f == 0
    (v, fl ||| flagNX ||| flagIf tiny flagUF)

/-- VRCP (R167). -/
def fRcp (f : Fmt) (mode : RMode) (a : Nat) : Nat × BitVec 6 :=
  match toNum f a with
  | .nan s => nanR f s
  | .inf s => (zeroF f s, 0)
  | .fin s m e =>
    if m = 0 then (infF f s, flagDZ)
    else
      let (x, q) := normQ m e
      roundTab f mode s (interp tabRcp q).toNat (-x - 32) (q == 0)
/-- VRSQ (R167). -/
def fRsq (f : Fmt) (mode : RMode) (a : Nat) : Nat × BitVec 6 :=
  match toNum f a with
  | .nan s => nanR f s
  | .inf s => if s then nanR f true else (zeroF f false, 0)
  | .fin s m e =>
    if m = 0 then (infF f s, flagDZ)
    else if s then nanR f true
    else
      let (x, q) := normQ m e
      let even := x % 2 = 0
      roundTab f mode false (interp (tabRsq (if even then 1 else 2)) q).toNat (-(x / 2) - 32) (even && q == 0)
/-- VEXP2 (R167). -/
def fExp2 (f : Fmt) (mode : RMode) (a : Nat) : Nat × BitVec 6 :=
  match toNum f a with
  | .nan s => nanR f s
  | .inf s => if s then (zeroF f false, 0) else (infF f false, 0)
  | .fin s m e =>
    if m = 0 then roundTo f mode false 1 0
    else
      -- x = n + q / 2^23 + a rest: n and q from floor(x * 2^23)
      let big : Nat := m * 2 ^ (e + 23).toNat
      let (z, whole) : Int × Bool :=
        if e + 23 ≥ 0 then ((if s then -(big : Int) else big), true)
        else
          let d : Nat := 2 ^ (-(e + 23)).toNat
          (if s then -(((m + d - 1) / d : Nat) : Int) else ((m / d : Nat) : Int), m % d == 0)
      let n := z / 2 ^ 23
      let q := (z % 2 ^ 23).toNat
      roundTab f mode false (interp tabExp2 q).toNat (n - 32) (whole && q == 0)
/-- VLOG2 (R167). -/
def fLog2 (f : Fmt) (mode : RMode) (a : Nat) : Nat × BitVec 6 :=
  match toNum f a with
  | .nan s => nanR f s
  | .inf s => if s then nanR f true else (infF f false, 0)
  | .fin s m e =>
    if m = 0 then (infF f true, flagDZ)
    else if s then nanR f true
    else
      let (x, q) := normQ m e
      let v : Int := x * 2 ^ 32 + interp tabLog2 q
      roundTab f mode (v < 0) v.natAbs (-32) (q == 0)

/-! ### Conversions (R65) -/

/-- The floating-point format behind a conversion format. -/
def nfmtFmt : NFmt → Option Fmt
  | .f32 => some .f32 | .f16 => some .f16 | .bf16 => some .bf16
  | _ => none
/-- The format is a signed integer. -/
def nfmtSigned : NFmt → Bool
  | .i8 | .i16 | .i32 | .i64 => true
  | _ => false

/-- Round m * 2^e to an integer magnitude by the mode: the magnitude and whether it is inexact. -/
def roundInt (mode : RMode) (neg : Bool) (m : Nat) (e : Int) : Nat × Bool :=
  let (k, inexact, half) := cutAt m (-e) false
  (if roundsUp mode neg (k % 2 == 1) half inexact then k + 1 else k, inexact)

/-- A floating-point value to an integer of w bits (R65): NaN gives 0, out of range the nearest bound. -/
def toInt (mode : RMode) (sgn : Bool) (w : Nat) (x : Num) : Nat × BitVec 6 :=
  let lo : Int := if sgn then -(2 ^ (w - 1) : Nat) else 0
  let hi : Int := if sgn then (2 ^ (w - 1) : Nat) - 1 else (2 ^ w : Nat) - 1
  match x with
  | .nan _ => (0, flagNV)
  | .inf s => (modPow w (if s then lo else hi), flagSAT)
  | .fin s m e =>
    -- beyond every integer format: no need to form the number
    if e > 64 && m != 0 then (modPow w (if s then lo else hi), flagSAT)
    else
      let (k, inexact) := roundInt mode s m e
      let z : Int := if s then -(k : Int) else k
      if z < lo then (modPow w lo, flagSAT)
      else if z > hi then (modPow w hi, flagSAT)
      else (modPow w z, flagIf inexact flagNX)

/-- The conversion of the low bits of n from one format to another (R65): the encoding in the target's width. -/
def convert (mode : RMode) (t src : NFmt) (n : Nat) : Nat × BitVec 6 :=
  match nfmtFmt src, nfmtFmt t with
  | some a, some b => putNum b mode (toNum a (n % 2 ^ src.bits))
  | some a, none => toInt mode (nfmtSigned t) t.bits (toNum a (n % 2 ^ src.bits))
  | none, some b =>
    let z : Int := if nfmtSigned src then signedOf src.bits n else (n % 2 ^ src.bits : Nat)
    roundTo b mode (z < 0) z.natAbs 0
  | none, none => (n, 0)

/-! ### Sums (R73 to R75) -/

/-- The pairwise tree on one level. -/
def pairUp (add : Nat → Nat → Nat × BitVec 6) : List Nat → List Nat × BitVec 6
  | a :: b :: t =>
    let (x, f1) := add a b
    let (r, f2) := pairUp add t
    (x :: r, f1 ||| f2)
  | l => (l, 0)
/-- The pairwise tree (R74): levels until one value is left; fuel bounds the levels. -/
def pairwise (add : Nat → Nat → Nat × BitVec 6) : Nat → List Nat → Nat × BitVec 6
  | 0, l => (l.headD 0, 0)
  | n + 1, l =>
    if l.length ≤ 1 then (l.headD 0, 0)
    else
      let (r, f) := pairUp add l
      let (x, f') := pairwise add n r
      (x, f ||| f')

/-- The exact sum of products: NaN where a factor is a NaN or an invalid product or sum forms; a zero sum is +0 (R73). -/
def exactDot (l : List (Num × Num)) : Num :=
  l.foldl (fun acc p =>
    let (r, _) := addNum .rn acc (mulNum p.1 p.2).1
    match r with
    | .fin _ 0 _ => .fin false 0 0
    | x => x) (.fin false 0 0)

/-- acc + S rounded once to FP32 (R73). -/
def accStep (mode : RMode) (acc : Nat) (s : Num) : Nat × BitVec 6 :=
  match s with
  | .nan _ => nanR .f32 (isSig (toNum .f32 acc))
  | x => finish .f32 mode (addNum mode (toNum .f32 acc) x)

/-! ### Stochastic rounding (R76) -/

/-- The key of rank, step and index (R76). -/
def srKey (rank step index : BitVec 32) : BitVec 32 :=
  let v := rank * 0x2C9277B5#32 + step * 0x6B43A9B5#32 + index * 0x9E3779B1#32
  let v := v ^^^ (v >>> 15)
  let v := v * 0x85EBCA77#32
  v ^^^ (v >>> 13)

/-- m * 2^e rounded to an integer by a key (R76): the integer and whether it is inexact. -/
def srInt (m : Nat) (e : Int) (key : BitVec 32) : Nat × Bool :=
  if e ≥ 0 then (m * 2 ^ e.toNat, false)
  else
    let k := (-e).toNat
    if bitLen m + 17 < k then (0, m != 0)
    else
      let q := m / 2 ^ k
      let r := m % 2 ^ k
      (if r * 2 ^ 16 / 2 ^ k > fld key 31 16 then q + 1 else q, r != 0)

end Sys2Proof.Machine
end

