-- ==== Sys2Proof/Machine/Flags.lean ====
section
/-! DEFINITION. Flags.lean: %fflags, the lanes of a vector register in a view, and how an instruction's results and flags reach
a thread's registers (R62 to R64, R161, R162). -/
namespace Sys2Proof.Machine

/-- Or flags into %fflags (R64). -/
def Regs.raise (r : Regs) (f : BitVec 6) : Regs := { r with fflags := r.fflags ||| f }

/-- Element j of a view of width w (R161). -/
def elem (w : Nat) (l : Line) (j : Nat) : Nat := l.toNat / 2 ^ (w * j) % 2 ^ w
/-- The elements of a view, in order (R161). -/
def elems (w : Nat) (l : Line) : List Nat := (upTo (512 / w)).map (elem w l)
/-- A register from elements, lowest first (R161). -/
def ofElems (w : Nat) : List Nat → Nat
  | [] => 0
  | x :: t => x % 2 ^ w + 2 ^ w * ofElems w t
/-- A register from elements, lowest first (R161). -/
def lineOf (w : Nat) (l : List Nat) : Line := BitVec.ofNat 512 (ofElems w l)
/-- An element replaced. -/
def setElem (w : Nat) (l : Line) (j x : Nat) : Line :=
  (l &&& ~~~(BitVec.ofNat 512 ((2 ^ w - 1) * 2 ^ (w * j)))) ||| BitVec.ofNat 512 (x % 2 ^ w * 2 ^ (w * j))

/-- Bit of a predicate that governs element j in a view of width w (R162). -/
def laneOn (w : Nat) (p : Pred) (j : Nat) : Bool := p.getLsbD (j / (32 / w))

/-- Results written to the elements that are on, the others kept, from element j on; flags come from performed elements
only (R162). -/
def laneMix (w : Nat) (on : Nat → Bool) (old : Line) : Nat → List (Nat × BitVec 6) → Nat × BitVec 6
  | _, [] => (0, 0)
  | j, (x, f) :: t =>
    let (r, fl) := laneMix w on old (j + 1) t
    if on j then (x % 2 ^ w + 2 ^ w * r, f ||| fl) else (elem w old j + 2 ^ w * r, fl)

/-- A register and the flags, from a whole list of results, lane-guarded (R162). -/
def laneWrite (w : Nat) (gm : Pred) (old : Line) (res : List (Nat × BitVec 6)) : Line × BitVec 6 :=
  let (r, f) := laneMix w (laneOn w gm) old 0 res
  (BitVec.ofNat 512 r, f)

/-- Sixteen results placed by part in a view of width w, result i governed by guard bit i (R162, R168). -/
def partWrite (w part : Nat) (gm : Pred) (old : Line) (res : List (Nat × BitVec 6)) : Line × BitVec 6 :=
  let all := (upTo (512 / w)).map fun j => if j / 16 = part then (res[j % 16]?).getD (0, 0) else (0, 0)
  let (r, f) := laneMix w (fun j => decide (j / 16 = part) && gm.getLsbD (j % 16)) old 0 all
  (BitVec.ofNat 512 r, f)

/-- Width of a view (R161). -/
def viewW : View → Nat
  | .i32 => 32 | .i16 => 16 | .i8 => 8

/-- Zip three lists with a function of their elements. -/
def map3 (f : Nat → Nat → Nat → Nat × BitVec 6) (a b c : List Nat) : List (Nat × BitVec 6) :=
  ((a.zip b).zip c).map fun x => f x.1.1 x.1.2 x.2
/-- Zip two lists with a function of their elements. -/
def map2 (f : Nat → Nat → Nat × BitVec 6) (a b : List Nat) : List (Nat × BitVec 6) :=
  (a.zip b).map fun x => f x.1 x.2

/-- A predicate whose bit i is the AND of the results of the elements of lane i (R169, R172). -/
def lanesAnd (w : Nat) (res : List Bool) : Pred :=
  let k := 32 / w
  BitVec.ofNat 16 (ofElems 1 ((upTo 16).map fun i => if ((res.drop (i * k)).take k).all id then 1 else 0))

end Sys2Proof.Machine
end

