-- ==== Sys2Proof/Machine/Block.lean ====
section
/-! DEFINITION. Block.lean: the block formats, quantisation and dequantisation, the planes of a tile (R66 to R72). -/
namespace Sys2Proof.Machine

/-- Bits of an element, n of BXn (R66). -/
def bxBits : Bx → Nat
  | .bx4 => 4 | .bx8 => 8 | .bx16 => 16
/-- Magnitude bits of an element (R66). -/
def bxMag (b : Bx) : Nat := bxBits b - 2

/-- The value of an element of a block with the exponents E0 and E1 (R67). -/
def bxValue (b : Bx) (e0 e1 code : Nat) : Num :=
  let w := bxMag b
  let m := code % 2 ^ w
  let neg := code / 2 ^ w % 2 == 1
  let e := if code / 2 ^ (w + 1) % 2 = 1 then e1 else e0
  if neg && m == 0 then .nan false
  else if e = 0 then .fin false 0 0
  else if e = 255 then .nan false
  else .fin neg m ((e : Int) - 127 - w)

/-- Integer part of the base-two logarithm of m * 2^e, m not 0. -/
def floorLog2 (m : Nat) (e : Int) : Int := e + bitLen m - 1

/-- The larger of two magnitudes, an order by value; zero is (0, 0). -/
def maxMag (a b : Nat × Int) : Nat × Int :=
  let lo := min a.2 b.2
  if a.1 * 2 ^ (a.2 - lo).toNat < b.1 * 2 ^ (b.2 - lo).toNat then b else a

/-- Clamp an exponent to 1..254 (R69). -/
def clampE (e : Int) : Nat := (max 1 (min 254 e)).toNat

/-- The exponent E0 of a block (R69). -/
def quantE0 (x : List Num) : Nat :=
  let m := x.foldl (fun acc v => match v with | .fin _ k e => maxMag acc (k, e) | _ => acc) (0, 0)
  if m.1 = 0 then 1 else clampE (floorLog2 m.1 m.2 + 1 + 127)

/-- A rounding of m * 2^e to an integer: the integer, and whether it is inexact. -/
abbrev Rounding := Nat → Int → Nat × Bool
/-- Rounding to nearest even (R69). -/
def roundRne : Rounding := roundInt .rn false

/-- One element quantised (R69): code and flags. -/
def quantElem (b : Bx) (e0 e1 : Nat) (rnd : Rounding) (x : Num) : Nat × BitVec 6 :=
  let w := bxMag b
  let top := 2 ^ w - 1
  match x with
  | .nan _ => (2 ^ w, flagNV)
  | .inf s => (top + (if s then 2 ^ w else 0), flagSAT)
  | .fin s m e =>
    let (k1, x1) := rnd m (e - ((e1 : Int) - 127 - w))
    let below : Bool := m = 0 || floorLog2 m e < (e1 : Int) - 127
    let (sel, k, inexact) := if below && k1 ≤ top then (1, k1, x1) else
      let (k0, x0) := rnd m (e - ((e0 : Int) - 127 - w))
      (0, k0, x0)
    let sat := decide (k > top)
    let k := min k top
    let sgn := if s && k != 0 then 2 ^ w else 0
    (sel * 2 ^ (w + 1) + sgn + k, flagIf sat flagSAT ||| flagIf (sat || inexact) flagNX)

/-- A block quantised with the distance DELTA (R69), element i by its own rounding: the codes with their flags, E0 and E1. -/
def quantise (b : Bx) (delta : Nat) (rnd : Nat → Rounding) (x : List Num) : List (Nat × BitVec 6) × Nat × Nat :=
  let e0 := quantE0 x
  let e1 := max 1 (e0 - delta)
  (x.mapIdx (fun i v => quantElem b e0 e1 (rnd i) v), e0, e1)

/-- All flags of a list of results. -/
def allFlags (l : List (Nat × BitVec 6)) : BitVec 6 := l.foldl (fun a x => a ||| x.2) 0

/-- Columns of a tile row for a BX format (R71). -/
def bxCols : Bx → Nat
  | .bx4 => 64 | .bx8 => 32 | .bx16 => 16

/-- Element c of row r of a tile's element plane, for elements of n bits (R71). -/
def tileElem (plane : Nat → Nat) (n r c : Nat) : Nat :=
  if n = 4 then plane (32 * r + c / 2) / 16 ^ (c % 2) % 16
  else if n = 8 then plane (32 * r + c)
  else plane (32 * r + 2 * c) + 256 * plane (32 * r + 2 * c + 1)

end Sys2Proof.Machine
end

