-- ==== Sys2Proof/Machine/Base.lean ====
section
/-! DEFINITION. Base.lean: access to the parts of the state, time, identities, messages, trace records and machine-wide lookups
that every other file uses. -/
namespace Sys2Proof.Machine

/-! ### Parts of the state -/

/-- A core; one that is not listed is at reset. -/
def State.core (s : State) (c : Nat) : Core := tgetD s.cores c Core.reset
/-- Replace a core. -/
def State.setCore (s : State) (c : Nat) (k : Core) : State := { s with cores := tset s.cores c k }
/-- Change a core. -/
def State.onCore (s : State) (c : Nat) (f : Core → Core) : State := s.setCore c (f (s.core c))
/-- A context of a core; one that is not listed is at reset. -/
def Core.ctx (k : Core) (x : Nat) : Ctx := tgetD k.ctxs x Ctx.reset
/-- Replace a context. -/
def Core.setCtx (k : Core) (x : Nat) (c : Ctx) : Core := { k with ctxs := tset k.ctxs x c }
/-- A context. -/
def State.ctx (s : State) (c x : Nat) : Ctx := (s.core c).ctx x
/-- Replace a context. -/
def State.setCtx (s : State) (c x : Nat) (t : Ctx) : State := s.onCore c (fun k => k.setCtx x t)
/-- Change a context. -/
def State.onCtx (s : State) (c x : Nat) (f : Ctx → Ctx) : State := s.setCtx c x (f (s.ctx c x))
/-- The context that is issuing. -/
def State.cx (s : State) : Ctx := s.ctx s.me.1 s.me.2
/-- Change the context that is issuing. -/
def State.onCx (s : State) (f : Ctx → Ctx) : State := s.onCtx s.me.1 s.me.2 f
/-- The core that is issuing. -/
def State.mine (s : State) : Core := s.core s.me.1
/-- Change the core that is issuing. -/
def State.onMine (s : State) (f : Core → Core) : State := s.onCore s.me.1 f
/-- The registers that the issue reads: as they stood before the pair, inside a pair (R34). -/
def State.rd (s : State) : Regs := s.cx.view.getD s.cx.regs
/-- Change the registers of the issuing context. -/
def State.onRegs (s : State) (f : Regs → Regs) : State := s.onCx fun c => { c with regs := f c.regs }
/-- Write a general register of the issuing context. -/
def State.wrG (s : State) (d : GReg) (v : Word) : State := s.onRegs fun r => r.setG d v
/-- Write a predicate of the issuing context. -/
def State.wrP (s : State) (d : PReg) (v : Pred) : State := s.onRegs fun r => r.setP d v
/-- Or flags into %fflags of the issuing context (R64). -/
def State.raise (s : State) (f : BitVec 6) : State := s.onRegs fun r => r.raise f

/-- A stop; one that is not listed is at reset. -/
def Memory.stop (m : Memory) (n : Nat) : Stop := tgetD m.stops n Stop.reset
/-- Change a stop. -/
def State.onStop (s : State) (n : Nat) (f : Stop → Stop) : State :=
  { s with mem := { s.mem with stops := tset s.mem.stops n (f (s.mem.stop n)) } }
/-- A handle of a core. -/
def Core.handle (k : Core) (h : HReg) : Handle := tgetD k.handles h.toNat Handle.reset
/-- A completion counter of a core. -/
def Core.counter (k : Core) (r : KReg) : Counter := tgetD k.counters r.toNat Counter.reset
/-- A circular buffer of a core. -/
def Core.cb (k : Core) (n : Nat) : CBuf := tgetD k.cbs n CBuf.reset
/-- A journal entry of a core. -/
def Core.jent (k : Core) (n : Nat) : JEnt := tgetD k.jnl n JEnt.reset
/-- A window register: word A of window n at 2n, word B at 2n + 1 (R185). -/
def Core.win (k : Core) (n : Nat) : Word := tgetD k.wins n 0
/-- A slot's holder (R303). -/
def Core.slot (k : Core) (n : Nat) : SlotHold := tgetD k.slots n { by' := .free, pending := false }
/-- Key of a unit of a level: 1 a core's sequencer, 2 a cluster, 3 a die, 4 the package, 5 the fabric engine (R26). -/
def unitKey (lvl n : Nat) : Nat := lvl * 8192 + n
/-- A unit of a level. -/
def State.unit (s : State) (lvl n : Nat) : LUnit := tgetD s.units (unitKey lvl n) LUnit.reset
/-- Change a unit of a level. -/
def State.onUnit (s : State) (lvl n : Nat) (f : LUnit → LUnit) : State :=
  { s with units := tset s.units (unitKey lvl n) (f (s.unit lvl n)) }
/-- A launch. -/
def State.launch (s : State) (l : Nat) : Option Launch := tget s.sched.launches l
/-- Change the scheduler. -/
def State.onSched (s : State) (f : Sched → Sched) : State := { s with sched := f s.sched }
/-- Change a launch that exists. -/
def State.onLaunch (s : State) (l : Nat) (f : Launch → Launch) : State :=
  match s.launch l with
  | none => s
  | some x => s.onSched fun q => { q with launches := tset q.launches l (f x) }

/-! ### Time -/

/-- The nanosecond counter (R396). -/
def State.now (s : State) : Nat := s.clk / Config.clkPerNs
/-- The nanosecond counter as a register reads it. -/
def State.nowW (s : State) : Word := BitVec.ofNat 64 s.now

/-! ### Free values -/

/-- Use up one free value. -/
def State.used (s : State) : State := { s with fresh := s.fresh + 1 }

/-- A core's own copy of the counter: within 2 ns of the master, and never less than it has read before (R109, R396). Log entry 90. -/
def State.coreNow (s : State) (core : Nat) : Nat :=
  max (s.core core).clock (s.now + fld (Config.freeWord s.fresh) 2 0 % 5 - 2)
/-- A core reads its copy of the counter. -/
def State.readClock (s : State) (core : Nat) : State := (s.onCore core fun k => { k with clock := s.coreNow core }).used

/-! ### Identities -/

/-- The identity of a context's thread (R362). -/
def State.who (s : State) (c x : Nat) : Who := { core := c, ctx := x, inc := (s.ctx c x).inc }
/-- The issuing thread's identity. -/
def State.whoMe (s : State) : Who := s.who s.me.1 s.me.2

/-- Four region ids, top first, as a word (R400). -/
def regionWord (l : List (BitVec 16)) : Word :=
  BitVec.ofNat 64 (ofElems 16 ((l.take 4).map (·.toNat)))

/-- %region (R398). -/
def regionReg (c : Ctx) : Word :=
  BitVec.ofNat 64 (c.ovf.toNat * 2 ^ 32 + c.regions.length * 2 ^ 16 + ((c.regions.head?).getD 0).toNat)

/-- What a home knows of a thread. -/
def askerOf (c : Ctx) (w : Who) : Asker :=
  { agent := .thread w, tenant := c.tenant, launch := c.launch, sup := c.sup, regions := regionWord c.regions }
/-- What a home knows of the issuing thread. -/
def State.asker (s : State) : Asker := askerOf s.cx s.whoMe

/-- System software, under tenant 0 (R366). -/
def askerSys (hart : Nat) : Asker := { agent := .sys hart, tenant := 0, launch := 0, sup := true, regions := 0 }

/-- An engine of a thread's launch: the thread's tenant, launch and mode (R290). -/
def Asker.engine (a : Asker) (g : Agent) : Asker := { a with agent := g, regions := 0 }

/-- Number of a new operation of a core. -/
def Core.nextOp (k : Core) : Nat := (k.copies.foldl (fun m o => max m o.id) 0) + 1

/-- An operation that the copy unit or a carder takes up. -/
def Core.addCopy (k : Core) (core : Nat) (a : Asker) (op : KOp) (e : Line) : Core :=
  { k with copies := k.copies ++ [{ id := k.nextOp, who := a, core := core, op := op, entry := e, done := 0, fault := none, stages := 0 }] }

/-- The agent is a thread or an engine; for the rights of R184. -/
def Agent.isEngine : Agent → Bool
  | .thread _ | .sys _ | .host => false
  | _ => true

/-- The core of a thread, and the core of a core's engine (R361). -/
def Agent.core? : Agent → Option Nat
  | .thread w => some w.core
  | .copy c | .seqr c => some c
  | _ => none

/-- AGENT of R361. -/
def Agent.code : Agent → BitVec 16
  | .thread w => BitVec.ofNat 16 w.core
  | .copy c => BitVec.ofNat 16 (0x2000 + c)
  | .seqr c => BitVec.ofNat 16 (0x4000 + c)
  | .cluster n => BitVec.ofNat 16 (0x6000 + n)
  | .die n => BitVec.ofNat 16 (0x8000 + n)
  | .package | .fabric => 0xA000
  | .peer n => BitVec.ofNat 16 (0xC000 + n % 8192)
  | .sys n => BitVec.ofNat 16 (0xE000 + n)
  | .host => 0xE000

/-- Context of a thread, else 0 (R361). -/
def Agent.ctxNo : Agent → Nat
  | .thread w => w.ctx
  | _ => 0

/-- Incarnation of a thread, else 0 (R400). -/
def Agent.incNo : Agent → BitVec 16
  | .thread w => w.inc
  | _ => 0

/-- The thread is live, or saved with a record that still expects its messages (R362, R363). -/
def State.live (s : State) (w : Who) : Bool :=
  let c := s.ctx w.core w.ctx
  c.run != .free && c.inc == w.inc

/-! ### Messages -/

/-- Put a message into the channels (R207). -/
def State.send (s : State) (b : Body) : State := { s with chan := s.chan ++ [{ born := s.now, body := b }] }
/-- Put messages into the channels. -/
def State.sendAll (s : State) (l : List Body) : State := l.foldl State.send s
/-- Tell the outside (R354, R425, R445). -/
def State.tell (s : State) (o : Out) : State := { s with out := s.out ++ [o] }

/-- Count a stray message (R362). -/
def State.strayAt (s : State) (c : Nat) : State :=
  (s.onCore c fun k => { k with stray := if k.stray = BitVec.allOnes 32 then k.stray else k.stray + 1 }).tell (.stray c)

/-- Count an event of a core's counter n (R412). -/
def Core.count (k : Core) (n : Nat) (by' : Nat := 1) : Core :=
  { k with cnt := tset k.cnt n (tgetD k.cnt n 0 + BitVec.ofNat 64 by') }

/-! ### Trace rings (R399) -/

/-- Key of a ring: the die's system ring, or a tenant's. -/
def ringKey (die : Nat) (tenant : Option Nat) : Nat :=
  die * 131072 + (match tenant with | none => 0 | some t => t + 1)

/-- Bytes of a record placed in a ring: the place of the bytes and the ring after it; a ring that is full drops it. -/
def Ring.put (r : Ring) (n : Nat) : Option Nat × Ring :=
  if r.size = 0 || r.windex - r.rindex + n > r.size then (none, { r with drops := r.drops + 1 })
  else (some (r.base.toNat + r.windex % r.size), { r with windex := r.windex + n })

/-- A ring before system software registers it. -/
def Ring.reset : Ring := { base := 0, size := 0, windex := 0, rindex := 0, drops := 0 }

/-- Write a record of bytes to a ring of the debug block. Trace stores go by their physical address, in clear (R399). -/
def State.ringWrite (s : State) (key : Nat) (rec : List Byte) : State :=
  let r := tgetD s.dbg.rings key Ring.reset
  let (at', r) := r.put rec.length
  let s := { s with dbg := { s.dbg with rings := tset s.dbg.rings key r } }
  match at' with
  | none => s
  | some a => { s with mem := { s.mem with bytes := wrBytes s.mem.bytes a rec } }

/-- A trace record (R400). -/
def traceRec (time : Nat) (reg : Word) (src : BitVec 16) (ctx typ : Nat) (tag : Nat) (inc : BitVec 16) (data : Word) : List Byte :=
  toBytes 8 time ++ toBytes 8 reg.toNat ++ toBytes 2 src.toNat ++ toBytes 1 ctx ++ toBytes 1 typ ++ toBytes 2 tag ++
  toBytes 2 inc.toNat ++ toBytes 8 data.toNat

/-- A record made by or for a thread, by a unit of a die (R399, R400). -/
def State.traceBy (s : State) (die : Nat) (a : Asker) (typ tag : Nat) (data : Word) : State :=
  let tenant := match a.agent with | .sys _ | .host => none | _ => some a.tenant.toNat
  s.ringWrite (ringKey die tenant) (traceRec s.now a.regions a.agent.code a.agent.ctxNo typ tag a.agent.incNo data)

/-- A record of a thread of a core, by its own core (R400). -/
def State.traceCtx (s : State) (c x typ tag : Nat) (data : Word) : State :=
  s.traceBy (dieOf c) (askerOf (s.ctx c x) (s.who c x)) typ tag data

/-! ### Cards (R298), as far as other units look at them -/

/-- 32-bit word i of a card as a number. -/
def cardW (card : Line) (i : Nat) : Nat := (word32 card i).toNat
def cardOp (card : Line) : Nat := cardW card 0 % 256
def cardSL (card : Line) : Bool := (word32 card 0).getLsbD 15
def cardAR (card : Line) : Bool := (word32 card 0).getLsbD 14
def cardLevel (card : Line) : Nat := fld (word32 card 0) 10 8
/-- Tensor id, slot or tile of an operand: 0 A, 1 B, 2 C, 3 D. -/
def cardTid (card : Line) (i : Nat) : Nat := cardW card 1 / 256 ^ i % 256

/-- A gang switch has stopped a level's unit: a core's sequencer with the core, a cluster's carder with a core of the cluster (R364). -/
def State.unitStopped (s : State) (lvl unit : Nat) : Bool :=
  match lvl with
  | 1 => (s.core unit).stopped
  | 2 => s.cores.any fun p => clusterOf p.1 == unit && p.2.stopped
  | _ => false
/-- The cards that are queued or running on a core's sequencer (R304). -/
def State.l1Cards (s : State) (core : Nat) : List CardRec := (s.unit 1 core).queue

/-- A card names accumulator tile i of the core that runs it (R304). -/
def cardTile (acc : Nat) (card : Line) (i : Nat) : Bool :=
  if cardAR card then cardTid card 3 == i else i + 1 == acc || i + 2 == acc
/-- A card names an operand slot (R304). -/
def CardRec.namesSlot (r : CardRec) (i : Nat) : Bool :=
  (cardSL r.card && (cardTid r.card 0 == i || cardTid r.card 1 == i)) ||
  (match r.slots with | some m => m.getLsbD i | none => false)

/-- A queued or running card names tile i of a core (R187). -/
def State.tileBusy (s : State) (core i : Nat) : Bool :=
  let acc := partAcc ((s.core core).part.getD 0)
  (s.l1Cards core).any fun r => cardTile acc r.card i
/-- A queued or running card names slot i of a core (R303). -/
def State.slotBusy (s : State) (core i : Nat) : Bool := (s.l1Cards core).any fun r => r.namesSlot i

/-- An access to n bytes of a pool touches a tile that a card names (R187). -/
def State.accBusy (s : State) (core off n : Nat) : Bool :=
  let part := (s.core core).part.getD 0
  let base := partScratch part
  (upTo (partAcc part)).any fun i =>
    decide (off < base + 4096 * (i + 1)) && decide (base + 4096 * i < off + n) && s.tileBusy core i

/-! ### Windows (R184 to R186) -/

/-- What an access needs of a window. -/
inductive Need | r | w | sync
deriving DecidableEq, Repr

/-- Any launch is resident on the core (R186). -/
def Core.anyResident (k : Core) : Bool := !k.residents.isEmpty
/-- The launch is resident on the core: until the core has sent its done message (R186). -/
def Core.isResident (k : Core) (l : BitVec 32) : Bool := k.residents.any fun r => r.launch == l

/-- Window n grants an access (R184, R186). -/
def Core.grants (k : Core) (n : Nat) (a : Asker) (need : Need) (off len : Nat) : Bool :=
  let wa := k.win (2 * n)
  wa.getLsbD 36 && decide (fld wa 15 0 ≤ off) && decide (off + len ≤ fld wa 31 16 + 1) &&
  (if n = 0 && k.anyResident then k.isResident a.launch else (k.win (2 * n + 1)).setWidth 32 == a.launch) &&
  (match need with | .r => wa.getLsbD 32 | .w => wa.getLsbD 33 | .sync => wa.getLsbD 34) &&
  (!a.agent.isEngine || wa.getLsbD 35)

/-- Bytes of a pool that an access may reach (R183). -/
def Core.reachable (k : Core) (off len : Nat) : Bool :=
  match k.part with
  | none => false
  | some p => decide (off + len ≤ partTop p)

/-- The core, or its cluster, is fenced (R435). -/
def State.fenced (s : State) (core : Nat) : Bool := s.rel.contained.contains (clusterOf core) && !s.rel.moved.contains core

/-- Whether a pool port accepts an access, and if not why: 7 REFUSED, 3 WINDOW (R183, R184, R187, R435). -/
def State.poolCheck (s : State) (core off len : Nat) (win : Bool) (a : Asker) (need : Need) : Option (BitVec 8) :=
  let k := s.core core
  if decide (core ≥ Config.cores) || k.dead || s.fenced core then some 7
  else if !k.reachable off len then some 3
  else if win && !(upTo 4).any (fun n => k.grants n a need off len) then some 3
  else if s.accBusy core off len then some 3
  else none

/-- Take the replay point of a pair (R429): its state is kept, and the reply log begins anew. -/
def State.replayPoint (s : State) (core : Nat) : State :=
  { s with rel := { s.rel with
      points := tset s.rel.points core (s.core core), mismatch := tdel s.rel.mismatch core, logged := tdel s.rel.logged core
      reports := tdel s.rel.reports core } }
/-- A pair's reply log takes an entry; 1,024 entries fill it, and a replay point is taken (R429). -/
def State.replyLog (s : State) (core : Nat) : State :=
  if !(match (s.core core).part with | some p => partPair p | none => false) then s
  else
    let n := tgetD s.rel.logged core 0 + 1
    if n ≥ 1024 then s.replayPoint core else { s with rel := { s.rel with logged := tset s.rel.logged core n } }

/-- The twin that keeps the state of a core of a pair: a core of the east half that mirrors its west twin (R426, R427). -/
def State.twinA (s : State) (core : Nat) : Nat :=
  let a := core - 64
  if coreX core ≥ 64 && (match (s.core a).part with | some p => partPair p | none => false) then a else core

end Sys2Proof.Machine
end

