-- ==== Sys2Proof/Machine/Mem.lean ====
section
/-! DEFINITION. Mem.lean: physical memory with its keys, poison and undo log; device-table translation; bands; and what a
memory stop and a pool port do with one request (R183 to R190, R195 to R198, R229, R355 to R361, R366, R402, R431, R438). -/
namespace Sys2Proof.Machine

/-! ### The physical map (R438 to R440) -/

/-- The CXL port of a physical address. -/
def cxlPort (pa : Nat) : Option Nat :=
  if 0x100000000000 ≤ pa ∧ pa < 0x200000000000 then some ((pa - 0x100000000000) / 0x10000000000) else none
/-- The stop of a CXL port (R440). -/
def cxlStop (port : Nat) : Nat :=
  let k := port % 4
  match port / 4 with
  | 0 => 4 * k
  | 1 => 4 * (4 * k + 3) + 3
  | 2 => 4 * (12 + k) + 2
  | _ => 4 * (4 * k) + 1
/-- The stop that is home to a physical address, or none where nothing is populated. -/
def physStop (pa : Nat) : Option Nat :=
  if pa < 0x10000000000 then some (stopHash (pa / 4096 % 512))
  else (cxlPort pa).map cxlStop

/-- The debug window (R438, R447). -/
def inDebug (pa : Nat) : Bool := decide (0xF0000000000 ≤ pa) && decide (pa < 0xF0000600000)

/-! ### Lines under a key (R366) -/

/-- 16-byte blocks of the line at pa that another tenant's key enciphers, as a mask of bytes. -/
def Memory.locked (m : Memory) (tenant : BitVec 16) (pa : Nat) : Nat → BitVec 64
  | 0 => 0
  | n + 1 =>
    m.locked tenant pa n |||
    (match tget m.keys (pa / 16 + n) with
     | some t => if t = tenant then 0 else 0xFFFF#64 <<< (16 * n)
     | none => 0)

/-- The line at pa as a tenant reads it: blocks under another key read as free values. -/
def State.readPhys (s : State) (tenant : BitVec 16) (pa : Nat) : Line × State :=
  let lock := s.mem.locked tenant pa 4
  if lock = 0 then (rdLine s.mem.bytes pa, s)
  else (mergeLine (rdLine s.mem.bytes pa) (Config.freeLine s.fresh) lock, s.used)

/-- Bytes of the 16-byte blocks that a mask touches. -/
def blocksOf (mask : BitVec 64) : Nat → BitVec 64
  | 0 => 0
  | n + 1 => blocksOf mask n ||| (if (mask >>> (16 * n)) &&& 0xFFFF = 0 then 0 else 0xFFFF#64 <<< (16 * n))

/-- Tag the blocks of a line that a mask touches. -/
def tagBlocks (keys : Tab (BitVec 16)) (tenant : BitVec 16) (pa : Nat) (mask : BitVec 64) : Nat → Tab (BitVec 16)
  | 0 => keys
  | n + 1 =>
    let keys := tagBlocks keys tenant pa mask n
    if (mask >>> (16 * n)) &&& 0xFFFF = 0 then keys else tset keys (pa / 16 + n) tenant

/-- Write bytes of the line at pa under a tenant's key: the rest of a block that another key enciphered becomes a free value.
A line that is wholly rewritten is poisoned no more (R436). -/
def State.writePhys (s : State) (tenant : BitVec 16) (pa : Nat) (data : Line) (mask : BitVec 64) : State :=
  let lock := s.mem.locked tenant pa 4 &&& blocksOf mask 4
  let (full, s) := if lock = 0 then (data, s) else (mergeLine (Config.freeLine s.fresh) data mask, s.used)
  { s with mem := { s.mem with
      bytes := wrMasked s.mem.bytes pa full (mask ||| lock) 64
      keys := tagBlocks s.mem.keys tenant pa mask 4
      poison := if mask = BitVec.allOnes 64 then s.mem.poison.filter (· != pa) else s.mem.poison } }

/-- The band stored with the granule of a physical address (R360). -/
def Memory.bandAt (m : Memory) (pa : Nat) : BitVec 6 := tgetD m.bands (pa / 32) 0
/-- Set the band of a granule. -/
def Memory.setBand (m : Memory) (pa : Nat) (b : BitVec 6) : Memory := { m with bands := tput 0 m.bands (pa / 32) b }

/-- The stop's undo log has room for the line, or holds it already (R431, R432). -/
def State.logRoom (s : State) (pa : Nat) : Bool :=
  let st := s.mem.stop ((physStop pa).getD 0)
  st.log.any (·.line == pa) || decide (st.log.length < 2097152)

/-- Log a line's old contents before a write, once in an interval; at 7/8 ask for a close (R431, R432). -/
def State.undoLog (s : State) (pa : Nat) : State :=
  let n := (physStop pa).getD 0
  let st := s.mem.stop n
  if st.log.any (·.line == pa) then s
  else
    let log := st.log ++ [{ line := pa, old := rdLine s.mem.bytes pa, tags := (upTo 4).map (fun i => tget s.mem.keys (pa / 16 + i))
                            bands := (upTo 2).map fun i => s.mem.bandAt (pa + 32 * i) }]
    let ask := decide (log.length ≥ 1835008) && !st.early
    let s := s.onStop n fun t => { t with log := log, early := t.early || ask }
    if ask then s.tell (.earlyClose n) else s

/-- Apply a write at the home of a physical line. -/
def State.putLine (s : State) (tenant : BitVec 16) (pa : Nat) (data : Line) (mask : BitVec 64) : State :=
  if mask = 0 then s else (s.undoLog pa).writePhys tenant pa data mask

/-! ### Translation (R229, R358, R359) -/

/-- What a walk finds. -/
inductive WalkR
  | leaf (pte : Word) (level addr : Nat)
  | absent
  | fail (kind : BitVec 8)
deriving DecidableEq, Repr

/-- Frame number of an entry. -/
def ptePpn (p : Word) : Nat := fld p 53 10
def pteV (p : Word) : Bool := p.getLsbD 0
def pteR (p : Word) : Bool := p.getLsbD 1
def pteW (p : Word) : Bool := p.getLsbD 2
def pteX (p : Word) : Bool := p.getLsbD 3
def pteU (p : Word) : Bool := p.getLsbD 4
def pteA (p : Word) : Bool := p.getLsbD 6
def pteD (p : Word) : Bool := p.getLsbD 7
def pteN (p : Word) : Bool := p.getLsbD 63
/-- Unbanded page (R358). -/
def pteUNB (p : Word) : Bool := p.getLsbD 60
/-- Replicated page (R358). -/
def pteREPL (p : Word) : Bool := p.getLsbD 59
/-- Volume-pool page (R251, R358). -/
def pteVPOOL (p : Word) : Bool := p.getLsbD 58
/-- The stop checks the colour rule (R359). -/
def pteCCHK (p : Word) : Bool := p.getLsbD 57

/-- A leaf entry of a level is valid: no reserved bit, an aligned frame, a 64 KiB range only at level 0 (R358). -/
def leafOk (p : Word) (level : Nat) : Bool :=
  fld p 56 54 == 0 && fld p 62 61 != 3 && (pteREPL p || ptePpn p % 2 ^ (9 * level) == 0) &&
  (!pteN p || (level == 0 && (pteREPL p || ptePpn p % 16 == 8)))

/-- Walk a device table from a level down; its reads are those of system software's tenant. -/
def State.walk (s : State) (va : Nat) : Nat → Nat → WalkR × State
  | 0, _ => (.absent, s)
  | n + 1, table =>
    let pa := table * 4096 + 8 * (va / 2 ^ (12 + 9 * n) % 512)
    match physStop pa with
    | none => (.fail 4, s)
    | some _ =>
      if s.mem.poison.contains (pa / 64 * 64) then (.fail 5, s)
      else
        let (l, s) := s.readPhys 0 (pa / 64 * 64)
        let p : Word := BitVec.ofNat 64 (fromByte l (pa % 64) 8)
        if !pteV p || (!pteR p && pteW p) then (.absent, s)
        else if pteR p || pteX p then (if leafOk p n then (.leaf p n pa, s) else (.absent, s))
        else if fld p 63 54 != 0 || pteU p || pteA p || pteD p then (.absent, s)
        else s.walk va n (ptePpn p)

/-- The access of a translation. -/
inductive XNeed | load | store | fetch | probe
deriving DecidableEq, Repr

/-- Permission of a leaf entry (R358); a probe needs none (R132). -/
def permOk (p : Word) (sup : Bool) (need : XNeed) : Bool :=
  match need with
  | .load => (sup || pteU p) && pteR p
  | .store => (sup || pteU p) && pteW p
  | .fetch => (sup || pteU p) && pteX p
  | .probe => true

/-- Physical address from a leaf entry; for a replicated page, from the frame that the set gives. -/
def leafPa (p : Word) (level va frame : Nat) : Nat :=
  if pteREPL p then frame * 4096 + va % 4096
  else if pteN p then (ptePpn p / 16 * 16) * 4096 + va % 65536
  else ptePpn p * 4096 + va % 2 ^ (12 + 9 * level)

/-- The nearer of two frames of a set: this device's own, else fewer hops away; the earlier one of equals (R342). -/
def nearer (a b : Nat × Nat) : Nat × Nat :=
  if a.1 = 0 then a else if b.1 = 0 || decide (Config.fabricHops b.1 < Config.fabricHops a.1) then b else a

/-- The frame of a replica set that serves this device's loads (R342); one that is removed serves until its invalidation arrives (R343). -/
def Memory.replFrame (m : Memory) (set : Nat) : Option (Nat × Nat) :=
  match tget m.replicas set with
  | none => none
  | some r => match r.frames ++ r.removed with | [] => none | f :: t => some (t.foldl nearer f)

/-- A translation: physical address, entry, and for a replicated page the peer whose frame it is. -/
structure Xl where
  pa   : Nat
  pte  : Word
  peer : Nat
deriving DecidableEq, Repr

/-- Why a translation gives no address. -/
inductive XErr
  | absent
  | kind (k : BitVec 8)
deriving DecidableEq, Repr

/-- The entry of a TLB that covers an address (R230). -/
def tlbFind (l : List TlbEnt) (stop : Nat) (tenant : BitVec 16) (va : Nat) : Option TlbEnt :=
  l.find? fun e => e.stop == stop && e.tenant == tenant && e.vpn == va / 2 ^ (12 + 9 * e.level)

/-- The leaf entry for an address: from the TLB, or by a walk that fills the TLB and, for an access that the entry permits, sets A, and D
for a store (R358). -/
def State.leafFor (s : State) (stop : Nat) (tenant : BitVec 16) (sup : Bool) (need : XNeed) (va : Nat) :
    Except XErr (Word × Nat) × State :=
  match tlbFind s.mem.tlb stop tenant va with
  | some e =>
    if need != .store || pteD e.pte || !permOk e.pte sup need then (.ok (e.pte, e.level), s)
    else walkIt s
  | none => walkIt s
where
  walkIt (s : State) : Except XErr (Word × Nat) × State :=
    match tget s.mem.roots tenant.toNat with
    | none => (.error .absent, s)
    | some root =>
      match s.walk va 5 (root.toNat / 4096) with
      | (.absent, s) => (.error .absent, s)
      | (.fail k, s) => (.error (.kind k), s)
      | (.leaf p level addr, s) =>
        let p' := if permOk p sup need then p ||| 0x40 ||| (if need = .store then 0x80 else 0) else p
        let s := if p' = p then s
          else s.putLine 0 (addr / 64 * 64) (atByte (addr % 64) p'.toNat) (byteMask (addr % 64) 8)
        let e : TlbEnt := { stop := stop, tenant := tenant, vpn := va / 2 ^ (12 + 9 * level), level := level, pte := p' }
        let tlb := s.mem.tlb.filter fun t => !(t.stop == stop && t.tenant == tenant && t.vpn == e.vpn && t.level == level)
        (.ok (p', level), { s with mem := { s.mem with tlb := e :: tlb } })

/-- Translate a global address at its home stop, with the colour, map and port checks (R190 step 1, R358, R359, R438, R440). -/
def State.translate (s : State) (a : Asker) (need : XNeed) (va : Word) : Except XErr Xl × State :=
  let v := fld va 56 0
  match s.leafFor (homeStop va) a.tenant a.sup need v with
  | (.error e, s) => (.error e, s)
  | (.ok (p, level), s) =>
    let (peer, frame) := (s.mem.replFrame (ptePpn p % 65536)).getD (0, 0)
    if pteREPL p && (tget s.mem.replicas (ptePpn p % 65536)).isNone then (.error (.kind 4), s)
    else
      let pa := leafPa p level v frame
      if pteCCHK p && pa / 4096 % 512 != v / 4096 % 512 then (.error (.kind 4), s)
      else if pteREPL p && peer != 0 then (.ok { pa := pa, pte := p, peer := peer }, s)
      else
        match physStop pa with
        | none => (.error (.kind 4), s)
        | some _ =>
          if (cxlPort pa).any s.mem.cxlDown.contains then (.error (.kind 7), s)
          else (.ok { pa := pa, pte := p, peer := 0 }, s)

/-! ### Bands (R360) -/

/-- Granules of a line that a mask touches, from granule n down. -/
def bandsAll (m : Memory) (pa : Nat) (mask : BitVec 64) (b : BitVec 6) : Bool :=
  ((mask &&& 0xFFFFFFFF) == 0 || m.bandAt pa == b) && (mask >>> 32 == 0 || m.bandAt (pa + 32) == b)

/-- The band check of a translated access to bytes of a line (R360). -/
def bandOk (m : Memory) (pte : Word) (pa : Nat) (mask : BitVec 64) (pb : BitVec 6) : Bool :=
  if pteUNB pte then pb == 0 else pb != 0 && bandsAll m pa mask pb

/-- Band bits of a pointer. -/
def bandOf (va : Word) : BitVec 6 := va.extractLsb' 58 6

/-! ### Violation logs and watchpoints -/

/-- A record added to a log of 16; a full log loses its oldest and counts (R361). -/
def vlogAdd (l : List VRec) (lost : BitVec 32) (r : VRec) : List VRec × BitVec 32 :=
  if l.length < Config.vlogSize then (l ++ [r], lost)
  else (l.drop 1 ++ [r], if lost = BitVec.allOnes 32 then lost else lost + 1)

/-- Log a refusal at a stop. -/
def State.logStop (s : State) (n : Nat) (a : Asker) (va : Word) (mb : BitVec 6) (kind : BitVec 8) : State :=
  let (l, o) := vlogAdd (s.mem.stop n).vlog (s.mem.stop n).vover { addr := va, mband := mb, kind := kind, who := a, time := s.now }
  s.onStop n fun t => { t with vlog := l, vover := o }
/-- Log a refusal at a pool port; a fence's NACK is no refusal of the port (R435). -/
def State.logPort (s : State) (core : Nat) (a : Asker) (addr : Word) (kind : BitVec 8) : State :=
  if kind = 7 then s else
  let k := s.core core
  let (l, o) := vlogAdd k.vlog k.vover { addr := addr, mband := 0, kind := kind, who := a, time := s.now }
  s.setCore core { k with vlog := l, vover := o }

/-- Cores of a scope around a core (R403). -/
def inScope (scope centre c : Nat) : Bool :=
  match scope with
  | 0 => false
  | 1 => clusterOf c == clusterOf centre
  | 2 => dieOf c == dieOf centre
  | _ => true

/-- Start a stop (R403): scope 0 starts none. -/
def State.startStop (s : State) (scope core : Nat) (edge : Bool) (extra : Option Nat) : State :=
  if scope = 0 then s
  else
    let ex := match extra with | some c => if inScope scope core c then [] else [c] | none => []
    let d : DStop := { scope := scope, core := core, hit := s.now, edge := edge, extra := ex, reached := [], halts := [], noted := false }
    { s with dbg := { s.dbg with stops := s.dbg.stops ++ [d], pkgHalt := s.dbg.pkgHalt || decide (scope = 3) } }

/-- Router core of a memory stop (R23). -/
def stopCore (n : Nat) : Nat := coreOfDie (n / 4) (7 * 32 + 8 * (n % 4) + 3)

/-- A watchpoint's access code: 1 read, 2 write, 3 both. -/
def accCode (rd wr : Bool) : Nat := (if rd then 1 else 0) + (if wr then 2 else 0)

/-- Fire the watchpoints of a list that an access matches (R402). -/
def State.fire (s : State) (l : Tab Watch) (glob : Bool) (unit die : Nat) (a : Asker) (addr n acc : Nat) (val : Nat → Word) : State :=
  match l with
  | [] => s
  | (i, w) :: t =>
    let hit := decide (w.word < addr + n) && decide (addr < w.word + 8) && (w.kind &&& acc) != 0 && (!glob || w.tenant == a.tenant)
    let s := if hit then
        (s.traceBy die a 6 (i + (if glob then 8 else 0) + 16 * acc) (val w.word)).startStop w.scope unit false a.agent.core?
      else s
    s.fire t glob unit die a addr n acc val

/-- Watchpoints of a stop for an access to n bytes at a global address whose line lies at pa. -/
def State.fireGlob (s : State) (a : Asker) (va : Word) (n pa acc : Nat) : State :=
  let st := homeStop va
  if (s.mem.stop st).wps.isEmpty then s
  else
    let line := rdLine s.mem.bytes (pa / 64 * 64)
    s.fire (s.mem.stop st).wps true (stopCore st) (st / 4) a (fld va 56 0) n acc
      fun w => BitVec.ofNat 64 (fromByte line (w % 64) 8)
/-- Watchpoints of a pool port. -/
def State.firePool (s : State) (core : Nat) (a : Asker) (off n acc : Nat) : State :=
  if (s.core core).wps.isEmpty then s
  else
    let pool := (s.core core).pool
    s.fire (s.core core).wps false core (dieOf core) a off n acc fun w => BitVec.ofNat 64 (rdN pool w 8)

/-! ### Poison (R436) -/

/-- Containment rectangle of a cluster (R435). -/
def State.rect (s : State) (cluster : Nat) : Nat := tgetD s.rel.rects cluster cluster

/-- The consumer of poison: under the policy its rectangle is contained at once; otherwise it is told. -/
def State.consumePoison (s : State) (a : Asker) : State :=
  match (match a.agent with | .cluster n => some n | g => g.core?.map clusterOf) with
  | none => s
  | some n => if s.rel.policyOff.contains (s.rect n) then s else { s with follow := s.follow ++ [.contain n] }

/-! ### Global requests at a stop -/

/-- What a home makes of a request. -/
inductive Served
  /-- performed: the answer's line and flags -/
  | done (data : Line) (s : State)
  | fail (f : RFault) (s : State)
  /-- a store that waits for its page (R354) -/
  | hold (s : State)
  /-- not now -/
  | wait
deriving DecidableEq, Repr

/-- Line address of a global address, band kept. -/
def lineVa (va : Word) : Word := va &&& ~~~0x3F#64

/-- The stop that is home to a translated location: the one that holds the frame (R204, R359, R440). -/
def Xl.home (x : Xl) (va : Word) : Nat := if x.peer = 0 then (physStop x.pa).getD (homeStop va) else homeStop va

/-- The access check of R190 for bytes of the line of va: translation; the band, or the three conditions of .bset (R195); permissions, and
poison for a read. A refusal is logged at the stop that makes it (R361). -/
def State.gCheck0 (s : State) (a : Asker) (need : XNeed) (bset : Bool) (rd : Bool) (va : Word) (mask : BitVec 64) :
    Except (XErr) Xl × State :=
  match s.translate a need va with
  | (.error .absent, s) => (.error .absent, s)
  | (.error (.kind k), s) => (.error (.kind k), s.logStop (homeStop va) a va 0 k)
  | (.ok x, s) =>
    let pa := x.pa / 64 * 64
    let mb := s.mem.bandAt x.pa
    let pass := if bset then permOk x.pte a.sup need && !pteUNB x.pte && bandOf va != 0 else bandOk s.mem x.pte pa mask (bandOf va)
    if !pass then (.error (.kind 2), s.logStop (x.home va) a va mb 2)
    else if !permOk x.pte a.sup need then (.error (.kind 4), s.logStop (homeStop va) a va mb 4)
    else if rd && s.mem.poison.contains pa && x.peer == 0 then (.error (.kind 5), s.logStop (x.home va) a va mb 5)
    else (.ok x, s)

/-- The same, with what a refusal starts: an absent page is asked for (R354), and poison is consumed (R436). -/
def State.gCheck (s : State) (a : Asker) (need : XNeed) (bset : Bool) (rd : Bool) (va : Word) (mask : BitVec 64) :
    Except (XErr) Xl × State :=
  match s.gCheck0 a need bset rd va mask with
  | (.error .absent, s) => (.error .absent, s.tell (.pageFault a.tenant.toNat (fld va 56 12)))
  | (.error (.kind k), s) => (.error (.kind k), if k = 5 then s.consumePoison a else s)
  | (.ok x, s) => (.ok x, s)

/-- A failure as the requester learns it. -/
def failAt (va : Word) : XErr → RFault
  | .absent => { kind := 1, absent := true, addr := va }
  | .kind k => { kind := k, absent := false, addr := va }

/-- Key of the replica frames that a peer holds, in the table of peers' memory. -/
def replKey (peer : Nat) : Nat := 2 ^ 24 + peer

/-- The line of a translated address, on this device or at the peer whose replica serves (R342). -/
def State.readXl (s : State) (tenant : BitVec 16) (x : Xl) : Line × State :=
  if x.peer = 0 then s.readPhys tenant (x.pa / 64 * 64)
  else (rdLine (tgetD s.fabric.peerMem (replKey x.peer) []) (x.pa / 64 * 64), s)

/-- Apply a write to one frame of a replica set. -/
def State.writeFrame (s : State) (tenant : BitVec 16) (off : Nat) (data : Line) (mask : BitVec 64) (f : Nat × Nat) : State :=
  if f.1 = 0 then s.putLine tenant (f.2 * 4096 + off) data mask
  else
    let m := wrMasked (tgetD s.fabric.peerMem (replKey f.1) []) (f.2 * 4096 + off) data mask 64
    { s with fabric := { s.fabric with peerMem := tset s.fabric.peerMem (replKey f.1) m } }

/-- Frames of a replica set, the lead first (R342). -/
def Memory.frames (m : Memory) (set : Nat) : List (Nat × Nat) := (tget m.replicas set).elim [] Replica.frames

/-- Apply a write to a translated line: of a replicated page, at the lead, which forwards it to every other replica (R231). -/
def State.writeXl (s : State) (tenant : BitVec 16) (x : Xl) (data : Line) (mask : BitVec 64) : State :=
  let pa := x.pa / 64 * 64
  if pteREPL x.pte then
    match s.mem.frames (ptePpn x.pte % 65536) with
    | [] => s
    | f :: t =>
      let s := s.writeFrame tenant (pa % 4096) data mask f
      if t.isEmpty || mask = 0 then s
      else
        let w : Fwd := { set := ptePpn x.pte % 65536, frames := t, off := pa % 4096, tenant := tenant, data := data, mask := mask, held := [] }
        { s with mem := { s.mem with fwds := s.mem.fwds ++ [w] } }
  else s.putLine tenant pa data mask

/-- The line of a translated address where its writes are ordered: of a replicated page, at the lead (R342). -/
def State.readLead (s : State) (tenant : BitVec 16) (x : Xl) : Line × State :=
  match pteREPL x.pte, s.mem.frames (ptePpn x.pte % 65536) with
  | true, f :: _ => s.readXl tenant { x with pa := f.2 * 4096 + x.pa % 4096, peer := f.1 }
  | _, _ => s.readXl tenant x

/-- A forwarded write is applied at a replica, after what the lead forwarded there before (R231); the last replica's acknowledgement lets the
writer have its own. -/
def State.forwardOne (s : State) (i : Nat) : State :=
  match s.mem.fwds[i]? with
  | none => s
  | some w =>
    match w.frames with
    | [] => s
    | f :: t =>
      if (s.mem.fwds.take i).any (fun q => q.set == w.set && q.frames.contains f) ||
          (f.1 == 0 && !s.logRoom (f.2 * 4096 + w.off)) then s
      else
        let s := s.writeFrame w.tenant w.off w.data w.mask f
        if t.isEmpty then { s with mem := { s.mem with fwds := dropAt s.mem.fwds i }, chan := s.chan ++ w.held }
        else { s with mem := { s.mem with fwds := setAt s.mem.fwds i { w with frames := t } } }

/-- What a home has sent for a write that it forwards waits for the replicas (R231). -/
def State.holdAcks (s t : State) : State :=
  if t.mem.fwds.length ≤ s.mem.fwds.length then t
  else
    let new := t.chan.drop s.chan.length
    let l := t.mem.fwds.length - 1
    { t with chan := t.chan.take s.chan.length
             mem := { t.mem with fwds := t.mem.fwds.mapIdx fun i w => if i = l then { w with held := w.held ++ new } else w } }

/-- A replica set that is changing holds its stores (R343): until the removed holders have acknowledged, and while a frame that has become
the lead has not applied every store that the former lead forwarded. -/
def State.replHeld (s : State) (x : Xl) : Bool :=
  let set := ptePpn x.pte % 65536
  pteREPL x.pte && (match tget s.mem.replicas set with
    | some r => !r.removed.isEmpty || s.mem.fwds.any fun w => w.set == set && r.frames.head?.any w.frames.contains
    | none => false)

/-- The new value of an atomic (R198); FP32 addition rounds to nearest even. -/
def atomNew (op : AtomOp) (w : Nat) (m b cmp : Nat) : Nat :=
  let sm := signedOf w m
  let sb := signedOf w b
  match op with
  | .add => (m + b) % 2 ^ w
  | .min => if sm ≤ sb then m else b
  | .max => if sm ≥ sb then m else b
  | .umin => min m b
  | .umax => max m b
  | .and => m &&& b
  | .or => m ||| b
  | .xor => m ^^^ b
  | .swap => b
  | .cas => if m = cmp then b else m
  | .fadd32 => (fAdd .f32 .rn m b).1

/-! ### A launch's experience instance (R157, R244) -/

/-- 64-bit word i of a launch descriptor (R377). -/
def descW (d : Line) (i : Nat) : Word := word64 d i

/-- Bytes of a launch's own instance that lie in the line of an address: the bytes and which they are. -/
def State.instLine (s : State) (launch : BitVec 32) (va : Word) : Line × BitVec 64 :=
  match s.launch launch.toNat with
  | some { inst := some b, desc := d, .. } =>
    let x := fld (descW d 3) 56 0
    let l := fld va 56 6 * 64
    if l + 64 ≤ x || x + b.length ≤ l then (0, 0)
    else (upTo 64).foldl (fun p i =>
      if x ≤ l + i then (match b[l + i - x]? with
        | some v => (p.1 ||| atByte i v.toNat, p.2 ||| byteMask i 1)
        | none => p) else p) (0, 0)
  | _ => (0, 0)
/-- A line of memory as a launch's agents read it: its own instance stands over its place. -/
def State.withInst (s : State) (a : Asker) (va : Word) (l : Line) : Line :=
  let (d, m) := s.instLine a.launch va
  if m = 0 then l else mergeLine l d m
/-- Word 1 of a slot of a launch's instance written. -/
def State.instPut (s : State) (launch : BitVec 32) (va : Word) (w : Word) : State :=
  s.onLaunch launch.toNat fun l =>
    let off := fld va 56 0 + 8 - fld (descW l.desc 3) 56 0
    { l with inst := l.inst.map fun b => b.take off ++ toBytes 8 w.toNat ++ b.drop (off + 8) }

/-- Load n bytes at a global address. -/
def State.gLoad (s : State) (a : Asker) (need : XNeed) (va : Word) (n : Nat) : Served :=
  let off := fld va 5 0
  match s.gCheck a need false true va (byteMask off n) with
  | (.error e, s) => .fail (failAt va e) s
  | (.ok x, s) =>
    let (l, s) := s.readXl a.tenant x
    .done (s.withInst a va l) (s.fireGlob a va n x.pa 1)

/-- Read a line for a prefetch (R199): a refusal asks for no page and consumes no poison. -/
def State.gPref (s : State) (a : Asker) (va : Word) : Served :=
  match s.gCheck0 a .load false true va (BitVec.allOnes 64) with
  | (.error e, s) => .fail (failAt va e) s
  | (.ok x, s) =>
    let (l, s) := s.readXl a.tenant x
    .done (s.withInst a va l) (s.fireGlob a va 64 x.pa 1)

/-- The granules of a line that a mask touches retagged, in every frame of a replica set that this device holds (R195, R342). -/
def Memory.retag (m : Memory) (x : Xl) (mask : BitVec 64) (b : BitVec 6) : Memory :=
  let off := x.pa / 64 * 64 % 4096
  let frames := if pteREPL x.pte then
      ((m.frames (ptePpn x.pte % 65536)).filter fun f => f.1 == 0).map fun f => f.2 * 4096 + off
    else [x.pa / 64 * 64]
  frames.foldl (fun m pa =>
    let m := if (mask &&& 0xFFFFFFFF) != 0 then m.setBand pa b else m
    if mask >>> 32 != 0 then m.setBand (pa + 32) b else m) m

/-- Store the masked bytes of the line of a global address; with bset, retag the granules they touch (R195). -/
def State.gStore (s : State) (a : Asker) (va : Word) (data : Line) (mask : BitVec 64) (bset : Bool) : Served :=
  match s.gCheck a .store bset false (lineVa va) mask with
  | (.error e, s) => .fail (failAt (lineVa va) e) s
  | (.ok x, s) =>
    let pa := x.pa / 64 * 64
    if s.replHeld x || !s.logRoom pa then .wait
    else
      let s := s.writeXl a.tenant x data mask
      let s := if bset then { s with mem := s.mem.retag x mask (bandOf va) } else s
      .done 0 (fireMask s x.pa mask 8)
where
  /-- each 8-byte word that the mask touches is one access -/
  fireMask (s : State) (pa : Nat) (mask : BitVec 64) : Nat → State
    | 0 => s
    | n + 1 =>
      let s := fireMask s pa mask n
      if (mask >>> (8 * n)) &&& 0xFF = 0 then s
      else s.fireGlob a (lineVa va + BitVec.ofNat 64 (8 * n)) 8 pa 2

/-- Read-modify-write at a global address (R198). -/
def State.gAtom (s : State) (a : Asker) (va : Word) (op : AtomOp) (wd : Wd) (b cmp : Word) : Served :=
  let w := wdWidth wd
  let off := fld va 5 0
  let mask := byteMask off (w / 8)
  match s.gCheck a .store false true va mask with
  | (.error e, s) => .fail (failAt va e) s
  | (.ok x, s) =>
    if s.replHeld x || !s.logRoom (x.pa / 64 * 64) then .wait
    else
      let (l, s) := s.readLead a.tenant x
      let new := atomNew op w (fromByte l off (w / 8)) (b.toNat % 2 ^ w) (cmp.toNat % 2 ^ w)
      let s := s.writeXl a.tenant x (atByte off new) mask
      .done l (s.fireGlob a va (w / 8) x.pa 3)

/-- A bit of a status word. -/
def bitIf (c : Bool) (n : Nat) : Nat := if c then 2 ^ n else 0

/-- CHKPTR's probe at the home stop, after bit 57 (R132): the status word. It raises no fault; a probe that the stop refuses, for
whatever kind, gives REFUSED alone. -/
def State.gProbe (s : State) (a : Asker) (va : Word) : Word × State :=
  match s.translate a .probe va with
  | (.error (.kind _), s) => (BitVec.ofNat 64 (2 ^ 15), s)
  | (.error .absent, s) => (0, s)
  | (.ok x, s) =>
    let pa := x.pa / 64 * 64
    (BitVec.ofNat 64 (bitIf (s.mem.poison.contains pa && x.peer == 0) 14 + bitIf (permOk x.pte a.sup .store) 12 +
      bitIf (permOk x.pte a.sup .load) 11 + bitIf (pteUNB x.pte) 10 + 2 ^ 9 +
      bitIf (bandOk s.mem x.pte pa (byteMask (fld va 5 0) 1) (bandOf va)) 8 + (s.mem.bandAt x.pa).toNat), s)

/-! ### Pool requests at a port -/

/-- A pool line, from its 64-byte boundary. -/
def Core.poolLine (k : Core) (off : Nat) : Line := rdLine k.pool (off / 64 * 64)
/-- The full-empty bit of a pool word is full (R20). -/
def Core.full (k : Core) (off : Nat) : Bool := !k.empties.contains (off / 8)
/-- Set a full-empty bit. -/
def Core.setFull (k : Core) (off : Nat) (full : Bool) : Core :=
  { k with empties := if full then k.empties.filter (· != off / 8) else if k.empties.contains (off / 8) then k.empties else (off / 8) :: k.empties }
/-- Poisoned words among n bytes of a pool. -/
def Core.poisoned (k : Core) (off n : Nat) : Bool := k.ppoison.any fun w => decide (8 * w < off + n) && decide (off < 8 * w + 8)
/-- Words of a pool that a mask of the line at off writes whole are poisoned no more. -/
def Core.heal (k : Core) (line : Nat) (mask : BitVec 64) : Core :=
  if k.ppoison.isEmpty then k
  else { k with ppoison := k.ppoison.filter fun w =>
    !(decide (line ≤ 8 * w) && decide (8 * w < line + 64) && (mask >>> (8 * w - line)) &&& 0xFF == 0xFF) }

/-- Write masked bytes of a pool line. -/
def Core.poolWrite (k : Core) (line : Nat) (data : Line) (mask : BitVec 64) : Core :=
  ({ k with pool := wrMasked k.pool line data mask 64 }).heal line mask

/-- Write a 64-byte unit of operand memory (R21). -/
def Core.opPut (k : Core) (at' : Nat) (d : Line) : Core :=
  { k with opmem := wrMasked k.opmem at' d (BitVec.ofNat 64 (2 ^ 64 - 1)) 64, opoison := k.opoison.filter (· != at' / 64) }

/-- First byte and number of bytes that a mask spans. -/
def maskSpan (mask : BitVec 64) : Nat × Nat :=
  let lo := (upTo 64).find? fun i => mask.getLsbD i
  let hi := (upTo 64).reverse.find? fun i => mask.getLsbD i
  match lo, hi with
  | some l, some h => (l, h + 1 - l)
  | _, _ => (0, 0)

/-- Load n bytes of a pool at its port. -/
def State.pLoad (s : State) (a : Asker) (core off n : Nat) (win : Bool) (addr : Word) : Served :=
  match s.poolCheck core off n win a .r with
  | some k => .fail { kind := k, absent := false, addr := addr } (s.logPort core a addr k)
  | none =>
    if (s.core core).poisoned off n then
      .fail { kind := 5, absent := false, addr := addr } ((s.logPort core a addr 5).consumePoison a)
    else .done ((s.core core).poolLine off) (s.firePool core a off n 1)

/-- Store masked bytes of a pool line at its port. -/
def State.pStore (s : State) (a : Asker) (core off : Nat) (win : Bool) (addr : Word) (data : Line) (mask : BitVec 64) : Served :=
  let line := off / 64 * 64
  let (lo, n) := maskSpan mask
  match s.poolCheck core (line + lo) n win a .w with
  | some k => .fail { kind := k, absent := false, addr := addr } (s.logPort core a addr k)
  | none =>
    let s := s.onCore core fun k => k.poolWrite line data mask
    .done 0 (fireMask s mask 8)
where
  fireMask (s : State) (mask : BitVec 64) : Nat → State
    | 0 => s
    | n + 1 =>
      let s := fireMask s mask n
      if (mask >>> (8 * n)) &&& 0xFF = 0 then s else s.firePool core a (off / 64 * 64 + 8 * n) 8 2

/-- Read-modify-write in a pool at its port (R198). -/
def State.pAtom (s : State) (a : Asker) (core off : Nat) (win : Bool) (addr : Word) (op : AtomOp) (wd : Wd) (b cmp : Word) : Served :=
  let w := wdWidth wd
  match s.poolCheck core off (w / 8) win a .sync with
  | some k => .fail { kind := k, absent := false, addr := addr } (s.logPort core a addr k)
  | none =>
    if (s.core core).poisoned off (w / 8) then
      .fail { kind := 5, absent := false, addr := addr } ((s.logPort core a addr 5).consumePoison a)
    else
      let l := (s.core core).poolLine off
      let new := atomNew op w (fromByte l (off % 64) (w / 8)) (b.toNat % 2 ^ w) (cmp.toNat % 2 ^ w)
      let s := s.onCore core fun k => k.poolWrite (off / 64 * 64) (atByte (off % 64) new) (byteMask (off % 64) (w / 8))
      .done l (s.firePool core a off (w / 8) 3)

/-- A synchronising access can be satisfied by the word's bit as it stands (R196). -/
def syncReady (full : Bool) : ROp → Bool
  | .lds | .ldf => full
  | .sts _ => !full
  | _ => true

/-- The effect of a synchronising access that is satisfied (R196): the word's line for the reply. -/
def State.syncDo (s : State) (a : Asker) (core off : Nat) (op : ROp) : Line × State :=
  let k := s.core core
  let l := k.poolLine off
  match op with
  | .lds => (l, (s.setCore core (k.setFull off false)).firePool core a off 8 3)
  | .ldf => (l, s.firePool core a off 8 1)
  | .sts x =>
    let k := (k.poolWrite (off / 64 * 64) (atByte (off % 64) x.toNat) (byteMask (off % 64) 8)).setFull off true
    (0, (s.setCore core k).firePool core a off 8 2)
  | .feset => (0, (s.setCore core (k.setFull off true)).firePool core a off 8 (if k.full off then 0 else 2))
  | .feclr => (0, (s.setCore core (k.setFull off false)).firePool core a off 8 (if k.full off then 2 else 0))
  | _ => (0, s)

/-! ### Replies -/

/-- The thread of a requester. -/
def Asker.thread? (a : Asker) : Option Who := match a.agent with | .thread w => some w | _ => none

/-- Send a reply to the thread that asked. -/
def State.reply (s : State) (r : Req) (data : Line) (flags : BitVec 6) (fault : Option RFault) : State :=
  match r.who.thread? with
  | none => s
  | some w => s.send (.reply { dst := w, tag := r.tag, data := data, flags := flags, fault := fault, lane := r.lane })

/-- The number that a store without a journal entry carries. -/
def noJournal : Nat := Config.journalSize

/-- Acknowledge a store to the journal entry that holds it (R191). -/
def State.ackStore (s : State) (r : Req) (j : Nat) (fault : Option RFault) : State :=
  match r.who.agent.core? with
  | none => s
  | some c => if j = noJournal then s else s.send (.storeAck c j fault)

/-- DONE of a mailbox at an address, in the line that a load brings (R323). -/
def mailDone (va : Word) (l : Line) : Bool := l.getLsbD (8 * fld va 5 0 + 31)

/-- A CWAIT at its home whose mailbox holds DONE: the line. -/
def State.cwaitDone (s : State) (r : Req) : Option Line :=
  match r.op, r.place with
  | .cwait, .glob va => (match s.gLoad r.who .load va 8 with | .done l _ => if mailDone va l then some l else none | _ => none)
  | _, _ => none

/-- Answer the CWAITs that are registered at homes and find DONE (R323), up to n of them. -/
def State.answerWaits (s : State) : Nat → State
  | 0 => s
  | n + 1 =>
    match s.homes.findIdx? fun r => (s.cwaitDone r).isSome with
    | none => s
    | some i =>
      match s.homes[i]? with
      | none => s
      | some r => ({ s with homes := dropAt s.homes i }.reply r ((s.cwaitDone r).getD 0) 0 none).answerWaits n

/-- A store or an atomic, by any agent, has been applied: who waits for a mailbox is answered (R323). -/
def State.mailWake (s : State) : State := s.answerWaits s.homes.length
/-- The same after an access that may have been applied. -/
def Served.mailWake : Served → Served
  | .done l s => .done l s.mailWake
  | r => r

/-- Serve the waiters of a pool word in order of arrival, each change before the next is considered (R196). Fuel: the number
of waiters left. -/
def State.scanWaiters (s : State) (core off : Nat) : Nat → State
  | 0 => s
  | n + 1 =>
    let k := s.core core
    let pick := k.waiters.findIdx? fun r =>
      (match r.place with | .pool c o _ _ => c == core && o / 8 == off / 8 | _ => false) && syncReady (k.full off) r.op
    match pick with
    | none => s
    | some i =>
      match k.waiters[i]? with
      | none => s
      | some r =>
        let s := s.setCore core { k with waiters := dropAt k.waiters i }
        let (l, s) := s.syncDo r.who core off r.op
        (s.reply r l 0 none).scanWaiters core off n

/-- A synchronising request at its port: refused, satisfied, or queued among the waiters; a full list refuses with retry
(R196). -/
def State.pSync (s : State) (r : Req) (core off : Nat) (win : Bool) (addr : Word) : State :=
  match s.poolCheck core off 8 win r.who .sync with
  | some k => (s.logPort core r.who addr k).reply r 0 0 (some { kind := k, absent := false, addr := addr })
  | none =>
    let k := s.core core
    if (match r.op with | .lds | .ldf => k.poisoned off 8 | _ => false) then
      ((s.logPort core r.who addr 5).consumePoison r.who).reply r 0 0 (some { kind := 5, absent := false, addr := addr })
    else if syncReady (k.full off) r.op then
      let (l, s) := s.syncDo r.who core off r.op
      let s := s.reply r l 0 none
      s.scanWaiters core off (s.core core).waiters.length
    else if k.waiters.length < Config.portWaiters then s.setCore core { k with waiters := k.waiters ++ [r] }
    else s.send (.retry r)

end Sys2Proof.Machine
end

