-- ==== Sys2Proof/Machine/Slots.lean ====
section
/-! DEFINITION. Slots.lean: experience slots, reports, the experience cache, merges and fills (R140 to R153). -/
namespace Sys2Proof.Machine

/-- The image whose experience section is a launch's instance: the tenant's image with that section address. -/
def State.imageOf (s : State) (tenant : BitVec 16) (xinst : Word) : Option Image :=
  s.images.find? fun i => i.tenant == tenant && i.xinst == xinst && xinst != 0

/-! ### Updates of word 1 (R145, R146) -/

/-- Field i (16 bits) of word 1. -/
def xf (w : Word) (i : Nat) : Nat := fld w (16 * i + 15) (16 * i)
/-- Word 1 from its four fields, lowest first. -/
def xw (a b c d : Nat) : Word := BitVec.ofNat 64 (ofElems 16 [a, b, c, d])

/-- Truncating division toward zero. -/
def truncDiv (a : Int) (b : Nat) : Int := if a < 0 then -((-a) / b) else a / b

/-- A branch report. -/
def xBranch (w : Word) (o : Bool) : Word :=
  let b := if o then 1 else 0
  let streak := xf w 3
  let s' := if streak / 2 ^ 15 = b && streak % 2 ^ 15 > 0 then b * 2 ^ 15 + min (streak % 2 ^ 15 + 1) 0x7FFF else b * 2 ^ 15 + 1
  xw (if o then sat16 (xf w 0 + 1) else xf w 0) (if o then xf w 1 else sat16 (xf w 1 + 1)) ((xf w 2 * 2 + b) % 2 ^ 16) s'

/-- Bucket of a latency (R141). -/
def latBucket (c : Nat) : Nat := if c ≤ 8 then 0 else if c ≤ 64 then 1 else if c ≤ 1024 then 2 else 3
/-- A load report. -/
def xLoad (w : Word) (c : Nat) : Word :=
  let b := latBucket c
  let f := fun i => if i = b then sat16 (xf w i + 1) else xf w i
  xw (f 0) (f 1) (f 2) (f 3)
/-- A loop report. -/
def xLoop (w : Word) (seeded : Bool) (t : Nat) : Word :=
  let tf := min (t * 256) 0xFFFF
  let ema := if xf w 2 = 0 && !seeded then (tf : Int) else (xf w 1 : Int) + truncDiv ((tf : Int) - xf w 1) 8
  let last := min t 0xFFFF
  xw last ema.toNat (sat16 (xf w 2 + 1)) (max (xf w 3) last)

/-- Kind of a slot (R140): 4 to 255 are treated as free. -/
def slotKind (w0 : Word) : Nat := let k := fld w0 7 0; if k ≤ 3 then k else 0
def slotSeeded (w0 : Word) : Bool := w0.getLsbD 8
def slotFrozen (w0 : Word) : Bool := w0.getLsbD 9

/-- A report applied to word 1, by the slot's kind. -/
def xApply (w0 w1 : Word) : XRep → Word
  | .outcome o => xBranch w1 o
  | .latency c => xLoad w1 c
  | .trip t => xLoop w1 (slotSeeded w0) t

/-- A report counted in a contribution. -/
def XContrib.add (x : XContrib) : XRep → XContrib
  | .outcome o => { x with n := x.n + 1, c0 := if o then sat16 (x.c0 + 1) else x.c0, c1 := if o then x.c1 else sat16 (x.c1 + 1) }
  | .latency c =>
    let b := latBucket c
    { n := x.n + 1, c0 := if b = 0 then sat16 (x.c0 + 1) else x.c0, c1 := if b = 1 then sat16 (x.c1 + 1) else x.c1
      c2 := if b = 2 then sat16 (x.c2 + 1) else x.c2, c3 := if b = 3 then sat16 (x.c3 + 1) else x.c3 }
  | .trip _ => { x with n := x.n + 1 }

/-- An empty contribution. -/
def XContrib.none : XContrib := { n := 0, c0 := 0, c1 := 0, c2 := 0, c3 := 0 }

/-- The report that XNOTE's value makes to a slot of a kind (R155). -/
def noteRep (kind : Nat) (v : Nat) : Option XRep :=
  match kind with
  | 1 => some (.outcome (v % 2 == 1))
  | 2 => some (.latency v)
  | 3 => some (.trip (v % 2 ^ 32))
  | _ => Option.none

/-- Saturating count of mismatched reports (R143). -/
def Core.mismatch (k : Core) (n : Nat) : Core := { k with xmis := BitVec.ofNat 32 (min (k.xmis.toNat + n) 0xFFFFFFFF) }

/-- A report against word 0 of a filled entry: discarded when frozen; discarded and counted on a mismatch; none when it stands
(R143). XNOTE requires any kind but free; its value is carried as a latency until the kind is known. -/
def xVerdict (w0 : Word) (site : Word) (h : XHeld) : Option XRep × Bool :=
  let rep := match h.kind with | some _ => some h.rep | Option.none => (match h.rep with | .latency v => noteRep (slotKind w0) v | r => some r)
  let ok := slotKind w0 != 0 && (match h.kind with | some k => k == slotKind w0 | Option.none => true) && fld w0 63 32 == site.toNat % 2 ^ 32
  if slotFrozen w0 then (Option.none, false) else if !ok then (Option.none, true) else (rep, false)

/-- A report applied to an entry whose view is held (R144). -/
def XEnt.take (e : XEnt) (text : Word) (h : XHeld) : XEnt × Bool :=
  match e.view with
  | Option.none => ({ e with held := e.held ++ [h] }, false)
  | some v =>
    match xVerdict e.w0 (h.pc - text) h with
    | (Option.none, mis) => (e, mis)
    | (some r, _) =>
      ({ e with view := some (xApply e.w0 v r), contrib := e.contrib.add r, merging := e.merging.map fun p => (p.1, p.2 ++ [r]) }, false)

/-! ### Merges and fills -/

/-- Address of a slot of a launch's instance. -/
def State.slotVa (s : State) (launch slot : Nat) : Word :=
  match s.launch launch with
  | some l => descW l.desc 3 + BitVec.ofNat 64 (16 * slot)
  | Option.none => 0

/-- Tenant of a launch. -/
def State.launchTenant (s : State) (launch : Nat) : BitVec 16 :=
  match s.launch launch with | some l => l.tenant | Option.none => 0
/-- Mode of a launch. -/
def State.launchSup (s : State) (launch : Nat) : Bool :=
  match s.launch launch with | some l => l.sup | Option.none => false

/-- A request of the core for its experience cache, made for the launch. -/
def State.xAsker (s : State) (core launch : Nat) : Asker :=
  { agent := .copy core, tenant := s.launchTenant launch, launch := BitVec.ofNat 32 launch, sup := s.launchSup launch, regions := 0 }

/-- An entry whose contribution is on its way to its home, as merge number id. -/
def XEnt.sent (id : Nat) (e : XEnt) : XEnt := { e with contrib := XContrib.none, merging := e.merging ++ [(id, [])] }

/-- Send the merge of an entry that has a contribution (R147, R148); `ask` is the XFLUSH that waits for it. -/
def State.sendMerge (s : State) (core : Nat) (e : XEnt) (ask : Option (Asker × Nat)) : State :=
  if e.contrib.n = 0 then s
  else
    let c := e.contrib
    let (a, tag) := ask.getD (s.xAsker core e.launch, 0)
    let id := (s.core core).xnext
    let s := s.onCore core fun k =>
      { k with xnext := id + 1, xcache := k.xcache.map fun x => if x.id == e.id then x.sent id else x }
    s.send (.req { who := a, place := .glob (s.slotVa e.launch e.slot)
                   op := .merge core e.launch e.slot id c.n c.c0 c.c1 c.c2 c.c3 (e.view.getD 0), tag := tag, lane := Option.none })

/-- The entry holds reports and waits for its fill. -/
def XEnt.unfilled (e : XEnt) : Bool := !e.gone && e.view.isNone && !e.held.isEmpty
/-- An unfilled entry given up: its reports are merged when the fill lands. -/
def XEnt.giveUp (ask : Option (Asker × Nat)) (e : XEnt) : XEnt := { e with gone := true, ask := ask }

/-- Merge every entry of a core that a test picks (R147): the number of merges to wait for. -/
def State.mergeWhere (s : State) (core : Nat) (p : XEnt → Bool) (ask : Option (Asker × Nat)) : State × Nat :=
  let l := (s.core core).xcache
  let go := fun (e : XEnt) => p e && e.contrib.n != 0
  let s := (l.filter go).foldl (fun s e => s.sendMerge core e ask) s
  (s.onCore core fun k => { k with xcache := k.xcache.map (fun e => if p e && e.unfilled then e.giveUp ask else e) },
   (l.filter fun e => go e || (p e && e.unfilled)).length)

/-- Make room for one more entry among 32 (R144): the entries kept, and the one evicted. -/
def xEvict (l : List XEnt) : List XEnt × Option XEnt :=
  let live := l.filter fun e => !e.gone
  if live.length < 32 then (l, Option.none)
  else match live.getLast? with
    | Option.none => (l, Option.none)
    | some v =>
      if v.unfilled then (l.map fun e => if e = v then e.giveUp Option.none else e, Option.none)
      else (l.filter (· != v), some v)

/-- Allocate an entry and ask for its fill (R144). -/
def State.xAlloc (s : State) (core launch slot : Nat) (held : List XHeld) (answer : Option (Asker × Nat)) : State :=
  let (keep, out) := xEvict (s.core core).xcache
  let s := match out with | some e => s.sendMerge core e Option.none | Option.none => s
  let id := (s.core core).xnext
  let e : XEnt :=
    { id := id, launch := launch, slot := slot, w0 := 0, view := Option.none, contrib := XContrib.none, held := held, merging := []
      gone := false, ask := Option.none }
  let s := s.onCore core fun k => { k with xcache := e :: keep, xnext := id + 1 }
  let (a, tag) := answer.getD (s.xAsker core launch, 0)
  s.send (.req { who := a, place := .glob (s.slotVa launch slot), op := .xread core launch slot (some id) answer.isSome, tag := tag, lane := Option.none })

/-- The entry is the one of a slot. -/
def XEnt.isAt (e : XEnt) (launch slot : Nat) : Bool := !e.gone && e.launch == launch && e.slot == slot

/-- Replace a slot's entry where it stands. -/
def xPut (l : List XEnt) (e : XEnt) : List XEnt := l.map fun x => if x.isAt e.launch e.slot = true then e else x

/-- The entry of a slot, and the others. -/
def xFind (l : List XEnt) (launch slot : Nat) : Option XEnt := l.find? fun e => e.isAt launch slot

/-- Put an entry in front, as the one used last. -/
def xFront (l : List XEnt) (e : XEnt) : List XEnt := e :: l.filter fun x => !x.isAt e.launch e.slot

/-- Slots of a launch's instance. -/
def State.slotCount (s : State) (launch : Nat) : Nat :=
  match s.launch launch with
  | some l => (match s.imageOf l.tenant (descW l.desc 3) with | some i => i.xbytes.length / 16 | Option.none => 0)
  | Option.none => 0
/-- Start of the text of a launch's image. -/
def State.textOf (s : State) (launch : Nat) : Word :=
  match s.launch launch with
  | some l => (match s.imageOf l.tenant (descW l.desc 3) with | some i => i.text | Option.none => 0)
  | Option.none => 0

/-- A report to a slot of the core's experience cache (R142 to R144). -/
def State.xTake (s : State) (core : Nat) (part : Word) (launch : Nat) (slot : BitVec 16) (h : XHeld) : State :=
  if slot = 0xFFFF || partFrzx part then s
  else if slot.toNat ≥ s.slotCount launch then s.onCore core fun k => k.mismatch 1
  else
    match xFind (s.core core).xcache launch slot.toNat with
    | some e =>
      let (e, mis) := e.take (s.textOf launch) h
      s.onCore core fun k =>
        let k := { k with xcache := xFront k.xcache e }
        if mis then k.mismatch 1 else k
    | Option.none => s.xAlloc core launch slot.toNat [h] Option.none

/-- A report of a thread to a slot; a pair keeps it until its next replay point (R151). -/
def State.xReport (s : State) (core : Nat) (part : Word) (launch : Nat) (slot : BitVec 16) (h : XHeld) : State :=
  let s := s.xTake core part launch slot h
  if partPair part && slot != 0xFFFF then
    { s with rel := { s.rel with reports := tset s.rel.reports core (tgetD s.rel.reports core [] ++ [(launch, slot, h)]) } }
  else s

/-- The merge of a contribution into a slot at its home (R149). -/
def xMerge (w0 m v : Word) (n c0 c1 c2 c3 : Nat) : Word :=
  match slotKind w0 with
  | 1 =>
    let k := min n 16
    let hist := (xf m 2 * 2 ^ k + xf v 2 % 2 ^ k) % 2 ^ 16
    let d := xf v 3 / 2 ^ 15
    let len := xf v 3 % 2 ^ 15
    let kk := min n 0x7FFF
    let streak :=
      if len ≥ kk then
        if xf m 3 / 2 ^ 15 = d && xf m 3 % 2 ^ 15 > 0 then d * 2 ^ 15 + min (xf m 3 % 2 ^ 15 + kk) 0x7FFF else d * 2 ^ 15 + kk
      else xf v 3
    xw (sat16 (xf m 0 + c0)) (sat16 (xf m 1 + c1)) hist streak
  | 2 => xw (sat16 (xf m 0 + c0)) (sat16 (xf m 1 + c1)) (sat16 (xf m 2 + c2)) (sat16 (xf m 3 + c3))
  | 3 =>
    let ema : Int := if xf m 2 = 0 && !slotSeeded w0 then xf v 1 else (xf m 1 : Int) + truncDiv (((xf v 1 : Int) - xf m 1) * (min n 8 : Nat)) 8
    xw (xf v 0) ema.toNat (sat16 (xf m 2 + n)) (max (xf m 3) (xf v 3))
  | _ => m

/-- The two words of a slot at its home, or refused; reading them is a load of the instance (R144, R152). -/
def State.readSlot (s : State) (a : Asker) (va : Word) : Option (Word × Word × Xl) × State :=
  match s.gCheck0 a .load false true va (byteMask (fld va 5 0) 16) with
  | (.error _, s) => (Option.none, s)
  | (.ok x, s) =>
    let off := fld va 5 0
    let (l, s) := s.readXl a.tenant x
    let l := s.withInst a va l
    (some (BitVec.ofNat 64 (fromByte l off 8), BitVec.ofNat 64 (fromByte l (off + 8) 8), x), s)

/-- Serve a merge at the slot's home, one atomic access of 16 bytes (R148): word 1 after it, or refused; none while it waits as an
atomic there does. -/
def State.serveMerge (s : State) (a : Asker) (va : Word) (n c0 c1 c2 c3 : Nat) (v : Word) : Option (Option Word × State) :=
  match s.readSlot a va with
  | (Option.none, s) => some (Option.none, s)
  | (some (w0, w1, x), s) =>
    if s.replHeld x || !s.logRoom (x.pa / 64 * 64) then Option.none
    else
      let w := xMerge w0 w1 v n c0 c1 c2 c3
      some (some w, (s.instPut a.launch va w).fireGlob a va 16 x.pa 3)

/-- Apply the held reports of an entry to the fetched slot (R144): the entry, and the reports that count as mismatched. One that does not
match the fetched word 0 discards everything held; the model counts each report so discarded (log entry 79). -/
def XEnt.fill (e : XEnt) (text w0 w1 : Word) : XEnt × Nat :=
  let x := { e with w0 := w0, view := some w1, held := [] }
  if e.held.any fun h => (xVerdict w0 (h.pc - text) h).2 then (x, e.held.length)
  else (e.held.foldl (fun x h => (x.take text h).1) x, 0)

/-- A fill lands (R144): the held reports are applied in order to the fetched slot; a refused fill drops the entry. An entry
given up meanwhile is merged now. -/
def State.landFill (s : State) (core launch slot id : Nat) (w : Option (Word × Word)) : State :=
  match (s.core core).xcache.find? fun e => e.id == id with
  | Option.none => s
  | some e =>
    if !e.gone then
      match w with
      | Option.none => s.onCore core fun k => ({ k with xcache := k.xcache.erase e }).mismatch e.held.length
      | some (w0, w1) =>
        let (x, mis) := e.fill (s.textOf launch) w0 w1
        s.onCore core fun k => ({ k with xcache := xPut k.xcache x }).mismatch mis
    else
    let (x, mis) := match w with
      | some (w0, w1) => e.fill (s.textOf launch) w0 w1
      | Option.none => (e, e.held.length)
    let s := s.onCore core fun k => ({ k with xcache := k.xcache.erase e }).mismatch mis
    if x.contrib.n != 0 then s.sendMerge core x e.ask
    else match e.ask with
      | some (a, tag) => (match a.thread? with | some w => s.send (.mergeReply core launch slot id Option.none 0 (some (w, tag))) | Option.none => s)
      | Option.none => s

/-- A merge is answered (R148): the returned value, with the reports made since the merge was sent on top, is the view; a refused merge is
lost (R144). -/
def State.landMerge (s : State) (core launch slot id : Nat) (w1 : Option Word) (n : Nat) : State :=
  let s := if w1.isNone then s.onCore core fun k => k.mismatch n else s
  match xFind (s.core core).xcache launch slot with
  | Option.none => s
  | some e =>
    match tget e.merging id with
    | Option.none => s
    | some since =>
      let view := match w1 with | some w => some (since.foldl (xApply e.w0) w) | Option.none => e.view
      s.onCore core fun k => { k with xcache := xPut k.xcache { e with view := view, merging := tdel e.merging id } }

/-- Merges of a launch's entries on a core that have not been acknowledged (R159). -/
def State.mergesOut (s : State) (core launch : Nat) : Bool :=
  let isM := fun (r : Req) => match r.op with | .merge c l _ _ _ _ _ _ _ _ => c == core && l == launch | _ => false
  (s.core core).xcache.any (fun e => e.gone && e.launch == launch) || s.homes.any isM || s.chan.any fun m => match m.body with
    | .req r => isM r
    | .mergeReply c l _ _ _ _ _ => c == core && l == launch
    | _ => false

end Sys2Proof.Machine
end

