-- ==== Sys2Proof/Machine/Ops.lean ====
section
/-! DEFINITION. Ops.lean: what every instruction shares: taking a trap and returning from one, the end of a thread, parks, long
results, and the checks of an issue (R47, R78, R82 to R86, R175 to R177, R275 to R277, R349, R352 to R356, R370). -/
namespace Sys2Proof.Machine

/-! ### Status words (R92) -/

/-- Combine two status words (R92). -/
def combine (a b : BitVec 32) : BitVec 32 :=
  let sev := max (fld a 31 24) (fld b 31 24)
  let cnt := min (fld a 23 8 + fld b 23 8) 0xFFFF
  BitVec.ofNat 32 (sev * 2 ^ 24 + cnt * 2 ^ 8 + ((a ||| b).toNat % 256))

/-- Status word of a thread that exits with a code (R92). -/
def exitWord (code : BitVec 32) : BitVec 32 := if code = 0 then 0 else 0x01000101
/-- Status word of a thread ended by an unhandled trap (R92). -/
def trapWord : BitVec 32 := 0x02000103

/-! ### Residents of a core -/

/-- Change a launch's record on a core. -/
def Core.onResident (k : Core) (l : BitVec 32) (f : Resident → Resident) : Core :=
  { k with residents := k.residents.map fun r => if r.launch = l then f r else r }

/-! ### Slots (R303) -/

/-- Release a slot, at once or when the card that names it retires. -/
def State.freeSlot (s : State) (core i : Nat) : State :=
  let busy := s.slotBusy core i
  s.onCore core fun k => { k with slots := tset k.slots i (if busy then { by' := (k.slot i).by', pending := true } else { by' := .free, pending := false }) }

/-- Release every slot that a thread holds. -/
def State.freeSlotsOf (s : State) (w : Who) : State :=
  (upTo 32).foldl (fun s i => if ((s.core w.core).slot i).by' = .ctx w then s.freeSlot w.core i else s) s

/-! ### The end of a thread (R96, R102, R111) -/

/-- LEAVE from an ending thread to each of its groups, and to the launch's own (R96). -/
def leaveAll (w : Who) (c : Ctx) : List Body :=
  .arrive w c.launch 0 true :: (c.handles.filter fun h => h.handle != 0).map fun h => .group w c.launch h.handle false none

/-- A context after its thread has ended: the incarnation stays, and it takes no thread for 16 turns (R91). -/
def Ctx.freed (c : Ctx) : Ctx := { Ctx.reset with inc := c.inc, reuse := 16, nextTag := c.nextTag }

/-- End the thread of a context, contributing a status word (R92, R111 from step 2). -/
def State.endThread (s : State) (core x : Nat) (word : BitVec 32) : State :=
  let c := s.ctx core x
  let w := s.who core x
  -- a write stream is drained by the copy unit (R279)
  let drops := c.streams.filter fun p => p.2.wr && !p.2.out.isEmpty
  let s := s.sendAll (leaveAll w c)
  let s := s.onCore core fun k =>
    let k := k.setCtx x c.freed
    let k := k.onResident c.launch fun r =>
      { r with live := r.live - 1, status := combine r.status word, left := r.left ++ c.sb.map fun e => (w, e) }
    let k := drops.foldl (fun k p => k.addCopy core ((askerOf c w).engine (.copy core)) (.sdrop (BitVec.ofNat 5 p.1) p.2) 0) k
    { k with capHold := if tget k.capHold (x % 8) = some x then tdel k.capHold (x % 8) else k.capHold
             idleSince := s.now, lived := (s.now, s.now - c.start) :: k.lived.filter fun p => decide (s.now < p.1 + 1000000)
             claims := k.claims.filter fun q => q.who != some w }
  let s := s.freeSlotsOf w
  let s := s.onLaunch c.launch.toNat fun l => { l with ended := l.ended + 1 }
  -- the launch's last exit on the core merges its experience (R111, R147)
  if (s.core core).residents.any fun r => r.launch == c.launch && r.live == 0 then
    -- and drops the tiles that its CLB holds for it (R253)
    (s.onCore core fun k => { k with clb := k.clb.filter fun t => t.launch != c.launch.toNat }).mergeWhere core (fun e => e.launch == c.launch.toNat) none |>.1
  else s

/-! ### Taking a trap (R349, R350) -/

/-- PAIR and SECOND of %trapinfo (R350). -/
def pairBits (half : Nat) : Nat := match half with | 0 => 0 | 1 => 2 ^ 17 | _ => 2 ^ 17 + 2 ^ 16

/-- A planker capture that is still forming (R175). -/
def Capture.forming (p : Capture) : Bool := decide (p.code.length < p.n)
/-- A planker capture with reissues left (R176). -/
def Capture.busy (p : Capture) : Bool := !p.forming && decide (p.next < p.n * p.k)

/-- Give up a context's capture (R175). -/
def State.dropCapture (s : State) (core x : Nat) : State :=
  (s.onCtx core x fun c => { c with cap := none }).onCore core fun k =>
    { k with capHold := if tget k.capHold (x % 8) = some x then tdel k.capHold (x % 8) else k.capHold }

/-- Causes (R351). -/
def ILLEGAL_INSN : BitVec 8 := 0x01
def BAD_LINE : BitVec 8 := 0x02
def BAD_TARGET : BitVec 8 := 0x03
def PENDING_WRITE : BitVec 8 := 0x04
def PRIV_INSN : BitVec 8 := 0x05
def SYNC_LIMIT : BitVec 8 := 0x06
def BAD_ADDR : BitVec 8 := 0x07
def MISALIGN : BitVec 8 := 0x08
def WINDOW : BitVec 8 := 0x09
def ACC_BUSY : BitVec 8 := 0x0A
def GROUP_USE : BitVec 8 := 0x0B
def REP_USE : BitVec 8 := 0x0C
def STORE_SPILL : BitVec 8 := 0x0D
def VOL_ENTRY : BitVec 8 := 0x0E
def VOL_BOUNDS : BitVec 8 := 0x0F
def VOL_POOL : BitVec 8 := 0x10
def XFER_USE : BitVec 8 := 0x11
def XFER_FAULT : BitVec 8 := 0x12
def BAD_CARD : BitVec 8 := 0x13
def TILE_USE : BitVec 8 := 0x14
def PEER_USE : BitVec 8 := 0x15
def PEER_TIMEOUT : BitVec 8 := 0x16
def TRAP_INSN : BitVec 8 := 0x17
def JNL_USE : BitVec 8 := 0x18
def CTX_USE : BitVec 8 := 0x19
def BREAK : BitVec 8 := 0x1A
def LOAD_FAULT : BitVec 8 := 0x20
def STORE_REFUSED : BitVec 8 := 0x21

/-- Deliver a trap to a context's thread (R349): unhandled, the thread ends; else the five registers are written and the next
issue enters the handler. An exact trap abandons a capture that is forming, and REP_USE any capture (R175). -/
def State.deliver (s : State) (core x : Nat) (t : Taken) : State :=
  let s := if (s.ctx core x).cap.any Capture.forming || t.cause = REP_USE then s.dropCapture core x else s
  let c := s.ctx core x
  if c.hnd || c.regs.trapvec == 0 then s.endThread core x trapWord
  else s.setCtx core x { c with
    trapcause := t.cause, trapaddr := t.addr, trapinfo := t.info, trappc := c.pc, hnd := true
    pc := c.regs.trapvec, npc := c.regs.trapvec, entry := true, run := .ready, want := .nothing, popped := [], answer := none, stepping := false }

/-- Take a trap at the issuing context: recorded for the pair inside a pair, delivered otherwise (R34, R349). -/
def State.trapInfo (s : State) (cause : BitVec 8) (addr : Word) (info : Nat) : State :=
  let t : Taken := { cause := cause, addr := addr, info := BitVec.ofNat 64 (info + pairBits (if s.cx.half = 0 then s.cx.pairOf else s.cx.half)) }
  let s := { s with took := some t }
  if s.cx.half = 0 then s.deliver s.me.1 s.me.2 t else s

/-- Take a trap with a subcode. -/
def State.trap (s : State) (cause : BitVec 8) (addr : Word) (sub : Nat := 0) : State := s.trapInfo cause addr sub

/-- LOAD_FAULT of an instruction that parks until it is answered, or of a fetch: REPLAY 0 (R352, R452). -/
def State.loadFault (s : State) (kind : BitVec 8) (addr : Word) : State := s.trapInfo LOAD_FAULT addr (kind.toNat * 256)

/-! ### Requests (R207) -/

/-- A request leaves its thread: a .l atomic, synchronising access or change of a bit is performed at the core's own port at once; any
other goes into the channels (R207). -/
def State.sendReq (s : State) (r : Req) : State :=
  match r.place, r.op with
  | .pool core off false ea, .atom op wd b cmp =>
    (match s.pAtom r.who core off false ea op wd b cmp with
     | .done l s => s.reply r l 0 none
     | .fail f s => s.reply r 0 0 (some f)
     | _ => s)
  | .pool core off false ea, .lds | .pool core off false ea, .sts _ | .pool core off false ea, .ldf
  | .pool core off false ea, .feset | .pool core off false ea, .feclr => s.pSync r core off false ea
  | _, _ => s.send (.req r)

/-! ### Returning from a trap (R353, R370) -/

/-- Resend the requests of the replay list in record order, and empty it (R353). A load that has faulted reports no latency (R142). -/
def State.replayAll (s : State) (core x : Nat) : State :=
  let c := s.ctx core x
  let ps := c.replay.filterMap fun r => c.pend.find? fun p => p.tag == r.tag
  let s := s.setCtx core x { c with
    replay := []
    pend := c.pend.map fun p => if c.replay.any (fun r => r.tag == p.tag) then { p with left := p.reqs.length, got := 0, xs := 0xFFFF } else p }
  (ps.map Pend.reqs).flatten.foldl State.sendReq s

/-- ERET (R370): clear HND and resume at %trappc, the replay list resent. -/
def State.eretRetry (s : State) : State :=
  let s := s.replayAll s.me.1 s.me.2
  s.onCx fun c => { c with hnd := false, pc := c.trappc, npc := c.trappc, entry := false }

/-- The PC n instructions after a PC (R31). -/
def pcAfter (pc : Word) : Nat → Word
  | 0 => pc
  | n + 1 =>
    let p := pcAfter pc n
    if fld p 2 0 = 4 then (p &&& ~~~7#64) + 64 else p + 1

/-- ERET.next (R370): clear HND, discard the replay list and its pending results (R353), resume past the issue at %trappc. -/
def State.eretNext (s : State) : State :=
  s.onCx fun c =>
    let pc := pcAfter c.trappc (if c.trapinfo.getLsbD 17 then 2 else 1)
    { c with hnd := false, pc := pc, npc := pc, entry := false, bpPass := []
             pend := c.pend.filter fun p => !c.replay.any (fun r => r.tag == p.tag)
             replay := [] }

/-! ### Parks (R78) -/

/-- Park the issuing context. -/
def State.park (s : State) (kind : PKind) (cond : PCond) (k : Cont) (limited : Bool := false) : State :=
  s.onCx fun c => { c with run := .parked kind cond k limited, syncTurns := 0, due := false }

/-- PC of the instruction that is performed: the second of a pair stands one further (R31, R34). -/
def State.pcNow (s : State) : Word := if s.cx.half = 2 then s.cx.pc + 1 else s.cx.pc

/-! ### Long results (R82 to R86) -/

/-- A long result that leaves nothing pending (R83): addressed to g0 or p0. -/
def Dest.discarded : Dest → Bool
  | .g r _ _ => r == 0
  | .p r => r == 0
  | _ => false

/-- The specifier of a destination. -/
def Dest.spec : Dest → Option (BitVec 8)
  | .none => Option.none
  | .g r _ _ => some (gSpec r)
  | .p r => some (pSpec r)
  | .v r _ => some (vSpec r)

/-- A long result issued now, before its requests are known. -/
def State.newPend (s : State) (d : Dest) : Pend :=
  { tag := s.cx.nextTag, dest := d, reqs := [], since := s.cycle, pc := s.pcNow, xs := 0xFFFF, fill := false, acq := false
    fwd := 0, fmask := 0, left := 1, got := 0, shape := .plain, flags := 0, landed := false }

/-- Enter a long result in the context. One that is discarded leaves nothing pending (R83); its request is kept in the list for what its
reply brings besides: a fault, a fill, an acquire, a latency. -/
def State.addPend (s : State) (p : Pend) : State := s.onCx fun c => { c with nextTag := p.tag + 1, pend := c.pend ++ [p] }

/-- The long results outstanding (R83, R86). -/
def Ctx.longs (c : Ctx) : List Pend := c.pend.filter fun p => !p.dest.discarded

/-- Start a long result: enter it and send its requests. -/
def State.startLong (s : State) (p : Pend) : State := p.reqs.foldl State.sendReq (s.addPend p)

/-- A request of the issuing thread. -/
def State.reqFor (s : State) (place : Place) (op : ROp) (tag : Nat) : Req :=
  { who := s.asker, place := place, op := op, tag := tag, lane := none }

/-- Start a long result of one request. -/
def State.long1 (s : State) (d : Dest) (place : Place) (op : ROp) : State :=
  let p := s.newPend d
  s.startLong { p with reqs := [s.reqFor place op p.tag] }

/-- The answer to a request that needs no home: it lands like any reply. -/
def State.answerNow (s : State) (tag : Nat) (data : Line) (flags : BitVec 6) : State :=
  let w := s.whoMe
  s.onCx fun c => { c with landing := c.landing ++ [{ dst := w, tag := tag, data := data, flags := flags, fault := none, lane := none }] }

/-- Start a long result whose value the core itself forms: a divider, a hit (R121, R166, R207). -/
def State.longValue (s : State) (p : Pend) (data : Line) (flags : BitVec 6) : State :=
  if p.dest.discarded && p.xs = 0xFFFF then s.onCx fun c => { c with nextTag := p.tag + 1 }
  else (s.addPend p).answerNow p.tag data flags

/-- Every outstanding long result of the context waits in the replay list, or none is outstanding (R85, R352). -/
def Ctx.noLong (c : Ctx) : Bool := c.longs.all fun p => p.left == 0 && c.replay.any fun r => r.tag == p.tag

/-! ### Stream registers (R275 to R277) -/

/-- Byte offset of strip n from the stream's base (R275). -/
def Stream.off (st : Stream) (n : Nat) : Nat :=
  let i0 := n % st.n0
  let i1 := n / st.n0 % st.n1
  let i2 := n / (st.n0 * st.n1)
  (st.start.toNat + i2 * st.p2.toNat + i1 * st.p1.toNat + i0 * 64) % 2 ^ 64

/-- Strips of a stream; an entry that failed its checks arms none (R291). -/
def Stream.total (st : Stream) : Nat := st.n0 * st.n1 * st.n2

/-- The outcome of looking at the streams that an instruction names. -/
inductive StreamV
  | ok
  /-- not yet: a strip to be read has not arrived, or a stream to be written has not been accepted -/
  | wait (v : VReg) (read : Bool)
  | use
  | fault (v : VReg) (f : RFault)
deriving DecidableEq, Repr

/-- Check one source register (R276, R277). -/
def srcStream (c : Ctx) (v : VReg) : StreamV :=
  match tget c.streams v.toNat with
  | none => .ok
  | some st =>
    if st.wr then .use
    else if !st.ready then .wait v true
    else match st.ahead, st.fault with
    | (_, none) :: _, _ => .ok
    | (_, some f) :: _, _ => .fault v f
    | [], some f => .fault v f
    | [], none => if st.next ≥ st.total then .use else .wait v true

/-- Check one destination register (R276, R277). -/
def dstStream (c : Ctx) (v : VReg) : StreamV :=
  match tget c.streams v.toNat with
  | none => .ok
  | some st =>
    if !st.wr then .use
    else if !st.ready then .wait v false
    else if st.next < st.total then .ok
    else match st.total, st.fault with
    | 0, some f => .fault v f
    | _, _ => .use

/-- The first outcome that is not ok. -/
def firstV : List StreamV → StreamV
  | [] => .ok
  | .ok :: t => firstV t
  | x :: _ => x

/-- All stream checks of an instruction: sources, then destinations. -/
def streamCheck (c : Ctx) (u : Use) : StreamV :=
  if c.streams.isEmpty then .ok else firstV (u.vs.map (srcStream c) ++ u.dv.map (dstStream c))

/-- Pop a strip into its register: the thread and its pair read it there (R276). -/
def popStream (c : Ctx) (v : VReg) : Ctx :=
  match tget c.streams v.toNat with
  | none => c
  | some st =>
    if st.wr then c
    else match st.ahead with
    | (l, none) :: rest =>
      { c with
        streams := tset c.streams v.toNat { st with ahead := rest, next := st.next + 1, last := l }
        regs := c.regs.setV v l
        view := c.view.map fun r => r.setV v l }
    | _ => c

/-- Push a register to its write stream (R277). -/
def pushStream (c : Ctx) (mask : BitVec 64) (v : VReg) : Ctx :=
  match tget c.streams v.toNat with
  | none => c
  | some st =>
    if !st.wr then c
    else
      let st' : Stream := { st with next := st.next + 1, out := st.out ++ [(st.off st.next, c.regs.getV v, mask)] }
      { c with streams := tset c.streams v.toNat st' }

/-- Bytes of its v destination that an instruction writes, by its guard (R162, R168, R277). -/
def writtenBytes (i : Instr) (r : Regs) : BitVec 64 :=
  let u := usesOf i
  let gm := r.gmask u.h
  let some16 := fun (w part : Nat) =>
    (upTo 16).foldl (fun m j => if gm.getLsbD j then m ||| byteMask ((16 * part + j) * (w / 8)) (w / 8) else m) (0 : BitVec 64)
  match i with
  | .vcvt _ _ part t src _ _ => if t.bits < src.bits then some16 t.bits part.toNat else laneBytes gm 16
  | .vsrnd _ part _ _ _ _ _ => some16 16 part.toNat
  | _ => if u.lanes then laneBytes gm 16 else BitVec.allOnes 64

/-! ### The checks of an issue (R47) -/

/-- What the checks decide. -/
inductive Verdict
  | go
  | skip
  | park (kind : PKind) (cond : PCond) (limited : Bool)
  | trap (cause : BitVec 8) (addr : Word) (info : Nat)
  /-- STORE_REFUSED of a journal entry -/
  | refused (j : Nat)
  /-- a page-fault save (R354) -/
  | page
deriving DecidableEq, Repr

/-- Privilege (R46, R348): SUP, HND for ERET, a service launch for GRAB. -/
def privOk (s : State) : Instr → Bool
  | .csrr .. | .csrw .. | .tlbinvPage .. | .tlbinvTenant .. | .tlbinvAll .. | .ctxsv .. | .ctxld .. | .wpset .. | .wpclr .. => s.cx.sup
  | .eret _ | .eretNext _ => s.cx.hnd
  | .grabTake .. | .grabSet .. => (match s.launch s.cx.launch.toNat with | some l => l.service | none => false)
  | _ => true

/-- The instruction starts a long result, if it is performed (R82, R86). -/
def startsLong (r : Regs) (c : Ctx) : Instr → Bool
  | .div .. | .divImm .. | .divu .. | .divuImm .. | .rem .. | .remImm .. | .remu .. | .remuImm .. | .vdiv .. | .vsqrt .. => true
  | .join .. | .leave .. | .chkptr .. | .cntrd .. | .tdget .. => true
  | .ginfoSize _ _ a | .ginfoRank _ _ a => (r.getG a).setWidth 32 != (0 : BitVec 32)
  | .ld _ _ _ _ _ m | .vld _ _ _ _ m | .ldacq _ _ _ m => m.am != .l
  | .feset .. | .feclr .. | .atom .. => true
  | .strel _ _ _ m => m.am != .l
  | .vldx _ cm .. => cm
  | .xrd .. | .xsel .. | .xunr .. | .xpfd .. | .xflush _ => true
  | .cld .. | .cvld .. | .cprobe .. | .clbinv .. => true
  | .cpy .. | .deal .. | .sarm .. | .get .. | .put .. | .card .. => true
  | .sdrop _ v => (match tget c.streams v.toNat with | some st => st.wr | none => false)
  | .tdset .. | .pget .. | .patom .. => true
  | .tlbinvPage .. | .tlbinvTenant .. | .tlbinvAll .. | .ctxsv .. | .ctxld .. | .wpset .. | .wpclr .. => true
  | .launch .. | .glaunch .. | .gnodeGraph .. | .gnodeNode .. | .gnodeEdge .. | .gnodeDrop .. | .gdone .. => true
  | .grabTake .. | .grabSet .. | .qstatLaunch .. | .qstatQueue .. | .qstatRange .. | .qstatInst .. => true
  | _ => false

/-- A destination of the instruction has a long result pending, or a remaining reissue will write it (R84, R177). -/
def pendingDest (c : Ctx) (ds : List (BitVec 8)) : Option (BitVec 8) :=
  ds.find? fun d => c.longs.any fun p => p.dest.spec == some d

/-- Registers of a captured instruction in repetition m (R175). -/
def stagger (m s : Nat) (v : VReg) : VReg := v + BitVec.ofNat 5 (m * s)

/-- Registers that the reissues left will write (R177); writes of g0 and p0 are discarded (R43). -/
def reissueDests (p : Capture) : List (BitVec 8) :=
  if !p.busy then []
  else (((upTo (p.n * p.k)).drop p.next).flatMap fun q =>
    match p.code[q % p.n]? with
    | some i =>
      let u := usesOf i
      u.dv.map (fun v => vSpec (stagger (q / p.n + 1) p.s v)) ++ u.dp.map pSpec ++ u.dg.map gSpec
    | none => []).filter fun d => d != gSpec 0 && d != pSpec 0

/-- A reissue left will write the destination (R177). -/
def reissueWrites (c : Ctx) (d : BitVec 8) : Bool :=
  match c.cap with
  | some p => (reissueDests p).contains d
  | none => false

/-- A refused store of the thread that waits to be taken: the oldest drained first (R356). -/
def Core.refusal (k : Core) (x : Nat) (inc : BitVec 16) : Option Nat :=
  (k.jnl.filter fun p => p.2.st == .refused && !p.2.taken && p.2.ctx == x && p.2.inc == inc).foldl
    (fun acc p => match acc with
      | some j => if (k.jent j).seq ≤ p.2.seq then some j else some p.1
      | none => some p.1) none

/-- The instruction waits as a marker does: its S bit, or the instruction itself (R78, R85). -/
def Use.marked (u : Use) : Bool := u.h.s || u.mark

/-- A capture forms and the instruction is one that it takes (R175). -/
def capturing (c : Ctx) (u : Use) : Bool := u.vec && c.cap.any Capture.forming

/-- The checks of an instruction that a forming capture takes (R175): subcodes 3 and 4 of REP_USE, whatever its guard. -/
def captureCheck (c : Ctx) (i : Instr) : Option Nat :=
  let u := usesOf i
  match c.cap with
  | none => none
  | some p =>
    if (match i with
        | .vdiv .. | .vsqrt .. | .fadd .. | .fmul .. | .ffma .. | .fcmp .. | .fcvt .. => true
        | _ => false) || u.v.any (fun v => (tget c.streams v.toNat).isSome) then some 3
    else if u.v.any fun v => decide (v.toNat + p.k * p.s ≥ partV c.part) then some 4
    else none

/-- Destinations that later repetitions of a captured instruction write (R175). -/
def laterDests (c : Ctx) (u : Use) : List (BitVec 8) :=
  match c.cap with
  | none => []
  | some p => (upTo p.k).flatMap fun m => u.dv.map fun v => vSpec (stagger (m + 1) p.s v)

/-- Check 7 of R47: a destination with a long result pending, or that a reissue left will write, where the guard performs the
instruction; for a captured instruction, also the destinations of its later repetitions (R84, R175, R177). -/
def pendingCheck (c : Ctx) (u : Use) (performed : Bool) : Option (BitVec 8) :=
  (if performed then (pendingDest c u.dests).or (u.dests.find? (reissueWrites c)) else none).or
    (if capturing c u then pendingDest c (laterDests c u) else none)

/-- Checks 2 to 7 of R47 for one instruction, and behind them the planker's and the streams' among its own traps. The wait for a 33rd
result, to which R47 gives no place, stands with the marker's park (log entry 70). -/
def verdict (s : State) (i : Instr) : Verdict :=
  let c := s.cx
  let u := usesOf i
  let r := s.rd
  if !u.allotted c.part then .trap ILLEGAL_INSN 0 0
  else if !privOk s i then .trap PRIV_INSN 0 0
  else if u.marked && !(c.noLong && !c.cap.any Capture.busy) then .park .marker (if c.noLong then .captured else .noLong) false
  else if u.vec && c.cap.any Capture.busy then .park .marker .captured false
  else if u.performed r && startsLong r c i && decide (c.longs.length ≥ Config.maxLong) then .park .marker (.longRoom 1) false
  else
    match (if u.marked then c.replay.find? (fun p => p.due && !p.fault.absent) else none) with
    | some f => .trap LOAD_FAULT f.fault.addr (f.fault.kind.toNat * 2 ^ 8 + c.replay.length * 2 ^ 32)
    | none =>
      if u.marked && c.replay.any Replay.due then .page
      else
        match (if c.hnd then none else s.mine.refusal s.me.2 c.inc) with
        | some j => .refused j
        | none =>
          match pendingCheck c u (u.performed r) with
          | some d => .trap PENDING_WRITE (d.setWidth 64) d.toNat
          | none =>
            match (if capturing c u then captureCheck c i else none) with
            | some sub => .trap REP_USE 0 sub
            | none =>
              if !u.performed r then .skip
              else
                match streamCheck c u with
                | .ok => .go
                | .wait v rd => .park .sync (.strip v) rd
                | .use => .trap XFER_USE 0 5
                | .fault v f => .trap XFER_FAULT f.addr ((vSpec v).toNat + f.kind.toNat * 256)

/-- Clear the record of a stream that a trap reports: of a refused strip, which is passed over, or of the stream (R290). -/
def clearStreamFault (c : Ctx) (info : Nat) : Ctx :=
  let v := info % 256 - 0x40
  match tget c.streams v with
  | none => c
  | some st =>
    { c with streams := tset c.streams v (match st.ahead with
      | (_, some _) :: rest => { st with next := st.next + 1, ahead := rest }
      | _ => { st with fault := none }) }

/-- A saved thread still expects messages under its old identity: a long result, an answer, or the release of a barrier (R363). -/
def Ctx.expects (c : Ctx) : Bool :=
  c.pend.any (fun p => !p.landed && !(p.left == 0 && c.replay.any fun r => r.tag == p.tag)) || c.handles.any (fun h => h.arrived || h.st != .member) ||
  (match c.run with | .parked _ (.reply _) _ _ => c.answer.isNone | _ => false)

/-- Save records in use (R363, R371): of threads saved by CTXSV, and of threads saved for a page that still expect messages. -/
def Core.saveCount (k : Core) : Nat := k.saves.length + (k.paged.filter fun p => p.2.1.expects).length

/-- Save a context that needs pages which are absent, named by the addresses it used (R354, R452): the thread keeps its records,
the context is freed, and the system cores are told. A save that needs a record waits while all 64 are in use (R363). -/
def State.savePaged (s : State) (core x : Nat) (pages : List Nat) : State :=
  let c := s.ctx core x
  if c.expects && decide ((s.core core).saveCount ≥ Config.saveRecords) then
    s.onCtx core x fun c => { c with run := .parked .sync .saveRoom .again false }
  else
  let s := pages.foldl (fun s p => s.tell (.pageFault c.tenant.toNat (fld (BitVec.ofNat 64 p) 56 12))) s
  -- what has been delivered and not landed goes on its way again, to the saved state (R362)
  let s := s.sendAll (c.landing.map Body.reply)
  s.onCore core fun k =>
    { k.setCtx x c.freed with
      idleSince := s.now
      capHold := if tget k.capHold (x % 8) = some x then tdel k.capHold (x % 8) else k.capHold
      paged := k.paged ++ [(x, { c with run := .ready, pageFault := true, stepping := false, landing := [], streams := c.streams.map fun p => (p.1, if p.2.wr then p.2 else { p.2 with ahead := [] }) }, pages.map fun p => (p, none))] }

/-- Addresses whose pages a context's records wait for. -/
def absentPages (c : Ctx) : List Nat := (c.replay.filter fun r => r.fault.absent).map fun r => r.fault.addr.toNat

/-- The records that LOAD_FAULT reports are taken; absent pages stay due (R352, R354). -/
def Ctx.faultTaken (c : Ctx) : Ctx :=
  { c with replay := c.replay.map fun r => if r.fault.absent then r else { r with due := false } }

/-- Act on a verdict that is neither go nor skip. -/
def State.refuse (s : State) : Verdict → State
  | .go | .skip => s
  | .park kind cond limited => s.park kind cond .again limited
  | .trap cause addr info =>
    let s := if cause = XFER_FAULT then s.onCx fun c => clearStreamFault c info
      else if cause = LOAD_FAULT then s.onCx Ctx.faultTaken else s
    s.trapInfo cause addr info
  | .refused j =>
    let e := s.mine.jent j
    let s := s.onMine fun k => { k with jnl := tset k.jnl j { e with taken := true } }
    s.trapInfo STORE_REFUSED e.line (e.kind.toNat * 2 ^ 8 + j * 2 ^ 24)
  | .page => s.savePaged s.me.1 s.me.2 (absentPages s.cx)

/-- Enter an instruction in a forming capture (R175). -/
def State.noteCapture (s : State) (i : Instr) : State :=
  match s.cx.cap with
  | some p =>
    if (usesOf i).vec && p.forming then s.onCx fun c => { c with cap := some { p with code := p.code ++ [i] } } else s
  | none => s

/-- None of the registers is a stream register (R276). -/
def noStream (c : Ctx) (l : List VReg) : Bool := l.all fun v => (tget c.streams v.toNat).isNone

/-- Strips that the instruction pops. -/
def State.popAll (s : State) (u : Use) : State :=
  if noStream s.cx u.vs then s else s.onCx fun c => u.vs.eraseDups.foldl popStream c

/-- Strips that the instruction pushes: a destination with a long result pushes when that lands. -/
def State.pushAll (s : State) (i : Instr) (r : Regs) : State :=
  if noStream s.cx (usesOf i).dv then s
  else s.onCx fun c => (usesOf i).dv.foldl (fun c v =>
    if (pendingDest c [vSpec v]).isSome then c else pushStream c (writtenBytes i r) v) c

/-- Put back the strips that an instruction popped which is then not performed (R226): what has been loaded ahead since stays. -/
def Ctx.repop (c : Ctx) (old : Tab Stream) : Ctx := { c with streams := old.foldl (fun l p => unpopIn old l p.1) c.streams }
where
  /-- one stream -/
  unpopIn (old l : Tab Stream) (v : Nat) : Tab Stream :=
    match tget l v, tget old v with
    | some q, some o =>
      if o.wr || q.next ≤ o.next then l
      else tset l v { q with next := o.next, last := o.last, ahead := o.ahead.take (q.next - o.next) ++ q.ahead }
    | _, _ => l

/-- The popped strips and their registers put back, after an instruction that trapped. -/
def State.unpop (s : State) (old : Ctx) : State :=
  if old.streams.isEmpty then s
  else s.onCx fun c => if c.run = .free then c else
    { c.repop old.streams with regs := { c.regs with v := old.regs.v }, view := old.view }

/-- Move past the issue, where the thread goes on (R31); the halves of a pair move on together (R34). -/
def State.finish (s : State) : State :=
  if s.took.isNone && s.cx.half = 0 && s.cx.run = .ready then s.onCx fun c => { c with pc := c.npc } else s

/-- Perform an instruction that has passed the checks: pops, the body, pushes, the capture. -/
def State.perform (s : State) (i : Instr) (body : State → State) : State :=
  let old := s.cx
  let s := s.popAll (usesOf i)
  let r := s.rd
  let t := body s
  if t.took.isSome then t.unpop old
  else
    let t := (t.pushAll i r).noteCapture i
    if noStream old (usesOf i).vs then t
    else t.onCx fun c => match c.run with | .parked .. => { c with popped := old.streams } | _ => c

/-- One instruction: the checks of R47, then its body. -/
def issue (i : Instr) (body : State → State) (s : State) : State :=
  match verdict s i with
  | .go => (s.perform i body).finish
  | .skip => (s.noteCapture i).finish
  | v => s.refuse v

end Sys2Proof.Machine
end

