-- ==== Sys2Proof/Machine/Access.lean ====
section
/-! DEFINITION. Access.lean: a thread's loads and stores, its buffer and drains, the snapshot cache, and the fetch of lines
(R29 to R36, R180 to R200, R205 to R214, R425, R452). -/
namespace Sys2Proof.Machine

/-! ### Address checks (R180 to R182) -/

/-- The effective address of an access, checked: BAD_ADDR, MISALIGN, else the rest. -/
def State.withAddr (s : State) (am : Mode) (base idx : Word) (disp : BitVec 16) (align : Nat) (k : Word → State) : State :=
  match eaOf am base idx disp with
  | none => s.trap BAD_ADDR base
  | some ea =>
    if !eaClean am ea then s.trap BAD_ADDR ea
    else if ea.toNat % align != 0 then s.trap MISALIGN ea
    else k ea

/-- The same for a memory operand. -/
def State.withOp (s : State) (m : MemOp) (align : Nat) (k : Word → State) : State :=
  s.withAddr m.am (s.rd.getG m.a) (scaled (s.rd.getG m.b) m.sc) m.disp align k

/-- Where an access in a mode is performed (R181). -/
def placeOf (core : Nat) (am : Mode) (ea : Word) : Place :=
  match am with
  | .g => .glob ea
  | .l => .pool core (poolOf core .l ea).2 false ea
  | m => .pool (poolOf core m ea).1 (poolOf core m ea).2 true ea

/-- What a local access takes when the port refuses it (R183, R187). -/
def State.localRefusal (s : State) (core off n : Nat) : Option (BitVec 8) :=
  if !(s.core core).reachable off n then some WINDOW
  else if s.accBusy core off n then some ACC_BUSY
  else none

/-! ### Matching buffered stores (R210) -/

/-- The bytes that an access covers. -/
def spanOf (core : Nat) (am : Mode) (ea : Word) (n : Nat) : Span :=
  match am with
  | .g => .glob (fld ea 56 0) n
  | m => .pool (poolOf core m ea).1 (poolOf core m ea).2 n

/-- Bytes of a masked line, in a mode, that a span covers. -/
def lineHits (core : Nat) (am : Mode) (line : Word) (mask : BitVec 64) : Span → BitVec 64
  | .glob va n =>
    if am = .g && fld line 56 0 / 64 == va / 64 then mask &&& byteMask (va % 64) n else 0
  | .peer _ _ va n =>
    if am = .g && fld line 56 0 / 64 == va / 64 then mask &&& byteMask (va % 64) n else 0
  | .pool c off n =>
    if am != .g && (poolOf core am line).1 == c && (poolOf core am line).2 / 64 == off / 64 then mask &&& byteMask (off % 64) n else 0

/-- A store goes to the device, or the peer, of a span (R338). -/
def peerHits (peer : Option (Nat × Nat)) : Span → Bool
  | .peer g r _ _ => peer == some (g, r)
  | _ => peer.isNone

/-- A buffered store overlaps a span. -/
def SbEnt.hits (e : SbEnt) (core : Nat) (sp : Span) : Bool := peerHits e.peer sp && lineHits core e.am e.line e.mask sp != 0

/-- Bytes that a thread's own buffer forwards to a load, newest last (R192). -/
def forward (core : Nat) (sp : Span) : List SbEnt → Line → BitVec 64 → Line × BitVec 64
  | [], l, m => (l, m)
  | e :: t, l, m =>
    if e.hits core sp then
      let h := lineHits core e.am e.line e.mask sp
      forward core sp t (mergeLine l e.data h) (m ||| h)
    else forward core sp t l m

/-! ### The journal (R191, R357) -/

/-- A free journal entry. -/
def Core.freeJ (k : Core) : Option Nat := (upTo Config.journalSize).find? fun j => (k.jent j).st == .free
/-- The thread has a store on its way. -/
def Core.inFlight (k : Core) (x : Nat) (inc : BitVec 16) : Bool :=
  k.jnl.any fun p => p.2.st == .inFlight && p.2.ctx == x && p.2.inc == inc
/-- The thread has a store on its way that overlaps a span. -/
def Core.inFlightHits (k : Core) (core x : Nat) (inc : BitVec 16) (sp : Span) : Bool :=
  k.jnl.any fun p => p.2.st == .inFlight && p.2.ctx == x && p.2.inc == inc && peerHits p.2.peer sp &&
    lineHits core p.2.am p.2.line p.2.mask sp != 0

/-- Everything that the thread stored has been acknowledged. -/
def State.isDrained (s : State) (core x : Nat) : Bool :=
  let k := s.core core
  (k.ctx x).sb.isEmpty && !k.inFlight x (k.ctx x).inc
/-- Everything that the thread stored and that overlaps has been acknowledged. -/
def State.isClear (s : State) (core x : Nat) (spans : List Span) : Bool :=
  let k := s.core core
  spans.all fun sp => !((k.ctx x).sb.any fun e => e.hits core sp) && !k.inFlightHits core x (k.ctx x).inc sp

/-- Every kick of the thread has been acknowledged (R313). -/
def Ctx.kicksIn (c : Ctx) : Bool :=
  c.pend.all fun p => p.left == 0 || !p.reqs.any fun r => match r.op with | .kick _ => true | _ => false

/-- Drain all, then go on (R214): at once when nothing is outstanding. -/
def State.afterDrain (s : State) (k : Cont) (now : State → State) : State :=
  if s.isDrained s.me.1 s.me.2 then now s
  else (s.onCx fun c => { c with want := .all }).park .sync .drained k

/-- Drain the overlapping stores, then go on (R191, R196, R198). -/
def State.afterClear (s : State) (spans : List Span) (k : Cont) (now : State → State) : State :=
  if s.isClear s.me.1 s.me.2 spans then now s
  else (s.onCx fun c => { c with want := .overlap spans }).park .sync (.clearOf spans) k

/-- The buffered store that the drain step moves next (R208). -/
def nextDrain (core : Nat) (c : Ctx) : Option Nat :=
  match c.want with
  | .nothing => none
  | .all => if c.sb.isEmpty then none else some 0
  | .overlap spans => c.sb.findIdx? fun e => spans.any fun sp => e.hits core sp

/-- The request that a store becomes. -/
def storeReq (core : Nat) (a : Asker) (e : SbEnt) (j : Nat) : Req :=
  { who := a
    place := match e.peer with | some (g, r) => .peer g r e.line | none => placeOf core e.am e.line
    op := .store e.data e.mask e.bset j, tag := 0, lane := none }

/-- The line that a load's reply places in the snapshot cache (R193). -/
def Pend.fillKey (p : Pend) : Option Nat :=
  if !p.fill then none
  else match p.reqs with
    | q :: _ => (match q.place with | .glob va => some (fld va 56 6) | _ => none)
    | [] => none

/-- Results outstanding whose lines, where a test picks them, are not placed in the snapshot cache. -/
def Ctx.unfill (c : Ctx) (p : Ctx → Pend → Bool) : Ctx :=
  { c with pend := c.pend.map fun q => if p c q then { q with fill := false } else q }
/-- The same for every thread of a core, live or saved. -/
def Core.unfill (k : Core) (p : Ctx → Pend → Bool) : Core :=
  { k with
    ctxs := k.ctxs.map fun q => (q.1, q.2.unfill p)
    paged := k.paged.map fun q => (q.1, q.2.1.unfill p, q.2.2)
    frames := k.frames.map fun q => (q.1, q.2.unfill p) }

/-- Remove a line from the snapshot cache: a store to it has left (R193). A line that is on its way to the cache is not placed either, since
it may be older than the store, and the thread always reads its own stores (R192, R210; log entry 71). -/
def Core.snapDrop (k : Core) (tenant : BitVec 16) (am : Mode) (line : Word) : Core :=
  if am = .g then
    let n := fld line 56 6
    ({ k with snap := k.snap.filter (fun l => !(l.tenant == tenant && l.line == n))
              prefs := k.prefs.filter fun q => !((k.ctx q.1).tenant == tenant && q.2.2 == n) }).unfill
      fun c p => c.tenant == tenant && p.fillKey == some n
  else k

/-- Send a store to its home, holding a journal entry (R191). -/
def State.sendStore (s : State) (core : Nat) (a : Asker) (w : Who) (e : SbEnt) (j : Nat) (tag : Option Nat) : State :=
  let s := s.onCore core fun k =>
    let ent : JEnt :=
      { st := .inFlight, am := e.am, line := e.line, mask := e.mask, pc := e.pc, kind := 0, bset := e.bset, ctx := w.ctx, inc := w.inc
        data := e.data, taken := false, met := false, seq := k.jseq, tag := tag, peer := e.peer, launch := a.launch }
    ({ k with jnl := tset k.jnl j ent, jseq := k.jseq + 1 }).snapDrop a.tenant e.am e.line
  s.send (.req (storeReq core a e j))

/-! ### The snapshot cache (R193, R209) -/

/-- Empty a core's snapshot cache: a line asked for before, by a live thread or a saved one, is not placed in it (R193, R209). -/
def State.snapEmpty (s : State) (core : Nat) : State :=
  s.onCore core fun k => ({ k with snap := [], prefs := [] }).unfill fun _ _ => true

/-- The line that the cache holds. -/
def Core.snapFind (k : Core) (tenant : BitVec 16) (line : Nat) : Option Line :=
  (k.snap.find? fun l => l.tenant == tenant && l.line == line).map (·.data)

/-- Place a line; a full cache loses its oldest (log entry 18). -/
def Core.snapPlace (k : Core) (tenant : BitVec 16) (line : Nat) (data : Line) : Core :=
  let rest := k.snap.filter fun l => !(l.tenant == tenant && l.line == line)
  let rest := if rest.length < Config.snapLines then rest else rest.drop 1
  { k with snap := rest ++ [{ tenant := tenant, line := line, data := data }] }

/-! ### Results -/

/-- Write a landed line to a destination, each byte at its own place in the line. -/
def Regs.putDest (r : Regs) (d : Dest) (l : Line) : Regs :=
  match d with
  | .none => r
  | .g i sz off => r.setG i (ldExtend sz (fromByte l off (ldBytes sz)))
  | .p i => r.setP i (if l.getLsbD 0 then 0xFFFF else 0)
  | .v i mask => r.setV i (mergeLine (r.getV i) l mask)

/-! ### Loads -/

/-- A load's latency report of a .l access: 8 cycles (R141). -/
def State.reportLd (s : State) (xs : BitVec 16) (pc : Word) (lat : Nat) : State :=
  if xs = 0xFFFF then s
  else s.xReport s.me.1 s.cx.part s.cx.launch.toNat xs { rep := .latency lat, pc := pc, kind := some 2 }

/-- A .l load, performed at once (R191, R192, R195). -/
def State.loadLocal (s : State) (ea : Word) (n : Nat) (d : Dest) (xs : BitVec 16) : State :=
  let core := s.me.1
  let off := fld ea 15 0
  match s.localRefusal core off n with
  | some c => s.trap c ea
  | none =>
    match s.pLoad s.asker core off n false ea with
    | .done l s =>
      let (f, m) := forward core (.pool core off n) s.cx.sb 0 0
      (s.onRegs fun r => r.putDest d (mergeLine l f m)).reportLd xs s.pcNow 8
    | .fail f s => s.loadFault f.kind ea
    | _ => s

/-- A load in any mode (R192 to R195, R197): it is a hit where the thread's own buffer and the snapshot cache hold every byte that it
reads (R207); `nc` is never a hit and fills nothing; `acq` empties the cache when it lands. -/
def State.loadAt (s : State) (am : Mode) (ea : Word) (n : Nat) (d : Dest) (nc acq : Bool) (xs : BitVec 16) : State :=
  let core := s.me.1
  if am = .l then
    let s := s.loadLocal ea n d xs
    if acq && s.took.isNone then s.snapEmpty core else s
  else
    let (f, m) := forward core (spanOf core am ea n) s.cx.sb 0 0
    let snap := am = .g && !nc && !acq && !partPair s.cx.part
    let p := { s.newPend d with xs := xs, acq := acq, fwd := f, fmask := m, fill := snap }
    let line := if snap then s.mine.snapFind s.cx.tenant (fld ea 56 6) else none
    let whole := !nc && !acq && m &&& byteMask (fld ea 5 0) n == byteMask (fld ea 5 0) n
    if line.isSome || whole then
      (if snap then s.onMine fun k => k.count 0x0D else s).longValue { p with fill := false } (line.getD 0) 0
    else
      let s := if snap then s.onMine fun k => k.count 0x0E else s
      s.startLong { p with reqs := [s.reqFor (placeOf core am ea) (.load n snap) p.tag] }

/-! ### Stores -/

/-- Two lines are one location (R205, R210). -/
def sameLine (core : Nat) (e : SbEnt) (am : Mode) (line : Word) (peer : Option (Nat × Nat)) : Bool :=
  e.peer == peer &&
  (if e.am = .g || am = .g then e.am == am && e.line == line
   else (poolOf core e.am e.line) == (poolOf core am line))

/-- Entries of a core's buffers that are not in a spill area, beyond the 8 that each context can always take (R205). -/
def Core.sbShared (k : Core) : Nat :=
  (k.ctxs.map fun p => (p.2.sb.filter fun e => !e.spill).length - Config.sbOwn).sum +
  (k.residents.map fun r => (r.left.filter fun e => !e.2.spill).length).sum

/-- Move the n oldest entries that the core holds to the spill area (R205): 16, or as many as there are and as it has room for. -/
def spillOldest : Nat → List SbEnt → List SbEnt
  | 0, l => l
  | _, [] => []
  | n + 1, e :: t => if e.spill then e :: spillOldest (n + 1) t else { e with spill := true } :: spillOldest n t

/-- Append a store to the thread's buffer (R205): it joins the youngest entry of the same line, or takes a new one, spilling the
oldest where it must. None when both are full. -/
def bufStore (k : Core) (core : Nat) (c : Ctx) (e : SbEnt) : Option (List SbEnt) :=
  match c.sb.getLast? with
  | some y =>
    if sameLine core y e.am e.line e.peer && !y.bset && !e.bset then
      some (c.sb.dropLast ++ [{ y with mask := y.mask ||| e.mask, data := mergeLine y.data e.data e.mask, pc := e.pc }])
    else take
  | none => take
where
  take : Option (List SbEnt) :=
    let own := (c.sb.filter fun e => !e.spill).length
    let room := Config.spillEntries - (c.sb.length - own)
    let ctxs := 8 * partCtx c.part
    if own < Config.sbOwn || k.sbShared < Config.sbEntries - Config.sbOwn * ctxs then some (c.sb ++ [e])
    else if room != 0 then some (spillOldest (min Config.spillMove room) c.sb ++ [e])
    else none

/-- Write a .l store to the pool (R191). -/
def State.poolStore (s : State) (off : Nat) (data : Line) (mask : BitVec 64) : State :=
  match s.pStore s.asker s.me.1 off false (BitVec.ofNat 64 off) data mask with
  | .done _ s => s
  | .fail f s => s.trap (if s.accBusy s.me.1 (off / 64 * 64) 64 then ACC_BUSY else WINDOW) f.addr
  | _ => s

/-- Write .l stores in order: the first that the port refuses traps, and none is performed (R183, R187, R200). -/
def State.poolStores (s : State) (l : List (Nat × Line × BitVec 64)) : State :=
  match l.findSome? fun q => (s.localRefusal s.me.1 q.1 (maskSpan q.2.2).2).map fun c => (c, q.1) with
  | some (c, off) => s.trap c (BitVec.ofNat 64 off)
  | none => l.foldl (fun s q => s.poolStore q.1 q.2.1 q.2.2) s

/-- A store in any mode (R191, R195): the bytes stand at their place in the line. -/
def State.storeAt (s : State) (am : Mode) (ea : Word) (n : Nat) (data : Line) (mask : BitVec 64) (bset : Bool)
    (peer : Option (Nat × Nat) := none) : State :=
  let core := s.me.1
  if am = .l then
    let off := fld ea 15 0
    match s.localRefusal core off n with
    | some c => s.trap c ea
    | none => s.afterClear [.pool core off n] (.pool [(off, data, mask)]) (fun s => s.poolStores [(off, data, mask)])
  else
    let e : SbEnt :=
      { am := am, line := lineVa ea, mask := mask, data := data, bset := bset, pc := s.pcNow, spill := false, peer := peer }
    match bufStore s.mine core s.cx e with
    | some sb => s.onCx fun c => { c with sb := sb }
    | none => s.trap STORE_SPILL ea

/-- Drop a core's copies of a tensor entry (R247, R326). -/
def Core.dropEntry (k : Core) (launch : Nat) (tid : BitVec 8) : Core :=
  { k with vols := k.vols.filter fun x => !(x.launch == launch && x.tid == tid) }

/-- Send the store of a release, once the drain is done (R197, R214): at once in .l; else when a journal entry is free. The
acknowledgement is a long result with no destination. A TDSET drops the copies of its entry (R326). -/
def State.releaseStore (s : State) (e : SbEnt) (dropTid : Option (BitVec 8)) : State :=
  let core := s.me.1
  if e.am = .l then s.poolStore (fld e.line 15 0) e.data e.mask
  else
    match s.mine.freeJ with
    | none => s.park .sync .journal (.release e dropTid)
    | some j =>
      let p := s.newPend .none
      let s := (s.addPend p).sendStore core s.asker s.whoMe e j (some p.tag)
      match dropTid with
      | some t => s.onMine fun k => k.dropEntry s.cx.launch.toNat t
      | none => s

/-! ### Synchronising accesses (R196) -/

/-- Send a synchronising request and park for its answer; with acq, the answer is an acquire (R222). -/
def State.sendSync (s : State) (d : Dest) (r : Req) (limited : Bool) (acq : Bool := false) : State :=
  let tag := s.cx.nextTag
  let s := s.onCx fun c => { c with nextTag := tag + 1 }
  (s.park .sync (.reply tag) (.got d acq) limited).sendReq { r with tag := tag }

/-! ### Machine checks (R425) -/

/-- KINDs of a machine-check record. -/
def mcFETCH : BitVec 8 := 1
def mcPOOL : BitVec 8 := 2
def mcARRAY : BitVec 8 := 3
def mcHBM : BitVec 8 := 4
def mcLINK : BitVec 8 := 5
def mcPAIR : BitVec 8 := 6
def mcCONTAINED : BitVec 8 := 7

/-- Key of a unit's count of transient faults of a kind. -/
def transKey (unit : BitVec 32) (kind : BitVec 8) : Nat := unit.toNat * 256 + kind.toNat

/-- Report a lasting fault: a record in the machine-check ring, and the system cores are told. A core's fault makes its rectangle one to be
contained (R425, R435). -/
def State.mcheck (s : State) (m : MCheck) (inc : BitVec 16) : State :=
  let key := transKey m.unit m.kind
  let tc := min (tgetD s.rel.transients key 0) 0xFFFFFFFF
  let rec' := toBytes 8 s.now ++ toBytes 8 m.addr.toNat ++ toBytes 4 m.unit.toNat ++ toBytes 1 m.kind.toNat ++
    toBytes 1 (if m.lasting then 1 else 0) ++ toBytes 1 m.ctx ++ toBytes 1 0 ++ toBytes 2 inc.toNat ++ toBytes 2 0 ++ toBytes 4 tc
  let cl := clusterOf m.core
  let found := m.lasting && decide (m.kind.toNat ≤ 3) && !s.rel.contained.contains cl && !s.rel.faulty.contains cl
  let s := { s with rel := { s.rel with
    transients := tdel s.rel.transients key, faulty := if found then s.rel.faulty ++ [cl] else s.rel.faulty } }
  let s := match s.dbg.check with
    | none => s
    | some r =>
      let (at', r) := r.put 32
      let s := { s with dbg := { s.dbg with check := some r } }
      match at' with
      | none => s
      | some a => { s with mem := { s.mem with bytes := wrBytes s.mem.bytes a rec' } }
  s.tell (.machineCheck m s.now)

/-! ### Fetch lines (R29 to R36, R452) -/

/-- The 96 bits of instruction i of a line. -/
def lineInsn (l : Line) (i : Nat) : Insn96 := l.extractLsb' (96 * i) 96
/-- The line word. -/
def lineWord (l : Line) : BitVec 32 := word32 l 15

/-- Number of ones. -/
def onesIn : Nat → Nat → Nat
  | 0, _ => 0
  | n + 1, v => v % 2 + onesIn n (v / 2)

/-- The line's parity holds (R30). -/
def lineParity (l : Line) : Bool :=
  let w := lineWord l
  (upTo 5).all (fun i => (onesIn 96 (lineInsn l i).toNat + fld w (24 + i) (24 + i)) % 2 == 0) &&
  (onesIn 24 (fld w 23 0) + onesIn 2 (fld w 31 30) + fld w 29 29) % 2 == 0

/-- Class and function code of an instruction's bits. -/
def rawClass (w : Insn96) : Nat := fld w 90 87
def rawFn (w : Insn96) : Nat := fld w 86 80

/-- Two instructions may stand as a pair (R33). -/
def pairLegal (a b : Insn96) : Bool :=
  let scalar := fun (w : Insn96) => decide (rawClass w ≤ 4) || rawClass w == 8 || rawClass w == 9
  let vec := fun (w : Insn96) => decide (5 ≤ rawClass w) && decide (rawClass w ≤ 7)
  let thread := fun (w : Insn96) => rawClass w != 0 || rawFn w == 0 || rawFn w == 0x0D || rawFn w == 0x0E
  let rep := fun (w : Insn96) => rawClass w == 5 && (rawFn w == 0x19 || rawFn w == 0x1A)
  ((scalar a && vec b) || (vec a && scalar b)) && rawClass a != 3 && thread a && thread b && !rep a && !rep b

/-- PAIR bit of instruction i; instruction 4 has none (R30). -/
def pairBit (w : BitVec 32) (i : Nat) : Bool := decide (i < 4) && w.getLsbD (5 + i)
/-- TGT bit of instruction i (R30). -/
def tgtBit (w : BitVec 32) (i : Nat) : Bool := decide (i < 5) && w.getLsbD i

/-- The line is defective (R33). -/
def lineDefect (l : Line) : Bool :=
  let w := lineWord l
  fld w 31 30 != 0 || fld w 23 9 != 0 ||
  (upTo 4).any fun i => pairBit w i &&
    ((decide (i < 3) && pairBit w (i + 1)) || !pairLegal (lineInsn l i) (lineInsn l (i + 1)) || tgtBit w (i + 1))

/-- What entering or reaching a line gives. -/
inductive Enter
  | ok
  | trap (cause : BitVec 8) (info : Nat)
  | absent
  | stop
deriving DecidableEq, Repr

/-- Address of the line of a PC. -/
def lineOfPc (pc : Word) : Word := pc &&& 0x01FFFFFFFFFFFFC0#64

/-- Fetch a line that the core does not hold and check it: access, parity, defects (R36). A sound line is then held. -/
def State.fetch (s : State) (core x : Nat) (pc : Word) : Enter × State :=
  let line := lineOfPc pc
  let key := fld line 56 6
  match tget (s.core core).lines key with
  | some _ => (.ok, s)
  | none =>
    match s.gLoad (askerOf (s.ctx core x) (s.who core x)) .fetch line 64 with
    | .done l s =>
      if !lineParity l then (.stop, s)
      else if lineDefect l then (.trap BAD_LINE 0, s)
      else (.ok, s.onCore core fun k => { k with lines := tset k.lines key l })
    | .fail f s => (if f.absent then .absent else .trap LOAD_FAULT (f.kind.toNat * 256), s)
    | _ => (.absent, s)

/-- The target test of R32 on a line that is held. -/
def State.targetOk (s : State) (core : Nat) (pc : Word) : Bool :=
  fld pc 5 3 == 0 && decide (fld pc 2 0 ≤ 4) &&
  (match tget (s.core core).lines (fld (lineOfPc pc) 56 6) with
   | some l => tgtBit (lineWord l) (fld pc 2 0)
   | none => false)

/-- Enter a line at a target: all the line checks, then the target (R36). -/
def State.enterAt (s : State) (core x : Nat) (pc : Word) : Enter × State :=
  match s.fetch core x pc with
  | (.ok, s) => (if s.targetOk core pc then .ok else .trap BAD_TARGET 0, s)
  | r => r

/-- Stop a thread whose line failed its parity twice, and report FETCH_PARITY (R35, R425). -/
def State.parityStop (s : State) (core x : Nat) (pc : Word) : State :=
  let s := s.onCtx core x fun c => { c with run := .stopped }
  s.mcheck { kind := mcFETCH, lasting := true, unit := BitVec.ofNat 32 core, addr := pc, core := core, ctx := x } (s.ctx core x).inc

/-- Save a context for a page that its fetch needs (R452). -/
def State.fetchAbsent (s : State) (core x : Nat) (pc : Word) : State := s.savePaged core x [pc.toNat]

/-- A taken control transfer of the issuing thread (R32, R36, R175): faults of the target are charged to the branch; `eff` is
what the instruction does besides; `sound` is a part of the target test. A transfer while a capture forms is REP_USE 2. A lasting parity
fault of the target's line is reported with the target's PC: R425 says only PC (log entry 77). -/
def State.branch (s : State) (target : Word) (eff : State → State) (sound : Bool := true) : State :=
  if s.cx.cap.any Capture.forming then s.trap REP_USE 0 2
  else
    match s.enterAt s.me.1 s.me.2 target with
    | (.ok, s) => if sound then (eff s).onCx fun c => { c with npc := target } else s.trapInfo BAD_TARGET target 0
    | (.trap cause info, s) => s.trapInfo cause target info
    | (.absent, s) => s.fetchAbsent s.me.1 s.me.2 target
    | (.stop, s) => s.parityStop s.me.1 s.me.2 target

/-- Record of a taken control transfer (R400, type 4). -/
def State.brTrace (s : State) (tag : Nat) (target : Word) : State :=
  if s.mine.dctl.getLsbD 1 then s.traceCtx s.me.1 s.me.2 4 tag target else s

end Sys2Proof.Machine
end

