-- ==== Sys2Proof/Machine/Address.lean ====
section
/-! DEFINITION. Address.lean: the address instructions, class 0x2 (R128 to R132). -/
namespace Sys2Proof.Machine

/-- The value of LEA: the sum within bits 56 to 0, the others kept (R129). -/
def leaValue (p : Word) (imm : BitVec 48) : Word :=
  (p &&& 0xFE00000000000000#64) ||| ((p + imm.signExtend 64) &&& 0x01FFFFFFFFFFFFFF#64)

/-- LEA (R129). -/
def doLea (d a : GReg) (imm : BitVec 48) (s : State) : State := s.wrG d (leaValue (s.rd.getG a) imm)

/-- LEA. -/
def execLea (h : Hdr) (d a : GReg) (imm : BitVec 48) (s : State) : Host.Outcome State Fault Refusal :=
  .next (issue (.lea h d a imm) (doLea d a imm) s)

/-- The value of MKPTR: bits 63 to 58 from a band, bit 57 zero (R130). -/
def mkptrValue (p band : Word) : Word := (p &&& 0x01FFFFFFFFFFFFFF#64) ||| (band <<< 58)

/-- MKPTR (R130). -/
def doMkptr (d a b : GReg) (s : State) : State := s.wrG d (mkptrValue (s.rd.getG a) (s.rd.getG b))

/-- MKPTR. -/
def execMkptr (h : Hdr) (d a b : GReg) (s : State) : Host.Outcome State Fault Refusal :=
  .next (issue (.mkptr h d a b) (doMkptr d a b) s)

/-- GETBAND (R130). -/
def doGetband (d a : GReg) (s : State) : State := s.wrG d ((bandOf (s.rd.getG a)).setWidth 64)

/-- GETBAND. -/
def execGetband (h : Hdr) (d a : GReg) (s : State) : Host.Outcome State Fault Refusal :=
  .next (issue (.getband h d a) (doGetband d a) s)

/-- The explicit-core address of a core at (x, y) and an offset (R131). -/
def caddrValue (x y off : Word) : Word := BitVec.ofNat 64 ((fld y 5 0 * 128 + fld x 6 0) * 65536 + fld off 15 0)

/-- CADDR (R131). -/
def doCaddr (d a b c : GReg) (s : State) : State := s.wrG d (caddrValue (s.rd.getG a) (s.rd.getG b) (s.rd.getG c))

/-- CADDR. -/
def execCaddr (h : Hdr) (d a b c : GReg) (s : State) : Host.Outcome State Fault Refusal :=
  .next (issue (.caddr h d a b c) (doCaddr d a b c) s)

/-- CHKPTR (R132): a pointer with bit 57 set is answered without a probe. -/
def doChkptr (d a : GReg) (s : State) : State :=
  let p := s.rd.getG a
  if p.getLsbD 57 then s.longValue (s.newPend (.g d .d 0)) (BitVec.ofNat 512 (2 ^ 13)) 0
  else s.long1 (.g d .d 0) (.glob p) .probe

/-- CHKPTR. -/
def execChkptr (h : Hdr) (d a : GReg) (s : State) : Host.Outcome State Fault Refusal :=
  .next (issue (.chkptr h d a) (doChkptr d a) s)

end Sys2Proof.Machine
end

