-- ==== Sys2Proof/Machine/Control.lean ====
section
/-! DEFINITION. Control.lean: the control-flow instructions, class 0x3 (R133 to R138). -/
namespace Sys2Proof.Machine

/-- The target of a displacement, from the PC of the instruction (R134). -/
def targetOf (pc : Word) (disp : BitVec 32) : Word :=
  let line := pc &&& ~~~0x3F#64
  let lines := (disp.extractLsb' 3 29).signExtend 64
  ((line + lines * 64) &&& 0x01FFFFFFFFFFFFFF#64) + (disp.extractLsb' 0 3).setWidth 64

/-- A transfer to a register's value: bits 63 to 57 that are not zero fail the target test, which follows the checks of the line (R36,
R134). -/
def State.branchReg (s : State) (target : Word) (eff : State → State) : State := s.branch target eff (fld target 63 57 == 0)

/-- The link: the PC after this issue (R134, R31). -/
def State.link (s : State) : State := s.wrG 1 s.cx.npc

/-- Report a branch's outcome to slot x (R135). -/
def State.reportBr (s : State) (x : BitVec 16) (taken : Bool) : State :=
  if x = 0xFFFF then s
  else s.xReport s.me.1 s.cx.part s.cx.launch.toNat x { rep := .outcome taken, pc := s.pcNow, kind := some 1 }

/-- BR (R135): its guard is its condition. -/
def doBr (h : Hdr) (x : BitVec 16) (disp : BitVec 32) (s : State) : State :=
  if s.rd.guard h then s.branch (targetOf s.pcNow disp) fun s => s.reportBr x true
  else s.reportBr x false

/-- BR. -/
def execBr (h : Hdr) (x : BitVec 16) (disp : BitVec 32) (s : State) : Host.Outcome State Fault Refusal :=
  .next (issue (.br h x disp) (doBr h x disp) s)

/-- BRI (R136). -/
def doBri (a : GReg) (s : State) : State :=
  let t := s.rd.getG a
  s.branchReg t fun s => s.brTrace 4 t

/-- BRI. -/
def execBri (h : Hdr) (a : GReg) (s : State) : Host.Outcome State Fault Refusal :=
  .next (issue (.bri h a) (doBri a) s)

/-- CALL (R136). -/
def doCall (disp : BitVec 32) (s : State) : State :=
  let t := targetOf s.pcNow disp
  s.branch t fun s => s.link.brTrace 1 t

/-- CALL. -/
def execCall (h : Hdr) (disp : BitVec 32) (s : State) : Host.Outcome State Fault Refusal :=
  .next (issue (.call h disp) (doCall disp) s)

/-- CALLI (R136). -/
def doCalli (a : GReg) (s : State) : State :=
  let t := s.rd.getG a
  s.branchReg t fun s => s.link.brTrace 2 t

/-- CALLI. -/
def execCalli (h : Hdr) (a : GReg) (s : State) : Host.Outcome State Fault Refusal :=
  .next (issue (.calli h a) (doCalli a) s)

/-- RET (R136). -/
def doRet (a : GReg) (s : State) : State :=
  let t := s.rd.getG a
  s.branchReg t fun s => s.brTrace 3 t

/-- RET. -/
def execRet (h : Hdr) (a : GReg) (s : State) : Host.Outcome State Fault Refusal :=
  .next (issue (.ret h a) (doRet a) s)

/-- LOOP (R137): counts down, falls through at 1 or 0 and then reports its trip. Where gB is gA, the trip is the count as the instruction
read it, although the rule's text writes gA first (log entry 82). -/
def doLoop (a b : GReg) (x : BitVec 16) (disp : BitVec 32) (s : State) : State :=
  let c := s.rd.getG a
  if c.toNat ≤ 1 then
    let trip := min (fld (s.rd.getG b) 31 0) 0xFFFF
    let s := s.wrG a 0
    if x = 0xFFFF || b = 0 then s
    else s.xReport s.me.1 s.cx.part s.cx.launch.toNat x { rep := .trip trip, pc := s.pcNow, kind := some 3 }
  else s.branch (targetOf s.pcNow disp) fun s => s.wrG a (c - 1)

/-- LOOP. -/
def execLoop (h : Hdr) (a b : GReg) (x : BitVec 16) (disp : BitVec 32) (s : State) : Host.Outcome State Fault Refusal :=
  .next (issue (.loop h a b x disp) (doLoop a b x disp) s)

end Sys2Proof.Machine
end

