-- ==== Sys2Proof/Machine/Volume.lean ====
section
/-! DEFINITION. Volume.lean: coordinate volumes, class 0x9: the entry, the checks of an issue, the CLB, and what a walker does
with one request (R246 to R264). -/
namespace Sys2Proof.Machine

/-! ### The entry (R246, R247) -/

def volEfmt (e : Line) : Nat := fld (word64 e 0) 13 12
/-- Bytes of an element. -/
def volEs (e : Line) : Nat := match volEfmt e with | 0 | 1 => 2 | 2 => 4 | _ => 1
/-- The background element. -/
def volBg (e : Line) : Nat := fld (word64 e 0) 63 32 % 2 ^ (8 * volEs e)
/-- Channels. -/
def volC (e : Line) : Nat := fld (word64 e 0) 21 16 + 1
def volDepth (e : Line) : Nat := fld (word64 e 0) 10 8
def volRoot (e : Line) : Word := word64 e 3
def volPool (e : Line) : Word := word64 e 4
/-- Axis i of a coordinate word, signed (R249). -/
def coordAt (w : Word) (i : Nat) : Int := signedOf 21 (fld w (21 * i + 20) (21 * i))
/-- Extent along axis i. -/
def volExt (e : Line) (i : Nat) : Nat := fld (word64 e 2) (21 * i + 20) (21 * i)

/-- The entry keeps R246. -/
def volOk (e : Line) : Bool :=
  let w0 := word64 e 0
  fld w0 7 0 == 0x10 && decide (1 ≤ volDepth e ∧ volDepth e ≤ 5) &&
  (upTo 3).all (fun i => decide (1 ≤ volExt e i ∧ volExt e i ≤ 4 * 8 ^ volDepth e)) &&
  volRoot e != 0 && fld (volRoot e) 11 0 == 0 && fld (volPool e) 4 0 == 0 &&
  fld w0 31 22 == 0 && fld w0 15 14 == 0 && fld w0 11 11 == 0 && decide (fld w0 63 32 < 2 ^ (8 * volEs e)) &&
  !(word64 e 1).getLsbD 63 && !(word64 e 2).getLsbD 63 && word64 e 5 == 0 && word64 e 6 == 0 && word64 e 7 == 0

/-- Offset of a coordinate from the origin on axis i (R250). -/
def volOff (e : Line) (c : Word) (i : Nat) : Int := coordAt c i - coordAt (word64 e 1) i
/-- The voxel lies inside the bounds (R250). -/
def volIn (e : Line) (c : Word) : Bool := (upTo 3).all fun i => decide (0 ≤ volOff e c i ∧ volOff e c i < volExt e i)
/-- Tile index on axis i (R250). -/
def tileIx (e : Line) (c : Word) (i : Nat) : Int := volOff e c i / 4
/-- The voxel's number in its tile (R248). -/
def voxelNo (e : Line) (c : Word) : Nat :=
  (volOff e c 2 % 4).toNat * 16 + (volOff e c 1 % 4).toNat * 4 + (volOff e c 0 % 4).toNat
/-- A pointer n bytes on, the band kept. -/
def ptrAdd (p : Word) (n : Nat) : Word := leaValue p (BitVec.ofNat 48 n)
/-- The slot in a node at level k of the path to a voxel (R250). -/
def pathSlot (e : Line) (c : Word) (k : Nat) (node : Word) : Word :=
  let d := fun i => (tileIx e c i / (8 : Int) ^ (k - 1) % 8).toNat
  ptrAdd node (8 * (d 2 * 64 + d 1 * 8 + d 0))
/-- Coordinate word of voxel 0 of the tile (R248). -/
def tcoord (e : Line) (c : Word) : Word :=
  let o := fun i => modPow 21 (coordAt (word64 e 1) i + 4 * tileIx e c i)
  BitVec.ofNat 64 (o 0 + o 1 * 2 ^ 21 + o 2 * 2 ^ 42)
/-- Pointer to a channel of a voxel of a tile (R248). -/
def voxelPtr (e : Line) (c tile : Word) (ch : Nat) : Word := ptrAdd tile (64 + (voxelNo e c * volC e + ch) * volEs e)

/-! ### Accesses at their homes -/

/-- Read a doubleword at its home. -/
def State.wLoad (s : State) (a : Asker) (va : Word) (k : Word → State → Served) : Served :=
  match s.gLoad a .load va 8 with
  | .done l s => k (BitVec.ofNat 64 (fromByte l (fld va 5 0) 8)) s
  | r => r
/-- An atomic on a doubleword at its home: the old value. -/
def State.wAtom (s : State) (a : Asker) (va : Word) (op : AtomOp) (b cmp : Word) (k : Word → State → Served) : Served :=
  match (s.gAtom a va op .d b cmp).mailWake with
  | .done l s => k (BitVec.ofNat 64 (fromByte l (fld va 5 0) 8)) s
  | r => r
/-- Store masked bytes of a line at its home. -/
def State.wStore (s : State) (a : Asker) (va : Word) (data : Line) (mask : BitVec 64) (k : State → Served) : Served :=
  match (s.gStore a va data mask false).mailWake with
  | .done _ s => k s
  | r => r

/-- A pool operation needs a page with the volume-pool bit (R251). -/
def State.onPool (s : State) (a : Asker) (va : Word) (k : State → Served) : Served :=
  match s.translate a .load va with
  | (.ok x, s) =>
    if pteVPOOL x.pte then k s
    else .fail { kind := 4, absent := false, addr := va } (s.logStop (homeStop va) a va 0 4)
  | (.error _, _) => s.wLoad a va fun _ s => k s

/-- A 16-byte compare-and-swap of a (head, generation) pair at its home, an atomic there (R252): whether it has been made. -/
def State.cas16 (s : State) (a : Asker) (va head gen head' gen' : Word) : Served :=
  let off := fld va 5 0
  match s.gCheck a .store false true va (byteMask off 16) with
  | (.error e, s) => .fail (failAt va e) s
  | (.ok x, s) =>
    if s.replHeld x || !s.logRoom (x.pa / 64 * 64) then .wait
    else
      let (l, s) := s.readLead a.tenant x
      let ok := fromByte l off 8 == head.toNat && fromByte l (off + 8) 8 == gen.toNat
      let s := if ok then s.writeXl a.tenant x (atByte off head'.toNat ||| atByte (off + 8) gen'.toNat) (byteMask off 16) else s
      .done (if ok then 1 else 0) (s.fireGlob a va 16 x.pa 3).mailWake

/-- Load a (head, generation) pair at its home, in one access. -/
def State.load16 (s : State) (a : Asker) (va : Word) (k : Word → Word → State → Served) : Served :=
  match s.gLoad a .load va 16 with
  | .done l s => k (BitVec.ofNat 64 (fromByte l (fld va 5 0) 8)) (BitVec.ofNat 64 (fromByte l (fld va 5 0 + 8) 8)) s
  | r => r

/-- Change a pair from what was read, and go on; a walker whose change fails reads the pair again, in a later step (R252). -/
def State.setPair (s : State) (a : Asker) (va head gen head' : Word) (k : State → Served) : Served :=
  match s.cas16 a va head gen head' (gen + 1) with
  | .done l s => if l = 1 then k s else .wait
  | r => r

/-- Take a block from a list of the pool (R252); 0 when it is empty. -/
def State.poolPop (s : State) (a : Asker) (e : Line) (list : Nat) (k : Word → State → Served) : Served :=
  let va := ptrAdd (volPool e) list
  s.onPool a va fun s => s.load16 a va fun head gen s =>
    if head = 0 then k 0 s
    else s.wLoad a head fun next s => s.setPair a va head gen next (k head)

/-- Return a block to a list of the pool (R252). -/
def State.poolPush (s : State) (a : Asker) (e : Line) (list : Nat) (b : Word) (k : State → Served) : Served :=
  let va := ptrAdd (volPool e) list
  s.onPool a va fun s => s.load16 a va fun head gen s =>
    s.wStore a (lineVa b) (atByte (fld b 5 0) head.toNat) (byteMask (fld b 5 0) 8) fun s => s.setPair a va head gen b k

/-- Store one line n times, from a block's address on. -/
def State.fillLines (s : State) (a : Asker) (va : Word) (data : Line) (k : State → Served) : Nat → Served
  | 0 => k s
  | n + 1 => s.wStore a va data (BitVec.ofNat 64 (2 ^ 64 - 1)) fun s => s.fillLines a (ptrAdd va 64) data k n

/-- A line of background elements. -/
def bgLine (e : Line) : Line := lineOf (8 * volEs e) (List.replicate (64 / volEs e) (volBg e))

/-- Write the contents of a new block (R254). -/
def State.newBlock (s : State) (a : Asker) (e : Line) (c : Word) (leaf : Bool) (slot b : Word) (k : State → Served) : Served :=
  if leaf then
    let head : Line := atByte 8 slot.toNat ||| atByte 24 (tcoord e c).toNat ||| atByte 32 (bandOf b).toNat
    s.wStore a b head (BitVec.ofNat 64 (2 ^ 64 - 1)) fun s => s.fillLines a (ptrAdd b 64) (bgLine e) k (volC e * volEs e)
  else s.fillLines a b 0 k 64

/-- Where a walk ends. -/
inductive Loc
  | absent
  | empty
  | at' (tile : Word)
deriving DecidableEq, Repr

/-- Walk from a node at level k down to the tile of a voxel, allocating when asked (R254). -/
def State.locate (s : State) (a : Asker) (e : Line) (c : Word) (alloc : Bool) (k : Loc → State → Served) : Nat → Word → Served
  | 0, node => k (.at' node) s
  | n + 1, node =>
    let slot := pathSlot e c (n + 1) node
    s.wLoad a slot fun child s =>
      if child != 0 then s.locate a e c alloc k n child
      else if !alloc then k .absent s
      else s.poolPop a e (if n = 0 then 0 else 16) fun b s =>
        if b = 0 then k .empty s
        else s.newBlock a e c (n == 0) slot b fun s =>
          s.wAtom a slot .cas b 0 fun old s =>
            if old = 0 then s.locate a e c alloc k n b
            else s.poolPush a e (if n = 0 then 0 else 16) b fun s => s.locate a e c alloc k n old

/-! ### The CLB (R253) -/

/-- Tile index of a voxel. -/
def tileKey (e : Line) (c : Word) : Int × Int × Int := (tileIx e c 0, tileIx e c 1, tileIx e c 2)
/-- The tile that the CLB holds. -/
def Core.clbFind (k : Core) (launch : Nat) (tid : BitVec 8) (t : Int × Int × Int) : Option Word :=
  (k.clb.find? fun x => x.launch == launch && x.tid == tid && x.tile == t).map (·.ptr)
/-- Enter a tile, the one used last in front; the least recently used leaves. -/
def Core.clbFill (k : Core) (launch : Nat) (tid : BitVec 8) (t : Int × Int × Int) (p : Word) : Core :=
  { k with clb := ({ launch := launch, tid := tid, tile := t, ptr := p } ::
      k.clb.filter fun x => !(x.launch == launch && x.tid == tid && x.tile == t)).take 64 }

/-- The tile of a voxel: from the CLB, or by a walk whose result fills it (R253). -/
def State.tileOf (s : State) (core : Nat) (a : Asker) (tid : BitVec 8) (e : Line) (c : Word) (alloc fill : Bool)
    (k : Loc → State → Served) : Served :=
  let key := tileKey e c
  let l := a.launch.toNat
  match (s.core core).clbFind l tid key with
  | some p => k (.at' p) (s.onCore core fun q => q.clbFill l tid key p)
  | none =>
    s.locate a e c alloc (fun r s =>
      match r with
      | .at' p => k r (if fill then s.onCore core fun q => q.clbFill l tid key p else s)
      | _ => k r s) (volDepth e) (volRoot e)

/-! ### Serving a walk -/

/-- Read a payload element as an ordinary load of the thread (R256): its buffered stores at issue, the snapshot cache, the home. -/
def State.elemLoad (s : State) (core : Nat) (a : Asker) (sb : List SbEnt) (va : Word) (n : Nat) (k : Nat → State → Served) : Served :=
  let (f, m) := forward core (.glob (fld va 56 0) n) sb 0 0
  let out := fun l (s : State) => k (fromByte (mergeLine l f m) (fld va 5 0) n) s
  if m &&& byteMask (fld va 5 0) n = byteMask (fld va 5 0) n then out f s
  else
  let pair := match (s.core core).part with | some p => partPair p | none => false
  match (if pair then none else (s.core core).snapFind a.tenant (fld va 56 6)) with
  | some l => out l s
  | none =>
    match s.gLoad a .load va n with
    | .done l s => out l (if pair then s else s.onCore core fun q => q.snapPlace a.tenant (fld va 56 6) l)
    | r => r

/-- The elements of channels ch, ch + 1, ... of an active voxel: n of them, those outside the channels as BG (R256). -/
def State.elemsFrom (s : State) (core : Nat) (a : Asker) (sb : List SbEnt) (e : Line) (c tile : Word) (acc : List Nat)
    (k : List Nat → State → Served) : Nat → Int → Served
  | 0, _ => k acc s
  | n + 1, ch =>
    if ch < 0 || ch ≥ volC e then s.elemsFrom core a sb e c tile (acc ++ [volBg e]) k n (ch + 1)
    else s.elemLoad core a sb (voxelPtr e c tile ch.toNat) (volEs e) fun x s =>
      s.elemsFrom core a sb e c tile (acc ++ [x]) k n (ch + 1)

/-- The line that CLD or CVLD puts in its destination: an INT8 element of CLD is sign-extended (R256). -/
def voxelLine (e : Line) (n : Nat) (l : List Nat) : Line :=
  if n = 1 then
    let x := l.headD 0
    (if volEfmt e = 3 then sextW 8 x else BitVec.ofNat 64 x).setWidth 512
  else lineOf (8 * volEs e) l

/-- A word as the answer of a walk. -/
def wordAns (w : Word) (s : State) : Served := .done (w.setWidth 512) s

/-- Add to the count of a tile (R248). -/
def State.addCount (s : State) (a : Asker) (tile : Word) (n : Int) (k : State → Served) : Served :=
  s.wAtom a (ptrAdd tile 16) .add (BitVec.ofInt 64 n) 0 fun _ s => k s

/-- Store BG into n bytes from va on, line by line, dropping the lines from the snapshot cache (R258, R259). -/
def State.bgStore (s : State) (core : Nat) (a : Asker) (e : Line) (va : Word) (len : Nat) (k : State → Served) : Nat → Served
  | 0 => k s
  | n + 1 =>
    if len = 0 then k s
    else
      let off := fld va 5 0
      let part := min len (64 - off)
      let bytes := (upTo part).foldl (fun acc i => acc + volBg e / 256 ^ (i % volEs e) % 256 * 256 ^ i) 0
      s.wStore a (lineVa va) (atByte off bytes) (byteMask off part) fun s =>
        (s.onCore core fun q => q.snapDrop a.tenant .g (lineVa va)).bgStore core a e (ptrAdd va part) (len - part) k n

/-- What a walker does with one request (R253 to R260): the answer's word or line, 0 for an absent or empty result. -/
def State.serveWalk (s : State) (r : Req) : Served :=
  match r.op, r.who.thread? with
  | .walk what tid e c ch n sb dead, some w =>
    let core := w.core
    let t := r.who
    let a := t.engine (.cluster (clusterOf core))
    let v := BitVec.ofNat 64 (2 ^ voxelNo e c)
    match what with
    | 0 =>
      let bg := voxelLine e n (List.replicate n (volBg e))
      s.tileOf core a tid e c false (!dead) fun l s =>
        match l with
        | .at' p => s.wLoad a p fun occ s =>
          if occ &&& v = 0 then .done bg s
          else s.elemsFrom core t sb e c p [] (fun l s => .done (voxelLine e n l) s) n ch
        | _ => .done bg s
    | 1 =>
      s.tileOf core a tid e c true (!dead) fun l s =>
        match l with
        | .at' p => s.wAtom a p .or v 0 fun old s =>
          if old &&& v = 0 then s.addCount a p 1 (wordAns p) else wordAns p s
        | _ => wordAns 0 s
    | 2 =>
      s.tileOf core a tid e c false (!dead) fun l s =>
        match l with
        | .at' p => s.wLoad a p fun occ s => wordAns (if occ &&& v = 0 then 0 else voxelPtr e c p 0) s
        | _ => wordAns 0 s
    | 3 =>
      s.locate a e c false (fun l s =>
        match l with
        | .at' p => wordAns p s
        | _ => wordAns 0 s) (volDepth e) (volRoot e)
    | 4 =>
      s.locate a e c false (fun l s =>
        match l with
        | .at' p => s.wLoad a p fun occ s =>
          if occ != 0 then wordAns 0 s
          else s.wLoad a (ptrAdd p 8) fun parent s => s.wAtom a parent .cas 0 p fun old s => wordAns (if old = p then p else 0) s
        | _ => wordAns 0 s) (volDepth e) (volRoot e)
    | 5 => s.poolPush a e 0 c (wordAns 0)
    | 6 => s.poolPush a e 16 c (wordAns 0)
    | 8 =>
      s.tileOf core a tid e c false (!dead) fun l s =>
        match l with
        | .at' _ => wordAns 1 s
        | _ => wordAns 0 s
    | _ =>
      s.tileOf core a tid e c false (!dead) fun l s =>
        match l with
        | .at' p =>
          s.bgStore core t e (voxelPtr e c p 0) (volC e * volEs e) (fun s =>
            s.wAtom a p .and (~~~v) 0 fun old s =>
              if old &&& v != 0 then s.addCount a p (-1) (wordAns 0) else wordAns 0 s) 6
        | _ => wordAns 0 s
  | _, _ => .wait

/-! ### The checks of an issue (R247, R249) -/

/-- Address of an entry of the launch's tensor table (R294); none without a table. -/
def State.tensorVa (s : State) (launch : Nat) (tid : Nat) : Option Word :=
  match s.launch launch with
  | some l => if descW l.desc 2 = 0 then none else some (ptrAdd (descW l.desc 2) (64 * tid))
  | none => none

/-- The volume entry: the unit's copy, else read from the table and kept (R247). A table that cannot be read is the fault of the
instruction itself; an entry that breaks R246 is VOL_ENTRY. -/
def State.withVol (s : State) (tid : BitVec 8) (k : Line → State → State) : State :=
  let l := s.cx.launch.toNat
  let go := fun (e : Line) (s : State) => if volOk e then k e s else s.trap VOL_ENTRY 0 tid.toNat
  match s.mine.vols.find? fun v => v.launch == l && v.tid == tid with
  | some v => go v.entry s
  | none =>
    match s.tensorVa l tid.toNat with
    | none => s.trap VOL_ENTRY 0 tid.toNat
    | some va =>
      match s.gLoad s.asker .load va 64 with
      | .done e s =>
        go e (s.onMine fun q => { q with vols := ({ launch := l, tid := tid, entry := e } :: q.vols).take 8 })
      | .fail f s => if f.absent then s.savePaged s.me.1 s.me.2 [va.toNat] else s.loadFault f.kind f.addr
      | _ => s

/-- The entry and a coordinate word, checked (R249). -/
def State.withVoxel (s : State) (tid : BitVec 8) (a : GReg) (k : Line → Word → State → State) : State :=
  s.withVol tid fun e s =>
    let c := s.rd.getG a
    if c.getLsbD 63 then s.trap BAD_ADDR c else k e c s

/-- The channel of an access (R255). -/
def State.channel (s : State) (b : GReg) (disp : BitVec 16) : Int := (s.rd.getG b + disp64 disp).toInt

/-- A request to the cluster's walker. -/
def State.walkReq (s : State) (what : Nat) (tid : BitVec 8) (e : Line) (c : Word) (ch : Int) (n tag : Nat) : Req :=
  s.reqFor .unit (.walk what tid e c ch n s.cx.sb false) tag

/-! ### The instructions -/

/-- CLD and CVLD (R256): a voxel outside the bounds reads as BG without a walk. -/
def State.voxelRead (s : State) (tid : BitVec 8) (a b : GReg) (disp : BitVec 16) (d : Dest) (n : Line → Nat) : State :=
  s.withVoxel tid a fun e c s =>
    let p := s.newPend d
    if volIn e c then s.startLong { p with reqs := [s.walkReq 0 tid e c (s.channel b disp) (n e) p.tag] }
    else s.longValue p (voxelLine e (n e) (List.replicate (n e) (volBg e))) 0

/-- CLD (R256). -/
def doCld (tid : BitVec 8) (d a b : GReg) (disp : BitVec 16) (s : State) : State :=
  s.voxelRead tid a b disp (.g d .d 0) fun _ => 1

/-- CLD. -/
def execCld (h : Hdr) (tid : BitVec 8) (d a b : GReg) (disp : BitVec 16) (s : State) : Host.Outcome State Fault Refusal :=
  .next (issue (.cld h tid d a b disp) (doCld tid d a b disp) s)

/-- CVLD (R256). -/
def doCvld (tid : BitVec 8) (d : VReg) (a b : GReg) (disp : BitVec 16) (s : State) : State :=
  s.voxelRead tid a b disp (.v d (BitVec.ofNat 64 (2 ^ 64 - 1))) fun e => 64 / volEs e

/-- CVLD. -/
def execCvld (h : Hdr) (tid : BitVec 8) (d : VReg) (a b : GReg) (disp : BitVec 16) (s : State) : Host.Outcome State Fault Refusal :=
  .next (issue (.cvld h tid d a b disp) (doCvld tid d a b disp) s)

/-- CST and CVST (R258): park until the tile is there and its bit set. -/
def State.voxelWrite (s : State) (tid : BitVec 8) (a b : GReg) (disp : BitVec 16) (data : Line) (n : Line → Nat) : State :=
  s.withVoxel tid a fun e c s =>
    let ch := s.channel b disp
    if !volIn e c || ch < 0 || ch ≥ volC e then s.trap VOL_BOUNDS c
    else
      let tag := s.cx.nextTag
      ((s.onCx fun q => { q with nextTag := tag + 1 }).send (.req (s.walkReq 1 tid e c ch 0 tag))).park .sync (.reply tag)
        (.cst e c ch data (n e))

/-- CST (R258). -/
def doCst (tid : BitVec 8) (d a b : GReg) (disp : BitVec 16) (s : State) : State :=
  s.voxelWrite tid a b disp ((s.rd.getG d).setWidth 512) fun _ => 1

/-- CST. -/
def execCst (h : Hdr) (tid : BitVec 8) (d a b : GReg) (disp : BitVec 16) (s : State) : Host.Outcome State Fault Refusal :=
  .next (issue (.cst h tid d a b disp) (doCst tid d a b disp) s)

/-- CVST (R258). -/
def doCvst (tid : BitVec 8) (d : VReg) (a b : GReg) (disp : BitVec 16) (s : State) : State :=
  s.voxelWrite tid a b disp (s.rd.getV d) fun e => 64 / volEs e

/-- CVST. -/
def execCvst (h : Hdr) (tid : BitVec 8) (d : VReg) (a b : GReg) (disp : BitVec 16) (s : State) : Host.Outcome State Fault Refusal :=
  .next (issue (.cvst h tid d a b disp) (doCvst tid d a b disp) s)

/-- Buffer the payload of CST or CVST, one store for each line, from va on (R258). Fuel: the lines. -/
def State.payload (s : State) (va : Word) (bytes len : Nat) : Nat → State
  | 0 => s
  | n + 1 =>
    if len = 0 || s.took.isSome then s
    else
      let off := fld va 5 0
      let part := min len (64 - off)
      (s.storeAt .g va part (atByte off (bytes % 256 ^ part)) (byteMask off part) false).payload (ptrAdd va part)
        (bytes / 256 ^ part) (len - part) n

/-- CST and CVST once the walker has answered: an empty pool is VOL_POOL (R258). -/
def State.cstGot (s : State) (e : Line) (c : Word) (ch : Int) (data : Line) (n : Nat) (tile : Word) : State :=
  if tile = 0 then s.trap VOL_POOL c
  else
    let k := min n (volC e - ch.toNat)
    s.payload (voxelPtr e c tile ch.toNat) (data.toNat % 256 ^ (k * volEs e)) (k * volEs e) 3

/-- CPROBE (R257). -/
def doCprobe (tid : BitVec 8) (d a : GReg) (s : State) : State :=
  s.withVoxel tid a fun e c s =>
    let p := s.newPend (.g d .d 0)
    if volIn e c then s.startLong { p with reqs := [s.walkReq 2 tid e c 0 0 p.tag] } else s.longValue p 0 0

/-- CPROBE. -/
def execCprobe (h : Hdr) (tid : BitVec 8) (d a : GReg) (s : State) : Host.Outcome State Fault Refusal :=
  .next (issue (.cprobe h tid d a) (doCprobe tid d a) s)

/-- CCLR (R259): where the tile exists, a drain, and then the walker clears the voxel, while the thread is parked. -/
def doCclr (tid : BitVec 8) (a : GReg) (s : State) : State :=
  s.withVoxel tid a fun e c s =>
    if !volIn e c then s
    else
      let tag := s.cx.nextTag
      ((s.onCx fun q => { q with nextTag := tag + 1 }).send (.req (s.walkReq 8 tid e c 0 0 tag))).park .sync (.reply tag)
        (.cclr (s.walkReq 7 tid e c 0 0 0))

/-- CCLR once the walker has found whether the tile exists. -/
def State.cclrGot (s : State) (r : Req) (found : Word) : State :=
  if found = 0 then s else s.afterDrain (.sync .none r false) fun s => s.sendSync .none r false

/-- CCLR. -/
def execCclr (h : Hdr) (tid : BitVec 8) (a : GReg) (s : State) : Host.Outcome State Fault Refusal :=
  .next (issue (.cclr h tid a) (doCclr tid a) s)

/-- CTILE.find (R260). -/
def doCtileFind (tid : BitVec 8) (d a : GReg) (s : State) : State :=
  s.withVoxel tid a fun e c s =>
    if volIn e c then s.sendSync (.g d .d 0) (s.walkReq 3 tid e c 0 0 0) false else s.wrG d 0

/-- CTILE_FIND. -/
def execCtileFind (h : Hdr) (tid : BitVec 8) (d a : GReg) (s : State) : Host.Outcome State Fault Refusal :=
  .next (issue (.ctileFind h tid d a) (doCtileFind tid d a) s)

/-- CTILE.detach (R260). -/
def doCtileDetach (tid : BitVec 8) (d a : GReg) (s : State) : State :=
  s.withVoxel tid a fun e c s =>
    if volIn e c then s.sendSync (.g d .d 0) (s.walkReq 4 tid e c 0 0 0) false else s.wrG d 0

/-- CTILE_DETACH. -/
def execCtileDetach (h : Hdr) (tid : BitVec 8) (d a : GReg) (s : State) : Host.Outcome State Fault Refusal :=
  .next (issue (.ctileDetach h tid d a) (doCtileDetach tid d a) s)

/-- A push of a block: bit 57 and the alignment of its pointer are checked (R260). -/
def State.pushBlock (s : State) (tid : BitVec 8) (a : GReg) (what low : Nat) : State :=
  s.withVol tid fun e s =>
    let b := s.rd.getG a
    if b.getLsbD 57 || fld b low 0 != 0 then s.trap BAD_ADDR b
    else s.sendSync .none (s.walkReq what tid e b 0 0 0) false

/-- CTILE.ptile (R260). -/
def doCtilePtile (tid : BitVec 8) (a : GReg) (s : State) : State := s.pushBlock tid a 5 5

/-- CTILE_PTILE. -/
def execCtilePtile (h : Hdr) (tid : BitVec 8) (a : GReg) (s : State) : Host.Outcome State Fault Refusal :=
  .next (issue (.ctilePtile h tid a) (doCtilePtile tid a) s)

/-- CTILE.pnode (R260). -/
def doCtilePnode (tid : BitVec 8) (a : GReg) (s : State) : State := s.pushBlock tid a 6 11

/-- CTILE_PNODE. -/
def execCtilePnode (h : Hdr) (tid : BitVec 8) (a : GReg) (s : State) : Host.Outcome State Fault Refusal :=
  .next (issue (.ctilePnode h tid a) (doCtilePnode tid a) s)

/-- Drop what a core keeps of a volume of a launch (R261). -/
def Core.dropVol (k : Core) (launch : Nat) (tid : BitVec 8) : Core :=
  { k with clb := k.clb.filter fun x => !(x.launch == launch && x.tid == tid)
           vols := k.vols.filter fun x => !(x.launch == launch && x.tid == tid) }

/-- Cores that run threads of a launch. -/
def State.coresOf (s : State) (launch : BitVec 32) : List Nat := (s.cores.filter fun p => p.2.isResident launch).map (·.1)

/-- CLBINV (R261): every core of the launch is told; the acknowledgements are one long result with no destination. -/
def doClbinv (tid : BitVec 8) (s : State) : State :=
  s.withVol tid fun _ s =>
    let p := s.newPend .none
    let l := s.cx.launch
    let cs := s.coresOf l
    if cs.isEmpty then s.longValue p 0 0
    else (s.addPend { p with left := cs.length }).sendAll (cs.map fun c => .clbinv c s.whoMe p.tag l.toNat tid false)

/-- CLBINV. -/
def execClbinv (h : Hdr) (tid : BitVec 8) (s : State) : Host.Outcome State Fault Refusal :=
  .next (issue (.clbinv h tid) (doClbinv tid) s)

end Sys2Proof.Machine
end

