-- ==== Sys2Proof/Machine/Copy.lean ====
section
/-! DEFINITION. Copy.lean: what a thread does with the copy unit: copies, deals, streams, circular buffers, gathers, class 0xA
(R266 to R293). -/
namespace Sys2Proof.Machine

/-! ### Kicks and acquires (R219, R222) -/

/-- Number of a level. -/
def lvlNo : Lvl → Nat
  | .L1 => 1 | .L2 => 2 | .L3 => 3 | .L4 => 4 | .L5 => 5

/-- A card with its sequence number and its parity (R298, R322). -/
def sealCard (card : Line) (seq : Nat) : Line :=
  let c := setWord32 card 15 (BitVec.ofNat 32 (seq % 2 ^ 31))
  if onesIn 512 c.toNat % 2 = 1 then c ||| (1#512 <<< 511) else c

/-- Send an operation to its engine, the buffer being drained: the acknowledgement is a long result, for most kicks with no
destination. A card takes its sequence number from the core's count for the level (R322). -/
def State.sendKick (s : State) (d : Dest) (op : KOp) : State :=
  match op with
  | .card lvl card =>
    let l := lvlNo lvl
    let seq := tgetD s.mine.seqs l 0
    (s.onMine fun k => { k with seqs := tset k.seqs l ((seq + 1) % 2 ^ 31) }).long1 d .unit (.kick (.card lvl (sealCard card seq)))
  | op => s.long1 d .unit (.kick op)

/-- Drain for a kick, then go on: an earlier kick counts as an earlier store (R313). -/
def State.afterKicks (s : State) (k : Cont) (now : State → State) : State :=
  if s.isDrained s.me.1 s.me.2 && s.cx.kicksIn then now s
  else (s.onCx fun c => { c with want := .all }).park .sync .kicked k

/-- A kick (R219): drain, then send; `bits` is what the handle of a copy held before. -/
def State.kick (s : State) (op : KOp) (d : Dest := .none) (bits : Word := 0) : State :=
  s.afterKicks (.kick d op bits) fun s => s.sendKick d op

/-- The acquire of an operation that is satisfied (R222). -/
def State.acquire (s : State) : State := s.snapEmpty s.me.1

/-- XFER_FAULT for a record, with the specifier it belongs to (R290). -/
def State.xferFault (s : State) (spec : BitVec 8) (f : RFault) : State := s.trapInfo XFER_FAULT f.addr (spec.toNat + f.kind.toNat * 256)

/-! ### Block copies (R268, R269, R272, R273) -/

/-- Change a handle of a core. -/
def Core.onHandle (k : Core) (h : HReg) (f : Handle → Handle) : Core := { k with handles := tset k.handles h.toNat (f (k.handle h)) }
/-- Change a counter of a core. -/
def Core.onCounter (k : Core) (r : KReg) (f : Counter → Counter) : Core :=
  { k with counters := tset k.counters r.toNat (f (k.counter r)) }

/-- Chunks of a copy (R269). -/
def chunksOf (n : Nat) : Nat := (n + 511) / 512

/-- The trap of a handle's fault record, which it clears. -/
def State.handleFault (s : State) (h : HReg) (f : RFault) : State :=
  (s.onMine fun k => k.onHandle h fun x => { x with fault := none }).xferFault (hSpec h) f

/-- CPY once its operands are sound: wait for the handle, clear its bitmap, kick (R269). -/
def State.cpyGo (s : State) (dk sk : CKind) (h : HReg) (a b : Word) (n : Nat) : State :=
  let x := s.mine.handle h
  if x.busy then s.park .sync (.idle h) (.cpy dk sk h a b n)
  else match x.fault with
  | some f => s.handleFault h f
  | none =>
    (s.onMine fun k => k.onHandle h fun _ =>
      { bits := ~~~(BitVec.ofNat 64 (2 ^ chunksOf n - 1)), busy := true, fault := none }).kick (.cpy dk sk h a b n) .none x.bits

/-- Mode of a place kind that is an address. -/
def ckMode : CKind → Option Mode
  | .l => some .l | .c => some .c | .x => some .x | .g => some .g
  | .o | .cb => none

/-- Bits of a place that its kind requires to be zero, other than those of an address (R268 check 2). -/
def ckBits (dst : Bool) (k : CKind) (a : Word) : Bool :=
  match k with
  | .o => fld a 63 16 == 0
  | .cb => dst && fld a 63 3 == 0
  | _ => true

/-- Checks 4 to 6 of R268 for a place: cause and address. -/
def State.placeBad (s : State) (k : CKind) (a : Word) (n : Nat) (stage : Nat) : Option (BitVec 8 × Word) :=
  match k, ckMode k, stage with
  | _, some m, 4 => if eaClean m a then none else some (BAD_ADDR, a)
  | .o, _, 5 => if a.toNat % 64 != 0 then some (MISALIGN, a) else none
  | _, some _, 5 => if a.toNat % 64 != 0 then some (MISALIGN, a) else none
  | .l, _, 6 => if s.mine.reachable a.toNat n then none else some (WINDOW, a)
  | _, _, _ => none

/-- The first failure among a list of checks. -/
def firstBad : List (Option (BitVec 8 × Word)) → Option (BitVec 8 × Word)
  | [] => none
  | some x :: _ => some x
  | none :: t => firstBad t

/-- CPY (R268, R269). -/
def doCpy (dk sk : CKind) (h : HReg) (a b c : GReg) (s : State) : State :=
  let da := s.rd.getG a
  let sa := s.rd.getG b
  let n := (s.rd.getG c).toNat
  let cb := s.mine.cb (fld da 2 0)
  if n < 64 || n > 32768 || n % 64 != 0 || (dk = .cb && n % cb.size != 0) then s.trap XFER_USE 0 1
  else if !ckBits true dk da || !ckBits false sk sa then s.trap XFER_USE 0 2
  else if (dk = .o && fld da 10 0 + n > 1088) || (sk = .o && fld sa 10 0 + n > 1088) then s.trap XFER_USE 0 3
  else
    match firstBad [s.placeBad dk da n 4, s.placeBad sk sa n 4, s.placeBad dk da n 5, s.placeBad sk sa n 5,
        s.placeBad dk da n 6, s.placeBad sk sa n 6] with
    | some (cause, addr) => s.trap cause addr
    | none => if dk = .cb && cb.role != 0 then s.trap XFER_USE 0 6 else s.cpyGo dk sk h da sa n

/-- CPY. -/
def execCpy (h : Hdr) (dk sk : CKind) (d : HReg) (a b c : GReg) (s : State) : Host.Outcome State Fault Refusal :=
  .next (issue (.cpy h dk sk d a b c) (doCpy dk sk d a b c) s)

/-- CPYW at issue and whenever it is looked at again (R272). -/
def State.cpywGo (s : State) (h : HReg) (m : Word) : State :=
  let x := s.mine.handle h
  let ok := x.bits &&& m == m
  match x.fault with
  | some f => if ok || !x.busy then s.handleFault h f else s.park .sync (.mask h m) (.cpyw h)
  | none => if ok then s.acquire else s.park .sync (.mask h m) (.cpyw h)

/-- CPYW (R272). -/
def doCpyw (a : HReg) (b : GReg) (s : State) : State := s.cpywGo a (s.rd.getG b)

/-- CPYW. -/
def execCpyw (h : Hdr) (a : HReg) (b : GReg) (s : State) : Host.Outcome State Fault Refusal :=
  .next (issue (.cpyw h a b) (doCpyw a b) s)

/-- CPYT (R273). -/
def doCpyt (d : GReg) (a : HReg) (b : GReg) (s : State) : State :=
  let x := s.mine.handle a
  match x.fault with
  | some f => s.handleFault a f
  | none =>
    let m := s.rd.getG b
    let r := x.bits &&& m
    let s := s.wrG d r
    if r = m then s.acquire else s

/-- CPYT. -/
def execCpyt (h : Hdr) (d : GReg) (a : HReg) (b : GReg) (s : State) : Host.Outcome State Fault Refusal :=
  .next (issue (.cpyt h d a b) (doCpyt d a b) s)

/-! ### Dealing (R274) -/

/-- Cores of the scope of a deal. -/
def dealSize (die : Bool) : Nat := if die then 512 else 16
/-- Indices of the targets of a deal. -/
def dealTargets (die : Bool) (b : Word) : List Nat :=
  (upTo (fld b 63 48)).map fun j => (fld b 31 16 + j * fld b 47 32) % dealSize die

/-- DEAL (R274). -/
def doDeal (die : Bool) (d : KReg) (a b c : GReg) (total : BitVec 32) (s : State) : State :=
  let src := s.rd.getG a
  let pat := s.rd.getG b
  let blk := fld pat 15 0
  let cnt := fld pat 63 48
  if src.getLsbD 57 then s.trap BAD_ADDR src
  else if src.toNat % 64 != 0 then s.trap MISALIGN src
  else if blk < 64 || blk > 32768 || blk % 64 != 0 || total = 0 || total.toNat % blk != 0 then s.trap XFER_USE 0 1
  else if cnt < 1 || cnt > dealSize die || fld pat 31 16 ≥ dealSize die || !(dealTargets die pat).Nodup then s.trap XFER_USE 0 7
  else s.kick (.deal die d src pat (s.rd.getG c) total.toNat)

/-- DEAL. -/
def execDeal (h : Hdr) (die : Bool) (d : KReg) (a b c : GReg) (total : BitVec 32) (s : State) : Host.Outcome State Fault Refusal :=
  .next (issue (.deal h die d a b c total) (doDeal die d a b c total) s)

/-! ### Stream registers (R275, R278) -/

/-- The stream that a SARM arms; the copy unit has not accepted it yet. -/
def newStream (wr : Bool) (n2 n1 n0 : BitVec 10) (tid : BitVec 8) (start p : Word) : Stream :=
  { wr := wr, ready := false, tid := tid, start := start, p1 := p.setWidth 32, p2 := p.extractLsb' 32 32
    n0 := n0.toNat + 1, n1 := n1.toNat + 1, n2 := n2.toNat + 1, mode := .l, base := 0, next := 0, ahead := [], last := 0, out := []
    fault := none }

/-- Arm a register and tell the copy unit, the buffer being drained (R275). -/
def State.sarmSend (s : State) (v : VReg) (st : Stream) : State :=
  (s.onCx fun c => { c with streams := tset c.streams v.toNat st }).sendKick .none (.sarm v)

/-- SARM (R275): base addresses are multiples of 64, so the offset and the pitches must be. -/
def doSarm (wr : Bool) (n2 n1 n0 : BitVec 10) (tid : BitVec 8) (d : VReg) (b c : GReg) (s : State) : State :=
  let start := s.rd.getG b
  let p := s.rd.getG c
  let st := newStream wr n2 n1 n0 tid start p
  if start.toNat % 64 != 0 then s.trap MISALIGN start
  else if st.p1.toNat % 64 != 0 || st.p2.toNat % 64 != 0 then s.trap MISALIGN p
  else if d.toNat < 24 || !partStrm s.cx.part || (tget s.cx.streams d.toNat).isSome then s.trap XFER_USE 0 4
  else s.afterKicks (.sarm d st) fun s => s.sarmSend d st

/-- SARM. -/
def execSarm (h : Hdr) (wr : Bool) (n2 n1 n0 : BitVec 10) (tid : BitVec 8) (d : VReg) (b c : GReg) (s : State) : Host.Outcome State Fault Refusal :=
  .next (issue (.sarm h wr n2 n1 n0 tid d b c) (doSarm wr n2 n1 n0 tid d b c) s)

/-- SDROP (R278): a read stream leaves its last strip; a write stream's pushes are drained by the copy unit. A strip that it has refused
is reported here; one refused in the drain of a SDROP, at the register's next (R290). -/
def doSdrop (a : VReg) (s : State) : State :=
  match tget s.cx.dropRec a.toNat, tget s.cx.streams a.toNat with
  | some f, _ => (s.onCx fun c => { c with dropRec := tdel c.dropRec a.toNat }).xferFault (vSpec a) f
  | none, none => s
  | none, some st =>
    match st.fault, st.wr && st.total != 0 with
    | some f, true =>
      (s.onCx fun c => { c with streams := tset c.streams a.toNat { st with fault := none } }).xferFault (vSpec a) f
    | _, _ =>
      let s := s.onCx fun c => { c with streams := tdel c.streams a.toNat }
      if st.wr then s.sendKick .none (.sdrop a st) else s.onRegs fun r => r.setV a st.last

/-- SDROP. -/
def execSdrop (h : Hdr) (a : VReg) (s : State) : Host.Outcome State Fault Refusal :=
  .next (issue (.sdrop h a) (doSdrop a) s)

/-! ### Circular buffers (R280 to R283) -/

/-- Change a buffer of a core. -/
def Core.onCb (k : Core) (n : Nat) (f : CBuf → CBuf) : Core := { k with cbs := tset k.cbs n (f (k.cb n)) }

/-- The buffer that the two operand words of CBSET describe (R280). -/
def cbufOf (a b : Word) : CBuf :=
  let role := fld b 19 18
  let cnt := fld b 17 10 + 1
  { set := true, core := fld a 28 16, base := fld a 15 0, pcb := fld b 35 33, pcore := fld b 32 20, role := role, count := cnt
    size := 64 * (fld b 9 0 + 1), free := if role = 2 then 0 else cnt, filled := 0, pidx := 0, cidx := 0, reserved := 0, acquired := 0
    lost := false }

/-- An operation is a CPY into circular buffer n. -/
def KOp.intoCb (n : Nat) : KOp → Bool
  | .cpy .cb _ _ a _ _ => fld a 2 0 == n
  | _ => false
/-- A CPY into a core's buffer is in progress (R280): its kick still drains, is on its way, or was accepted. -/
def State.cbCopying (s : State) (core n : Nat) : Bool :=
  (s.core core).copies.any (fun o => o.op.intoCb n) ||
  (s.core core).ctxs.any (fun p => match p.2.run with | .parked _ _ (.kick _ k _) _ => k.intoCb n | _ => false) ||
  s.chan.any fun m => match m.body with
    | .req { who := w, op := .kick k, .. } => (match w.thread? with | some t => t.core == core | none => false) && k.intoCb n
    | _ => false

/-- CBSET (R280). -/
def doCbset (d : CbReg) (a b : GReg) (s : State) : State :=
  let x := s.rd.getG a
  let y := s.rd.getG b
  let q := cbufOf x y
  if q.base % 64 != 0 then s.trap MISALIGN (BitVec.ofNat 64 q.base)
  else if fld x 63 29 != 0 || fld y 63 36 != 0 || q.core != (if q.role = 3 then q.pcore else s.me.1) ||
      (q.role ≥ 2 && q.pcore == s.me.1) || (q.role ≤ 2 && !s.mine.reachable q.base (q.count * q.size)) || s.cbCopying s.me.1 d.toNat then
    s.trap XFER_USE 0 8
  else s.onMine fun k => k.onCb d.toNat fun _ => q

/-- CBSET. -/
def execCbset (h : Hdr) (d : CbReg) (a b : GReg) (s : State) : Host.Outcome State Fault Refusal :=
  .next (issue (.cbset h d a b) (doCbset d a b) s)

/-- Pool offset of the stage at an index (R280). -/
def CBuf.stage (q : CBuf) (i : Nat) : Nat := q.base + i * q.size

/-- A buffer instruction: its role (R281), and a partner that is contained (R283). -/
def State.withCb (s : State) (cb : CbReg) (roles : List Nat) (k : CBuf → State) : State :=
  let q := s.mine.cb cb.toNat
  if !roles.contains q.role then s.trap XFER_USE 0 6 else if q.lost then s.loadFault 7 0 else k q

/-- CBRSV at issue and whenever it is looked at again (R281). -/
def State.cbrsvGo (s : State) (d : GReg) (cb : CbReg) : State :=
  s.withCb cb [1, 3] fun q =>
    if q.free = 0 then s.park .sync (.cbFree cb) (.cbrsv d cb)
    else
      let off := q.stage q.pidx
      (s.onMine fun k => k.onCb cb.toNat fun q =>
        { q with free := q.free - 1, pidx := (q.pidx + 1) % q.count, reserved := q.reserved + 1 }).wrG d
        (BitVec.ofNat 64 (if q.role = 3 then q.core * 65536 + off else off))

/-- CBRSV (R281). -/
def doCbrsv (d : GReg) (a : CbReg) (s : State) : State := s.cbrsvGo d a

/-- CBRSV. -/
def execCbrsv (h : Hdr) (d : GReg) (a : CbReg) (s : State) : Host.Outcome State Fault Refusal :=
  .next (issue (.cbrsv h d a) (doCbrsv d a) s)

/-- CBCMT once its drain is done: the counter, or a fill notice (R281, R282). -/
def State.cbcmtGo (s : State) (cb : CbReg) : State :=
  s.withCb cb [1, 3] fun q =>
    if q.reserved = 0 then s.trap XFER_USE 0 6
    else
      let s := s.onMine fun k => k.onCb cb.toNat fun q =>
        { q with reserved := q.reserved - 1, filled := if q.role = 1 then q.filled + 1 else q.filled }
      if q.role = 3 then s.send (.fill q.pcore q.pcb) else s

/-- CBCMT (R281). -/
def doCbcmt (a : CbReg) (s : State) : State :=
  s.withCb a [1, 3] fun q =>
    if q.reserved = 0 then s.trap XFER_USE 0 6 else s.afterDrain (.cbcmt a) fun s => s.cbcmtGo a

/-- CBCMT. -/
def execCbcmt (h : Hdr) (a : CbReg) (s : State) : Host.Outcome State Fault Refusal :=
  .next (issue (.cbcmt h a) (doCbcmt a) s)

/-- CBACQ at issue and whenever it is looked at again (R281): an acquire. -/
def State.cbacqGo (s : State) (d : GReg) (cb : CbReg) : State :=
  s.withCb cb [0, 1, 2] fun q =>
    if q.filled = 0 then s.park .sync (.cbFilled cb) (.cbacq d cb)
    else
      ((s.onMine fun k => k.onCb cb.toNat fun q =>
        { q with filled := q.filled - 1, cidx := (q.cidx + 1) % q.count, acquired := q.acquired + 1 }).wrG d
        (BitVec.ofNat 64 (q.stage q.cidx))).acquire

/-- CBACQ (R281). -/
def doCbacq (d : GReg) (a : CbReg) (s : State) : State := s.cbacqGo d a

/-- CBACQ. -/
def execCbacq (h : Hdr) (d : GReg) (a : CbReg) (s : State) : Host.Outcome State Fault Refusal :=
  .next (issue (.cbacq h d a) (doCbacq d a) s)

/-- CBREL (R281): the marker's wait is over. -/
def doCbrel (a : CbReg) (s : State) : State :=
  s.withCb a [0, 1, 2] fun q =>
    if q.acquired = 0 then s.trap XFER_USE 0 6
    else
      let s := s.onMine fun k => k.onCb a.toNat fun q =>
        { q with acquired := q.acquired - 1, free := if q.role ≤ 1 then q.free + 1 else q.free }
      if q.role = 2 then s.send (.stageFree q.pcore q.pcb) else s

/-- CBREL. -/
def execCbrel (h : Hdr) (a : CbReg) (s : State) : Host.Outcome State Fault Refusal :=
  .next (issue (.cbrel h a) (doCbrel a) s)

/-! ### Gather, scatter, and their counters (R284, R289) -/

/-- GET and PUT at issue (R284). -/
def State.gather (s : State) (put i64 : Bool) (pm lm : Mode) (cmb : BitVec 2) (tid : BitVec 8) (d : KReg) (a b c : GReg) : State :=
  let list := s.rd.getG a
  let rows := s.rd.getG b
  let n := s.rd.getG c
  let al := if i64 then 8 else 4
  if !eaClean lm list then s.trap BAD_ADDR list
  else if !eaClean pm rows then s.trap BAD_ADDR rows
  else if list.toNat % al != 0 then s.trap MISALIGN list
  else if rows.toNat % al != 0 then s.trap MISALIGN rows
  else if n.toNat > 65536 then s.trap XFER_USE 0 1
  else s.kick (.gather put i64 pm lm cmb tid d list rows n.toNat)

/-- GET (R284). -/
def doGet (i64 : Bool) (pm lm : Mode) (tid : BitVec 8) (d : KReg) (a b c : GReg) (s : State) : State :=
  s.gather false i64 pm lm 0 tid d a b c

/-- GET. -/
def execGet (h : Hdr) (i64 : Bool) (pm lm : Mode) (tid : BitVec 8) (d : KReg) (a b c : GReg) (s : State) : Host.Outcome State Fault Refusal :=
  .next (issue (.get h i64 pm lm tid d a b c) (doGet i64 pm lm tid d a b c) s)

/-- PUT (R284). -/
def doPut (i64 : Bool) (pm lm : Mode) (cmb : BitVec 2) (tid : BitVec 8) (d : KReg) (a b c : GReg) (s : State) : State :=
  s.gather true i64 pm lm cmb tid d a b c

/-- PUT. -/
def execPut (h : Hdr) (i64 : Bool) (pm lm : Mode) (cmb : BitVec 2) (tid : BitVec 8) (d : KReg) (a b c : GReg) (s : State) : Host.Outcome State Fault Refusal :=
  .next (issue (.put h i64 pm lm cmb tid d a b c) (doPut i64 pm lm cmb tid d a b c) s)

/-- The counter has reached a target (R289). -/
def reached (n target : BitVec 32) : Bool := target == 0 || decide ((n - target).toNat < 2 ^ 31)

/-- GPWAIT at issue and whenever it is looked at again (R289). -/
def State.gpwaitGo (s : State) (sub : Bool) (d : GReg) (k : KReg) (target : BitVec 32) : State :=
  let x := s.mine.counter k
  if !reached x.n target then s.park .sync (.counter k target) (.gpwait sub d k target)
  else match x.fault with
  | some f => (s.onMine fun q => q.onCounter k fun y => { y with fault := none }).xferFault (kSpec k) f
  | none =>
    let s := s.wrG d (x.n.setWidth 64)
    (if sub then s.onMine fun q => q.onCounter k fun y => { y with n := y.n - target } else s).acquire

/-- GPWAIT (R289). -/
def doGpwait (sub : Bool) (d : GReg) (a : KReg) (b : GReg) (s : State) : State := s.gpwaitGo sub d a ((s.rd.getG b).setWidth 32)

/-- GPWAIT. -/
def execGpwait (h : Hdr) (sub : Bool) (d : GReg) (a : KReg) (b : GReg) (s : State) : Host.Outcome State Fault Refusal :=
  .next (issue (.gpwait h sub d a b) (doGpwait sub d a b) s)

end Sys2Proof.Machine
end

