-- ==== Sys2Proof/Machine/Debug.lean ====
section
/-! DEFINITION. Debug.lean: halts, and the debug and trace instructions, class 0xF (R398, R404 to R406, R413 to R419). -/
namespace Sys2Proof.Machine

/-! ### Halting a context (R404, R405) -/

/-- Skid saturating at 16 bits, with the edge in bit 15 (R400 type 8). -/
def skidTag (skid : Nat) (edge : Bool) : Nat := if edge then min skid 0x7FFF + 0x8000 else min skid 0xFFFF

/-- Halt a context: its SKID register, unless one is recorded already (R403), and a type 8 record. -/
def State.haltCtx (s : State) (core x : Nat) (edge : Bool) : State :=
  let c := s.ctx core x
  if c.halted then s
  else
    let s := s.setCtx core x { c with
      halted := true, edge := edge, edgeWait := none, stepping := false
      skidReg := if c.skidReg.isNone then some (c.skid, edge) else c.skidReg }
    s.traceCtx core x 8 (skidTag c.skid edge) c.pc

/-! ### The region stack (R414) -/

/-- RENTER's change of the stack. -/
def Ctx.renter (c : Ctx) (id : BitVec 16) : Ctx :=
  if c.regions.length = 16 then
    { c with regions := id :: c.regions.dropLast, ovf := if c.ovf = BitVec.allOnes 16 then c.ovf else c.ovf + 1 }
  else { c with regions := id :: c.regions }

/-- RLEAVE's change of the stack, and the id left. -/
def Ctx.rleave (c : Ctx) : BitVec 16 × Ctx :=
  match c.regions with
  | top :: rest => (top, { c with regions := rest })
  | [] => (0, if c.ovf = 0 then c else { c with ovf := c.ovf - 1 })

/-- A region edge (R406): its record, and the halt of a precise stop, after which the thread goes on at its next instruction. -/
def State.edge (s : State) (typ : Nat) (id : BitVec 16) : State :=
  let s := if s.mine.dctl.getLsbD 2 then s.traceCtx s.me.1 s.me.2 typ id.toNat s.pcNow else s
  if s.cx.edgeWait.isSome then
    (s.onCx fun c => { c with pc := c.npc }).haltCtx s.me.1 s.me.2 true
  else s

/-- RENTER (R414). -/
def doRenter (id : BitVec 16) (s : State) : State := (s.onCx fun c => c.renter id).edge 2 id

/-- RENTER. -/
def execRenter (h : Hdr) (id : BitVec 16) (s : State) : Host.Outcome State Fault Refusal :=
  .next (issue (.renter h id) (doRenter id) s)

/-- RLEAVE (R414). -/
def doRleave (s : State) : State := (s.onCx fun c => c.rleave.2).edge 3 s.cx.rleave.1

/-- RLEAVE. -/
def execRleave (h : Hdr) (s : State) : Host.Outcome State Fault Refusal :=
  .next (issue (.rleave h) doRleave s)

/-! ### Records and breaks -/

/-- TRACE (R415). -/
def doTrace (tag : BitVec 16) (a : GReg) (s : State) : State := s.traceCtx s.me.1 s.me.2 1 tag.toNat (s.rd.getG a)

/-- TRACE. -/
def execTrace (h : Hdr) (tag : BitVec 16) (a : GReg) (s : State) : Host.Outcome State Fault Refusal :=
  .next (issue (.trace h tag a) (doTrace tag a) s)

/-- BRK (R416). -/
def doBrk (code : BitVec 16) (scope : BitVec 2) (s : State) : State :=
  if !s.mine.dctl.getLsbD 0 then s.trap BREAK s.pcNow
  else
    let pc := s.pcNow
    let s := s.traceCtx s.me.1 s.me.2 5 code.toNat pc
    let s := (s.onCx fun c => { c with pc := c.npc, skid := 0 }).haltCtx s.me.1 s.me.2 false
    s.startStop scope.toNat s.me.1 false none

/-- BRK. -/
def execBrk (h : Hdr) (code : BitVec 16) (scope : BitVec 2) (s : State) : Host.Outcome State Fault Refusal :=
  .next (issue (.brk h code scope) (doBrk code scope) s)

/-! ### Watchpoints and counters (R417, R418) -/

/-- The unit that a watchpoint address names, after the checks of R180 to R182. -/
def State.withUnit (s : State) (am : Mode) (ea : Word) (k : Place → State) : State :=
  if !eaClean am ea then s.trap BAD_ADDR ea
  else if ea.toNat % 8 != 0 then s.trap MISALIGN ea
  else k (match am with
    | .g => .glob ea
    | m => .pool (poolOf s.me.1 m ea).1 (poolOf s.me.1 m ea).2 false ea)

/-- WPSET (R417): its acknowledgement is a long result with no destination. -/
def doWpset (idx : BitVec 3) (kind scope : BitVec 2) (am : Mode) (a : GReg) (s : State) : State :=
  s.withUnit am (s.rd.getG a) fun pl => s.long1 .none pl (.wpset idx.toNat kind.toNat scope.toNat)

/-- WPSET. -/
def execWpset (h : Hdr) (idx : BitVec 3) (kind scope : BitVec 2) (am : Mode) (a : GReg) (s : State) : Host.Outcome State Fault Refusal :=
  .next (issue (.wpset h idx kind scope am a) (doWpset idx kind scope am a) s)

/-- WPCLR (R417). -/
def doWpclr (idx : BitVec 3) (am : Mode) (a : GReg) (s : State) : State :=
  s.withUnit am (s.rd.getG a) fun pl => s.long1 .none pl (.wpclr idx.toNat)

/-- WPCLR. -/
def execWpclr (h : Hdr) (idx : BitVec 3) (am : Mode) (a : GReg) (s : State) : Host.Outcome State Fault Refusal :=
  .next (issue (.wpclr h idx am a) (doWpclr idx am a) s)

/-- A counter of the issuing core, present or latched: counter 0 is the cycles since reset (R412); 7 to 11 count cycles of units whose
timing the spec does not promise, and read as free values (log entry 21). -/
def State.counterNow (s : State) (lat : Bool) (n : Nat) : Word :=
  if lat then if n = 0 then BitVec.ofNat 64 s.dbg.tickCyc else tgetD s.mine.cntLat n 0
  else if n = 0 then BitVec.ofNat 64 s.cycle
  else if 7 ≤ n ∧ n ≤ 11 then Config.freeWord s.fresh
  else tgetD s.mine.cnt n 0

/-- CNTRD (R418): a long result. -/
def doCntrd (lat : Bool) (n : BitVec 8) (d : GReg) (s : State) : State :=
  (s.longValue (s.newPend (.g d .d 0)) ((s.counterNow lat n.toNat).setWidth 512) 0).used

/-- CNTRD. -/
def execCntrd (h : Hdr) (lat : Bool) (n : BitVec 8) (d : GReg) (s : State) : Host.Outcome State Fault Refusal :=
  .next (issue (.cntrd h lat n d) (doCntrd lat n d) s)

end Sys2Proof.Machine
end

