-- ==== Sys2Proof/Machine/Experience.lean ====
section
/-! DEFINITION. Experience.lean: the experience instructions, class 0x4 (R152 to R156). -/
namespace Sys2Proof.Machine

/-! ### What a slot's words give (R155) -/

/-- The prediction of a branch slot: taken. -/
def xselValue (w0 w1 : Word) : Bool :=
  slotKind w0 == 1 && (decide (xf w1 0 > xf w1 1) || (xf w1 0 == xf w1 1 && xf w1 2 % 2 == 1))

/-- The unroll factor of a loop slot. -/
def xunrValue (w0 w1 : Word) : Nat :=
  let m := if slotKind w0 = 3 then max 512 (xf w1 1) else 512
  if 4096 ≤ m then 8 else if 2048 ≤ m then 4 else if 1024 ≤ m then 2 else 1

/-- The prefetch distance of a load slot, before the cap. -/
def xpfdValue (w0 w1 : Word) : Nat :=
  let b := fun i => xf w1 i
  if slotKind w0 != 2 || w1 == 0 then 1
  else if b 0 ≥ b 1 && b 0 ≥ b 2 && b 0 ≥ b 3 then 0
  else if b 1 ≥ b 2 && b 1 ≥ b 3 then 1
  else if b 2 ≥ b 3 then 4 else 8

/-- The line that a long result puts in its destination, from the line that the reply brings. -/
def shapeLine (sh : Shape) (l : Line) : Line :=
  let w0 := word64 l 0
  let w1 := word64 l 1
  match sh with
  | .plain => l
  | .xsel => if xselValue w0 w1 then 1 else 0
  | .xunr => BitVec.ofNat 512 (xunrValue w0 w1)
  | .xpfd cap => BitVec.ofNat 512 (min (xpfdValue w0 w1) cap.toNat)

/-! ### Reading a slot (R152) -/

/-- Read slot n of the thread's launch: from the entry's view, or from the slot's home. -/
def State.readX (s : State) (n : Nat) (d : Dest) (sh : Shape) : State :=
  let core := s.me.1
  let launch := s.cx.launch.toNat
  let p := { s.newPend d with shape := sh }
  if n = 0xFFFF || n ≥ s.slotCount launch then s.longValue p 0 0
  else
    match xFind s.mine.xcache launch n with
    | some e =>
      match e.view with
      | some v =>
        (s.onMine fun k => { k with xcache := xFront k.xcache e }).longValue p ((v.setWidth 512 <<< 64) ||| e.w0.setWidth 512) 0
      | none => s.startLong { p with reqs := [s.reqFor (.glob (s.slotVa launch n)) (.xread core launch n none true) p.tag] }
    | none =>
      let r := s.reqFor (.glob (s.slotVa launch n)) (.xread core launch n none true) p.tag
      (s.addPend { p with reqs := [r] }).xAlloc core launch n [] (some (r.who, p.tag))

/-- The report of a register's value after a read; none without a register. -/
def State.reportX (s : State) (b : Option GReg) (x : BitVec 16) (kind : Nat) (f : Word → XRep) : State :=
  match b with
  | none => s
  | some r => s.xReport s.me.1 s.cx.part s.cx.launch.toNat x { rep := f (s.rd.getG r), pc := s.pcNow, kind := some kind }

/-- XRD (R155): word 1, or word 0 with .hdr. -/
def doXrd (hdr : Bool) (d a : GReg) (s : State) : State :=
  s.readX (fld (s.rd.getG a) 15 0) (.g d .d (if hdr then 0 else 8)) .plain

/-- XRD. -/
def execXrd (h : Hdr) (hdr : Bool) (d a : GReg) (s : State) : Host.Outcome State Fault Refusal :=
  .next (issue (.xrd h hdr d a) (doXrd hdr d a) s)

/-- XSEL (R155): read, then report. -/
def doXsel (d : PReg) (b : Option GReg) (x : BitVec 16) (s : State) : State :=
  (s.readX x.toNat (.p d) .xsel).reportX b x 1 fun v => .outcome (v.getLsbD 0)

/-- XSEL. -/
def execXsel (h : Hdr) (d : PReg) (b : Option GReg) (x : BitVec 16) (s : State) : Host.Outcome State Fault Refusal :=
  .next (issue (.xsel h d b x) (doXsel d b x) s)

/-- XUNR (R155): read, then report. -/
def doXunr (d : GReg) (b : Option GReg) (x : BitVec 16) (s : State) : State :=
  (s.readX x.toNat (.g d .d 0) .xunr).reportX b x 3 fun v => .trip (fld v 31 0)

/-- XUNR. -/
def execXunr (h : Hdr) (d : GReg) (b : Option GReg) (x : BitVec 16) (s : State) : Host.Outcome State Fault Refusal :=
  .next (issue (.xunr h d b x) (doXunr d b x) s)

/-- XPFD (R155): read, then report. -/
def doXpfd (d a : GReg) (b : Option GReg) (x : BitVec 16) (s : State) : State :=
  (s.readX x.toNat (.g d .d 0) (.xpfd (s.rd.getG a))).reportX b x 2 fun v => .latency v.toNat

/-- XPFD. -/
def execXpfd (h : Hdr) (d a : GReg) (b : Option GReg) (x : BitVec 16) (s : State) : Host.Outcome State Fault Refusal :=
  .next (issue (.xpfd h d a b x) (doXpfd d a b x) s)

/-- XNOTE (R155): its value is taken as the slot's kind requires. -/
def doXnote (a : GReg) (x : BitVec 16) (s : State) : State :=
  s.xReport s.me.1 s.cx.part s.cx.launch.toNat x { rep := .latency (s.rd.getG a).toNat, pc := s.pcNow, kind := none }

/-- XNOTE. -/
def execXnote (h : Hdr) (a : GReg) (x : BitVec 16) (s : State) : Host.Outcome State Fault Refusal :=
  .next (issue (.xnote h a x) (doXnote a x) s)

/-- XFLUSH (R155): a long result with no destination, for every merge sent. -/
def doXflush (s : State) : State :=
  let launch := s.cx.launch.toNat
  let p := s.newPend .none
  let (t, n) := s.mergeWhere s.me.1 (fun e => e.launch == launch) (some (s.asker, p.tag))
  if n = 0 then t.longValue p 0 0 else t.addPend { p with left := n }

/-- XFLUSH. -/
def execXflush (h : Hdr) (s : State) : Host.Outcome State Fault Refusal :=
  .next (issue (.xflush h) doXflush s)

end Sys2Proof.Machine
end

