-- ==== Sys2Proof/Machine/Integer.lean ====
section
/-! DEFINITION. Integer.lean: the integer instructions, class 0x1 (R118 to R127). -/
namespace Sys2Proof.Machine

/-! ### Operands and results (R120) -/

/-- The immediate operand, sign-extended (R120). -/
def imm48 (imm : BitVec 48) : Word := imm.signExtend 64

/-- A result of width w from operands of width w, sign-extended to the register (R120). -/
def aluValue (wd : Wd) (f : Nat → Nat → Nat → Nat) (x y : Word) : Word :=
  let w := wdWidth wd
  sextW w (f w (x.toNat % 2 ^ w) (y.toNat % 2 ^ w))

/-- Compute and write at once: a short result (R120). -/
def State.alu (s : State) (wd : Wd) (f : Nat → Nat → Nat → Nat) (d : GReg) (x y : Word) : State := s.wrG d (aluValue wd f x y)

/-- Compute a long result: the divider (R121). -/
def State.aluLong (s : State) (wd : Wd) (f : Nat → Nat → Nat → Nat) (d : GReg) (x y : Word) : State :=
  s.longValue (s.newPend (.g d .d 0)) ((aluValue wd f x y).setWidth 512) 0

/-- ADD: a + b. -/
def rAdd (w a b : Nat) : Nat := (a + b) % 2 ^ w
/-- SUB: a - b. -/
def rSub (w a b : Nat) : Nat := (a + 2 ^ w - b) % 2 ^ w
/-- MUL: a * b. -/
def rMul (w a b : Nat) : Nat := modPow w (signedOf w a * signedOf w b)
/-- MULH: upper half of the signed product. -/
def rMulh (w a b : Nat) : Nat := modPow w (signedOf w a * signedOf w b / 2 ^ w)
/-- MULHU: upper half of the unsigned product. -/
def rMulhu (w a b : Nat) : Nat := a * b / 2 ^ w
/-- DIV: signed quotient, toward zero; all ones for a divisor of 0. -/
def rDiv (w a b : Nat) : Nat := if b = 0 then 2 ^ w - 1 else modPow w ((signedOf w a).tdiv (signedOf w b))
/-- DIVU: unsigned quotient; all ones for a divisor of 0. -/
def rDivu (w a b : Nat) : Nat := if b = 0 then 2 ^ w - 1 else a / b
/-- REM: signed remainder with the sign of the dividend; the dividend for a divisor of 0. -/
def rRem (w a b : Nat) : Nat := if b = 0 then a else modPow w ((signedOf w a).tmod (signedOf w b))
/-- REMU: unsigned remainder; the dividend for a divisor of 0. -/
def rRemu (_w a b : Nat) : Nat := if b = 0 then a else a % b
/-- AND: a and b. -/
def rAndd (_w a b : Nat) : Nat := a &&& b
/-- OR: a or b. -/
def rOrr (_w a b : Nat) : Nat := a ||| b
/-- XOR: a xor b. -/
def rXor (_w a b : Nat) : Nat := a ^^^ b
/-- ANDN: a and not b. -/
def rAndn (w a b : Nat) : Nat := a &&& (2 ^ w - 1 - b)
/-- SHL: left shift. -/
def rShl (w a b : Nat) : Nat := a * 2 ^ (b % w) % 2 ^ w
/-- SHR: right shift. -/
def rShr (w a b : Nat) : Nat := a / 2 ^ (b % w)
/-- SRA: arithmetic right shift. -/
def rSra (w a b : Nat) : Nat := modPow w (signedOf w a / 2 ^ (b % w))
/-- ROL: rotate left. -/
def rRol (w a b : Nat) : Nat := (a * 2 ^ (b % w) % 2 ^ w) ||| (a / 2 ^ (w - b % w))
/-- MIN: smaller, signed. -/
def rMin (w a b : Nat) : Nat := if signedOf w a ≤ signedOf w b then a else b
/-- MAX: larger, signed. -/
def rMax (w a b : Nat) : Nat := if signedOf w a ≥ signedOf w b then a else b
/-- MINU: smaller, unsigned. -/
def rMinu (_w a b : Nat) : Nat := Nat.min a b
/-- MAXU: larger, unsigned. -/
def rMaxu (_w a b : Nat) : Nat := Nat.max a b

/-! ### The binary operations (R119 to R121) -/

/-- ADD of registers. -/
def doAdd (wd : Wd) (d a b : GReg) (s : State) : State := s.alu wd rAdd d (s.rd.getG a) (s.rd.getG b)

/-- ADD. -/
def execAdd (h : Hdr) (wd : Wd) (d a b : GReg) (s : State) : Host.Outcome State Fault Refusal :=
  .next (issue (.add h wd d a b) (doAdd wd d a b) s)

/-- ADD with an immediate. -/
def doAddImm (wd : Wd) (d a : GReg) (imm : BitVec 48) (s : State) : State := s.alu wd rAdd d (s.rd.getG a) (imm48 imm)

/-- ADD_IMM. -/
def execAddImm (h : Hdr) (wd : Wd) (d a : GReg) (imm : BitVec 48) (s : State) : Host.Outcome State Fault Refusal :=
  .next (issue (.addImm h wd d a imm) (doAddImm wd d a imm) s)

/-- SUB of registers. -/
def doSub (wd : Wd) (d a b : GReg) (s : State) : State := s.alu wd rSub d (s.rd.getG a) (s.rd.getG b)

/-- SUB. -/
def execSub (h : Hdr) (wd : Wd) (d a b : GReg) (s : State) : Host.Outcome State Fault Refusal :=
  .next (issue (.sub h wd d a b) (doSub wd d a b) s)

/-- SUB with an immediate. -/
def doSubImm (wd : Wd) (d a : GReg) (imm : BitVec 48) (s : State) : State := s.alu wd rSub d (s.rd.getG a) (imm48 imm)

/-- SUB_IMM. -/
def execSubImm (h : Hdr) (wd : Wd) (d a : GReg) (imm : BitVec 48) (s : State) : Host.Outcome State Fault Refusal :=
  .next (issue (.subImm h wd d a imm) (doSubImm wd d a imm) s)

/-- MUL of registers. -/
def doMul (wd : Wd) (d a b : GReg) (s : State) : State := s.alu wd rMul d (s.rd.getG a) (s.rd.getG b)

/-- MUL. -/
def execMul (h : Hdr) (wd : Wd) (d a b : GReg) (s : State) : Host.Outcome State Fault Refusal :=
  .next (issue (.mul h wd d a b) (doMul wd d a b) s)

/-- MUL with an immediate. -/
def doMulImm (wd : Wd) (d a : GReg) (imm : BitVec 48) (s : State) : State := s.alu wd rMul d (s.rd.getG a) (imm48 imm)

/-- MUL_IMM. -/
def execMulImm (h : Hdr) (wd : Wd) (d a : GReg) (imm : BitVec 48) (s : State) : Host.Outcome State Fault Refusal :=
  .next (issue (.mulImm h wd d a imm) (doMulImm wd d a imm) s)

/-- MULH of registers. -/
def doMulh (wd : Wd) (d a b : GReg) (s : State) : State := s.alu wd rMulh d (s.rd.getG a) (s.rd.getG b)

/-- MULH. -/
def execMulh (h : Hdr) (wd : Wd) (d a b : GReg) (s : State) : Host.Outcome State Fault Refusal :=
  .next (issue (.mulh h wd d a b) (doMulh wd d a b) s)

/-- MULH with an immediate. -/
def doMulhImm (wd : Wd) (d a : GReg) (imm : BitVec 48) (s : State) : State := s.alu wd rMulh d (s.rd.getG a) (imm48 imm)

/-- MULH_IMM. -/
def execMulhImm (h : Hdr) (wd : Wd) (d a : GReg) (imm : BitVec 48) (s : State) : Host.Outcome State Fault Refusal :=
  .next (issue (.mulhImm h wd d a imm) (doMulhImm wd d a imm) s)

/-- MULHU of registers. -/
def doMulhu (wd : Wd) (d a b : GReg) (s : State) : State := s.alu wd rMulhu d (s.rd.getG a) (s.rd.getG b)

/-- MULHU. -/
def execMulhu (h : Hdr) (wd : Wd) (d a b : GReg) (s : State) : Host.Outcome State Fault Refusal :=
  .next (issue (.mulhu h wd d a b) (doMulhu wd d a b) s)

/-- MULHU with an immediate. -/
def doMulhuImm (wd : Wd) (d a : GReg) (imm : BitVec 48) (s : State) : State := s.alu wd rMulhu d (s.rd.getG a) (imm48 imm)

/-- MULHU_IMM. -/
def execMulhuImm (h : Hdr) (wd : Wd) (d a : GReg) (imm : BitVec 48) (s : State) : Host.Outcome State Fault Refusal :=
  .next (issue (.mulhuImm h wd d a imm) (doMulhuImm wd d a imm) s)

/-- DIV of registers. -/
def doDiv (wd : Wd) (d a b : GReg) (s : State) : State := s.aluLong wd rDiv d (s.rd.getG a) (s.rd.getG b)

/-- DIV. -/
def execDiv (h : Hdr) (wd : Wd) (d a b : GReg) (s : State) : Host.Outcome State Fault Refusal :=
  .next (issue (.div h wd d a b) (doDiv wd d a b) s)

/-- DIV with an immediate. -/
def doDivImm (wd : Wd) (d a : GReg) (imm : BitVec 48) (s : State) : State := s.aluLong wd rDiv d (s.rd.getG a) (imm48 imm)

/-- DIV_IMM. -/
def execDivImm (h : Hdr) (wd : Wd) (d a : GReg) (imm : BitVec 48) (s : State) : Host.Outcome State Fault Refusal :=
  .next (issue (.divImm h wd d a imm) (doDivImm wd d a imm) s)

/-- DIVU of registers. -/
def doDivu (wd : Wd) (d a b : GReg) (s : State) : State := s.aluLong wd rDivu d (s.rd.getG a) (s.rd.getG b)

/-- DIVU. -/
def execDivu (h : Hdr) (wd : Wd) (d a b : GReg) (s : State) : Host.Outcome State Fault Refusal :=
  .next (issue (.divu h wd d a b) (doDivu wd d a b) s)

/-- DIVU with an immediate. -/
def doDivuImm (wd : Wd) (d a : GReg) (imm : BitVec 48) (s : State) : State := s.aluLong wd rDivu d (s.rd.getG a) (imm48 imm)

/-- DIVU_IMM. -/
def execDivuImm (h : Hdr) (wd : Wd) (d a : GReg) (imm : BitVec 48) (s : State) : Host.Outcome State Fault Refusal :=
  .next (issue (.divuImm h wd d a imm) (doDivuImm wd d a imm) s)

/-- REM of registers. -/
def doRem (wd : Wd) (d a b : GReg) (s : State) : State := s.aluLong wd rRem d (s.rd.getG a) (s.rd.getG b)

/-- REM. -/
def execRem (h : Hdr) (wd : Wd) (d a b : GReg) (s : State) : Host.Outcome State Fault Refusal :=
  .next (issue (.rem h wd d a b) (doRem wd d a b) s)

/-- REM with an immediate. -/
def doRemImm (wd : Wd) (d a : GReg) (imm : BitVec 48) (s : State) : State := s.aluLong wd rRem d (s.rd.getG a) (imm48 imm)

/-- REM_IMM. -/
def execRemImm (h : Hdr) (wd : Wd) (d a : GReg) (imm : BitVec 48) (s : State) : Host.Outcome State Fault Refusal :=
  .next (issue (.remImm h wd d a imm) (doRemImm wd d a imm) s)

/-- REMU of registers. -/
def doRemu (wd : Wd) (d a b : GReg) (s : State) : State := s.aluLong wd rRemu d (s.rd.getG a) (s.rd.getG b)

/-- REMU. -/
def execRemu (h : Hdr) (wd : Wd) (d a b : GReg) (s : State) : Host.Outcome State Fault Refusal :=
  .next (issue (.remu h wd d a b) (doRemu wd d a b) s)

/-- REMU with an immediate. -/
def doRemuImm (wd : Wd) (d a : GReg) (imm : BitVec 48) (s : State) : State := s.aluLong wd rRemu d (s.rd.getG a) (imm48 imm)

/-- REMU_IMM. -/
def execRemuImm (h : Hdr) (wd : Wd) (d a : GReg) (imm : BitVec 48) (s : State) : Host.Outcome State Fault Refusal :=
  .next (issue (.remuImm h wd d a imm) (doRemuImm wd d a imm) s)

/-- AND of registers. -/
def doAndd (wd : Wd) (d a b : GReg) (s : State) : State := s.alu wd rAndd d (s.rd.getG a) (s.rd.getG b)

/-- AND. -/
def execAndd (h : Hdr) (wd : Wd) (d a b : GReg) (s : State) : Host.Outcome State Fault Refusal :=
  .next (issue (.andd h wd d a b) (doAndd wd d a b) s)

/-- AND with an immediate. -/
def doAndImm (wd : Wd) (d a : GReg) (imm : BitVec 48) (s : State) : State := s.alu wd rAndd d (s.rd.getG a) (imm48 imm)

/-- AND_IMM. -/
def execAndImm (h : Hdr) (wd : Wd) (d a : GReg) (imm : BitVec 48) (s : State) : Host.Outcome State Fault Refusal :=
  .next (issue (.andImm h wd d a imm) (doAndImm wd d a imm) s)

/-- OR of registers. -/
def doOrr (wd : Wd) (d a b : GReg) (s : State) : State := s.alu wd rOrr d (s.rd.getG a) (s.rd.getG b)

/-- OR. -/
def execOrr (h : Hdr) (wd : Wd) (d a b : GReg) (s : State) : Host.Outcome State Fault Refusal :=
  .next (issue (.orr h wd d a b) (doOrr wd d a b) s)

/-- OR with an immediate. -/
def doOrImm (wd : Wd) (d a : GReg) (imm : BitVec 48) (s : State) : State := s.alu wd rOrr d (s.rd.getG a) (imm48 imm)

/-- OR_IMM. -/
def execOrImm (h : Hdr) (wd : Wd) (d a : GReg) (imm : BitVec 48) (s : State) : Host.Outcome State Fault Refusal :=
  .next (issue (.orImm h wd d a imm) (doOrImm wd d a imm) s)

/-- XOR of registers. -/
def doXor (wd : Wd) (d a b : GReg) (s : State) : State := s.alu wd rXor d (s.rd.getG a) (s.rd.getG b)

/-- XOR. -/
def execXor (h : Hdr) (wd : Wd) (d a b : GReg) (s : State) : Host.Outcome State Fault Refusal :=
  .next (issue (.xor h wd d a b) (doXor wd d a b) s)

/-- XOR with an immediate. -/
def doXorImm (wd : Wd) (d a : GReg) (imm : BitVec 48) (s : State) : State := s.alu wd rXor d (s.rd.getG a) (imm48 imm)

/-- XOR_IMM. -/
def execXorImm (h : Hdr) (wd : Wd) (d a : GReg) (imm : BitVec 48) (s : State) : Host.Outcome State Fault Refusal :=
  .next (issue (.xorImm h wd d a imm) (doXorImm wd d a imm) s)

/-- ANDN of registers. -/
def doAndn (wd : Wd) (d a b : GReg) (s : State) : State := s.alu wd rAndn d (s.rd.getG a) (s.rd.getG b)

/-- ANDN. -/
def execAndn (h : Hdr) (wd : Wd) (d a b : GReg) (s : State) : Host.Outcome State Fault Refusal :=
  .next (issue (.andn h wd d a b) (doAndn wd d a b) s)

/-- ANDN with an immediate. -/
def doAndnImm (wd : Wd) (d a : GReg) (imm : BitVec 48) (s : State) : State := s.alu wd rAndn d (s.rd.getG a) (imm48 imm)

/-- ANDN_IMM. -/
def execAndnImm (h : Hdr) (wd : Wd) (d a : GReg) (imm : BitVec 48) (s : State) : Host.Outcome State Fault Refusal :=
  .next (issue (.andnImm h wd d a imm) (doAndnImm wd d a imm) s)

/-- SHL of registers. -/
def doShl (wd : Wd) (d a b : GReg) (s : State) : State := s.alu wd rShl d (s.rd.getG a) (s.rd.getG b)

/-- SHL. -/
def execShl (h : Hdr) (wd : Wd) (d a b : GReg) (s : State) : Host.Outcome State Fault Refusal :=
  .next (issue (.shl h wd d a b) (doShl wd d a b) s)

/-- SHL with an immediate. -/
def doShlImm (wd : Wd) (d a : GReg) (imm : BitVec 48) (s : State) : State := s.alu wd rShl d (s.rd.getG a) (imm48 imm)

/-- SHL_IMM. -/
def execShlImm (h : Hdr) (wd : Wd) (d a : GReg) (imm : BitVec 48) (s : State) : Host.Outcome State Fault Refusal :=
  .next (issue (.shlImm h wd d a imm) (doShlImm wd d a imm) s)

/-- SHR of registers. -/
def doShr (wd : Wd) (d a b : GReg) (s : State) : State := s.alu wd rShr d (s.rd.getG a) (s.rd.getG b)

/-- SHR. -/
def execShr (h : Hdr) (wd : Wd) (d a b : GReg) (s : State) : Host.Outcome State Fault Refusal :=
  .next (issue (.shr h wd d a b) (doShr wd d a b) s)

/-- SHR with an immediate. -/
def doShrImm (wd : Wd) (d a : GReg) (imm : BitVec 48) (s : State) : State := s.alu wd rShr d (s.rd.getG a) (imm48 imm)

/-- SHR_IMM. -/
def execShrImm (h : Hdr) (wd : Wd) (d a : GReg) (imm : BitVec 48) (s : State) : Host.Outcome State Fault Refusal :=
  .next (issue (.shrImm h wd d a imm) (doShrImm wd d a imm) s)

/-- SRA of registers. -/
def doSra (wd : Wd) (d a b : GReg) (s : State) : State := s.alu wd rSra d (s.rd.getG a) (s.rd.getG b)

/-- SRA. -/
def execSra (h : Hdr) (wd : Wd) (d a b : GReg) (s : State) : Host.Outcome State Fault Refusal :=
  .next (issue (.sra h wd d a b) (doSra wd d a b) s)

/-- SRA with an immediate. -/
def doSraImm (wd : Wd) (d a : GReg) (imm : BitVec 48) (s : State) : State := s.alu wd rSra d (s.rd.getG a) (imm48 imm)

/-- SRA_IMM. -/
def execSraImm (h : Hdr) (wd : Wd) (d a : GReg) (imm : BitVec 48) (s : State) : Host.Outcome State Fault Refusal :=
  .next (issue (.sraImm h wd d a imm) (doSraImm wd d a imm) s)

/-- ROL of registers. -/
def doRol (wd : Wd) (d a b : GReg) (s : State) : State := s.alu wd rRol d (s.rd.getG a) (s.rd.getG b)

/-- ROL. -/
def execRol (h : Hdr) (wd : Wd) (d a b : GReg) (s : State) : Host.Outcome State Fault Refusal :=
  .next (issue (.rol h wd d a b) (doRol wd d a b) s)

/-- ROL with an immediate. -/
def doRolImm (wd : Wd) (d a : GReg) (imm : BitVec 48) (s : State) : State := s.alu wd rRol d (s.rd.getG a) (imm48 imm)

/-- ROL_IMM. -/
def execRolImm (h : Hdr) (wd : Wd) (d a : GReg) (imm : BitVec 48) (s : State) : Host.Outcome State Fault Refusal :=
  .next (issue (.rolImm h wd d a imm) (doRolImm wd d a imm) s)

/-- MIN of registers. -/
def doMin (wd : Wd) (d a b : GReg) (s : State) : State := s.alu wd rMin d (s.rd.getG a) (s.rd.getG b)

/-- MIN. -/
def execMin (h : Hdr) (wd : Wd) (d a b : GReg) (s : State) : Host.Outcome State Fault Refusal :=
  .next (issue (.min h wd d a b) (doMin wd d a b) s)

/-- MIN with an immediate. -/
def doMinImm (wd : Wd) (d a : GReg) (imm : BitVec 48) (s : State) : State := s.alu wd rMin d (s.rd.getG a) (imm48 imm)

/-- MIN_IMM. -/
def execMinImm (h : Hdr) (wd : Wd) (d a : GReg) (imm : BitVec 48) (s : State) : Host.Outcome State Fault Refusal :=
  .next (issue (.minImm h wd d a imm) (doMinImm wd d a imm) s)

/-- MAX of registers. -/
def doMax (wd : Wd) (d a b : GReg) (s : State) : State := s.alu wd rMax d (s.rd.getG a) (s.rd.getG b)

/-- MAX. -/
def execMax (h : Hdr) (wd : Wd) (d a b : GReg) (s : State) : Host.Outcome State Fault Refusal :=
  .next (issue (.max h wd d a b) (doMax wd d a b) s)

/-- MAX with an immediate. -/
def doMaxImm (wd : Wd) (d a : GReg) (imm : BitVec 48) (s : State) : State := s.alu wd rMax d (s.rd.getG a) (imm48 imm)

/-- MAX_IMM. -/
def execMaxImm (h : Hdr) (wd : Wd) (d a : GReg) (imm : BitVec 48) (s : State) : Host.Outcome State Fault Refusal :=
  .next (issue (.maxImm h wd d a imm) (doMaxImm wd d a imm) s)

/-- MINU of registers. -/
def doMinu (wd : Wd) (d a b : GReg) (s : State) : State := s.alu wd rMinu d (s.rd.getG a) (s.rd.getG b)

/-- MINU. -/
def execMinu (h : Hdr) (wd : Wd) (d a b : GReg) (s : State) : Host.Outcome State Fault Refusal :=
  .next (issue (.minu h wd d a b) (doMinu wd d a b) s)

/-- MINU with an immediate. -/
def doMinuImm (wd : Wd) (d a : GReg) (imm : BitVec 48) (s : State) : State := s.alu wd rMinu d (s.rd.getG a) (imm48 imm)

/-- MINU_IMM. -/
def execMinuImm (h : Hdr) (wd : Wd) (d a : GReg) (imm : BitVec 48) (s : State) : Host.Outcome State Fault Refusal :=
  .next (issue (.minuImm h wd d a imm) (doMinuImm wd d a imm) s)

/-- MAXU of registers. -/
def doMaxu (wd : Wd) (d a b : GReg) (s : State) : State := s.alu wd rMaxu d (s.rd.getG a) (s.rd.getG b)

/-- MAXU. -/
def execMaxu (h : Hdr) (wd : Wd) (d a b : GReg) (s : State) : Host.Outcome State Fault Refusal :=
  .next (issue (.maxu h wd d a b) (doMaxu wd d a b) s)

/-- MAXU with an immediate. -/
def doMaxuImm (wd : Wd) (d a : GReg) (imm : BitVec 48) (s : State) : State := s.alu wd rMaxu d (s.rd.getG a) (imm48 imm)

/-- MAXU_IMM. -/
def execMaxuImm (h : Hdr) (wd : Wd) (d a : GReg) (imm : BitVec 48) (s : State) : Host.Outcome State Fault Refusal :=
  .next (issue (.maxuImm h wd d a imm) (doMaxuImm wd d a imm) s)

/-! ### Comparison and selection (R122, R123) -/

/-- A condition at width w (R122). -/
def condHolds (w : Nat) (c : Cond) (a b : Nat) : Bool :=
  match c with
  | .eq => a == b
  | .ne => a != b
  | .lt => decide (signedOf w a < signedOf w b)
  | .ge => decide (signedOf w b ≤ signedOf w a)
  | .ltu => decide (a < b)
  | .geu => decide (b ≤ a)
  | .tst => a &&& b != 0
  | .tstz => a &&& b == 0

/-- The predicate of an answer: all ones or all zeros. -/
def predOf (b : Bool) : Pred := if b then 0xFFFF else 0

/-- Compare at a width and write a predicate (R122). -/
def State.compare (s : State) (wd : Wd) (c : Cond) (d : PReg) (x y : Word) : State :=
  let w := wdWidth wd
  s.wrP d (predOf (condHolds w c (x.toNat % 2 ^ w) (y.toNat % 2 ^ w)))

/-- SETP of registers. -/
def doSetp (wd : Wd) (c : Cond) (d : PReg) (a b : GReg) (s : State) : State := s.compare wd c d (s.rd.getG a) (s.rd.getG b)

/-- SETP. -/
def execSetp (h : Hdr) (wd : Wd) (c : Cond) (d : PReg) (a b : GReg) (s : State) : Host.Outcome State Fault Refusal :=
  .next (issue (.setp h wd c d a b) (doSetp wd c d a b) s)

/-- SETP with an immediate. -/
def doSetpImm (wd : Wd) (c : Cond) (d : PReg) (a : GReg) (imm : BitVec 48) (s : State) : State :=
  s.compare wd c d (s.rd.getG a) (imm48 imm)

/-- SETP_IMM. -/
def execSetpImm (h : Hdr) (wd : Wd) (c : Cond) (d : PReg) (a : GReg) (imm : BitVec 48) (s : State) : Host.Outcome State Fault Refusal :=
  .next (issue (.setpImm h wd c d a imm) (doSetpImm wd c d a imm) s)

/-- SEL (R123). -/
def doSel (wd : Wd) (d a b : GReg) (c : PReg) (s : State) : State :=
  s.wrG d (sextW (wdWidth wd) (if (s.rd.getP c).getLsbD 0 then s.rd.getG a else s.rd.getG b).toNat)

/-- SEL. -/
def execSel (h : Hdr) (wd : Wd) (d a b : GReg) (c : PReg) (s : State) : Host.Outcome State Fault Refusal :=
  .next (issue (.sel h wd d a b c) (doSel wd d a b c) s)

/-! ### Counts (R120) -/

/-- Zero bits above the highest one of the low w bits of a. -/
def rClz (w a : Nat) : Nat := w - bitLen a
/-- Zero bits below the lowest one among the low w bits of a, counting up from bit w - n. -/
def ctzFrom (w a : Nat) : Nat → Nat
  | 0 => 0
  | n + 1 => if (a >>> (w - (n + 1))) % 2 = 1 then 0 else 1 + ctzFrom w a n
/-- Trailing zeros, w for 0. -/
def rCtz (w a : Nat) : Nat := ctzFrom w a w
/-- Number of ones. -/
def rPopc (w a : Nat) : Nat := onesIn w a
/-- The low n bits of a in reverse. -/
def revBits : Nat → Nat → Nat
  | 0, _ => 0
  | n + 1, a => a % 2 * 2 ^ n + revBits n (a / 2)

/-- CLZ. -/
def doClz (wd : Wd) (d a : GReg) (s : State) : State := s.alu wd (fun w x _ => rClz w x) d (s.rd.getG a) 0

/-- CLZ. -/
def execClz (h : Hdr) (wd : Wd) (d a : GReg) (s : State) : Host.Outcome State Fault Refusal :=
  .next (issue (.clz h wd d a) (doClz wd d a) s)

/-- CTZ. -/
def doCtz (wd : Wd) (d a : GReg) (s : State) : State := s.alu wd (fun w x _ => rCtz w x) d (s.rd.getG a) 0

/-- CTZ. -/
def execCtz (h : Hdr) (wd : Wd) (d a : GReg) (s : State) : Host.Outcome State Fault Refusal :=
  .next (issue (.ctz h wd d a) (doCtz wd d a) s)

/-- POPC. -/
def doPopc (wd : Wd) (d a : GReg) (s : State) : State := s.alu wd (fun w x _ => rPopc w x) d (s.rd.getG a) 0

/-- POPC. -/
def execPopc (h : Hdr) (wd : Wd) (d a : GReg) (s : State) : Host.Outcome State Fault Refusal :=
  .next (issue (.popc h wd d a) (doPopc wd d a) s)

/-- BREV. -/
def doBrev (wd : Wd) (d a : GReg) (s : State) : State := s.alu wd (fun w x _ => revBits w x) d (s.rd.getG a) 0

/-- BREV. -/
def execBrev (h : Hdr) (wd : Wd) (d a : GReg) (s : State) : Host.Outcome State Fault Refusal :=
  .next (issue (.brev h wd d a) (doBrev wd d a) s)

/-! ### Bit fields (R125) -/

/-- Length of a field of width w at p, cut at bit w - 1. -/
def fieldLen (w p l : Nat) : Nat := if p ≥ w then 0 else Nat.min l (w - p)
/-- The extracted field. -/
def rBfx (sx : Bool) (w a p l : Nat) : Nat :=
  let len := fieldLen w p l
  let f := a / 2 ^ p % 2 ^ len
  if len = 0 then 0 else if sx then modPow w (signedOf len f) else f
/-- The field inserted into old. -/
def rBfi (w old a p l : Nat) : Nat :=
  let mask := (2 ^ fieldLen w p l - 1) * 2 ^ p
  (old &&& (2 ^ w - 1 - mask)) ||| ((a * 2 ^ p) &&& mask)

/-- BFX of registers. -/
def doBfx (wd : Wd) (sx : Bool) (d a b c : GReg) (s : State) : State :=
  s.alu wd (fun w x _ => rBfx sx w x (fld (s.rd.getG b) 5 0) (fld (s.rd.getG c) 6 0)) d (s.rd.getG a) 0

/-- BFX. -/
def execBfx (h : Hdr) (wd : Wd) (sx : Bool) (d a b c : GReg) (s : State) : Host.Outcome State Fault Refusal :=
  .next (issue (.bfx h wd sx d a b c) (doBfx wd sx d a b c) s)

/-- BFX with an immediate field. -/
def doBfxImm (wd : Wd) (sx : Bool) (d a : GReg) (pos : BitVec 6) (len : BitVec 7) (s : State) : State :=
  s.alu wd (fun w x _ => rBfx sx w x pos.toNat len.toNat) d (s.rd.getG a) 0

/-- BFX_IMM. -/
def execBfxImm (h : Hdr) (wd : Wd) (sx : Bool) (d a : GReg) (pos : BitVec 6) (len : BitVec 7) (s : State) : Host.Outcome State Fault Refusal :=
  .next (issue (.bfxImm h wd sx d a pos len) (doBfxImm wd sx d a pos len) s)

/-- BFI of registers; it reads its destination. -/
def doBfi (wd : Wd) (d a b c : GReg) (s : State) : State :=
  s.alu wd (fun w x old => rBfi w old x (fld (s.rd.getG b) 5 0) (fld (s.rd.getG c) 6 0)) d (s.rd.getG a) (s.rd.getG d)

/-- BFI. -/
def execBfi (h : Hdr) (wd : Wd) (d a b c : GReg) (s : State) : Host.Outcome State Fault Refusal :=
  .next (issue (.bfi h wd d a b c) (doBfi wd d a b c) s)

/-- BFI with an immediate field. -/
def doBfiImm (wd : Wd) (d a : GReg) (pos : BitVec 6) (len : BitVec 7) (s : State) : State :=
  s.alu wd (fun w x old => rBfi w old x pos.toNat len.toNat) d (s.rd.getG a) (s.rd.getG d)

/-- BFI_IMM. -/
def execBfiImm (h : Hdr) (wd : Wd) (d a : GReg) (pos : BitVec 6) (len : BitVec 7) (s : State) : Host.Outcome State Fault Refusal :=
  .next (issue (.bfiImm h wd d a pos len) (doBfiImm wd d a pos len) s)

/-! ### Moves, predicates, constants (R124, R126) -/

/-- MOV in its four forms (R126). -/
def doMov (f : MovForm) (s : State) : State :=
  match f with
  | .gg wd d a => s.wrG d (sextW (wdWidth wd) (s.rd.getG a).toNat)
  | .pg d a => s.wrP d ((s.rd.getG a).setWidth 16)
  | .gp d a => s.wrG d ((s.rd.getP a).setWidth 64)
  | .pp d a => s.wrP d (s.rd.getP a)

/-- MOV. -/
def execMov (h : Hdr) (f : MovForm) (s : State) : Host.Outcome State Fault Refusal :=
  .next (issue (.mov h f) (doMov f) s)

/-- Bits of a truth table over two predicates, from bit n - 1 down (R124). -/
def plogBits (tt : BitVec 4) (a b : Pred) : Nat → Nat
  | 0 => 0
  | n + 1 =>
    plogBits tt a b n + (if tt.getLsbD (2 * (if a.getLsbD n then 1 else 0) + (if b.getLsbD n then 1 else 0)) then 2 ^ n else 0)

/-- PLOG (R124). -/
def doPlog (tt : BitVec 4) (d a b : PReg) (s : State) : State :=
  s.wrP d (BitVec.ofNat 16 (plogBits tt (s.rd.getP a) (s.rd.getP b) 16))

/-- PLOG. -/
def execPlog (h : Hdr) (tt : BitVec 4) (d a b : PReg) (s : State) : Host.Outcome State Fault Refusal :=
  .next (issue (.plog h tt d a b) (doPlog tt d a b) s)

/-- LI (R126). -/
def doLi (wd : Wd) (d : GReg) (imm : BitVec 48) (s : State) : State :=
  s.wrG d (match wd with | .d => imm48 imm | .w => sextW 32 imm.toNat)

/-- LI. -/
def execLi (h : Hdr) (wd : Wd) (d : GReg) (imm : BitVec 48) (s : State) : Host.Outcome State Fault Refusal :=
  .next (issue (.li h wd d imm) (doLi wd d imm) s)

/-- LI.hi (R126): bits 63 to 48 written, the others kept. -/
def doLiHi (d : GReg) (imm : BitVec 16) (s : State) : State :=
  s.wrG d ((imm.setWidth 64 <<< 48) ||| (s.rd.getG d &&& 0x0000FFFFFFFFFFFF#64))

/-- LI_HI. -/
def execLiHi (h : Hdr) (d : GReg) (imm : BitVec 16) (s : State) : Host.Outcome State Fault Refusal :=
  .next (issue (.liHi h d imm) (doLiHi d imm) s)

end Sys2Proof.Machine
end

