-- ==== Sys2Proof/Machine/Memory.lean ====
section
/-! DEFINITION. Memory.lean: the memory instructions, class 0x8 (R180 to R202). -/
namespace Sys2Proof.Machine

/-! ### Loads and stores (R195, R197) -/

/-- The destination of a load of a size into a g register. -/
def gDest (d : GReg) (sz : LdSz) (ea : Word) : Dest := .g d sz (fld ea 5 0)

/-- LD (R195). -/
def doLd (sz : LdSz) (nc : Bool) (x : BitVec 16) (d : GReg) (m : MemOp) (s : State) : State :=
  s.withOp m (ldBytes sz) fun ea => s.loadAt m.am ea (ldBytes sz) (gDest d sz ea) nc false x

/-- LD. -/
def execLd (h : Hdr) (sz : LdSz) (nc : Bool) (x : BitVec 16) (d : GReg) (m : MemOp) (s : State) : Host.Outcome State Fault Refusal :=
  .next (issue (.ld h sz nc x d m) (doLd sz nc x d m) s)

/-- VLD (R195): the performed lanes. -/
def doVld (h : Hdr) (nc : Bool) (x : BitVec 16) (d : VReg) (m : MemOp) (s : State) : State :=
  s.withOp m 64 fun ea => s.loadAt m.am ea 64 (.v d (laneBytes (s.rd.gmask h) 16)) nc false x

/-- VLD. -/
def execVld (h : Hdr) (nc : Bool) (x : BitVec 16) (d : VReg) (m : MemOp) (s : State) : Host.Outcome State Fault Refusal :=
  .next (issue (.vld h nc x d m) (doVld h nc x d m) s)

/-- LDACQ (R197). -/
def doLdacq (sz : LdSz) (d : GReg) (m : MemOp) (s : State) : State :=
  s.withOp m (ldBytes sz) fun ea => s.loadAt m.am ea (ldBytes sz) (gDest d sz ea) true true 0xFFFF

/-- LDACQ. -/
def execLdacq (h : Hdr) (sz : LdSz) (d : GReg) (m : MemOp) (s : State) : Host.Outcome State Fault Refusal :=
  .next (issue (.ldacq h sz d m) (doLdacq sz d m) s)

/-- The low n bytes of a register at their place in the line of an address. -/
def dataAt (v : Word) (n : Nat) (ea : Word) : Line := atByte (fld ea 5 0) (v.toNat % 2 ^ (8 * n))

/-- ST (R195). -/
def doSt (sz : StSz) (bset : Bool) (d : GReg) (m : MemOp) (s : State) : State :=
  let n := stBytes sz
  s.withOp m n fun ea => s.storeAt m.am ea n (dataAt (s.rd.getG d) n ea) (byteMask (fld ea 5 0) n) bset

/-- ST. -/
def execSt (h : Hdr) (sz : StSz) (bset : Bool) (d : GReg) (m : MemOp) (s : State) : Host.Outcome State Fault Refusal :=
  .next (issue (.st h sz bset d m) (doSt sz bset d m) s)

/-- VST (R195): the bytes of the performed lanes. -/
def doVst (h : Hdr) (bset : Bool) (d : VReg) (m : MemOp) (s : State) : State :=
  s.withOp m 64 fun ea => s.storeAt m.am ea 64 (s.rd.getV d) (laneBytes (s.rd.gmask h) 16) bset

/-- VST. -/
def execVst (h : Hdr) (bset : Bool) (d : VReg) (m : MemOp) (s : State) : Host.Outcome State Fault Refusal :=
  .next (issue (.vst h bset d m) (doVst h bset d m) s)

/-- A .l access that its own port would refuse takes WINDOW or ACC_BUSY at issue (R183, R187). -/
def State.localGate (s : State) (am : Mode) (ea : Word) (n : Nat) (k : State) : State :=
  match (if am = .l then s.localRefusal s.me.1 (fld ea 15 0) n else none) with
  | some c => s.trap c ea
  | none => k

/-- STREL (R197): a drain, then its own store. -/
def doStrel (sz : StSz) (d : GReg) (m : MemOp) (s : State) : State :=
  let n := stBytes sz
  s.withOp m n fun ea => s.localGate m.am ea n <|
    let e : SbEnt :=
      { am := m.am, line := lineVa ea, mask := byteMask (fld ea 5 0) n, data := dataAt (s.rd.getG d) n ea, bset := false, pc := s.pcNow
        spill := false, peer := none }
    s.afterDrain (.release e none) fun s => s.releaseStore e none

/-- STREL. -/
def execStrel (h : Hdr) (sz : StSz) (d : GReg) (m : MemOp) (s : State) : Host.Outcome State Fault Refusal :=
  .next (issue (.strel h sz d m) (doStrel sz d m) s)

/-! ### Synchronising accesses (R196) and atomics (R198) -/

/-- LDS, STS, LDF: drain what overlaps, then ask the port and park until it answers. -/
def State.syncAt (s : State) (m : MemOp) (op : ROp) (d : Word → Dest) : State :=
  s.withOp m 8 fun ea => s.localGate m.am ea 8 <|
    let r := s.reqFor (placeOf s.me.1 m.am ea) op 0
    let s := s.onCx fun c => { c with syncEa := ea }
    s.afterClear [spanOf s.me.1 m.am ea 8] (.sync (d ea) r true) fun s => s.sendSync (d ea) r true

/-- FESET, FECLR: the acknowledgement is a long result with no destination. -/
def State.feAt (s : State) (m : MemOp) (op : ROp) : State :=
  s.withOp m 8 fun ea => s.localGate m.am ea 8 <|
    let p := s.newPend .none
    let p := { p with reqs := [s.reqFor (placeOf s.me.1 m.am ea) op p.tag] }
    s.afterClear [spanOf s.me.1 m.am ea 8] (.send p) fun s => s.startLong p

/-- LDS (R196). -/
def doLds (d : GReg) (m : MemOp) (s : State) : State := s.syncAt m .lds (gDest d .d)

/-- LDS. -/
def execLds (h : Hdr) (d : GReg) (m : MemOp) (s : State) : Host.Outcome State Fault Refusal :=
  .next (issue (.lds h d m) (doLds d m) s)

/-- STS (R196). -/
def doSts (d : GReg) (m : MemOp) (s : State) : State := s.syncAt m (.sts (s.rd.getG d)) fun _ => .none

/-- STS. -/
def execSts (h : Hdr) (d : GReg) (m : MemOp) (s : State) : Host.Outcome State Fault Refusal :=
  .next (issue (.sts h d m) (doSts d m) s)

/-- LDF (R196). -/
def doLdf (d : GReg) (m : MemOp) (s : State) : State := s.syncAt m .ldf (gDest d .d)

/-- LDF. -/
def execLdf (h : Hdr) (d : GReg) (m : MemOp) (s : State) : Host.Outcome State Fault Refusal :=
  .next (issue (.ldf h d m) (doLdf d m) s)

/-- FESET (R196). -/
def doFeset (m : MemOp) (s : State) : State := s.feAt m .feset

/-- FESET. -/
def execFeset (h : Hdr) (m : MemOp) (s : State) : Host.Outcome State Fault Refusal :=
  .next (issue (.feset h m) (doFeset m) s)

/-- FECLR (R196). -/
def doFeclr (m : MemOp) (s : State) : State := s.feAt m .feclr

/-- FECLR. -/
def execFeclr (h : Hdr) (m : MemOp) (s : State) : Host.Outcome State Fault Refusal :=
  .next (issue (.feclr h m) (doFeclr m) s)

/-- Size of an atomic's old value: sign-extended for 32 bits (R198). -/
def atomSz : Wd → LdSz
  | .w => .w
  | .d => .d

/-- ATOM (R198): the comparand of .cas is read at issue. -/
def doAtom (wd : Wd) (op : AtomOp) (am : Mode) (d a b : GReg) (disp : BitVec 16) (s : State) : State :=
  let n := wdWidth wd / 8
  s.withAddr am (s.rd.getG a) 0 disp n fun ea => s.localGate am ea n <|
    let p := s.newPend (gDest d (atomSz wd) ea)
    let p := { p with reqs := [s.reqFor (placeOf s.me.1 am ea) (.atom op wd (s.rd.getG b) (s.rd.getG d)) p.tag] }
    s.afterClear [spanOf s.me.1 am ea n] (.send p) fun s => s.startLong p

/-- ATOM. -/
def execAtom (h : Hdr) (wd : Wd) (op : AtomOp) (am : Mode) (d a b : GReg) (disp : BitVec 16) (s : State) : Host.Outcome State Fault Refusal :=
  .next (issue (.atom h wd op am d a b disp) (doAtom wd op am d a b disp) s)

/-! ### Prefetch (R199) -/

/-- A line i lines after the line of an address, the band kept. -/
def lineAfter (ea : Word) (i : Nat) : Word :=
  (ea &&& 0xFE00000000000000#64) ||| ((lineVa ea + BitVec.ofNat 64 (64 * i)) &&& 0x01FFFFFFFFFFFFFF#64)

/-- Ask for one line, unless the cache holds it; nothing waits for it. -/
def State.prefLine (s : State) (va : Word) : State :=
  let line := fld va 56 6
  if (s.mine.snapFind s.cx.tenant line).isSome then s
  else
    let tag := s.cx.nextTag
    let r := s.reqFor (.glob va) .pref tag
    ((s.onCx fun c => { c with nextTag := tag + 1 }).onMine fun k => { k with prefs := k.prefs ++ [(s.me.2, tag, line)] }).send (.req r)

/-- PREF (R199): a core in paired dispatch keeps no lines (R193). -/
def doPref (d : GReg) (m : MemOp) (s : State) : State :=
  let n := min (s.rd.getG d).toNat 16
  if n = 0 then s
  else s.withOp m 1 fun ea =>
    if partPair s.cx.part then s else (upTo n).foldl (fun s i => s.prefLine (lineAfter ea i)) s

/-- PREF. -/
def execPref (h : Hdr) (d : GReg) (m : MemOp) (s : State) : Host.Outcome State Fault Refusal :=
  .next (issue (.pref h d m) (doPref d m) s)

/-! ### Indexed vectors (R200) -/

/-- The performed lanes with their addresses, or the first lane that fails: cause and address. -/
def State.laneAddrs (s : State) (h : Hdr) (cm : Bool) (a : GReg) (b : VReg) (sc : BitVec 2) (disp : BitVec 16) :
    Except (BitVec 8 × Word) (List (Nat × Word)) :=
  let am : Mode := if cm then .c else .l
  ((upTo 16).filter fun i => (s.rd.gmask h).getLsbD i).foldlM (fun acc i =>
    let ea := s.rd.getG a + scaled ((word32 (s.rd.getV b) i).setWidth 64) sc + disp64 disp
    if !eaClean am ea then .error (BAD_ADDR, ea)
    else if ea.toNat % 4 != 0 then .error (MISALIGN, ea)
    else match (if cm then none else s.localRefusal s.me.1 (fld ea 15 0) 4) with
      | some c => .error (c, ea)
      | none => .ok (acc ++ [(i, ea)])) []

/-- The four bytes of a lane put at the lane's place in the register. -/
def laneWord (i : Nat) (ea : Word) (l : Line) : Line := atByte (4 * i) (fromByte l (fld ea 5 0) 4)

/-- The lanes of a .l VLDX, read one by one: the register's bytes, or the first failure. -/
def State.readLanes (s : State) : List (Nat × Word) → Except (RFault × State) (Line × State)
  | [] => .ok (0, s)
  | (i, ea) :: t =>
    let off := fld ea 15 0
    match s.pLoad s.asker s.me.1 off 4 false ea with
    | .done l s =>
      let (f, m) := forward s.me.1 (.pool s.me.1 off 4) s.cx.sb 0 0
      (match s.readLanes t with
       | .ok (r, s) => .ok (r ||| laneWord i ea (mergeLine l f m), s)
       | .error e => .error e)
    | .fail f s => .error (f, s)
    | _ => .ok (0, s)

/-- Forwarded bytes of the lanes of a .c VLDX. -/
def forwardLanes (core : Nat) (sb : List SbEnt) : List (Nat × Word) → Line × BitVec 64
  | [] => (0, 0)
  | (i, ea) :: t =>
    let (f, m) := forward core (spanOf core .c ea 4) sb 0 0
    let (rf, rm) := forwardLanes core sb t
    (rf ||| laneWord i ea f, rm ||| (((m >>> (fld ea 5 0)) &&& 0xF) <<< (4 * i)))

/-- VLDX (R200): in .c each lane is a request of one long result. -/
def doVldx (h : Hdr) (cm : Bool) (d : VReg) (a : GReg) (b : VReg) (sc : BitVec 2) (disp : BitVec 16) (s : State) : State :=
  match s.laneAddrs h cm a b sc disp with
  | .error (c, ea) => s.trap c ea
  | .ok lanes =>
    let mask := laneBytes (s.rd.gmask h) 16
    if cm then
      let (f, m) := forwardLanes s.me.1 s.cx.sb lanes
      let p := { s.newPend (.v d mask) with fwd := f, fmask := m }
      -- a lane that the own buffer supplies is a hit (R192, R207)
      let out := lanes.filter fun x => (m >>> (4 * x.1)) &&& 0xF != 0xF
      if out.isEmpty && !lanes.isEmpty then s.longValue p 0 0
      else s.startLong { p with
        left := out.length
        reqs := out.map fun x => { s.reqFor (placeOf s.me.1 .c x.2) (.load 4 false) p.tag with lane := some x.1 } }
    else
      match s.readLanes lanes with
      | .ok (l, s) => s.onRegs fun r => r.putDest (.v d mask) l
      | .error (f, s) => s.loadFault f.kind f.addr

/-- VLDX. -/
def execVldx (h : Hdr) (cm : Bool) (d : VReg) (a : GReg) (b : VReg) (sc : BitVec 2) (disp : BitVec 16) (s : State) : Host.Outcome State Fault Refusal :=
  .next (issue (.vldx h cm d a b sc disp) (doVldx h cm d a b sc disp) s)

/-- The bytes of lane i of a register at their place in the line of an address. -/
def laneData (i : Nat) (l : Line) (ea : Word) : Line := atByte (fld ea 5 0) (fromByte l (4 * i) 4)

/-- VSTX (R200): lanes in ascending order. -/
def doVstx (h : Hdr) (cm : Bool) (d : VReg) (a : GReg) (b : VReg) (sc : BitVec 2) (disp : BitVec 16) (s : State) : State :=
  match s.laneAddrs h cm a b sc disp with
  | .error (c, ea) => s.trap c ea
  | .ok lanes =>
    let src := s.rd.getV d
    if cm then
      let t := lanes.foldl (fun (t : State) x =>
        if t.took.isSome then t
        else t.storeAt .c x.2 4 (laneData x.1 src x.2) (byteMask (fld x.2 5 0) 4) false) s
      match t.took with
      | some k => s.trap STORE_SPILL k.addr
      | none => t
    else
      let l := lanes.map fun x => (fld x.2 15 0, laneData x.1 src x.2, byteMask (fld x.2 5 0) 4)
      s.afterClear (l.map fun x => .pool s.me.1 x.1 4) (.pool l) fun s => s.poolStores l

/-- VSTX. -/
def execVstx (h : Hdr) (cm : Bool) (d : VReg) (a : GReg) (b : VReg) (sc : BitVec 2) (disp : BitVec 16) (s : State) : Host.Outcome State Fault Refusal :=
  .next (issue (.vstx h cm d a b sc disp) (doVstx h cm d a b sc disp) s)

end Sys2Proof.Machine
end

