-- ==== Sys2Proof/Machine/Thread.lean ====
section
/-! DEFINITION. Thread.lean: thread control, class 0x0 (R93 to R116, R348, R350). -/
namespace Sys2Proof.Machine

/-! ### Waiting and ending (R108 to R111) -/

/-- NOP (R108). -/
def doNop (s : State) : State := s

/-- NOP. -/
def execNop (h : Hdr) (s : State) : Host.Outcome State Fault Refusal :=
  .next (issue (.nop h) doNop s)

/-- YIELD (R108): its effect is the one that the next choice makes of it (R81). -/
def doYieldT (s : State) : State := s

/-- YIELD. -/
def execYieldT (h : Hdr) (s : State) : Host.Outcome State Fault Refusal :=
  .next (issue (.yieldT h) doYieldT s)

/-- WAIT (R108): it parks as a marker does, and performs nothing. -/
def doWait (s : State) : State := s

/-- WAIT. -/
def execWait (h : Hdr) (s : State) : Host.Outcome State Fault Refusal :=
  .next (issue (.wait h) doWait s)

/-- DOZE (R110): a future instant takes the context out of the choice until then. -/
def doDoze (a : GReg) (s : State) : State :=
  let t := (s.rd.getG a).toNat
  let r := s.readClock s.me.1
  if t ≤ s.coreNow s.me.1 then r else r.onCx fun c => { c with run := .dozing t, pc := c.npc }

/-- DOZE. -/
def execDoze (h : Hdr) (a : GReg) (s : State) : Host.Outcome State Fault Refusal :=
  .next (issue (.doze h a) (doDoze a) s)

/-- NOWNS (R109). -/
def doNowns (d : GReg) (s : State) : State := (s.readClock s.me.1).wrG d (BitVec.ofNat 64 (s.coreNow s.me.1))

/-- NOWNS. -/
def execNowns (h : Hdr) (d : GReg) (s : State) : Host.Outcome State Fault Refusal :=
  .next (issue (.nowns h d) (doNowns d) s)

/-- EXIT (R111): the marker's wait is over; the thread ends with its code. While a capture forms it is REP_USE 2 (R175). -/
def doExit (a : GReg) (s : State) : State :=
  if s.cx.cap.any Capture.forming then s.trap REP_USE 0 2
  else s.endThread s.me.1 s.me.2 (exitWord ((s.rd.getG a).setWidth 32))

/-- EXIT. -/
def execExit (h : Hdr) (a : GReg) (s : State) : Host.Outcome State Fault Refusal :=
  .next (issue (.exit h a) (doExit a) s)

/-! ### The thread's handle table (R93, R97, R98) -/

/-- The handle in a register: its low 32 bits (R107). -/
def State.handleIn (s : State) (a : GReg) : BitVec 32 := (s.rd.getG a).setWidth 32
/-- The entry of a handle; the thread is always a member of handle 0 (R93). -/
def Ctx.hent (c : Ctx) (gh : BitVec 32) : Option HEnt :=
  match c.handles.find? fun h => h.handle == gh with
  | some h => some h
  | none => if gh = 0 then some { handle := 0, st := .member, tag := 0, arrived := false, waitFor := none } else none
/-- Set an entry. -/
def Ctx.setH (c : Ctx) (e : HEnt) : Ctx := { c with handles := c.handles.filter (fun h => h.handle != e.handle) ++ [e] }
/-- Change an entry that is there. -/
def Ctx.onH (c : Ctx) (gh : BitVec 32) (f : HEnt → HEnt) : Ctx :=
  match c.hent gh with
  | some e => c.setH (f e)
  | none => c

/-- A group instruction on an entry of the table: a pending JOIN or LEAVE parks it (R97); a handle that is not there is
GROUP_USE 1 (R98). -/
def State.withHandle (s : State) (gh : BitVec 32) (k : HEnt → State) : State :=
  match s.cx.hent gh with
  | none => s.trap GROUP_USE (gh.setWidth 64) 1
  | some e => if e.st = .member then k e else s.park .group (.handle gh) .again

/-- JOIN (R112). -/
def doJoin (d a : GReg) (s : State) : State :=
  let gh := s.handleIn a
  if gh = 0 then s.trap GROUP_USE (gh.setWidth 64) 5
  else
    match s.cx.hent gh with
    | some e => if e.st = .member then s.trap GROUP_USE (gh.setWidth 64) 2 else s.park .group (.handle gh) .again
    | none =>
      if (s.cx.handles.filter fun h => h.handle != 0).length ≥ 8 then s.trap GROUP_USE (gh.setWidth 64) 3
      else
        let p := s.newPend (.g d .d 0)
        ((s.addPend p).onCx fun c => c.setH { handle := gh, st := .joining, tag := p.tag, arrived := false, waitFor := none }).send
          (.group s.whoMe s.cx.launch gh true (some p.tag))

/-- JOIN. -/
def execJoin (h : Hdr) (d a : GReg) (s : State) : Host.Outcome State Fault Refusal :=
  .next (issue (.join h d a) (doJoin d a) s)

/-- LEAVE (R112): its acknowledgement is a long result with no destination. -/
def doLeave (a : GReg) (s : State) : State :=
  let gh := s.handleIn a
  if gh = 0 then s.trap GROUP_USE (gh.setWidth 64) 5
  else s.withHandle gh fun e =>
    let p := s.newPend .none
    ((s.addPend p).onCx fun c => c.setH { e with st := .leaving, tag := p.tag }).send
      (.group s.whoMe s.cx.launch gh false (some p.tag))

/-- LEAVE. -/
def execLeave (h : Hdr) (a : GReg) (s : State) : Host.Outcome State Fault Refusal :=
  .next (issue (.leave h a) (doLeave a) s)

/-! ### Barriers (R95, R100, R101, R113) -/

/-- Arrive at the current barrier of a handle; `rec'` is the record that GARRIVE leaves. -/
def State.arriveAt (s : State) (gh : BitVec 32) (rec' : Option Bool) : State :=
  (s.onCx fun c => c.onH gh fun e => { e with arrived := true, waitFor := rec' }).send (.arrive s.whoMe s.cx.launch gh false)

/-- GBAR (R113). -/
def doGbar (a : GReg) (s : State) : State :=
  let gh := s.handleIn a
  s.withHandle gh fun e =>
    if e.arrived then s.trap GROUP_USE (gh.setWidth 64) 4 else (s.arriveAt gh none).park .group (.barrier gh) .finish

/-- GBAR. -/
def execGbar (h : Hdr) (a : GReg) (s : State) : Host.Outcome State Fault Refusal :=
  .next (issue (.gbar h a) (doGbar a) s)

/-- GARRIVE (R113). -/
def doGarrive (a : GReg) (s : State) : State :=
  let gh := s.handleIn a
  s.withHandle gh fun e => if e.arrived then s.trap GROUP_USE (gh.setWidth 64) 4 else s.arriveAt gh (some false)

/-- GARRIVE. -/
def execGarrive (h : Hdr) (a : GReg) (s : State) : Host.Outcome State Fault Refusal :=
  .next (issue (.garrive h a) (doGarrive a) s)

/-- GWAIT (R113): it consumes the record; a barrier that has completed lets it go on. -/
def doGwait (a : GReg) (s : State) : State :=
  let gh := s.handleIn a
  s.withHandle gh fun e =>
    match e.waitFor with
    | none => s.trap GROUP_USE (gh.setWidth 64) 4
    | some completed =>
      let s := s.onCx fun c => c.setH { e with waitFor := none }
      if completed then s else s.park .group (.barrier gh) .finish

/-- GWAIT. -/
def execGwait (h : Hdr) (a : GReg) (s : State) : Host.Outcome State Fault Refusal :=
  .next (issue (.gwait h a) (doGwait a) s)

/-- Step 2 of PHASE (R101): arrive, and park until the barrier completes. -/
def State.phaseArrive (s : State) (gh : BitVec 32) : State :=
  (s.arriveAt gh none).park .group (.barrier gh) (.phaseDone gh)

/-- Step 3 of PHASE (R101), when the release of a core's context c arrives: empty the snapshot cache, merge the launch's experience, and
for a pair take a replay point (R429). -/
def State.phaseDone (s : State) (core : Nat) (c : Ctx) : State :=
  let s := (s.snapEmpty core).mergeWhere core (fun e => e.launch == c.launch.toNat) none |>.1
  if partPair c.part then s.replayPoint core else s

/-- PHASE (R101, R114). -/
def doPhase (a : GReg) (s : State) : State :=
  let gh := s.handleIn a
  s.withHandle gh fun e =>
    if e.arrived then s.trap GROUP_USE (gh.setWidth 64) 4 else s.afterDrain (.phaseArrive gh) fun s => s.phaseArrive gh

/-- PHASE. -/
def execPhase (h : Hdr) (a : GReg) (s : State) : Host.Outcome State Fault Refusal :=
  .next (issue (.phase h a) (doPhase a) s)

/-! ### GINFO (R115) -/

/-- GINFO on a handle other than 0: the slice answers. -/
def State.ginfoFar (s : State) (d : GReg) (gh : BitVec 32) (rank : Bool) : State :=
  s.withHandle gh fun _ => s.long1 (.g d .d 0) .unit (.ginfo gh rank)

/-- GINFO.size (R115). -/
def doGinfoSize (d a : GReg) (s : State) : State :=
  let gh := s.handleIn a
  if gh = 0 then s.wrG d (s.cx.nthr.setWidth 64) else s.ginfoFar d gh false

/-- GINFO_SIZE. -/
def execGinfoSize (h : Hdr) (d a : GReg) (s : State) : Host.Outcome State Fault Refusal :=
  .next (issue (.ginfoSize h d a) (doGinfoSize d a) s)

/-- GINFO.rank (R115). -/
def doGinfoRank (d a : GReg) (s : State) : State :=
  let gh := s.handleIn a
  if gh = 0 then s.wrG d (s.cx.tid.setWidth 64) else s.ginfoFar d gh true

/-- GINFO_RANK. -/
def execGinfoRank (h : Hdr) (d a : GReg) (s : State) : Host.Outcome State Fault Refusal :=
  .next (issue (.ginfoRank h d a) (doGinfoRank d a) s)

/-! ### Special registers (R105, R116, R348, R350) -/

/-- %tstat (R348): SUP in bit 0, HND in bit 1. -/
def tstatOf (c : Ctx) : Word := BitVec.ofNat 64 ((if c.sup then 1 else 0) + (if c.hnd then 2 else 0))

/-- The value of a special register; those that MTS writes are read as they stood before the pair (R116). -/
def State.special (s : State) (r : SReg) : Word :=
  let c := s.cx
  match r with
  | .tid => c.tid.setWidth 64
  | .nthr => c.nthr.setWidth 64
  | .core => BitVec.ofNat 64 s.me.1
  | .cluster => BitVec.ofNat 64 (clusterOf s.me.1)
  | .die => BitVec.ofNat 64 (dieOf s.me.1)
  | .ctx => BitVec.ofNat 64 s.me.2
  | .incarn => c.inc.setWidth 64
  | .launch => c.launch.setWidth 64
  | .tenant => c.tenant.setWidth 64
  | .isel => if s.mine.policy then 1 else 0
  | .fflags => s.rd.fflags.setWidth 64
  | .frm => s.rd.frm.setWidth 64
  | .bxdelta => s.rd.bxdelta.setWidth 64
  | .synclim => s.rd.synclim.setWidth 64
  | .part => c.part
  | .trapvec => s.rd.trapvec
  | .trapcause => c.trapcause.setWidth 64
  | .trappc => c.trappc
  | .trapaddr => c.trapaddr
  | .trapinfo => c.trapinfo
  | .tstat => tstatOf c
  | .region => regionReg c

/-- MFS (R116). -/
def doMfs (d : GReg) (r : SReg) (s : State) : State := s.wrG d (s.special r)

/-- MFS. -/
def execMfs (h : Hdr) (d : GReg) (r : SReg) (s : State) : Host.Outcome State Fault Refusal :=
  .next (issue (.mfs h d r) (doMfs d r) s)

/-- Write the RW fields of a special register (R105); a read-only register ignores it. -/
def Regs.mts (r : Regs) (sr : SReg) (v : Word) : Regs :=
  match sr with
  | .fflags => { r with fflags := v.setWidth 6 }
  | .frm => { r with frm := v.setWidth 2 }
  | .bxdelta => { r with bxdelta := v.setWidth 4 }
  | .synclim => { r with synclim := v.setWidth 32 }
  | .trapvec => { r with trapvec := v }
  | .tid | .nthr | .core | .cluster | .die | .ctx | .incarn | .launch | .tenant | .isel | .part
  | .trapcause | .trappc | .trapaddr | .trapinfo | .tstat | .region => r

/-- MTS (R116). -/
def doMts (r : SReg) (a : GReg) (s : State) : State :=
  let v := s.rd.getG a
  s.onRegs fun q => q.mts r v

/-- MTS. -/
def execMts (h : Hdr) (r : SReg) (a : GReg) (s : State) : Host.Outcome State Fault Refusal :=
  .next (issue (.mts h r a) (doMts r a) s)

end Sys2Proof.Machine
end

