-- ==== Sys2Proof/Machine/VFloat.lean ====
section
/-! DEFINITION. VFloat.lean: vector and scalar floating-point instructions, class 0x5 without the planker (R161 to R171). -/
namespace Sys2Proof.Machine

/-! ### Shared shapes -/

/-- The rounding mode of an instruction: its own field, or %frm (R61). -/
def State.mode (s : State) (rm : Rm) : RMode := modeIn s.rd.frm rm

/-- Write the performed elements of a whole result (R162). -/
def State.putLanes (s : State) (h : Hdr) (w : Nat) (d : VReg) (res : List (Nat × BitVec 6)) : State :=
  let (l, f) := laneWrite w (s.rd.gmask h) (s.rd.getV d) res
  (s.onRegs fun r => r.setV d l).raise f

/-- Elements of a register in the view of a format. -/
def State.fe (s : State) (f : Fmt) (v : VReg) : List Nat := elems (fmtBits' f) (s.rd.getV v)

/-- One operand, element by element. -/
def State.vf1 (s : State) (h : Hdr) (f : Fmt) (d a : VReg) (op : Nat → Nat × BitVec 6) : State :=
  s.putLanes h (fmtBits' f) d ((s.fe f a).map op)
/-- Two operands, element by element. -/
def State.vf2 (s : State) (h : Hdr) (f : Fmt) (d a b : VReg) (op : Nat → Nat → Nat × BitVec 6) : State :=
  s.putLanes h (fmtBits' f) d (map2 op (s.fe f a) (s.fe f b))
/-- Three operands, element by element. -/
def State.vf3 (s : State) (h : Hdr) (f : Fmt) (d a b c : VReg) (op : Nat → Nat → Nat → Nat × BitVec 6) : State :=
  s.putLanes h (fmtBits' f) d (map3 op (s.fe f a) (s.fe f b) (s.fe f c))

/-- A whole result that lands later, in the performed elements (R166). -/
def State.longLanes (s : State) (h : Hdr) (w : Nat) (d : VReg) (res : List (Nat × BitVec 6)) : State :=
  let gm := s.rd.gmask h
  s.longValue (s.newPend (.v d (laneBytes gm 16))) (lineOf w (res.map (·.1))) (laneWrite w gm 0 res).2

/-- VADD (R166). -/
def doVadd (h : Hdr) (f : Fmt) (rm : Rm) (d a b : VReg) (s : State) : State := s.vf2 h f d a b (fAdd f (s.mode rm))

/-- VADD. -/
def execVadd (h : Hdr) (f : Fmt) (rm : Rm) (d a b : VReg) (s : State) : Host.Outcome State Fault Refusal :=
  .next (issue (.vadd h f rm d a b) (doVadd h f rm d a b) s)

/-- VSUB (R166). -/
def doVsub (h : Hdr) (f : Fmt) (rm : Rm) (d a b : VReg) (s : State) : State := s.vf2 h f d a b (fSub f (s.mode rm))

/-- VSUB. -/
def execVsub (h : Hdr) (f : Fmt) (rm : Rm) (d a b : VReg) (s : State) : Host.Outcome State Fault Refusal :=
  .next (issue (.vsub h f rm d a b) (doVsub h f rm d a b) s)

/-- VMUL (R166). -/
def doVmul (h : Hdr) (f : Fmt) (rm : Rm) (d a b : VReg) (s : State) : State := s.vf2 h f d a b (fMul f (s.mode rm))

/-- VMUL. -/
def execVmul (h : Hdr) (f : Fmt) (rm : Rm) (d a b : VReg) (s : State) : Host.Outcome State Fault Refusal :=
  .next (issue (.vmul h f rm d a b) (doVmul h f rm d a b) s)

/-- VFMA (R166). -/
def doVfma (h : Hdr) (f : Fmt) (rm : Rm) (d a b c : VReg) (s : State) : State := s.vf3 h f d a b c (fFma f (s.mode rm))

/-- VFMA. -/
def execVfma (h : Hdr) (f : Fmt) (rm : Rm) (d a b c : VReg) (s : State) : Host.Outcome State Fault Refusal :=
  .next (issue (.vfma h f rm d a b c) (doVfma h f rm d a b c) s)

/-- VFMS (R166). -/
def doVfms (h : Hdr) (f : Fmt) (rm : Rm) (d a b c : VReg) (s : State) : State := s.vf3 h f d a b c (fFms f (s.mode rm))

/-- VFMS. -/
def execVfms (h : Hdr) (f : Fmt) (rm : Rm) (d a b c : VReg) (s : State) : Host.Outcome State Fault Refusal :=
  .next (issue (.vfms h f rm d a b c) (doVfms h f rm d a b c) s)

/-- VFNMA (R166). -/
def doVfnma (h : Hdr) (f : Fmt) (rm : Rm) (d a b c : VReg) (s : State) : State := s.vf3 h f d a b c (fFnma f (s.mode rm))

/-- VFNMA. -/
def execVfnma (h : Hdr) (f : Fmt) (rm : Rm) (d a b c : VReg) (s : State) : Host.Outcome State Fault Refusal :=
  .next (issue (.vfnma h f rm d a b c) (doVfnma h f rm d a b c) s)

/-- VMIN (R60). -/
def doVmin (h : Hdr) (f : Fmt) (d a b : VReg) (s : State) : State := s.vf2 h f d a b (fMinMax f false)

/-- VMIN. -/
def execVmin (h : Hdr) (f : Fmt) (d a b : VReg) (s : State) : Host.Outcome State Fault Refusal :=
  .next (issue (.vmin h f d a b) (doVmin h f d a b) s)

/-- VMAX (R60). -/
def doVmax (h : Hdr) (f : Fmt) (d a b : VReg) (s : State) : State := s.vf2 h f d a b (fMinMax f true)

/-- VMAX. -/
def execVmax (h : Hdr) (f : Fmt) (d a b : VReg) (s : State) : Host.Outcome State Fault Refusal :=
  .next (issue (.vmax h f d a b) (doVmax h f d a b) s)

/-- VABS (R166). -/
def doVabs (h : Hdr) (f : Fmt) (d a : VReg) (s : State) : State := s.vf1 h f d a (fAbs f)

/-- VABS. -/
def execVabs (h : Hdr) (f : Fmt) (d a : VReg) (s : State) : Host.Outcome State Fault Refusal :=
  .next (issue (.vabs h f d a) (doVabs h f d a) s)

/-- VNEG (R166). -/
def doVneg (h : Hdr) (f : Fmt) (d a : VReg) (s : State) : State := s.vf1 h f d a (fNeg f)

/-- VNEG. -/
def execVneg (h : Hdr) (f : Fmt) (d a : VReg) (s : State) : Host.Outcome State Fault Refusal :=
  .next (issue (.vneg h f d a) (doVneg h f d a) s)

/-- VRCP (R167). -/
def doVrcp (h : Hdr) (f : Fmt) (rm : Rm) (d a : VReg) (s : State) : State := s.vf1 h f d a (fRcp f (s.mode rm))

/-- VRCP. -/
def execVrcp (h : Hdr) (f : Fmt) (rm : Rm) (d a : VReg) (s : State) : Host.Outcome State Fault Refusal :=
  .next (issue (.vrcp h f rm d a) (doVrcp h f rm d a) s)

/-- VRSQ (R167). -/
def doVrsq (h : Hdr) (f : Fmt) (rm : Rm) (d a : VReg) (s : State) : State := s.vf1 h f d a (fRsq f (s.mode rm))

/-- VRSQ. -/
def execVrsq (h : Hdr) (f : Fmt) (rm : Rm) (d a : VReg) (s : State) : Host.Outcome State Fault Refusal :=
  .next (issue (.vrsq h f rm d a) (doVrsq h f rm d a) s)

/-- VEXP2 (R167). -/
def doVexp2 (h : Hdr) (f : Fmt) (rm : Rm) (d a : VReg) (s : State) : State := s.vf1 h f d a (fExp2 f (s.mode rm))

/-- VEXP2. -/
def execVexp2 (h : Hdr) (f : Fmt) (rm : Rm) (d a : VReg) (s : State) : Host.Outcome State Fault Refusal :=
  .next (issue (.vexp2 h f rm d a) (doVexp2 h f rm d a) s)

/-- VLOG2 (R167). -/
def doVlog2 (h : Hdr) (f : Fmt) (rm : Rm) (d a : VReg) (s : State) : State := s.vf1 h f d a (fLog2 f (s.mode rm))

/-- VLOG2. -/
def execVlog2 (h : Hdr) (f : Fmt) (rm : Rm) (d a : VReg) (s : State) : Host.Outcome State Fault Refusal :=
  .next (issue (.vlog2 h f rm d a) (doVlog2 h f rm d a) s)

/-- VDIV (R166): a long result. -/
def doVdiv (h : Hdr) (f : Fmt) (rm : Rm) (d a b : VReg) (s : State) : State :=
  s.longLanes h (fmtBits' f) d (map2 (fDiv f (s.mode rm)) (s.fe f a) (s.fe f b))

/-- VDIV. -/
def execVdiv (h : Hdr) (f : Fmt) (rm : Rm) (d a b : VReg) (s : State) : Host.Outcome State Fault Refusal :=
  .next (issue (.vdiv h f rm d a b) (doVdiv h f rm d a b) s)

/-- VSQRT (R166): a long result. -/
def doVsqrt (h : Hdr) (f : Fmt) (rm : Rm) (d a : VReg) (s : State) : State :=
  s.longLanes h (fmtBits' f) d ((s.fe f a).map (fSqrt f (s.mode rm)))

/-- VSQRT. -/
def execVsqrt (h : Hdr) (f : Fmt) (rm : Rm) (d a : VReg) (s : State) : Host.Outcome State Fault Refusal :=
  .next (issue (.vsqrt h f rm d a) (doVsqrt h f rm d a) s)

/-! ### Conversion, comparison, sums (R168, R169, R171) -/

/-- VCVT (R168): every element when the widths are equal; sixteen, placed by part, when they differ. -/
def doVcvt (h : Hdr) (rm : Rm) (part : BitVec 2) (t src : NFmt) (d a : VReg) (s : State) : State :=
  let cv := convert (s.mode rm) t src
  let from' := elems src.bits (s.rd.getV a)
  if t.bits = src.bits then s.putLanes h t.bits d (from'.map cv)
  else if t.bits < src.bits then
    let (l, f) := partWrite t.bits part.toNat (s.rd.gmask h) (s.rd.getV d) (from'.map cv)
    (s.onRegs fun r => r.setV d l).raise f
  else s.putLanes h t.bits d (((from'.drop (16 * part.toNat)).take 16).map cv)

/-- VCVT. -/
def execVcvt (h : Hdr) (rm : Rm) (part : BitVec 2) (t src : NFmt) (d a : VReg) (s : State) : Host.Outcome State Fault Refusal :=
  .next (issue (.vcvt h rm part t src d a) (doVcvt h rm part t src d a) s)

/-- VCMP (R169). -/
def doVcmp (f : Fmt) (c : FCond) (d : PReg) (a b : VReg) (s : State) : State :=
  let r := ((s.fe f a).zip (s.fe f b)).map fun x => fCmp f c x.1 x.2
  (s.wrP d (lanesAnd (fmtBits' f) (r.map (·.1)))).raise (r.foldl (fun acc x => acc ||| x.2) 0)

/-- VCMP. -/
def execVcmp (h : Hdr) (f : Fmt) (c : FCond) (d : PReg) (a b : VReg) (s : State) : Host.Outcome State Fault Refusal :=
  .next (issue (.vcmp h f c d a b) (doVcmp f c d a b) s)

/-- The elements that take part, the others as -0 (R171). -/
def partaking (f : Fmt) (w : Nat) (gm : Pred) (l : List (Nat × BitVec 6)) : List Nat × BitVec 6 :=
  let r := l.mapIdx fun j x => if laneOn w gm j then x else (zeroF f true, 0)
  (r.map (·.1), r.foldl (fun acc x => acc ||| x.2) 0)

/-- VRED (R171). Under RDN the −0 of a lane that takes no part makes −0 of a sum that is +0: R59's rule for zeros of opposite sign, where R75
says that the −0 leaves every sum unchanged (log entry 78). -/
def doVred (h : Hdr) (f : Fmt) (rm : Rm) (d a : VReg) (s : State) : State :=
  let w := fmtBits' f
  let (l, _) := partaking f w (s.rd.gmask h) ((s.fe f a).map fun x => (x, 0))
  let (x, fl) := pairwise (fAdd f (s.mode rm)) 6 l
  (s.onRegs fun r => r.setV d (setElem w (s.rd.getV d) 0 x)).raise fl

/-- VRED. -/
def execVred (h : Hdr) (f : Fmt) (rm : Rm) (d a : VReg) (s : State) : Host.Outcome State Fault Refusal :=
  .next (issue (.vred h f rm d a) (doVred h f rm d a) s)

/-- The product of two elements rounded to FP32 (R171). -/
def mulTo32 (f : Fmt) (mode : RMode) (a b : Nat) : Nat × BitVec 6 := finish .f32 mode (mulNum (toNum f a) (toNum f b))

/-- VDOT (R171). -/
def doVdot (h : Hdr) (f : Fmt) (rm : Rm) (d a b : VReg) (s : State) : State :=
  let (l, f1) := partaking .f32 (fmtBits' f) (s.rd.gmask h) (map2 (mulTo32 f (s.mode rm)) (s.fe f a) (s.fe f b))
  let (x, f2) := pairwise (fAdd .f32 (s.mode rm)) 6 l
  (s.onRegs fun r => r.setV d (setElem 32 (s.rd.getV d) 0 x)).raise (f1 ||| f2)

/-- VDOT. -/
def execVdot (h : Hdr) (f : Fmt) (rm : Rm) (d a b : VReg) (s : State) : Host.Outcome State Fault Refusal :=
  .next (issue (.vdot h f rm d a b) (doVdot h f rm d a b) s)

/-! ### Scalar forms (R170) -/

/-- The low bits of a g register that hold an element. -/
def State.fg (s : State) (f : Fmt) (a : GReg) : Nat := (s.rd.getG a).toNat % 2 ^ fmtBits' f
/-- Write a scalar result, zero-extended, with its flags. -/
def State.putF (s : State) (d : GReg) (r : Nat × BitVec 6) : State := (s.wrG d (BitVec.ofNat 64 r.1)).raise r.2

/-- FADD (R170). -/
def doFadd (f : Fmt) (rm : Rm) (d a b : GReg) (s : State) : State := s.putF d (fAdd f (s.mode rm) (s.fg f a) (s.fg f b))

/-- FADD. -/
def execFadd (h : Hdr) (f : Fmt) (rm : Rm) (d a b : GReg) (s : State) : Host.Outcome State Fault Refusal :=
  .next (issue (.fadd h f rm d a b) (doFadd f rm d a b) s)

/-- FMUL (R170). -/
def doFmul (f : Fmt) (rm : Rm) (d a b : GReg) (s : State) : State := s.putF d (fMul f (s.mode rm) (s.fg f a) (s.fg f b))

/-- FMUL. -/
def execFmul (h : Hdr) (f : Fmt) (rm : Rm) (d a b : GReg) (s : State) : Host.Outcome State Fault Refusal :=
  .next (issue (.fmul h f rm d a b) (doFmul f rm d a b) s)

/-- FFMA (R170). -/
def doFfma (f : Fmt) (rm : Rm) (d a b c : GReg) (s : State) : State :=
  s.putF d (fFma f (s.mode rm) (s.fg f a) (s.fg f b) (s.fg f c))

/-- FFMA. -/
def execFfma (h : Hdr) (f : Fmt) (rm : Rm) (d a b c : GReg) (s : State) : Host.Outcome State Fault Refusal :=
  .next (issue (.ffma h f rm d a b c) (doFfma f rm d a b c) s)

/-- FCMP (R170). -/
def doFcmp (f : Fmt) (c : FCond) (d : PReg) (a b : GReg) (s : State) : State :=
  let r := fCmp f c (s.fg f a) (s.fg f b)
  (s.wrP d (if r.1 then 0xFFFF else 0)).raise r.2

/-- FCMP. -/
def execFcmp (h : Hdr) (f : Fmt) (c : FCond) (d : PReg) (a b : GReg) (s : State) : Host.Outcome State Fault Refusal :=
  .next (issue (.fcmp h f c d a b) (doFcmp f c d a b) s)

/-- FCVT (R170): a signed integer is sign-extended. -/
def doFcvt (rm : Rm) (t src : NFmt) (d a : GReg) (s : State) : State :=
  let r := convert (s.mode rm) t src ((s.rd.getG a).toNat % 2 ^ src.bits)
  (s.wrG d (if nfmtSigned t then sextW t.bits r.1 else BitVec.ofNat 64 r.1)).raise r.2

/-- FCVT. -/
def execFcvt (h : Hdr) (rm : Rm) (t src : NFmt) (d a : GReg) (s : State) : Host.Outcome State Fault Refusal :=
  .next (issue (.fcvt h rm t src d a) (doFcvt rm t src d a) s)

end Sys2Proof.Machine
end

