-- ==== Sys2Proof/Machine/VBlock.lean ====
section
/-! DEFINITION. VBlock.lean: the block-format instructions, class 0x7 (R173, R174). -/
namespace Sys2Proof.Machine

/-- Element i of a block in a register (R68, R173). -/
def blockElem (bx : Bx) (l : Line) (i : Nat) : Nat := elem (bxBits bx) l i
/-- Where the exponent pair of a block lies: after its element bytes (R173). -/
def pairByte (bx : Bx) : Nat := 4 * bxBits bx
/-- The exponent pair of a block: from a g operand, or from the register (R173). -/
def pairOf (bx : Bx) (l : Line) (g : Option Nat) : Nat × Nat :=
  match g with
  | some p => (p % 256, p / 256 % 256)
  | none => (fromByte l (pairByte bx) 1, fromByte l (pairByte bx + 1) 1)
/-- The 32 values of a block (R67). -/
def blockVals (bx : Bx) (l : Line) (g : Option Nat) : List Num :=
  let (e0, e1) := pairOf bx l g
  (upTo 32).map fun i => bxValue bx e0 e1 (blockElem bx l i)

/-- VQNT (R174): the block, with its pair above the elements and in gC when it is named. -/
def doVqnt (_rn : Bool) (f : Fmt) (bx : Bx) (d a : VReg) (b : Option VReg) (c : Option GReg) (s : State) : State :=
  let x := s.fe f a ++ (match b with | some v => s.fe f v | none => [])
  let (codes, e0, e1) := quantise bx s.rd.bxdelta.toNat (fun _ => roundRne) (x.map (toNum f))
  let body := ofElems (bxBits bx) (codes.map (·.1))
  let pair := e0 + 256 * e1
  let l : Line := BitVec.ofNat 512 (if bx = .bx16 then body else body + pair * 2 ^ (8 * pairByte bx))
  let s := (s.onRegs fun r => r.setV d l).raise (allFlags codes)
  match c with
  | some g => s.wrG g (BitVec.ofNat 64 pair)
  | none => s

/-- VQNT. -/
def execVqnt (h : Hdr) (rn : Bool) (f : Fmt) (bx : Bx) (d a : VReg) (b : Option VReg) (c : Option GReg) (s : State) : Host.Outcome State Fault Refusal :=
  .next (issue (.vqnt h rn f bx d a b c) (doVqnt rn f bx d a b c) s)

/-- VDQNT (R174): through FP32, exact there, with one rounding to a narrow format. -/
def doVdqnt (h : Hdr) (rm : Rm) (part : BitVec 2) (f : Fmt) (bx : Bx) (d a : VReg) (c : Option GReg) (s : State) : State :=
  let vals := blockVals bx (s.rd.getV a) (c.map fun g => (s.rd.getG g).toNat % 65536)
  let out := vals.map fun x => let (r, fl) := putNum f (s.mode rm) x; (r, if f = .f32 then 0 else fl)
  s.putLanes h (fmtBits' f) d (if f = .f32 then (out.drop (16 * part.toNat)).take 16 else out)

/-- VDQNT. -/
def execVdqnt (h : Hdr) (rm : Rm) (part : BitVec 2) (f : Fmt) (bx : Bx) (d a : VReg) (c : Option GReg) (s : State) : Host.Outcome State Fault Refusal :=
  .next (issue (.vdqnt h rm part f bx d a c) (doVdqnt h rm part f bx d a c) s)

/-- One FP32 value rounded stochastically to a narrow format (R174). -/
def srElem (f : Fmt) (key : BitVec 32) (n : Nat) : Nat × BitVec 6 :=
  match toNum .f32 n with
  | .nan sg => (canonNaN f, flagIf sg flagNV)
  | .inf sn => (infF f sn, 0)
  | .fin sn m e =>
    if m = 0 then (zeroF f sn, 0)
    else
      let low : Int := 1 - (fmtBias f : Int) - fmtF f
      let u := max (floorLog2 m e - fmtF f) low
      let (k, inexact) := srInt m (e - u) key
      let (r, fl) := roundTo f .rn sn k u
      let tiny := decide (k < 2 ^ fmtF f) && u == low
      (r, fl ||| flagIf inexact flagNX ||| flagIf (inexact && tiny) flagUF)

/-- VSRND (R174). -/
def doVsrnd (h : Hdr) (part : BitVec 2) (f : Fmt) (d a : VReg) (b c : GReg) (s : State) : State :=
  let rank := (s.rd.getG b).setWidth 32
  let step := (s.rd.getG b).extractLsb' 32 32
  let base := (s.rd.getG c).setWidth 32
  let res := (elems 32 (s.rd.getV a)).mapIdx fun i x => srElem f (srKey rank step (base + BitVec.ofNat 32 i)) x
  let (l, fl) := partWrite 16 part.toNat (s.rd.gmask h) (s.rd.getV d) res
  (s.onRegs fun r => r.setV d l).raise fl

/-- VSRND. -/
def execVsrnd (h : Hdr) (part : BitVec 2) (f : Fmt) (d a : VReg) (b c : GReg) (s : State) : Host.Outcome State Fault Refusal :=
  .next (issue (.vsrnd h part f d a b c) (doVsrnd h part f d a b c) s)

/-- VBXDOT (R174): one K step of exact products, rounded once. -/
def doVbxdot (rm : Rm) (bx : Bx) (d a b : VReg) (c : Option GReg) (s : State) : State :=
  let g := c.map fun r => (s.rd.getG r).toNat
  let x := blockVals bx (s.rd.getV a) (g.map (· % 65536))
  let y := blockVals bx (s.rd.getV b) (g.map (· / 65536 % 65536))
  let (r, fl) := accStep (s.mode rm) (elem 32 (s.rd.getV d) 0) (exactDot (x.zip y))
  (s.onRegs fun q => q.setV d (setElem 32 (s.rd.getV d) 0 r)).raise fl

/-- VBXDOT. -/
def execVbxdot (h : Hdr) (rm : Rm) (bx : Bx) (d a b : VReg) (c : Option GReg) (s : State) : Host.Outcome State Fault Refusal :=
  .next (issue (.vbxdot h rm bx d a b c) (doVbxdot rm bx d a b c) s)

end Sys2Proof.Machine
end

