-- ==== Sys2Proof/Machine/VInt.lean ====
section
/-! DEFINITION. VInt.lean: vector integer and lane instructions, class 0x6 (R172). -/
namespace Sys2Proof.Machine

/-- Elements of a register in a view (R161). -/
def State.ve (s : State) (vw : View) (v : VReg) : List Nat := elems (viewW vw) (s.rd.getV v)
/-- A result with no flag. -/
def noFlag (x : Nat) : Nat × BitVec 6 := (x, 0)
/-- Two operands, element by element, by an operation of the view's width. -/
def State.vi2 (s : State) (h : Hdr) (vw : View) (d a b : VReg) (op : Nat → Nat → Nat → Nat) : State :=
  s.putLanes h (viewW vw) d (map2 (fun x y => noFlag (op (viewW vw) x y)) (s.ve vw a) (s.ve vw b))

/-- VIADD (R172). -/
def doViadd (h : Hdr) (vw : View) (d a b : VReg) (s : State) : State := s.vi2 h vw d a b rAdd

/-- VIADD. -/
def execViadd (h : Hdr) (vw : View) (d a b : VReg) (s : State) : Host.Outcome State Fault Refusal :=
  .next (issue (.viadd h vw d a b) (doViadd h vw d a b) s)

/-- VISUB (R172). -/
def doVisub (h : Hdr) (vw : View) (d a b : VReg) (s : State) : State := s.vi2 h vw d a b rSub

/-- VISUB. -/
def execVisub (h : Hdr) (vw : View) (d a b : VReg) (s : State) : Host.Outcome State Fault Refusal :=
  .next (issue (.visub h vw d a b) (doVisub h vw d a b) s)

/-- VIMUL (R172). -/
def doVimul (h : Hdr) (vw : View) (d a b : VReg) (s : State) : State := s.vi2 h vw d a b rMul

/-- VIMUL. -/
def execVimul (h : Hdr) (vw : View) (d a b : VReg) (s : State) : Host.Outcome State Fault Refusal :=
  .next (issue (.vimul h vw d a b) (doVimul h vw d a b) s)

/-- VAND (R172). -/
def doVand (h : Hdr) (vw : View) (d a b : VReg) (s : State) : State := s.vi2 h vw d a b rAndd

/-- VAND. -/
def execVand (h : Hdr) (vw : View) (d a b : VReg) (s : State) : Host.Outcome State Fault Refusal :=
  .next (issue (.vand h vw d a b) (doVand h vw d a b) s)

/-- VOR (R172). -/
def doVor (h : Hdr) (vw : View) (d a b : VReg) (s : State) : State := s.vi2 h vw d a b rOrr

/-- VOR. -/
def execVor (h : Hdr) (vw : View) (d a b : VReg) (s : State) : Host.Outcome State Fault Refusal :=
  .next (issue (.vor h vw d a b) (doVor h vw d a b) s)

/-- VXOR (R172). -/
def doVxor (h : Hdr) (vw : View) (d a b : VReg) (s : State) : State := s.vi2 h vw d a b rXor

/-- VXOR. -/
def execVxor (h : Hdr) (vw : View) (d a b : VReg) (s : State) : Host.Outcome State Fault Refusal :=
  .next (issue (.vxor h vw d a b) (doVxor h vw d a b) s)

/-- VSHL (R172). -/
def doVshl (h : Hdr) (vw : View) (d a b : VReg) (s : State) : State := s.vi2 h vw d a b rShl

/-- VSHL. -/
def execVshl (h : Hdr) (vw : View) (d a b : VReg) (s : State) : Host.Outcome State Fault Refusal :=
  .next (issue (.vshl h vw d a b) (doVshl h vw d a b) s)

/-- VSHR (R172). -/
def doVshr (h : Hdr) (vw : View) (d a b : VReg) (s : State) : State := s.vi2 h vw d a b rShr

/-- VSHR. -/
def execVshr (h : Hdr) (vw : View) (d a b : VReg) (s : State) : Host.Outcome State Fault Refusal :=
  .next (issue (.vshr h vw d a b) (doVshr h vw d a b) s)

/-- VSRA (R172). -/
def doVsra (h : Hdr) (vw : View) (d a b : VReg) (s : State) : State := s.vi2 h vw d a b rSra

/-- VSRA. -/
def execVsra (h : Hdr) (vw : View) (d a b : VReg) (s : State) : Host.Outcome State Fault Refusal :=
  .next (issue (.vsra h vw d a b) (doVsra h vw d a b) s)

/-- VIMIN (R172): signed, or unsigned with .u. -/
def doVimin (h : Hdr) (u : Bool) (vw : View) (d a b : VReg) (s : State) : State :=
  s.vi2 h vw d a b (if u then rMinu else rMin)

/-- VIMIN. -/
def execVimin (h : Hdr) (u : Bool) (vw : View) (d a b : VReg) (s : State) : Host.Outcome State Fault Refusal :=
  .next (issue (.vimin h u vw d a b) (doVimin h u vw d a b) s)

/-- VIMAX (R172): signed, or unsigned with .u. -/
def doVimax (h : Hdr) (u : Bool) (vw : View) (d a b : VReg) (s : State) : State :=
  s.vi2 h vw d a b (if u then rMaxu else rMax)

/-- VIMAX. -/
def execVimax (h : Hdr) (u : Bool) (vw : View) (d a b : VReg) (s : State) : Host.Outcome State Fault Refusal :=
  .next (issue (.vimax h u vw d a b) (doVimax h u vw d a b) s)

/-- The selector bit of an element (R162). -/
def selBit (w : Nat) (p : Pred) (j : Nat) : Bool := laneOn w p j

/-- VSEL (R172). -/
def doVsel (h : Hdr) (vw : View) (d a b : VReg) (c : PReg) (s : State) : State :=
  let w := viewW vw
  let p := s.rd.getP c
  s.putLanes h w d (((s.ve vw a).zip (s.ve vw b)).mapIdx fun j x => noFlag (if selBit w p j then x.1 else x.2))

/-- VSEL. -/
def execVsel (h : Hdr) (vw : View) (d a b : VReg) (c : PReg) (s : State) : Host.Outcome State Fault Refusal :=
  .next (issue (.vsel h vw d a b c) (doVsel h vw d a b c) s)

/-- VSHUF (R172): an index at or beyond the count gives 0. -/
def doVshuf (h : Hdr) (vw : View) (d a b : VReg) (s : State) : State :=
  let src := s.ve vw a
  s.putLanes h (viewW vw) d ((s.ve vw b).map fun i => noFlag ((src[i]?).getD 0))

/-- VSHUF. -/
def execVshuf (h : Hdr) (vw : View) (d a b : VReg) (s : State) : Host.Outcome State Fault Refusal :=
  .next (issue (.vshuf h vw d a b) (doVshuf h vw d a b) s)

/-- VBCAST (R172). -/
def doVbcast (h : Hdr) (vw : View) (d : VReg) (a : GReg) (s : State) : State :=
  let w := viewW vw
  s.putLanes h w d (List.replicate (512 / w) (noFlag ((s.rd.getG a).toNat % 2 ^ w)))

/-- VBCAST. -/
def execVbcast (h : Hdr) (vw : View) (d : VReg) (a : GReg) (s : State) : Host.Outcome State Fault Refusal :=
  .next (issue (.vbcast h vw d a) (doVbcast h vw d a) s)

/-- VINS (R172): it reads its destination. -/
def doVins (h : Hdr) (vw : View) (d : VReg) (a b : GReg) (s : State) : State :=
  let w := viewW vw
  let j := (s.rd.getG b).toNat % (512 / w)
  s.putLanes h w d ((setAt (s.ve vw d) j ((s.rd.getG a).toNat % 2 ^ w)).map noFlag)

/-- VINS. -/
def execVins (h : Hdr) (vw : View) (d : VReg) (a b : GReg) (s : State) : Host.Outcome State Fault Refusal :=
  .next (issue (.vins h vw d a b) (doVins h vw d a b) s)

/-- VEXT (R172): sign-extended, or zero-extended with .u. -/
def doVext (u : Bool) (vw : View) (d : GReg) (a : VReg) (b : GReg) (s : State) : State :=
  let w := viewW vw
  let x := elem w (s.rd.getV a) ((s.rd.getG b).toNat % (512 / w))
  s.wrG d (if u then BitVec.ofNat 64 x else sextW w x)

/-- VEXT. -/
def execVext (h : Hdr) (u : Bool) (vw : View) (d : GReg) (a : VReg) (b : GReg) (s : State) : Host.Outcome State Fault Refusal :=
  .next (issue (.vext h u vw d a b) (doVext u vw d a b) s)

/-- Elements before j whose selector is set (R172). -/
def prefixOf (w : Nat) (p : Pred) : Nat → Nat
  | 0 => 0
  | j + 1 => prefixOf w p j + (if selBit w p j then 1 else 0)

/-- VCMPRS (R172). -/
def doVcmprs (h : Hdr) (vw : View) (d a : VReg) (c : PReg) (s : State) : State :=
  let w := viewW vw
  let p := s.rd.getP c
  let packed := ((s.ve vw a).zipIdx.filter fun x => selBit w p x.2).map (·.1)
  s.putLanes h w d ((upTo (512 / w)).map fun j => noFlag ((packed[j]?).getD 0))

/-- VCMPRS. -/
def execVcmprs (h : Hdr) (vw : View) (d a : VReg) (c : PReg) (s : State) : Host.Outcome State Fault Refusal :=
  .next (issue (.vcmprs h vw d a c) (doVcmprs h vw d a c) s)

/-- VEXPND (R172). -/
def doVexpnd (h : Hdr) (vw : View) (d a : VReg) (c : PReg) (s : State) : State :=
  let w := viewW vw
  let p := s.rd.getP c
  let src := s.ve vw a
  s.putLanes h w d ((upTo (512 / w)).map fun j => noFlag (if selBit w p j then (src[prefixOf w p j]?).getD 0 else 0))

/-- VEXPND. -/
def execVexpnd (h : Hdr) (vw : View) (d a : VReg) (c : PReg) (s : State) : Host.Outcome State Fault Refusal :=
  .next (issue (.vexpnd h vw d a c) (doVexpnd h vw d a c) s)

/-- VIOTA (R172): every selector is 1 when none is named. -/
def doViota (h : Hdr) (vw : View) (d : VReg) (c : Option PReg) (s : State) : State :=
  let w := viewW vw
  let p := match c with | some r => s.rd.getP r | none => 0xFFFF
  s.putLanes h w d ((upTo (512 / w)).map fun j => noFlag (prefixOf w p j))

/-- VIOTA. -/
def execViota (h : Hdr) (vw : View) (d : VReg) (c : Option PReg) (s : State) : Host.Outcome State Fault Refusal :=
  .next (issue (.viota h vw d c) (doViota h vw d c) s)

/-- VICMP (R172). -/
def doVicmp (vw : View) (c : Cond) (d : PReg) (a b : VReg) (s : State) : State :=
  let w := viewW vw
  s.wrP d (lanesAnd w (((s.ve vw a).zip (s.ve vw b)).map fun x => condHolds w c x.1 x.2))

/-- VICMP. -/
def execVicmp (h : Hdr) (vw : View) (c : Cond) (d : PReg) (a b : VReg) (s : State) : Host.Outcome State Fault Refusal :=
  .next (issue (.vicmp h vw c d a b) (doVicmp vw c d a b) s)

end Sys2Proof.Machine
end

