-- ==== Sys2Proof/Machine/Body.lean ====
section
/-! DEFINITION. Body.lean: what an instruction that may stand in a pair, or be reissued, does once its checks have passed
(R33, R176). -/
namespace Sys2Proof.Machine

/-- The body of an instruction of classes 0x0 (NOP, MFS, MTS), 0x1 to 0x9; no other stands in a pair (R33). -/
def body (i : Instr) : State → State :=
  match i with
  | .nop _ => doNop
  | .mfs _ d r => doMfs d r
  | .mts _ r a => doMts r a
  | .add _ wd d a b => doAdd wd d a b
  | .addImm _ wd d a imm => doAddImm wd d a imm
  | .sub _ wd d a b => doSub wd d a b
  | .subImm _ wd d a imm => doSubImm wd d a imm
  | .mul _ wd d a b => doMul wd d a b
  | .mulImm _ wd d a imm => doMulImm wd d a imm
  | .mulh _ wd d a b => doMulh wd d a b
  | .mulhImm _ wd d a imm => doMulhImm wd d a imm
  | .mulhu _ wd d a b => doMulhu wd d a b
  | .mulhuImm _ wd d a imm => doMulhuImm wd d a imm
  | .div _ wd d a b => doDiv wd d a b
  | .divImm _ wd d a imm => doDivImm wd d a imm
  | .divu _ wd d a b => doDivu wd d a b
  | .divuImm _ wd d a imm => doDivuImm wd d a imm
  | .rem _ wd d a b => doRem wd d a b
  | .remImm _ wd d a imm => doRemImm wd d a imm
  | .remu _ wd d a b => doRemu wd d a b
  | .remuImm _ wd d a imm => doRemuImm wd d a imm
  | .andd _ wd d a b => doAndd wd d a b
  | .andImm _ wd d a imm => doAndImm wd d a imm
  | .orr _ wd d a b => doOrr wd d a b
  | .orImm _ wd d a imm => doOrImm wd d a imm
  | .xor _ wd d a b => doXor wd d a b
  | .xorImm _ wd d a imm => doXorImm wd d a imm
  | .andn _ wd d a b => doAndn wd d a b
  | .andnImm _ wd d a imm => doAndnImm wd d a imm
  | .shl _ wd d a b => doShl wd d a b
  | .shlImm _ wd d a imm => doShlImm wd d a imm
  | .shr _ wd d a b => doShr wd d a b
  | .shrImm _ wd d a imm => doShrImm wd d a imm
  | .sra _ wd d a b => doSra wd d a b
  | .sraImm _ wd d a imm => doSraImm wd d a imm
  | .rol _ wd d a b => doRol wd d a b
  | .rolImm _ wd d a imm => doRolImm wd d a imm
  | .min _ wd d a b => doMin wd d a b
  | .minImm _ wd d a imm => doMinImm wd d a imm
  | .max _ wd d a b => doMax wd d a b
  | .maxImm _ wd d a imm => doMaxImm wd d a imm
  | .minu _ wd d a b => doMinu wd d a b
  | .minuImm _ wd d a imm => doMinuImm wd d a imm
  | .maxu _ wd d a b => doMaxu wd d a b
  | .maxuImm _ wd d a imm => doMaxuImm wd d a imm
  | .setp _ wd c d a b => doSetp wd c d a b
  | .setpImm _ wd c d a imm => doSetpImm wd c d a imm
  | .sel _ wd d a b c => doSel wd d a b c
  | .clz _ wd d a => doClz wd d a
  | .ctz _ wd d a => doCtz wd d a
  | .popc _ wd d a => doPopc wd d a
  | .brev _ wd d a => doBrev wd d a
  | .bfx _ wd sx d a b c => doBfx wd sx d a b c
  | .bfxImm _ wd sx d a pos len => doBfxImm wd sx d a pos len
  | .bfi _ wd d a b c => doBfi wd d a b c
  | .bfiImm _ wd d a pos len => doBfiImm wd d a pos len
  | .mov _ f => doMov f
  | .plog _ tt d a b => doPlog tt d a b
  | .li _ wd d imm => doLi wd d imm
  | .liHi _ d imm => doLiHi d imm
  | .lea _ d a imm => doLea d a imm
  | .mkptr _ d a b => doMkptr d a b
  | .getband _ d a => doGetband d a
  | .caddr _ d a b c => doCaddr d a b c
  | .chkptr _ d a => doChkptr d a
  | .br h x disp => doBr h x disp
  | .bri _ a => doBri a
  | .call _ disp => doCall disp
  | .calli _ a => doCalli a
  | .ret _ a => doRet a
  | .loop _ a b x disp => doLoop a b x disp
  | .xrd _ hdr d a => doXrd hdr d a
  | .xsel _ d b x => doXsel d b x
  | .xunr _ d b x => doXunr d b x
  | .xpfd _ d a b x => doXpfd d a b x
  | .xnote _ a x => doXnote a x
  | .xflush _ => doXflush
  | .ld _ sz nc x d m => doLd sz nc x d m
  | .st _ sz bset d m => doSt sz bset d m
  | .vld h nc x d m => doVld h nc x d m
  | .vst h bset d m => doVst h bset d m
  | .lds _ d m => doLds d m
  | .sts _ d m => doSts d m
  | .ldf _ d m => doLdf d m
  | .feset _ m => doFeset m
  | .feclr _ m => doFeclr m
  | .ldacq _ sz d m => doLdacq sz d m
  | .strel _ sz d m => doStrel sz d m
  | .atom _ wd op am d a b disp => doAtom wd op am d a b disp
  | .pref _ d m => doPref d m
  | .vldx h cm d a b sc disp => doVldx h cm d a b sc disp
  | .vstx h cm d a b sc disp => doVstx h cm d a b sc disp
  | .cld _ tid d a b disp => doCld tid d a b disp
  | .cst _ tid d a b disp => doCst tid d a b disp
  | .cvld _ tid d a b disp => doCvld tid d a b disp
  | .cvst _ tid d a b disp => doCvst tid d a b disp
  | .cprobe _ tid d a => doCprobe tid d a
  | .cclr _ tid a => doCclr tid a
  | .ctileFind _ tid d a => doCtileFind tid d a
  | .ctileDetach _ tid d a => doCtileDetach tid d a
  | .ctilePtile _ tid a => doCtilePtile tid a
  | .ctilePnode _ tid a => doCtilePnode tid a
  | .clbinv _ tid => doClbinv tid
  | .vadd h f rm d a b => doVadd h f rm d a b
  | .vsub h f rm d a b => doVsub h f rm d a b
  | .vmul h f rm d a b => doVmul h f rm d a b
  | .vfma h f rm d a b c => doVfma h f rm d a b c
  | .vfms h f rm d a b c => doVfms h f rm d a b c
  | .vfnma h f rm d a b c => doVfnma h f rm d a b c
  | .vmin h f d a b => doVmin h f d a b
  | .vmax h f d a b => doVmax h f d a b
  | .vabs h f d a => doVabs h f d a
  | .vneg h f d a => doVneg h f d a
  | .vrcp h f rm d a => doVrcp h f rm d a
  | .vrsq h f rm d a => doVrsq h f rm d a
  | .vexp2 h f rm d a => doVexp2 h f rm d a
  | .vlog2 h f rm d a => doVlog2 h f rm d a
  | .vdiv h f rm d a b => doVdiv h f rm d a b
  | .vsqrt h f rm d a => doVsqrt h f rm d a
  | .vcvt h rm part t src d a => doVcvt h rm part t src d a
  | .vcmp _ f c d a b => doVcmp f c d a b
  | .vred h f rm d a => doVred h f rm d a
  | .vdot h f rm d a b => doVdot h f rm d a b
  | .fadd _ f rm d a b => doFadd f rm d a b
  | .fmul _ f rm d a b => doFmul f rm d a b
  | .ffma _ f rm d a b c => doFfma f rm d a b c
  | .fcmp _ f c d a b => doFcmp f c d a b
  | .fcvt _ rm t src d a => doFcvt rm t src d a
  | .viadd h vw d a b => doViadd h vw d a b
  | .visub h vw d a b => doVisub h vw d a b
  | .vimul h vw d a b => doVimul h vw d a b
  | .vand h vw d a b => doVand h vw d a b
  | .vor h vw d a b => doVor h vw d a b
  | .vxor h vw d a b => doVxor h vw d a b
  | .vshl h vw d a b => doVshl h vw d a b
  | .vshr h vw d a b => doVshr h vw d a b
  | .vsra h vw d a b => doVsra h vw d a b
  | .vimin h u vw d a b => doVimin h u vw d a b
  | .vimax h u vw d a b => doVimax h u vw d a b
  | .vsel h vw d a b c => doVsel h vw d a b c
  | .vshuf h vw d a b => doVshuf h vw d a b
  | .vbcast h vw d a => doVbcast h vw d a
  | .vins h vw d a b => doVins h vw d a b
  | .vext _ u vw d a b => doVext u vw d a b
  | .vcmprs h vw d a c => doVcmprs h vw d a c
  | .vexpnd h vw d a c => doVexpnd h vw d a c
  | .viota h vw d c => doViota h vw d c
  | .vicmp _ vw c d a b => doVicmp vw c d a b
  | .vqnt _ rn f bx d a b c => doVqnt rn f bx d a b c
  | .vdqnt h rm part f bx d a c => doVdqnt h rm part f bx d a c
  | .vsrnd h part f d a b c => doVsrnd h part f d a b c
  | .vbxdot _ rm bx d a b c => doVbxdot rm bx d a b c
  | _ => fun s => s

/-- A captured instruction with its v operands changed (R175). -/
def mapV (vf : VReg → VReg) (i : Instr) : Instr :=
  match i with
  | .vadd h f rm d a b => .vadd h f rm (vf d) (vf a) (vf b)
  | .vsub h f rm d a b => .vsub h f rm (vf d) (vf a) (vf b)
  | .vmul h f rm d a b => .vmul h f rm (vf d) (vf a) (vf b)
  | .vfma h f rm d a b c => .vfma h f rm (vf d) (vf a) (vf b) (vf c)
  | .vfms h f rm d a b c => .vfms h f rm (vf d) (vf a) (vf b) (vf c)
  | .vfnma h f rm d a b c => .vfnma h f rm (vf d) (vf a) (vf b) (vf c)
  | .vmin h f d a b => .vmin h f (vf d) (vf a) (vf b)
  | .vmax h f d a b => .vmax h f (vf d) (vf a) (vf b)
  | .vabs h f d a => .vabs h f (vf d) (vf a)
  | .vneg h f d a => .vneg h f (vf d) (vf a)
  | .vrcp h f rm d a => .vrcp h f rm (vf d) (vf a)
  | .vrsq h f rm d a => .vrsq h f rm (vf d) (vf a)
  | .vexp2 h f rm d a => .vexp2 h f rm (vf d) (vf a)
  | .vlog2 h f rm d a => .vlog2 h f rm (vf d) (vf a)
  | .vdiv h f rm d a b => .vdiv h f rm (vf d) (vf a) (vf b)
  | .vsqrt h f rm d a => .vsqrt h f rm (vf d) (vf a)
  | .vcvt h rm part t src d a => .vcvt h rm part t src (vf d) (vf a)
  | .vcmp h f c d a b => .vcmp h f c d (vf a) (vf b)
  | .vred h f rm d a => .vred h f rm (vf d) (vf a)
  | .vdot h f rm d a b => .vdot h f rm (vf d) (vf a) (vf b)
  | .viadd h vw d a b => .viadd h vw (vf d) (vf a) (vf b)
  | .visub h vw d a b => .visub h vw (vf d) (vf a) (vf b)
  | .vimul h vw d a b => .vimul h vw (vf d) (vf a) (vf b)
  | .vand h vw d a b => .vand h vw (vf d) (vf a) (vf b)
  | .vor h vw d a b => .vor h vw (vf d) (vf a) (vf b)
  | .vxor h vw d a b => .vxor h vw (vf d) (vf a) (vf b)
  | .vshl h vw d a b => .vshl h vw (vf d) (vf a) (vf b)
  | .vshr h vw d a b => .vshr h vw (vf d) (vf a) (vf b)
  | .vsra h vw d a b => .vsra h vw (vf d) (vf a) (vf b)
  | .vimin h u vw d a b => .vimin h u vw (vf d) (vf a) (vf b)
  | .vimax h u vw d a b => .vimax h u vw (vf d) (vf a) (vf b)
  | .vsel h vw d a b c => .vsel h vw (vf d) (vf a) (vf b) c
  | .vshuf h vw d a b => .vshuf h vw (vf d) (vf a) (vf b)
  | .vbcast h vw d a => .vbcast h vw (vf d) a
  | .vins h vw d a b => .vins h vw (vf d) a b
  | .vext h u vw d a b => .vext h u vw d (vf a) b
  | .vcmprs h vw d a c => .vcmprs h vw (vf d) (vf a) c
  | .vexpnd h vw d a c => .vexpnd h vw (vf d) (vf a) c
  | .viota h vw d c => .viota h vw (vf d) c
  | .vicmp h vw c d a b => .vicmp h vw c d (vf a) (vf b)
  | .vqnt h rn f bx d a b c => .vqnt h rn f bx (vf d) (vf a) (b.map vf) c
  | .vdqnt h rm part f bx d a c => .vdqnt h rm part f bx (vf d) (vf a) c
  | .vsrnd h part f d a b c => .vsrnd h part f (vf d) (vf a) b c
  | .vbxdot h rm bx d a b c => .vbxdot h rm bx (vf d) (vf a) (vf b) c
  | i => i

end Sys2Proof.Machine
end

