-- ==== Sys2Proof/Machine/Pair.lean ====
section
/-! DEFINITION. Pair.lean: the issue of a pair (R34, R47), and the planker's reissue (R176). -/
namespace Sys2Proof.Machine

/-! ### Pairs -/

/-- Number of the check of R47 that a verdict comes from. -/
def Verdict.check : Verdict → Nat
  | .go | .skip => 9
  | .park .marker _ _ => 4
  | .park .. => 8
  | .trap cause _ _ =>
    if cause = ILLEGAL_INSN then 2 else if cause = PRIV_INSN then 3 else if cause = LOAD_FAULT then 5
    else if cause = PENDING_WRITE then 7 else 8
  | .refused _ => 6
  | .page => 5

/-- The verdict of one half of a pair: bits that do not decode are ILLEGAL_INSN. -/
def halfVerdict (s : State) (i : Option Instr) : Verdict :=
  match i with
  | some i => verdict s i
  | none => .trap ILLEGAL_INSN 0 0

/-- The two instructions name one destination (R34), g0 and p0 included. -/
def sameDest (i j : Instr) : Bool := (usesOf i).dests.any fun d => (usesOf j).dests.contains d

/-- Both start long results and one place is left (R86). -/
def pairLong (s : State) (i j : Instr) : Bool :=
  let one := fun i => (usesOf i).performed s.rd && startsLong s.rd s.cx i
  one i && one j && decide (s.cx.longs.length + 1 ≥ Config.maxLong)

/-- What stops a pair before either half is performed, and which half it is charged to: one destination named twice, which R34 charges to
neither and the model to the first (log entry 72); the earlier failing check of R47, the first half's where both fail the same one; no room
for the results of both. -/
def pairVerdict (s : State) (i j : Instr) : Option (Nat × Verdict) :=
  let vi := verdict s i
  let vj := verdict s j
  if sameDest i j then some (1, .trap ILLEGAL_INSN 0 0)
  else if vi.check < 9 || vj.check < 9 then some (if vi.check ≤ vj.check then (1, vi) else (2, vj))
  else if pairLong s i j then some (1, .park .marker (.longRoom 2) false)
  else none

/-- Set which instruction is being performed. -/
def State.atHalf (s : State) (h : Nat) : State := s.onCx fun c => { c with half := h }

/-- Act on a half's verdict for the pair as a whole. -/
def State.refusePair (s : State) (h : Nat) (v : Verdict) : State :=
  let t := ((s.atHalf h).refuse v).atHalf 0
  match t.took with
  | some k => t.deliver t.me.1 t.me.2 k
  | none => t

/-- Perform one half. A vector half's flags are kept apart and ORed in after both (R64). -/
def State.doHalf (s : State) (h : Nat) (i : Instr) (v : Verdict) : State :=
  let s := s.atHalf h
  match v with
  | .go => s.perform i (body i)
  | _ => s.noteCapture i

/-- The flags that a vector half raises, beside the flags that stand. -/
def State.halfFlags (s : State) (h : Nat) (i : Instr) (v : Verdict) : State × BitVec 6 :=
  if (usesOf i).vec then
    let old := s.cx.regs.fflags
    let t := (s.onRegs fun r => { r with fflags := 0 }).doHalf h i v
    let new := t.cx.regs.fflags
    (t.onRegs fun r => { r with fflags := old }, new)
  else (s.doHalf h i v, 0)

/-- What a half has done: gone on; to be undone, with a trap, a park before the pair or a save. -/
inductive HalfEnd | fine | trap (t : Taken) | again (k : PKind) (c : PCond) (l : Bool) | gone
deriving DecidableEq, Repr

/-- How a half has ended. -/
def State.halfEnd (s : State) : HalfEnd :=
  match s.took with
  | some t => .trap t
  | none =>
    match s.cx.run with
    | .parked k c .again l => .again k c l
    | .free | .stopped => .gone
    | _ => .fine

/-- Go on after half h: the pair is undone where it trapped or must be issued again (R34). -/
def State.afterHalf (s old : State) (h : Nat) (k : State → State) : State :=
  match s.halfEnd with
  | .fine => k s
  | .trap t => (old.atHalf 0).deliver old.me.1 old.me.2 t
  | .again kind cond l => (old.atHalf 0).park kind cond .again l
  | .gone =>
    if s.cx.run = .stopped then s.atHalf 0
    else match s.mine.paged.getLast? with
      | some (_, _, pages) =>
        ((old.atHalf 0).onCx fun c => { c with pairOf := h }).savePaged old.me.1 old.me.2 (pages.map fun p => p.1)
      | none => s

/-- Move past a pair: both registers written; a parked half leaves its mark. -/
def State.finishPair (s : State) (parkedIn : Nat) : State :=
  let s := s.onCx fun c => { c with half := 0, view := none, pairOf := if c.run = .ready then 0 else parkedIn }
  s.finish

/-- The issue of a pair of sound instructions. -/
def pairGo (i j : Instr) (s : State) : State :=
  match pairVerdict s i j with
  | some (h, v) => s.refusePair h v
  | none =>
    let vi := verdict s i
    let vj := verdict s j
    let old := s
    let s := s.onCx fun c => { c with view := some c.regs }
    let (s, f1) := s.halfFlags 1 i vi
    s.afterHalf old 1 fun s =>
      let h := if s.cx.run = .ready then 2 else 1
      let run := s.cx.run
      let (s, f2) := (s.onCx fun c => { c with run := .ready }).halfFlags 2 j vj
      s.afterHalf old 2 fun s =>
        let s := s.onCx fun c => { c with run := if c.run = .ready then run else c.run }
        (s.raise (f1 ||| f2)).finishPair h

/-- A pair from its bits. -/
def pairIssue (w1 w2 : Insn96) (s : State) : State :=
  match (decode w1).toOption, (decode w2).toOption with
  | some i, some j => pairGo i j s
  | none, _ => s.refusePair 1 (.trap ILLEGAL_INSN 0 0)
  | some _, none => s.refusePair 2 (.trap ILLEGAL_INSN 0 0)

/-- PAIR_ISSUE (R34): the context that is issuing performs a pair. -/
def execPairIssue (w1 w2 : Insn96) (s : State) : Host.Outcome State Fault Refusal := .next (pairIssue w1 w2 s)

/-! ### The planker (R176) -/

/-- The instruction of a capture's next reissue, its v operands staggered. -/
def Capture.reissue (p : Capture) : Option Instr :=
  (p.code[p.next % p.n]?).map fun i => mapV (stagger (p.next / p.n + 1) p.s) i

/-- A CTXSV that waits has named the context, which issues nothing meanwhile (R374). -/
def Core.saving (k : Core) (x : Nat) : Bool :=
  k.ctxs.any fun q => match q.2.run with | .parked _ _ (.ctxsv _ y) _ => y == x | _ => false

/-- Perform the next reissue of the capture that a position holds: its guard and sources are read now; after the last one the
capture is free. A halted owner's reissues do not proceed. -/
def State.reissue (s : State) (core pos : Nat) : State :=
  match tget (s.core core).capHold pos with
  | none => s
  | some x =>
    let c := s.ctx core x
    match c.cap with
    | none => s
    | some p =>
      if !p.busy || c.halted || c.run = .stopped || (s.core core).saving x then s
      else
        match p.reissue with
        | none => s
        | some i =>
          let me := s.me
          let took := s.took
          let s := { s with me := (core, x), took := none }
          let s := if (usesOf i).performed s.cx.regs then body i s else s
          let s := { s with me := me, took := took }
          let s := s.onCore core fun k => k.count 0x0C
          if p.next + 1 < p.n * p.k then s.onCtx core x fun c => { c with cap := some { p with next := p.next + 1 } }
          else s.dropCapture core x

/-- PLANKER_REISSUE (R176). -/
def execPlankerReissue (core pos : Nat) (s : State) : Host.Outcome State Fault Refusal := .next (s.reissue core pos)

end Sys2Proof.Machine
end

