-- ==== Sys2Proof/Machine/Planker.lean ====
section
/-! DEFINITION. Planker.lean: REP and REPWAIT (R175, R178). The reissues stand in Pair.lean. -/
namespace Sys2Proof.Machine

/-- Start a capture once the position's is free (R175); REP while the thread has one is REP_USE 1. -/
def State.repGo (s : State) (n st k : Nat) : State :=
  let pos := s.me.2 % 8
  if s.cx.cap.isSome then s.trap REP_USE 0 1
  else if k = 0 then s
  else if (tget s.mine.capHold pos).isSome then s.park .sync (.capFree pos) (.rep n st k)
  else
    let x := s.me.2
    (s.onCx fun c => { c with cap := some { n := n, s := st, k := k, code := [], next := 0 } }).onMine fun q =>
      { q with capHold := tset q.capHold pos x }

/-- REP (R175). -/
def doRep (n1 : BitVec 3) (st : BitVec 4) (a : GReg) (s : State) : State := s.repGo (n1.toNat + 1) st.toNat (fld (s.rd.getG a) 15 0)

/-- REP. -/
def execRep (h : Hdr) (n1 : BitVec 3) (st : BitVec 4) (a : GReg) (s : State) : Host.Outcome State Fault Refusal :=
  .next (issue (.rep h n1 st a) (doRep n1 st a) s)

/-- REPWAIT (R78, R178): a capture that forms would take it, REP_USE 3. -/
def doRepwait (s : State) : State :=
  if s.cx.cap.any Capture.forming then s.trap REP_USE 0 3
  else if s.cx.cap.any Capture.busy then s.park .sync .captured .finish
  else s

/-- REPWAIT. -/
def execRepwait (h : Hdr) (s : State) : Host.Outcome State Fault Refusal :=
  .next (issue (.repwait h) doRepwait s)

end Sys2Proof.Machine
end

