-- ==== Sys2Proof/Machine/Sched.lean ====
section
/-! DEFINITION. Sched.lean: the scheduling instructions, class 0xE (R389 to R395). What the scheduler makes of a request stands in
EvSched.lean. -/
namespace Sys2Proof.Machine

/-- A pointer operand: bit 57 is BAD_ADDR, a bad alignment MISALIGN (R390). -/
def State.withPtr (s : State) (p : Word) (align : Nat) (k : State) : State :=
  if p.getLsbD 57 then s.trap BAD_ADDR p else if p.toNat % align != 0 then s.trap MISALIGN p else k

/-- A request to the scheduler that orders no access: its result is long. -/
def State.askSched (s : State) (d : GReg) (op : ROp) : State := s.long1 (.g d .d 0) .unit op

/-- LAUNCH (R390): a kick. -/
def doLaunch (d a : GReg) (s : State) : State :=
  s.withPtr (s.rd.getG a) 64 <| s.kick (.launch (s.rd.getG a)) (.g d .d 0)

/-- LAUNCH. -/
def execLaunch (h : Hdr) (d a : GReg) (s : State) : Host.Outcome State Fault Refusal :=
  .next (issue (.launch h d a) (doLaunch d a) s)

/-- GLAUNCH (R386): a kick. -/
def doGlaunch (d a b : GReg) (s : State) : State :=
  s.withPtr (s.rd.getG b) 16 <| s.kick (.glaunch (s.rd.getG a) (s.rd.getG b)) (.g d .d 0)

/-- GLAUNCH. -/
def execGlaunch (h : Hdr) (d a b : GReg) (s : State) : Host.Outcome State Fault Refusal :=
  .next (issue (.glaunch h d a b) (doGlaunch d a b) s)

/-- GNODE.graph (R385). -/
def doGnodeGraph (d a : GReg) (s : State) : State := s.askSched d (.gnodeGraph (s.rd.getG a))

/-- GNODE_GRAPH. -/
def execGnodeGraph (h : Hdr) (d a : GReg) (s : State) : Host.Outcome State Fault Refusal :=
  .next (issue (.gnodeGraph h d a) (doGnodeGraph d a) s)

/-- GNODE.node (R392): a kick. -/
def doGnodeNode (d a b : GReg) (s : State) : State :=
  s.withPtr (s.rd.getG b) 64 <| s.kick (.gnodeNode (s.rd.getG a) (s.rd.getG b)) (.g d .d 0)

/-- GNODE_NODE. -/
def execGnodeNode (h : Hdr) (d a b : GReg) (s : State) : Host.Outcome State Fault Refusal :=
  .next (issue (.gnodeNode h d a b) (doGnodeNode d a b) s)

/-- GNODE.edge (R392). -/
def doGnodeEdge (d a b : GReg) (s : State) : State := s.askSched d (.gnodeEdge (s.rd.getG a) (s.rd.getG b))

/-- GNODE_EDGE. -/
def execGnodeEdge (h : Hdr) (d a b : GReg) (s : State) : Host.Outcome State Fault Refusal :=
  .next (issue (.gnodeEdge h d a b) (doGnodeEdge d a b) s)

/-- GNODE.drop (R387). -/
def doGnodeDrop (d a : GReg) (s : State) : State := s.askSched d (.gnodeDrop (s.rd.getG a))

/-- GNODE_DROP. -/
def execGnodeDrop (h : Hdr) (d a : GReg) (s : State) : Host.Outcome State Fault Refusal :=
  .next (issue (.gnodeDrop h d a) (doGnodeDrop d a) s)

/-- GDONE (R392): a kick. -/
def doGdone (d a b : GReg) (s : State) : State := s.kick (.gdone (s.rd.getG a) (s.rd.getG b)) (.g d .d 0)

/-- GDONE. -/
def execGdone (h : Hdr) (d a b : GReg) (s : State) : Host.Outcome State Fault Refusal :=
  .next (issue (.gdone h d a b) (doGdone d a b) s)

/-- GRAB.take (R388). -/
def doGrabTake (d a : GReg) (s : State) : State := s.askSched d (.grabTake (s.rd.getG a))

/-- GRAB_TAKE. -/
def execGrabTake (h : Hdr) (d a : GReg) (s : State) : Host.Outcome State Fault Refusal :=
  .next (issue (.grabTake h d a) (doGrabTake d a) s)

/-- GRAB.set (R393). -/
def doGrabSet (d a b : GReg) (s : State) : State :=
  s.withPtr (s.rd.getG b) 32 <| s.askSched d (.grabSet (s.rd.getG a) (s.rd.getG b))

/-- GRAB_SET. -/
def execGrabSet (h : Hdr) (d a b : GReg) (s : State) : Host.Outcome State Fault Refusal :=
  .next (issue (.grabSet h d a b) (doGrabSet d a b) s)

/-- QSTAT.launch (R394). -/
def doQstatLaunch (d a : GReg) (s : State) : State := s.askSched d (.qstat 0 (s.rd.getG a))

/-- QSTAT_LAUNCH. -/
def execQstatLaunch (h : Hdr) (d a : GReg) (s : State) : Host.Outcome State Fault Refusal :=
  .next (issue (.qstatLaunch h d a) (doQstatLaunch d a) s)

/-- QSTAT.queue (R394). -/
def doQstatQueue (d a : GReg) (s : State) : State := s.askSched d (.qstat 1 (s.rd.getG a))

/-- QSTAT_QUEUE. -/
def execQstatQueue (h : Hdr) (d a : GReg) (s : State) : Host.Outcome State Fault Refusal :=
  .next (issue (.qstatQueue h d a) (doQstatQueue d a) s)

/-- QSTAT.range (R394). -/
def doQstatRange (d a : GReg) (s : State) : State := s.askSched d (.qstat 2 (s.rd.getG a))

/-- QSTAT_RANGE. -/
def execQstatRange (h : Hdr) (d a : GReg) (s : State) : Host.Outcome State Fault Refusal :=
  .next (issue (.qstatRange h d a) (doQstatRange d a) s)

/-- QSTAT.inst (R394). -/
def doQstatInst (d a : GReg) (s : State) : State := s.askSched d (.qstat 3 (s.rd.getG a))

/-- QSTAT_INST. -/
def execQstatInst (h : Hdr) (d a : GReg) (s : State) : Host.Outcome State Fault Refusal :=
  .next (issue (.qstatInst h d a) (doQstatInst d a) s)

end Sys2Proof.Machine
end

