-- ==== Sys2Proof/Machine/Engine.lean ====
section
/-! DEFINITION. Engine.lean: accesses of engines, and the units and tiles of the matrix work: reading, the epilogue, writing
(R66 to R76, R220, R265, R297, R306, R307). -/
namespace Sys2Proof.Machine

/-! ### Engine accesses -/

/-- Load bytes of one line from a place. -/
def State.eLoad (s : State) (a : Asker) (pl : Place) (n : Nat) : Served :=
  match pl with
  | .pool c off w ea => s.pLoad a c off n w ea
  | .glob va => s.gLoad a .load va n
  | _ => .wait
/-- Store masked bytes of one line at a place. -/
def State.eStore (s : State) (a : Asker) (pl : Place) (data : Line) (mask : BitVec 64) : Served :=
  match pl with
  | .pool c off w ea => s.pStore a c off w ea data mask
  | .glob va => (s.gStore a va data mask false).mailWake
  | _ => .wait

/-! ### Store buffers of engine harts (R17, R203, R205, R208) -/

/-- The buffer of a hart, while a step has stores in it. -/
def State.ebuf (s : State) (g : Agent) : Option EBuf := s.ebufs.find? fun b => b.own == g
/-- Set the buffer of a hart. -/
def State.setEbuf (s : State) (b : EBuf) : State := { s with ebufs := b :: s.ebufs.filter fun x => x.own != b.own }
/-- The step of a hart has reported, or is given up. -/
def State.dropEbuf (s : State) (g : Agent) : State := { s with ebufs := s.ebufs.filter fun x => x.own != g }
/-- A buffer without stores, for a step. -/
def EBuf.open' (g : Agent) (tag : Nat) (lane : Option Nat) : EBuf := { own := g, tag := tag, lane := lane, ents := [], fault := none, note := [] }

/-- Strips in a core's copy unit that have not left its buffer. -/
def Core.pushed (k : Core) : Nat := (k.ctxs.map fun p => (p.2.streams.map fun q => q.2.out.length).sum).sum
/-- Entries of a hart's buffer that are taken. -/
def State.bufUsed (s : State) (g : Agent) : Nat :=
  (match s.ebuf g with | some b => b.ents.length | none => 0) + (match g with | .copy c => (s.core c).pushed | _ => 0)

/-- Two stores go to one line, by the place where they are performed; the bands of pointers are compared (R205). -/
def Place.sameLine : Place → Place → Bool
  | .pool c o _ _, .pool c' o' _ _ => c == c' && o / 64 == o' / 64
  | .glob v, .glob v' => lineVa v == lineVa v'
  | _, _ => false

/-- Store masked bytes of one line through a hart's buffer: a store joins the youngest entry for its line; a full buffer drains its oldest
entry first (R205). -/
def State.eBuf (s : State) (g : Agent) (a : Asker) (pl : Place) (data : Line) (mask : BitVec 64) : Served :=
  match s.ebuf g with
  | none => s.eStore a pl data mask
  | some b =>
    match b.ents.getLast? with
    | some e =>
      if e.pl.sameLine pl then
        .done 0 (s.setEbuf { b with ents := b.ents.dropLast ++ [{ e with data := mergeLine e.data data mask, mask := e.mask ||| mask }] })
      else if s.bufUsed g < 32 then .done 0 (s.setEbuf { b with ents := b.ents ++ [{ who := a, pl := pl, data := data, mask := mask }] })
      else
        let put := fun (s : State) => s.setEbuf { b with ents := b.ents.drop 1 ++ [{ who := a, pl := pl, data := data, mask := mask }] }
        (match b.ents with
         | [] => .wait
         | e :: _ =>
           (match s.eStore e.who e.pl e.data e.mask with
            | .done l s => .done l (put s)
            | .hold s => .hold (put s)
            | .fail f s => .fail f (put s)
            | .wait => .wait))
    | none =>
      if s.bufUsed g < 32 then .done 0 (s.setEbuf { b with ents := [{ who := a, pl := pl, data := data, mask := mask }] }) else .wait

/-- An address n bytes on, in a mode. -/
def modeAdd (m : Mode) (ea : Word) (n : Nat) : Word := if m = .g then ptrAdd ea n else ea + BitVec.ofNat 64 n
/-- Where an engine's access is performed, for a core's work: a pool is checked against the windows (R184, R265). An address past what
its mode can name lies in no pool, and the port refuses it (R183). -/
def enginePlace (core : Nat) (m : Mode) (ea : Word) : Place :=
  match placeOf core m ea with
  | .pool c off _ ea => .pool c (if eaClean m ea then off else 65536) true ea
  | p => p

/-- Load n lines, one after the other. -/
def State.eLines (s : State) (a : Asker) (at' : Nat → Place) (k : List Line → State → Served) : Nat → List Line → Served
  | 0, acc => k acc s
  | n + 1, acc =>
    match s.eLoad a (at' acc.length) 64 with
    | .done l s => s.eLines a at' k n (acc ++ [l])
    | r => r

/-- Store lines with masks, by line number. -/
def State.ePut (s : State) (a : Asker) (at' : Nat → Place) (k : State → Served) : List (Nat × Line × BitVec 64) → Served
  | [] => k s
  | (i, d, m) :: t =>
    match s.eStore a (at' i) d m with
    | .done _ s => s.ePut a at' k t
    | r => r

/-- Byte n of a list of lines. -/
def byteIn (l : List Line) (n : Nat) : Nat := match l[n / 64]? with | some x => (lineByte x (n % 64)).toNat | none => 0

/-! ### Formats of a tile (R71, R72, R295, R297), by the element format code of R295 -/

/-- Columns of a grid tile. -/
def tileCols (ef : Nat) : Nat := match ef with | 1 | 2 | 5 => 16 | 3 => 64 | _ => 32
/-- Bytes of a grid tile. -/
def tileSize (ef : Nat) : Nat := if ef = 0 then 4096 else 1088
/-- The block format of a code. -/
def efBx : Nat → Option Bx
  | 3 => some .bx4 | 4 => some .bx8 | 5 => some .bx16 | _ => none
/-- The floating-point format of a code. -/
def efFmt : Nat → Fmt
  | 1 => .f16 | 2 => .bf16 | _ => .f32

/-- Element (r, c) of a tile, exactly. -/
def tileVal (ef : Nat) (byte : Nat → Nat) (r c : Nat) : Num :=
  match efBx ef with
  | some bx => bxValue bx (byte (1024 + 2 * r)) (byte (1025 + 2 * r)) (tileElem byte (bxBits bx) r c)
  | none =>
    if ef = 0 then
      let o := 128 * r + 4 * c
      toNum .f32 (byte o + 256 * byte (o + 1) + 65536 * byte (o + 2) + 16777216 * byte (o + 3))
    else toNum (efFmt ef) (tileElem byte 16 r c)

/-- A value as FP32: exact for every format of a tile (R70). -/
def num32 (x : Num) : Nat := (putNum .f32 .rn x).1
/-- Element (r, c) of a tile as FP32. -/
def tile32 (ef : Nat) (byte : Nat → Nat) (r c : Nat) : Nat := num32 (tileVal ef byte r c)

/-- Grid tiles of a unit, and the columns of a unit in one of them (R297). -/
def unitTiles (ef : Nat) : Nat := match ef with | 1 | 2 | 5 => 2 | _ => 1

/-! ### The epilogue (R307) -/

/-- One element through bias and activation: the value, and whether it is a NaN. -/
def epiElem (act : Nat) (bias : Option Nat) (y : Nat) : Nat × Bool :=
  let y := match bias with | some b => (fAdd .f32 .rn y b).1 | none => y
  let v := toNum .f32 y
  let pos : Bool := match v with | .fin s m _ => !s && m != 0 | .inf s => !s | .nan _ => false
  let neg : Bool := match v with | .fin s m _ => s && m != 0 | .inf s => s | .nan _ => false
  let y := match act with
    | 1 => if !pos && !isNaN v then 0 else y
    | 2 => if neg then (fMul .f32 .rn y 0x3E000000).1 else y
    | 3 => y % 2 ^ 31
    | _ => y
  if isNaN v then (canonNaN .f32, true) else (y, false)

/-- One row encoded in a format: codes, exponent pair, whether anything saturated. -/
def encodeRow (ef delta : Nat) (rnd : Nat → Rounding) (row : List Nat) : List Nat × Nat × Nat × Bool :=
  match efBx ef with
  | some bx =>
    let (c, e0, e1) := quantise bx delta rnd (row.map (toNum .f32))
    (c.map (·.1), e0, e1, (allFlags c).getLsbD 5)
  | none =>
    if ef = 0 then (row, 0, 0, false) else (row.map fun y => (putNum (efFmt ef) .rn (toNum .f32 y)).1, 0, 0, false)

/-- Set a byte of a table of masked lines. -/
def putByte (t : Tab (Line × BitVec 64)) (off v : Nat) : Tab (Line × BitVec 64) :=
  let (d, m) := tgetD t (off / 64) (0, 0)
  tset t (off / 64) (d ||| atByte (off % 64) (v % 256), m ||| byteMask (off % 64) 1)
/-- Set n bytes, lowest first. -/
def putBytes (t : Tab (Line × BitVec 64)) (off : Nat) : Nat → Nat → Tab (Line × BitVec 64)
  | 0, _ => t
  | n + 1, v => putBytes (putByte t off v) (off + 1) n (v / 256)

/-- The bytes of row r of a tile from column c0 on: valid columns only, and the pair when there is one (R306). A BX4 byte whose
upper half is masked keeps that half. -/
def rowBytes (ef c0 r : Nat) (old : Nat → Nat) (codes : List Nat) (e0 e1 : Nat) (t : Tab (Line × BitVec 64)) : Tab (Line × BitVec 64) :=
  if codes.isEmpty then t
  else
    let t := if ef = 3 then
        (upTo ((codes.length + 1) / 2)).foldl (fun t i =>
          let o := 32 * r + c0 / 2 + i
          let hi := match codes[2 * i + 1]? with | some x => x | none => old o / 16
          putByte t o ((codes[2 * i]?).getD 0 + 16 * hi)) t
      else
        let w := if ef = 0 then 4 else if ef = 4 then 1 else 2
        let base := if ef = 0 then 128 * r else 32 * r
        (codes.mapIdx fun i x => (i, x)).foldl (fun t p => putBytes t (base + w * (c0 + p.1)) w p.2) t
    if ef = 0 then t else putByte (putByte t (1024 + 2 * r) e0) (1025 + 2 * r) e1

/-- The stores of a tile from its valid rows, each a list of its valid columns from c0 on: the masked lines, and whether anything
saturated. -/
def encodeTile (ef c0 delta : Nat) (rnd : Nat → Nat → Rounding) (old : Nat → Nat) (rows : List (List Nat)) :
    List (Nat × Line × BitVec 64) × Bool :=
  (rows.mapIdx fun r x => (r, x)).foldl (fun acc p =>
    let (codes, e0, e1, sat) := encodeRow ef delta (rnd p.1) p.2
    (rowBytes ef c0 p.1 old codes e0 e1 acc.1, acc.2 || sat)) (([] : Tab (Line × BitVec 64)), false)

/-! ### Accumulator tiles (R18) -/

/-- Pool offset of accumulator tile i of a core. -/
def Core.accBase (k : Core) (i : Nat) : Nat := partScratch (k.part.getD 0) + 4096 * i
/-- The 1,024 FP32 elements of an accumulator tile, row by row. -/
def Core.accVals (k : Core) (i : Nat) : List Nat := (upTo 1024).map fun n => rdN k.pool (k.accBase i + 4 * n) 4
/-- Write elements of an accumulator tile from element n on. -/
def Core.accPut (k : Core) (i : Nat) (vals : List Nat) : Core :=
  { k with pool := (vals.mapIdx fun n x => (n, x)).foldl (fun m p => wrN m (k.accBase i + 4 * p.1) 4 p.2) k.pool }

end Sys2Proof.Machine
end

