-- ==== Sys2Proof/Machine/Fabric.lean ====
section
/-! DEFINITION. Fabric.lean: fabric groups and the fabric instructions, class 0xC (R335 to R341). -/
namespace Sys2Proof.Machine

/-! ### Fabric groups (R335) -/

/-- Word 0 of a group's entry. -/
def State.fgroup (s : State) (g : Nat) : Word := tgetD s.fabric.groups g 0
/-- Members of a group. -/
def fgSize (w : Word) : Nat := fld w 31 20 + 1
/-- This device's rank in a group. -/
def fgRank (w : Word) : Nat := fld w 19 8
/-- A thread of a tenant may use the group (R335). -/
def fgOk (w : Word) (tenant : BitVec 16) : Bool := w.getLsbD 0 && fld w 47 32 == tenant.toNat
/-- The group, the rank and the tenant of a request are accepted (R335). -/
def State.peerOk (s : State) (tenant : BitVec 16) (g r : Nat) : Bool :=
  fgOk (s.fgroup g) tenant && decide (r < fgSize (s.fgroup g))
/-- Key of a member of a group, in the tables of the fabric. -/
def peerKey (g r : Nat) : Nat := g * 4096 + r

/-- Group and rank that a peer selector names (R336). -/
def peerSel (w : Word) : Nat × Nat := (fld w 7 0, fld w 19 8)
/-- The member named is this device itself (R337). -/
def State.selfPeer (s : State) (p : Nat × Nat) : Bool := s.peerOk s.cx.tenant p.1 p.2 && fgRank (s.fgroup p.1) == p.2
/-- The peer that a selector names; none for this device. -/
def State.peerOf (s : State) (b : GReg) : Option (Nat × Nat) :=
  let p := peerSel (s.rd.getG b)
  if s.selfPeer p then none else some p
/-- Where a peer access is performed. -/
def peerPlace (peer : Option (Nat × Nat)) (ea : Word) : Place :=
  match peer with
  | none => .glob ea
  | some (g, r) => .peer g r ea
/-- The bytes of a peer access, for matching against buffered stores. -/
def peerSpan (peer : Option (Nat × Nat)) (ea : Word) (n : Nat) : Span :=
  match peer with
  | none => .glob (fld ea 56 0) n
  | some (g, r) => .peer g r (fld ea 56 0) n

/-! ### PGET, PPUT, PATOM (R337) -/

/-- A PGET of n bytes: always served at the home, with the bytes of the thread's own buffered stores on top (R192, R338). -/
def State.pgetAt (s : State) (b : GReg) (ea : Word) (n : Nat) (d : Dest) : State :=
  let peer := s.peerOf b
  let (f, m) := forward s.me.1 (peerSpan peer ea n) s.cx.sb 0 0
  let p := { s.newPend d with fwd := f, fmask := m }
  s.startLong { p with reqs := [s.reqFor (peerPlace peer ea) (.load n false) p.tag] }

/-- PGET (R337). -/
def doPget (h : Hdr) (f : PeerLd) (a b : GReg) (disp : BitVec 16) (s : State) : State :=
  match f with
  | .g sz d =>
    s.withAddr .g (s.rd.getG a) 0 disp (ldBytes sz) fun ea => s.pgetAt b ea (ldBytes sz) (.g d sz (fld ea 5 0))
  | .v d => s.withAddr .g (s.rd.getG a) 0 disp 64 fun ea => s.pgetAt b ea 64 (.v d (laneBytes (s.rd.gmask h) 16))

/-- PGET. -/
def execPget (h : Hdr) (f : PeerLd) (a b : GReg) (disp : BitVec 16) (s : State) : Host.Outcome State Fault Refusal :=
  .next (issue (.pget h f a b disp) (doPget h f a b disp) s)

/-- PPUT (R337): a buffered store to the peer. -/
def doPput (h : Hdr) (f : PeerSt) (a b : GReg) (disp : BitVec 16) (s : State) : State :=
  match f with
  | .g sz d =>
    let n := stBytes sz
    s.withAddr .g (s.rd.getG a) 0 disp n fun ea =>
      s.storeAt .g ea n (atByte (fld ea 5 0) ((s.rd.getG d).toNat % 2 ^ (8 * n))) (byteMask (fld ea 5 0) n) false (s.peerOf b)
  | .v d =>
    s.withAddr .g (s.rd.getG a) 0 disp 64 fun ea =>
      s.storeAt .g ea 64 (s.rd.getV d) (laneBytes (s.rd.gmask h) 16) false (s.peerOf b)

/-- PPUT. -/
def execPput (h : Hdr) (f : PeerSt) (a b : GReg) (disp : BitVec 16) (s : State) : Host.Outcome State Fault Refusal :=
  .next (issue (.pput h f a b disp) (doPput h f a b disp) s)

/-- PATOM (R337): for .cas the comparand is gD+1 and the new value gD; both are read at issue. -/
def doPatom (wd : Wd) (op : AtomOp) (d a b : GReg) (disp : BitVec 16) (s : State) : State :=
  let n := wdWidth wd / 8
  s.withAddr .g (s.rd.getG a) 0 disp n fun ea =>
    let peer := s.peerOf b
    let p := s.newPend (.g d (match wd with | .w => .w | .d => .d) (fld ea 5 0))
    let p := { p with reqs := [s.reqFor (peerPlace peer ea) (.atom op wd (s.rd.getG d) (s.rd.getG (d + 1))) p.tag] }
    s.afterClear [peerSpan peer ea n] (.send p) fun s => s.startLong p

/-- PATOM. -/
def execPatom (h : Hdr) (wd : Wd) (op : AtomOp) (d a b : GReg) (disp : BitVec 16) (s : State) : Host.Outcome State Fault Refusal :=
  .next (issue (.patom h wd op d a b disp) (doPatom wd op d a b disp) s)

/-! ### FBAR (R339) -/

/-- A barrier that nobody has arrived at. -/
def FBarrier.fresh : FBarrier := { count := 0, local' := [], ranks := [], timer := { elapsed := 0, from' := none, held := [] } }
/-- The barrier of a group. -/
def State.fbar (s : State) (g : Nat) : FBarrier := tgetD s.fabric.bars g FBarrier.fresh
/-- Replace the barrier of a group. -/
def State.setFbar (s : State) (g : Nat) (b : FBarrier) : State :=
  { s with fabric := { s.fabric with bars := tset s.fabric.bars g b } }

/-- The count of an FBAR is refused: out of range, or not the one fixed (R339). -/
def State.fbarBad (s : State) (g n : Nat) : Bool :=
  n == 0 || decide (n > 2 ^ 24) || ((s.fbar g).count != 0 && (s.fbar g).count != n)

/-- Arrive at the fabric engine, the buffer being drained, and park until the release (R339). -/
def State.fbarArrive (s : State) (g n : Nat) : State :=
  if !fgOk (s.fgroup g) s.cx.tenant || fgRank (s.fgroup g) ≥ fgSize (s.fgroup g) then s.trap PEER_USE 0 1
  else if s.fbarBad g n then s.trap PEER_USE 0 2
  else
    let b := s.fbar g
    let tag := s.cx.nextTag
    let here := b.local' ++ [(s.whoMe, tag)]
    let b : FBarrier :=
      { b with count := n, local' := here
               ranks := if here.length = n then b.ranks ++ [fgRank (s.fgroup g)] else b.ranks
               timer := if b.local'.isEmpty then { elapsed := 0, from' := some s.now, held := [] } else b.timer }
    ((s.onCx fun c => { c with nextTag := tag + 1 }).setFbar g b).park .group (.reply tag) .fbarDone

/-- FBAR (R339). -/
def doFbar (a b : GReg) (s : State) : State :=
  let g := fld (s.rd.getG a) 7 0
  let n := fld (s.rd.getG b) 31 0
  if s.fbarBad g n then s.trap PEER_USE 0 2 else s.afterDrain (.fbarArrive g n) fun s => s.fbarArrive g n

/-- FBAR. -/
def execFbar (h : Hdr) (a b : GReg) (s : State) : Host.Outcome State Fault Refusal :=
  .next (issue (.fbar h a b) (doFbar a b) s)

end Sys2Proof.Machine
end

