-- ==== Sys2Proof/Machine/Land.lean ====
section
/-! DEFINITION. Land.lean: the landing of a long result (R64, R82 to R86, R141, R193, R200, R352). -/
namespace Sys2Proof.Machine

/-- The answer to a JOIN or a LEAVE changes the thread's handle table (R97, R99, R112): all ones is a JOIN that found no room. -/
def Ctx.landHandle (c : Ctx) (tag : Nat) (w : Word) : Ctx :=
  match c.handles.find? fun h => h.tag == tag && h.st != .member with
  | none => c
  | some e =>
    if e.st = .joining && w != BitVec.allOnes 64 then c.setH { e with st := .member }
    else { c with handles := c.handles.filter fun h => h.handle != e.handle }

/-- Place in its line of the access of a lane (R200). -/
def laneOff (p : Pend) (i : Nat) : Nat :=
  match p.reqs.find? fun q => q.lane == some i with
  | some q => (match q.place with | .pool _ off _ _ => off % 64 | .glob va => fld va 5 0 | _ => 0)
  | none => 0

/-- The bytes that a reply adds to what has come (R200). -/
def gotBytes (p : Pend) (r : Reply) : Line :=
  match r.lane with
  | some i => p.got ||| atByte (4 * i) (fromByte r.data (laneOff p i) 4)
  | none => r.data

/-- Bytes of its destination that a landing writes, for a write stream (R277). -/
def Dest.pushes : Dest → Option (VReg × BitVec 64)
  | .v r m => some (r, m)
  | _ => Option.none

/-- The value of a landed result is written, with its flags, and the register is pending no more. -/
def Ctx.settle1 (c : Ctx) (p : Pend) : Ctx :=
  let c := (c.landHandle p.tag (word64 p.got 0))
  let c := { c with regs := (c.regs.putDest p.dest p.got).raise p.flags, pend := c.pend.filter fun q => q.tag != p.tag }
  match p.dest.pushes with
  | some (v, m) => pushStream c m v
  | none => c

/-- A turn begins: the results that have landed are read from now on (R83). -/
def Ctx.settle (c : Ctx) : Ctx := (c.pend.filter Pend.landed).foldl Ctx.settle1 c

/-- A reply that lands in a thread's state, on its core: a fault enters the replay list; with the last good one the result has landed,
with its report, its fill and its acquire; its value waits for the next turn (R83). -/
def State.landIn (s : State) (core : Nat) (c : Ctx) (r : Reply) : Ctx × State :=
  match c.pend.find? fun p => p.tag == r.tag with
  | none => (c, s)
  | some p =>
    let known := c.replay.any fun q => q.tag == r.tag
    let p := { p with left := p.left - 1, got := if r.fault.isNone then gotBytes p r else p.got, flags := p.flags ||| r.flags }
    let c := { c with pend := c.pend.map fun q => if q.tag = r.tag then p else q }
    match r.fault with
    | some f =>
      (if known then c else { c with replay := c.replay ++ [{ tag := r.tag, fault := f, due := true }] }, s)
    | none =>
      if p.left != 0 || known then (c, s)
      else
        let q := { p with got := shapeLine p.shape (mergeLine p.got p.fwd p.fmask), landed := true }
        let c := { c with pend := c.pend.map fun x => if x.tag = r.tag then q else x }
        let s := if p.xs = 0xFFFF then s
          else s.xReport core c.part c.launch.toNat p.xs { rep := .latency (s.cycle - p.since), pc := p.pc, kind := some 2 }
        let s := match p.fillKey with
          | some l => s.onCore core fun k => k.snapPlace c.tenant l p.got
          | none => s
        if p.acq then ({ c with pend := c.pend.map fun q => { q with fill := false } }, s.snapEmpty core) else (c, s)

/-- Land one of a context's delivered replies. Nothing lands while a gang switch has stopped the core (R364). -/
def State.landAt (s : State) (core x i : Nat) : State :=
  let c := s.ctx core x
  match (if (s.core core).stopped then none else c.landing[i]?) with
  | none => s
  | some r =>
    let (c, s) := s.landIn core { c with landing := dropAt c.landing i } r
    s.setCtx core x c

end Sys2Proof.Machine
end

