-- ==== Sys2Proof/Machine/Frame.lean ====
section
/-! DEFINITION. Frame.lean: saving a context and restoring it: frames, save records, identities (R90, R354, R362, R363, R374). -/
namespace Sys2Proof.Machine

/-! ### What a frame holds (R363) -/

/-- STATE of a frame. -/
def frameState (c : Ctx) : Nat :=
  if c.halted then 5
  else match c.run with
  | .parked .marker .. => 1
  | .parked .sync .. => 2
  | .parked .group .. => 3
  | .dozing _ => 4
  | _ => 0

/-- FLAGS of a frame. -/
def frameFlags (c : Ctx) : Nat := bitIf c.hnd 0 + bitIf c.sup 1 + bitIf c.cap.isSome 2 + bitIf c.pageFault 3

/-- A list cut or padded with zero bytes to n. -/
def padTo (n : Nat) (l : List Byte) : List Byte := (l ++ List.replicate (n - l.length) 0).take n

/-- A store-buffer entry in the spill area: data, line address with .bset in bit 0 and AM in bits 2..1, mask. -/
def spillBytes (e : SbEnt) : List Byte :=
  toBytes 64 e.data.toNat ++ toBytes 8 (e.line.toNat + bitIf e.bset 0 + 2 * (modeBits e.am).toNat) ++ toBytes 8 e.mask.toNat

/-- Bytes 0x0000 to 0x1FFF of a frame: the context c that was context x of a core. -/
def frameBytes (core x : Nat) (c : Ctx) : List Byte :=
  let r := c.regs
  padTo 0x40 (toBytes 4 0x46585443 ++ toBytes 2 1 ++ toBytes 1 (frameState c) ++ toBytes 1 (frameFlags c) ++ toBytes 4 c.launch.toNat ++
    toBytes 3 c.tid.toNat ++ toBytes 1 x ++ toBytes 2 core ++ toBytes 2 c.inc.toNat ++ toBytes 2 c.tenant.toNat ++ toBytes 2 0 ++
    toBytes 8 c.pc.toNat ++ toBytes 8 c.start ++ toBytes 8 (match c.run with | .dozing t => t | _ => 0) ++ toBytes 8 c.part.toNat ++
    toBytes 8 c.sb.length) ++
  padTo 128 (toBytes 8 r.fflags.toNat ++ toBytes 8 r.frm.toNat ++ toBytes 8 r.bxdelta.toNat ++ toBytes 8 r.synclim.toNat ++
    toBytes 8 r.trapvec.toNat ++ toBytes 8 c.trapcause.toNat ++ toBytes 8 c.trappc.toNat ++ toBytes 8 c.trapaddr.toNat ++
    toBytes 8 c.trapinfo.toNat ++ toBytes 8 (tstatOf c).toNat ++ toBytes 8 c.ovf.toNat ++ toBytes 8 c.syncTurns) ++
  (r.g.toList.map fun w => toBytes 8 w.toNat).flatten ++
  padTo 64 (r.p.toList.map fun w => toBytes 2 w.toNat).flatten ++
  (r.v.toList.map fun w => toBytes 64 w.toNat).flatten ++
  padTo 512 (c.longs.map fun p => toBytes 8 (p.dest.spec.getD 0).toNat ++ toBytes 8 p.tag).flatten ++
  padTo 1024 (c.replay.map fun q => toBytes 8 q.tag ++ toBytes 8 q.fault.addr.toNat ++ toBytes 8 q.fault.kind.toNat ++
    toBytes 8 (bitIf q.due 0 + bitIf q.fault.absent 1)).flatten ++
  padTo 64 (c.handles.filter (fun h => h.handle != 0) |>.map fun h => toBytes 4 h.handle.toNat ++
    toBytes 4 (match h.st with | .joining => 1 | .member => 2 | .leaving => 3)).flatten ++
  padTo 64 (padTo 32 (c.regions.map fun i => toBytes 2 i.toNat).flatten ++ toBytes 2 c.regions.length) ++
  padTo 128 (match c.cap with
    | none => []
    | some p => padTo 96 (p.code.map fun i => toBytes 12 ((encode i).getD 0).toNat).flatten ++
        toBytes 8 p.n ++ toBytes 8 p.s ++ toBytes 8 p.k ++ toBytes 8 p.next) ++
  padTo 512 ((upTo 8).map fun i => match tget c.streams (24 + i) with
    | none => List.replicate 64 0
    | some st => padTo 64 (toBytes 8 (1 + bitIf st.wr 1) ++ toBytes 8 st.start.toNat ++ toBytes 4 st.p1.toNat ++ toBytes 4 st.p2.toNat ++
        toBytes 8 st.n0 ++ toBytes 8 st.n1 ++ toBytes 8 st.n2 ++ toBytes 8 st.next ++ toBytes 8 st.tid.toNat)).flatten

/-- All the lines of a frame that a save writes: offset and line. -/
def frameLines (core x : Nat) (c : Ctx) (held : BitVec 32) : List (Nat × Line) :=
  let body := padTo 0x2000 (frameBytes core x c ++ toBytes 4 held.toNat) ++ ((c.sb.take 2048).map spillBytes).flatten
  chunk 0 body ((body.length + 63) / 64)
where
  /-- the first n lines of a list of bytes -/
  chunk (off : Nat) (l : List Byte) : Nat → List (Nat × Line)
    | 0 => []
    | n + 1 => (off, BitVec.ofNat 512 (ofBytes (l.take 64))) :: chunk (off + 64) (l.drop 64) n

/-! ### Accesses to a frame: the writer's translation, the saved thread's key (R363, R366) -/

/-- Store one line of a frame. -/
def State.frameStore (s : State) (a : Asker) (key : BitVec 16) (va : Word) (data : Line) : Served :=
  let all := BitVec.ofNat 64 (2 ^ 64 - 1)
  match s.gCheck a .store false false va all with
  | (.error e, s) => .fail (failAt va e) s
  | (.ok x, s) =>
    if s.replHeld x || !s.logRoom (x.pa / 64 * 64) then .wait else .done 0 (s.writeXl key x data all).mailWake

/-- Store lines of a frame, one after the other. -/
def State.frameOut (s : State) (a : Asker) (key : BitVec 16) (frame : Word) : List (Nat × Line) → Served
  | [] => .done 0 s
  | (off, l) :: t =>
    match s.frameStore a key (ptrAdd frame off) l with
    | .done _ s => s.frameOut a key frame t
    | r => r

/-- Read one line of a frame under a key. -/
def State.frameLoad (s : State) (a : Asker) (key : BitVec 16) (va : Word) : Served :=
  match s.gCheck a .load false true va (BitVec.ofNat 64 (2 ^ 64 - 1)) with
  | (.error e, s) => .fail (failAt va e) s
  | (.ok x, s) =>
    let (l, s) := s.readXl key x
    .done l s

/-- Read n lines of a frame, appended to those read. -/
def State.frameIn (s : State) (a : Asker) (key : BitVec 16) (frame : Word) (k : List Line → State → Served) : Nat → List Line → Served
  | 0, acc => k acc s
  | n + 1, acc =>
    match s.frameLoad a key (ptrAdd frame (64 * acc.length)) with
    | .done l s => s.frameIn a key frame k n (acc ++ [l])
    | r => r

/-! ### Saved threads -/

/-- Key of a saved thread on its core: its old context number and incarnation. -/
def saveKey (x : Nat) (inc : BitVec 16) : Nat := x * 65536 + inc.toNat

/-- The request is the one that a thread waits for. -/
def Req.isWait (r : Req) (w : Who) (tag : Nat) : Bool := r.who.thread? == some w && r.tag == tag

/-- A waiting access that has not been served: at a port, at a home, or on its way (R196). -/
def State.unserved (s : State) (w : Who) (tag : Nat) : Bool :=
  s.cores.any (fun p => p.2.waiters.any fun r => r.isWait w tag) || s.homes.any (fun r => r.isWait w tag) ||
  s.chan.any fun m => match m.body with | .req r | .retry r => r.isWait w tag | _ => false

/-- Take an unserved access back. -/
def State.withdraw (s : State) (w : Who) (tag : Nat) : State :=
  { s with
    cores := s.cores.map fun p => (p.1, { p.2 with waiters := p.2.waiters.filter fun r => !r.isWait w tag })
    homes := s.homes.filter fun r => !r.isWait w tag
    chan := s.chan.filter fun m => match m.body with | .req r | .retry r => !r.isWait w tag | _ => true }

/-- Cancel the synchronising wait of a context that is saved (R363): what is not served is issued again on restore. -/
def State.cancelWait (s : State) (core x : Nat) : State :=
  let c := s.ctx core x
  let w := s.who core x
  let ready := { c with run := .ready, npc := c.pc, cancelling := false }
  match c.run with
  | .parked .sync (.reply tag) _ _ =>
    if s.unserved w tag then (s.withdraw w tag).setCtx core x ready else s
  | .parked .sync (.claim id) _ _ =>
    if (s.core core).claims.any fun q => q.id == id && q.granted.isNone then
      (s.onCore core fun k => { k with claims := k.claims.filter fun q => q.id != id }).setCtx core x ready
    else s
  | _ => s

/-- A CST or CVST that the walker has answered is complete, its payload in the buffer, or is issued again (R263). -/
def State.finishWrite (s : State) (core x : Nat) : State :=
  let c := s.ctx core x
  match c.run, c.answer with
  | .parked .sync (.reply _) (.cst e v ch data n) _, some r =>
    let again := { c with run := .ready, npc := c.pc, answer := none, cancelling := false }
    if r.fault.isSome || word64 r.data 0 = 0 then s.setCtx core x again
    else
      let t := ({ s with me := (core, x), took := none }.cstGot e v ch data n (word64 r.data 0))
      if t.took.isSome then s.setCtx core x again
      else { t.onCtx core x fun c => { c with run := .ready, pc := c.npc, answer := none, cancelling := false } with me := s.me, took := s.took }
  | _, _ => s

/-- Land every reply that a context holds. -/
def State.landAll (s : State) (core x : Nat) : Nat → State
  | 0 => s
  | n + 1 => (s.landAt core x 0).landAll core x n

/-- A save discards the strips that a read stream holds loaded ahead (R279). -/
def Stream.unload (st : Stream) : Stream := if st.wr then st else { st with ahead := [] }

/-- Slots that a thread holds, as a mask (R363). -/
def Core.heldSlots (k : Core) (w : Who) : BitVec 32 :=
  (upTo 32).foldl (fun m i => if (k.slot i).by' = .ctx w then m ||| (1#32 <<< i) else m) 0

/-- A free context after a save: the thread goes on to exist. -/
def Core.vacate (k : Core) (x : Nat) : Core :=
  { k.setCtx x (k.ctx x).freed with capHold := if tget k.capHold (x % 8) = some x then tdel k.capHold (x % 8) else k.capHold }

/-- What a save that fails leaves: its accesses have been made, and the context is as it was (R374). -/
def State.framed (s t : State) : State := { s with mem := t.mem, fabric := t.fabric, out := t.out, fresh := t.fresh, follow := t.follow }

/-- Save context x of a core to a frame (R363, R374). -/
def State.saveTo (s : State) (a : Asker) (core x : Nat) (frame : Word) : Served :=
  let s0 := s
  let s := s.landAll core x (s.ctx core x).landing.length
  let s := (s.cancelWait core x).finishWrite core x
  let s := s.onCtx core x fun c => { c.settle with streams := c.streams.map fun p => (p.1, p.2.unload) }
  let c := s.ctx core x
  let w := s.who core x
  match s.frameOut a c.tenant frame (frameLines core x c ((s.core core).heldSlots w)) with
  | .done l s =>
    .done l (s.onCore core fun k =>
      let k := k.vacate x
      { k with frames := tset k.frames (saveKey x c.inc) c
               saves := if c.expects then k.saves ++ [{ who := w, frame := frame, writer := a }] else k.saves })
  | .fail f t => .fail f (s0.framed t)
  | r => r

/-! ### Messages to saved threads (R362, R363) -/

/-- The saved thread of an identity, by CTXSV or on a page fault. -/
def Core.savedOf (k : Core) (w : Who) : Option Ctx :=
  match (if k.saves.any fun q => q.who == w then tget k.frames (saveKey w.ctx w.inc) else none) with
  | some c => some c
  | none => (k.paged.find? fun p => p.1 == w.ctx && p.2.1.inc == w.inc).map fun p => p.2.1

/-- Write a saved thread back where it is kept; a record goes when nothing more is expected. -/
def State.putSaved (s : State) (w : Who) (c : Ctx) : State :=
  match (s.core w.core).saves.find? fun q => q.who == w with
  | some q =>
    let s := s.onCore w.core fun k =>
      { k with frames := tset k.frames (saveKey w.ctx w.inc) c
               saves := if c.expects then k.saves else k.saves.filter fun q => q.who != w }
    match s.frameOut q.writer c.tenant q.frame (frameLines w.core w.ctx c ((s.core w.core).heldSlots w)) with
    | .done _ s => s
    | _ => s
  | none =>
    s.onCore w.core fun k =>
      { k with paged := k.paged.map fun p => if p.1 == w.ctx && p.2.1.inc == w.inc then (p.1, c, p.2.2) else p }

/-! ### Restoring (R354, R374) -/

/-- A thread's new identity takes the place of its old one in everything that waits for it or that it holds. -/
def State.rename (s : State) (old new : Who) : State :=
  let f := fun (w : Who) => if w = old then new else w
  let s := s.onSched fun q => { q with
    groups := q.groups.map fun g => { g with
      members := g.members.map f, arrived := g.arrived.map f
      joins := g.joins.map fun p => (f p.1, p.2), leaves := g.leaves.map fun p => (f p.1, p.2) } }
  s.onCore old.core fun k => { k with
    slots := k.slots.map fun p => (p.1, if p.2.by' = .ctx old then { p.2 with by' := .ctx new } else p.2)
    jnl := k.jnl.map fun p => (p.1, if p.2.ctx = old.ctx ∧ p.2.inc = old.inc then { p.2 with ctx := new.ctx, inc := new.inc } else p.2)
    claims := k.claims.map fun q => if q.who = some old then { q with who := some new } else q }

/-- The requests that a restored context resends name its new identity. -/
def Ctx.reown (c : Ctx) (w : Who) : Ctx :=
  { c with pend := c.pend.map fun p => { p with reqs := p.reqs.map fun r => { r with who := { r.who with agent := .thread w } } } }

/-- Put a saved thread into free context x of its core: the next incarnation, its own state, its records resent. One that was saved before
the first issue of its entry still has the target tested at that issue: R32 lets a resumption skip the test and asks for the test of an
entry, and the model keeps the entry (log entry 73). -/
def State.restore (s : State) (core x oldX : Nat) (c : Ctx) : State :=
  let new : Who := { core := core, ctx := x, inc := (s.ctx core x).inc + 1 }
  let s := s.rename { core := core, ctx := oldX, inc := c.inc } new
  let run := match c.run with | .dozing t => if t ≤ s.coreNow core then .ready else .dozing t | .parked k p q l => .parked k p q l | _ => .ready
  let c := { c.settle.reown new with inc := new.inc, run := run, reuse := 0, pageFault := false }
  let s := s.onCore core fun k =>
    { k.setCtx x c with capHold := if c.cap.isSome then tset k.capHold (x % 8) x else k.capHold }
  s.replayAll core x

/-! ### Reading a frame -/

/-- The context that a frame describes: the registers and the words of its header as they stand in memory, the rest as the core
keeps it. -/
def frameCtx (b : Nat → Nat) (c : Ctx) : Ctx :=
  let n := fun (off len : Nat) => (upTo len).foldl (fun acc i => acc + b (off + i) * 256 ^ i) 0
  let flags := b 7
  { c with
    launch := BitVec.ofNat 32 (n 8 4), tid := BitVec.ofNat 32 (n 12 3), tenant := BitVec.ofNat 16 (n 0x14 2)
    pc := BitVec.ofNat 64 (n 0x18 8), npc := if c.pc = BitVec.ofNat 64 (n 0x18 8) then c.npc else BitVec.ofNat 64 (n 0x18 8), start := n 0x20 8, part := BitVec.ofNat 64 (n 0x30 8)
    hnd := flags % 2 == 1, sup := flags / 2 % 2 == 1
    run := if b 6 = 4 then .dozing (n 0x28 8) else c.run
    trapcause := BitVec.ofNat 8 (n 0x68 8), trappc := BitVec.ofNat 64 (n 0x70 8), trapaddr := BitVec.ofNat 64 (n 0x78 8)
    trapinfo := BitVec.ofNat 64 (n 0x80 8), ovf := BitVec.ofNat 16 (n 0x90 8), syncTurns := n 0x98 8
    regions := (upTo (min 16 (n 0x1160 2))).map fun i => BitVec.ofNat 16 (n (0x1140 + 2 * i) 2)
    regs :=
      { g := Vector.ofFn fun i => BitVec.ofNat 64 (n (0xC0 + 8 * i.val) 8)
        p := Vector.ofFn fun i => BitVec.ofNat 16 (n (0x2C0 + 2 * i.val) 2)
        v := Vector.ofFn fun i => BitVec.ofNat 512 (n (0x300 + 64 * i.val) 64)
        fflags := BitVec.ofNat 6 (n 0x40 8), frm := BitVec.ofNat 2 (n 0x48 8), bxdelta := BitVec.ofNat 4 (n 0x50 8)
        synclim := BitVec.ofNat 32 (n 0x58 8), trapvec := BitVec.ofNat 64 (n 0x60 8) } }

end Sys2Proof.Machine
end

