-- ==== Sys2Proof/Machine/System.lean ====
section
/-! DEFINITION. System.lean: the system instructions, class 0xD (R368 to R376). -/
namespace Sys2Proof.Machine

/-- TRAP (R369). -/
def doTrap (code : BitVec 8) (s : State) : State := s.trap TRAP_INSN 0 code.toNat

/-- TRAP. -/
def execTrap (h : Hdr) (code : BitVec 8) (s : State) : Host.Outcome State Fault Refusal :=
  .next (issue (.trap h code) (doTrap code) s)

/-- ERET (R370): HND is 1, and the handler's long results have landed. -/
def doEret (s : State) : State := s.eretRetry

/-- ERET. -/
def execEret (h : Hdr) (s : State) : Host.Outcome State Fault Refusal :=
  .next (issue (.eret h) doEret s)

/-- ERET.next (R370). -/
def doEretNext (s : State) : State := s.eretNext

/-- ERET_NEXT. -/
def execEretNext (h : Hdr) (s : State) : Host.Outcome State Fault Refusal :=
  .next (issue (.eretNext h) doEretNext s)

/-! ### Core registers (R371) -/

/-- JNLREF: a bit for each refused journal entry. -/
def Core.jnlref (k : Core) : Word :=
  (upTo Config.journalSize).foldl (fun m i => if (k.jent i).st = .refused then m ||| (1#64 <<< i) else m) 0

/-- The value of a core register. -/
def Core.csr (k : Core) : Csr → Word
  | .issue => if k.policy then 1 else 0
  | .stray => k.stray.setWidth 64
  | .fpar => k.fpar.setWidth 64
  | .xmis => k.xmis.setWidth 64
  | .jnlref => k.jnlref
  | .saves => BitVec.ofNat 64 k.saveCount
  | .win i => k.win i.toNat

/-- RW bits of a window register (R185). -/
def winBits (i : BitVec 3) : Word := if i.getLsbD 0 then 0xFFFFFFFF else 0x1FFFFFFFFF

/-- A core register written: its RW fields; window 0 is kept while a launch is resident (R186). -/
def Core.setCsr (k : Core) (r : Csr) (v : Word) : Core :=
  match r with
  | .issue => { k with policy := v.getLsbD 0 }
  | .stray => { k with stray := v.setWidth 32 }
  | .fpar => { k with fpar := v.setWidth 32 }
  | .xmis => { k with xmis := v.setWidth 32 }
  | .jnlref | .saves => k
  | .win i => if i.toNat < 2 && k.anyResident then k else { k with wins := tset k.wins i.toNat (v &&& winBits i) }

/-- The registers written in the turn that is over take effect (R79, R371). -/
def Core.takeCsrs (k : Core) : Core := { k.csrs.foldl (fun k p => k.setCsr p.1 p.2) k with csrs := [] }

/-- CSRR (R371). -/
def doCsrr (d : GReg) (r : Csr) (s : State) : State := s.wrG d (s.mine.csr r)

/-- CSRR. -/
def execCsrr (h : Hdr) (d : GReg) (r : Csr) (s : State) : Host.Outcome State Fault Refusal :=
  .next (issue (.csrr h d r) (doCsrr d r) s)

/-- CSRW (R371): it takes effect from the next turn on. -/
def doCsrw (r : Csr) (a : GReg) (s : State) : State :=
  let v := s.rd.getG a
  s.onMine fun k => { k with csrs := k.csrs ++ [(r, v)] }

/-- CSRW. -/
def execCsrw (h : Hdr) (r : Csr) (a : GReg) (s : State) : Host.Outcome State Fault Refusal :=
  .next (issue (.csrw h r a) (doCsrw r a) s)

/-! ### Invalidation of translations (R230, R372) -/

/-- Units that acknowledge a TLBINV: 64 memory stops and 512 CLB walkers (R230). -/
def tlbUnits : Nat := Config.stops + 512

/-- The broadcast of TLBINV, the buffer being drained: one long result with no destination, an acknowledgement from each stop and each
walker. -/
def State.tlbinvGo (s : State) (scope : Nat) (va : Word) (tenant : BitVec 16) : State :=
  let p := s.newPend .none
  (s.addPend { p with left := tlbUnits }).sendAll ((upTo tlbUnits).map fun n => .inval n s.whoMe p.tag scope va tenant)

/-- TLBINV of any scope. -/
def State.tlbinv (s : State) (scope : Nat) (a b : GReg) : State :=
  let va := s.rd.getG a
  let tenant := (s.rd.getG b).setWidth 16
  s.afterDrain (.tlbinv scope va tenant) fun s => s.tlbinvGo scope va tenant

/-- TLBINV.page (R372). -/
def doTlbinvPage (a b : GReg) (s : State) : State := s.tlbinv 0 a b

/-- TLBINV_PAGE. -/
def execTlbinvPage (h : Hdr) (a b : GReg) (s : State) : Host.Outcome State Fault Refusal :=
  .next (issue (.tlbinvPage h a b) (doTlbinvPage a b) s)

/-- TLBINV.tenant (R372). -/
def doTlbinvTenant (a b : GReg) (s : State) : State := s.tlbinv 1 a b

/-- TLBINV_TENANT. -/
def execTlbinvTenant (h : Hdr) (a b : GReg) (s : State) : Host.Outcome State Fault Refusal :=
  .next (issue (.tlbinvTenant h a b) (doTlbinvTenant a b) s)

/-- TLBINV.all (R372). -/
def doTlbinvAll (a b : GReg) (s : State) : State := s.tlbinv 2 a b

/-- TLBINV_ALL. -/
def execTlbinvAll (h : Hdr) (a b : GReg) (s : State) : Host.Outcome State Fault Refusal :=
  .next (issue (.tlbinvAll h a b) (doTlbinvAll a b) s)

/-! ### The journal (R357, R373) -/

/-- Number of a journal entry's state. -/
def JState.code : JState → Nat
  | .free => 0 | .inFlight => 1 | .refused => 2
/-- Word 3 of a journal entry (R357). -/
def JEnt.stat (e : JEnt) : Word :=
  BitVec.ofNat 64 (e.st.code + (modeBits e.am).toNat * 32 + bitIf e.bset 7 + e.kind.toNat * 2 ^ 8 + e.ctx * 2 ^ 35 + e.inc.toNat * 2 ^ 48)
/-- A word of a journal entry as JNLRD names it. -/
def JEnt.word (e : JEnt) (w : BitVec 4) : Word :=
  match w.toNat with
  | 0 => e.line
  | 1 => e.mask
  | 2 => e.pc
  | 3 => e.stat
  | n => word64 e.data (n - 8)

/-- An entry named by a register, refused to another thread in thread mode. -/
def State.withJnl (s : State) (a : GReg) (k : Nat → JEnt → State) : State :=
  let j := fld (s.rd.getG a) 5 0
  let e := s.mine.jent j
  if !s.cx.sup && !(e.ctx == s.me.2 && e.inc == s.cx.inc) then s.trap JNL_USE (BitVec.ofNat 64 j) 1 else k j e

/-- JNLRD (R373). -/
def doJnlrd (word : BitVec 4) (d a : GReg) (s : State) : State := s.withJnl a fun _ e => s.wrG d (e.word word)

/-- JNLRD. -/
def execJnlrd (h : Hdr) (word : BitVec 4) (d a : GReg) (s : State) : Host.Outcome State Fault Refusal :=
  .next (issue (.jnlrd h word d a) (doJnlrd word d a) s)

/-- JNLCLR (R373). -/
def doJnlclr (a : GReg) (s : State) : State :=
  s.withJnl a fun j e =>
    if e.st ≠ .refused then s.trap JNL_USE (BitVec.ofNat 64 j) 2 else s.onMine fun k => { k with jnl := tdel k.jnl j }

/-- JNLCLR. -/
def execJnlclr (h : Hdr) (a : GReg) (s : State) : Host.Outcome State Fault Refusal :=
  .next (issue (.jnlclr h a) (doJnlclr a) s)

/-- The store that a journal entry holds. -/
def JEnt.store (e : JEnt) : SbEnt :=
  { am := e.am, line := e.line, mask := e.mask, data := e.data, bset := e.bset, pc := e.pc, spill := false, peer := e.peer }

/-- JNLCLR.resend (R373): a newly drained store of the caller. -/
def doJnlclrResend (a : GReg) (s : State) : State :=
  s.withJnl a fun j e =>
    if e.st ≠ .refused then s.trap JNL_USE (BitVec.ofNat 64 j) 2
    else s.sendStore s.me.1 s.asker s.whoMe e.store j none

/-- JNLCLR_RESEND. -/
def execJnlclrResend (h : Hdr) (a : GReg) (s : State) : Host.Outcome State Fault Refusal :=
  .next (issue (.jnlclrResend h a) (doJnlclrResend a) s)

/-! ### Saving and restoring a context (R374) -/

/-- A frame address is a .g pointer on a 4,096-byte boundary. -/
def frameOk (f : Word) : Bool := !f.getLsbD 57 && fld f 11 0 == 0

/-- A context of the core exists under its partition word. -/
def State.ctxExists (s : State) (x : Nat) : Bool := decide (x / 8 < partCtx s.cx.part)

/-- The save of CTXSV, the buffer being drained: its completion is a long result with no destination, and a refused access its
remote load fault. -/
def State.ctxsvGo (s : State) (frame : Word) (x : Nat) : State :=
  if (s.ctx s.me.1 x).run = .free then s.trap CTX_USE frame 2
  else if s.mine.saveCount ≥ Config.saveRecords then s.park .sync .saveRoom (.ctxsv frame x)
  else
    let p := s.newPend .none
    let p := { p with reqs := [s.reqFor .unit (.ctxsv frame x) p.tag] }
    match s.saveTo s.asker s.me.1 x frame with
    | .done _ t => t.longValue p 0 0
    | .fail f t =>
      let w := s.whoMe
      (t.addPend p).onCx fun c => { c with
        landing := c.landing ++ [{ dst := w, tag := p.tag, data := 0, flags := 0, fault := some f, lane := none }] }
    | _ => s.park .sync .saveRoom (.ctxsv frame x)

/-- CTXSV (R374). -/
def doCtxsv (a b : GReg) (s : State) : State :=
  let frame := s.rd.getG a
  let x := fld (s.rd.getG b) 4 0
  if !frameOk frame then s.trap MISALIGN frame
  else if x = s.me.2 || !s.ctxExists x then s.trap CTX_USE frame 1
  else if (s.ctx s.me.1 x).run = .free then s.trap CTX_USE frame 2
  else s.afterDrain (.ctxsv frame x) fun s => s.ctxsvGo frame x

/-- CTXSV. -/
def execCtxsv (h : Hdr) (a b : GReg) (s : State) : Host.Outcome State Fault Refusal :=
  .next (issue (.ctxsv h a b) (doCtxsv a b) s)

/-- The frame is one of this core and its pool (R374, subcode 4). -/
def State.frameFits (s : State) (b : Nat → Nat) : Bool :=
  let n := fun (off len : Nat) => (upTo len).foldl (fun acc i => acc + b (off + i) * 256 ^ i) 0
  n 0 4 == 0x46585443 && n 4 2 == 1 && n 16 2 == s.me.1 && some (BitVec.ofNat 64 (n 48 8)) == s.mine.part

/-- A launch is over (R374, subcode 5). -/
def State.launchOver (s : State) (l : Nat) : Bool :=
  match s.launch l with
  | some x => x.st == .done || x.st == .rejected
  | none => true

/-- CTXLD (R374): it waits for the frame's record, and for the capture of the context's position. -/
def doCtxld (a b : GReg) (s : State) : State :=
  let frame := s.rd.getG a
  let x := fld (s.rd.getG b) 4 0
  if !frameOk frame then s.trap MISALIGN frame
  else if (s.ctx s.me.1 x).run ≠ .free || !s.ctxExists x then s.trap CTX_USE frame 3
  else
    let r := s.frameIn s.asker s.cx.tenant frame (fun ls t =>
      let b := fun n => byteIn ls n
      let old := b 15
      let inc := BitVec.ofNat 16 (b 18 + 256 * b 19)
      let launch := b 8 + 256 * b 9 + 65536 * b 10 + 16777216 * b 11
      .done 0 (
        if !t.frameFits b then t.trap CTX_USE frame 4
        else if t.launchOver launch then t.trap CTX_USE frame 5
        else if t.mine.saves.any fun q => q.who == { core := t.me.1, ctx := old, inc := inc } then t.park .sync (.record old inc) .again
        else
          let key := saveKey old inc
          let c := frameCtx b (tgetD t.mine.frames key { Ctx.reset with inc := inc })
          if c.cap.isSome && (tget t.mine.capHold (x % 8)).isSome then t.park .sync (.capFree (x % 8)) .again
          else
            let t := t.restore t.me.1 x old { c with inc := inc }
            (t.onMine fun k => { k with frames := tdel k.frames key }).longValue (t.newPend .none) 0 0)) 128 []
    match r with
    | .done _ t => t
    | .fail f t => if f.absent then t.savePaged s.me.1 s.me.2 [f.addr.toNat] else t.loadFault f.kind f.addr
    | _ => s

/-- CTXLD. -/
def execCtxld (h : Hdr) (a b : GReg) (s : State) : Host.Outcome State Fault Refusal :=
  .next (issue (.ctxld h a b) (doCtxld a b) s)

/-- FENCEI (R375), the buffer being drained. -/
def State.fenceiGo (s : State) : State := s.onMine fun k => { k with lines := [] }

/-- FENCEI (R375). -/
def doFencei (s : State) : State := s.afterDrain .fencei fun s => s.fenceiGo

/-- FENCEI. -/
def execFencei (h : Hdr) (s : State) : Host.Outcome State Fault Refusal :=
  .next (issue (.fencei h) doFencei s)

end Sys2Proof.Machine
end

