-- ==== Sys2Proof/Machine/Tile.lean ====
section
/-! DEFINITION. Tile.lean: the tile instructions, class 0xB (R298, R299, R303, R321 to R327). -/
namespace Sys2Proof.Machine

/-! ### CARD (R322) -/

/-- A loop word of a card: DIM, EXT, ORD (R299). -/
def loopW (card : Line) (i : Nat) : Nat × Nat × Nat :=
  let w := word32 card (2 + i)
  (fld w 22 20, fld w 19 0, fld w 25 23)
/-- Extent of a dimension: 1 where no loop has it (R299): 1 M, 2 N, 3 K, 4 B, 5 G. -/
def cardExt (card : Line) (dim : Nat) : Nat :=
  match ((upTo 5).map (loopW card)).find? fun l => l.1 == dim with
  | some l => l.2.1
  | none => 1

/-- No number stands twice in a list. -/
def noDup (l : List Nat) : Bool := decide l.Nodup

/-- The loop words keep R299, and VR and VC lie in 1..32. -/
def loopsOk (card : Line) : Bool :=
  let ls := (upTo 5).map (loopW card)
  let used := ls.filter fun l => l.1 != 0
  (upTo 5).all (fun i => fld (word32 card (2 + i)) 31 26 == 0) &&
  ls.all (fun l => decide (l.1 ≤ 5) && (l.1 != 0 || (l.2.1 == 0 && l.2.2 == 0)) && (l.1 == 0 || l.2.1 != 0)) &&
  noDup (used.map fun l => l.1) && noDup (used.map fun l => l.2.2) &&
  (let vr := fld (word32 card 10) 5 0; let vc := fld (word32 card 11) 5 0; decide (1 ≤ vr ∧ vr ≤ 32 ∧ 1 ≤ vc ∧ vc ≤ 32))

/-- Bits of EPI that an opcode leaves reserved (R307, R311). -/
def epiReserved (op : Nat) : Nat :=
  match op with
  | 1 | 2 | 3 | 4 | 9 => 0xF8
  | 5 | 6 | 7 => 0xFF
  | 8 => 0xFE
  | _ => 0

def cardSfmt (card : Line) : Nat := fld (word32 card 10) 9 6
def cardMbox (card : Line) : Word := word64 card 6
def cardEpi (card : Line) : Nat := fld (word32 card 0) 23 16

/-- The subcode of BAD_CARD, from its checks in order (R322). -/
def badCard (card : Line) (lvl : Nat) (slotHeld : Nat → Bool) (acc : Nat) : Option Nat :=
  let op := cardOp card
  let fence := op == 0x0E
  if op < 1 || op > 0x0E then some 1
  else if cardLevel card ≠ lvl then some 2
  else if word32 card 14 != 0 || word32 card 15 != 0 || fld (word32 card 10) 15 10 != 0 || fld (word32 card 11) 15 6 != 0 ||
      cardEpi card &&& epiReserved op != 0 ||
      (fence && (card >>> 32 != 0 || fld (word32 card 0) 31 11 != 0)) then some 3
  else if !fence && (fld (cardMbox card) 3 0 != 0 || (cardMbox card).getLsbD 57 || cardMbox card == 0) then some 4
  else if !fence && (!loopsOk card || (0x0B ≤ op && op ≤ 0x0D && (upTo 5).any fun i => decide ((loopW card i).1 ≥ 3))) then some 5
  else if ((cardSL card || cardAR card) && lvl != 1) || (0x0B ≤ op && op ≤ 0x0D && lvl != 5) || (cardSL card && cardExt card 3 != 1) ||
      (cardSL card && !(3 ≤ cardSfmt card && cardSfmt card ≤ 5 || cardSfmt card == 1 || cardSfmt card == 2)) ||
      (!cardSL card && cardSfmt card != 0) then some 6
  else if (cardSL card && !(slotHeld (cardTid card 0) && slotHeld (cardTid card 1))) || (cardAR card && cardTid card 3 ≥ acc) then some 7
  else none

/-- The thread holds a slot. -/
def State.holdsSlot (s : State) (i : Nat) : Bool := decide (i < 32) && decide ((s.mine.slot i).by' = .ctx s.whoMe)

/-- CARD (R322): the checks, then a kick. -/
def doCard (lvl : Lvl) (a : VReg) (s : State) : State :=
  let card := s.rd.getV a
  let l := lvlNo lvl
  match badCard card l s.holdsSlot (partAcc s.cx.part) with
  | some n => s.trap BAD_CARD 0 n
  | none => s.kick (.card lvl card)

/-- CARD. -/
def execCard (h : Hdr) (lvl : Lvl) (a : VReg) (s : State) : Host.Outcome State Fault Refusal :=
  .next (issue (.card h lvl a) (doCard lvl a) s)

/-! ### Waiting for a mailbox (R323) -/

/-- CWAIT (R323). -/
def doCwait (d a : GReg) (s : State) : State :=
  let p := s.rd.getG a
  if p.getLsbD 57 then s.trap BAD_ADDR p
  else if p.toNat % 16 != 0 then s.trap MISALIGN p
  else s.sendSync (.g d .d (fld p 5 0)) (s.reqFor (.glob p) .cwait 0) false true

/-- CWAIT. -/
def execCwait (h : Hdr) (d a : GReg) (s : State) : Host.Outcome State Fault Refusal :=
  .next (issue (.cwait h d a) (doCwait d a) s)

/-! ### Operand slots (R303, R324, R325) -/

/-- OCLAIM (R324): the claim joins the core's queue. -/
def doOclaim (d a : GReg) (s : State) : State :=
  let x := s.rd.getG a
  let n := fld x 5 0
  if fld x 63 6 != 0 || n < 1 || n > 32 then s.trap TILE_USE 0 1
  else
    let id := s.mine.nextClaim
    let cl : Claim := { id := id, who := some s.whoMe, n := n, card := 0, granted := none }
    (s.onMine fun k => { k with nextClaim := id + 1, claims := k.claims ++ [cl] }).park .sync (.claim id) (.oclaim d id)

/-- OCLAIM. -/
def execOclaim (h : Hdr) (d a : GReg) (s : State) : Host.Outcome State Fault Refusal :=
  .next (issue (.oclaim h d a) (doOclaim d a) s)

/-- OCLAIM once it is granted. -/
def State.oclaimGot (s : State) (d : GReg) (id : Nat) : State :=
  match s.mine.claims.find? fun c => c.id == id with
  | some c => (s.onMine fun k => { k with claims := k.claims.filter fun c => c.id != id }).wrG d ((c.granted.getD 0).setWidth 64)
  | none => s

/-- OREL (R324): nothing is released when a slot of the mask is not held. -/
def doOrel (a : GReg) (s : State) : State :=
  let m := s.rd.getG a
  if (upTo 32).any fun i => m.getLsbD i && !s.holdsSlot i then s.trap TILE_USE 0 2
  else (upTo 32).foldl (fun s i => if m.getLsbD i then s.freeSlot s.me.1 i else s) s

/-- OREL. -/
def execOrel (h : Hdr) (a : GReg) (s : State) : Host.Outcome State Fault Refusal :=
  .next (issue (.orel h a) (doOrel a) s)

/-- OFILL once no card names the slot (R325). -/
def State.ofillGo (s : State) (slot : OReg) (data : Line) (u : Nat) : State :=
  if s.slotBusy s.me.1 slot.toNat then s.park .sync (.unnamed slot) (.ofill slot data u)
  else s.onMine fun k => k.opPut (slot.toNat * 2048 + 64 * u) data

/-- OFILL (R325). -/
def doOfill (d : OReg) (a : VReg) (b : GReg) (s : State) : State :=
  let u := (s.rd.getG b).toNat
  if u > 16 || !s.holdsSlot d.toNat then s.trap TILE_USE 0 3 else s.ofillGo d (s.rd.getV a) u

/-- OFILL. -/
def execOfill (h : Hdr) (d : OReg) (a : VReg) (b : GReg) (s : State) : Host.Outcome State Fault Refusal :=
  .next (issue (.ofill h d a b) (doOfill d a b) s)

/-! ### Accumulator tiles (R325) -/

/-- A tile that a card names takes ACC_BUSY. -/
def State.withTile (s : State) (a : AReg) (k : State) : State :=
  if s.tileBusy s.me.1 a.toNat then s.trap ACC_BUSY ((aSpec a).setWidth 64) else k

/-- ACLR (R325). -/
def doAclr (d : AReg) (s : State) : State := s.withTile d <| s.onMine fun k => k.accPut d.toNat (List.replicate 1024 0)

/-- ACLR. -/
def execAclr (h : Hdr) (d : AReg) (s : State) : Host.Outcome State Fault Refusal :=
  .next (issue (.aclr h d) (doAclr d) s)

/-- Element format code of a unit format (R325). -/
def tfmtCode : TFmt → Nat
  | .f32 => 0 | .f16 => 1 | .bf16 => 2 | .bx8 => 4 | .bx16 => 5

/-- The sequencer of the issuing core, working for the thread. -/
def State.seqAsker (s : State) : Asker := s.asker.engine (.seqr s.me.1)

/-- An ALD or AST that its sequencer could not finish (R325): a page to wait for, or a fault; the thread issues it again. -/
def State.seqEnd (s : State) (old : State) : Served → State
  | .done _ t => t
  | .fail f t => if f.absent then t.savePaged s.me.1 s.me.2 [f.addr.toNat] else t.loadFault f.kind f.addr
  | _ => old.park .sync .drained .again

/-- The transfer of ALD (R325). -/
def State.aldGo (s : State) (am : Mode) (f : TFmt) (d : AReg) (src : Word) : State :=
  s.withTile d <|
    let ef := tfmtCode f
    let core := s.me.1
    s.seqEnd s <| s.eLines s.seqAsker (fun i => placeOf core am (modeAdd am src (64 * i))) (fun ls t =>
      let vals := (upTo 1024).map fun n =>
        let c := n % 32 % tileCols ef
        tile32 ef (fun o => byteIn ls (n % 32 / tileCols ef * tileSize ef + o)) (n / 32) c
      .done 0 (t.onCore core fun k => k.accPut d.toNat vals)) (unitTiles ef * tileSize ef / 64) []

/-- The address checks of ALD and AST: each address in its mode, and 64-byte alignment. -/
def State.withUnits (s : State) (am : Mode) (l : List Word) (k : State) : State :=
  match l.find? fun a => !eaClean am a with
  | some a => s.trap BAD_ADDR a
  | none =>
    match l.find? fun a => a.toNat % 64 != 0 with
    | some a => s.trap MISALIGN a
    | none => k

/-- ALD (R325). -/
def doAld (am : Mode) (f : TFmt) (d : AReg) (a : GReg) (s : State) : State :=
  let src := s.rd.getG a
  s.withUnits am [src] <| s.withTile d <| s.afterDrain (.ald am f d src) fun s => s.aldGo am f d src

/-- ALD. -/
def execAld (h : Hdr) (am : Mode) (f : TFmt) (d : AReg) (a : GReg) (s : State) : Host.Outcome State Fault Refusal :=
  .next (issue (.ald h am f d a) (doAld am f d a) s)

/-- The valid rows of tile t of a unit, as lists of valid columns, through the epilogue: and whether an output was a NaN. -/
def unitRows (ef t vr vc : Nat) (vals : Nat → Nat → Nat) : List (List Nat) :=
  (upTo vr).map fun r =>
    let w := tileCols ef
    (upTo (min w (vc - t * w))).map fun c => vals r (t * w + c)

/-- The transfer of AST (R325): the masked stores of the unit's tiles, one tile after the other. -/
def State.astGo (s : State) (am : Mode) (f : TFmt) (act : BitVec 2) (vr1 vc1 : BitVec 5) (a : AReg) (dst : Word) (bias : Option Word) : State :=
  s.withTile a <|
    let ef := tfmtCode f
    let core := s.me.1
    let q := s.seqAsker
    let acc := s.mine.accVals a.toNat
    let at' := fun (base : Word) (i : Nat) => placeOf core am (modeAdd am base (64 * i))
    let vals := fun (bl : List Line) (r c : Nat) =>
      let b := match bias with
        | some _ => some (byteIn bl (4 * c) + 256 * byteIn bl (4 * c + 1) + 65536 * byteIn bl (4 * c + 2) + 16777216 * byteIn bl (4 * c + 3))
        | none => none
      (epiElem act.toNat b ((acc[32 * r + c]?).getD 0)).1
    let tile := fun (bl : List Line) (t : Nat) =>
      (encodeTile ef 0 s.cx.regs.bxdelta.toNat (fun _ _ => roundRne) (fun _ => 0)
        (unitRows ef t (vr1.toNat + 1) (vc1.toNat + 1) (vals bl))).1.map fun x => (t * tileSize ef / 64 + x.1, x.2)
    s.seqEnd s <| s.eLines q (at' (bias.getD 0)) (fun bl t =>
      t.ePut q (at' dst) (fun u => .done 0 u) ((upTo (unitTiles ef)).flatMap (tile bl))) (if bias.isSome then 2 else 0) []

/-- AST (R325). -/
def doAst (am : Mode) (f : TFmt) (act : BitVec 2) (vr1 vc1 : BitVec 5) (a : AReg) (b : GReg) (c : Option GReg) (s : State) : State :=
  let dst := s.rd.getG b
  let bias := c.map s.rd.getG
  s.withUnits am (dst :: bias.toList) <| s.withTile a <|
    s.afterDrain (.ast am f act vr1 vc1 a dst bias) fun s => s.astGo am f act vr1 vc1 a dst bias

/-- AST. -/
def execAst (h : Hdr) (am : Mode) (f : TFmt) (act : BitVec 2) (vr1 vc1 : BitVec 5) (a : AReg) (b : GReg) (c : Option GReg) (s : State) : Host.Outcome State Fault Refusal :=
  .next (issue (.ast h am f act vr1 vc1 a b c) (doAst am f act vr1 vc1 a b c) s)

/-! ### The tensor table (R326) -/

/-- Address of an entry of the launch's table. -/
def State.tdVa (s : State) (tid : BitVec 8) : Word := (s.tensorVa s.cx.launch.toNat tid.toNat).getD (BitVec.ofNat 64 (64 * tid.toNat))

/-- TDSET (R326): a release store of 64 bytes. -/
def doTdset (tid : BitVec 8) (a : VReg) (s : State) : State :=
  let e : SbEnt :=
    { am := .g, line := s.tdVa tid, mask := BitVec.ofNat 64 (2 ^ 64 - 1), data := s.rd.getV a, bset := false, pc := s.pcNow, spill := false
      peer := none }
  s.afterDrain (.release e (some tid)) fun s => s.releaseStore e (some tid)

/-- TDSET. -/
def execTdset (h : Hdr) (tid : BitVec 8) (a : VReg) (s : State) : Host.Outcome State Fault Refusal :=
  .next (issue (.tdset h tid a) (doTdset tid a) s)

/-- TDGET (R326). -/
def doTdget (tid : BitVec 8) (d : VReg) (s : State) : State :=
  s.long1 (.v d (BitVec.ofNat 64 (2 ^ 64 - 1))) (.glob (s.tdVa tid)) (.load 64 false)

/-- TDGET. -/
def execTdget (h : Hdr) (tid : BitVec 8) (d : VReg) (s : State) : Host.Outcome State Fault Refusal :=
  .next (issue (.tdget h tid d) (doTdget tid d) s)

end Sys2Proof.Machine
end

