-- ==== Sys2Proof/Machine/Resume.lean ====
section
/-! DEFINITION. Resume.lean: when a park's condition is met, and the rest of the parked instruction (R78, R104, R226, R352). -/
namespace Sys2Proof.Machine

/-- What a parked context waits for has come about (R78). -/
def State.condMet (s : State) (core x : Nat) : PCond → Bool
  | .noLong => (s.ctx core x).noLong
  | .longRoom n => decide ((s.ctx core x).longs.length + n ≤ Config.maxLong)
  | .captured => !(s.ctx core x).cap.any Capture.busy
  | .capFree pos => (tget (s.core core).capHold pos).isNone
  | .drained => s.isDrained core x
  | .kicked => s.isDrained core x && (s.ctx core x).kicksIn
  | .clearOf spans => s.isClear core x spans
  | .reply tag => (s.ctx core x).answer.any fun r => r.tag == tag
  | .journal => (s.core core).freeJ.isSome
  | .idle h => !((s.core core).handle h).busy
  | .mask h m =>
    let q := (s.core core).handle h
    q.bits &&& m == m || (!q.busy && q.fault.isSome)
  | .counter k target => reached ((s.core core).counter k).n target
  | .cbFree cb => let q := (s.core core).cb cb.toNat; q.free != 0 || q.lost
  | .cbFilled cb => let q := (s.core core).cb cb.toNat; q.filled != 0 || q.lost
  | .claim id => (s.core core).claims.all fun q => q.id != id || q.granted.isSome
  | .unnamed slot => !s.slotBusy core slot.toNat
  | .strip v =>
    let c := s.ctx core x
    (match tget c.streams v.toNat with
     | some st => (match (if st.wr then dstStream c v else srcStream c v) with | .wait .. => false | _ => true)
     | none => true)
  | .record old inc => !(s.core core).saves.any fun q => q.who == { core := core, ctx := old, inc := inc }
  | .saveRoom => decide ((s.core core).saveCount < Config.saveRecords)
  | .barrier gh => (s.ctx core x).handles.all fun h => h.handle != gh || !h.arrived
  | .handle gh => (s.ctx core x).handles.all fun h => h.handle != gh || h.st == .member

/-- The park was a drain, whose refusals stop the instruction (R226). -/
def PCond.draining : PCond → Bool
  | .drained | .kicked | .clearOf _ | .journal => true
  | _ => false

/-- Refused stores of a thread that no drain has met yet, and that it has not taken (R226, R356). -/
def Core.unmet (k : Core) (x : Nat) (inc : BitVec 16) : Bool :=
  k.jnl.any fun p => p.2.st == .refused && !p.2.taken && !p.2.met && p.2.ctx == x && p.2.inc == inc

/-- Note that a drain inside a handler has met the refusals (R226, R356). -/
def Core.meetAll (k : Core) (x : Nat) (inc : BitVec 16) : Core :=
  { k with jnl := k.jnl.map fun p =>
      (p.1, if p.2.st = .refused && p.2.ctx = x && p.2.inc = inc then { p.2 with met := true } else p.2) }

/-- The instruction is over: go on with the next one. -/
def State.over (s : State) : State :=
  if s.took.isNone && s.cx.run = .ready then s.onCx fun c => { c with pc := c.npc } else s

/-- A fault of an access whose thread is parked for it: a page to wait for, or LOAD_FAULT (R352, R354). -/
def State.syncFault (s : State) (f : RFault) : State :=
  if f.absent then s.savePaged s.me.1 s.me.2 [f.addr.toNat] else s.loadFault f.kind f.addr

/-- Bytes that a request to a word of a pool covers. -/
def ROp.bytes : ROp → Nat
  | .atom _ wd _ _ => wdWidth wd / 8
  | _ => 8

/-- A .l access that goes on after its drain: its own port may refuse it by now, which is an exact trap as at issue (R183, R187). -/
def State.ownPort (s : State) (l : List Req) (k : State) : State :=
  match l.findSome? fun r => match r.place with
      | .pool core off false ea => (s.localRefusal core off r.op.bytes).map fun c => (c, ea)
      | _ => none with
  | some (c, ea) => s.trap c ea
  | none => k

/-- The rest of a parked instruction, once its condition is met; `ans` is the answer of a parked access. -/
def State.go (s : State) (cond : PCond) (ans : Option Reply) : Cont → State
  | .again => s
  | .finish => s.over
  | .send p => (s.ownPort p.reqs (s.startLong p)).over
  | .sync d r limited => s.ownPort [r] (s.sendSync d r limited)
  | .got d acq =>
    match ans with
    | none => s
    | some r =>
      match r.fault with
      | some f => s.syncFault f
      | none =>
        let s := s.onRegs fun q => (q.putDest d r.data).raise r.flags
        (if acq then s.acquire else s).over
  | .pool l => (s.poolStores l).over
  | .release e t => (s.releaseStore e t).over
  | .phaseArrive gh => s.phaseArrive gh
  | .phaseDone _ => s.over
  | .fbarArrive g n => s.fbarArrive g n
  | .fbarDone =>
    match ans.bind Reply.fault with
    | some f => s.trap PEER_TIMEOUT 0 (f.addr.toNat % 256)
    | none => s.acquire.over
  | .kick d k _ => (s.sendKick d k).over
  | .sarm v st => (s.sarmSend v st).over
  | .cpy dk sk h a b n => (s.cpyGo dk sk h a b n).over
  | .cpyw h => match cond with | .mask _ m => (s.cpywGo h m).over | _ => s.over
  | .gpwait sub d k target => (s.gpwaitGo sub d k target).over
  | .cbrsv d cb => (s.cbrsvGo d cb).over
  | .cbcmt cb => (s.cbcmtGo cb).over
  | .cbacq d cb => (s.cbacqGo d cb).over
  | .oclaim d id => (s.oclaimGot d id).over
  | .ofill slot data u => (s.ofillGo slot data u).over
  | .ast am f act vr1 vc1 a dst bias => (s.astGo am f act vr1 vc1 a dst bias).over
  | .ald am f d src => (s.aldGo am f d src).over
  | .cst e c ch data n =>
    match ans with
    | none => s
    | some r =>
      match r.fault with
      | some f => s.syncFault f
      | none => (s.cstGot e c ch data n (word64 r.data 0)).over
  | .cclr r =>
    match ans with
    | none => s
    | some q =>
      match q.fault with
      | some f => s.syncFault f
      | none => (s.cclrGot r (word64 q.data 0)).over
  | .tlbinv scope va tenant => (s.tlbinvGo scope va tenant).over
  | .fencei => s.fenceiGo.over
  | .ctxsv frame x => (s.ctxsvGo frame x).over
  | .rep n st k => (s.repGo n st k).over

/-- What is undone when a drain has met a refusal: a copy whose kick is not sent leaves its handle as it was. -/
def State.undone (s : State) : Cont → State
  | .kick _ (.cpy _ _ h _ _ _) bits => s.onMine fun k => k.onHandle h fun _ => { Handle.reset with bits := bits }
  | _ => s

/-- Resume a context whose park's condition is met (R78): a drain's refusal stops the instruction first (R226); inside a
handler the refusal is held and the instruction performs nothing. -/
def State.resume (s : State) (core x : Nat) : State :=
  match (s.ctx core x).run with
  | .parked _ cond k _ =>
    let s := { s with me := (core, x), took := none }
    let ans := s.cx.answer
    let pops := s.cx.popped
    let s := s.onCx fun c => { c with run := .ready, want := .nothing, popped := [], answer := none, cancelling := false, half := 0 }
    if cond.draining && s.mine.unmet x s.cx.inc then
      let s := (s.undone k).onCx fun c => c.repop pops
      if s.cx.hnd then (s.onMine fun q => q.meetAll x s.cx.inc).over
      else match s.mine.refusal x s.cx.inc with
        | some j => s.refuse (.refused j)
        | none => s
    else s.go cond ans k
  | _ => s

/-- Resume the context when its park is over, else leave it. -/
def State.tryResume (s : State) (core x : Nat) : State :=
  match (s.ctx core x).run with
  | .parked _ cond _ _ => if s.condMet core x cond then s.resume core x else s
  | _ => s

end Sys2Proof.Machine
end

