-- ==== Sys2Proof/Machine/Scheduler.lean ====
section
/-! DEFINITION. Scheduler.lean: what the hardware scheduler makes of its requests: launches, graphs, ranges, status; mailboxes
(R301, R377 to R394). -/
namespace Sys2Proof.Machine

/-! ### Mailboxes -/

/-- Write the 16 bytes of a mailbox in one store, and answer who waits for it (R301, R378): the two words. A store that its home cannot
apply yet stays in the home's queue, where an absent page holds it (R320, R354). -/
def State.mailbox (s : State) (a : Asker) (va w0 w1 : Word) : State :=
  if va = 0 then s
  else
    let off := fld va 5 0
    let d := atByte off w0.toNat ||| atByte (off + 8) w1.toNat
    match s.gStore a (lineVa va) d (byteMask off 16) false with
    | .done _ s => s.mailWake
    | _ => { s with homes := s.homes ++ [{ who := a, place := .glob (lineVa va), op := .store d (byteMask off 16) false noJournal, tag := 0, lane := none }] }

/-- DONE with a status word, and the time (R378). -/
def doneWord (status : BitVec 32) : Word := (status.setWidth 64 <<< 32) ||| 0x80000000

/-- The scheduler, on IO die 0, working for a tenant. -/
def askerSched (tenant : BitVec 16) (launch : Nat) (sup : Bool) : Asker :=
  { agent := .package, tenant := tenant, launch := BitVec.ofNat 32 launch, sup := sup, regions := 0 }

/-! ### Descriptors (R377, R391) -/

def descNthr (d : Line) : Nat := fld (descW d 5) 31 0
def descPrio (d : Line) : Nat := fld (descW d 5) 34 32
def descService (d : Line) : Bool := (descW d 5).getLsbD 40
def descSuper (d : Line) : Bool := (descW d 5).getLsbD 41
def descEvent (d : Line) : Bool := (descW d 5).getLsbD 42
def descTenant (d : Line) : BitVec 16 := (descW d 5).extractLsb' 48 16

/-- Who asks the scheduler: a thread in its mode and with its launch's base priority, or the system cores. -/
structure Issuer where
  tenant : BitVec 16
  sup    : Bool
  sys    : Bool
  prio   : Nat
deriving DecidableEq, Repr

/-- The issuer of a request. -/
def State.issuer (s : State) (a : Asker) : Issuer :=
  { tenant := a.tenant, sup := a.sup, sys := false, prio := match s.launch a.launch.toNat with | some l => l.prio | none => 7 }
/-- The system cores, at the command port. -/
def sysIssuer : Issuer := { tenant := 0, sup := true, sys := true, prio := 7 }

/-- Tenant of what a descriptor launches: the caller's in thread mode. -/
def Issuer.tenantFor (q : Issuer) (d : Line) : BitVec 16 := if q.sup then descTenant d else q.tenant
/-- Priority: a thread-mode launch goes no higher than the issuing launch (R379). -/
def Issuer.prioFor (q : Issuer) (d : Line) : Nat := if q.sup then descPrio d else min (descPrio d) q.prio

/-- DESC (R391). -/
def descBad (q : Issuer) (node : Bool) (d : Line) : Bool :=
  let w := fun i => descW d i
  fld (w 5) 39 35 != 0 || fld (w 5) 47 43 != 0 || w 6 != 0 || w 7 != 0 || descNthr d < 1 || descNthr d > 2 ^ 24 ||
  (!q.sup && (descService d || descTenant d != 0)) || (!q.sys && descSuper d) || (!node && descEvent d) ||
  fld (w 2) 5 0 != 0 || fld (w 4) 3 0 != 0 || (w 2).getLsbD 57 || (w 3).getLsbD 57 || (w 4).getLsbD 57

/-- The instance belongs to another tenant (R157). -/
def State.xinstBad (s : State) (tenant : BitVec 16) (d : Line) : Bool :=
  descW d 3 != 0 && s.images.any (fun i => i.xinst == descW d 3 && i.tenant != tenant) &&
    !s.images.any (fun i => i.xinst == descW d 3 && i.tenant == tenant)

/-- A result word (R391). -/
def resWord (refuse id : Nat) : Word := BitVec.ofNat 64 (refuse * 2 ^ 56 + id)

/-! ### Queues (R379) -/

/-- Launches accepted and not completed. -/
def Sched.open' (q : Sched) : Nat := (q.launches.filter fun p => p.2.st == .queued || p.2.st == .running).length
/-- Queues in use: the pairs of level and tenant that have launches waiting. -/
def Sched.queues (q : Sched) : List (Nat × BitVec 16) := (q.queue.map fun e => (e.level, e.tenant)).eraseDups
/-- There is room for a launch at a level (R379). -/
def Sched.room (q : Sched) (level : Nat) (tenant : BitVec 16) : Bool :=
  decide (q.open' < 16384) && (q.queues.contains (level, tenant) || decide (q.queues.length < 1024))

/-- The next launch id (R391). -/
def nextId (n : Nat) : Nat := if n ≥ 0xFFFFFFFF then 1 else n + 1

/-- Accept a launch: its entry, at the tail of its queue. -/
def State.enqueue (s : State) (d : Line) (tenant : BitVec 16) (sup : Bool) (prio : Nat) (node : Option (Nat × Nat)) : State × Nat :=
  let id := s.sched.nextLaunch
  let l : Launch :=
    { id := id, desc := d, tenant := tenant, service := descService d, sup := sup, prio := prio, level := prio, st := .queued
      next := 0, ended := 0, cores := [], heard := [], status := 0, cause := 0, node := node, filled := descW d 3 == 0, inst := none, sealed' := false }
  (s.onSched fun q => { q with
    launches := tset q.launches id l, nextLaunch := nextId id
    queue := q.queue ++ [{ launch := id, level := prio, tenant := tenant, since := s.now }] }, id)

/-- A launch outside a graph: its result word. -/
def State.accept (s : State) (q : Issuer) (d : Line) : Word × State :=
  let t := q.tenantFor d
  if descBad q false d then (resWord 2 0, s)
  else if s.xinstBad t d then (resWord 3 0, s)
  else if !s.sched.room (q.prioFor d) t then (resWord 1 0, s)
  else
    let (s, id) := s.enqueue d t (q.sys && descSuper d) (q.prioFor d) none
    (resWord 0 id, s)

/-! ### Graphs (R385 to R387, R392) -/

/-- The graph of an id that belongs to a tenant. -/
def State.graphOf (s : State) (g : Nat) (tenant : BitVec 16) : Option Graph := s.sched.graphs.find? fun x => x.id == g && x.tenant == tenant
/-- Nodes of all templates. -/
def Sched.nodeCount (q : Sched) : Nat := (q.graphs.map fun g => g.nodes.length).sum
/-- Change a graph. -/
def State.onGraph (s : State) (g : Nat) (f : Graph → Graph) : State :=
  s.onSched fun q => { q with graphs := q.graphs.map fun x => if x.id = g then f x else x }

/-- The first id from n on that is not used, below a limit and never 0: at most `fuel` are tried. -/
def freeId (used : Nat → Bool) (lim : Nat) : Nat → Nat → Option Nat
  | 0, _ => none
  | fuel + 1, n =>
    let n := if n = 0 || n ≥ lim then 1 else n
    if used n then freeId used lim fuel (n + 1) else some n

/-- GNODE.graph: a new template (R385). -/
def State.newGraph (s : State) (tenant : BitVec 16) (flags : Word) : Word × State :=
  let taken := fun n => s.sched.graphs.any (fun g => g.id == n) || s.sched.insts.any fun i => i.graph == n && i.st != 3
  match freeId taken 4096 4096 s.sched.nextGraph with
  | none => (resWord 1 0, s)
  | some id =>
    (resWord 0 id, s.onSched fun q => { q with
      graphs := q.graphs ++ [{ id := id, tenant := tenant, serial := flags.getLsbD 0, nodes := [] }], nextGraph := id + 1 })

/-- GNODE.node: a copy of a descriptor (R392). -/
def State.newNode (s : State) (q : Issuer) (g : Nat) (own : BitVec 16) (d : Line) : Word × State :=
  match s.graphOf g own with
  | none => (resWord 4 0, s)
  | some x =>
    let t := q.tenantFor d
    if descBad q true d then (resWord 2 0, s)
    else if s.xinstBad t d then (resWord 3 0, s)
    else if x.nodes.length ≥ 4096 || s.sched.nodeCount ≥ 65536 then (resWord 1 0, s)
    else
      match freeId (fun n => s.sched.graphs.any fun g => g.nodes.any fun v => v.id == n) 65536 (s.sched.nodeCount + 2) s.sched.nextNode with
      | none => (resWord 1 0, s)
      | some id =>
        let v : GNode :=
          { id := id, desc := d, tenant := t, sup := q.sys && descSuper d, prio := q.prioFor d, preds := 0, succs := [] }
        (resWord 0 id, (s.onGraph g fun x => { x with nodes := x.nodes ++ [v] }).onSched fun q => { q with nextNode := id + 1 })

/-- Whether a node reaches another along edges, over at most n steps. -/
def reaches (nodes : List GNode) : Nat → Nat → Nat → Bool
  | 0, a, b => a == b
  | n + 1, a, b => a == b || (match nodes.find? fun v => v.id == a with
    | some v => v.succs.any fun x => reaches nodes n x b
    | none => false)

/-- GNODE.edge (R392). -/
def State.newEdge (s : State) (tenant : BitVec 16) (a b : Nat) : Word × State :=
  let of' := fun n => s.sched.graphs.find? fun g => g.tenant == tenant && g.nodes.any fun v => v.id == n
  match of' a, of' b with
  | some g, some h =>
    if g.id ≠ h.id || reaches g.nodes g.nodes.length b a then (resWord 5 0, s)
    else if g.nodes.any fun v => v.id == a && decide (v.succs.length ≥ 32) then (resWord 6 0, s)
    else
      (resWord 0 0, s.onGraph g.id fun x => { x with nodes := x.nodes.map fun v =>
        let v := if v.id = a then { v with succs := v.succs ++ [b] } else v
        if v.id = b then { v with preds := v.preds + 1 } else v })
  | _, _ => (resWord 4 0, s)

/-- GNODE.drop (R387). -/
def State.dropGraph (s : State) (tenant : BitVec 16) (g : Nat) : Word × State :=
  match s.graphOf g tenant with
  | none => (resWord 4 0, s)
  | some _ => (resWord 0 g, s.onSched fun q => { q with graphs := q.graphs.filter fun x => x.id != g })

/-- Change an instance. -/
def State.onInst (s : State) (i : Nat) (f : Inst → Inst) : State :=
  s.onSched fun q => { q with insts := q.insts.map fun x => if x.id = i then f x else x }
/-- An instance. -/
def State.inst (s : State) (i : Nat) : Option Inst := s.sched.insts.find? fun x => x.id == i

/-- Queue a node of an instance (R386): an EVENT node starts no threads. -/
def State.queueNode (s : State) (i : Nat) (v : GNode) : State :=
  let s := s.onInst i fun x => { x with nodes := x.nodes.map fun n => if n.node.id = v.id then { n with st := .queued } else n }
  if descEvent v.desc then s else (s.enqueue v.desc v.tenant v.sup v.prio (some (i, v.id))).1

/-- Insert a node by ascending id. -/
def byId (v : GNode) : List GNode → List GNode
  | [] => [v]
  | w :: t => if v.id < w.id then v :: w :: t else w :: byId v t

/-- Queue every node that waits for nothing, in ascending node id (R386); one that finds no room waits for it (R379, log entry 88). -/
def State.queueReady (s : State) (i : Nat) : State :=
  match s.inst i with
  | none => s
  | some x =>
    let go := (x.nodes.filter fun n => n.left == 0 && n.st == .waiting).foldr (fun n l => byId n.node l) []
    go.foldl (fun s v => if descEvent v.desc || s.sched.room v.prio v.tenant then s.queueNode i v else s) s

/-- Room has come about: nodes that wait for nothing else are queued. -/
def State.requeue (s : State) : State :=
  (s.sched.insts.filter fun x => x.st == 2).foldl (fun s x => s.queueReady x.id) s
/-- A node of an instance waits for room alone. -/
def State.roomless (s : State) (i : Nat) : Bool := (s.inst i).any fun x => x.nodes.any fun n => n.left == 0 && n.st == .waiting

/-- An instance whose nodes are all complete: its mailbox, and the next instance of a SERIAL graph (R386, R387). Fuel: the
instances that may end at once. -/
def State.endInst (s : State) (i : Nat) : Nat → State
  | 0 => s
  | fuel + 1 =>
    match s.inst i with
    | none => s
    | some x =>
      if x.st ≠ 2 || x.nodes.any (fun n => n.st != .done) then s
      else
        let s := s.mailbox (askerSched x.tenant 0 false) x.mbox (doneWord x.status) s.nowW
        let s := s.onInst i fun x => { x with st := 3, nodes := [] }
        match s.sched.insts.find? fun y => y.graph == x.graph && y.st == 1 with
        | none => s
        | some y => ((s.onInst y.id fun y => { y with st := 2 }).queueReady y.id).endInst y.id fuel

/-- GLAUNCH (R386, R387): an instance from the template as it stands. -/
def State.newInst (s : State) (tenant : BitVec 16) (g : Nat) (mbox : Word) : Word × State :=
  match s.graphOf g tenant with
  | none => (resWord 4 0, s)
  | some x =>
    let used := (s.sched.insts.map fun i => i.nodes.length).sum
    if used + x.nodes.length > 65536 then (resWord 1 0, s)
    else
      let id := s.sched.nextInst
      let wait := x.serial && s.sched.insts.any fun i => i.graph == g && i.st != 3
      let i : Inst :=
        { id := id, graph := g, tenant := tenant, serial := x.serial, mbox := mbox, st := if wait then 1 else 2
          nodes := x.nodes.map fun v => { node := v, left := v.preds, st := .waiting }, status := 0 }
      let t := s.onSched fun q => { q with insts := q.insts ++ [i], nextInst := nextId id }
      if wait then (resWord 0 id, t)
      else
        let t := t.queueReady id
        if t.roomless id then (resWord 1 0, s) else (resWord 0 id, t.endInst id (t.sched.insts.length + 1))

/-- A node has ended with a status: its completion waits to be served (R386). -/
def State.nodeEnded (s : State) (i v : Nat) (status : BitVec 32) : State :=
  s.onInst i fun x => { x with
    status := combine x.status status
    nodes := x.nodes.map fun n => if n.node.id = v && n.st = .queued then { n with st := .ended } else n }

/-- GDONE (R392). -/
def State.eventDone (s : State) (tenant : BitVec 16) (i v : Nat) : Word × State :=
  match s.inst i with
  | none => (resWord 4 0, s)
  | some x =>
    match x.nodes.find? fun n => n.node.id == v with
    | none => (resWord (if x.tenant = tenant && x.st = 3 then 6 else 4) 0, s)
    | some n =>
      if x.tenant ≠ tenant then (resWord 4 0, s)
      else if !descEvent n.node.desc || n.st ≠ .queued then (resWord 6 0, s)
      else (resWord 0 0, s.nodeEnded i v 0)

/-- Serve one completion (R386): each successor's counter goes down, and the instance may be over. -/
def State.nodeComplete (s : State) (i v : Nat) : State :=
  match s.inst i with
  | none => s
  | some x =>
    match x.nodes.find? fun n => n.node.id == v && n.st == .ended with
    | none => s
    | some n =>
      let s := s.onInst i fun x => { x with nodes := x.nodes.map fun m =>
        let m := if m.node.id = v then { m with st := .done } else m
        { m with left := m.left - (n.node.succs.filter (· == m.node.id)).length } }
      (s.queueReady i).endInst i (s.sched.insts.length + 1)

/-! ### Ranges (R388, R393) -/

/-- The chunk of a take (R388). -/
def grabChunk (r : Range) : Nat :=
  min r.remaining (min (max r.minchunk ((r.remaining + 2 * r.consumers - 1) / (2 * r.consumers))) (2 ^ 24 - 2))

/-- GRAB.take. -/
def State.grabTake (s : State) (tenant : BitVec 16) (a : Word) : Word × State :=
  let i := fld a 5 0
  match tget s.sched.ranges i with
  | none => (BitVec.allOnes 64, s)
  | some r =>
    if r.tenant ≠ tenant then (BitVec.allOnes 64, s)
    else
      let n := grabChunk r
      (BitVec.ofNat 64 (n * 2 ^ 40) + r.next, s.onSched fun q => { q with
        ranges := tset q.ranges i { r with next := r.next + BitVec.ofNat 64 n, remaining := r.remaining - n } })

/-- GRAB.set from its 32 bytes. -/
def State.grabSet (s : State) (tenant : BitVec 16) (a : Word) (cfg : Nat) : Word × State :=
  let i := fld a 5 0
  let w := fun k => cfg / 2 ^ (64 * k) % 2 ^ 64
  let r : Range :=
    { next := BitVec.ofNat 64 (w 0), remaining := w 1, minchunk := w 2 % 2 ^ 32, consumers := w 2 / 2 ^ 32, tenant := tenant }
  let other := match tget s.sched.ranges i with | some x => x.tenant != tenant | none => false
  if other || r.remaining > 2 ^ 40 || r.minchunk < 1 || r.minchunk ≥ 2 ^ 24 || r.consumers < 1 || r.consumers > 65535 || w 3 != 0 then
    (BitVec.allOnes 64, s)
  else (0, s.onSched fun q => { q with ranges := tset q.ranges i r })

/-! ### QSTAT (R394) -/

/-- STATE of a launch. -/
def LState.code : LState → Nat
  | .queued => 1 | .running => 2 | .done => 3 | .rejected => 4

/-- QSTAT's word. -/
def State.qstat (s : State) (a : Asker) (what : Nat) (w : Word) : Word :=
  let mine := fun (t : BitVec 16) => a.sup || t == a.tenant
  match what with
  | 0 =>
    match s.launch (fld w 31 0) with
    | none => 0
    | some l =>
      if !mine l.tenant || (l.st.code ≥ 3 && !s.sched.finished.contains l.id) then 0
      else BitVec.ofNat 64 ((descNthr l.desc - l.next) * 2 ^ 40 + l.cause * 2 ^ 24 + l.level * 2 ^ 8 + l.st.code)
  | 1 => BitVec.ofNat 64 (s.sched.queue.filter fun e => e.level == fld w 2 0 && e.tenant == a.tenant).length
  | 2 =>
    match tget s.sched.ranges (fld w 5 0) with
    | some r => if mine r.tenant then BitVec.ofNat 64 r.remaining else 0
    | none => 0
  | _ =>
    match s.inst (fld w 31 0) with
    | some i => if mine i.tenant then BitVec.ofNat 64 ((i.nodes.filter fun n => n.st != .done).length + i.st * 2 ^ 16) else 0
    | none => 0

/-! ### Requests -/

/-- Bytes of a line at an address, read at home for the scheduler, or the fault. -/
def State.schedRead (s : State) (a : Asker) (va : Word) (n : Nat) (k : Nat → State → Word × State) : Served :=
  match s.gLoad (a.engine .package) .load va n with
  | .done l s =>
    let (w, s) := k (fromByte l (fld va 5 0) n) s
    .done (w.setWidth 512) s
  | r => r

/-- A request to the scheduler, served: the result word. -/
def State.schedServe (s : State) (a : Asker) : ROp → Option Served
  | .gnodeGraph f => let (w, s) := s.newGraph a.tenant f; some (.done (w.setWidth 512) s)
  | .gnodeEdge x y => let (w, s) := s.newEdge a.tenant (fld x 15 0) (fld y 15 0); some (.done (w.setWidth 512) s)
  | .gnodeDrop x => let (w, s) := s.dropGraph a.tenant (fld x 11 0); some (.done (w.setWidth 512) s)
  | .grabTake x => let (w, s) := s.grabTake a.tenant x; some (.done (w.setWidth 512) s)
  | .grabSet x y => some (s.schedRead a y 32 fun cfg s => s.grabSet a.tenant x cfg)
  | .qstat what x => some (.done ((s.qstat a what x).setWidth 512) s)
  | _ => none

/-- A kick of the scheduler, accepted (R384, R390): the descriptor is read at home. -/
def State.schedKick (s : State) (a : Asker) : KOp → Option Served
  | .launch p => some (s.schedRead a p 64 fun d s => s.accept (s.issuer a) (BitVec.ofNat 512 d))
  | .gnodeNode g p => some (s.schedRead a p 64 fun d s => s.newNode (s.issuer a) (fld g 11 0) a.tenant (BitVec.ofNat 512 d))
  | .glaunch g m => let (w, s) := s.newInst a.tenant (fld g 11 0) m; some (.done (w.setWidth 512) s)
  | .gdone i v => let (w, s) := s.eventDone a.tenant (fld i 31 0) (fld v 15 0); some (.done (w.setWidth 512) s)
  | _ => none

end Sys2Proof.Machine
end

