-- ==== Sys2Proof/Machine/EvCore.lean ====
section
/-! DEFINITION. EvCore.lean: the steps of a core and of the ordering machine: fetch, drain, delivery, homes, landing, limits,
page faults, invalidation (R36, R78, R91, R104, R110, R144, R148, R196, R203 to R211, R230, R231, R253, R354, R362, R452). -/
namespace Sys2Proof.Machine

/-! ### Contexts that may run -/

/-- A core whose contexts may issue: awake, not stopped by a switch, not dead. -/
def Core.runs (k : Core) : Bool := decide (k.power = .awake) && !k.stopped && !k.dead
/-- A context that may issue. -/
def Ctx.canIssue (c : Ctx) : Bool := decide (c.run = .ready) && (!c.halted || c.stepping)

/-! ### FETCH_LINE (R36, R452) -/

/-- The line of a PC is held. -/
def Core.holds (k : Core) (pc : Word) : Bool := (tget k.lines (fld (lineOfPc pc) 56 6)).isSome

/-- The line that a context is about to issue from comes back and is checked; a fault is charged to its PC. -/
def State.fetchLine (s : State) (core x : Nat) : State :=
  let c := s.ctx core x
  if !(s.core core).runs || !c.canIssue || (s.core core).holds c.pc then s
  else
    let s := { s with me := (core, x), took := none }
    match s.fetch core x c.pc with
    | (.ok, s) => s
    | (.trap cause info, s) => s.trapInfo cause (lineOfPc c.pc) info
    | (.absent, s) => s.fetchAbsent core x (lineOfPc c.pc)
    | (.stop, s) => s.parityStop core x c.pc

/-- FETCH_LINE. -/
def execFetchLine (core ctx : Nat) (s : State) : Host.Outcome State Fault Refusal := .next (s.fetchLine core ctx)

/-! ### Stores that leave their buffers (R102, R208) -/

/-- A core drains nothing while a gang switch has stopped it (R228). -/
def Core.drainJ (k : Core) : Option Nat := if k.stopped then none else k.freeJ

/-- A thread's next store leaves its buffer. -/
def State.drainCtx (s : State) (core x : Nat) : State :=
  let c := s.ctx core x
  match nextDrain core c, (s.core core).drainJ with
  | some i, some j =>
    (match c.sb[i]? with
     | some e =>
       (s.setCtx core x { c with sb := dropAt c.sb i }).sendStore core (askerOf c (s.who core x)) (s.who core x) e j none
     | none => s)
  | _, _ => s

/-- The oldest store that exited threads of a launch have left on a core (R102). -/
def State.drainLeft (s : State) (core n : Nat) : State :=
  match (s.core core).residents[n]?, (s.core core).drainJ with
  | some r, some j =>
    (match r.left with
     | (w, e) :: t =>
       let a : Asker :=
         { agent := .thread w, tenant := (s.core core).tenant, launch := r.launch, sup := s.launchSup r.launch.toNat, regions := 0 }
       (s.onCore core fun k => { k with residents := setAt k.residents n { r with left := t } }).sendStore core a w e j none
     | [] => s)
  | _, _ => s

/-! ### Messages to threads (R362, R363) -/

/-- A reply comes to its thread: the answer of its park, a prefetched line, or a result to land; for a saved thread it goes into
the saved state; else it is stray. -/
def State.deliverReply (s : State) (r : Reply) : State :=
  let w := r.dst
  let k := s.core w.core
  if s.live w then
    let s := s.replyLog w.core
    let c := k.ctx w.ctx
    match k.prefs.find? fun p => p.1 == w.ctx && p.2.1 == r.tag with
    | some p =>
      s.onCore w.core fun k =>
        let k := { k with prefs := k.prefs.filter fun q => q != p }
        if r.fault.isNone then k.snapPlace c.tenant p.2.2 r.data else k
    | none =>
      s.setCtx w.core w.ctx (match c.run with
        | .parked _ (.reply t) _ _ => if t = r.tag then { c with answer := some r } else { c with landing := c.landing ++ [r] }
        | _ => { c with landing := c.landing ++ [r] })
  else
    match k.savedOf w with
    | some c =>
      (match c.run with
       | .parked _ (.reply t) _ _ =>
         if t = r.tag then s.putSaved w { c with answer := some r }
         else let (c, s) := s.landIn w.core c r; s.putSaved w c.settle
       | _ => let (c, s) := s.landIn w.core c r; s.putSaved w c.settle)
    | none => s.strayAt w.core

/-- An acknowledgement with no data for a long result or a park. -/
def ackTo (w : Who) (tag : Nat) : Reply := { dst := w, tag := tag, data := 0, flags := 0, fault := none, lane := none }

/-- Take message i out of the channels. -/
def State.unsend (s : State) (i : Nat) : State := { s with chan := dropAt s.chan i }

/-! ### MESSAGE_DELIVER (R206) -/

/-- Bytes of a place that a request touches: from the first, and how many. -/
def Req.bytes (r : Req) : Nat × Nat :=
  let base := match r.place with | .pool _ off _ _ => off | .glob va | .peer _ _ va => fld va 56 0 | .unit => 0
  match r.op with
  | .load n true => (base / 64 * 64, max n 64)
  | .load n false => (base, n)
  | .store _ m _ _ => let (lo, n) := maskSpan m; (base / 64 * 64 + lo, n)
  | .atom _ wd _ _ => (base, wdWidth wd / 8)
  | .lds | .sts _ | .ldf | .feset | .feclr | .wpset .. | .wpclr .. => (base, 8)
  | _ => (base / 64 * 64, 64)

/-- Two requests go to one device's place: the same pool, the same tenant's memory, the same peer. -/
def Req.together (r q : Req) : Bool :=
  match r.place, q.place with
  | .pool c _ _ _, .pool d _ _ _ => c == d
  | .glob _, .glob _ => r.who.tenant == q.who.tenant
  | .peer g i _, .peer h j _ => g == h && i == j && r.who.tenant == q.who.tenant
  | .unit, .unit => true
  | _, _ => false

/-- Two stores write a byte in common. -/
def Req.storesMeet (r q : Req) : Bool :=
  match r.op, q.op with
  | .store _ m _ _, .store _ n _ _ => r.together q && decide (r.bytes.1 / 64 = q.bytes.1 / 64) && (m &&& n) != 0
  | _, _ => false

/-- Two requests come to one home queue (R204): a 64-byte line of memory, the 64-bit words of a pool; a unit serves in order. -/
def Req.sameHome (r q : Req) : Bool :=
  let (a, n) := r.bytes
  let (b, m) := q.bytes
  let g := match r.place with | .pool .. => 8 | _ => 64
  r.together q && (decide (r.place = .unit) ||
    (decide (a / g ≤ (b + m - 1) / g) && decide (b / g ≤ (a + n - 1) / g)))

/-- Order of a drained store among those of its core (R356); none for another request. -/
def State.storeSeq (s : State) (r : Req) : Option Nat :=
  match r.op, r.who.agent.core? with
  | .store _ _ _ j, some c => some ((s.core c).jent j).seq
  | _, _ => none

/-- The thread of an identity, live or saved (R362, R363). -/
def State.thread (s : State) (w : Who) : Option Ctx := if s.live w then some (s.ctx w.core w.ctx) else (s.core w.core).savedOf w

/-- Order of issue of a synchronising access, an acquire or a release (R206); none for another request. -/
def State.syncSeq (s : State) (r : Req) : Option Nat :=
  match r.op, r.who.thread? with
  | .atom .., some _ | .lds, some _ | .sts _, some _ | .ldf, some _ | .feset, some _ | .feclr, some _ => some r.tag
  | .load .., some w => if (s.thread w).any fun c => c.pend.any fun p => p.tag == r.tag && p.acq then some r.tag else none
  | .store _ _ _ j, some w => ((s.core w.core).jent j).tag
  | _, _ => none

/-- Request q must be delivered before r (R206). -/
def State.before (s : State) (q r : Req) : Bool :=
  q.who.agent == r.who.agent &&
  ((match s.storeSeq q, s.storeSeq r with | some a, some b => decide (a < b) && q.storesMeet r | _, _ => false) ||
   (match s.syncSeq q, s.syncSeq r with | some a, some b => decide (a < b) && q.sameHome r | _, _ => false))

/-- No message in the channels must come before a request. -/
def State.mayDeliver (s : State) (r : Req) : Bool :=
  s.chan.all fun m => match m.body with | .req q | .retry q => !s.before q r | _ => true

/-- A pool's requests come to the twin that keeps the state (R427). -/
def State.twinPlace (s : State) (p : Place) : Place :=
  match p with
  | .pool c off w ea => .pool (s.twinA c) off w ea
  | p => p

/-- Whether a request goes to a home: kicks go to their engines, walks to their walkers. -/
def ROp.toHome : ROp → Bool
  | .kick _ | .walk .. => false
  | _ => true

/-- The thread to which a message is directed (R362). -/
def State.directed (s : State) : Body → Option Who
  | .reply r => some r.dst
  | .release w _ | .cancelBack w _ => some w
  | .storeAck core j _ => let e := (s.core core).jent j; some { core := core, ctx := e.ctx, inc := e.inc }
  | _ => none

/-- A thread-directed message that has been in flight for 1 ms: the router discards it (R91). -/
def State.isStale (s : State) (m : Msg) : Bool := (s.directed m.body).isSome && decide (m.born + 1000000 ≤ s.now)

/-- Message i is discarded, and counted as stray. -/
def State.discard (s : State) (i : Nat) : State :=
  match s.chan[i]? with
  | some m => (match s.directed m.body with | some w => if s.isStale m then (s.unsend i).strayAt w.core else s | none => s)
  | none => s

/-- A walk of a core for a volume of a launch, in flight; whether it has been poisoned. -/
def Body.walkFor (core launch : Nat) (tid : BitVec 8) : Body → Option Bool
  | .req { who := a, op := .walk _ t _ _ _ _ _ dead, .. } =>
    if a.agent.core? = some core && a.launch.toNat = launch && t = tid then some dead else none
  | _ => none
/-- A poisoned walk in flight, which a walker's acknowledgement waits for (R261). -/
def Body.isDeadWalk (core launch : Nat) (tid : BitVec 8) (b : Body) : Bool := b.walkFor core launch tid == some true
/-- Poison a walk. -/
def Body.poison (b : Body) : Body :=
  match b with
  | .req r => (match r.op with | .walk what t e c ch n sb _ => .req { r with op := .walk what t e c ch n sb true } | _ => b)
  | b => b

/-- CLBINV at a core: the entries of the volume are dropped, and its walks in flight are poisoned (R261). -/
def State.clbPoison (s : State) (core launch : Nat) (tid : BitVec 8) : State :=
  let s := s.onCore core fun k => k.dropVol launch tid
  { s with chan := s.chan.map fun m => if (m.body.walkFor core launch tid).isSome then { m with body := m.body.poison } else m }

/-- Message i comes to its home queue or to its requester; messages of other kinds have steps of their own. -/
def State.deliverMsg (s : State) (i : Nat) : State :=
  match s.chan[i]? with
  | none => s
  | some m =>
    let t := s.unsend i
    if s.isStale m then s.discard i
    else match m.body with
    | .req r =>
      if r.op.toHome && s.mayDeliver r then { t with homes := t.homes ++ [{ r with place := s.twinPlace r.place }] } else s
    | .reply r => t.deliverReply r
    | .cancel _ w tag => if s.unserved w tag then (t.withdraw w tag).send (.cancelBack w tag) else t
    | .clbinv core w tag l tid told =>
      if !told then { t.clbPoison core l tid with chan := (t.clbPoison core l tid).chan ++ [{ m with body := .clbinv core w tag l tid true }] }
      else if t.chan.any fun q => q.body.isDeadWalk core l tid then s
      else t.send (.reply (ackTo w tag))
    | _ => s

/-- MESSAGE_DELIVER. -/
def execMessageDeliver (i : Nat) (s : State) : Host.Outcome State Fault Refusal := .next (s.deliverMsg i)

/-! ### HOME_SERVE (R204) -/

/-- Answer a request from what its home made of it; none while it must wait. -/
def Served.answer (r : Req) : Served → Option State
  | .done l s => some (s.reply r l 0 none)
  | .fail f s => some (s.reply r 0 0 (some f))
  | .hold s => some s
  | .wait => none

/-- Acknowledge a store from what its home made of it; an absent page holds it at the stop (R354). -/
def Served.acked (r : Req) (j : Nat) : Served → Option State
  | .done _ s => some (s.ackStore r j none)
  | .fail f s =>
    some (if f.absent then { s with parked := s.parked ++ [{ req := r, page := fld f.addr 56 12, answer := none }] }
      else s.ackStore r j (some f))
  | .hold s => some s
  | .wait => none

/-- A watchpoint set (R417). -/
def watchAt (a : Asker) (addr kind scope : Nat) : Watch := { word := addr / 8 * 8, kind := kind, scope := scope, tenant := a.tenant }

/-- A write that comes into a pool from outside its core goes into the reply log of a pair (R429). -/
def State.outsideWrite (s : State) (r : Req) (core : Nat) : State :=
  match r.op with
  | .store .. | .atom .. | .sts _ | .ldf | .feset | .feclr => if r.who.agent.core? == some core then s else s.replyLog core
  | _ => s

/-- Serve a request at a pool port. A stopped core refuses it with retry (R364). -/
def State.servePool (s : State) (r : Req) (core off : Nat) (win : Bool) (ea : Word) : Option State :=
  if (s.core core).stopped then some (s.send (.retry r))
  else
    match r.op with
    | .load n _ => (s.pLoad r.who core off n win ea).answer r
    | .store d m _ j => (s.pStore r.who core off win ea d m).acked r j
    | .atom op wd b cmp => (s.pAtom r.who core off win ea op wd b cmp).answer r
    | .wpset i kind scope =>
      some ((s.onCore core fun k => { k with wps := tset k.wps i (watchAt r.who off kind scope) }).reply r 0 0 none)
    | .wpclr i => some ((s.onCore core fun k => { k with wps := tdel k.wps i }).reply r 0 0 none)
    | .lds | .sts _ | .ldf | .feset | .feclr => some (s.pSync r core off win ea)
    | _ => some s

/-- Serve a request at a memory stop. -/
def State.serveGlob (s : State) (r : Req) (va : Word) : Option State :=
  let a := r.who
  match r.op with
  | .load n _ => (s.gLoad a .load va n).answer r
  | .pref =>
    -- a refusal is logged and goes no further (R199, R361)
    (match s.gPref a va with
     | .done l t => some (t.reply r l 0 none)
     | .fail f t => some (t.reply r 0 0 (some { f with absent := false }))
     | _ => some s)
  | .store d m bset j => ((s.gStore a va d m bset).acked r j).map State.mailWake
  | .atom op wd b cmp => ((s.gAtom a va op wd b cmp).answer r).map State.mailWake
  | .cwait =>
    (match s.gLoad a .load va 8 with
     | .done l t => if mailDone va l then some (t.reply r l 0 none) else none
     | .fail f t => some (t.reply r 0 0 (some f))
     | _ => none)
  | .probe => let (w, t) := s.gProbe a va; some (t.reply r (w.setWidth 512) 0 none)
  | .merge core l slot id n c0 c1 c2 c3 v =>
    (s.serveMerge a va n c0 c1 c2 c3 v).map fun p =>
      p.2.mailWake.send (.mergeReply core l slot id p.1 n (a.thread?.map fun x => (x, r.tag)))
  | .xread core l slot fill ans =>
    let (w, t) := s.readSlot a va
    let ws := w.map fun x => (x.1, x.2.1)
    let t := match fill with | some id => t.send (.xfill core l slot id ws) | none => t
    some (if ans then t.reply r (match ws with | some (x, y) => (y.setWidth 512 <<< 64) ||| x.setWidth 512 | none => 0) 0 none else t)
  | .wpset i kind scope =>
    let n := homeStop va
    some ((s.onStop n fun t => { t with wps := tset t.wps i (watchAt a (fld va 56 0) kind scope) }).reply r 0 0 none)
  | .wpclr i => some ((s.onStop (homeStop va) fun t => { t with wps := tdel t.wps i }).reply r 0 0 none)
  | _ => some s

/-- A refusal of the group, the rank, the tenant or the path (R334, R335). -/
def refused7 (va : Word) : RFault := { kind := 7, absent := false, addr := va }

/-- What a peer's home answers to an access that the group accepts: its own translation, band, permission and poison are not this device's to
know (R337, R352). Log entry 14. -/
def State.peerRefusal (s : State) (va : Word) : Option RFault :=
  match fld (Config.freeWord s.fresh) 2 0 with
  | 1 => some { kind := 1, absent := false, addr := va }
  | 2 => some { kind := 2, absent := false, addr := va }
  | 4 => some { kind := 4, absent := false, addr := va }
  | 5 => some { kind := 5, absent := false, addr := va }
  | _ => none
/-- A line of a peer as an access finds it: as this device's own accesses left it, unless another device has written it since (log
entry 14). -/
def peerSeen (l : List Host.Cell) (fresh line : Nat) : Line :=
  if (Config.freeWord fresh).getLsbD 3 then Config.freeLine fresh else rdLine l line

/-- Memory of a peer. -/
def State.peerCells (s : State) (key : Nat) : List Host.Cell := tgetD s.fabric.peerMem key []
/-- Replace the memory of a peer. -/
def State.setPeerCells (s : State) (key : Nat) (m : List Host.Cell) : State :=
  { s with fabric := { s.fabric with peerMem := tset s.fabric.peerMem key m } }

/-- Serve a request at a peer (R337); its own device is its own home. -/
def State.servePeer (s : State) (r : Req) (g n : Nat) (va : Word) : Option State :=
  let key := peerKey g n
  let a := fld va 56 0
  let line := a / 64 * 64
  if s.peerOk r.who.tenant g n && fgRank (s.fgroup g) == n then s.serveGlob r va
  else if !s.peerOk r.who.tenant g n || s.fabric.down.contains key then
    (match r.op with
     | .store _ _ _ j => some (s.ackStore r j (some (refused7 va)))
     | _ => some (s.reply r 0 0 (some (refused7 va))))
  else
    let no := s.peerRefusal va
    let l := peerSeen (s.peerCells key) s.fresh line
    let s := (s.setPeerCells key (wrMasked (s.peerCells key) line l (BitVec.allOnes 64) 64)).used
    match no, r.op with
    | some f, .store _ _ _ j => some (s.ackStore r j (some f))
    | some f, _ => some (s.reply r 0 0 (some f))
    | none, .load _ _ => some (s.reply r l 0 none)
    | none, .store d m _ j => some ((s.setPeerCells key (wrMasked (s.peerCells key) line d m 64)).ackStore r j none)
    | none, .atom op wd b cmp =>
      let w := wdWidth wd
      let new := atomNew op w (fromByte l (a % 64) (w / 8)) (b.toNat % 2 ^ w) (cmp.toNat % 2 ^ w)
      some ((s.setPeerCells key (wrN (s.peerCells key) a (w / 8) new)).reply r l 0 none)
    | none, _ => some s

/-- A group of a launch (R93). -/
def State.group (s : State) (launch handle : BitVec 32) : Option Group :=
  s.sched.groups.find? fun g => g.launch == launch && g.handle == handle

/-- GINFO at the slice (R115): the size, or the rank; all ones when the slice no longer holds the group or the member. -/
def State.ginfoAt (s : State) (a : Asker) (handle : BitVec 32) (rank : Bool) : Word :=
  match s.group a.launch handle, a.thread? with
  | some g, some w =>
    (match g.members.findIdx? (· == w) with
     | some i => BitVec.ofNat 64 (if rank then i else g.members.length)
     | none => BitVec.allOnes 64)
  | _, _ => BitVec.allOnes 64

/-- Serve a request at a unit with no memory of its own. -/
def State.serveUnit (s : State) (r : Req) : Option State :=
  match r.op, r.who.thread? with
  | .ginfo h rank, _ => some (s.reply r ((s.ginfoAt r.who h rank).setWidth 512) 0 none)
  | .ctxsv frame x, some w => (s.saveTo r.who w.core x frame).answer r
  | op, _ =>
    match s.schedServe r.who op with
    | some v => v.answer r
    | none => some s

/-- Serve one request, which has left its queue; none while it must wait. -/
def State.serve (s : State) (r : Req) : Option State :=
  match r.place with
  | .pool core off win ea => (s.servePool r core off win ea).map fun t => t.outsideWrite r core
  | .glob va => s.serveGlob r va
  | .peer g n va => s.servePeer r g n va
  | .unit => s.serveUnit r

/-- Request q of the homes is the first of its queue that can be served. -/
def State.firstServable (s : State) (q : Nat) : Bool :=
  match s.homes[q]? with
  | none => false
  | some r =>
    ((s.homes.take q).all fun p => !p.sameHome r || ({ s with homes := [] }.serve p).isNone) &&
    ({ s with homes := [] }.serve r).isSome

/-- A home queue applies its first request that it can serve; a number past the requests is a write that a lead forwards, which comes to a
replica. -/
def State.serveHome (s : State) (q : Nat) : State :=
  match s.homes[q]? with
  | none => s.forwardOne (q - s.homes.length)
  | some r =>
    if s.firstServable q then
      let t := { s with homes := dropAt s.homes q }
      (t.serve r).elim s t.holdAcks
    else s

/-- HOME_SERVE. -/
def execHomeServe (q : Nat) (s : State) : Host.Outcome State Fault Refusal := .next (s.serveHome q)

/-! ### CLB_WALK (R254) -/

/-- A walk that fails has performed nothing (R263): of what it did, the logs of the refusal and the notices to system software stay. -/
def State.walkUndone (t s : State) : State :=
  { t with
    homes := s.homes, chan := s.chan
    mem := { s.mem with stops := t.mem.stops.map fun p => (p.1, { p.2 with log := (s.mem.stop p.1).log, early := (s.mem.stop p.1).early }) } }

/-- A walker takes a request from the channels and serves it. -/
def State.clbWalk (s : State) (i : Nat) : State :=
  match s.chan[i]? with
  | some { body := .req r, .. } =>
    if r.op.toHome then s
    else match (s.unsend i).serveWalk r with
    | .fail f t => ((Served.fail f (t.walkUndone (s.unsend i))).answer r).getD s
    | v => (v.answer r).getD s
  | _ => s

/-- The message is a request to a walker. -/
def Body.isWalk : Body → Bool
  | .req r => (match r.op with | .walk .. => true | _ => false)
  | _ => false

/-- CLB_WALK. -/
def execClbWalk (i : Nat) (s : State) : Host.Outcome State Fault Refusal :=
  .next (if (s.chan[i]?).any (fun m => m.body.isWalk) then s.clbWalk i else s)

/-! ### LONG_RESULT_LAND (R83) -/

/-- LONG_RESULT_LAND. -/
def execLongResultLand (core ctx i : Nat) (s : State) : Host.Outcome State Fault Refusal := .next (s.landAt core ctx i)

/-! ### STORE_ACKNOWLEDGE (R191, R214, R226, R356) -/

/-- A thread that has ended: neither live nor saved. -/
def State.gone (s : State) (w : Who) : Bool := !s.live w && ((s.core w.core).savedOf w).isNone

/-- A store is acknowledged: its entry is free, or refused; the release that it belongs to lands. A refusal for a thread that has
ended goes into its core's status word. -/
def State.storeAcked (s : State) (core j : Nat) (fault : Option RFault) : State :=
  let e := (s.core core).jent j
  let w : Who := { core := core, ctx := e.ctx, inc := e.inc }
  let t := match fault with
    | none => s.onCore core fun k => { k with jnl := tdel k.jnl j }
    | some f =>
      if s.gone w then
        s.onCore core fun k =>
          ({ k with jnl := tdel k.jnl j }).onResident e.launch fun r => { r with status := combine r.status 0x02000002 }
      else s.onCore core fun k => { k with jnl := tset k.jnl j { e with st := .refused, kind := f.kind } }
  match e.tag with
  | some tag => t.deliverReply (ackTo w tag)
  | none => t

/-- STORE_ACKNOWLEDGE. -/
def execStoreAcknowledge (i : Nat) (s : State) : Host.Outcome State Fault Refusal :=
  .next (match s.chan[i]? with
    | some { body := .storeAck core j f, born } => if s.isStale { body := .storeAck core j f, born } then s.discard i else (s.unsend i).storeAcked core j f
    | _ => s)

/-! ### DOZE_WAKE (R110) -/

/-- A dozing context whose instant has come is ready. -/
def Ctx.woken (c : Ctx) (now : Nat) : Ctx :=
  match c.run with
  | .dozing t => if t ≤ now then { c with run := .ready } else c
  | _ => c

/-- Wake a context; the machine does so at the start of each turn of its core. -/
def State.dozeWake (s : State) (core x : Nat) : State :=
  match (s.ctx core x).run with
  | .dozing _ => (s.readClock core).onCtx core x fun c => c.woken (s.coreNow core)
  | _ => s

/-- DOZE_WAKE. -/
def execDozeWake (core ctx : Nat) (s : State) : Host.Outcome State Fault Refusal := .next (s.dozeWake core ctx)

/-! ### SYNC_LIMIT, SYNC_CANCEL_RETURN (R104, R196) -/

/-- The trap of a limited access, with nothing performed. -/
def State.limitTrap (s : State) (core x : Nat) : State :=
  let s := { s with me := (core, x), took := none }
  (s.onCx fun c => { c with run := .ready, npc := c.pc, cancelling := false, answer := none, half := 0 }).trap SYNC_LIMIT (s.ctx core x).syncEa

/-- The park is one that %synclim limits (R104). -/
def Ctx.limited (c : Ctx) : Bool := match c.run with | .parked _ _ _ l => l | _ => false

/-- The park has lasted for more turns than %synclim allows (R104). -/
def Ctx.limitPassed (c : Ctx) : Bool :=
  c.regs.synclim != 0 && decide (c.syncTurns > c.regs.synclim.toNat) && !c.cancelling

/-- The limit passes: a stream's park traps, with address 0 since it has none (log entry 75); an access is cancelled at its port. -/
def State.syncLimit (s : State) (core x : Nat) : State :=
  let c := s.ctx core x
  if !c.limitPassed then s
  else
    match c.run with
    | .parked _ (.strip _) _ true => (s.setCtx core x { c with syncEa := 0 }).limitTrap core x
    | .parked _ (.reply tag) _ true =>
      (s.setCtx core x { c with cancelling := true }).send (.cancel core (s.who core x) tag)
    | _ => s

/-- SYNC_LIMIT. -/
def execSyncLimit (core ctx : Nat) (s : State) : Host.Outcome State Fault Refusal := .next (s.syncLimit core ctx)

/-- A cancel that removed its waiter comes back. A thread saved meanwhile issues the access again when it is restored (R363). -/
def State.cancelBack (s : State) (w : Who) (tag : Nat) : State :=
  let hit := fun (c : Ctx) => match c.run with | .parked _ (.reply t) _ _ => t == tag | _ => false
  if s.live w then (if hit (s.ctx w.core w.ctx) then s.limitTrap w.core w.ctx else s)
  else
    match (s.core w.core).savedOf w with
    | some c => if hit c then s.putSaved w { c with run := .ready, npc := c.pc, cancelling := false } else s
    | none => s.strayAt w.core

/-- SYNC_CANCEL_RETURN. -/
def execSyncCancelReturn (i : Nat) (s : State) : Host.Outcome State Fault Refusal :=
  .next (match s.chan[i]? with
    | some { body := .cancelBack w tag, born } =>
      if s.isStale { body := .cancelBack w tag, born } then s.discard i else (s.unsend i).cancelBack w tag
    | _ => s)

/-! ### CONTEXT_REUSE_DELAY, STRAY_MESSAGE_DISCARD (R91) -/

/-- One turn of a free context's position passes. -/
def State.reuseTurn (s : State) (core x : Nat) : State := s.onCtx core x fun c => { c with reuse := c.reuse - 1 }

/-- CONTEXT_REUSE_DELAY. -/
def execContextReuseDelay (core ctx : Nat) (s : State) : Host.Outcome State Fault Refusal :=
  .next (if (s.ctx core ctx).run = .free then s.reuseTurn core ctx else s)

/-- STRAY_MESSAGE_DISCARD. -/
def execStrayMessageDiscard (i : Nat) (s : State) : Host.Outcome State Fault Refusal :=
  .next (s.discard i)

/-! ### REFUSED_WITH_RETRY_RESEND (R196, R364) -/

/-- REFUSED_WITH_RETRY_RESEND. -/
def execRefusedWithRetryResend (i : Nat) (s : State) : Host.Outcome State Fault Refusal :=
  .next (match s.chan[i]? with
    | some { body := .retry r, .. } => (s.unsend i).send (.req r)
    | _ => s)

/-! ### TLB_INVALIDATE (R230) -/

/-- A held translation that an invalidation drops: one page, with the whole range that holds it; a tenant; all. -/
def TlbEnt.dropped (e : TlbEnt) (scope va : Nat) (tenant : BitVec 16) : Bool :=
  match scope with
  | 0 => e.tenant == tenant &&
      (if pteN e.pte then e.vpn / 16 == va / 65536 else e.vpn == va / 2 ^ (12 + 9 * e.level))
  | 1 => e.tenant == tenant
  | _ => true

/-- TLB_INVALIDATE. -/
def execTlbInvalidate (i : Nat) (s : State) : Host.Outcome State Fault Refusal :=
  .next (match s.chan[i]? with
    | some { body := .inval n w tag scope va tenant, .. } =>
      let s := s.unsend i
      ({ s with mem := { s.mem with tlb := s.mem.tlb.filter fun e => !(e.stop == n && e.dropped scope (fld va 56 0) tenant) } }).send
        (.reply (ackTo w tag))
    | _ => s)

/-! ### EXPERIENCE_FILL_LAND (R144), MERGE_REPLY (R148) -/

/-- EXPERIENCE_FILL_LAND. -/
def execExperienceFillLand (i : Nat) (s : State) : Host.Outcome State Fault Refusal :=
  .next (match s.chan[i]? with
    | some { body := .xfill core l slot id w, .. } => (s.unsend i).landFill core l slot id w
    | _ => s)

/-- MERGE_REPLY. -/
def execMergeReply (i : Nat) (s : State) : Host.Outcome State Fault Refusal :=
  .next (match s.chan[i]? with
    | some { body := .mergeReply core l slot id w n to', .. } =>
      let s := (s.unsend i).landMerge core l slot id w n
      (match to' with | some (x, tag) => s.deliverReply (ackTo x tag) | none => s)
    | _ => s)

/-! ### PAGE_MAPPED_RESTORE (R354) -/

/-- A context that may take a thread (R89, R91). -/
def Core.freeCtx (k : Core) : Option Nat :=
  (upTo (8 * partCtx (k.part.getD 0))).find? fun x => decide ((k.ctx x).run = .free) && (k.ctx x).reuse == 0

/-- A thread saved on a page fault whose pages have all been answered and which expects no message: place in the list; none while a stop or a switch
holds the core (R404). -/
def Core.restorable (k : Core) : Option Nat :=
  if k.held || k.stopped then none else k.paged.findIdx? fun p => !p.2.1.expects && p.2.2.all fun q => q.2.isSome

/-- Records of a declined page become UNMAPPED, and stay (R354). -/
def declineRecs (no : Nat → Bool) (l : List Replay) : List Replay :=
  (l.filter fun r => r.fault.absent && no r.fault.addr.toNat).map fun r =>
    { r with fault := { r.fault with kind := 1, absent := false }, due := true }

/-- Restore a thread saved on a page fault into the next free context of its core, ahead of every pending thread. What a declined
page was needed for without a record is taken as LOAD_FAULT at once (R452). -/
def State.restorePaged (s : State) (core : Nat) : State :=
  let k := s.core core
  match k.restorable, k.freeCtx with
  | some i, some x =>
    (match k.paged[i]? with
     | none => s
     | some (old, c, pages) =>
       if c.cap.isSome && (tget k.capHold (x % 8)).isSome then s
       else
         let no := fun (a : Nat) => pages.any fun p => p.1 / 4096 == a / 4096 && p.2 == some false
         let kept := declineRecs no c.replay
         let c := { c with replay := c.replay.filter fun r => !(r.fault.absent && no r.fault.addr.toNat) }
         let s := s.onCore core fun k => { k with paged := dropAt k.paged i }
         let s := s.restore core x old c
         let s := s.onCtx core x fun c => { c with replay := kept ++ c.replay }
         match pages.find? fun p => p.2 == some false && !(kept.any fun r => r.fault.addr.toNat == p.1) with
         | some p =>
           let s := { s with me := (core, x), took := none }
           s.loadFault 1 (BitVec.ofNat 64 p.1)
         | none => s)
  | _, _ => s

/-- Note the answer for a page. -/
def answerPage (tenant page : Nat) (ok : Bool) (p : Nat × Ctx × List (Nat × Option Bool)) : Nat × Ctx × List (Nat × Option Bool) :=
  if p.2.1.tenant.toNat = tenant then
    (p.1, p.2.1, p.2.2.map fun q => if fld (BitVec.ofNat 64 q.1) 56 12 = page then (q.1, some ok) else q)
  else p

/-- A store held for a page is retried ahead of what its home has received since, or refused (R204, R354); the list is taken from its
end, so that the first comes first. -/
def State.heldStores (s : State) (tenant page : Nat) (ok : Bool) : List Held → State
  | [] => s
  | h :: t =>
    let s := match h.req.op with
      | .store _ _ _ j =>
        if h.page = page && h.req.who.tenant.toNat = tenant then
          if ok then { s with homes := h.req :: s.homes }
          else s.ackStore h.req j (some { kind := 1, absent := false
                                          addr := match h.req.place with | .glob va => va | _ => 0 })
        else { s with parked := s.parked ++ [h] }
      | _ =>
        { s with parked := s.parked ++
          [if h.page = page && h.req.who.tenant.toNat = tenant then { h with answer := some ok } else h] }
    s.heldStores tenant page ok t

/-- System software has mapped a page, or declines it: threads saved for it, stores and engine accesses held for it. -/
def State.pageMapped (s : State) (tenant page : Nat) (ok : Bool) : State :=
  let held := s.parked
  let s : State :=
    { s with parked := [], cores := s.cores.map fun p => (p.1, { p.2 with paged := p.2.paged.map (answerPage tenant page ok) }) }
  let s := s.heldStores tenant page ok held.reverse
  let s := { s with parked := s.parked.reverse }
  (s.cores.map fun p => p.1).foldl State.restorePaged s

/-- PAGE_MAPPED_RESTORE. -/
def execPageMappedRestore (tenant page : Nat) (mapped : Bool) (s : State) : Host.Outcome State Fault Refusal :=
  .next (s.pageMapped tenant page mapped)

end Sys2Proof.Machine
end

