-- ==== Sys2Proof/Machine/Sm.lean ====
section
/-! DEFINITION. Sm.lean: SM3, the HMAC over it, and SM4, which the spec names and does not define: the published national standards
(GM/T 0004-2012, GM/T 0002-2012). PRESUMED, log entry 20. -/
namespace Sys2Proof.Machine

/-! ### SM3 -/

/-- A list of bytes as a 32-bit number, highest byte first. -/
def be32 (l : List Byte) : BitVec 32 := (l.take 4).foldl (fun n b => (n <<< 8) ||| b.setWidth 32) 0
/-- The bytes of a 32-bit number, highest first. -/
def bytes32 (w : BitVec 32) : List Byte := [w.extractLsb' 24 8, w.extractLsb' 16 8, w.extractLsb' 8 8, w.extractLsb' 0 8]

/-- Permutations P0 and P1. -/
def sm3P0 (x : BitVec 32) : BitVec 32 := x ^^^ x.rotateLeft 9 ^^^ x.rotateLeft 17
def sm3P1 (x : BitVec 32) : BitVec 32 := x ^^^ x.rotateLeft 15 ^^^ x.rotateLeft 23
/-- Constant of round j. -/
def sm3T (j : Nat) : BitVec 32 := if j < 16 then 0x79CC4519 else 0x7A879D8A
/-- Boolean functions FF and GG of round j. -/
def sm3FF (j : Nat) (x y z : BitVec 32) : BitVec 32 := if j < 16 then x ^^^ y ^^^ z else (x &&& y) ||| (x &&& z) ||| (y &&& z)
def sm3GG (j : Nat) (x y z : BitVec 32) : BitVec 32 := if j < 16 then x ^^^ y ^^^ z else (x &&& y) ||| (~~~x &&& z)

/-- Word i of a list. -/
def wordIn (l : List (BitVec 32)) (i : Nat) : BitVec 32 := (l[i]?).getD 0
/-- The message expansion: words added to the 16 of a block until there are 68. -/
def sm3Expand : Nat → List (BitVec 32) → List (BitVec 32)
  | 0, l => l
  | n + 1, l =>
    let j := l.length
    let x := wordIn l
    sm3Expand n (l ++ [sm3P1 (x (j - 16) ^^^ x (j - 9) ^^^ (x (j - 3)).rotateLeft 15) ^^^ (x (j - 13)).rotateLeft 7 ^^^ x (j - 6)])

/-- One round on the registers A to H. -/
def sm3Round (w : List (BitVec 32)) (v : List (BitVec 32)) (j : Nat) : List (BitVec 32) :=
  let (a, b, c, d) := (wordIn v 0, wordIn v 1, wordIn v 2, wordIn v 3)
  let (e, f, g, h) := (wordIn v 4, wordIn v 5, wordIn v 6, wordIn v 7)
  let ss1 := (a.rotateLeft 12 + e + (sm3T j).rotateLeft (j % 32)).rotateLeft 7
  let ss2 := ss1 ^^^ a.rotateLeft 12
  let tt1 := sm3FF j a b c + d + ss2 + (wordIn w j ^^^ wordIn w (j + 4))
  let tt2 := sm3GG j e f g + h + ss1 + wordIn w j
  [tt1, a, b.rotateLeft 9, c, sm3P0 tt2, e, f.rotateLeft 19, g]

/-- The first 16 words of a block of 64 bytes. -/
def blockWords (b : List Byte) : List (BitVec 32) := (upTo 16).map fun i => be32 (b.drop (4 * i))
/-- The compression of one block. -/
def sm3Block (v : List (BitVec 32)) (b : List Byte) : List (BitVec 32) :=
  let w := sm3Expand 52 (blockWords b)
  ((upTo 64).foldl (sm3Round w) v).zipWith (· ^^^ ·) v

/-- The initial value. -/
def sm3Iv : List (BitVec 32) := [0x7380166F, 0x4914B2B9, 0x172442D7, 0xDA8A0600, 0xA96F30BC, 0x163138AA, 0xE38DEE4D, 0xB0FB0E4E]
/-- The padding of a message of n bytes. -/
def sm3Pad (n : Nat) : List Byte := 0x80#8 :: (List.replicate ((119 - n % 64) % 64) 0 ++ (toBytes 8 (8 * n)).reverse)
/-- The blocks of a padded message. -/
def sm3Blocks (v : List (BitVec 32)) (m : List Byte) : Nat → List (BitVec 32)
  | 0 => v
  | n + 1 => sm3Blocks (sm3Block v m) (m.drop 64) n
/-- SM3 of a list of bytes: 32 bytes. -/
def sm3 (m : List Byte) : List Byte :=
  let p := m ++ sm3Pad m.length
  (sm3Blocks sm3Iv p (p.length / 64)).flatMap bytes32

/-- HMAC over SM3 with a key of at most 64 bytes. -/
def hmacSm3 (key m : List Byte) : List Byte :=
  let k := key ++ List.replicate (64 - key.length) 0
  sm3 (k.map (· ^^^ 0x5C#8) ++ sm3 (k.map (· ^^^ 0x36#8) ++ m))

/-! ### SM4 -/

/-- The S-box. -/
def sm4Sbox : List Nat :=
  [0xd6, 0x90, 0xe9, 0xfe, 0xcc, 0xe1, 0x3d, 0xb7, 0x16, 0xb6, 0x14, 0xc2, 0x28, 0xfb, 0x2c, 0x05,
   0x2b, 0x67, 0x9a, 0x76, 0x2a, 0xbe, 0x04, 0xc3, 0xaa, 0x44, 0x13, 0x26, 0x49, 0x86, 0x06, 0x99,
   0x9c, 0x42, 0x50, 0xf4, 0x91, 0xef, 0x98, 0x7a, 0x33, 0x54, 0x0b, 0x43, 0xed, 0xcf, 0xac, 0x62,
   0xe4, 0xb3, 0x1c, 0xa9, 0xc9, 0x08, 0xe8, 0x95, 0x80, 0xdf, 0x94, 0xfa, 0x75, 0x8f, 0x3f, 0xa6] ++
  [0x47, 0x07, 0xa7, 0xfc, 0xf3, 0x73, 0x17, 0xba, 0x83, 0x59, 0x3c, 0x19, 0xe6, 0x85, 0x4f, 0xa8,
   0x68, 0x6b, 0x81, 0xb2, 0x71, 0x64, 0xda, 0x8b, 0xf8, 0xeb, 0x0f, 0x4b, 0x70, 0x56, 0x9d, 0x35,
   0x1e, 0x24, 0x0e, 0x5e, 0x63, 0x58, 0xd1, 0xa2, 0x25, 0x22, 0x7c, 0x3b, 0x01, 0x21, 0x78, 0x87,
   0xd4, 0x00, 0x46, 0x57, 0x9f, 0xd3, 0x27, 0x52, 0x4c, 0x36, 0x02, 0xe7, 0xa0, 0xc4, 0xc8, 0x9e] ++
  [0xea, 0xbf, 0x8a, 0xd2, 0x40, 0xc7, 0x38, 0xb5, 0xa3, 0xf7, 0xf2, 0xce, 0xf9, 0x61, 0x15, 0xa1,
   0xe0, 0xae, 0x5d, 0xa4, 0x9b, 0x34, 0x1a, 0x55, 0xad, 0x93, 0x32, 0x30, 0xf5, 0x8c, 0xb1, 0xe3,
   0x1d, 0xf6, 0xe2, 0x2e, 0x82, 0x66, 0xca, 0x60, 0xc0, 0x29, 0x23, 0xab, 0x0d, 0x53, 0x4e, 0x6f,
   0xd5, 0xdb, 0x37, 0x45, 0xde, 0xfd, 0x8e, 0x2f, 0x03, 0xff, 0x6a, 0x72, 0x6d, 0x6c, 0x5b, 0x51] ++
  [0x8d, 0x1b, 0xaf, 0x92, 0xbb, 0xdd, 0xbc, 0x7f, 0x11, 0xd9, 0x5c, 0x41, 0x1f, 0x10, 0x5a, 0xd8,
   0x0a, 0xc1, 0x31, 0x88, 0xa5, 0xcd, 0x7b, 0xbd, 0x2d, 0x74, 0xd0, 0x12, 0xb8, 0xe5, 0xb4, 0xb0,
   0x89, 0x69, 0x97, 0x4a, 0x0c, 0x96, 0x77, 0x7e, 0x65, 0xb9, 0xf1, 0x09, 0xc5, 0x6e, 0xc6, 0x84,
   0x18, 0xf0, 0x7d, 0xec, 0x3a, 0xdc, 0x4d, 0x20, 0x79, 0xee, 0x5f, 0x3e, 0xd7, 0xcb, 0x39, 0x48]

/-- The S-box on each byte of a word. -/
def sm4Tau (w : BitVec 32) : BitVec 32 := be32 ((bytes32 w).map fun b => BitVec.ofNat 8 ((sm4Sbox[b.toNat]?).getD 0))
/-- The mixing functions of the rounds and of the key schedule. -/
def sm4T (w : BitVec 32) : BitVec 32 :=
  let b := sm4Tau w
  b ^^^ b.rotateLeft 2 ^^^ b.rotateLeft 10 ^^^ b.rotateLeft 18 ^^^ b.rotateLeft 24
def sm4Tk (w : BitVec 32) : BitVec 32 :=
  let b := sm4Tau w
  b ^^^ b.rotateLeft 13 ^^^ b.rotateLeft 23
/-- Key constant i: bytes (4i + j) * 7. -/
def sm4Ck (i : Nat) : BitVec 32 := be32 ((upTo 4).map fun j => BitVec.ofNat 8 ((4 * i + j) * 7))

/-- One step of four words with a mixing function. -/
def sm4Step (f : BitVec 32 → BitVec 32) (x : List (BitVec 32)) (k : BitVec 32) : List (BitVec 32) :=
  x.drop 1 ++ [wordIn x 0 ^^^ f (wordIn x 1 ^^^ wordIn x 2 ^^^ wordIn x 3 ^^^ k)]
/-- The four words of 16 bytes. -/
def words4 (b : List Byte) : List (BitVec 32) := (upTo 4).map fun i => be32 (b.drop (4 * i))
/-- The 32 round keys of a key of 16 bytes. -/
def sm4Keys (key : List Byte) : List (BitVec 32) :=
  let k0 := (words4 key).zipWith (· ^^^ ·) [0xA3B1BAC6, 0x56AA3350, 0x677D9197, 0xB27022DC]
  ((upTo 32).foldl (fun (p : List (BitVec 32) × List (BitVec 32)) i =>
    let k := sm4Step sm4Tk p.1 (sm4Ck i)
    (k, p.2 ++ [wordIn k 3])) (k0, [])).2
/-- SM4 of 16 bytes under round keys; with the keys reversed it is the inverse. -/
def sm4 (rk : List (BitVec 32)) (b : List Byte) : List Byte := (rk.foldl (sm4Step sm4T) (words4 b)).reverse.flatMap bytes32

/-- SM4 block by block; what is left over of a block stays as it is. -/
def sm4Blocks (rk : List (BitVec 32)) (b : List Byte) : Nat → List Byte
  | 0 => b
  | n + 1 => sm4 rk (b.take 16) ++ sm4Blocks rk (b.drop 16) n
def sm4Enc (key b : List Byte) : List Byte := sm4Blocks (sm4Keys key) b (b.length / 16)
def sm4Dec (key b : List Byte) : List Byte := sm4Blocks (sm4Keys key).reverse b (b.length / 16)

end Sys2Proof.Machine
end

