-- ==== Sys2Proof/Machine/EvSched.lean ====
section
/-! DEFINITION. EvSched.lean: the scheduler, the distributor and the loader: queues, placement, the start and the end of threads,
the completion tree, images and instances, groups (R20, R27, R28, R56, R57, R89 to R96, R157 to R159, R186, R377 to R387, R448). -/
namespace Sys2Proof.Machine

/-! ### SCHEDULER_COMMAND (R377) -/

/-- A tenant's sealed entry for an image. -/
def State.sealedOf (s : State) (tenant : BitVec 16) (hash : BitVec 256) : Option Sealed :=
  s.store.find? fun e => e.tenant == tenant && e.hash == hash

/-- System cores queue a launch or a graph node, and the result word goes back to them; or they mark slots of a sealed entry frozen
(R158). -/
def State.schedCommand (s : State) (c : SchedCmd) : State :=
  match c with
  | .launch d => let (w, s) := s.accept sysIssuer d; s.tell (.result w)
  | .node g d =>
    let own := match s.sched.graphs.find? fun x => x.id == g with | some x => x.tenant | none => 0
    let (w, s) := s.newNode sysIssuer g own d
    s.tell (.result w)
  | .freeze t h l =>
    { s with store := s.store.map fun e => if e.tenant.toNat == t && e.hash == h then { e with frozen := l } else e }

/-- SCHEDULER_COMMAND. -/
def execSchedulerCommand (c : SchedCmd) (s : State) : Host.Outcome State Fault Refusal := .next (s.schedCommand c)

/-! ### Where a thread may be placed (R186, R383, R426) -/

/-- A core that the distributor may use. -/
def State.usable (s : State) (core : Nat) : Bool :=
  let k := s.core core
  decide (core < Config.cores) && decide (k.power = .awake) && !k.dead && !k.stopped && !k.held && !s.fenced core

/-- State 1 of R383: the pool is set to the word, a context is free, every resident launch is of the tenant. -/
def State.qualifies (s : State) (core : Nat) (part : Word) (tenant : BitVec 16) : Bool :=
  let k := s.core core
  s.usable core && k.part == some part && k.freeCtx.isSome && k.restorable.isNone && (!k.anyResident || k.tenant == tenant)
/-- State 2 of R383: no launch. -/
def State.vacant (s : State) (core : Nat) : Bool := s.usable core && !(s.core core).anyResident

/-- A test that both twins of a pair pass, for a paired launch (R426). -/
def twins (part : Word) (ok : Nat → Bool) (core : Nat) : Bool :=
  ok core && (!partPair part || (decide (coreX core < 64) && ok (core + 64)))

/-- Order of placement: lowest core number within the lowest cluster number. -/
def placeKey (core : Nat) : Nat := clusterOf core * 8192 + core

/-- The first core, in the order of placement, that passes a test, among the cores of the list. -/
def lowest (ok : Nat → Bool) (l : List Nat) : Option Nat :=
  (l.filter ok).foldl (fun acc c => match acc with
    | some b => if placeKey c < placeKey b then some c else some b
    | none => some c) none

/-- The awake core on which the next thread of a launch is placed. -/
def State.placeFor (s : State) (part : Word) (tenant : BitVec 16) : Option Nat :=
  let l := s.cores.map fun p => p.1
  match lowest (twins part fun c => s.qualifies c part tenant) l with
  | some c => some c
  | none => lowest (twins part s.vacant) l

/-- A cluster with a core that is not gated. -/
def State.clusterAwake (s : State) (cl : Nat) : Bool := s.cores.any fun p => clusterOf p.1 == cl && p.2.power != .gated

/-- The package power estimate of a wake stays within the limit (R383, R448): the spec does not say how it is made. -/
def State.powerOk (s : State) : Bool := decide ((Config.freeWord s.fresh).toNat % 2 ^ 32 ≤ s.sched.plimit)

/-- A core that the distributor may wake: a gated core of an awake cluster, or of a cluster that the heat lets it wake, within the power
limit (R383, R448, R449). -/
def State.wakeable (s : State) (core : Nat) : Bool :=
  let k := s.core core
  decide (core < Config.cores) && decide (k.power = .gated) && !k.dead && !s.fenced core &&
  !s.sched.disabled.contains (clusterOf core) &&
  (s.clusterAwake (clusterOf core) || !s.boot.wakeRefused.contains (dieOf core)) && s.powerOk

/-- Latency of waking a core, in ns: it is gated in an awake cluster, or with its cluster. -/
def State.wakeTime (s : State) (core : Nat) : Nat := if s.clusterAwake (clusterOf core) then 800 else 3000

/-- Mean lifetime of the threads that ended on a core within the last 1 ms; where none did, the spec states no mean (log entry 87). -/
def State.meanLife (s : State) (k : Core) : Nat :=
  let l := k.lived.filter fun p => decide (s.now ≤ p.1 + 1000000)
  if l.isEmpty then (Config.freeWord s.fresh).toNat % 2 ^ 32 else (l.map fun p => p.2).sum / l.length
/-- Age of a core's youngest running thread. -/
def State.youngest (s : State) (k : Core) : Nat :=
  (k.ctxs.filter fun p => p.2.run != .free).foldl (fun m p => min m (s.now - p.2.start)) s.now

/-- The expected wait for a context of a word and tenant (R383): the smallest over the cores that qualify; none where none does. -/
def State.expectedWait (s : State) (part : Word) (tenant : BitVec 16) : Option Nat :=
  let ok := twins part fun c => s.usable c && (s.core c).part == some part && (s.core c).anyResident && (s.core c).tenant == tenant
  (s.cores.filter fun p => ok p.1).foldl (fun acc p =>
    let w := s.meanLife p.2 - s.youngest p.2
    some (match acc with | some m => min m w | none => w)) none

/-- A core may be woken for a launch of a word and tenant: no awake core takes its thread, and the expected wait exceeds the latency. -/
def State.worthWaking (s : State) (part : Word) (tenant : BitVec 16) : Nat → Bool :=
  let w := s.expectedWait part tenant
  fun core => s.wakeable core && w.all fun n => decide (n > s.wakeTime core)

/-- Some number below n passes a test. -/
def anyBelow (p : Nat → Bool) : Nat → Bool
  | 0 => false
  | n + 1 => p n || anyBelow p n

/-! ### LAUNCH_START (R381) -/

/-- Key of a tenant's deficit at a level. -/
def defKey (t : BitVec 16) (level : Nat) : Nat := t.toNat * 8 + level
/-- A deficit after its quantum. -/
def quantum (d : Int) (w : Nat) : Int := min (d + w * 1000) (8 * w * 1000)

/-- A queue that is empty keeps no credit (R381). -/
def Sched.spent (q : Sched) (level : Nat) (t : BitVec 16) : Sched :=
  if q.queue.any fun x => x.level == level && x.tenant == t then q
  else { q with deficits := tset q.deficits (defKey t level) (min (tgetD q.deficits (defKey t level) 0) 0) }

/-- The launch at the head of a queue. -/
def Sched.head (q : Sched) (level : Nat) (t : BitVec 16) : Option QEnt := q.queue.find? fun e => e.level == level && e.tenant == t

/-- Tenants with a launch waiting at a level, in rising order, from after the one served last. -/
def Sched.round (q : Sched) (level : Nat) : List Nat :=
  let ts := (q.queue.filter fun e => e.level == level).foldl (fun (acc : Tab Unit) e => tset acc e.tenant.toNat ()) []
  let l := ts.map fun p => p.1
  match tget q.lastTenant level with
  | some t => l.filter (fun x => decide (x > t)) ++ l.filter fun x => decide (x ≤ t)
  | none => l

/-- A launch is rejected after its acceptance (R89, R378). -/
def State.reject (s : State) (l : Launch) : State :=
  let s := s.onLaunch l.id fun x => { x with st := .rejected, status := 0x04000008, cause := 1 }
  let s := s.onSched fun q => { q with finished := (q.finished ++ [l.id]).drop ((q.finished.length + 1) - 1024) }
  let s := s.mailbox (askerSched l.tenant l.id l.sup) (descW l.desc 4) (doneWord 0x04000008) s.nowW
  match l.node with
  | some (i, v) => (s.nodeEnded i v 0x04000008).requeue
  | none => s.requeue

/-- Start the launch at the head of a queue: a bad partition word rejects it; else its group of all threads exists. -/
def State.startHead (s : State) (level : Nat) (e : QEnt) : State :=
  let s := s.onSched fun q =>
    { q with queue := q.queue.erase e, lastTenant := tset q.lastTenant level e.tenant.toNat }.spent level e.tenant
  match s.launch e.launch with
  | none => s
  | some l =>
    if !partOk (descW l.desc 1) then s.reject l
    else
      let g : Group :=
        { launch := BitVec.ofNat 32 l.id, handle := 0, members := [], size := descNthr l.desc, arrived := [], count := 0
          joins := [], leaves := [] }
      ((s.onLaunch l.id fun x => { x with st := .running, level := level }).onSched fun q => { q with groups := q.groups ++ [g] }).requeue

/-- Visit tenants in turn until one's deficit is positive. -/
def State.visit (s : State) (level : Nat) : List Nat → State
  | [] => s
  | t :: rest =>
    let w := tgetD s.sched.weights t 1
    let key := defKey (BitVec.ofNat 16 t) level
    let d := quantum (tgetD s.sched.deficits key 0) w
    let s := s.onSched fun q => { q with deficits := tset q.deficits key d }
    if d > 0 then
      match s.sched.head level (BitVec.ofNat 16 t) with
      | some e => s.startHead level e
      | none => s
    else s.visit level rest

/-- The highest level with a launch waiting. -/
def Sched.top (q : Sched) : Nat := q.queue.foldl (fun m e => max m e.level) 0

/-- A launch whose next thread may start: it runs, its instance is filled (R158), and a core is there for it. -/
def State.startPlace (s : State) (launch : Nat) : Option (Launch × Nat) :=
  match s.launch launch with
  | none => none
  | some l =>
    if l.st = .running && l.filled && decide (l.next < descNthr l.desc) then
      (s.placeFor (descW l.desc 1) l.tenant).map fun c => (l, c)
    else none

/-- The distributor can place a thread of some launch that waits, the threads of launches that have started going first (R381, R382). -/
def State.canStart (s : State) : Bool :=
  (s.sched.launches.all fun p => (s.startPlace p.1).isNone) &&
  s.sched.queue.any fun e =>
    match s.launch e.launch with
    | some l =>
      let part := descW l.desc 1
      !partOk part || (s.placeFor part l.tenant).isSome || anyBelow (s.worthWaking part l.tenant) Config.cores
    | none => false

/-- One pass over the tenants of the highest level. -/
def State.launchStart (s : State) : State :=
  if !s.canStart then s else s.used.visit s.sched.top (s.sched.round s.sched.top)

/-- LAUNCH_START. -/
def execLaunchStart (s : State) : Host.Outcome State Fault Refusal := .next s.launchStart

/-! ### PRIORITY_AGING (R380), DEFICIT_CHARGE (R381) -/

/-- A launch that has waited 10 ms at its level moves up. -/
def State.agingDue (s : State) (e : QEnt) : Bool := decide (e.level < 7) && decide (e.since + 10000000 ≤ s.now)

/-- The launch goes to the tail of its tenant's queue at the next level. -/
def State.aging (s : State) (launch : Nat) : State :=
  match s.sched.queue.find? fun e => e.launch == launch && s.agingDue e with
  | none => s
  | some e =>
    (s.onLaunch launch fun l => { l with level := e.level + 1 }).onSched fun q =>
      { q with queue := q.queue.erase e ++ [{ e with level := e.level + 1, since := s.now }] }.spent e.level e.tenant

/-- PRIORITY_AGING. -/
def execPriorityAging (launch : Nat) (s : State) : Host.Outcome State Fault Refusal := .next (s.aging launch)

/-- One microsecond of every context that runs a thread. -/
def State.charge (s : State) : State :=
  let ds := s.cores.foldl (fun d p => p.2.ctxs.foldl (fun d c =>
    if c.2.run = .free then d
    else match s.launch c.2.launch.toNat with
      | some l => let key := defKey l.tenant l.level; tset d key (tgetD d key 0 - 1)
      | none => d) d) s.sched.deficits
  s.onSched fun q => { q with deficits := ds, lastCharge := q.lastCharge + 1000 }

/-- A microsecond has passed since the last charge. -/
def State.chargeDue (s : State) : Bool := decide (s.sched.lastCharge + 1000 ≤ s.now)

/-- DEFICIT_CHARGE. -/
def execDeficitCharge (s : State) : Host.Outcome State Fault Refusal := .next (if s.chargeDue then s.charge else s)

/-! ### CORE_GATE, CORE_WAKE (R383, R448) -/

/-- A core that has held no context for 20 us, and that has no work left. -/
def State.gateDue (s : State) (core : Nat) : Bool :=
  let k := s.core core
  decide (k.power = .awake) && k.ctxs.all (fun p => p.2.run = .free) && k.residents.isEmpty && k.copies.isEmpty &&
  (s.l1Cards core).isEmpty && decide (k.idleSince + 20000 ≤ s.now)

/-- CORE_GATE. -/
def execCoreGate (core : Nat) (s : State) : Host.Outcome State Fault Refusal :=
  .next (if s.gateDue core then s.onCore core fun k => { k with power := .gated } else s)

/-- Cores that are waking. -/
def State.waking (s : State) : Nat := (s.cores.filter fun p => match p.2.power with | .waking _ => true | _ => false).length

/-- A launch that runs, whose next thread finds no awake core, and for whose threads the cores that are waking have no room. -/
def State.wanting (s : State) : Option Launch :=
  (s.sched.launches.find? fun p =>
    p.2.st == .running && decide (s.waking * (8 * partCtx (descW p.2.desc 1)) < descNthr p.2.desc - p.2.next) &&
    (s.placeFor (descW p.2.desc 1) p.2.tenant).isNone).map fun p => p.2

/-- A wake begins, when a thread needs the core; or completes, when its latency has passed. How the cycle count of the core that wakes lies
against another's is not defined (R15): the alignment is a free value (log entry 76). -/
def State.wake (s : State) (core : Nat) : State :=
  match (s.core core).power with
  | .gated =>
    if s.wanting.any fun l => s.worthWaking (descW l.desc 1) l.tenant core then
      s.used.onCore core fun k => { k with power := .waking (s.now + s.wakeTime core) }
    else s
  | .waking t =>
    if t ≤ s.now then
      s.used.onCore core fun k => { k with power := .awake, idleSince := s.now, phase := (Config.freeWord s.fresh).toNat % 8 }
    else s
  | .awake => s

/-- CORE_WAKE. -/
def execCoreWake (core : Nat) (s : State) : Host.Outcome State Fault Refusal := .next (s.wake core)

/-! ### THREAD_START (R20, R27, R384) -/

/-- Word A of the launch window (R186). -/
def launchWin (part : Word) : Word := BitVec.ofNat 64 ((0xEFFF - partRegs part) * 65536 + 0x1F * 2 ^ 32)

/-- The distributor sets a core's pool: every full-empty bit full, handles idle, counters 0, window 0 (R20, R186, R266). The
bytes stay as earlier use left them. -/
def Core.setPool (k : Core) (part : Word) (tenant : BitVec 16) (launch : Nat) : Core :=
  { k with
    part := some part, tenant := tenant, empties := [], handles := [], counters := [], lines := []
    wins := tset (tset k.wins 0 (launchWin part)) 1 (BitVec.ofNat 64 launch) }

/-- A launch's next thread on a core: one more live thread of it. -/
def Core.settle (k : Core) (launch : BitVec 32) : Core :=
  let k := if k.isResident launch then k else
    { k with residents := k.residents ++ [{ launch := launch, live := 0, status := 0, left := [], done := false }] }
  { k.onResident launch fun r => { r with live := r.live + 1 } with wins := tset k.wins 1 (launch.setWidth 64) }

/-- The state of a newly started thread (R27): registers at reset, PC at the entry. -/
def startCtx (old : Ctx) (l : Launch) (now : Nat) : Ctx :=
  { Ctx.reset with
    run := .ready, inc := old.inc + 1, tid := BitVec.ofNat 32 l.next, nthr := BitVec.ofNat 32 (descNthr l.desc)
    launch := BitVec.ofNat 32 l.id, tenant := l.tenant, sup := l.sup, part := descW l.desc 1, start := now
    pc := descW l.desc 0, npc := descW l.desc 0, entry := true, nextTag := old.nextTag }

/-- Put the next thread of a launch on a core. -/
def State.startOn (s : State) (l : Launch) (core : Nat) : State :=
  let part := descW l.desc 1
  let fresh := !(s.core core).anyResident
  let setup := fun (k : Core) => (if fresh then k.setPool part l.tenant l.id else k).settle (BitVec.ofNat 32 l.id)
  let s := s.onCore core setup
  let s := if partPair part then s.onCore (core + 64) setup else s
  match (s.core core).freeCtx with
  | none => s
  | some x =>
    let s := s.setCtx core x (startCtx (s.ctx core x) l s.now)
    let s := s.snapEmpty core
    s.onLaunch l.id fun y => { y with next := y.next + 1, cores := if y.cores.contains core then y.cores else y.cores ++ [core] }

/-- The next thread of a launch starts. -/
def State.threadStart (s : State) (launch : Nat) : State :=
  match s.startPlace launch with
  | some (l, core) => s.startOn l core
  | none => s

/-- THREAD_START. -/
def execThreadStart (launch : Nat) (s : State) : Host.Outcome State Fault Refusal := .next (s.threadStart launch)

/-! ### The completion tree (R28, R102) -/

/-- Stores of a launch's threads that a core has not had acknowledged. -/
def Core.storesOut (k : Core) (l : BitVec 32) : Bool := k.jnl.any fun p => p.2.st == .inFlight && p.2.launch == l

/-- The launch's threads on a core have exited, its stores are acknowledged, its merges too, and no thread of it is to come. -/
def State.coreDone (s : State) (core launch : Nat) : Bool :=
  match s.launch launch with
  | none => false
  | some l =>
    decide (l.next ≥ descNthr l.desc) && l.cores.contains core &&
    (s.core core).residents.any fun r => r.launch.toNat == launch && !r.done && r.live == 0 && r.left.isEmpty &&
      !(s.core core).storesOut r.launch && !s.mergesOut core launch &&
      (s.core core).copies.all fun o => o.who.launch != r.launch || (match o.op with | .sdrop .. => false | _ => true)

/-- Drop a launch from a core; the last one clears EN of window 0 (R186). -/
def Core.unsettle (k : Core) (launch : Nat) : Core :=
  let k := { k with residents := k.residents.filter fun r => r.launch.toNat != launch }
  if k.anyResident then k else { k with wins := tset k.wins 0 (k.win 0 &&& ~~~(1#64 <<< 36)) }

/-- Cores whose messages a parent combines: four to a parent, in the order in which they took their first thread. -/
def childrenOf (cores : List Nat) (i : Nat) : List Nat := ((upTo 4).filterMap fun j => cores[4 * i + 1 + j]?)

/-- The launch is over: the root writes the mailbox (R28, R378). -/
def State.finishLaunch (s : State) (l : Launch) (status : BitVec 32) : State :=
  let s := s.onLaunch l.id fun x => { x with st := .done, status := status }
  let s := s.onSched fun q => { q with finished := (q.finished ++ [l.id]).drop ((q.finished.length + 1) - 1024) }
  let s := s.mailbox (askerSched l.tenant l.id l.sup) (descW l.desc 4) (doneWord status) s.nowW
  match l.node with
  | some (i, v) => (s.nodeEnded i v status).requeue
  | none => s.requeue

/-- A core whose own threads are done sends its word upward once all its children have been heard. -/
def State.sendUp (s : State) (core launch : Nat) : State :=
  match s.launch launch, (s.core core).residents.find? fun r => r.launch.toNat == launch && r.done with
  | some l, some r =>
    let i := (l.cores.findIdx? (· == core)).getD 0
    let kids := childrenOf l.cores i
    let got := l.heard.filter fun h => h.1 == core
    if !kids.all fun c => got.any fun h => h.2.1 == c then s
    else
      let word := got.foldl (fun w h => combine w h.2.2) r.status
      let s := s.onCore core fun k => k.unsettle launch
      let s := if partPair (descW l.desc 1) then s.onCore (core + 64) fun k => k.unsettle launch else s
      if i = 0 then s.finishLaunch l word else s.send (.status launch core word)
  | _, _ => s

/-- A core is done with a launch. -/
def State.doneMessage (s : State) (core launch : Nat) : State :=
  if !s.coreDone core launch then s
  else (s.onCore core fun k => k.onResident (BitVec.ofNat 32 launch) fun r => { r with done := true }).sendUp core launch

/-- DONE_MESSAGE. -/
def execDoneMessage (core launch : Nat) (s : State) : Host.Outcome State Fault Refusal := .next (s.doneMessage core launch)

/-- A status word reaches the parent of the core that sent it. -/
def State.hearStatus (s : State) (launch core : Nat) (word : BitVec 32) : State :=
  match s.launch launch with
  | none => s
  | some l =>
    match l.cores.findIdx? (· == core) with
    | none => s
    | some i =>
      let parent := (l.cores[(i - 1) / 4]?).getD 0
      (s.onLaunch launch fun x => { x with heard := x.heard ++ [(parent, core, word)] }).sendUp parent launch

/-- COMPLETION_COMBINE. -/
def execCompletionCombine (i : Nat) (s : State) : Host.Outcome State Fault Refusal :=
  .next (match s.chan[i]? with
    | some { body := .status l c w, .. } => (s.unsend i).hearStatus l c w
    | _ => s)

/-- GRAPH_NODE_COMPLETE (R386). -/
def execGraphNodeComplete (inst node : Nat) (s : State) : Host.Outcome State Fault Refusal := .next (s.nodeComplete inst node)

/-! ### The loader (R56, R57, R157 to R159) -/

/-- The loader, which writes a tenant's memory through its mapping, whatever the mapping permits. -/
def askerLoader (tenant : BitVec 16) : Asker := { agent := .sys 0, tenant := tenant, launch := 0, sup := true, regions := 0 }

/-- Write bytes of a tenant's memory; what is not mapped is not written. -/
def State.loadByte (s : State) (tenant : BitVec 16) (va : Word) (b : Byte) : State :=
  match s.translate (askerLoader tenant) .probe va with
  | (.ok x, s) => (s.writeXl tenant x (atByte (fld va 5 0) b.toNat) (byteMask (fld va 5 0) 1)).mailWake
  | (.error _, s) => s
/-- Write a list of bytes from an address on. -/
def State.loadBytes (s : State) (tenant : BitVec 16) (va : Word) : List Byte → State
  | [] => s
  | b :: t => (s.loadByte tenant va b).loadBytes tenant (ptrAdd va 1) t
/-- An image's bytes as a number of n bytes from an offset. -/
def imgN (im : List Byte) (off n : Nat) : Nat := ofBytes ((im.drop off).take n)

/-- A section of an image. -/
structure Section where
  kind  : Nat
  align : Nat
  off   : Nat
  size  : Nat
  vaoff : Nat
deriving DecidableEq, Repr

/-- Section i of an image (R57). -/
def imgSection (im : List Byte) (i : Nat) : Section :=
  let o := 64 + 32 * i
  { kind := imgN im o 1, align := imgN im (o + 4) 4, off := imgN im (o + 8) 8, size := imgN im (o + 16) 8, vaoff := imgN im (o + 24) 8 }

/-- Two ranges share a byte. -/
def meet (a n b m : Nat) : Bool := decide (a < b + m) && decide (b < a + n)
/-- Some two of a list do not agree with a relation. -/
def anyPair {α : Type} (bad : α → α → Bool) : List α → Bool
  | [] => false
  | x :: t => t.any (bad x) || anyPair bad t

/-- The image keeps R56 and R57, but for its hash. -/
def imgOk (im : List Byte) : Bool :=
  let n := imgN im 6 2
  let secs := (upTo n).map (imgSection im)
  imgN im 0 4 == 0x01584F52 && imgN im 4 2 == 1 && decide (1 ≤ n ∧ n ≤ 6) && imgN im 16 8 % 0x200000 == 0 && imgN im 24 8 == 0 &&
  (upTo n).all (fun i => imgN im (64 + 32 * i + 1) 3 == 0) &&
  secs.all (fun q => decide (1 ≤ q.kind ∧ q.kind ≤ 6) && decide (q.off + q.size ≤ im.length)) && noDup (secs.map fun q => q.kind) &&
  !anyPair (fun (a b : Section) => meet a.off a.size b.off b.size || meet a.vaoff a.size b.vaoff b.size) secs

/-- The image's SM3 hash, taken with its own field zero, is what the field says (R56). -/
def hashOk (im : List Byte) : Bool := sm3 (im.take 32 ++ List.replicate 32 0 ++ im.drop 64) == (im.drop 32).take 32

/-- Permissions of a section's pages: .text and .rodata are mapped read-only (R57), and so is the instance (R157). -/
def pageFlags (kind : Nat) : Nat := match kind with | 1 => 0x1B | 3 | 4 => 0x13 | _ => 0x17
/-- The 4-KiB pages of a section at an image base. -/
def Section.pages (base : Nat) (q : Section) : List Nat :=
  let a := base + q.vaoff
  if q.size = 0 then [] else (upTo ((a + q.size - 1) / 4096 + 1 - a / 4096)).map (a / 4096 + ·)
/-- The pages of all sections, with their permissions; a page that two sections share has both. -/
def imagePages (base : Nat) (secs : List Section) : List (Nat × Nat) :=
  secs.foldl (fun l q => (q.pages base).foldl (fun l p => tset l p (tgetD l p 0 ||| pageFlags q.kind)) l) []

/-- A frame cleared for a tenant, in band 0. -/
def State.clearFrame (s : State) (tenant : BitVec 16) (f : Nat) : State :=
  let s := (upTo 64).foldl (fun s i => s.putLine tenant (4096 * f + 64 * i) 0 (BitVec.allOnes 64)) s
  { s with mem := { s.mem with bands := s.mem.bands.filter fun b => b.1 / 128 != f } }

/-- An entry that points to a table. -/
def ptePtr (p : Word) : Bool := pteV p && !pteR p && !pteW p && !pteX p && fld p 63 54 == 0 && !pteU p && !pteA p && !pteD p
/-- Map a page with an entry, from a table of a level down; missing tables take their frames from the list. -/
def State.mapPage (va : Nat) (leaf : Word) : Nat → State → Nat → List Nat → Option (State × List Nat)
  | 0, s, _, fr => some (s, fr)
  | n + 1, s, table, fr =>
    let pa := table * 4096 + 8 * (va / 2 ^ (12 + 9 * n) % 512)
    let put := fun (s : State) (p : Word) => s.putLine 0 (pa / 64 * 64) (atByte (pa % 64) p.toNat) (byteMask (pa % 64) 8)
    let (l, s) := s.readPhys 0 (pa / 64 * 64)
    let p : Word := BitVec.ofNat 64 (fromByte l (pa % 64) 8)
    if n = 0 then some (put s leaf, fr)
    else if ptePtr p then State.mapPage va leaf n s (ptePpn p) fr
    else match fr with
      | [] => none
      | f :: fr => State.mapPage va leaf n (put (s.clearFrame 0 f) (BitVec.ofNat 64 (1024 * f + 1))) f fr
/-- Map pages for a tenant, each to a cleared frame of the list. -/
def State.mapPages (tenant : BitVec 16) (root : Nat) : List (Nat × Nat) → State → List Nat → Option (State × List Nat)
  | [], s, fr => some (s, fr)
  | (p, fl) :: t, s, fr =>
    match fr with
    | [] => none
    | f :: fr =>
      match State.mapPage (4096 * p) (BitVec.ofNat 64 (1024 * f + fl)) 5 (s.clearFrame tenant f) root fr with
      | none => none
      | some (s, fr) => State.mapPages tenant root t s fr
/-- No page of a range is mapped, nor its tables unreadable (R55). -/
def State.unmapped (s : State) (root : Nat) (pages : List (Nat × Nat)) : Bool :=
  pages.all fun p => match (s.walk (4096 * p.1) 5 root).1 with | .absent => true | _ => false

/-- The image mapped for its tenant, or none where the loader refuses it (R55 to R57). -/
def State.imageMap (s : State) (t : BitVec 16) (im : List Byte) (frames : List Nat) : Option State :=
  let pages := imagePages (imgN im 16 8) ((upTo (imgN im 6 2)).map (imgSection im))
  if !(imgOk im && hashOk im && frames.all fun f => (physStop (4096 * f)).isSome) then none
  else match tget s.mem.roots t.toNat with
    | none => none
    | some root => if s.unmapped (root.toNat / 4096) pages then (State.mapPages t (root.toNat / 4096) pages s frames).map (·.1) else none

/-- The record of a loaded image. -/
def imageRec (t : BitVec 16) (im : List Byte) : Image :=
  let secs := (upTo (imgN im 6 2)).map (imgSection im)
  let of' := fun k => secs.find? fun q => q.kind == k
  let at' := fun (q : Option Section) => match q with | some q => BitVec.ofNat 64 (imgN im 16 8 + q.vaoff) | none => 0
  { tenant := t, hash := BitVec.ofNat 256 (imgN im 32 32), entry := BitVec.ofNat 64 (imgN im 8 8), text := at' (of' 1), xinst := at' (of' 4)
    xbytes := match of' 4 with | some q => (im.drop q.off).take q.size | none => [] }

/-- Load an image for a tenant: its sections are mapped and go to their places, and its instance is known. -/
def State.imageLoad (s : State) (tenant : Nat) (im : List Byte) (frames : List Nat) : State :=
  let t := BitVec.ofNat 16 tenant
  match s.imageMap t im frames with
  | none => s.tell (.imageRefused tenant)
  | some s =>
    let secs := (upTo (imgN im 6 2)).map (imgSection im)
    let s := secs.foldl (fun s q => s.loadBytes t (BitVec.ofNat 64 (imgN im 16 8 + q.vaoff)) ((im.drop q.off).take q.size)) s
    let i := imageRec t im
    { s with images := s.images.filter (fun y => !(y.tenant == t && y.xinst == i.xinst)) ++ [i] }

/-- IMAGE_LOAD. -/
def execImageLoad (tenant : Nat) (image : ImageFile) (s : State) : Host.Outcome State Fault Refusal :=
  .next (s.imageLoad tenant image.bytes image.frames)

/-- A tenant's keys, as bytes (R159). -/
def keyBytes (t : BitVec 16) : List Byte := toBytes 16 (Config.tenantKey t).toNat
def macBytes (t : BitVec 16) : List Byte := toBytes 32 (Config.tenantMacKey t).toNat

/-- Seal slots for a tenant: SM4, then an SM3 HMAC (R159). -/
def sealSlots (t : BitVec 16) (hash : BitVec 256) (slots : List Byte) (frozen : List Nat) : Sealed :=
  let d := sm4Enc (keyBytes t) slots
  { tenant := t, hash := hash, data := d, mac := hmacSm3 (macBytes t) d, frozen := frozen }
/-- A sealed entry keeps its HMAC (R158). -/
def Sealed.good (e : Sealed) : Bool := hmacSm3 (macBytes e.tenant) e.data == e.mac
/-- The slots of a sealed entry. -/
def Sealed.open' (e : Sealed) : List Byte := sm4Dec (keyBytes e.tenant) e.data

/-- Set FROZEN, bit 9 of word 0, in the slots that system software has marked (R158). -/
def freezeSlots (l : List Byte) (frozen : List Nat) : List Byte :=
  l.mapIdx fun i b => if i % 16 = 1 && frozen.contains (i / 16) then b ||| 2 else b

/-- What fills an instance, and whether a sealed entry failed its check (R158). -/
def instSlots (frzx : Bool) (seeds : List Byte) : Option Sealed → List Byte × Bool
  | none => (seeds, false)
  | some e => if frzx then (seeds, false) else if e.good then (e.open', false) else (seeds, true)

/-- Fill a launch's instance before its first thread (R158). -/
def State.fillInstance (s : State) (launch : Nat) : State :=
  match s.launch launch with
  | none => s
  | some l =>
    if l.filled then s
    else
      match s.imageOf l.tenant (descW l.desc 3) with
      | none => s.onLaunch launch fun x => { x with filled := true }
      | some i =>
        let kept := s.sealedOf l.tenant i.hash
        let (slots, bad) := instSlots (partFrzx (descW l.desc 1)) i.xbytes kept
        let s := s.onLaunch launch fun x => { x with filled := true, inst := some (freezeSlots slots (kept.elim [] Sealed.frozen)) }
        if bad then s.tell (.hmacFailed launch) else s

/-- INSTANCE_FILL. -/
def execInstanceFill (launch : Nat) (s : State) : Host.Outcome State Fault Refusal := .next (s.fillInstance launch)

/-- The launch's instance waits to be sealed. -/
def State.sealDue (s : State) (launch : Nat) : Bool :=
  match s.launch launch with
  | some l => l.st == .done && !l.sealed' && descW l.desc 3 != 0
  | none => false

/-- Seal a launch's instance after its end (R159): the whole entry is replaced; the marks of system software stay. -/
def State.sealInstance (s : State) (launch : Nat) : State :=
  match s.launch launch with
  | none => s
  | some l =>
    if !s.sealDue launch then s
    else
      let s := s.onLaunch launch fun x => { x with sealed' := true }
      match s.imageOf l.tenant (descW l.desc 3) with
      | none => s
      | some i =>
        if partFrzx (descW l.desc 1) then s
        else
          let e := sealSlots l.tenant i.hash (l.inst.getD []) ((s.sealedOf l.tenant i.hash).elim [] Sealed.frozen)
          { s with store := s.store.filter (fun y => !(y.tenant == l.tenant && y.hash == i.hash)) ++ [e] }

/-- INSTANCE_SEAL. -/
def execInstanceSeal (launch : Nat) (s : State) : Host.Outcome State Fault Refusal := .next (s.sealInstance launch)

/-! ### Groups at their slices (R93 to R96, R99) -/

/-- Cluster whose slice holds a group (R93). -/
def State.slice (s : State) (launch handle : BitVec 32) : Nat :=
  if handle = 0 then
    match s.launch launch.toNat with | some l => clusterOf (l.cores.headD 0) | none => 0
  else handle.toNat * 0x9E3779B1 % 2 ^ 32 / 2 ^ 23

/-- Groups that a slice holds. -/
def State.sliceLoad (s : State) (cl : Nat) : Nat := (s.sched.groups.filter fun g => s.slice g.launch g.handle == cl).length

/-- Replace a group, or drop it when it has no members (R95). -/
def State.setGroup (s : State) (g : Group) : State :=
  let isIt := fun (x : Group) => x.launch == g.launch && x.handle == g.handle
  s.onSched fun q => { q with
    groups := if (g.handle == 0 && g.size == 0) || (g.handle != 0 && g.members.isEmpty) then q.groups.filter fun x => !isIt x
      else q.groups.map fun x => if isIt x = true then g else x }

/-- Members of a group (R93). -/
def Group.total (g : Group) : Nat := if g.handle = 0 then g.size else g.members.length

/-- A word as the reply to a thread's request. -/
def wordTo (w : Who) (tag : Nat) (v : Word) : Body := .reply { ackTo w tag with data := v.setWidth 512 }

/-- Apply the joins held for a completion, in their order of arrival: each takes the next rank. -/
def applyJoins (g : Group) : List (Who × Nat) → Group × List Body
  | [] => (g, [])
  | (w, tag) :: t =>
    let (h, l) := applyJoins { g with members := g.members ++ [w] } t
    (h, wordTo w tag (BitVec.ofNat 64 g.members.length) :: l)

/-- A barrier completes (R95): leaves, then joins, then releases; the next barrier opens. -/
def State.completeGroup (s : State) (g : Group) : State :=
  let left := g.leaves.map fun p => p.1
  let acks := g.leaves.filterMap fun p => p.2.map fun tag => Body.reply (ackTo p.1 tag)
  let rel := (g.arrived.filter fun w => !left.contains w).map fun w => Body.release w g.handle
  let h := { g with members := g.members.filter (fun w => !left.contains w), size := g.size - left.length
                    arrived := [], count := 0, leaves := [], joins := [] }
  let (h, joined) := applyJoins h g.joins
  (s.setGroup h).sendAll (acks ++ joined ++ rel)

/-- Complete the barrier when every member has arrived. -/
def State.settleGroup (s : State) (g : Group) : State :=
  if g.count != 0 && g.count == g.total then s.completeGroup g else s.setGroup g

/-- A JOIN at its slice. -/
def State.joinAt (s : State) (w : Who) (launch handle : BitVec 32) (tag : Nat) : State :=
  match s.group launch handle with
  | none =>
    if s.sliceLoad (s.slice launch handle) ≥ 256 then s.send (wordTo w tag (BitVec.allOnes 64))
    else
      let g : Group :=
        { launch := launch, handle := handle, members := [w], size := 0, arrived := [], count := 0, joins := [], leaves := [] }
      (s.onSched fun q => { q with groups := q.groups ++ [g] }).send (wordTo w tag 0)
  | some g =>
    if g.count = 0 then
      (s.setGroup { g with members := g.members ++ [w] }).send (wordTo w tag (BitVec.ofNat 64 g.members.length))
    else s.setGroup { g with joins := g.joins ++ [(w, tag)] }

/-- A LEAVE at its slice: during a barrier it counts as an arrival, once for each member, and takes effect at the completion. The LEAVE of an
ending thread whose JOIN is still held, or whose own LEAVE is pending, counts as one arrival like any other, and the held JOIN is applied
after it: no rule speaks of it (log entry 80). -/
def State.leaveAt (s : State) (w : Who) (launch handle : BitVec 32) (tag : Option Nat) : State :=
  match s.group launch handle with
  | none => (match tag with | some t => s.send (.reply (ackTo w t)) | none => s)
  | some g =>
    if g.count = 0 then
      let s := s.setGroup { g with members := g.members.filter (· != w), size := g.size - 1 }
      match tag with | some t => s.send (.reply (ackTo w t)) | none => s
    else s.settleGroup { g with leaves := g.leaves ++ [(w, tag)], count := if g.arrived.contains w then g.count else g.count + 1 }

/-- An earlier JOIN of the thread to the group is still on its way to the slice (R97). -/
def State.joinFirst (s : State) (w : Who) (handle : BitVec 32) : Bool :=
  s.chan.any fun m => match m.body with | .group v _ h true _ => v == w && h == handle | _ => false

/-- The slice lies in a cluster that is fenced off (R435). -/
def State.sliceFenced (s : State) (launch handle : BitVec 32) : Bool := s.rel.contained.contains (s.slice launch handle)

/-- GROUP_REQUEST_ARRIVE. -/
def execGroupRequestArrive (i : Nat) (s : State) : Host.Outcome State Fault Refusal :=
  .next (match s.chan[i]? with
    | some { body := .group w l h join tag, .. } =>
      if s.sliceFenced l h then
        (match tag with
         | some t => (s.unsend i).send (.reply { ackTo w t with fault := some { kind := 7, absent := false, addr := h.setWidth 64 } })
         | none => s.unsend i)
      else if join then (s.unsend i).joinAt w l h (tag.getD 0)
      else if s.joinFirst w h then s
      else (s.unsend i).leaveAt w l h tag
    | _ => s)

/-- An arrival at a barrier (R95); an ending thread of the launch's own group leaves it (R96). -/
def State.arriveAtSlice (s : State) (w : Who) (launch handle : BitVec 32) (leave : Bool) : State :=
  if leave then s.leaveAt w launch handle none
  else
    match s.group launch handle with
    | none => s
    | some g => s.settleGroup { g with arrived := g.arrived ++ [w], count := g.count + 1 }

/-- A thread parked on a group whose slice is fenced off takes LOAD_FAULT of kind REFUSED at its group instruction (R435). -/
def State.groupRefused (s : State) (w : Who) (handle : BitVec 32) : State :=
  match (s.ctx w.core w.ctx).run with
  | .parked .group (.barrier h) _ _ =>
    if s.live w && h == handle then
      let s := { s with me := (w.core, w.ctx), took := none }
      (s.onCx fun c => (c.onH handle fun e => { e with arrived := false })).loadFault 7 (handle.setWidth 64)
    else s
  | _ => s

/-- BARRIER_ARRIVAL. -/
def execBarrierArrival (i : Nat) (s : State) : Host.Outcome State Fault Refusal :=
  .next (match s.chan[i]? with
    | some { body := .arrive w l h leave, .. } =>
      if s.sliceFenced l h then (s.unsend i).groupRefused w h
      else
      -- the end of a thread counts after its own earlier arrival
      if leave && (s.chan.any fun m => match m.body with | .arrive v _ g false => v == w && g == h | _ => false) then s
      else (s.unsend i).arriveAtSlice w l h leave
    | _ => s)

/-- A release comes to a thread: its barrier is over, and so is the one that its GARRIVE recorded (R113). -/
def Ctx.released (c : Ctx) (handle : BitVec 32) : Ctx :=
  c.onH handle fun e => { e with arrived := false, waitFor := if e.waitFor = some false then some true else e.waitFor }

/-- The context waits for the release of a PHASE on a handle. -/
def Ctx.inPhase (c : Ctx) (handle : BitVec 32) : Bool :=
  match c.run with | .parked _ _ (.phaseDone h) _ => h == handle | _ => false

/-- Deliver a release to a live or a saved thread; the release of a PHASE brings its step 3 with it (R101). -/
def State.releaseTo (s : State) (w : Who) (handle : BitVec 32) : State :=
  match s.thread w with
  | none => s.strayAt w.core
  | some c =>
    let s := if s.live w then s.onCtx w.core w.ctx fun c => c.released handle else s.putSaved w (c.released handle)
    if c.inPhase handle then s.phaseDone w.core c else s

/-- GROUP_RELEASE. -/
def execGroupRelease (i : Nat) (s : State) : Host.Outcome State Fault Refusal :=
  .next (match s.chan[i]? with
    | some { body := .release w h, born } => if s.isStale { body := .release w h, born } then s.discard i else (s.unsend i).releaseTo w h
    | _ => s)

end Sys2Proof.Machine
end

