-- ==== Sys2Proof/Machine/EvEngine.lean ====
section
/-! DEFINITION. EvEngine.lean: the copy unit and the carders: kicks accepted, copies, circular buffers, deals, streams, gathers
(R219 to R221, R265 to R291, R294 to R296). A step of an operation is performed whole (log entry 17). -/
namespace Sys2Proof.Machine

/-! ### An operation's accesses -/

/-- A step of an engine's operation: who makes it, under which tag, and the first final fault met (R290). -/
structure EX where
  s    : State
  a    : Asker
  tag  : Nat
  lane : Option Nat
  f    : Option RFault
  /-- the latest access that was skipped met poison (R436) -/
  pois : Bool
deriving DecidableEq, Repr

/-- Why a step does not finish: an absent page to wait for, or something not ready. -/
abbrev Stalled := Option RFault

/-- The access that an engine's step holds until its page is mapped (R290, R320). -/
def State.heldFor (s : State) (a : Asker) (tag : Nat) (lane : Option Nat) : Option Held :=
  s.parked.find? fun h => h.req.who.agent == a.agent && h.req.tag == tag && h.req.lane == lane && h.req.op == .pref
/-- The step waits for a page. -/
def State.pageWait (s : State) (a : Asker) (tag : Nat) (lane : Option Nat) : Bool := (s.heldFor a tag lane).any fun h => h.answer.isNone
/-- Drop what a step held. -/
def State.unhold (s : State) (a : Asker) (tag : Nat) (lane : Option Nat) : State :=
  { s with parked := s.parked.filter fun h =>
      !(h.req.who.agent == a.agent && h.req.tag == tag && h.req.lane == lane && h.req.op == .pref) }
/-- Hold a step for the page of an address, and tell system software. -/
def State.holdFor (s : State) (a : Asker) (tag : Nat) (lane : Option Nat) (f : RFault) : State :=
  let s := s.unhold a tag lane
  let h : Held :=
    { req := { who := a, place := .glob f.addr, op := .pref, tag := tag, lane := lane }, page := fld f.addr 56 12, answer := none }
  let s : State := { s with parked := s.parked ++ [h] }
  s.tell (.pageFault a.tenant.toNat (fld f.addr 56 12))

/-- Take one access of a step: its line, or none where the access is skipped for a final fault. A second failure after the page
was answered is final with kind 1. -/
def EX.get (x : EX) (v : Served) : Except Stalled (Option Line × EX) :=
  match v with
  | .done l s => .ok (some l, { x with s := s, pois := false })
  | .hold s => .ok (some 0, { x with s := s, pois := false })
  | .wait => .error none
  | .fail f s =>
    if !f.absent then .ok (none, { x with s := s, f := x.f.or (some f), pois := decide (f.kind = 5) })
    else match x.s.heldFor x.a x.tag x.lane with
    | some h =>
      if h.page = fld f.addr 56 12 && h.answer.isSome then
        .ok (none, { x with s := s, f := x.f.or (some { kind := 1, absent := false, addr := f.addr }), pois := false })
      else .error (some f)
    | none => .error (some f)

/-- Note a final fault of the operation. -/
def EX.fault (x : EX) (kind : BitVec 8) (addr : Word) : EX := { x with f := x.f.or (some { kind := kind, absent := false, addr := addr }) }

/-- Load n bytes of one line. -/
def EX.load (x : EX) (pl : Place) (n : Nat) : Except Stalled (Option Line × EX) := x.get (x.s.eLoad x.a pl n)
/-- Store masked bytes of one line through the engine's store buffer. -/
def EX.store (x : EX) (pl : Place) (d : Line) (m : BitVec 64) : Except Stalled (Bool × EX) := do
  let (r, x) ← x.get (x.s.eBuf x.a.agent x.a pl d m)
  return (r.isSome, x)

/-- Perform a step that only loads, unless it waits for a page; a step that does not finish changes nothing. -/
def State.engineRead (s : State) (a : Asker) (tag : Nat) (lane : Option Nat) (k : EX → Except Stalled EX) (fin : State → Option RFault → State) :
    State :=
  if s.pageWait a tag lane then s
  else
    match k { s := s, a := a, tag := tag, lane := lane, f := none, pois := false } with
    | .ok x => fin (x.s.unhold a tag lane) x.f
    | .error (some f) => s.holdFor a tag lane f
    | .error none => s

/-- One store of a step leaves its buffer for its home and is acknowledged (R208). -/
def State.engineDrain (s : State) (a : Asker) (b : EBuf) : State :=
  match b.ents with
  | [] => s
  | e :: t =>
    s.engineRead a b.tag b.lane (fun x => do
      let (_, x) ← x.get (x.s.eStore e.who e.pl e.data e.mask)
      return x) fun s f => s.setEbuf { b with ents := t, fault := b.fault.or f }

/-- A step of an engine's operation: its loads are served and its stores pass into the engine's buffer, when no other step has stores there;
they leave one by one; and when all are acknowledged the step reports (R220, R221). A full buffer drains its oldest entries meanwhile. -/
def State.engineStep (s : State) (a : Asker) (tag : Nat) (lane : Option Nat) (k : EX → Except Stalled EX) (fin : State → Option RFault → State) :
    State :=
  match s.ebuf a.agent with
  | some b =>
    if b.tag != tag || b.lane != lane then s
    else if b.ents.isEmpty then (if s.mem.fwds.isEmpty then fin (s.dropEbuf a.agent) b.fault else s)
    else s.engineDrain a b
  | none =>
    s.engineRead a tag lane (fun x => k { x with s := x.s.setEbuf (EBuf.open' a.agent tag lane) }) fun s f =>
      match s.ebuf a.agent with
      | some b => if b.ents.isEmpty then fin (s.dropEbuf a.agent) f else s.setEbuf { b with fault := f }
      | none => fin s f

/-- The engines of a core start work (R364, R408, R435): not held by a stop, unless they run with a step. -/
def State.engineOn (s : State) (core : Nat) : Bool :=
  let k := s.core core
  (!k.held || s.dbg.stepEngines.isSome) && !k.stopped && !k.dead && !s.fenced core
/-- The engine of a level above L1 starts work: no stop in force halts it, no switch has stopped its cluster. -/
def State.unitOn (s : State) (lvl unit : Nat) : Bool :=
  let halts := fun (d : DStop) => match lvl with
    | 2 => inScope d.scope d.core (coreOfCluster unit 0)
    | 3 => decide (d.scope ≥ 2) && inScope d.scope d.core (coreOfDie unit 0)
    | _ => d.scope == 3
  (s.dbg.stepEngines.isSome || !s.dbg.stops.any halts || (lvl == 4 && decide (unit > 0))) &&
  (lvl != 2 || !s.rel.contained.contains unit) && !s.unitStopped lvl unit

/-! ### Bytes at any alignment (R285) -/

/-- The pieces of n bytes from an address on, none crossing a line: offset from the start, and bytes. -/
def pieces (start n : Nat) : Nat → Nat → List (Nat × Nat)
  | 0, _ => []
  | fuel + 1, off =>
    if off ≥ n then [] else
      let len := min (n - off) (64 - (start + off) % 64)
      (off, len) :: pieces start n fuel (off + len)

/-- The pieces of n bytes. -/
def piecesOf (ea : Word) (n : Nat) : List (Nat × Nat) := pieces (ea.toNat % 64) n (n / 64 + 2) 0

/-- Load bytes piece by piece; a byte of a piece that is skipped is none. -/
def EX.loadBytes (x : EX) (core : Nat) (m : Mode) (ea : Word) : List (Nat × Nat) → List (Option Nat) → Except Stalled (List (Option Nat) × EX)
  | [], acc => .ok (acc, x)
  | (off, len) :: t, acc => do
    let va := modeAdd m ea off
    let was := x.pois
    let (l, x) ← x.load (enginePlace core m va) len
    let x := { x with pois := was || x.pois }
    let bs := match l with
      | some l => (upTo len).map fun i => some (lineByte l (va.toNat % 64 + i)).toNat
      | none => List.replicate len none
    x.loadBytes core m ea t (acc ++ bs)

/-- Data and mask of the bytes that are there, from byte off of a line on. -/
def packBytes (off : Nat) (l : List (Option Nat)) : Line × BitVec 64 :=
  (l.mapIdx fun i b => (i, b)).foldl (fun p q => match q.2 with
    | some b => (p.1 ||| atByte (off + q.1) b, p.2 ||| byteMask (off + q.1) 1)
    | none => p) (0, 0)

/-- Store bytes piece by piece. -/
def EX.storeBytes (x : EX) (core : Nat) (m : Mode) (ea : Word) (bs : List (Option Nat)) : List (Nat × Nat) → Except Stalled EX
  | [] => .ok x
  | (off, len) :: t => do
    let va := modeAdd m ea off
    let (d, mask) := packBytes (va.toNat % 64) ((bs.drop off).take len)
    let (_, x) ← if mask = 0 then .ok (true, x) else x.store (enginePlace core m va) d mask
    x.storeBytes core m ea bs t

/-! ### Tensor entries (R294 to R296) -/

def entFmt (e : Line) : Nat := fld (word64 e 0) 7 0
def entEf (e : Line) : Nat := fld (word64 e 0) 11 8
def entMode (e : Line) : Mode := modeOf ((word64 e 0).extractLsb' 14 2)
def entBg (e : Line) : Nat := fld (word64 e 0) 63 32
def entBase (e : Line) : Word := word64 e 1
def entLo (e : Line) : Nat := fld (word64 e 2) 31 0
def entHi (e : Line) : Nat := fld (word64 e 2) 63 32
def entW3 (e : Line) : Nat := fld (word64 e 3) 31 0
def entRs (e : Line) : Nat := fld (word64 e 2) 47 32

/-- Bytes of an element that is no block element. -/
def efBytes (ef : Nat) : Nat := match ef with | 0 | 7 => 4 | 1 | 2 => 2 | _ => 1
/-- What the row bytes must be a multiple of (R296). -/
def rowUnit (ef : Nat) : Nat := match ef with | 3 => 18 | 4 => 34 | 5 => 66 | _ => efBytes ef

/-- The entry keeps R295 and R296. -/
def entOk (e : Line) : Bool :=
  let w0 := word64 e 0
  fld w0 31 16 == 0 && fld w0 13 12 == 0 && decide (entEf e ≤ 7) && (entBase e).toNat % 64 == 0 &&
  word64 e 4 == 0 && word64 e 5 == 0 && word64 e 6 == 0 && word64 e 7 == 0 &&
  (match entFmt e with
   | 1 => decide (entEf e ≤ 5) && decide (1 ≤ entLo e) && decide (1 ≤ entHi e) && decide (1 ≤ entW3 e) && fld (word64 e 3) 63 32 == 0
   | 2 => decide (4 ≤ entRs e) && entRs e % rowUnit (entEf e) == 0 && fld (word64 e 2) 63 48 == 0 && word64 e 3 == 0
   | 3 => decide (entEf e ≤ 5) && fld (word64 e 2) 63 32 == 0 && fld (word64 e 3) 63 32 == 0
   | 4 => decide (entEf e ≤ 5) && fld (word64 e 2) 63 32 == 0 && word64 e 3 == 0
   | _ => false)

/-- The base, in its mode, keeps R181. -/
def entBaseOk (e : Line) : Bool := eaClean (entMode e) (entBase e)

/-- Address of a launch's tensor entry; without a table, as though it stood at 0. -/
def State.entryVa (s : State) (launch tid : Nat) : Word := (s.tensorVa launch tid).getD (BitVec.ofNat 64 (64 * tid))

/-! ### Operations of the copy unit -/

/-- An operation of a core. -/
def Core.copy (k : Core) (op : Nat) : Option COp := k.copies.find? fun o => o.id == op
/-- Change an operation. -/
def State.onCopy (s : State) (core op : Nat) (f : COp → COp) : State :=
  s.onCore core fun k => { k with copies := k.copies.map fun o => if o.id = op then f o else o }
/-- An operation is over. -/
def State.endCopy (s : State) (core op : Nat) : State := s.onCore core fun k => { k with copies := k.copies.filter fun o => o.id != op }

/-- Record an operation's first final fault in a handle that holds none (R290). -/
def Core.handleRec (k : Core) (h : HReg) (f : Option RFault) : Core := k.onHandle h fun x => { x with fault := x.fault.or f }
/-- A counter rises by one, with the operation's fault when it holds none (R290). -/
def Core.raiseCounter (k : Core) (r : KReg) (f : Option RFault) : Core := k.onCounter r fun x => { n := x.n + 1, fault := x.fault.or f }

/-- All bytes of a line. -/
def allBytes : BitVec 64 := BitVec.ofNat 64 (2 ^ 64 - 1)

/-- Poison the line of a destination that an engine fills from poison (R436), where it may store. -/
def State.ePoison (s : State) (a : Asker) (pl : Place) : State :=
  match pl with
  | .pool c off w _ =>
    if (s.poolCheck c (off / 64 * 64) 64 w a .w).isSome then s
    else s.onCore c fun k => { k with ppoison := (upTo 8).map (fun i => off / 64 * 8 + i) ++ k.ppoison.filter fun n => n / 8 != off / 64 }
  | .glob va =>
    (match s.gCheck a .store false false va allBytes with
     | (.ok x, s) => { s with mem := { s.mem with poison := (x.pa / 64 * 64) :: s.mem.poison.filter (· != x.pa / 64 * 64) } }
     | (.error _, _) => s)
  | _ => s

/-- Place of an operand slot's byte in operand memory. -/
def slotByte (a : Word) (n : Nat) : Nat := fld a 15 11 * 2048 + fld a 10 0 + n

/-- Load a 64-byte unit of a copy's source. -/
def State.kindLoad (s : State) (a : Asker) (core : Nat) (k : CKind) (addr : Word) (n : Nat) : Served :=
  match ckMode k with
  | some m => s.eLoad a (enginePlace core m (modeAdd m addr n)) 64
  | none =>
    let k := s.core core
    if k.opoison.contains (slotByte addr n / 64) then .fail { kind := 5, absent := false, addr := addr } (s.consumePoison a)
    else .done (rdLine k.opmem (slotByte addr n)) s

/-- Store a 64-byte unit of a copy's destination; a slot that a card names waits (R271). -/
def State.kindStore (s : State) (a : Asker) (core : Nat) (k : CKind) (addr : Word) (n : Nat) (d : Line) : Served :=
  match ckMode k with
  | some m => s.eBuf a.agent a (enginePlace core m (modeAdd m addr n)) d allBytes
  | none =>
    if s.slotBusy core (fld addr 15 11) then .wait
    else .done 0 (s.onCore core fun q => q.opPut (slotByte addr n) d)

/-- Poison a 64-byte unit of a copy's destination. -/
def State.kindPoison (s : State) (a : Asker) (core : Nat) (k : CKind) (addr : Word) (n : Nat) : State :=
  match ckMode k with
  | some m => s.ePoison a (enginePlace core m (modeAdd m addr n))
  | none =>
    if s.slotBusy core (fld addr 15 11) then s
    else s.onCore core fun q => { q with opoison := (slotByte addr n / 64) :: q.opoison.filter (· != slotByte addr n / 64) }

/-- Copy n units of 64 bytes from byte off on. -/
def EX.copyUnits (x : EX) (core : Nat) (src : Nat → State → Served) (dst : Nat → Line → State → Served)
    (bad : Nat → State → State) : Nat → Nat → Except Stalled EX
  | 0, _ => .ok x
  | n + 1, off => do
    let (l, x) ← x.get (src off x.s)
    match l with
    | none =>
      let x := if x.pois then { x with s := bad off x.s } else x
      x.copyUnits core src dst bad n (off + 64)
    | some l =>
      let (_, x) ← x.get (dst off l x.s)
      x.copyUnits core src dst bad n (off + 64)

/-- The handle of a copy, once every chunk has been handled: BUSY 0. -/
def State.copyOver (s : State) (core op chunks : Nat) (h : HReg) (done : Word) : State :=
  if fld done 63 0 % 2 ^ chunks = 2 ^ chunks - 1 then (s.onCore core fun k => k.onHandle h fun x => { x with busy := false }).endCopy core op
  else s

/-! ### CHUNK_COMPLETE (R269, R271) -/

/-- One chunk of a copy: every byte applied, then its bit. A chunk with a fault keeps its bit clear. -/
def State.chunkStep (s : State) (core op chunk : Nat) : State :=
  match (s.core core).copy op with
  | some { op := .cpy dk sk h a b n, who := w, done := done, fault := old, .. } =>
    if dk = .cb || chunk ≥ chunksOf n || done.getLsbD chunk || !s.engineOn core then s
    else
      s.engineStep w op (some chunk) (fun x =>
          x.copyUnits core (fun off s => s.kindLoad w core sk b off) (fun off l s => s.kindStore w core dk a off l)
            (fun off s => s.kindPoison w core dk a off) (min 512 (n - 512 * chunk) / 64) (512 * chunk)) fun s f =>
        let done := done ||| (1#64 <<< chunk)
        let s := s.onCore core fun k => k.handleRec h (if old.isNone then f else none)
        let s := s.onCopy core op fun o => { o with done := done, fault := o.fault.or f }
        let s := if f.isNone then s.onCore core fun k => k.onHandle h fun x => { x with bits := x.bits ||| (1#64 <<< chunk) } else s
        s.copyOver core op (chunksOf n) h done
  | _ => s

/-- CHUNK_COMPLETE. -/
def execChunkComplete (core op chunk : Nat) (s : State) : Host.Outcome State Fault Refusal := .next (s.chunkStep core op chunk)

/-! ### CB_STAGE_WRITE (R270) -/

/-- Bits of the chunks that the bytes below n fill, of a copy of len bytes. -/
def chunksWithin (len n : Nat) : Nat := if n ≥ len then chunksOf len else n / 512

/-- One stage of a copy into a circular buffer. `done` marks chunks with a fault. -/
def State.stageStep (s : State) (core op : Nat) : State :=
  match (s.core core).copy op with
  | some { op := .cpy .cb sk h a b n, who := w, done := bad, stages := st, fault := old, .. } =>
    let cb := fld a 2 0
    let q := (s.core core).cb cb
    if q.free = 0 || q.lost || q.size = 0 || !s.engineOn core then s
    else
      let base := q.stage q.pidx
      s.engineStep w op none (fun x =>
          x.copyUnits core (fun off s => s.kindLoad w core sk b (st * q.size + off))
            (fun off l s => s.eBuf w.agent w (.pool core (base + off) true (BitVec.ofNat 64 (base + off))) l allBytes)
            (fun off s => s.ePoison w (.pool core (base + off) true 0)) (q.size / 64) 0) fun s f =>
        let s := s.onCore core fun k => (k.onCb cb fun q =>
          { q with free := q.free - 1, filled := q.filled + 1, pidx := (q.pidx + 1) % q.count }).handleRec h (if old.isNone then f else none)
        let last := (st + 1) * q.size
        let hit := (upTo (chunksOf n)).filter fun c => decide (512 * c < last) && decide (st * q.size < 512 * (c + 1))
        let bad := if f.isSome then hit.foldl (fun m c => m ||| (1#64 <<< c)) bad else bad
        let full : Word := BitVec.ofNat 64 (2 ^ chunksWithin n last - 1) &&& ~~~bad
        let s := s.onCopy core op fun o => { o with done := bad, stages := st + 1, fault := o.fault.or f }
        let s := s.onCore core fun k => k.onHandle h fun x => { x with bits := x.bits ||| full }
        if last ≥ n then (s.onCore core fun k => k.onHandle h fun x => { x with busy := false }).endCopy core op else s
  | _ => s

/-- CB_STAGE_WRITE. -/
def execCbStageWrite (core op : Nat) (s : State) : Host.Outcome State Fault Refusal := .next (s.stageStep core op)

/-! ### DEAL_COMPLETE (R274) -/

/-- Core of an index in the scope of a deal. -/
def dealCore (die : Bool) (core i : Nat) : Nat := if die then coreOfDie (dieOf core) i else coreOfCluster (clusterOf core) i

/-- Where 64-byte unit u of a deal goes: core and offset. -/
def dealUnit (die : Bool) (core : Nat) (pat off : Word) (u : Nat) : Nat × Nat :=
  let blk := fld pat 15 0
  let cnt := fld pat 63 48
  let i := 64 * u / blk
  (dealCore die core ((fld pat 31 16 + i % cnt * fld pat 47 32) % dealSize die), fld off 15 0 + i / cnt * blk + 64 * u % blk)

/-- Store a 64-byte unit of a deal at a pool offset of any alignment: what lies in each of the two lines is one access. -/
def State.dealStore (s : State) (a : Asker) (c o : Nat) (l : Line) : Served :=
  let ea := fun n => BitVec.ofNat 64 (c * 65536 + n)
  let r := o % 64
  if r = 0 then s.eBuf a.agent a (.pool c o true (ea o)) l allBytes
  else
    let up := fun s => s.eBuf a.agent a (.pool c (o + 64 - r) true (ea (o + 64 - r))) (l >>> (8 * (64 - r))) (byteMask 0 r)
    match s.eBuf a.agent a (.pool c o true (ea o)) (l <<< (8 * r)) (byteMask r (64 - r)) with
    | .done _ s => up s
    | .fail f s => (match up s with | .done _ s => .fail f s | .fail _ s => .fail f s | v => v)
    | v => v
/-- The words of such a unit poisoned. -/
def State.dealPoison (s : State) (a : Asker) (c o : Nat) : State :=
  let ws := (upTo ((o + 63) / 8 + 1 - o / 8)).map (o / 8 + ·)
  if (s.poolCheck c o 64 true a .w).isSome then s
  else s.onCore c fun k => { k with ppoison := ws ++ k.ppoison.filter fun n => !ws.contains n }

/-- A whole deal: its units, then its counter. -/
def State.dealStep (s : State) (core op : Nat) : State :=
  match (s.core core).copy op with
  | some { op := .deal die k a pat off total, who := w, .. } =>
    if !s.engineOn core then s
    else
      s.engineStep w op (some core) (fun x =>
          x.copyUnits core (fun n s => s.eLoad w (.glob (ptrAdd a n)) 64) (fun n l s =>
            let (c, o) := dealUnit die core pat off (n / 64)
            s.dealStore w c o l)
            (fun n s => let (c, o) := dealUnit die core pat off (n / 64); s.dealPoison w c o) (total / 64) 0) fun s f =>
        (s.onCore core fun q => q.raiseCounter k f).endCopy core op
  | _ => s

/-- DEAL_COMPLETE: core i mod 8,192, its operation i div 8,192. -/
def execDealComplete (i : Nat) (s : State) : Host.Outcome State Fault Refusal := .next (s.dealStep (i % 8192) (i / 8192))

/-! ### GATHER_COMPLETE (R284 to R287) -/

/-- Bytes of list entry j among the chunks that were read; none when its chunk was skipped. -/
def listEntry (chunks : List (Option Line)) (start size j : Nat) : Option Nat :=
  let at' := start % 64 + j * size
  match chunks[at' / 64]? with
  | some (some l) => some (fromByte l (at' % 64) size)
  | _ => none

/-- Read the index list, each aligned chunk once. -/
def EX.readList (x : EX) (core : Nat) (m : Mode) (ea : Word) : Nat → List (Option Line) → Except Stalled (List (Option Line) × EX)
  | 0, acc => .ok (acc, x)
  | n + 1, acc => do
    let va := modeAdd m (ea &&& ~~~63#64) (64 * acc.length)
    let (l, x) ← x.load (enginePlace core m va) 64
    x.readList core m ea n (acc ++ [l])

/-- Read-modify-write of n bytes of a line at their home, for a combine: it needs what an atomic needs. -/
def State.eComb (s : State) (a : Asker) (pl : Place) (n : Nat) (f : Nat → Nat) : Served :=
  match pl with
  | .pool c off w ea =>
    (match s.poolCheck c off n w a .sync with
     | some k => .fail { kind := k, absent := false, addr := ea } (s.logPort c a ea k)
     | none =>
       if (s.core c).poisoned off n then .fail { kind := 5, absent := false, addr := ea } ((s.logPort c a ea 5).consumePoison a)
       else
         let l := (s.core c).poolLine off
         let s := s.onCore c fun k => k.poolWrite (off / 64 * 64) (atByte (off % 64) (f (fromByte l (off % 64) n))) (byteMask (off % 64) n)
         .done l (s.firePool c a off n 3))
  | .glob va =>
    let off := fld va 5 0
    (match s.gCheck a .store false true va (byteMask off n) with
     | (.error e, s) => .fail (failAt va e) s
     | (.ok x, s) =>
       if s.replHeld x || !s.logRoom (x.pa / 64 * 64) then .wait
       else
         let (l, s) := s.readLead a.tenant x
         let s := s.writeXl a.tenant x (atByte off (f (fromByte l off n))) (byteMask off n)
         .done l (s.fireGlob a va n x.pa 3).mailWake)
  | _ => .wait

/-- Combine a value into an element (R286): the exact sum rounded once, an exact zero of opposite signs +0. -/
def combElem (f : Fmt) (y : Num) (old : Nat) : Nat := (finish f .rn (addNum .rn (toNum f old) y)).1

/-- Combine elements into a row. -/
def EX.combRow (x : EX) (core : Nat) (m : Mode) (row : Word) (f : Fmt) : List (Option Num) → Nat → Except Stalled EX
  | [], _ => .ok x
  | y :: t, off => do
    let sz := fmtBits' f / 8
    match y with
    | none => x.combRow core m row f t (off + sz)
    | some y =>
      let (_, x) ← x.get (x.s.eComb x.a (enginePlace core m (modeAdd m row off)) sz (combElem f y))
      x.combRow core m row f t (off + sz)

/-- Format of a combine. -/
def cmbFmt (c : BitVec 2) : Fmt := match c.toNat with | 1 => .f32 | 2 => .f16 | _ => .bf16

/-- Elements of a format among bytes. -/
def elemsOf (f : Fmt) : Nat → List (Option Nat) → List (Option Num)
  | 0, _ => []
  | n + 1, bs =>
    let sz := fmtBits' f / 8
    let one := (bs.take sz).foldr (fun b acc => match b, acc with | some b, some a => some (b + 256 * a) | _, _ => none) (some 0)
    one.map (toNum f) :: elemsOf f n (bs.drop sz)

/-- Bytes of the background element (R295). -/
def bgBytes (ef : Nat) : Nat := match ef with | 0 | 7 => 4 | 1 | 2 | 5 => 2 | _ => 1
/-- Background bytes of a row of an entry. -/
def bgRow (e : Line) (n : Nat) : List (Option Nat) :=
  (upTo n).map fun i => some (entBg e / 256 ^ (i % bgBytes (entEf e)) % 256)

/-- One list entry of a GET or PUT. -/
def EX.gatherRow (x : EX) (core : Nat) (put i64 : Bool) (pm : Mode) (cmb : BitVec 2) (e : Line) (rows : Word) (j idx : Nat) : Except Stalled EX := do
  let rs := entRs e
  let packed := modeAdd pm rows (j * rs)
  let none' := if i64 then idx == 0 else idx == 0xFFFFFFFF
  if none' then
    if put then return x else x.storeBytes core pm packed (bgRow e rs) (piecesOf packed rs)
  else if i64 && idx / 2 ^ 57 % 2 == 1 then return x.fault 4 (BitVec.ofNat 64 idx)
  else if !i64 && idx ≥ entLo e then return x.fault 6 (modeAdd (entMode e) (entBase e) (idx * rs))
  else
    let m := if i64 then .g else entMode e
    let row := if i64 then BitVec.ofNat 64 idx else modeAdd m (entBase e) (idx * rs)
    let (from', fm, to', tm) := if put then (packed, pm, row, m) else (row, m, packed, pm)
    let (bs, x) ← { x with pois := false }.loadBytes core fm from' (piecesOf from' rs) []
    let x := if x.pois then { x with s := (piecesOf to' rs).foldl (fun s p => s.ePoison x.a (enginePlace core tm (modeAdd tm to' p.1))) x.s } else x
    if put && cmb != 0 then
      let f := cmbFmt cmb
      x.combRow core m row f (elemsOf f (rs / (fmtBits' f / 8)) bs) 0
    else x.storeBytes core tm to' bs (piecesOf to' rs)

/-- All list entries, in list order. -/
def EX.gatherRows (x : EX) (core : Nat) (put i64 : Bool) (pm : Mode) (cmb : BitVec 2) (e : Line) (rows : Word) (entry : Nat → Option Nat) :
    Nat → Nat → Except Stalled EX
  | 0, _ => .ok x
  | n + 1, j =>
    match entry j with
    | none => x.gatherRows core put i64 pm cmb e rows entry n (j + 1)
    | some idx => do
      let x ← x.gatherRow core put i64 pm cmb e rows j idx
      x.gatherRows core put i64 pm cmb e rows entry n (j + 1)

/-- A whole GET or PUT, then its counter. -/
def State.gatherStep (s : State) (core op : Nat) : State :=
  match (s.core core).copy op with
  | some { op := .gather put i64 pm lm cmb _ k a b n, who := w, entry := e, .. } =>
    if !s.engineOn core then s
    else
      let size := if i64 then 8 else 4
      let chunks := if n = 0 then 0 else ((a.toNat % 64) + n * size + 63) / 64
      s.engineStep w op none (fun x => do
          let (ls, x) ← x.readList core lm a chunks []
          x.gatherRows core put i64 pm cmb e b (listEntry ls a.toNat size) n 0) fun s f =>
        (s.onCore core fun q => q.raiseCounter k f).endCopy core op
  | _ => s

/-- GATHER_COMPLETE. -/
def execGatherComplete (core op : Nat) (s : State) : Host.Outcome State Fault Refusal := .next (s.gatherStep core op)

/-! ### STREAM_STRIP_LOAD (R276), streams drained (R277, R278) -/

/-- Tag of the copy unit's work for a stream register. -/
def streamTag (x v : Nat) : Nat := 2 ^ 20 + x * 32 + v

/-- A read stream has a strip to load: fewer than four ahead, and one left. -/
def Stream.wants (st : Stream) : Bool := !st.wr && st.ready && decide (st.ahead.length < 4) && decide (st.next + st.ahead.length < st.total)

/-- Load the next strip of a read stream. -/
def State.stripStep (s : State) (core x v : Nat) : State :=
  let c := s.ctx core x
  match tget c.streams v with
  | none => s
  | some st =>
    if !st.wants || c.run = .free || !s.engineOn core then s
    else
      let a := (askerOf c (s.who core x)).engine (.copy core)
      let ea := modeAdd st.mode st.base (st.off (st.next + st.ahead.length))
      let put := fun (l : Option Line) (f : Option RFault) (s : State) =>
        s.onCtx core x fun c => { c with streams := tset c.streams v { st with ahead := st.ahead ++ [(l.getD 0, f)] } }
      if s.pageWait a (streamTag x v) none then s
      else
        match { s := s, a := a, tag := streamTag x v, lane := none, f := none, pois := false : EX }.load (enginePlace core st.mode ea) 64 with
        | .ok (l, y) => put l y.f (y.s.unhold a (streamTag x v) none)
        | .error (some f) => s.holdFor a (streamTag x v) none f
        | .error none => s

/-- STREAM_STRIP_LOAD. -/
def execStreamStripLoad (core ctx v : Nat) (s : State) : Host.Outcome State Fault Refusal := .next (s.stripStep core ctx v)

/-- Store masked bytes of one line at its home. -/
def EX.drain (x : EX) (pl : Place) (d : Line) (m : BitVec 64) : Except Stalled EX := do
  let (_, x) ← x.get (x.s.eStore x.a pl d m)
  return x

/-- Store strips that a write stream has pushed, and which leave the copy unit's buffer: offset, bytes, mask. -/
def EX.strips (x : EX) (core : Nat) (st : Stream) : List (Nat × Line × BitVec 64) → Except Stalled EX
  | [] => .ok x
  | (off, d, m) :: t => do
    let x ← if m = 0 then .ok x else x.drain (enginePlace core st.mode (modeAdd st.mode st.base off)) d m
    x.strips core st t

/-- The copy unit's buffer is full: the oldest strip of a stream leaves (R205, R277). -/
def State.streamDrain (s : State) (core x v : Nat) : State :=
  let c := s.ctx core x
  match tget c.streams v with
  | none => s
  | some st =>
    if !st.wr || !st.ready || st.out.isEmpty || s.bufUsed (.copy core) < 32 || !s.engineOn core then s
    else
      let a := (askerOf c (s.who core x)).engine (.copy core)
      s.engineRead a (streamTag x v) none (fun y => y.strips core st (st.out.take 1)) fun s f =>
        s.onCtx core x fun c => { c with streams := tset c.streams v { st with out := st.out.drop 1, fault := st.fault.or f } }

/-- The copy unit drains a strip of a stream whose thread has ended; its final faults have nobody to take them (R279, log entry 33). -/
def State.dropStep (s : State) (core op : Nat) : State :=
  match (s.core core).copy op with
  | some { op := .sdrop v st, who := a, .. } =>
    if !s.engineOn core then s
    else match (if st.ready then st.out else []) with
    | [] => s.endCopy core op
    | o :: rest =>
      s.engineRead a op none (fun x => x.strips core st [o]) fun s _ =>
        s.onCopy core op fun q => { q with op := .sdrop v { st with out := rest } }
  | _ => s

/-! ### FILL_NOTICE, STAGE_FREE_NOTICE (R282) -/

/-- A notice reaches its buffer: one that does not hold the matching role is dropped and counted; a fenced target refuses it. -/
def State.notice (s : State) (core cb role : Nat) (f : CBuf → CBuf) : State :=
  if s.fenced core then s
  else
    let q := (s.core core).cb cb
    if q.set && q.role == role then s.onCore core fun k => k.onCb cb f else s.strayAt core

/-- FILL_NOTICE. -/
def execFillNotice (i : Nat) (s : State) : Host.Outcome State Fault Refusal :=
  .next (match s.chan[i]? with
    | some { body := .fill core cb, .. } => if (s.core core).stopped then s else (s.unsend i).notice core cb 2 fun q => { q with filled := q.filled + 1 }
    | _ => s)

/-- STAGE_FREE_NOTICE. -/
def execStageFreeNotice (i : Nat) (s : State) : Host.Outcome State Fault Refusal :=
  .next (match s.chan[i]? with
    | some { body := .stageFree core cb, .. } => if (s.core core).stopped then s else (s.unsend i).notice core cb 3 fun q => { q with free := q.free + 1 }
    | _ => s)

/-! ### ENGINE_KICK_ACCEPT (R219, R291, R322) -/

/-- Cards that a level's queue holds (R322). -/
def queueCap : Nat → Nat
  | 1 => 8 | 2 => 64 | 3 => 256 | _ => 1024
/-- The unit of a level to which a core pushes. -/
def unitOf (lvl core : Nat) : Nat := match lvl with | 1 => core | 2 => clusterOf core | 3 => dieOf core | _ => 0

/-- A card as it joins a queue. -/
def newCard (id : Nat) (card : Line) (who : Asker) (origin : Nat) (parent : Option (Nat × Nat × Nat × Nat)) (part : Bool)
    (pairs : Option Nat) (at' : Nat := 0) : CardRec :=
  { id := id, card := card, who := who, origin := origin, parent := parent, accepted := false, ents := [], at' := at', part := part
    pairs := pairs, parityTries := 0, ring := [], slots := none, children := [], issued := false, ran := false, code := 0, sev := 0, path := 0
    funit := 0, prog := 0, satf := false, nanf := false }

/-- Put a card in a unit's queue, when there is room. -/
def State.pushCard (s : State) (lvl unit : Nat) (card : Line) (who : Asker) (origin : Nat) (parent : Option (Nat × Nat × Nat × Nat))
    (part : Bool) (pairs : Option Nat) (at' : Nat := 0) : Option State :=
  let u := s.unit lvl unit
  if u.queue.length ≥ queueCap lvl then none
  else some (s.onUnit lvl unit fun q => { q with queue := q.queue ++ [newCard q.next card who origin parent part pairs at'], next := q.next + 1 })

/-- Read a tensor entry for an operation being accepted: the entry, or the fault of its check. -/
def EX.entry (x : EX) (launch tid : Nat) (ok : Line → Bool) : Except Stalled (Option Line × EX) := do
  let va := x.s.entryVa launch tid
  let (l, x) ← x.load (.glob va) 64
  match l with
  | none => return (none, x)
  | some e => if entOk e && ok e && entBaseOk e then return (some e, x) else return (none, x.fault 8 va)

/-- Change a live or a saved thread. -/
def State.onThread (s : State) (w : Who) (g : Ctx → Ctx) : State :=
  if s.live w then s.onCtx w.core w.ctx g
  else match (s.core w.core).savedOf w with | some c => s.putSaved w (g c) | none => s
/-- Change the stream of a live or a saved thread. -/
def State.onStream (s : State) (w : Who) (v : Nat) (f : Stream → Stream) : State :=
  s.onThread w fun c => match tget c.streams v with | some st => { c with streams := tset c.streams v (f st) } | none => c

/-- An operation that the copy unit or a carder takes up. -/
def State.addCopy (s : State) (core : Nat) (a : Asker) (op : KOp) (e : Line) : State := s.onCore core fun k => k.addCopy core a op e

/-- Tag of a kick's own accesses. -/
def kickTag (w : Who) : Nat := 2 ^ 30 + w.ctx

/-- A gang switch has stopped the engine of a kick (R364). -/
def State.kickStopped (s : State) (core : Nat) : KOp → Bool
  | .card lvl _ => s.unitStopped (lvlNo lvl) (unitOf (lvlNo lvl) core)
  | .deal die .. => if die then false else s.unitStopped 2 (clusterOf core)
  | .cpy .. | .gather .. | .sarm _ | .sdrop .. => (s.core core).stopped
  | .launch _ | .glaunch .. | .gnodeNode .. | .gdone .. => false

/-- Accept the kick of message i: its operation is taken up and its acknowledgement sent. The scheduler, the copy unit, a carder or
a level's queue. A SDROP's acknowledgement comes once every strip has been stored. -/
def State.kickAccept (s : State) (i : Nat) : State :=
  match s.chan[i]? with
  | some { body := .req r, .. } =>
    (match r.op, r.who.thread? with
     | .kick k, some w =>
       if s.kickStopped w.core k then s else
       let core := w.core
       let a := r.who.engine (.copy core)
       let tag := kickTag w
       let ack := fun (s : State) => s.reply r 0 0 none
       let t := s.unsend i
       (match k with
        | .card lvl card =>
          let l := lvlNo lvl
          (match t.pushCard l (unitOf l core) card r.who core none false none with
           | some t => ack t
           | none => s)
        | .cpy .. => ack (t.addCopy core a k 0)
        | .deal die .. =>
          ack (t.addCopy core (r.who.engine (if die then .die (dieOf core) else .cluster (clusterOf core))) k 0)
        | .gather put i64 pm lm cmb tid c la b n =>
          s.engineRead a tag (some r.tag) (fun x => do
              let rsOk := fun e => entRs e % 4 == 0 && decide (4 ≤ entRs e) && decide (entRs e ≤ 4096)
              let (e, x) ← x.entry r.who.launch.toNat tid.toNat fun e => entFmt e == 2 && rsOk e
              let x := { x with s := x.s.unsend i }
              match e with
              | some e => return { x with s := x.s.addCopy core a (.gather put i64 pm lm cmb tid c la b n) e }
              | none => return { x with s := x.s.onCore core fun q => q.raiseCounter c x.f }) fun s _ => ack s
        | .sarm v =>
          (match (if s.live w then tget (s.ctx w.core w.ctx).streams v.toNat else
              ((s.core core).savedOf w).bind fun c => tget c.streams v.toNat) with
           | none => ack t
           | some st =>
             s.engineRead a tag (some r.tag) (fun x => do
                 let (e, x) ← x.entry r.who.launch.toNat st.tid.toNat fun e => entFmt e == 1 || entFmt e == 2
                 let f := x.f
                 return { x with s := (x.s.unsend i).onStream w v.toNat fun st =>
                   match e with
                   | some e => { st with ready := true, mode := entMode e, base := entBase e }
                   | none => { st with ready := true, n0 := 0, fault := f } }) fun s _ => ack s)
        | .sdrop v st =>
          -- one strip a step; a refused one is reported at the register's next SDROP (R290)
          (match (if st.ready then st.out else []) with
           | [] => ack t
           | o :: rest =>
             s.engineRead a tag (some r.tag) (fun x => x.strips core st [o]) fun s f =>
               let s := { s with chan := s.chan.mapIdx fun j m => if j = i then { m with body := .req { r with op := .kick (.sdrop v { st with out := rest }) } } else m }
               match f with
               | some f => s.onThread w fun c => if (tget c.dropRec v.toNat).isNone then { c with dropRec := tset c.dropRec v.toNat f } else c
               | none => s)
        | k => (match t.schedKick r.who k with
          | some v => (v.answer r).getD s
          | none => s))
     | _, _ => s)
  | _ => s

/-- The message is a kick. -/
def Body.isKick : Body → Bool
  | .req r => (match r.op with | .kick _ => true | _ => false)
  | _ => false

/-- ENGINE_KICK_ACCEPT. -/
def execEngineKickAccept (i : Nat) (s : State) : Host.Outcome State Fault Refusal :=
  .next (s.kickAccept i)

end Sys2Proof.Machine
end

