-- ==== Sys2Proof/Machine/Cards.lean ====
section
/-! DEFINITION. Cards.lean: what a card says: its fields, units and nest order, the checks made when a level accepts it, its split
among children, and the values of a unit (R73, R74, R295 to R317, R344, R345). -/
namespace Sys2Proof.Machine

/-! ### Fields (R298, R299) -/

def cardDelta (c : Line) : Nat := fld (word32 c 0) 31 28
def cardOfmt (c : Line) : Nat := fld (word32 c 0) 27 24
def cardACC (c : Line) : Bool := (word32 c 0).getLsbD 13
def cardTA (c : Line) : Bool := (word32 c 0).getLsbD 12
def cardSK (c : Line) : Bool := (word32 c 0).getLsbD 11
def cardRow0 (c : Line) : Nat := cardW c 7
def cardCol0 (c : Line) : Nat := cardW c 8
def cardB0 (c : Line) : Nat := fld (word32 c 9) 31 16
def cardK0 (c : Line) : Nat := fld (word32 c 9) 15 0
def cardStg (c : Line) : Nat := fld (word32 c 10) 31 16
def cardStgn (c : Line) : Nat := fld (word32 c 11) 31 16
def cardVr (c : Line) : Nat := fld (word32 c 10) 5 0
def cardVc (c : Line) : Nat := fld (word32 c 11) 5 0
def cardPath (c : Line) : Nat := fld (word32 c 14) 31 14

/-- Dimensions of loop words (R299). -/
def dimM : Nat := 1
def dimN : Nat := 2
def dimK : Nat := 3
def dimB : Nat := 4
def dimG : Nat := 5

/-- GEMM and GEMMT; with SPMM the opcodes that an L2 unit stages (R317). -/
def isGemm (c : Line) : Bool := cardOp c == 1 || cardOp c == 2
/-- Opcodes that apply the whole epilogue (R307). -/
def hasEpi (c : Line) : Bool := isGemm c || cardOp c == 9 || cardOp c == 4
def isFence (c : Line) : Bool := cardOp c == 0x0E
def isCollective (c : Line) : Bool := decide (0x0B ≤ cardOp c ∧ cardOp c ≤ 0x0D)
/-- The epilogue adds a bias (R307). -/
def hasBias (c : Line) : Bool := hasEpi c && (cardEpi c) % 2 == 1
/-- A step of the sequencer computes the one or two N units of a grid tile of D: D's tiles are of BX4 (R297). -/
def paired (c : Line) : Bool := cardOfmt c == 3 && !cardAR c && cardOp c != 0x0A
/-- Steps along N. -/
def nSteps (c : Line) : Nat :=
  if paired c then (cardCol0 c + cardExt c dimN + 1) / 2 - cardCol0 c / 2 else cardExt c dimN
/-- First N unit of step t along N, and the end of its units when t is the number before it. -/
def nAt (c : Line) (t : Nat) : Nat :=
  if paired c then min (cardExt c dimN) (2 * (cardCol0 c / 2 + t) - cardCol0 c) else t
/-- N units of step t along N. -/
def stepUnits (c : Line) (t : Nat) : List Nat := (upTo (nAt c (t + 1) - nAt c t)).map fun j => nAt c t + j
/-- Column of D's grid tile at which N unit n begins. -/
def startCol (c : Line) (n : Nat) : Nat := if paired c then (cardCol0 c + n) % 2 * 32 else 0

/-- The loops of some dimensions in nest order, outermost first: dimension and extent; N counts steps of the sequencer. -/
def nest (c : Line) (dims : List Nat) : List (Nat × Nat) :=
  (upTo 8).flatMap fun o => ((upTo 5).map (loopW c)).filterMap fun l =>
    if l.2.2 = o && dims.contains l.1 then some (l.1, if l.1 = dimN then nSteps c else l.2.1) else none
/-- Product of the extents. -/
def extents (ls : List (Nat × Nat)) : Nat := ls.foldl (fun p l => p * l.2) 1
/-- Index of a dimension in number i of a nest. -/
def idxIn (ls : List (Nat × Nat)) (dim i : Nat) : Nat :=
  (ls.reverse.foldl (fun (p : Nat × Nat) l => (p.1 / l.2, if l.1 = dim then p.1 % l.2 else p.2)) (i, 0)).2

/-- Steps of a card's M, N and B loops. -/
def cardUnits (c : Line) : Nat := extents (nest c [dimM, dimN, dimB])
/-- Units of the steps before step i. -/
def unitsBefore (c : Line) (i : Nat) : Nat :=
  if paired c then (upTo i).foldl (fun n j => n + (stepUnits c (idxIn (nest c [dimM, dimN, dimB]) dimN j)).length) 0 else i
/-- Valid rows of M unit m, valid columns of N unit n (R306). -/
def validRows (c : Line) (m : Nat) : Nat := if m + 1 = cardExt c dimM then cardVr c else 32
def validCols (c : Line) (n : Nat) : Nat := if n + 1 = cardExt c dimN then cardVc c else 32

/-! ### The checks of acceptance (R302, R308 to R311) -/

/-- Units in a grid row of a TILED entry (R297, R311). -/
def unitsRow (e : Line) : Nat := match entEf e with | 1 | 2 | 5 => entHi e / 2 | 3 => 2 * entHi e | _ => entHi e

/-- Which format an operand must have: 0 not needed; else the FMT of R295. Operand 0 A, 1 B, 2 C, 3 D. -/
def operandFmt (c : Line) (i : Nat) : Nat :=
  let op := cardOp c
  match i with
  | 0 => if cardSL c then 0 else if op = 9 then 3 else if op = 0x0A then 2 else 1
  | 1 => if cardSL c then 0 else match op with | 1 | 2 | 3 | 0x0A => 1 | 9 => 2 | _ => 0
  | 2 => if op = 0x0A then 4 else if hasBias c then 2 else 0
  | _ => if cardAR c then 0 else if op = 0x0A then 2 else 1

/-- The operand field names a tensor entry; slots, a tile, a group and a stochastic step are none (R298, R311, R312). -/
def operandNamed (c : Line) (i : Nat) : Bool :=
  cardTid c i != 0xFF && !(i ≤ 1 && cardSL c) && !(i == 3 && cardAR c) && !(i == 2 && (isCollective c || cardOp c == 8))

/-- TENSOR: a needed entry is missing, a named one is invalid or of another format. -/
def tensorBad (c : Line) (ents : List Line) : Bool :=
  (upTo 4).any fun i =>
    let f := operandFmt c i
    let e := (ents[i]?).getD 0
    if operandNamed c i then !(entOk e && entBaseOk e) || (f != 0 && entFmt e != f) else f != 0

/-- A unit (b, i, n) of a TILED entry lies inside, for all units below the given ends. -/
def tiledHas (e : Line) (b i n : Nat) : Bool := decide (b ≤ entW3 e) && decide (i ≤ entLo e) && decide (n ≤ unitsRow e)
/-- A grid tile lies inside, for all tiles below the given ends. -/
def gridHas (e : Line) (b i j : Nat) : Bool := decide (b ≤ entW3 e) && decide (i ≤ entLo e) && decide (j ≤ entHi e)

/-- BOUNDS: some unit, step, batch or group falls outside its tensor. -/
def boundsBad (c : Line) (ents : List Line) : Bool :=
  let e := fun i => (ents[i]?).getD 0
  let b := cardB0 c + cardExt c dimB
  let m := cardRow0 c + cardExt c dimM
  let n := cardCol0 c + cardExt c dimN
  let k := cardK0 c + cardExt c dimK
  let cols := 32 * (n - 1) + cardVc c
  let d := cardAR c || tiledHas (e 3) b m n
  let bias := !hasBias c || (decide (1 ≤ entLo (e 2)) && decide (4 * cols ≤ entRs (e 2)))
  let ab := fun (f : Line → Bool) (i : Nat) => cardSL c || f (e i)
  !(match cardOp c with
    | 1 | 2 =>
      ab (fun x => if cardTA c then gridHas x b k m else gridHas x b m k) 0 &&
      ab (fun x => if cardOp c = 1 then gridHas x b n k else gridHas x b k n) 1 && d && bias
    | 3 => ab (fun x => tiledHas x b m n) 0 && ab (fun x => tiledHas x b m n) 1 && d
    | 5 => ab (fun x => tiledHas x k m n) 0 && d
    | 6 => ab (fun x => tiledHas x b n m) 0 && d
    | 4 | 7 | 8 => ab (fun x => tiledHas x b m n) 0 && d && bias
    | 9 => decide (m ≤ entLo (e 0)) && decide (entW3 (e 0) ≤ entLo (e 1)) && decide (64 * n ≤ entRs (e 1)) && d && bias
    | 0x0A =>
      decide (cardB0 c + cardExt c dimG ≤ entLo (e 2)) && decide (n ≤ entLo (e 1)) && decide (k ≤ entHi (e 1)) &&
      decide (16 * k ≤ entRs (e 0) / efBytes (entEf (e 0))) && decide (32 * (n - 1) < entRs (e 3) / efBytes (entEf (e 3)))
    | _ => true)

/-- Formats of the array's operands (R308). -/
def arrayFmt (f : Nat) : Bool := decide (1 ≤ f ∧ f ≤ 5)

/-- FORMAT: the formats do not fit the opcode, or OFMT is not D's. -/
def formatBad (c : Line) (ents : List Line) : Bool :=
  let ef := fun i => entEf ((ents[i]?).getD 0)
  let a := if cardSL c then cardSfmt c else ef 0
  let b := if cardSL c then cardSfmt c else ef 1
  let o := cardOfmt c
  let even := o != 3 || cardAR c || !(isGemm c || cardOp c == 9) || (cardCol0 c % 2 == 0 && cardExt c dimN % 2 == 0)
  -- a slot holds one tile: a whole unit, or the pair of units of BX4, for the opcodes that work unit by unit
  let whole := !cardSL c || a == 3 || a == 4
  let bias := !hasBias c || ef 2 == 0
  !((cardAR c || o == ef 3) && even && bias &&
    (match cardOp c with
     | 1 | 2 => arrayFmt a && a == b && decide (o ≤ 5)
     | 3 => whole && decide (cardEpi c % 8 ≤ 4) && decide (a ≤ 5) && decide (b ≤ 5) && decide (o ≤ 5)
     | 8 => whole && decide (a ≤ 5) && decide (3 ≤ o ∧ o ≤ 5)
     | 4 | 5 | 6 | 7 => whole && decide (a ≤ 5) && decide (o ≤ 5)
     | 9 => !cardSL c && (a == 1 || a == 2) && a == b && decide (o ≤ 5)
     | 0x0A => !cardSL c && !cardAR c && (b == 1 || b == 2) && (a == b || a == 0) && decide (o ≤ 2)
     | 0x0B | 0x0D => a == o || ((a == 1 || a == 2) && o == 0)
     | 0x0C => a == o
     | _ => true))

/-! ### Eligible children (R314) -/

/-- A core may run cards of a launch. -/
def State.cardCore (s : State) (launch : BitVec 32) (core : Nat) : Bool :=
  let k := s.core core
  k.isResident launch && !k.dead && !s.fenced core && (match k.part with | some p => decide (partAcc p ≥ 2) | none => false)
/-- A cluster with an eligible core. -/
def State.cardCluster (s : State) (launch : BitVec 32) (cl : Nat) : Bool := (upTo 16).any fun i => s.cardCore launch (coreOfCluster cl i)
/-- The fabric group over which an L5 card that is no collective is split: the spec names no field for it, and the model takes the
lowest-numbered group of the launch's tenant that this device is a member of (log entry 83). -/
def State.cardGroup (s : State) (launch : BitVec 32) : Option Nat :=
  (upTo 256).find? fun g => fgOk (s.fgroup g) (s.launchTenant launch.toNat) && decide (fgRank (s.fgroup g) < fgSize (s.fgroup g))
/-- The eligible children of a unit, in order. The children of the fabric engine are the package engines of the members of a group, by
rank: unit 0 of L4 is this device's own, unit 1 + r that of the member of rank r. -/
def State.eligible (s : State) (launch : BitVec 32) (lvl unit : Nat) : List Nat :=
  match lvl with
  | 2 => ((upTo 16).map (coreOfCluster unit)).filter (s.cardCore launch)
  | 3 => ((upTo 32).map fun i => unit * 32 + i).filter (s.cardCluster launch)
  | 4 => if unit > 0 then [0] else (upTo 16).filter fun d => (upTo 32).any fun i => s.cardCluster launch (d * 32 + i)
  | 5 => match s.cardGroup launch with
    | some g => (upTo (fgSize (s.fgroup g))).map fun r => if r = fgRank (s.fgroup g) then 0 else 1 + r
    | none => [0]
  | _ => []

/-- M extent of D of a collective card, of P members (R344). -/
def collRows (c : Line) (p : Nat) : Nat :=
  match cardOp c with | 0x0C => p * cardExt c dimM | 0x0D => cardExt c dimM / p | _ => cardExt c dimM
/-- The units of a collective card lie inside A and D. -/
def collBounds (c : Line) (ents : List Line) (p : Nat) : Bool :=
  let n := cardCol0 c + cardExt c dimN
  !tiledHas ((ents[0]?).getD 0) 1 (cardRow0 c + cardExt c dimM) n || !tiledHas ((ents[3]?).getD 0) 1 (cardRow0 c + collRows c p) n

/-- The code of a SEV 4 rejection, 0 for none (R302): in the order of the codes. -/
def State.cardReject (s : State) (lvl unit : Nat) (who : Asker) (c : Line) (ents : List Line) : Nat :=
  let p := fgSize (s.fgroup (cardTid c 2))
  if isFence c then 0
  else if tensorBad c ents then 1
  else if (if isCollective c then collBounds c ents p else boundsBad c ents) then 2
  else if formatBad c ents || (cardOp c == 0x0D && cardExt c dimM % p != 0) then 3
  else if lvl ≥ 2 && !isCollective c && (s.eligible who.launch lvl unit).isEmpty then 4
  else if isCollective c && !(fgOk (s.fgroup (cardTid c 2)) who.tenant && decide (fgRank (s.fgroup (cardTid c 2)) < fgSize (s.fgroup (cardTid c 2)))) then 5
  else 0

/-! ### The split of a card (R315, R316) -/

/-- Replace the extent of a dimension's loop. -/
def setExt (c : Line) (dim ext : Nat) : Line :=
  (upTo 5).foldl (fun c i => if (loopW c i).1 = dim then
    setWord32 c (2 + i) (BitVec.ofNat 32 (cardW c (2 + i) / 2 ^ 20 * 2 ^ 20 + ext)) else c) c
/-- Replace the low bits of a word. -/
def setLow (c : Line) (i bits v : Nat) : Line := setWord32 c i (BitVec.ofNat 32 (cardW c i / 2 ^ bits * 2 ^ bits + v % 2 ^ bits))

/-- M units from `at'` on. -/
def takeM (c : Line) (at' n : Nat) : Line :=
  let d := setWord32 (setExt c dimM n) 7 (BitVec.ofNat 32 (cardRow0 c + at'))
  if at' + n = cardExt c dimM then d else setLow d 10 6 32
/-- N units from `at'` on. -/
def takeN (c : Line) (at' n : Nat) : Line :=
  let d := setWord32 (setExt c dimN n) 8 (BitVec.ofNat 32 (cardCol0 c + at'))
  if at' + n = cardExt c dimN then d else setLow d 11 6 32
/-- K steps from `at'` on. -/
def takeK (c : Line) (at' n : Nat) : Line := setLow (setExt c dimK n) 9 16 (cardK0 c + at')

/-- Blocks of a split of E indices among P children: start and length (R315). -/
def blocks (e p : Nat) : List (Nat × Nat) :=
  let bs := max 1 ((e + 4 * p - 1) / (4 * p))
  (upTo ((e + bs - 1) / bs)).map fun i => (i * bs, min bs (e - i * bs))

/-- Runs of a block of combined units along the inner loop of extent n: outer index, start, length. -/
def runs (n : Nat) : Nat → Nat → Nat → List (Nat × Nat × Nat)
  | 0, _, _ => []
  | fuel + 1, at', len =>
    if len = 0 then [] else
      let l := min len (n - at' % n)
      (at' / n, at' % n, l) :: runs n fuel (at' + l) (len - l)

/-- One piece of a split: index of the block, the card, whether it is a segment of a split K. -/
abbrev Piece := Nat × Line × Bool

/-- The pieces of a card for P children, in ascending block order. -/
def split (c : Line) (p : Nat) : List Piece :=
  let me := cardExt c dimM
  let ne := nSteps c
  let cols := fun (c : Line) (at' n : Nat) => takeN c (nAt c at') (nAt c (at' + n) - nAt c at')
  let es := if me ≥ p then me else if ne ≥ p then ne else me * ne
  let segs := (cardExt c dimK + 15) / 16
  let bl := fun e => (blocks e p).mapIdx fun i b => (i, b)
  if es < p && cardSK c && isGemm c && me * ne < p then
    (bl segs).map fun (i, b) => (i, takeK c (16 * b.1) (min (16 * b.2) (cardExt c dimK - 16 * b.1)), true)
  else if me ≥ p then (bl me).map fun (i, b) => (i, takeM c b.1 b.2, false)
  else if ne ≥ p then (bl ne).map fun (i, b) => (i, cols c b.1 b.2, false)
  else
    let inner := match (nest c [dimM, dimN]).getLast? with | some l => l.1 | none => dimN
    (bl es).flatMap fun (i, b) =>
      (runs (if inner = dimM then me else ne) (b.2 + 1) b.1 b.2).map fun (o, at', l) =>
        (i, takeM (cols c (if inner = dimM then o else at') (if inner = dimM then 1 else l)) (if inner = dimM then at' else o) (if inner = dimM then l else 1), false)

/-- A child's card: level, no mailbox, its index in PATH, the parent's record, sequence number and parity (R316). -/
def childCard (c : Line) (lvl idx prec seq : Nat) : Line :=
  let w0 := cardW c 0
  let c := setWord32 c 0 (BitVec.ofNat 32 (w0 / 2 ^ 11 * 2 ^ 11 + lvl * 256 + w0 % 256))
  let path := (cardPath c) ||| (idx % 8 * 2 ^ (3 * lvl))
  let c := setWord32 (setWord32 (setWord32 c 12 0) 13 0) 14 (BitVec.ofNat 32 (path % 2 ^ 18 * 2 ^ 14 + prec % 2 ^ 14))
  sealCard c seq
/-- One child of a card: number no, at the i-th of the eligible units. Its SEQ is set when it is issued. -/
def mkChild (el : List Nat) (lvl : Nat) (r : CardRec) (no i : Nat) (card : Line) (part : Bool) (pairs : Option Nat) : Child :=
  { no := no, unit := (el[i]?).getD 0, card := childCard card (lvl - 1) i r.id 0, part := part, pairs := pairs, sent := false, done := false
    tries := 0, resume := 0 }

/-- The children of a card at a unit, but for a GMS card: a CFENCE goes to every one (R313). -/
def State.childrenFor (s : State) (lvl unit : Nat) (r : CardRec) : List Child :=
  let el := s.eligible r.who.launch lvl unit
  if isFence r.card then el.mapIdx fun i _ => mkChild el lvl r i i r.card false none
  else (split r.card el.length).mapIdx fun no (x : Piece) => mkChild el lvl r no (x.1 % el.length) x.2.1 (r.part || x.2.2) none

/-- The children of a GMS card for group g (from the card's first), which has npr pairs: one for each block of 32 pairs (R315). A card
that is itself a block has one child. -/
def State.pairChildren (s : State) (lvl unit : Nat) (r : CardRec) (g npr : Nat) : List Child :=
  let el := s.eligible r.who.launch lvl unit
  let card := setWord32 (setExt r.card dimG 1) 9 (BitVec.ofNat 32 ((cardB0 r.card + g) * 65536 + cardK0 r.card))
  match r.pairs with
  | some _ => [mkChild el lvl r r.children.length 0 r.card r.part r.pairs]
  | none => (upTo ((npr + 31) / 32)).map fun i => mkChild el lvl r (r.children.length + i) (i % el.length) card r.part (some (32 * i))

/-! ### Codes (R301, R302) -/

/-- Fault code of an access that failed (R302). -/
def accessCode (kind : BitVec 8) : Nat := match kind.toNat with | 2 => 8 | 3 => 9 | 5 => 11 | 7 => 12 | _ => 10
/-- FUNIT: a level and a unit number (R301). -/
def funitOf (lvl n : Nat) : Nat := lvl * 2 ^ 13 + n % 2 ^ 13
/-- The engine of a level's unit. -/
def unitAgent (lvl n : Nat) : Agent :=
  match lvl with | 1 => .seqr n | 2 => .cluster n | 3 => .die n | 4 => if n = 0 then .package else .peer (n - 1) | _ => .fabric

/-- Peer index of a fabric engine's card: this device's rank in a collective's group. -/
def State.unitNo (s : State) (lvl unit : Nat) (c : Line) : Nat :=
  if lvl = 5 && isCollective c then fgRank (s.fgroup (cardTid c 2)) else unit

/-- FUNIT of the unit that made a card's access (R301). -/
def State.agentUnit (s : State) (card : Line) : Agent → Nat
  | .seqr c => funitOf 1 c
  | .cluster n => funitOf 2 n
  | .die n => funitOf 3 n
  | .package => funitOf 4 0
  | .fabric => funitOf 5 (s.unitNo 5 0 card)
  | .peer n => funitOf 5 n
  | _ => 0

/-! ### Values of a unit -/

/-- The 32 rows of a tile, exactly, from its bytes. -/
def tileRows (ef : Nat) (byte : Nat → Nat) : List (List Num) :=
  (upTo 32).map fun r => (upTo (tileCols ef)).map fun c => tileVal ef byte r c

/-- The 32 rows of unit n of a grid row, from the bytes of its tiles (R297). -/
def unitVals (ef n : Nat) (byte : Nat → Nat) : List (List Num) :=
  (upTo 32).map fun r => (upTo 32).map fun c =>
    if ef = 3 then tileVal 3 byte r (32 * (n % 2) + c)
    else tileVal ef (fun o => byte (c / tileCols ef * tileSize ef + o)) r (c % tileCols ef)

/-- A matrix of FP32 values of a unit's valid positions. -/
abbrev Mat := List (List Nat)

/-- The matrix with given rows and columns. -/
def mat (rows cols : Nat) (f : Nat → Nat → Nat) : Mat := (upTo rows).map fun r => (upTo cols).map fun c => f r c
/-- Element of a matrix. -/
def Mat.at' (m : Mat) (r c : Nat) : Nat := ((m[r]?).getD []).getD c 0
/-- Element of rows of numbers. -/
def numAt (m : List (List Num)) (r c : Nat) : Num := ((m[r]?).getD []).getD c (.fin false 0 0)

/-- One K step of R73 on the valid positions. -/
def kStep (acc : Mat) (a b : List (List Num)) : Mat :=
  acc.mapIdx fun i row => row.mapIdx fun j y => (accStep .rn y (exactDot (((a[i]?).getD []).zip ((b[j]?).getD [])))).1

/-- FP32 addition of matrices. -/
def addMat (a b : Mat) : Mat := a.mapIdx fun i row => row.mapIdx fun j y => (fAdd .f32 .rn y (b.at' i j)).1

/-- The partials combined by the pairwise tree (R74). -/
def pairMats (vr vc : Nat) (ps : List Mat) : Mat := mat vr vc fun i j => (pairwise (fAdd .f32 .rn) 64 (ps.map fun p => p.at' i j)).1

/-- ELTW (R311). -/
def eltw (op a b : Nat) : Nat :=
  (match op with
   | 0 => fAdd .f32 .rn a b
   | 1 => fSub .f32 .rn a b
   | 2 => fMul .f32 .rn a b
   | 3 => fMinMax .f32 true a b
   | _ => fMinMax .f32 false a b).1

/-- The key of stochastic QUANT and of a collective's node (R311, R345): for an element at a row and a column of a grid row. -/
def elemKey (rank step row units col : Nat) : BitVec 32 :=
  srKey (BitVec.ofNat 32 rank) (BitVec.ofNat 32 step) (BitVec.ofNat 32 (row * 32 * units + col))
/-- Rounding of an element under a key. -/
def srRound (key : BitVec 32) : Rounding := fun m e => srInt m e key

end Sys2Proof.Machine
end

