-- ==== Sys2Proof/Machine/EvCard.lean ====
section
/-! DEFINITION. EvCard.lean: the levels: acceptance of cards, their split, the sequencer's units, reports, retirement; the retry of
engine accesses (R290, R294 to R320, R324, R344 to R346). -/
namespace Sys2Proof.Machine

/-! ### Accesses of a card -/

/-- An access in progress for a card: who acts, the unit that holds the card, and the tag under which a page is waited for. -/
structure CX where
  s    : State
  own  : Asker
  a    : Asker
  tag  : Nat
  lane : Option Nat
deriving DecidableEq, Repr

/-- Why a card's step does not finish: not now; an absent page; a failure of an access; an index out of bounds. -/
inductive CErr
  | wait
  | page (f : RFault)
  | final (x : CX) (f : RFault)
  | idx (x : CX)

/-- Take one access. A second failure after the page was answered is final with kind 1 (R320). -/
def CX.take (x : CX) (v : Served) : Except CErr (Line × CX) :=
  match v with
  | .done l s => .ok (l, { x with s := s })
  | .hold s => .ok (0, { x with s := s })
  | .wait => .error .wait
  | .fail f s =>
    if !f.absent then .error (.final { x with s := s } f)
    else match x.s.heldFor x.own x.tag x.lane with
    | some h =>
      if h.page = fld f.addr 56 12 && h.answer.isSome then .error (.final x { kind := 1, absent := false, addr := f.addr })
      else .error (.page f)
    | none => .error (.page f)

def CX.load (x : CX) (pl : Place) (n : Nat) : Except CErr (Line × CX) := x.take (x.s.eLoad x.a pl n)
def CX.store (x : CX) (pl : Place) (d : Line) (m : BitVec 64) : Except CErr CX := do
  let (_, x) ← x.take (x.s.eStore x.a pl d m)
  return x
/-- Store through the buffer of the card's own engine. -/
def CX.put (x : CX) (pl : Place) (d : Line) (m : BitVec 64) : Except CErr CX := do
  let (_, x) ← x.take (x.s.eBuf x.own.agent x.a pl d m)
  return x
/-- Act as another engine. -/
def CX.as (x : CX) (g : Agent) : CX := { x with a := { x.a with agent := g } }

/-- Load n lines. -/
def CX.lines (x : CX) (pl : Nat → Place) : Nat → List Line → Except CErr (List Line × CX)
  | 0, acc => .ok (acc, x)
  | n + 1, acc => do
    let (l, x) ← x.load (pl acc.length) 64
    x.lines pl n (acc ++ [l])

/-- Load n bytes of any alignment. -/
def CX.bytes (x : CX) (core : Nat) (m : Mode) (ea : Word) : List (Nat × Nat) → List Nat → Except CErr (List Nat × CX)
  | [], acc => .ok (acc, x)
  | (off, len) :: t, acc => do
    let va := modeAdd m ea off
    let (l, x) ← x.load (enginePlace core m va) len
    x.bytes core m ea t (acc ++ (upTo len).map fun i => (lineByte l (va.toNat % 64 + i)).toNat)
/-- Load a number of n bytes. -/
def CX.num (x : CX) (core : Nat) (m : Mode) (ea : Word) (n : Nat) : Except CErr (Nat × CX) := do
  let (bs, x) ← x.bytes core m ea (piecesOf ea n) []
  return (ofElems 8 bs, x)

/-! ### Cards in queues -/

/-- Change a card of a unit. -/
def State.onCard (s : State) (lvl unit id : Nat) (f : CardRec → CardRec) : State :=
  s.onUnit lvl unit fun q => { q with queue := q.queue.map fun r => if r.id = id then f r else r }

/-- End a card with a fault; the first stands (R318). -/
def CardRec.fail (r : CardRec) (code sev path funit : Nat) : CardRec :=
  if r.code = 0 then { r with code := code, sev := sev, path := path, funit := funit, ran := true } else { r with ran := true }

/-- PATH of a fault met by the sequencer's own accesses: 7 in the L0 field (R301). -/
def faultPath (c : Line) (g : Agent) : Nat := match g with | .seqr _ => cardPath c ||| 7 | _ => cardPath c

/-- Tag under which a card's step waits for a page. -/
def cardTag (id : Nat) : Nat := 2 ^ 31 + id

/-- What becomes of a card whose access fails: the failing access ends it, accepted or not, the D lines of the unit being poisoned where
it read poison (R318, R436); an absent page is held (R320). -/
def State.cardErr (s : State) (lvl unit : Nat) (r : CardRec) (lane : Option Nat) (bad : State → State) : CErr → State
  | .wait => s
  | .page f => s.holdFor (r.who.engine (unitAgent lvl unit)) (cardTag r.id) lane f
  | .final x f =>
    let t := (x.s.unhold x.own (cardTag r.id) lane).dropEbuf x.own.agent
    let t := if f.kind = 5 then bad t else t
    t.onCard lvl unit r.id fun r =>
      { r.fail (accessCode f.kind) 2 (faultPath r.card x.a.agent) (s.agentUnit r.card x.a.agent) with accepted := true }
  | .idx x =>
    ((x.s.unhold x.own (cardTag r.id) lane).dropEbuf x.own.agent).onCard lvl unit r.id fun r => r.fail 6 2 (cardPath r.card) (funitOf lvl unit)

/-- Perform a step of a card that only loads. -/
def State.cardRead (s : State) (lvl unit : Nat) (r : CardRec) (lane : Option Nat) (bad : State → State)
    (k : CX → Except CErr State) : State :=
  let own := r.who.engine (unitAgent lvl unit)
  let tag := cardTag r.id
  if s.pageWait own tag lane then s
  else
    match k { s := s, own := own, a := own, tag := tag, lane := lane } with
    | .ok t => t.unhold own tag lane
    | .error e => s.cardErr lvl unit r lane bad e

/-- The card of a step is still being worked on. -/
def LUnit.works (u : LUnit) (tag : Nat) : Bool := u.queue.any fun r => cardTag r.id == tag && !r.ran

/-- A step of a card whose stores pass through its engine's buffer: its loads are served and its stores enter the buffer; they leave one by
one; and when all are acknowledged the step's result, a few numbers, is noted in the card (R220, R305). -/
def State.cardStep (s : State) (lvl unit : Nat) (r : CardRec) (lane : Option Nat) (bad : State → State)
    (k : CX → Except CErr (List Nat × CX)) (fin : List Nat → State → State) : State :=
  let own := r.who.engine (unitAgent lvl unit)
  let tag := cardTag r.id
  let work := s.cardRead lvl unit r lane bad fun x => do
    let (note, x) ← k { x with s := x.s.setEbuf (EBuf.open' own.agent tag lane) }
    return match x.s.ebuf own.agent with
      | some b => if b.ents.isEmpty then fin note (x.s.dropEbuf own.agent) else x.s.setEbuf { b with note := note }
      | none => fin note x.s
  match s.ebuf own.agent with
  | none => work
  | some b =>
    if b.tag = tag && b.lane = lane then
      match b.ents with
      | [] => if s.mem.fwds.isEmpty then fin b.note (s.dropEbuf own.agent) else s
      | e :: t =>
        s.cardRead lvl unit r lane bad fun x => do
          let (_, x) ← { x with a := e.who }.take (x.s.eStore e.who e.pl e.data e.mask)
          return x.s.setEbuf { b with ents := t }
    else s

/-! ### CARD_ACCEPT (R294, R302) -/

/-- Read the entries that a card names. -/
def CX.entries (x : CX) (r : CardRec) : Nat → List Line → Except CErr (List Line × CX)
  | 0, acc => .ok (acc, x)
  | n + 1, acc => do
    let i := acc.length
    if operandNamed r.card i then
      let (l, x) ← x.load (.glob (x.s.entryVa r.who.launch.toNat (cardTid r.card i))) 64
      x.entries r n (acc ++ [l])
    else x.entries r n (acc ++ [0])

/-- The parity of a card is even (R298). -/
def parityOk (c : Line) : Bool := onesIn 512 c.toNat % 2 == 0

/-- Accept a card of a queue, the earlier ones having been accepted: its entries are read, and every SEV 4 check is made. A
collective's timer starts with the first card of its group (R340). -/
def State.cardAccept (s : State) (lvl unit i : Nat) : State :=
  match (s.unit lvl unit).queue[i]? with
  | none => s
  | some r =>
    if s.unitStopped lvl unit || r.accepted || !parityOk r.card || !((s.unit lvl unit).queue.take i).all (fun q => q.accepted) then s
    else
      s.cardRead lvl unit r none id fun x => do
        let (es, x) ← if isFence r.card then .ok ([], x) else x.entries r 4 []
        let s := x.s
        let code := s.cardReject lvl unit r.who r.card es
        let s := s.onCard lvl unit r.id fun r =>
          let r := { r with accepted := true, ents := es }
          if code = 0 then r else r.fail code 4 (cardPath r.card) (funitOf lvl (s.unitNo lvl unit r.card))
        return if isCollective r.card && code = 0 && (tget s.fabric.timers (cardTid r.card 2)).isNone then
            { s with fabric := { s.fabric with timers := tset s.fabric.timers (cardTid r.card 2) { elapsed := 0, from' := some s.now, held := [] } } }
          else s

/-- CARD_ACCEPT. -/
def execCardAccept (lvl : Lvl) (unit i : Nat) (s : State) : Host.Outcome State Fault Refusal := .next (s.cardAccept (lvlNo lvl) unit i)

/-! ### CARD_PARITY_REFETCH (R316) -/

/-- The parent's copy of a child card. -/
def State.parentCopy (s : State) (r : CardRec) : Line :=
  match r.parent with
  | none => r.card
  | some (l, u, id, no) =>
    match (s.unit l u).queue.find? fun q => q.id == id with
    | some q => (match q.children.find? fun c => c.no == no with | some c => c.card | none => r.card)
    | none => r.card

/-- A unit finds that the parity of a card it has received does not hold: the card is fetched again from its parent once; a second mismatch
is fault PARITY. -/
def State.cardRefetch (s : State) (lvl unit : Nat) : State :=
  match (s.unit lvl unit).queue.find? fun r => !r.accepted && !r.ran with
  | none => s
  | some r =>
    s.onCard lvl unit r.id fun r =>
      if r.parityTries = 0 then { r with card := s.parentCopy r, parityTries := 1 }
      else { r.fail 13 2 (cardPath r.card) (funitOf lvl unit) with accepted := true }

/-- CARD_PARITY_REFETCH. -/
def execCardParityRefetch (lvl : Lvl) (unit : Nat) (s : State) : Host.Outcome State Fault Refusal :=
  .next (s.cardRefetch (lvlNo lvl) unit)

/-! ### A unit's operands -/

/-- Entry of an operand: 0 A, 1 B, 2 C, 3 D. -/
def CardRec.ent (r : CardRec) (i : Nat) : Line := (r.ents[i]?).getD 0

/-- Place of line l of grid tile (b, i, j) of a TILED entry. -/
def tilePlace (r : CardRec) (e : Line) (b i j l : Nat) : Place :=
  enginePlace r.origin (entMode e) (modeAdd (entMode e) (entBase e) (((b * entLo e + i) * entHi e + j) * tileSize (entEf e) + 64 * l))
/-- Grid column of the first tile of unit n (R297). -/
def unitCol (ef n : Nat) : Nat := if ef = 3 then n / 2 else unitTiles ef * n
/-- Lines of a unit's tiles. -/
def unitLines (ef : Nat) : Nat := unitTiles ef * tileSize ef / 64

/-- Values of unit (b, i, n) of a TILED entry. -/
def CX.unit (x : CX) (r : CardRec) (e : Line) (b i n : Nat) : Except CErr (List (List Num) × CX) := do
  let ef := entEf e
  let (ls, x) ← x.lines (tilePlace r e b i (unitCol ef n)) (unitLines ef) []
  return (unitVals ef n (byteIn ls), x)

/-- Bytes of an operand slot. -/
def Core.slotByteAt (k : Core) (slot n : Nat) : Nat := (rdByte k.opmem (slot * 2048 + n)).toNat
/-- A slot holds poison in a tile's bytes. -/
def Core.slotPoison (k : Core) (slot n : Nat) : Bool := k.opoison.any fun u => u / 32 == slot && decide (u % 32 * 64 < n)

/-- Rows of the tile in a slot, in the card's SFMT. A slot that holds poison is consumed (R436). -/
def CX.slotTile (x : CX) (core : Nat) (r : CardRec) (i : Nat) : Except CErr ((Nat → Nat) × CX) :=
  let slot := cardTid r.card i
  if (x.s.core core).slotPoison slot 1088 then
    .error (.final { x with s := x.s.consumePoison x.a } { kind := 5, absent := false, addr := 0 })
  else .ok ((x.s.core core).slotByteAt slot, x)

/-- Values of an elementwise operand: its unit, or the slot's. -/
def CX.operand (x : CX) (core : Option Nat) (r : CardRec) (o b i n : Nat) : Except CErr (List (List Num) × CX) :=
  match cardSL r.card, core with
  | true, some c => do
    let (f, x) ← x.slotTile c r o
    return (unitVals (cardSfmt r.card) n f, x)
  | _, _ => x.unit r (r.ent o) b i n

/-! ### Staging (R317) -/

/-- The slots of a card, lowest first: As0, Bs0, As1, Bs1. -/
def CardRec.slotList (r : CardRec) : List Nat := match r.slots with | some m => (upTo 32).filter fun i => m.getLsbD i | none => []

/-- A card of another unit. -/
def State.cardAt (s : State) (p : Nat × Nat × Nat × Nat) : Option CardRec := (s.unit p.1 p.2.1).queue.find? fun q => q.id == p.2.2.1

/-- A card's children among which A's grid row at M unit m (counted from the tensor's start) is needed, by child unit. -/
def CardRec.needers (q : CardRec) (m : Nat) : List Nat :=
  ((q.children.filter fun c => decide (cardRow0 c.card ≤ m) && decide (m < cardRow0 c.card + cardExt c.card dimM)).map fun c => c.unit).eraseDups

/-- The level that stages tile (m, k) of A for an L1 child's card: the nearest of L3 and L4 with a staging area whose children
share the tile; its level, unit and card. -/
def State.stager (s : State) (r : CardRec) (m : Nat) : Nat → Option (Nat × Nat × CardRec)
  | 0 => none
  | n + 1 =>
    match r.parent with
    | none => none
    | some p =>
      match s.cardAt p with
      | none => none
      | some q =>
        if (p.1 = 3 || p.1 = 4) && cardStgn q.card != 0 && decide ((q.needers m).length > 1) then some (p.1, p.2.1, q)
        else s.stager q m n

/-- The lowest-numbered eligible core of a cluster. -/
def State.stageCore (s : State) (launch : BitVec 32) (cl : Nat) : Nat := ((s.eligible launch 2 cl).head?).getD (coreOfCluster cl 0)

/-- Load an A tile through the staging area: the die or package engine deals it, once, into the pool of the lowest eligible core of each
cluster that needs it, from which the cluster's carder takes it (R317). The engine of L4 deals it to a cluster when that takes it. -/
def CX.staged (x : CX) (r : CardRec) (lvl unit : Nat) (q : CardRec) (cl m k : Nat) (home : Nat → Place) : Except CErr (List Line × CX) := do
  let me := x.a.agent
  let n := ((m - cardRow0 q.card) * cardExt q.card dimK + (k - cardK0 q.card)) % cardStgn q.card
  let t := (m - cardRow0 q.card) * cardExt q.card dimK + (k - cardK0 q.card)
  let at' := fun (l : Nat) => 64 * cardStg q.card + 1088 * n + 64 * l
  let pl := fun (cl l : Nat) =>
    let core := x.s.stageCore r.who.launch cl
    Place.pool core (at' l) true (BitVec.ofNat 64 (core * 65536 + at' l))
  if tget q.ring (cl * 65536 + n) = some t then x.lines (pl cl) 17 []
  else
    let (ls, x) ← (x.as (unitAgent lvl unit)).lines home 17 []
    let cls := if lvl = 3 then cl :: (q.needers m).filter fun c => c != cl else [cl]
    let x ← cls.foldlM (fun (x : CX) cl =>
      (ls.mapIdx fun i l => (i, l)).foldlM (fun (x : CX) (p : Nat × Line) => x.store (pl cl p.1) p.2 allBytes) x) x
    let x := { x with s := x.s.onCard lvl unit q.id fun q => { q with ring := cls.foldl (fun r cl => tset r (cl * 65536 + n) t) q.ring } }
    (x.as me).lines (pl cl) 17 []

/-- The A and B tiles of K step k of unit (b, m, n), placed in the slot pair of the step; step numbers count from the card's
origins. -/
def CX.kTiles (x : CX) (core : Option Nat) (r : CardRec) (b m n k : Nat) : Except CErr (List (List Num) × List (List Num) × CX) := do
  let c := r.card
  match cardSL c, core with
  | true, some q => do
    let (fa, x) ← x.slotTile q r 0
    let (fb, x) ← x.slotTile q r 1
    return (tileRows (cardSfmt c) fa, tileRows (cardSfmt c) fb, x)
  | _, _ => do
    let ea := r.ent 0
    let eb := r.ent 1
    let bb := cardB0 c + b
    let (mi, ki, ni) := (cardRow0 c + m, cardK0 c + k, cardCol0 c + n)
    let pa := fun (l : Nat) => if cardTA c then tilePlace r ea bb ki mi l else tilePlace r ea bb mi ki l
    let pb := fun (l : Nat) => if cardOp c = 1 then tilePlace r eb bb ni ki l else tilePlace r eb bb ki ni l
    let own := x.a.agent
    -- the carder of an L2 parent deals the tiles of its child
    let cl := match r.parent with | some (2, u, _, _) => some u | _ => none
    let x := match cl with | some u => x.as (.cluster u) | none => x
    let (la, x) ← match cl.bind fun u => (x.s.stager r mi 4).map fun q => (u, q) with
      | some (u, (lv, un, q)) => x.staged r lv un q u mi ki pa
      | none => x.lines pa 17 []
    let (lb, x) ← x.lines pb 17 []
    let x := x.as own
    let put := fun (s : State) (i : Nat) (ls : List Line) =>
      match core, r.slotList[2 * (k % 2) + i]? with
      | some q, some slot => (ls.mapIdx fun n l => (n, l)).foldl (fun (s : State) (p : Nat × Line) => s.onCore q fun kk => kk.opPut (slot * 2048 + 64 * p.1) p.2) s
      | _, _ => s
    let x := { x with s := put (put x.s 0 la) 1 lb }
    return (tileRows (entEf ea) (byteIn la), tileRows (entEf eb) (byteIn lb), x)

/-- K steps from k on; with SK the segments of 16 steps are kept apart (R73, R74, R305). The partials, in order. -/
def CX.kSteps (x : CX) (core : Option Nat) (r : CardRec) (b m n : Nat) (zero : Mat) : Nat → Nat → Mat → List Mat → Except CErr (List Mat × CX)
  | 0, _, cur, done => .ok (done ++ [cur], x)
  | left + 1, k, cur, done => do
    let (ta, tb, x) ← x.kTiles core r b m n k
    if cardSK r.card && k % 16 = 0 && k != 0 then x.kSteps core r b m n zero left (k + 1) (kStep zero ta tb) (done ++ [cur])
    else x.kSteps core r b m n zero left (k + 1) (kStep cur ta tb) done

/-- The accumulator's start: D's unit, the named tile, or +0 (R305). -/
def CX.start (x : CX) (core : Option Nat) (r : CardRec) (b m n vr vc : Nat) : Except CErr (Mat × CX) := do
  let c := r.card
  if !cardACC c then return (mat vr vc fun _ _ => 0, x)
  else
    match cardAR c, core with
    | true, some q =>
      let v := (x.s.core q).accVals (cardTid c 3)
      return (mat vr vc fun i j => (v[32 * i + j]?).getD 0, x)
    | _, _ =>
      let (d, x) ← x.unit r (r.ent 3) (cardB0 c + b) (cardRow0 c + m) (cardCol0 c + n)
      return (mat vr vc fun i j => num32 (numAt d i j), x)

/-- GEMM and GEMMT: the sums of a unit (R308). -/
def CX.gemm (x : CX) (core : Option Nat) (r : CardRec) (b m n vr vc : Nat) : Except CErr (Mat × CX) := do
  let zero := mat vr vc fun _ _ => 0
  let (st, x) ← x.start core r b m n vr vc
  let k := cardExt r.card dimK
  if cardSK r.card then
    let (ps, x) ← x.kSteps core r b m n zero k 0 zero []
    let sum := pairMats vr vc ps
    return (if cardACC r.card then addMat sum st else sum, x)
  else
    let (ps, x) ← x.kSteps core r b m n zero k 0 st []
    return ((ps.head?).getD st, x)

/-! ### SPMM (R309, R288) -/

/-- Stored positions of a slice from j on: for each row the indexed row of B, multiplied and added. The exact product of a step keeps the sign
of a zero, by R59. -/
def CX.spmmRows (x : CX) (r : CardRec) (n vr vc : Nat) (idx val : List Nat) : Nat → Nat → Mat → Except CErr (Mat × CX)
  | 0, _, acc => .ok (acc, x)
  | left + 1, p, acc => do
    let i := p % 32
    let ea := r.ent 0
    let eb := r.ent 1
    let at' := fun (l : List Nat) (w : Nat) => ofElems 8 ((l.drop (w * p)).take w)
    let ix := at' idx 4
    if i ≥ vr || ix = 0xFFFFFFFF then x.spmmRows r n vr vc idx val left (p + 1) acc
    else if ix ≥ entW3 ea then .error (.idx x)
    else
      let f := efFmt (entEf ea)
      let va := modeAdd (entMode eb) (entBase eb) (ix * entRs eb + 64 * (cardCol0 r.card + n))
      let (bs, x) ← x.bytes r.origin (entMode eb) va (piecesOf va 64) []
      let v := toNum f (at' val 2)
      let acc := acc.mapIdx fun q row => if q = i then row.mapIdx fun j y =>
        (accStep .rn y (mulNum v (toNum f (ofElems 8 ((bs.drop (2 * j)).take 2)))).1).1 else row
      x.spmmRows r n vr vc idx val left (p + 1) acc

/-- What an L2 unit stages for a SPMM card in the child's slots (R317): the spec does not lay out the steps of a slice there (log entry 84). -/
def CX.stageFree (x : CX) (core : Nat) (r : CardRec) : CX :=
  let put := fun (s : State) (p : Nat × Nat) => s.onCore core fun k => k.opPut (p.1 * 2048 + 64 * p.2) (Config.freeLine (s.fresh + p.2))
  { x with s := r.slotList.foldl (fun s i =>
      let s := ((upTo 17).map fun l => (i, l)).foldl put s
      { s with fresh := s.fresh + 17 }) x.s }

/-- SPMM: the sums of a unit. -/
def CX.spmm (x : CX) (core : Option Nat) (r : CardRec) (b m n vr vc : Nat) : Except CErr (Mat × CX) := do
  let ea := r.ent 0
  let (st, x) ← x.start core r b m n vr vc
  let own := x.a.agent
  let x := match r.parent with | some (2, u, _, _) => x.as (.cluster u) | _ => x
  let x := match r.parent, core with | some (2, _, _, _), some q => x.stageFree q r | _, _ => x
  let d := modeAdd (entMode ea) (entBase ea) (16 * (cardRow0 r.card + m))
  let (i0, x) ← x.num r.origin (entMode ea) d 8
  let (v0, x) ← x.num r.origin (entMode ea) (modeAdd (entMode ea) d 8) 8
  let (i1, x) ← x.num r.origin (entMode ea) (modeAdd (entMode ea) d 16) 8
  let w := (i1 - i0) / 128
  let (idx, x) ← x.bytes r.origin .g (BitVec.ofNat 64 i0) (piecesOf (BitVec.ofNat 64 i0) (128 * w)) []
  let (val, x) ← x.bytes r.origin .g (BitVec.ofNat 64 v0) (piecesOf (BitVec.ofNat 64 v0) (64 * w)) []
  let (acc, x) ← x.spmmRows r n vr vc idx val (32 * w) 0 st
  return (acc, x.as own)

/-! ### The other local opcodes (R311) -/

/-- REDUCE: A's units at the batches of the K loop, added in order. -/
def CX.reduce (x : CX) (core : Option Nat) (r : CardRec) (m n : Nat) : Nat → Nat → Mat → Except CErr (Mat × CX)
  | 0, _, acc => .ok (acc, x)
  | left + 1, k, acc => do
    let c := r.card
    let (a, x) ← x.operand core r 0 (cardK0 c + k) (cardRow0 c + m) (cardCol0 c + n)
    x.reduce core r m n left (k + 1) (acc.mapIdx fun i row => row.mapIdx fun j y => (fAdd .f32 .rn y (num32 (numAt a i j))).1)

/-- Values of a unit before the epilogue. -/
def CX.value (x : CX) (core : Option Nat) (r : CardRec) (b m n vr vc : Nat) : Except CErr (Mat × CX) := do
  let c := r.card
  let at' := fun (a : List (List Num)) => mat vr vc fun i j => num32 (numAt a i j)
  match cardOp c with
  | 1 | 2 => x.gemm core r b m n vr vc
  | 9 => x.spmm core r b m n vr vc
  | 5 => do
    let (st, x) ← x.start core r b m n vr vc
    x.reduce core r m n (cardExt c dimK) 0 st
  | 3 => do
    let (a, x) ← x.operand core r 0 (cardB0 c + b) (cardRow0 c + m) (cardCol0 c + n)
    let (q, x) ← x.operand core r 1 (cardB0 c + b) (cardRow0 c + m) (cardCol0 c + n)
    return (mat vr vc fun i j => eltw (cardEpi c % 8) (num32 (numAt a i j)) (num32 (numAt q i j)), x)
  | 6 => do
    let (a, x) ← x.operand core r 0 (cardB0 c + b) (cardCol0 c + n) (cardRow0 c + m)
    return (mat vr vc fun i j => num32 (numAt a j i), x)
  | _ => do
    let (a, x) ← x.operand core r 0 (cardB0 c + b) (cardRow0 c + m) (cardCol0 c + n)
    return (at' a, x)

/-! ### Writing a unit (R306, R307) -/

/-- Bias of the columns of a unit (R307). -/
def CX.bias (x : CX) (r : CardRec) (n vc : Nat) : Except CErr (List Nat × CX) := do
  if !hasBias r.card then return ([], x)
  else
    let e := r.ent 2
    let va := modeAdd (entMode e) (entBase e) (128 * (cardCol0 r.card + n))
    let (bs, x) ← x.bytes r.origin (entMode e) va (piecesOf va (4 * vc)) []
    return ((upTo vc).map fun j => ofElems 8 ((bs.drop (4 * j)).take 4), x)

/-- The epilogue of a matrix: the values, and whether one is a NaN. -/
def epiMat (c : Line) (bias : List Nat) (m : Mat) : Mat × Bool :=
  let act := if hasEpi c then cardEpi c / 2 % 4 else 0
  let rs := m.map fun row => row.mapIdx fun j y => epiElem act bias[j]? y
  (rs.map fun row => row.map fun p => p.1, rs.any fun row => row.any fun p => p.2)

/-- Stores of D's tile at grid row i and grid column j: valid rows, each a list of its valid columns from c0 on. -/
def CX.putTile (x : CX) (r : CardRec) (b i j c0 : Nat) (old : Nat → Nat) (rows : List (List Nat)) (rnd : Nat → Nat → Rounding) :
    Except CErr (Bool × CX) := do
  let e := r.ent 3
  let (st, sat) := encodeTile (entEf e) c0 (cardDelta r.card) rnd old rows
  let x ← st.foldlM (fun (x : CX) (p : Nat × Line × BitVec 64) => x.put (tilePlace r e b i j p.1) p.2.1 p.2.2) x
  return (sat, x)

/-- Rounding of the elements of a D tile: stochastic under QUANT EPI<0> = 1. -/
def cardRnd (c : Line) (e : Line) (b i j : Nat) (row col : Nat) : Rounding :=
  if cardOp c = 8 && cardEpi c % 2 = 1 then
    srRound (elemKey 0 (cardTid c 2) (32 * (b * entLo e + i) + row) (unitsRow e) (j * tileCols (entEf e) + col))
  else roundRne

/-- Write one unit of D, or the units that a BX4 tile holds, from column c0 on: whether anything saturated. -/
def CX.putUnit (x : CX) (r : CardRec) (b i n c0 : Nat) (rnd : Nat → Nat → Nat → Rounding) (ms : List Mat) : Except CErr (Bool × CX) := do
  let e := r.ent 3
  let ef := entEf e
  if ef = 3 then
    let rows := match ms with | [a, q] => a.mapIdx fun k row => row ++ (q[k]?).getD [] | [a] => a | _ => []
    let odd := rows.any fun row => row.length % 2 == 1
    let (ls, x) ← if odd then x.lines (tilePlace r e b i (n / 2)) 16 [] else .ok ([], x)
    x.putTile r b i (n / 2) c0 (byteIn ls) rows fun row col => rnd (n / 2) row (c0 + col)
  else
    let m := (ms.head?).getD []
    let cols := ((m.head?).getD []).length
    (upTo (unitTiles ef)).foldlM (fun (p : Bool × CX) t => do
      let (sat, x) ← p.2.putTile r b i (unitCol ef n + t) 0 (fun _ => 0) (unitRows ef t m.length cols m.at')
        (rnd (unitCol ef n + t))
      return (p.1 || sat, x)) (false, x)

/-- Put values into an accumulator tile; masked positions keep their contents (R306). -/
def Core.accMat (k : Core) (t : Nat) (m : Mat) : Core :=
  (m.mapIdx fun i row => (i, row)).foldl (fun k (p : Nat × List Nat) =>
    { k with pool := (p.2.mapIdx fun j y => (j, y)).foldl (fun q (z : Nat × Nat) => wrN q (k.accBase t + 128 * p.1 + 4 * z.1) 4 z.2) k.pool }) k

/-- The tile in which a unit of a card is summed: the named one, or alternately the last two of the allotment (R305). -/
def Core.unitTile (k : Core) (r : CardRec) (i : Nat) : Option Nat :=
  let acc := partAcc (k.part.getD 0)
  if cardAR r.card then some (cardTid r.card 3) else if acc ≥ 2 then some (acc - 2 + i % 2) else none

/-- Step i of a card: its unit, or pair of units, from operands to D. The N units, and the card's flags. -/
def CX.step (x : CX) (core : Option Nat) (r : CardRec) (i : Nat) : Except CErr (Nat × Bool × Bool × CX) := do
  let c := r.card
  let ls := nest c [dimM, dimN, dimB]
  let (b, m, t) := (idxIn ls dimB i, idxIn ls dimM i, idxIn ls dimN i)
  let n := nAt c t
  let us := stepUnits c t
  let vr := validRows c m
  let (ms, nan, x) ← us.foldlM (fun (p : List Mat × Bool × CX) q => do
    let vc := validCols c q
    let (v, x) ← p.2.2.value core r b m q vr vc
    let x := match core with
      | some k => (match (x.s.core k).unitTile r (unitsBefore c i + (q - n)) with
        | some t => { x with s := x.s.onCore k fun k => k.accMat t v }
        | none => x)
      | none => x
    let (bias, x) ← x.bias r q vc
    let (v, nan) := epiMat c bias v
    return (p.1 ++ [v], p.2.1 || nan, x)) ([], false, x)
  if cardAR c || r.part then return (0, false, false, x)
  else
    let (b, i) := (cardB0 c + b, cardRow0 c + m)
    let (sat, x) ← x.putUnit r b i (cardCol0 c + n) (startCol c n) (cardRnd c (r.ent 3) b i) ms
    return (us.length, sat, nan, x)

/-- Poison the lines of D that step i would fill (R436). -/
def State.poisonUnit (s : State) (a : Asker) (r : CardRec) (i : Nat) : State :=
  let c := r.card
  let e := r.ent 3
  if cardAR c || r.part then s
  else
    let ls := nest c [dimM, dimN, dimB]
    let n := cardCol0 c + nAt c (idxIn ls dimN i)
    (upTo (unitLines (entEf e))).foldl (fun s l =>
      s.ePoison a (tilePlace r e (cardB0 c + idxIn ls dimB i) (cardRow0 c + idxIn ls dimM i) (unitCol (entEf e) n) l)) s

/-! ### GMS (R310) -/

/-- x of a GMS pair: elements of A's row, rounded to B's format where A is FP32. -/
def gmsX (fa fb : Nat) (bs : List Nat) (n : Nat) : List Num :=
  (upTo n).map fun i =>
    let w := efBytes fa
    let v := toNum (efFmt fa) (ofElems 8 ((bs.drop (w * i)).take w))
    if fa = 0 then toNum (efFmt fb) (putNum (efFmt fb) .rn v).1 else v

/-- The K steps of one N unit of a pair: 32 sums from +0. -/
def CX.gmsSums (x : CX) (r : CardRec) (wb n : Nat) (xs : List Num) : Nat → Nat → List Nat → Except CErr (List Nat × CX)
  | 0, _, acc => .ok (acc, x)
  | left + 1, k, acc => do
    let e := r.ent 1
    let (ls, x) ← x.lines (tilePlace r e wb (cardCol0 r.card + n) (cardK0 r.card + k)) 17 []
    let w := tileRows (entEf e) (byteIn ls)
    let seg := (xs.drop (16 * k)).take 16
    x.gmsSums r wb n xs left (k + 1) (acc.mapIdx fun j y => (accStep .rn y (exactDot (seg.zip ((w[j]?).getD [])))).1)

/-- Combine n values into elements of a row of D from an address on; whether an element is a NaN after it. -/
def CX.combine (x : CX) (r : CardRec) (e : Line) (va : Word) : List Nat → Bool → Except CErr (Bool × CX)
  | [], nan => .ok (nan, x)
  | y :: t, nan => do
    let f := efFmt (entEf e)
    let n := efBytes (entEf e)
    let (l, x) ← x.take (x.s.eComb x.a (enginePlace r.origin (entMode e) va) n (combElem f (toNum .f32 y)))
    let new := combElem f (toNum .f32 y) (fromByte l (va.toNat % 64) n)
    x.combine r e (modeAdd (entMode e) va n) t (nan || isNaN (toNum f new))

/-- The N units of a pair: whether an output was a NaN (R301). -/
def CX.gmsUnits (x : CX) (r : CardRec) (wb out : Nat) (xs : List Num) : Nat → Nat → Bool → Except CErr (Bool × CX)
  | 0, _, nan => .ok (nan, x)
  | left + 1, n, nan => do
    let e := r.ent 3
    let (ys, x) ← x.gmsSums r wb n xs (cardExt r.card dimK) 0 (List.replicate 32 0)
    -- only the columns that lie in D's row enter it (R331)
    let ys := ys.take (min (validCols r.card n) (entRs e / efBytes (entEf e) - 32 * (cardCol0 r.card + n)))
    let va := modeAdd (entMode e) (entBase e) (out * entRs e + 32 * (cardCol0 r.card + n) * efBytes (entEf e))
    let (nan, x) ← x.combine r e va ys nan
    x.gmsUnits r wb out xs left (n + 1) nan

/-- What a step of a GMS card did: units combined, IDXBOUNDS met, a NaN, where to go on; the end of the card. -/
structure GmsR where
  units : Nat
  bad   : Bool
  nan   : Bool
  next  : Nat
  past  : Bool

/-- One pair of a GMS card: `at'` is group * 2^32 + the pair's number in the group, or in the card's block of it. -/
def CX.gmsStep (x : CX) (r : CardRec) (at' : Nat) : Except CErr (GmsR × CX) := do
  let c := r.card
  let g := at' / 2 ^ 32
  let q := at' % 2 ^ 32
  let p := r.pairs.getD 0 + q
  let nextGroup := (g + 1) * 2 ^ 32
  if g ≥ cardExt c dimG then return ({ units := 0, bad := false, nan := false, next := at', past := true }, x)
  else
    let ec := r.ent 2
    let m := entMode ec
    let d := modeAdd m (entBase ec) (16 * (cardB0 c + g))
    let (ptr, x) ← x.num r.origin m d 8
    let (npr, x) ← x.num r.origin m (modeAdd m d 8) 4
    let (wb, x) ← x.num r.origin m (modeAdd m d 12) 4
    if p ≥ npr || (r.pairs.isSome && q ≥ 32) then return ({ units := 0, bad := false, nan := false, next := nextGroup, past := false }, x)
    else if wb ≥ entW3 (r.ent 1) then return ({ units := 0, bad := true, nan := false, next := nextGroup, past := false }, x)
    else
      let va := ptrAdd (BitVec.ofNat 64 ptr) (8 * p)
      let (i, x) ← x.num r.origin .g va 4
      let (o, x) ← x.num r.origin .g (ptrAdd va 4) 4
      let none' := i = 0xFFFFFFFF && o = 0xFFFFFFFF
      let bad := !none' && (i = 0xFFFFFFFF || o = 0xFFFFFFFF || i ≥ entLo (r.ent 0) || o ≥ entLo (r.ent 3))
      if none' || bad then return ({ units := 0, bad := bad, nan := false, next := at' + 1, past := false }, x)
      else
        let ea := r.ent 0
        let k := 16 * cardExt c dimK
        let w := efBytes (entEf ea)
        let row := modeAdd (entMode ea) (entBase ea) (i * entRs ea + 16 * cardK0 c * w)
        let (bs, x) ← x.bytes r.origin (entMode ea) row (piecesOf row (k * w)) []
        let (nan, x) ← x.gmsUnits r wb o (gmsX (entEf ea) (entEf (r.ent 1)) bs k) (cardExt c dimN) 0 false
        return ({ units := cardExt c dimN, bad := false, nan := nan, next := at' + 1, past := false }, x)

/-! ### CARD_RUN (R305) -/

/-- Count the units of a step whose D writes are acknowledged, and its flags. -/
def CardRec.counted (r : CardRec) (units : Nat) (sat nan : Bool) (at' : Nat) (past : Bool) : CardRec :=
  { r with prog := r.prog + units, satf := r.satf || sat, nanf := r.nanf || nan, at' := at', ran := r.ran || past }

/-- A truth value in a step's note. -/
def bitNat (b : Bool) : Nat := if b then 1 else 0

/-- One step of an accepted card at a unit: at its sequencer, or at the parent that combines the segments of a split K. -/
def State.unitStep (s : State) (lvl unit : Nat) (core : Option Nat) (r : CardRec) : State :=
  let bad := fun (s : State) => s.poisonUnit (r.who.engine (unitAgent lvl unit)) r r.at'
  if cardOp r.card = 0x0A then
    s.cardStep lvl unit r core bad (fun x => do
      let (g, x) ← x.gmsStep r r.at'
      return ([g.units, bitNat g.nan, g.next, bitNat g.past, bitNat g.bad], x)) fun note s =>
      s.onCard lvl unit r.id fun r => match note with
        | [n, nan, next, past, bad] =>
          let r := r.counted n false (nan == 1) next (past == 1)
          if bad = 1 && r.code = 0 then { r with code := 6, sev := 2, path := cardPath r.card, funit := funitOf lvl unit } else r
        | _ => r
  else
    s.cardStep lvl unit r core bad (fun x => do
      let (n, sat, nan, x) ← x.step core r r.at'
      return ([n, bitNat sat, bitNat nan], x)) fun note s =>
      s.onCard lvl unit r.id fun r => match note with
        | [n, sat, nan] => r.counted n (sat == 1) (nan == 1) (r.at' + 1) (decide (r.at' + 1 ≥ cardUnits r.card))
        | _ => r

/-- The claim of a core's sequencer for a card. -/
def Core.seqClaim (k : Core) (id : Nat) : Option Claim := k.claims.find? fun c => c.who.isNone && c.card == id

/-- The sequencer works on the card at the head of its queue: the claim of its slots, then a unit a step. -/
def State.cardRun (s : State) (core : Nat) : State :=
  match (s.unit 1 core).queue with
  | [] => s
  | r :: _ =>
    if !r.accepted || r.ran || isFence r.card || !s.engineOn core then s
    else if cardSL r.card || r.slots.isSome then s.unitStep 1 core (some core) r
    else
      let k := s.core core
      match k.seqClaim r.id with
      | none =>
        let cl : Claim := { id := k.nextClaim, who := none, n := 4, card := r.id, granted := none }
        s.setCore core { k with nextClaim := k.nextClaim + 1, claims := k.claims ++ [cl] }
      | some cl =>
        match cl.granted with
        | none => s
        | some m =>
          (s.setCore core { k with claims := k.claims.filter fun c => c.id != cl.id }).onCard 1 core r.id fun r => { r with slots := some m }

/-! ### Collectives (R344 to R346) -/

/-- Lines of a member's A tiles for a unit: this device's own, or another member's, which no model of one device knows. -/
def CX.leaf (x : CX) (r : CardRec) (own rank i n : Nat) : Except CErr (List Line × CX) := do
  let e := r.ent 0
  let k := unitLines (entEf e)
  if rank = own then x.lines (tilePlace r e 0 i (unitCol (entEf e) n)) k []
  else
    let f := x.s.fresh
    return ((upTo k).map fun l => Config.freeLine (f + l), { x with s := { x.s with fresh := f + k } })

/-- Leaves of all ranks. -/
def CX.leaves (x : CX) (r : CardRec) (own i n : Nat) : Nat → List (List Line) → Except CErr (List (List Line) × CX)
  | 0, acc => .ok (acc, x)
  | left + 1, acc => do
    let (l, x) ← x.leaf r own acc.length i n
    x.leaves r own i n left (acc ++ [l])

/-- Rounding of a node of the reduction: of the node at a level and a position, for an element of A's tensor (R345). -/
def nodeRnd (c e : Line) (lvl pos row col : Nat) : Rounding := srRound (elemKey pos (cardB0 c * 16 + lvl) row (unitsRow e) col)
/-- A block-format node of the reduction: the sum of two children, quantised row by row of its grid tiles and read back (R345).
The unit begins at global row `row0` and global column `col0`. -/
def bxNode (c e : Line) (row0 col0 lvl pos : Nat) (a b : Mat) : Mat × Bool :=
  match efBx (entEf e) with
  | none => (addMat a b, false)
  | some bx =>
    let w := tileCols (entEf e)
    let part := fun (row t : Nat) (vals : List Nat) =>
      let (q, e0, e1) := quantise bx (cardDelta c)
        (fun col => nodeRnd c e lvl pos (row0 + row) (col0 + w * t + col)) (vals.map (toNum .f32))
      (q.map fun x => num32 (bxValue bx e0 e1 x.1), (allFlags q).getLsbD 5)
    let rows : List (List (List Nat × Bool)) := (addMat a b).mapIdx fun row vals =>
      (upTo ((vals.length + w - 1) / w)).map fun t => part row t ((vals.drop (w * t)).take w)
    (rows.map fun ps => ps.flatMap fun p => p.1, rows.any fun ps => ps.any fun p => p.2)

/-- One level of the tree over the ranks. -/
def nodeLevel (f : Nat → Mat → Mat → Mat × Bool) : Nat → List Mat → List Mat × Bool
  | p, a :: b :: t =>
    let (m, s) := f p a b
    let (r, s') := nodeLevel f (p + 1) t
    (m :: r, s || s')
  | _, l => (l, false)
/-- The reduction of the leaves down to the root's two children (R345), with the root's level: the sum of the two is not yet in the
root's format. -/
def reduceTree (f : Nat → Nat → Mat → Mat → Mat × Bool) : Nat → Nat → List Mat → Mat × Nat × Bool
  | 0, lvl, l => (l.headD [], lvl, false)
  | fuel + 1, lvl, l =>
    match l with
    | [] => ([], lvl, false)
    | [a] => (a, lvl, false)
    | [a, b] => (addMat a b, lvl, false)
    | l =>
      let (l, s) := nodeLevel (f lvl) 0 l
      let (m, top, s') := reduceTree f fuel (lvl + 1) l
      (m, top, s || s')

/-- Cut or join the columns of a BX4 row that two units share: a whole grid tile of 64 columns. -/
def leafMat (ef n vr vc : Nat) (ls : List Line) : Mat :=
  let v := unitVals ef n (byteIn ls)
  mat vr vc fun i j => num32 (numAt v i j)

/-- One unit of a collective card: the reduction of the members' units, or a member's unit bit for bit. For BX4 the step is
the whole grid tile's units. -/
def CX.collStep (x : CX) (r : CardRec) (p own at' : Nat) : Except CErr (Nat × Bool × Bool × CX) := do
  let c := r.card
  let e := r.ent 0
  let d := r.ent 3
  let ls := nest c [dimM, dimN]
  let units := extents ls
  let op := cardOp c
  let rank := at' / units
  let (m, t) := (idxIn ls dimM (at' % units), idxIn ls dimN (at' % units))
  let us := stepUnits c t
  let (n, f) := (nAt c t, us.length)
  let rows := cardExt c dimM / p
  -- REDSCAT keeps its own slice of the sum only
  if op = 0x0D && !(decide (own * rows ≤ m) && decide (m < (own + 1) * rows)) then return (0, false, false, x)
  else
    let di := cardRow0 c + (if op = 0x0C then rank * cardExt c dimM + m else if op = 0x0D then m - own * rows else m)
    let (i, j) := (cardRow0 c + m, cardCol0 c + n)
    let vr := validRows c m
    let vcs := us.map (validCols c)
    let cols := vcs.foldl (· + ·) 0
    let c0 := startCol c n
    -- a member's unit bit for bit; so too the reduction of a group of one in a block format, whose root is the leaf
    if op = 0x0C || (p == 1 && decide (3 ≤ entEf e ∧ entEf e ≤ 5)) then
      let (l, x) ← x.leaf r own rank i j
      let mask := tileMask (entEf d) vr c0 cols
      let (ol, x) ← if entEf d = 3 && cols % 2 = 1 then x.lines (tilePlace r d 0 di (unitCol 3 j)) 17 [] else .ok ([], x)
      let x ← (l.mapIdx fun q y => (q, y)).foldlM (fun (x : CX) (q : Nat × Line) =>
        let w := mask q.1
        if w = 0 then .ok x
        else x.put (tilePlace r d 0 di (unitCol (entEf d) j) q.1) (keepHalf (entEf d) vr (c0 + cols) q.1 q.2 ((ol[q.1]?).getD q.2)) w) x
      return (f, false, false, x)
    else
      let (lv, x) ← x.leaves r own i j p []
      let leafs := lv.map fun l => (upTo f).foldl (fun (m : Mat) q =>
        let a := leafMat (entEf e) (j + q) vr ((vcs[q]?).getD 0) l
        if m.isEmpty then a else m.mapIdx fun k row => row ++ (a[k]?).getD []) []
      let (sum, top, s1) := reduceTree (bxNode c e (32 * i) (32 * j)) 32 0 leafs
      let fin := sum.map fun row => row.map fun y => epiElem 0 none y
      let vals : Mat := fin.map fun row => row.map fun y => y.1
      let nan := fin.any fun row => row.any fun y => y.2
      let parts := (upTo f).map fun q => vals.map fun row => (row.drop (32 * q)).take 32
      let (s2, x) ← x.putUnit r 0 di j c0 (fun q row col =>
        if 3 ≤ entEf d ∧ entEf d ≤ 5 then nodeRnd c e top 0 (32 * i + row) (q * tileCols (entEf d) + col) else roundRne) parts
      return (f, s1 || s2, nan, x)
where
  /-- bytes of line q of a unit's tiles that its valid positions fill -/
  tileMask (ef vr c0 cols q : Nat) : BitVec 64 :=
    (upTo 64).foldl (fun m b => if byteValid ef vr c0 cols (64 * q + b) then m ||| byteMask b 1 else m) 0
  byteValid (ef vr c0 cols o : Nat) : Bool :=
    if ef = 0 then decide (o / 128 < vr) && decide (o % 128 / 4 < cols)
    else
      let t := o / 1088
      let b := o % 1088
      let w := if ef = 3 then 64 else tileCols ef
      let have' := cols - t * w
      if b < 1024 then decide (b / 32 < vr) &&
        (if ef = 3 then decide (c0 ≤ 2 * (b % 32)) && decide (2 * (b % 32) < c0 + have') else if ef = 4 then decide (b % 32 < have') else decide (b % 32 / 2 < have'))
      else decide ((b - 1024) / 2 < vr) && decide (have' > 0)
  /-- the masked half of a BX4 byte keeps its contents -/
  keepHalf (ef vr cols q : Nat) (new old : Line) : Line :=
    if ef = 3 && cols % 2 = 1 then
      (upTo vr).foldl (fun l r =>
        let o := 32 * r + cols / 2
        if o / 64 = q then
          let sh := 8 * (o % 64) + 4
          (l &&& ~~~(0xF#512 <<< sh)) ||| (old &&& (0xF#512 <<< sh))
        else l) new
    else new

/-- The members agree on the card: what the others have pushed is theirs to say (R344). -/
def State.collAgree (s : State) (p : Nat) : Bool := p == 1 || (Config.freeWord s.fresh).getLsbD 0

/-- The fabric engine works on the collective card at the head of its queue, a unit a step; the first step finds whether the
members agree. -/
def State.collRun (s : State) : State :=
  match (s.unit 5 0).queue with
  | [] => s
  | r :: _ =>
    if !r.accepted || r.ran || !isCollective r.card || !s.unitOn 5 0 then s
    else
      let g := cardTid r.card 2
      let p := fgSize (s.fgroup g)
      let own := fgRank (s.fgroup g)
      let total := extents (nest r.card [dimM, dimN]) * (if cardOp r.card = 0x0C then p else 1)
      let first := r.at' = 0 && (s.ebuf .fabric).isNone
      if first && !s.collAgree p then
        s.used.onCard 5 0 r.id fun r => r.fail 3 4 0 (funitOf 5 own)
      else
        (if first && p != 1 then s.used else s).cardStep 5 0 r none id (fun x => do
            let (n, sat, nan, x) ← x.collStep r p own r.at'
            return ([n, bitNat sat, bitNat nan], x)) fun note s =>
          s.onCard 5 0 r.id fun r => match note with
            | [n, sat, nan] => r.counted n (sat == 1) (nan == 1) (r.at' + 1) (decide (r.at' + 1 ≥ total))
            | _ => r

/-- CARD_RUN: the sequencer of a core; number 8,192 stands for the fabric engine and its collectives. -/
def execCardRun (core : Nat) (s : State) : Host.Outcome State Fault Refusal :=
  .next (if core < 8192 then s.cardRun core else s.collRun)

/-! ### CARD_DECOMPOSE (R315) -/

/-- A CFENCE stands before a card in its queue (R313). -/
def behindFence (q : List CardRec) (id : Nat) : Bool := (q.takeWhile fun r => r.id != id).any fun r => isFence r.card

/-- Some child computes a segment of a K that this card's unit has split: the unit combines the segments itself. -/
def CardRec.combines (r : CardRec) : Bool := !r.part && r.children.any fun c => c.part
/-- A GMS card of which some group's blocks are still to be issued. -/
def CardRec.splits (r : CardRec) : Bool := cardOp r.card == 0x0A && decide (r.at' < cardExt r.card dimG)
/-- Every child issued has reported. -/
def CardRec.heard (r : CardRec) : Bool := r.issued && r.children.all fun c => c.done

/-- Issue a card's next child; a full queue waits. After a fault no further child is issued (R318). -/
def State.issueChild (s : State) (lvl unit : Nat) (r : CardRec) : State :=
  if r.code != 0 then s.onCard lvl unit r.id fun r => { r with issued := true, children := r.children.filter fun c => c.sent }
  else match r.children.find? fun c => !c.sent with
  | none => s.onCard lvl unit r.id fun r => { r with issued := true }
  | some c =>
    let card := sealCard c.card (s.unit lvl unit).sent
    match s.pushCard (lvl - 1) c.unit card r.who r.origin (some (lvl, unit, r.id, c.no)) c.part c.pairs c.resume with
    | none => s
    | some s =>
      (s.onUnit lvl unit fun q => { q with sent := q.sent + 1 }).onCard lvl unit r.id fun r =>
        let cs := r.children.map fun d => if d.no = c.no then { d with sent := true, card := card } else d
        { r with children := cs, issued := !r.splits && cs.all fun d => d.sent }

/-- A GMS card above L1: the descriptor of its next group is read, and the group's blocks become children (R315). -/
def State.gmsSplit (s : State) (lvl unit : Nat) (r : CardRec) : State :=
  s.cardRead lvl unit r none id fun x => do
    let ec := r.ent 2
    let m := entMode ec
    let (npr, x) ← x.num r.origin m (modeAdd m (entBase ec) (16 * (cardB0 r.card + r.at') + 8)) 4
    return x.s.onCard lvl unit r.id fun r =>
      let r := { r with children := r.children ++ x.s.pairChildren lvl unit r r.at' npr, at' := r.at' + 1 }
      { r with issued := !r.splits && r.children.all fun d => d.sent }

/-- The package engine of another member works on its card (R26, R314), as any unit would (log entry 83); a path that is down refuses it
(R334). -/
def State.peerRun (s : State) (unit : Nat) : State :=
  match (s.unit 4 unit).queue.find? fun r => !r.ran with
  | none => s
  | some r =>
    if !r.accepted then s
    else if isFence r.card then s.onCard 4 unit r.id fun r => { r with ran := true }
    else if ((s.cardGroup r.who.launch).any fun g => s.fabric.down.contains (peerKey g (unit - 1))) then
      (s.dropEbuf (.peer (unit - 1))).onCard 4 unit r.id fun r => r.fail 12 2 (cardPath r.card) (funitOf 5 (unit - 1))
    else s.unitStep 4 unit none r

/-- A level above L1 works on its cards: segments of a split K whose children have all reported are combined; the first card not
wholly issued is split, or issues its next child. -/
def State.decompose (s : State) (lvl unit : Nat) : State :=
  let q := (s.unit lvl unit).queue
  match q.find? fun r => !r.ran && r.accepted && r.combines && r.heard && r.code == 0 with
  | some r => s.unitStep lvl unit none r
  | none =>
    match q.find? fun r => !r.issued && !r.ran with
    | none => s
    | some r =>
      if !r.accepted || behindFence q r.id || isCollective r.card then s
      else if r.splits && r.code = 0 && r.children.all fun c => c.sent then s.gmsSplit lvl unit r
      else if r.children.isEmpty && cardOp r.card != 0x0A then
        let cs := s.childrenFor lvl unit r
        s.onCard lvl unit r.id fun r => { r with children := cs, issued := cs.isEmpty }
      else s.issueChild lvl unit r

/-- CARD_DECOMPOSE. -/
def execCardDecompose (lvl : Lvl) (unit : Nat) (s : State) : Host.Outcome State Fault Refusal :=
  .next (if !(lvlNo lvl ≥ 2 && s.unitOn (lvlNo lvl) unit) then s
    else if lvlNo lvl = 4 && unit > 0 then s.peerRun unit else s.decompose (lvlNo lvl) unit)

/-! ### SLOT_CLAIM_GRANT (R324, R305) -/

/-- The lowest n free slots of a core. -/
def Core.freeSlots (k : Core) (n : Nat) : List Nat := ((upTo 32).filter fun i => (k.slot i).by' == .free).take n

/-- The oldest claim of a core is granted when enough slots are free. -/
def State.claimGrant (s : State) (core : Nat) : State :=
  let k := s.core core
  match (if k.stopped then none else k.claims.find? fun c => c.granted.isNone) with
  | none => s
  | some cl =>
    let l := k.freeSlots cl.n
    if l.length < cl.n then s
    else
      let h : Holder := match cl.who with | some w => .ctx w | none => .seqr
      let mask : BitVec 32 := l.foldl (fun m i => m ||| (1#32 <<< i)) 0
      s.setCore core { k with
        slots := l.foldl (fun t i => tset t i { by' := h, pending := false }) k.slots
        claims := k.claims.map fun c => if c.id = cl.id then { c with granted := some mask } else c }

/-- SLOT_CLAIM_GRANT. -/
def execSlotClaimGrant (core : Nat) (s : State) : Host.Outcome State Fault Refusal := .next (s.claimGrant core)

/-! ### CHILD_REPORT (R318, R319) -/

/-- A child's report reaches its parent: units and flags are added; a PARITY that the child itself has met is replayed once, from the
first unit whose D write was not acknowledged (R319); the first fault is kept. -/
def CardRec.hear (r : CardRec) (lvl child code sev path funit prog : Nat) (satf nanf : Bool) (at' : Nat) : CardRec :=
  let r := { r with prog := r.prog + prog, satf := r.satf || satf, nanf := r.nanf || nanf }
  let one := fun (f : Child → Child) => { r with children := r.children.map fun c => if c.no = child then f c else c }
  match r.children.find? fun c => c.no == child with
  | none => r
  | some c =>
    if code = 13 && c.tries = 0 && r.code = 0 && funit = funitOf (lvl - 1) c.unit then
      { one fun c => { c with sent := false, tries := 1, resume := at' } with issued := false }
    else
      let r := one fun c => { c with done := true }
      if code != 0 && r.code = 0 then { r with code := code, sev := sev, path := path, funit := funit } else r

/-- CHILD_REPORT. -/
def execChildReport (i : Nat) (s : State) : Host.Outcome State Fault Refusal :=
  .next (match s.chan[i]? with
    | some { body := .report lvl unit card child code sev path funit prog satf nanf at', .. } =>
      if s.unitStopped lvl unit then s
      else (s.unsend i).onCard lvl unit card fun r => r.hear lvl child code sev path funit prog satf nanf at'
    | _ => s)

/-! ### CARD_RETIRE (R301, R304) -/

/-- A card may retire: it has run, or every child has reported; a CFENCE when everything before it has retired. -/
def CardRec.finished (lvl : Nat) (head : Bool) (r : CardRec) : Bool :=
  r.accepted &&
  (if isFence r.card then head && (lvl == 1 || r.ran || r.heard)
   else if lvl = 1 then r.ran && head
   else if isCollective r.card then r.ran && head
   else if r.children.isEmpty then r.ran || r.issued
   else r.heard && (r.ran || !r.combines || r.code != 0))

/-- The first card of a queue that may retire. -/
def firstDone (lvl : Nat) (q : List CardRec) : Option CardRec :=
  ((q.mapIdx fun i r => (i, r)).find? fun p => p.2.finished lvl (p.1 == 0)).map fun p => p.2

/-- The mailbox words of a retired card (R301). -/
def mailWord (sev code path funit prog : Nat) (satf nanf : Bool) : Word :=
  BitVec.ofNat 64 ((funit * 2 ^ 16 + min prog 0xFFFF) * 2 ^ 32 +
    (2 ^ 31 + sev * 2 ^ 28 + code * 2 ^ 22 + (if satf then 2 ^ 21 else 0) + (if nanf then 2 ^ 20 else 0) + path % 2 ^ 18))

/-- Slots that a retired card held or named are free, or are released where a release waited (R303). -/
def State.cardSlots (s : State) (core : Nat) (r : CardRec) : State :=
  let s := s.onCore core fun k =>
    { k with slots := r.slotList.foldl (fun t i => tset t i { by' := .free, pending := false }) k.slots
             claims := k.claims.filter fun c => !(c.who.isNone && c.card == r.id) }
  (upTo 32).foldl (fun s i =>
    if ((s.core core).slot i).pending && !s.slotBusy core i then
      s.onCore core fun k => { k with slots := tset k.slots i { by' := .free, pending := false } } else s) s

/-- A card retires: the report to its parent, or the root's mailbox, as a release; the resources it named are free. -/
def State.cardRetire (s : State) (lvl unit : Nat) : State :=
  match (if s.unitStopped lvl unit then none else firstDone lvl (s.unit lvl unit).queue) with
  | none => s
  | some r =>
    let s := s.onUnit lvl unit fun q => { q with queue := q.queue.filter fun x => x.id != r.id }
    let s := if lvl = 1 then s.cardSlots unit r else s
    let s := if isCollective r.card then
        { s with fabric := { s.fabric with timers := tdel s.fabric.timers (cardTid r.card 2) } } else s
    let funit := if r.code = 0 then funitOf lvl (s.unitNo lvl unit r.card) else r.funit
    match r.parent with
    | some (l, u, c, no) => s.send (.report l u c no r.code r.sev r.path funit r.prog r.satf r.nanf r.at')
    | none =>
      s.mailbox (r.who.engine (unitAgent lvl unit)) (cardMbox r.card) (mailWord r.sev r.code r.path funit r.prog r.satf r.nanf) s.nowW

/-- CARD_RETIRE. -/
def execCardRetire (lvl : Lvl) (unit : Nat) (s : State) : Host.Outcome State Fault Refusal := .next (s.cardRetire (lvlNo lvl) unit)

/-! ### ENGINE_ACCESS_RETRY (R290, R320) -/

/-- Redo the step of the operation that an engine's held access belongs to. -/
def State.engineRetry (s : State) (i : Nat) : State :=
  match s.parked[i]? with
  | none => s
  | some h =>
    if h.answer.isNone || h.req.op != .pref then s
    else
      let tag := h.req.tag
      let lvlOf : Option (Nat × Nat) := match h.req.who.agent with
        | .seqr c => some (1, c) | .cluster n => some (2, n) | .die n => some (3, n) | .package => some (4, 0) | .fabric => some (5, 0) | .peer n => some (4, n + 1)
        | _ => none
      if tag ≥ 2 ^ 31 then
        match lvlOf with
        | none => s
        | some (l, u) =>
          match (s.unit l u).queue.findIdx? fun r => cardTag r.id == tag with
          | none => s.unhold h.req.who tag h.req.lane
          | some n =>
            match (s.unit l u).queue[n]? with
            | some r =>
              if !r.accepted then s.cardAccept l u n
              else if l = 1 then s.cardRun u
              else if isCollective r.card then s.collRun
              else if !s.unitOn l u then s else if l = 4 && u > 0 then s.peerRun u else s.decompose l u
            | none => s
      else if tag ≥ 2 ^ 30 then
        match h.req.who.agent.core? with
        | none => s
        | some c =>
          match s.chan.findIdx? fun m => (match m.body with
            | .req r => m.body.isKick && some r.tag == h.req.lane &&
                (match r.who.thread? with | some w => w.core == c && kickTag w == tag | none => false)
            | _ => false) with
          | some n => s.kickAccept n
          | none => s.unhold h.req.who tag h.req.lane
      else if tag ≥ 2 ^ 20 then
        match h.req.who.agent.core? with
        | none => s
        | some c =>
          let x := (tag - 2 ^ 20) / 32
          let v := (tag - 2 ^ 20) % 32
          (match tget (s.ctx c x).streams v with
           | some st => if st.wr then s.streamDrain c x v else s.stripStep c x v
           | none => s.unhold h.req.who tag h.req.lane)
      else
        match (match h.req.who.agent with | .copy c => some c | _ => h.req.lane) with
        | none => s
        | some c =>
          match (s.core c).copy tag with
          | some o =>
            (match o.op, h.req.lane with
             | .cpy .cb .., _ => s.stageStep c tag
             | .cpy .., some ch => s.chunkStep c tag ch
             | .deal .., _ => s.dealStep c tag
             | .gather .., _ => s.gatherStep c tag
             | .sdrop .., _ => s.dropStep c tag
             | _, _ => s)
          | none => s.unhold h.req.who tag h.req.lane

/-- ENGINE_ACCESS_RETRY. -/
def execEngineAccessRetry (i : Nat) (s : State) : Host.Outcome State Fault Refusal := .next (s.engineRetry i)

/-! ### DRAIN (R102, R205, R208) -/

/-- The drain step of a core: its contexts' store buffers, strips of the copy unit's buffer, what exited threads have left in theirs and in
their write streams. -/
def State.drainAny (s : State) (core x : Nat) : State :=
  if x < 32 then s.drainCtx core x
  else if x < 288 then s.streamDrain core ((x - 32) / 8) (24 + (x - 32) % 8)
  else if x % 2 = 0 then s.drainLeft core ((x - 288) / 2)
  else s.dropStep core ((x - 288) / 2)

/-- DRAIN. -/
def execDrain (core ctx : Nat) (s : State) : Host.Outcome State Fault Refusal := .next (s.drainAny core ctx)

end Sys2Proof.Machine
end

