-- ==== Sys2Proof/Machine/EvFabric.lean ====
section
/-! DEFINITION. EvFabric.lean: what reaches the fabric engine and the replica sets from other devices (R334, R339 to R343). -/
namespace Sys2Proof.Machine

/-! ### FLIT_REPLAY (R334) -/

/-- A damaged or missing flit: replayed, which changes nothing that software sees, the fault being counted; or the path, named by
the group and rank that it leads to, is declared down and a machine check made. -/
def State.flitReplay (s : State) (link : Nat) (ok : Bool) : State :=
  let unit : BitVec 32 := BitVec.ofNat 32 (7 * 2 ^ 24 + link % 65536)
  if ok then
    let k := transKey unit mcLINK
    { s with rel := { s.rel with transients := tset s.rel.transients k (tgetD s.rel.transients k 0 + 1) } }
  else
    let s := { s with fabric := { s.fabric with down := if s.fabric.down.contains link then s.fabric.down else link :: s.fabric.down } }
    s.mcheck { kind := mcLINK, lasting := true, unit := unit, addr := 0, core := 0, ctx := 0 } 0

/-- FLIT_REPLAY. -/
def execFlitReplay (link : Nat) (ok : Bool) (s : State) : Host.Outcome State Fault Refusal := .next (s.flitReplay link ok)

/-! ### FBAR across devices (R339) -/

/-- Another member arrives at a group's barrier. -/
def State.peerArrive (s : State) (g rank : Nat) : State :=
  let w := s.fgroup g
  let b := s.fbar g
  if !w.getLsbD 0 || rank ≥ fgSize w || rank = fgRank w || b.ranks.contains rank then s
  else s.setFbar g { b with ranks := b.ranks ++ [rank] }

/-- FABRIC_BARRIER_ARRIVE. -/
def execFabricBarrierArrive (group rank : Nat) (s : State) : Host.Outcome State Fault Refusal := .next (s.peerArrive group rank)

/-- Every member of a group has arrived at its barrier. -/
def State.fbarFull (s : State) (g : Nat) : Bool :=
  let b := s.fbar g
  b.count != 0 && anyRank (fgSize (s.fgroup g)) b.ranks
where
  anyRank : Nat → List Nat → Bool
    | 0, _ => true
    | n + 1, l => l.contains n && anyRank n l

/-- The fabric engine releases its parked threads. -/
def State.fbarRelease (s : State) (g : Nat) : State :=
  if !s.fbarFull g then s
  else (s.setFbar g FBarrier.fresh).sendAll ((s.fbar g).local'.map fun p => .reply (ackTo p.1 p.2))

/-- FABRIC_BARRIER_RELEASE. -/
def execFabricBarrierRelease (group : Nat) (s : State) : Host.Outcome State Fault Refusal := .next (s.fbarRelease group)

/-! ### Timers (R340, R341) -/

/-- Nanoseconds that a timer has counted. -/
def FTimer.at' (t : FTimer) (now : Nat) : Nat := t.elapsed + (match t.from' with | some f => now - f | none => 0)
/-- Timeout of a group in ns; none when TMO is 0 (R335). -/
def State.tmo (s : State) (g : Nat) : Option Nat :=
  let t := fld (tgetD s.fabric.words1 g 0) 15 0
  if t = 0 then none else some (t * 1000000)
/-- A timer of a group has passed the timeout. -/
def State.timedOut (s : State) (g : Nat) (t : FTimer) : Bool := (s.tmo g).any fun n => decide (t.at' s.now > n)

/-- The barrier of a group times out: each parked FBAR traps, and the local arrivals are withdrawn. -/
def State.fbarTimeout (s : State) (g : Nat) : State :=
  let b := s.fbar g
  let fault : RFault := { kind := 0, absent := false, addr := BitVec.ofNat 64 g }
  (s.setFbar g { FBarrier.fresh with ranks := b.ranks.filter fun r => r != fgRank (s.fgroup g) }).sendAll
    (b.local'.map fun p => .reply { ackTo p.1 p.2 with fault := some fault })

/-- A group's collective in progress at the fabric engine. -/
def State.collCard (s : State) (g : Nat) : Option CardRec :=
  (s.unit 5 0).queue.find? fun r => isCollective r.card && cardTid r.card 2 == g && r.accepted && !r.ran

/-- The collective of a group times out (R340): which member had not arrived is not this device's to know. -/
def State.collTimeout (s : State) (g : Nat) : State :=
  match s.collCard g with
  | none => s
  | some r =>
    let n := fgSize (s.fgroup g)
    let k := (Config.freeWord s.fresh).toNat % (n - 1)
    let rank := if k < fgRank (s.fgroup g) then k else k + 1
    (s.used.dropEbuf .fabric).onCard 5 0 r.id fun r => r.fail 12 2 0 (funitOf 5 rank)

/-- The timer of a group's barrier, or of its collective, passes TMO. A device alone in its group waits for nobody. -/
def State.fabricTimeout (s : State) (g : Nat) : State :=
  if !(s.fbar g).local'.isEmpty && !s.fbarFull g && s.timedOut g (s.fbar g).timer then s.fbarTimeout g
  else if decide (fgSize (s.fgroup g) > 1) && (tget s.fabric.timers g).any (s.timedOut g) then s.collTimeout g
  else s

/-- FABRIC_TIMEOUT. -/
def execFabricTimeout (group : Nat) (s : State) : Host.Outcome State Fault Refusal := .next (s.fabricTimeout group)

/-- A member's status is known: held members stop the timer, which goes on when none is left (R341). -/
def FTimer.hear (t : FTimer) (now rank : Nat) (held : Bool) : FTimer :=
  let l := if held then (if t.held.contains rank then t.held else rank :: t.held) else t.held.filter (· != rank)
  if l.isEmpty then { elapsed := t.elapsed, from' := some (t.from'.getD now), held := l }
  else { elapsed := t.at' now, from' := none, held := l }

/-- A progress probe passes between this device and a member: this device answers, held while a stop is in force; the member's own
status moves the timers. -/
def State.probe (s : State) (g rank : Nat) (held : Bool) : State :=
  let b := s.fbar g
  let s := if b.local'.isEmpty then s else s.setFbar g { b with timer := b.timer.hear s.now rank held }
  let s := match tget s.fabric.timers g with
    | some t => { s with fabric := { s.fabric with timers := tset s.fabric.timers g (t.hear s.now rank held) } }
    | none => s
  s.tell (.probe g rank (!s.dbg.stops.isEmpty))

/-- PROGRESS_PROBE. -/
def execProgressProbe (group rank : Nat) (held : Bool) (s : State) : Host.Outcome State Fault Refusal := .next (s.probe group rank held)

/-! ### Replica sets (R342, R343) -/

/-- A frame of a set as one number: peer * 2^40 + frame. -/
def frameOf (n : Nat) : Nat × Nat := (n / 2 ^ 40, n % 2 ^ 40)

/-- The bytes of a frame that serves. -/
def State.framePage (s : State) (f : Nat × Nat) : List Byte :=
  let m := if f.1 = 0 then s.mem.bytes else tgetD s.fabric.peerMem (replKey f.1) []
  (upTo 4096).map fun i => rdByte m (f.2 * 4096 + i)

/-- There is room to log the lines of a frame of this device (R431). -/
def State.frameRoom (s : State) (f : Nat × Nat) : Bool := f.1 != 0 || (upTo 64).all fun i => s.logRoom (f.2 * 4096 + 64 * i)
/-- Log the lines of a frame of this device (R431). -/
def State.logFrame (s : State) (f : Nat) : State := (upTo 64).foldl (fun (s : State) i => s.undoLog (f * 4096 + 64 * i)) s
/-- Put a page into a frame; the lines of a frame of this device are logged (R431), and its blocks lose their keys. -/
def State.putFrame (s : State) (f : Nat × Nat) (page : List Byte) : State :=
  if f.1 = 0 then
    let s := s.logFrame f.2
    { s with mem := { s.mem with
        bytes := wrBytes s.mem.bytes (f.2 * 4096) page
        keys := s.mem.keys.filter fun k => !(decide (f.2 * 256 ≤ k.1) && decide (k.1 < f.2 * 256 + 256)) } }
  else
    let m := tgetD s.fabric.peerMem (replKey f.1) []
    { s with fabric := { s.fabric with peerMem := tset s.fabric.peerMem (replKey f.1) (wrBytes m (f.2 * 4096) page) } }

/-- An added holder receives the page as it stands. -/
def State.copyFrame (s : State) (src f : Nat × Nat) : State := s.putFrame f (s.framePage src)

/-- A change of a set takes its position at the lead: stores wait until every removed holder has acknowledged. A change that would
leave no frame, more than 16, or two on one device, is none; one whose copies find a full undo log waits (R432). The lead stays while it is
not removed. -/
def State.replicaChange (s : State) (set : Nat) (add remove : List Nat) : State :=
  let old := (tget s.mem.replicas set).getD { frames := [], removed := [] }
  let gone := old.frames.filter fun f => (remove.map frameOf).contains f
  let fresh := (add.map frameOf).filter fun f => !old.frames.contains f
  let frames := (old.frames.filter fun f => !gone.contains f) ++ fresh
  if frames.isEmpty || frames.length > 16 || !noDup (frames.map fun f => f.1) || !fresh.all s.frameRoom then s
  else
    let s := match old.frames.head? with
      | some src => fresh.foldl (fun (s : State) f => s.copyFrame src f) s
      | none => s
    { s with mem := { s.mem with replicas := tset s.mem.replicas set { frames := frames, removed := old.removed ++ gone } } }

/-- REPLICA_SET_CHANGE. -/
def execReplicaSetChange (set : Nat) (add remove : List Nat) (s : State) : Host.Outcome State Fault Refusal :=
  .next (s.replicaChange set add remove)

/-- A removed holder acknowledges its invalidation; stores held at the lead are served once all have. -/
def State.replicaAck (s : State) (set frame : Nat) : State :=
  match tget s.mem.replicas set with
  | none => s
  | some r =>
    { s with mem := { s.mem with replicas := tset s.mem.replicas set { r with removed := r.removed.filter fun f => f != frameOf frame } } }

/-- REPLICA_INVALIDATE_ACK. -/
def execReplicaInvalidateAck (set frame : Nat) (s : State) : Host.Outcome State Fault Refusal := .next (s.replicaAck set frame)

end Sys2Proof.Machine
end

