-- ==== Sys2Proof/Machine/EvDebug.lean ====
section
/-! DEFINITION. EvDebug.lean: breakpoints, stops, steps, counters and the clock (R396, R397, R401 to R412). -/
namespace Sys2Proof.Machine

/-! ### BREAKPOINT_HIT (R401) -/

/-- The next issue of a context is a pair: the line that is held says so. -/
def State.pairAt (s : State) (core : Nat) (pc : Word) : Bool :=
  match tget (s.core core).lines (fld (lineOfPc pc) 56 6) with
  | some l => pairBit (lineWord l) (fld pc 2 0)
  | none => false

/-- A breakpoint register matches a PC: EN, an index of 0 to 4, and the address. -/
def bpIs (w pc : Word) : Bool := w.getLsbD 63 && decide (fld w 2 0 ≤ 4) && fld w 56 0 == fld pc 56 0

/-- The breakpoint that the next issue of a context matches: its number and the PC matched. -/
def State.bpAt (s : State) (core x : Nat) : Option (Nat × Word) :=
  let c := s.ctx core x
  let pcs := c.pc :: (if s.pairAt core c.pc then [c.pc + 1] else [])
  ((s.core core).pcbp.filterMap fun p =>
    (pcs.find? fun pc => bpIs p.2 pc && !c.bpPass.contains (p.1, pc)).map fun pc => (p.1, pc)).head?

/-- A context about to issue at a breakpoint: with a debugger attached it halts and a stop starts; otherwise it takes BREAK. It passes
that breakpoint at its next issue there. -/
def State.breakpoint (s : State) (core x : Nat) : State :=
  match s.bpAt core x with
  | none => s
  | some (i, pc) =>
    let k := s.core core
    let s := s.onCtx core x fun c => { c with bpPass := (i, pc) :: c.bpPass, stepping := false }
    if k.dctl.getLsbD 0 then
      let s := s.traceCtx core x 5 (0xFF00 + i) pc
      let s := (s.onCtx core x fun c => { c with skid := 0 }).haltCtx core x false
      s.startStop (fld (tgetD k.pcbp i 0) 62 61) core false none
    else
      let c := s.ctx core x
      -- the issue at the PC may be a pair, of which this instruction is one (R350)
      let half := if !s.pairAt core c.pc then 0 else if pc = c.pc then 1 else 2
      (({ s with me := (core, x), took := none }).onCx fun c => { c with half := 0, pairOf := half }).trap BREAK pc

/-- BREAKPOINT_HIT. -/
def execBreakpointHit (core ctx : Nat) (s : State) : Host.Outcome State Fault Refusal := .next (s.breakpoint core ctx)

/-! ### Stops (R403 to R406) -/

/-- A stop covers a core. -/
def DStop.covers (d : DStop) (core : Nat) : Bool := inScope d.scope d.core core || d.extra.contains core
/-- A context holds a thread. -/
def Ctx.occupied (c : Ctx) : Bool := decide (c.run ≠ .free)

/-- Contexts of a core that hold threads. -/
def Core.occupied (k : Core) : List Nat := (k.ctxs.filter fun p => p.2.occupied).map fun p => p.1

/-- A stop reaches a core: its engines hold; each context halts, or, for a precise stop, waits for its next region edge. -/
def State.reach (s : State) (core : Nat) (edge : Bool) : State :=
  let s := s.onCore core fun k => { k with held := true }
  (s.core core).occupied.foldl (fun s x =>
    if edge then s.onCtx core x fun c => if c.halted || c.edgeWait.isSome then c else { c with edgeWait := some 0 }
    else s.haltCtx core x false) s

/-- A stop has halted everything it covers. -/
def State.stopDone (s : State) (d : DStop) : Bool :=
  s.cores.all fun p => !d.covers p.1 || (d.reached.contains p.1 && p.2.ctxs.all fun q => !q.2.occupied || q.2.halted)

/-- A thread is one that a stop halts. -/
def DStop.has (d : DStop) (core x : Nat) (c : Ctx) : Bool := d.halts.contains { core := core, ctx := x, inc := c.inc }
/-- Threads that a stop has halted. -/
def State.haltedOf (s : State) (d : DStop) : List (Nat × Nat × Ctx) :=
  (s.cores.filter fun p => d.covers p.1).flatMap fun p =>
    (p.2.ctxs.filter fun q => q.2.occupied && q.2.halted && d.has p.1 q.1 q.2).map fun q => (p.1, q.1, q.2)
/-- Threads of a core that no stop in force halts so far. -/
def State.unhalted (s : State) (core : Nat) : List Who :=
  ((s.core core).ctxs.filter fun q => q.2.occupied && !s.dbg.stops.any fun d => d.has core q.1 q.2).map fun q => s.who core q.1

/-- The type 9 record of one group with halted members (R405): the slice that holds the group makes it for the threads, into the ring of
their tenant on its own die (R399, R421). -/
def State.groupRecord (s : State) (launch handle : BitVec 32) (l : List Ctx) : State :=
  let skids := l.filterMap fun c => c.skidReg.map fun k => min k.1 0xFFFF
  let big := skids.foldl max 0
  let small := skids.foldl min 0xFFFF
  let cl := s.slice launch handle
  s.ringWrite (ringKey (cl / 32) ((s.launch launch.toNat).map fun x => x.tenant.toNat))
    (traceRec s.now 0 (Agent.cluster cl).code 0 9 (min l.length 0xFFFF) 0
      (BitVec.ofNat 64 (handle.toNat * 2 ^ 32 + big * 65536 + (if skids.isEmpty then 0 else small))))

/-- The records of every group that has a member halted by a stop: handle 0 of each launch, and the groups that list members. -/
def State.groupRecords (s : State) (d : DStop) : State :=
  let l := s.haltedOf d
  let launches := (l.map fun p => p.2.2.launch).eraseDups
  let s := launches.foldl (fun s n => s.groupRecord n 0 ((l.filter fun p => p.2.2.launch == n).map fun p => p.2.2)) s
  (s.sched.groups.filter fun g => g.handle != 0).foldl (fun s g =>
    let ms := (l.filter fun p => g.members.contains { core := p.1, ctx := p.2.1, inc := p.2.2.inc }).map fun p => p.2.2
    if ms.isEmpty then s else s.groupRecord g.launch g.handle ms) s

/-- The first stop that has not reached a core which it covers. -/
def State.stopFor (s : State) (core : Nat) : Option Nat := s.dbg.stops.findIdx? fun d => d.covers core && !d.reached.contains core
/-- The first stop, centred on a core, whose group records are due. -/
def State.stopNotes (s : State) (core : Nat) : Option Nat := s.dbg.stops.findIdx? fun d => d.core == core && !d.noted && s.stopDone d
/-- Change a stop. -/
def State.onStopN (s : State) (i : Nat) (f : DStop → DStop) : State :=
  { s with dbg := { s.dbg with stops := s.dbg.stops.mapIdx fun j d => if j = i then f d else d } }

/-- A stop arrives at a core; when it has halted all it covers, the group records are written. -/
def State.stopArrive (s : State) (core : Nat) : State :=
  match s.stopFor core with
  | some i =>
    (match s.dbg.stops[i]? with
     | some d => (s.onStopN i fun d => { d with reached := core :: d.reached, halts := d.halts ++ s.unhalted core }).reach core d.edge
     | none => s)
  | none =>
    match s.stopNotes core with
    | none => s
    | some i =>
      match s.dbg.stops[i]? with
      | some d => (s.onStopN i fun d => { d with noted := true }).groupRecords d
      | none => s

/-- STOP_ARRIVE. -/
def execStopArrive (core : Nat) (s : State) : Host.Outcome State Fault Refusal := .next (s.stopArrive core)

/-- A precise stop has waited for DEDGE turns (R406). -/
def State.edgeLate (s : State) (core x : Nat) : Bool :=
  let n := (s.core core).dedge
  n != 0 && ((s.ctx core x).edgeWait.any fun t => decide (t ≥ n.toNat))

/-- PRECISE_STOP_TIMEOUT. -/
def execPreciseStopTimeout (core ctx : Nat) (s : State) : Host.Outcome State Fault Refusal :=
  .next (if s.edgeLate core ctx then s.haltCtx core ctx false else s)

/-! ### The debugger's commands (R407, R408, R410) -/

/-- DCMD_STOP. -/
def execDcmdStop (core : Nat) (scope : BitVec 2) (edge : Bool) (s : State) : Host.Outcome State Fault Refusal :=
  .next (s.startStop scope.toNat core edge none)

/-- Clear the halts of a core. -/
def Core.unhalt (k : Core) : Core :=
  { k with held := false, ctxs := k.ctxs.map fun p =>
      (p.1, { p.2 with halted := false, edge := false, edgeWait := none, stepping := false, skid := 0, skidReg := none }) }

/-- Frames that waited in the port buffers go to system software when it runs again (R406, R444). -/
def State.flushPorts (s : State) : State :=
  let waiting := s.boot.portBuf
  let s := { s with boot := { s.boot with portBuf := [] } }
  waiting.foldl (fun s p => p.2.foldl (fun s f => s.tell (.frame p.1 f)) s) s

/-- Resume: every halt of the stops that cover a core is cleared, and the engines go on (R408). -/
def State.resumeStop (s : State) (core : Nat) : State :=
  let ds := s.dbg.stops.filter fun d => d.covers core
  let keep := s.dbg.stops.filter fun d => !d.covers core
  let hit := fun (c : Nat) => decide (c = core) || ds.any fun d => d.covers c
  let s := { s with
    cores := s.cores.map fun p => if hit p.1 && !(keep.any fun d => d.reached.contains p.1) then (p.1, p.2.unhalt) else p
    dbg := { s.dbg with stops := keep, stepEngines := none, pkgHalt := keep.any fun d => d.scope == 3 } }
  if s.dbg.pkgHalt then s else s.flushPorts

/-- DCMD_RESUME. -/
def execDcmdResume (core : Nat) (s : State) : Host.Outcome State Fault Refusal := .next (s.resumeStop core)

/-- Let a halted context issue once, when it is ready. -/
def Ctx.step1 (c : Ctx) : Ctx := if c.halted && c.run = .ready then { c with stepping := true } else c

/-- The engines run with a step for at most 2^20 cycles (R408). -/
def State.stepEng (s : State) (core : Nat) (eng : Bool) : State :=
  if eng then
    let e : EngStep :=
      { core := core, limit := s.cycle + 2 ^ 20
        cores := (s.cores.filter fun p => p.2.ctxs.any fun q => q.2.stepping).map fun p => p.1
        copies := s.cores.flatMap fun p => p.2.copies.map fun o => (p.1, o.id)
        cards := s.units.flatMap fun u => u.2.queue.map fun r => r.id }
    { s with dbg := { s.dbg with stepEngines := some e } }
  else s

/-- DCMD_STEP_CONTEXT. -/
def execDcmdStepContext (core ctx : Nat) (eng : Bool) (s : State) : Host.Outcome State Fault Refusal :=
  .next ((s.onCtx core ctx Ctx.step1).stepEng core eng)

/-- Every member of a group of the launch of the core's context 0 that the core's stop has halted (R407). -/
def State.stepGroup (s : State) (core : Nat) (handle : BitVec 32) : State :=
  let launch := (s.ctx core 0).launch
  let members := ((s.group launch handle).map fun g => g.members).getD []
  let stops := s.dbg.stops.filter fun d => d.covers core
  { s with cores := s.cores.map fun p => (p.1, { p.2 with ctxs := p.2.ctxs.map fun q =>
      (q.1, if q.2.launch = launch && (handle = 0 || members.contains { core := p.1, ctx := q.1, inc := q.2.inc }) &&
          stops.any (fun d => d.has p.1 q.1 q.2) then q.2.step1 else q.2) }) }

/-- DCMD_STEP_GROUP. -/
def execDcmdStepGroup (core : Nat) (handle : BitVec 32) (eng : Bool) (s : State) : Host.Outcome State Fault Refusal :=
  .next ((s.stepGroup core handle).stepEng core eng)

/-- A context's kick waits for its drain. -/
def Ctx.kicking (c : Ctx) : Bool := match c.run with | .parked _ _ (.kick ..) _ => true | _ => false
/-- What the stepped issues have kicked is done: no kick to come or on its way, no copy or card that was not there before. -/
def State.engIdle (s : State) (e : EngStep) : Bool :=
  e.cores.all (fun c =>
    (s.core c).ctxs.all (fun p => !p.2.stepping && !p.2.kicking) && (s.core c).copies.all fun o => e.copies.contains (c, o.id)) &&
  s.units.all (fun u => u.2.queue.all fun r => r.parent.isSome || !e.cores.contains r.origin || e.cards.contains r.id) &&
  s.chan.all fun m => !(m.body.isKick && (match m.body with | .req r => r.who.agent.core?.any e.cores.contains | _ => false))

/-- The engines that ran for a step hold again. -/
def State.engLimit (s : State) (core : Nat) : State :=
  match s.dbg.stepEngines with
  | some e => if e.core = core && (decide (e.limit ≤ s.cycle) || s.engIdle e) then { s with dbg := { s.dbg with stepEngines := none } } else s
  | none => s

/-- ENGINE_STEP_LIMIT. -/
def execEngineStepLimit (core : Nat) (s : State) : Host.Outcome State Fault Refusal := .next (s.engLimit core)

/-! ### TICK_LATCH (R411) -/

/-- Number of the latest tick at an instant, for the exponent k. -/
def tickAt (now k : Nat) : Nat := (9 * (now + 1) - 1) / 2 ^ (k + 2)
/-- Instant of tick n. -/
def tickTime (n k : Nat) : Nat := n * 2 ^ (k + 2) / 9
/-- A tick has not been latched. -/
def State.tickDue (s : State) : Bool := decide (s.dbg.tick < tickAt s.now s.dbg.tickExp)

/-- Write a record to a die's time-series ring. -/
def State.seriesWrite (s : State) (die : Nat) (rec : List Byte) : State :=
  let r := tgetD s.dbg.series die Ring.reset
  let (at', r) := r.put rec.length
  let s := { s with dbg := { s.dbg with series := tset s.dbg.series die r } }
  match at' with
  | none => s
  | some a => { s with mem := { s.mem with bytes := wrBytes s.mem.bytes a rec } }

/-- A record of latched values of a unit: its class and index, the number of the first, the values (R411). -/
def seriesRec (time n unit first : Nat) (vals : List Word) : List Byte :=
  padTo 64 (toBytes 8 time ++ toBytes 4 unit ++ toBytes 4 (n % 2 ^ 32) ++ toBytes 2 first ++ toBytes 1 vals.length ++ toBytes 5 0 ++
    vals.flatMap fun v => toBytes 8 v.toNat)

/-- The three records of a core's fifteen counters. -/
def State.coreSeries (s : State) (core n time : Nat) : State :=
  let val := fun (i : Nat) => if i = 0 then BitVec.ofNat 64 s.dbg.tickCyc else tgetD (s.core core).cntLat i 0
  (upTo 3).foldl (fun s i => s.seriesWrite (dieOf core) (seriesRec time n core (5 * i) ((upTo 5).map fun j => val (5 * i + j)))) s

/-- The record of a unit that is no core, of a class and on a die: its busy and stall counters, whose values no rule states (log entry 89). -/
def State.unitSeries (s : State) (cls idx die n time : Nat) : State :=
  let f := s.fresh
  { s with fresh := f + 2 }.seriesWrite die (seriesRec time n (cls * 2 ^ 24 + idx) 0 [Config.freeWord f, Config.freeWord (f + 1)])

/-- The records of every unit at a tick; the package and fabric engines, on IO die 0, write to the ring of die 0. -/
def State.allSeries (s : State) (n time : Nat) : State :=
  let s := (upTo Config.cores).foldl (fun s c => s.coreSeries c n time) s
  let s := (upTo 512).foldl (fun s i => s.unitSeries 1 i (i / 32) n time) s
  let s := (upTo 16).foldl (fun s i => s.unitSeries 2 i i n time) s
  let s := (upTo Config.stops).foldl (fun s i => s.unitSeries 3 i (i / 4) n time) s
  let s := (upTo Config.cores).foldl (fun s i => s.unitSeries 4 i (dieOf i) n time) s
  (s.unitSeries 5 0 0 n time).unitSeries 6 0 0 n time

/-- A core latches its counters, and writes its samples (R400 type 7, R411). -/
def State.latchCore (s : State) (core : Nat) : State :=
  let f := s.fresh
  let s := s.onCore core fun k => { k with
    cntLat := (upTo 5).foldl (fun t i => tset t (7 + i) (Config.freeWord (f + i))) k.cnt }
  let s := { s with fresh := f + 5 }
  if !(s.core core).dctl.getLsbD 3 then s
  else (s.core core).occupied.foldl (fun s x => s.traceCtx core x 7 (x % 8) (s.ctx core x).pc) s

/-- A tick: every unit latches its counters; a core that has held no thread since reset has counted nothing but cycles. -/
def State.tickLatch (s : State) : State :=
  if !s.tickDue then s
  else
    let n := s.dbg.tick + 1
    let s := { s with dbg := { s.dbg with tick := n, tickCyc := s.cycle } }
    let s := (s.cores.map fun p => p.1).foldl State.latchCore s
    s.allSeries n (tickTime n s.dbg.tickExp)

/-- TICK_LATCH. -/
def execTickLatch (s : State) : Host.Outcome State Fault Refusal := .next s.tickLatch

/-! ### The clock (R396, R397) -/

/-- PTP_EVENT_MESSAGE: a port takes the time of a message. -/
def execPtpEventMessage (port : Nat) (s : State) : Host.Outcome State Fault Refusal :=
  .next (if port < 8 then
    ({ s with boot := { s.boot with ptpStamps := s.boot.ptpStamps ++ [(port, s.now)] } }).tell (.timestamp port s.now) else s)

/-- Largest rate adjustment: 1,000 ppm in units of 2^-40 ns per ns. -/
def maxRate : Int := 2 ^ 40 / 1000

/-- CLOCK_RATE_ADJUST: the servo's rate, within its limits. -/
def execClockRateAdjust (adj : Word) (s : State) : Host.Outcome State Fault Refusal :=
  .next { s with rate := max (-maxRate) (min maxRate adj.toInt) }

/-- CLOCK_STEP_FORWARD. -/
def execClockStepForward (ns : Word) (s : State) : Host.Outcome State Fault Refusal :=
  .next { s with clk := s.clk + ns.toNat * Config.clkPerNs }

/-- KEEPALIVE_RESPONSE: while a package-scope stop lasts, the responder answers link traffic (R406). -/
def execKeepaliveResponse (port : Nat) (s : State) : Host.Outcome State Fault Refusal :=
  .next (if s.dbg.pkgHalt then s.tell (.keepalive port) else s)

end Sys2Proof.Machine
end

