-- ==== Sys2Proof/Machine/EvRel.lean ====
section
/-! DEFINITION. EvRel.lean: machine checks, pairs, gang switches, checkpoints, rollback, containment (R92, R364, R425 to R436). -/
namespace Sys2Proof.Machine

/-! ### Containment (R435) -/

/-- Clusters of a rectangle. -/
def State.rectClusters (s : State) (rect : Nat) : List Nat := (upTo 512).filter fun c => s.rect c == rect

/-- A core inside a set of clusters: its own cluster is, or that of the twin that mirrors it; a pair whose agreeing copies live on
elsewhere is not (R430). -/
def State.inside (s : State) (cls : List Nat) (core : Nat) : Bool :=
  !s.rel.moved.contains core &&
  (cls.contains (clusterOf core) ||
    ((match (s.core core).part with | some p => partPair p | none => false) && decide (coreX core < 64) &&
      cls.contains (clusterOf (core + 64))))

/-- The agent of a request lies inside. -/
def State.agentIn (s : State) (cls : List Nat) : Agent → Bool
  | .cluster n => cls.contains n
  | g => match g.core? with | some c => s.inside cls c | none => false

/-- A message that only a party inside waits for. -/
def State.forInside (s : State) (cls : List Nat) : Body → Bool
  | .reply r => s.inside cls r.dst.core
  | .storeAck c _ _ | .xfill c _ _ _ _ | .mergeReply c _ _ _ _ _ _ => s.inside cls c
  | .release w _ | .cancelBack w _ | .inval _ w _ _ _ _ | .clbinv _ w _ _ _ _ | .cancel _ w _ => s.inside cls w.core
  | .report l u _ _ _ _ _ _ _ _ _ _ => l == 2 && cls.contains u
  | _ => false
/-- A message that a party inside has sent and that has not been delivered. -/
def State.fromInside (s : State) (cls : List Nat) : Body → Bool
  | .req r | .retry r => s.agentIn cls r.who.agent
  | .group w _ _ _ _ | .arrive w _ _ _ => s.inside cls w.core
  | _ => false

/-- Drop the messages inside: those for a party inside, and those that a party inside has sent and that have not left the rectangle,
which the spec does not let anyone know. -/
def State.dropInside (s : State) (cls : List Nat) : State :=
  let l := s.chan.mapIdx fun i m => (i, m)
  { s with
    chan := (l.filter fun p => !s.forInside cls p.2.body &&
      !(s.fromInside cls p.2.body && (Config.freeWord (s.fresh + p.1)).getLsbD 0)).map fun p => p.2
    fresh := s.fresh + s.chan.length
    homes := s.homes.filter fun r => !(s.agentIn cls r.who.agent &&
      (match r.place, r.op with | .pool c _ _ _, _ => s.inside cls c | .unit, .ctxsv .. => true | _, _ => false))
    parked := s.parked.filter fun h => !s.agentIn cls h.req.who.agent }

/-- A request that waits at a contained pool port is refused. -/
def State.nackWaiters (s : State) (cls : List Nat) : List Req → State
  | [] => s
  | r :: t =>
    let ea := match r.place with | .pool _ _ _ ea => ea | _ => 0
    let s := if s.agentIn cls r.who.agent then s else s.reply r 0 0 (some { kind := 7, absent := false, addr := ea })
    s.nackWaiters cls t

/-- Threads of a core: those in contexts, those saved from it. -/
def Core.threads (k : Core) (core : Nat) : List (Who × Ctx) :=
  (k.ctxs.filter (fun p => p.2.occupied)).map (fun p => ({ core := core, ctx := p.1, inc := p.2.inc }, p.2)) ++
  k.paged.map (fun p => ({ core := core, ctx := p.1, inc := p.2.1.inc }, p.2.1)) ++
  k.frames.map fun p => ({ core := core, ctx := p.1 / 65536, inc := BitVec.ofNat 16 p.1 }, p.2)

/-- The launch has threads, or stores of them, on the core. -/
def Core.works (k : Core) (r : Resident) : Bool := decide (r.live ≠ 0) || !r.left.isEmpty || k.storesOut r.launch

/-- A core after its reset by containment: incarnations are kept, and what the fence answers for it in the completion tree, with SEV
3 and CONTAINED for a launch whose threads it ended (R92). -/
def Core.contained (k : Core) (dead : Bool) : Core :=
  { Core.reset with
    ctxs := k.ctxs.map fun p => (p.1, { Ctx.reset with inc := p.2.inc, nextTag := p.2.nextTag })
    phase := k.phase, dead := dead
    residents := k.residents.map fun r =>
      { r with live := 0, left := [], status := if k.works r = true then combine r.status 0x03000004 else r.status } }

/-- Threads of a launch that end on the cores inside. -/
def State.endedIn (s : State) (cls : List Nat) (launch : Nat) : Nat :=
  (s.cores.map fun p => if s.inside cls p.1 then
    ((p.2.residents.filter fun r => r.launch.toNat == launch).map fun r => r.live).sum else 0).sum

/-- A group whose slice is inside is lost: its pending joins and leaves are refused. -/
def State.dropGroup (s : State) (cls : List Nat) (g : Group) : State :=
  let refuse := fun (p : Who × Nat) => Body.reply { ackTo p.1 p.2 with fault := some { kind := 7, absent := false, addr := g.handle.setWidth 64 } }
  let out := fun (w : Who) => !s.inside cls w.core
  let l := (g.joins.filter fun p => out p.1).map refuse ++
    (g.leaves.filterMap fun p => match p.2 with | some t => if out p.1 then some (refuse (p.1, t)) else none | none => none)
  let s := s.onSched fun q => { q with groups := q.groups.filter fun x => !(x.launch == g.launch && x.handle == g.handle) }
  let s := s.sendAll l
  g.arrived.foldl (fun s w => if out w then s.groupRefused w g.handle else s) s

/-- A card above the rectangle hears that containment has ended a child (R302). -/
def State.reportLost (s : State) (cls : List Nat) (lvl unit : Nat) (r : CardRec) : State :=
  match r.parent with
  | some (l, u, c, no) =>
    if l = 2 && cls.contains u then s
    else s.send (.report l u c no 14 3 (cardPath r.card) (funitOf lvl unit) r.prog r.satf r.nanf r.at')
  | none => s

/-- The queues of the levels inside are lost. -/
def State.dropUnits (s : State) (cls : List Nat) : State :=
  let inUnit := fun (key : Nat) => (key / 8192 == 2 && cls.contains (key % 8192)) || (key / 8192 == 1 && s.inside cls (key % 8192))
  let lost := s.units.filter fun p => inUnit p.1
  let s := lost.foldl (fun s p => p.2.queue.foldl (fun s r => s.reportLost cls (p.1 / 8192) (p.1 % 8192) r) s) s
  { s with units := s.units.filter fun p => !inUnit p.1
           ebufs := s.ebufs.filter fun b => match b.own with
             | .seqr c | .copy c => !s.inside cls c
             | .cluster n => !cls.contains n
             | _ => true }

/-- Contain a set of clusters: fence, discard, reset, done messages, ended threads, refused groups and buffers. -/
def State.containAll (s : State) (cls : List Nat) : State :=
  let ins := s.cores.filter fun p => s.inside cls p.1
  let isIn := s.inside cls
  let t := s.dropInside cls
  let t := ins.foldl (fun t p => t.nackWaiters cls p.2.waiters) t
  let t : State := { t with sched := { t.sched with launches := t.sched.launches.map fun p => (p.1, { p.2 with ended := p.2.ended + s.endedIn cls p.1 }) } }
  let t := (s.sched.groups.filter fun g => cls.contains (s.slice g.launch g.handle)).foldl (fun t g => t.dropGroup cls g) t
  let t := ins.foldl (fun t p => (p.2.threads p.1).foldl (fun t w => t.sendAll (leaveAll w.1 w.2)) t) t
  let t := t.dropUnits cls
  let t : State := { t with
    cores := t.cores.map fun p =>
      if isIn p.1 = true then (p.1, p.2.contained (cls.contains (clusterOf p.1)))
      else (p.1, { p.2 with cbs := p.2.cbs.map fun q =>
        (q.1, if q.2.set && decide (q.2.role ≥ 2) && isIn q.2.pcore then { q.2 with lost := true } else q.2) })
    fabric := { t.fabric with bars := t.fabric.bars.map fun p =>
      (p.1, { p.2 with local' := p.2.local'.filter fun w => !isIn w.1.core }) }
    rel := { t.rel with contained := t.rel.contained ++ cls, faulty := t.rel.faulty.filter fun c => !cls.contains c } }
  t.mcheck { kind := mcCONTAINED, lasting := true, unit := BitVec.ofNat 32 (2 ^ 24 + cls.headD 0), addr := 0, core := coreOfCluster (cls.headD 0) 0, ctx := 0 } 0

/-- Contain the rectangle of a cluster; a contained one stays so. -/
def State.contain (s : State) (cluster : Nat) : State :=
  let cls := (s.rectClusters (s.rect cluster)).filter fun c => !s.rel.contained.contains c
  if cls.isEmpty then s else s.containAll cls

/-- CONTAINMENT. -/
def execContainment (cluster : Nat) (s : State) : Host.Outcome State Fault Refusal := .next (s.contain cluster)

/-! ### Pairs (R426 to R430) -/

/-- Twin A of a pair that runs. -/
def State.pairRuns (s : State) (core : Nat) : Bool :=
  let k := s.core core
  decide (coreX core < 64) && k.anyResident && (match k.part with | some p => partPair p | none => false)

/-- Stop every thread of a core. -/
def Core.halt (k : Core) : Core := { k with ctxs := k.ctxs.map fun p => (p.1, if p.2.occupied = true then { p.2 with run := .stopped } else p.2) }

/-- A core's fetch-parity counter (R35). -/
def Core.fetchParity (k : Core) : Core := { k with fpar := BitVec.ofNat 32 (min (k.fpar.toNat + 1) 0xFFFFFFFF) }

/-- Count a transient fault of a unit; one of a fetch counts at the core too (R35). -/
def State.transient (s : State) (unit : BitVec 32) (kind : BitVec 8) : State :=
  let s := if kind = mcFETCH && fld unit 31 24 == 0 && decide (fld unit 15 0 < Config.cores) then s.onCore (fld unit 15 0) Core.fetchParity else s
  let key := transKey unit kind
  { s with rel := { s.rel with transients := tset s.rel.transients key (tgetD s.rel.transients key 0 + 1) } }

/-- A pair's machine check. -/
def State.pairCheck (s : State) (core : Nat) : State :=
  s.mcheck { kind := mcPAIR, lasting := true, unit := BitVec.ofNat 32 core, addr := 0, core := core, ctx := 0 } 0

/-- The vote of three copies: the spec does not say which one fails. Two agreeing copies go on as the pair. -/
def State.vote (s : State) (core : Nat) : State :=
  let v := (Config.freeWord s.fresh).toNat % 3
  let s := s.used
  let keep := fun (s : State) => { s with rel := { s.rel with moved := s.rel.moved ++ [core] } }
  if v = 0 then ((keep s).pairCheck (core + 64)).contain (clusterOf (core + 64))
  else if v = 1 then ((keep s).pairCheck core).contain (clusterOf core)
  else (((s.onCore core Core.halt).pairCheck core).contain (clusterOf core)).contain (clusterOf (core + 64))

/-- The replay of a pair from its replay point: what it sends again is suppressed and what it is answered comes from the reply log, so it
computes what the first run computed (R430; log entry 85); its experience reports are made once more (R151). -/
def State.replay (s : State) (core : Nat) : State :=
  let part := (s.core core).part.getD 0
  (tgetD s.rel.reports core []).foldl (fun s (r : Nat × BitVec 16 × XHeld) => s.xTake core part r.1 r.2.1 r.2.2) s

/-- A mismatch: the pair is replayed; the first is transient, and a second one before the next replay point is voted on. -/
def State.pairMismatch (s : State) (core : Nat) : State :=
  if !s.pairRuns core then s else
  let s := s.replay core
  if tgetD s.rel.mismatch core 0 = 0 then
    ({ s with rel := { s.rel with mismatch := tset s.rel.mismatch core 1 } }).transient (BitVec.ofNat 32 core) mcPAIR
  else ({ s with rel := { s.rel with mismatch := tdel s.rel.mismatch core } }).vote core

/-- PAIR_MISMATCH. -/
def execPairMismatch (core : Nat) (s : State) : Host.Outcome State Fault Refusal := .next (s.pairMismatch core)

/-- PAIR_TIMEOUT (R428): a message of a context of the pair has waited 65,536 turns. -/
def execPairTimeout (core ctx : Nat) (s : State) : Host.Outcome State Fault Refusal :=
  .next (if (s.ctx core ctx).occupied then s.pairMismatch core else s)

/-! ### MACHINE_CHECK (R425) -/

/-- The array of a core has failed its card twice: fault PARITY, the quadrant in PATH (R301, R319). -/
def State.arrayFault (s : State) (core quadrant : Nat) : State :=
  match (s.unit 1 core).queue with
  | r :: _ =>
    if r.ran || r.code != 0 then s
    else (s.dropEbuf (.seqr core)).onCard 1 core r.id fun r =>
      { r with code := 13, sev := 2, ran := true, path := cardPath r.card / 8 * 8 + quadrant % 4, funit := funitOf 1 core }
  | [] => s

/-- What follows a lasting fault. -/
def State.lasting (s : State) (m : MCheck) : State :=
  let told := s.mcheck m (s.ctx m.core m.ctx).inc
  match m.kind.toNat with
  | 1 => if (s.ctx m.core m.ctx).occupied then told.onCtx m.core m.ctx fun c => { c with run := .stopped } else s
  | 2 => told.onCore m.core fun k => { k with ppoison := k.ppoison ++ [m.addr.toNat % 65536 / 8] }
  | 3 => told.arrayFault m.core m.addr.toNat
  | 4 =>
    let l := m.addr.toNat / 64 * 64
    if told.mem.poison.contains l then told else { told with mem := { told.mem with poison := told.mem.poison ++ [l] } }
  | 5 => { told with fabric := { told.fabric with down := told.fabric.down ++ [m.addr.toNat] } }
  | 6 => s.pairMismatch m.core
  | 7 => s.contain (clusterOf m.core)
  | _ => s

/-- MACHINE_CHECK: a detector's retry has succeeded, and the fault is counted; or it has failed. -/
def execMachineCheck (m : MCheck) (s : State) : Host.Outcome State Fault Refusal :=
  .next (if m.lasting then s.lasting m else s.transient m.unit m.kind)

/-- MACHINE_CHECK_THREAD_END: system software ends a thread that a machine check has stopped. -/
def execMachineCheckThreadEnd (core ctx : Nat) (s : State) : Host.Outcome State Fault Refusal :=
  .next (if (s.ctx core ctx).run = .stopped then s.endThread core ctx trapWord else s)

/-! ### Gang switch (R364) -/

/-- A core and the address of its save area: a core that exists, a 4,096-byte boundary of memory (R365). -/
def areaOk (p : Nat × Word) : Bool := decide (p.1 < Config.cores) && fld p.2 11 0 == 0 && (physStop p.2.toNat).isSome

/-- Write lines from a physical address on, under a tenant's key; save areas are never logged (R431). -/
def State.areaOut (s : State) (key : BitVec 16) (pa : Nat) (l : List (Nat × Line)) : State :=
  (l.foldl (fun s p => s.writePhys key (pa + p.1) p.2 (BitVec.ofNat 64 (2 ^ 64 - 1))) s).mailWake

/-- Offset of a context's frame in a save area (R365). -/
def areaFrame (x : Nat) : Nat := 0x1C000 + x * 0x2A000

/-- Write a core's save area (R365): pool image, operand slots, engine state and the core's own words, in a layout that no program can
interpret (free values), and the frame of every context that holds a thread, under the thread's key (R366). -/
def State.areaSave (s : State) (core pa : Nat) : State :=
  let k := s.core core
  let free := fun (s : State) (off n : Nat) =>
    { s.areaOut 0 (pa + off) ((upTo n).map fun i => (64 * i, Config.freeLine (s.fresh + i))) with fresh := s.fresh + n }
  let s := s.areaOut 0 pa ((upTo 1024).map fun i => (64 * i, k.poolLine (64 * i)))
  let s := s.areaOut 0 (pa + 0x10000)
    ((upTo 32).flatMap fun i => (upTo 17).map fun l => (1088 * i + 64 * l, rdLine k.opmem (2048 * i + 64 * l)))
  let s := free s 0x18800 128
  let s := free s 0x1A800 96
  k.ctxs.foldl (fun s p =>
    if p.2.occupied then s.areaOut p.2.tenant (pa + areaFrame p.1) (frameLines core p.1 p.2 (k.heldSlots (s.who core p.1))) else s) s

/-- A core comes to a stop (R364): its experience is merged and the cache emptied (R147). -/
def State.quiesce (s : State) (core : Nat) : State :=
  let s := (s.mergeWhere core (fun _ => true) none).1
  let s := (upTo 32).foldl (fun s x => s.finishWrite core x) s
  s.onCore core fun k => { k.takeCsrs with xcache := k.xcache.filter fun e => e.gone }

/-- A core stops for a gang switch (R364): its save area is written. -/
def State.switchCore (s : State) (p : Nat × Word) : State :=
  (((s.quiesce p.1).onCore p.1 fun k => { k with stopped := true })).areaSave p.1 p.2.toNat

/-- GANG_SWITCH. -/
def execGangSwitch (areas : List (Nat × Word)) (s : State) : Host.Outcome State Fault Refusal :=
  .next ((areas.filter fun p => areaOk p && !(s.core p.1).stopped).foldl State.switchCore s)

/-- Read n lines from a physical address on, under a tenant's key. -/
def State.areaIn (s : State) (key : BitVec 16) (pa n : Nat) : List Line × State :=
  (upTo n).foldl (fun q i =>
    let (l, s) := q.2.readPhys key (pa + 64 * i)
    (q.1 ++ [l], s)) ([], s)

/-- Reload a context's registers from its frame. -/
def State.areaCtx (s : State) (core pa x : Nat) : State :=
  let c := s.ctx core x
  if c.occupied then
    let (ls, s) := s.areaIn c.tenant (pa + areaFrame x) 128
    s.setCtx core x (frameCtx (byteIn ls) c)
  else s

/-- Reload a core's pool, operand slots and contexts from its save area. What the area keeps in a layout of the core's own has stayed with
the core. -/
def State.areaLoad (s : State) (core pa : Nat) : State :=
  let (pool, s) := s.areaIn 0 pa 1024
  let (slots, s) := s.areaIn 0 (pa + 0x10000) 544
  let s := s.onCore core fun k => { k with
    pool := (pool.mapIdx fun i l => (i, l)).foldl (fun m p => wrMasked m (64 * p.1) p.2 (BitVec.ofNat 64 (2 ^ 64 - 1)) 64) k.pool
    opmem := (slots.mapIdx fun i l => (i, l)).foldl (fun m p =>
      wrMasked m (p.1 / 17 * 2048 + p.1 % 17 * 64) p.2 (BitVec.ofNat 64 (2 ^ 64 - 1)) 64) k.opmem }
  (upTo 32).foldl (fun s x => s.areaCtx core pa x) s

/-- A core resumes (R364): its state is reloaded, and its snapshot cache is empty (R228). -/
def State.resumeCore (s : State) (p : Nat × Word) : State :=
  ((s.areaLoad p.1 p.2.toNat).onCore p.1 fun k => { k with stopped := false }).snapEmpty p.1

/-- GANG_RESUME. -/
def execGangResume (areas : List (Nat × Word)) (s : State) : Host.Outcome State Fault Refusal :=
  .next ((areas.filter fun p => areaOk p && (s.core p.1).stopped).foldl State.resumeCore s)

/-! ### Checkpoints (R433, R434) -/

/-- Every core's snapshot cache is empty (R228). -/
def State.snapsEmpty (s : State) : State := s.cores.foldl (fun s p => s.snapEmpty p.1) s

/-- The close of an interval begins: every unit stops, the state is saved, and the lines logged are copied to a journal. -/
def State.closeInterval (s : State) : State :=
  if s.rel.closing then s
  else
    let s := s.cores.foldl (fun s p => if p.2.stopped then s else s.quiesce p.1) s
    let saved : Checkpt :=
      { cores := s.cores, chan := s.chan, homes := s.homes, parked := s.parked, units := s.units, ebufs := s.ebufs, fwds := s.mem.fwds, sched := s.sched
        bars := s.fabric.bars }
    let lines := (s.mem.stops.map fun p => p.2.log.map fun r => (r.line, rdLine s.mem.bytes r.line)).flatten
    { s with rel := { s.rel with closing := true, saved := some saved, journals := tset s.rel.journals s.mem.interval lines } }

/-- CHECKPOINT_CLOSE. -/
def execCheckpointClose (s : State) : Host.Outcome State Fault Refusal := .next s.closeInterval

/-- The device is off and on again: it boots (R441, R447). What outside parties bring stays to come. -/
def State.coldReset (s : State) : State :=
  { State.reset with
    boot := { Boot.reset with state := 1, harts := [], secver := s.boot.secver }
    agenda := s.agenda, out := s.out, fresh := s.fresh, store := s.store }

/-- The logs are emptied and a new interval begins. -/
def State.nextInterval (s : State) : State :=
  { s with mem := { s.mem with
      interval := s.mem.interval + 1, stops := s.mem.stops.map fun p => (p.1, { p.2 with log := [], early := false }) } }

/-- Every copy is acknowledged: the commit record is written, and the units resume; a reset that waited takes effect (R447). -/
def State.commit (s : State) : State :=
  if !s.rel.closing then s
  else
    let s := { s with rel := { s.rel with closing := false, commits := s.rel.commits ++ [s.mem.interval] } }
    let s := s.nextInterval.snapsEmpty
    if s.boot.pendingReset then s.coldReset else s

/-- COMMIT_RECORD. -/
def execCommitRecord (s : State) : Host.Outcome State Fault Refusal := .next s.commit

/-- Write one record of an undo log back: the line's bytes, keys and bands; a line wholly rewritten is poisoned no more. -/
def Memory.unwrite (m : Memory) (r : UndoRec) : Memory :=
  let keys := (upTo 4).foldl (fun t i => match (r.tags[i]?).join with
    | some k => tset t (r.line / 16 + i) k
    | none => tdel t (r.line / 16 + i)) m.keys
  let m := { m with bytes := wrMasked m.bytes r.line r.old (BitVec.allOnes 64) 64, keys := keys, poison := m.poison.filter (· != r.line) }
  (upTo 2).foldl (fun m i => m.setBand (r.line + 32 * i) ((r.bands[i]?).getD 0)) m

/-- Back to the last committed close; no translation of a table that has been undone stays in a TLB (log entry 91). -/
def State.rollBack (s : State) : State :=
  if s.rel.closing then s
  else
    match s.rel.saved with
    | none => s
    | some c =>
      let recs := (s.mem.stops.map fun p => p.2.log).flatten
      let s : State := { s with mem := recs.foldl Memory.unwrite s.mem }
      let s : State := { s with
        cores := c.cores, chan := c.chan, homes := c.homes, parked := c.parked, units := c.units, ebufs := c.ebufs, sched := c.sched
        fabric := { s.fabric with bars := c.bars }
        mem := { s.mem with fwds := c.fwds, tlb := [], stops := s.mem.stops.map fun p => (p.1, { p.2 with log := [], early := false }) } }
      s.snapsEmpty

/-- ROLLBACK. -/
def execRollback (s : State) : Host.Outcome State Fault Refusal := .next s.rollBack

end Sys2Proof.Machine
end

