-- ==== Sys2Proof/Machine/EvBoot.lean ====
section
/-! DEFINITION. EvBoot.lean: boot, management, the host, the ports, heat and power, and what system cores read and write (R335,
R358, R360, R367, R371, R399, R410, R411, R438 to R449). -/
namespace Sys2Proof.Machine

/-! ### The configuration block (R442) -/

/-- n bytes of the block from an offset, as a number. -/
def cfgN (c : List Byte) (off n : Nat) : Nat := ofBytes ((c.drop off).take n)

/-- The block keeps its limits, and is for this device. -/
def cfgOk (c : List Byte) (secver : Nat) : Bool :=
  c.length == 128 && cfgN c 0 4 == 0x46435844 && decide (1 ≤ cfgN c 4 4) && decide (secver ≤ cfgN c 4 4) &&
  cfgN c 98 1 % 2 == 1 && cfgN c 101 3 == 0 && decide (1000 ≤ cfgN c 104 4 ∧ cfgN c 104 4 ≤ 8000) &&
  decide (cfgN c 108 2 ≤ 105) && decide (cfgN c 110 2 ≤ 115) && decide (cfgN c 108 2 < cfgN c 110 2) && cfgN c 112 16 == 0 &&
  (cfgN c 8 16 == 0 || BitVec.ofNat 128 (cfgN c 8 16) == Config.deviceId)

/-- Bit i of a field of the block in force; with no block everything is enabled (log entry 16). -/
def Boot.cfgBit (b : Boot) (off i : Nat) : Bool := b.config.isEmpty || (cfgN b.config off 8).testBit i
/-- Junction temperature for wake refusal. -/
def Boot.tthrot (b : Boot) : Nat := if b.config.isEmpty then 105 else cfgN b.config 108 2
/-- Junction temperature for a thermal stop. -/
def Boot.tstop (b : Boot) : Nat := if b.config.isEmpty then 115 else cfgN b.config 110 2

/-- Change the boot record. -/
def State.onBoot (s : State) (f : Boot → Boot) : State := { s with boot := f s.boot }

/-! ### Boot (R441, R443) -/

/-- POWER_ON: the security core starts from its ROM, with every core gated. -/
def execPowerOn (s : State) : Host.Outcome State Fault Refusal := .next s.coldReset

/-- A fetch or a verification fails: the next try starts with the fetch; after eight failures in a row it waits. -/
def Boot.failed (b : Boot) (now : Nat) : Boot :=
  { b with failures := b.failures + 1, state := if b.failures + 1 ≥ 8 then 4 else 1, since := now }

/-- BOOT_IMAGE_FETCH: the fetch succeeds or fails. -/
def execBootImageFetch (ok : Bool) (s : State) : Host.Outcome State Fault Refusal :=
  .next (if s.boot.state = 1 then s.onBoot fun b => if ok then { b with state := 2 } else b.failed s.now else s)

/-- The image verifies: the block is applied, the measurements are recorded, hart 0 runs. -/
def State.bootApply (s : State) (c : List Byte) : State :=
  let off := (upTo 512).filter fun i => (cfgN c 24 64).testBit i
  let lim := cfgN c 104 4
  let measure := [(Config.freeLine s.fresh).setWidth 256, (Config.freeLine (s.fresh + 1)).setWidth 256]
  let s := { s with fresh := s.fresh + 2 }
  let s := s.onBoot fun b =>
    { b with state := 3, failures := 0, secver := max b.secver (cfgN c 4 4), config := c, harts := [0], measure := measure }
  let s := s.onSched fun q => { q with disabled := off, plimit := lim, plimitMax := lim }
  { s with
    rel := { s.rel with contained := s.rel.contained ++ off }
    mem := { s.mem with cxlDown := (upTo 16).filter fun p => !(cfgN c 96 2).testBit p } }

/-- BOOT_VERIFY: the signature and the versions hold or not; the configuration block that comes with the image. -/
def execBootVerify (ok : Bool) (cfg : List Byte) (s : State) : Host.Outcome State Fault Refusal :=
  .next (if s.boot.state = 2 then
    (if ok && cfgOk cfg s.boot.secver then s.bootApply cfg else s.onBoot fun b => b.failed s.now)
  else s)

/-- BOOT_RETRY_WAIT: 60 s have passed after eight failures in a row. -/
def execBootRetryWait (s : State) : Host.Outcome State Fault Refusal :=
  .next (if s.boot.state = 4 && decide (s.boot.since + 60000000000 ≤ s.now) then s.onBoot fun b => { b with state := 1, failures := 0 }
    else s)

/-- A hart that waits is started by hart 0. -/
def State.startHart (s : State) (hart : Nat) : State :=
  if s.boot.harts.contains 0 && decide (hart < 32) && !s.boot.harts.contains hart then
    s.onBoot fun b => { b with harts := b.harts ++ [hart] }
  else s

/-- HART_START_REQUEST. -/
def execHartStartRequest (hart : Nat) (s : State) : Host.Outcome State Fault Refusal := .next (s.startHart hart)

/-! ### The management service (R367, R445) -/

/-- REDFISH_POWER: 0 on, 1 off, 2 reset. A reset during a close waits for the commit record. -/
def execRedfishPower (op : BitVec 2) (s : State) : Host.Outcome State Fault Refusal :=
  .next (match op.toNat with
    | 0 => if s.boot.state = 0 then s.coldReset else s
    | 1 => s.coldReset.onBoot fun b => { b with state := 0 }
    | 2 => if s.rel.closing then s.onBoot fun b => { b with pendingReset := true } else s.coldReset
    | _ => s)

/-- REDFISH_BOOT_STATE. -/
def execRedfishBootState (s : State) : Host.Outcome State Fault Refusal := .next (s.tell (.bootState s.boot.state))

/-- The attestation report (R367): its 192 bytes and the signature, which the spec does not let anyone compute. -/
def State.report (s : State) (tenant launch : Nat) (nonce : BitVec 256) : List Byte :=
  let m := fun i => ((s.boot.measure[i]?).getD 0).toNat
  let hash := match s.launch launch with
    | some l => (match s.imageOf l.tenant (descW l.desc 3) with | some i => i.hash.toNat | none => 0)
    | none => 0
  toBytes 4 1 ++ toBytes 4 tenant ++ toBytes 16 Config.deviceId.toNat ++ toBytes 32 (m 0) ++ toBytes 32 (m 1) ++ toBytes 32 hash ++
  toBytes 32 nonce.toNat ++ toBytes 8 s.now ++ toBytes 32 0 ++ toBytes 64 (Config.freeLine s.fresh).toNat

/-- ATTESTATION_REQUEST. -/
def execAttestationRequest (tenant launch : Nat) (nonce : BitVec 256) (s : State) : Host.Outcome State Fault Refusal :=
  .next ((s.tell (.attested (s.report tenant launch nonce))).used)

/-! ### Heat and power (R448, R449) -/

/-- PLIMIT_SET: never above the block's value. -/
def execPlimitSet (w : BitVec 32) (s : State) : Host.Outcome State Fault Refusal :=
  .next (if w.toNat ≤ s.sched.plimitMax then s.onSched fun q => { q with plimit := w.toNat } else s)

/-- A die reports its temperature: wakes refused, a package stop, the rail removed. -/
def State.thermal (s : State) (die temp : Nat) : State :=
  let s := s.tell (.temperature die temp)
  let s := s.onBoot fun b =>
    { b with junction := tset b.junction die temp
             wakeRefused := if temp ≥ b.tthrot then (if b.wakeRefused.contains die then b.wakeRefused else b.wakeRefused ++ [die])
               else b.wakeRefused.filter (· != die)
             railOff := b.railOff || decide (temp ≥ 125) }
  if temp ≥ s.boot.tstop && !s.dbg.pkgHalt then (s.startStop 3 (coreOfDie die 0) false none).tell (.thermalStop die) else s

/-- THERMAL_REPORT. -/
def execThermalReport (die temp : Nat) (s : State) : Host.Outcome State Fault Refusal := .next (if die < 16 then s.thermal die temp else s)

/-! ### The ports (R440, R444) -/

/-- CXL_PORT_DOWN. -/
def execCxlPortDown (port : Nat) (s : State) : Host.Outcome State Fault Refusal :=
  .next (if port < 16 && !s.mem.cxlDown.contains port then { s with mem := { s.mem with cxlDown := s.mem.cxlDown ++ [port] } } else s)

/-- A frame goes to system software; while a package stop lasts it waits in the port's buffer, or is dropped and counted when that is
full, which the spec gives no size for. -/
def State.etherIn (s : State) (port : Nat) (frame : List Byte) : State :=
  if !s.dbg.pkgHalt then s.tell (.frame port frame)
  else
    let full := (Config.freeWord s.fresh).getLsbD 0
    s.used.onBoot fun b =>
      if full then { b with portDrops := tset b.portDrops port (tgetD b.portDrops port 0 + 1) }
      else { b with portBuf := tset b.portBuf port (tgetD b.portBuf port [] ++ [frame]) }

/-- ETHERNET_FRAME_RECEIVE. -/
def execEthernetFrameReceive (port : Nat) (frame : List Byte) (s : State) : Host.Outcome State Fault Refusal :=
  .next (if port < 8 && s.boot.cfgBit 98 port && decide (s.boot.state = 3) then s.etherIn port frame else s)

/-! ### The debug window (R410, R447) -/

/-- A register of a core's debug block; one that the spec does not list, or that is only written, reads as zero (R5, R6). -/
def State.debugRead (s : State) (core off : Nat) : Word :=
  let k := s.core core
  match off with
  | 0x000 => k.dctl.setWidth 64
  | 0x008 => BitVec.ofNat 64 ((upTo 32).foldl (fun m x => m + bitIf (k.ctx x).halted x) (bitIf k.held 32))
  | 0x018 => k.dedge.setWidth 64
  | _ =>
    if 0x20 ≤ off ∧ off < 0x40 then tgetD k.pcbp ((off - 0x20) / 8) 0
    else if 0x40 ≤ off ∧ off < 0x140 then
      match (k.ctx ((off - 0x40) / 8)).skidReg with
      | some (n, e) => BitVec.ofNat 64 (2 ^ 63 + bitIf e 62 + min n 0xFFFFFFFF)
      | none => 0
    else 0

/-- Perform the command that DCMD names. -/
def State.debugCmd (s : State) (core : Nat) (v : Word) : State :=
  match fld v 3 0 with
  | 1 => s.startStop (fld v 6 5) core (v.getLsbD 7) none
  | 2 => s.resumeStop core
  | 3 => (s.onCtx core (fld v 20 16) Ctx.step1).stepEng core (v.getLsbD 8)
  | 4 => (s.stepGroup core (v.extractLsb' 32 32)).stepEng core (v.getLsbD 8)
  | _ => s

/-- Write a register of a core's debug block: its RW fields. -/
def State.debugWrite (s : State) (core off : Nat) (v : Word) : State :=
  match off with
  | 0x000 => s.onCore core fun k => { k with dctl := v.setWidth 4 }
  | 0x010 => s.debugCmd core v
  | 0x018 => s.onCore core fun k => { k with dedge := v.setWidth 32 }
  | _ =>
    if 0x20 ≤ off ∧ off < 0x40 then
      s.onCore core fun k => { k with pcbp := tset k.pcbp ((off - 0x20) / 8) (v &&& 0xE1FFFFFFFFFFFFFF) }
    else s

/-- Set the tick exponent: 12 to 24; ticks are counted anew with it. -/
def State.setTick (s : State) (k : Nat) : State :=
  if 12 ≤ k ∧ k ≤ 24 then { s with dbg := { s.dbg with tickExp := k, tick := tickAt s.now k } } else s

/-- The 64-bit register of the window that holds an offset; an offset without a register is reserved and reads as zero (R5), as DCMD does, which
is write-only (R6); the die debug blocks, whose layout the spec does not give, read as a free value (log entry 92). -/
def State.windowRead (s : State) (off : Nat) : Word :=
  if off < 0x400000 then s.debugRead (off / 0x200) (off % 0x200)
  else if off < 0x410000 then Config.freeWord s.fresh
  else if off = 0x500000 then BitVec.ofNat 64 s.dbg.tickExp
  else 0
/-- Write the 64-bit register of the window at an offset. -/
def State.windowWrite (s : State) (off : Nat) (v : Word) : State :=
  if off < 0x400000 then s.debugWrite (off / 0x200) (off % 0x200) v
  else if off = 0x500000 then s.setTick v.toNat
  else s

/-! ### Accesses by physical address (R360, R438, R446) -/

/-- Tell the party that made an access what it has read, or that it has failed. -/
def State.tellRead (s : State) (a : Asker) (data : Word) : State :=
  match a.agent with
  | .sys h => s.tell (.loaded h data)
  | _ => s.tell (.hostRead data)
/-- An access fault (R360). -/
def State.physFault (s : State) (a : Asker) (kind : BitVec 8) (addr : Word) : State :=
  match a.agent with
  | .sys h => s.tell (.accessFault h kind addr)
  | _ => s.tell (.accessFault 64 kind addr)

/-- Why an access to n bytes of a line fails at its stop: unpopulated, the port down, the band, poison. -/
def State.physCheck (s : State) (addr : Word) (pa n : Nat) (rd : Bool) : Option (BitVec 8) :=
  let mask := byteMask (pa % 64) n
  match physStop pa with
  | none => some 4
  | some _ =>
    if (cxlPort pa).any s.mem.cxlDown.contains then some 7
    else if !bandsAll s.mem (pa / 64 * 64) mask (bandOf addr) then some 2
    else if rd && s.mem.poison.contains (pa / 64 * 64) then some 5
    else none

/-- Write a refusal to the log of its stop, and tell the party. -/
def State.physRefuse (s : State) (a : Asker) (addr : Word) (pa : Nat) (kind : BitVec 8) : State :=
  let s := match physStop pa with
    | some n => s.logStop n a addr (if kind = 2 ∨ kind = 5 then s.mem.bandAt pa else 0) kind
    | none => s
  s.physFault a kind addr

/-- Load n bytes at a physical address, all in one line. -/
def State.physLoad (s : State) (a : Asker) (addr : Word) (n : Nat) : State :=
  let pa := fld addr 57 0
  match s.physCheck addr pa n true with
  | some k => s.physRefuse a addr pa k
  | none =>
    let (l, s) := s.readPhys a.tenant (pa / 64 * 64)
    s.tellRead a (BitVec.ofNat 64 (fromByte l (pa % 64) n))

/-- Store n bytes at a physical address, all in one line; none while the undo log is full (R432). -/
def State.physStore (s : State) (a : Asker) (addr : Word) (n : Nat) (data : Word) : Option State :=
  let pa := fld addr 57 0
  match s.physCheck addr pa n false with
  | some k => some (s.physRefuse a addr pa k)
  | none =>
    if !s.logRoom (pa / 64 * 64) then none
    else some (s.putLine a.tenant (pa / 64 * 64) (atByte (pa % 64) (data.toNat % 2 ^ (8 * n))) (byteMask (pa % 64) n)).mailWake

/-- An access of system software, or of the security core on a debugger's behalf (harts 32 and above), to the debug window: the bytes
addressed of a 64-bit register. -/
def State.windowAccess (s : State) (a : Asker) (wr : Bool) (off n : Nat) (data : Word) : State :=
  let reg := s.windowRead (off / 8 * 8)
  let sh := 8 * (off % 8)
  if wr then
    let keep := reg.toNat - reg.toNat / 2 ^ sh % 2 ^ (8 * n) * 2 ^ sh
    s.windowWrite (off / 8 * 8) (if n = 8 then data else BitVec.ofNat 64 (keep + data.toNat % 2 ^ (8 * n) * 2 ^ sh))
  else (s.tellRead a (BitVec.ofNat 64 (reg.toNat / 2 ^ sh % 2 ^ (8 * n)))).used

/-- An access of n bytes by physical address; none while it must wait. One that crosses a line, or a register of the window, comes to
the stop as several accesses: it is none of these. -/
def State.physAccess (s : State) (a : Asker) (wr : Bool) (n : Nat) (addr data : Word) : Option State :=
  let pa := fld addr 57 0
  if pa % 64 + n > 64 ∨ (inDebug pa ∧ pa % 8 + n > 8) then some s
  else if inDebug pa then
    (match a.agent with
     | .sys _ => some (s.windowAccess a wr (pa - 0xF0000000000) n data)
     | _ => some (s.physFault a 4 addr))
  else if wr then s.physStore a addr n data
  else some (s.physLoad a addr n)

/-- A store has to wait for the close that empties the undo log (R432). -/
def State.physWaits (s : State) (wr : Bool) (addr : Word) : Bool :=
  wr && !inDebug (fld addr 57 0) && !s.logRoom (fld addr 57 0 / 64 * 64)

/-- SYSTEM_CORE_ACCESS. -/
def execSystemCoreAccess (hart : Nat) (wr : Bool) (sz : StSz) (addr data : Word) (s : State) : Host.Outcome State Fault Refusal :=
  .next ((s.physAccess (askerSys hart) wr (stBytes sz) addr data).getD s)

/-- The PCIe host, as tenant 0 (R366, R446). -/
def askerHost : Asker := { agent := .host, tenant := 0, launch := 0, sup := true, regions := 0 }

/-- BAR0 holds doorbells and mailboxes of system software; BAR2 is a window into memory. -/
def State.hostAccess (s : State) (bar2 wr : Bool) (addr data : Word) : State :=
  if bar2 then
    (s.physAccess askerHost wr 8 addr data).getD s
  else if wr then s.tell (.doorbell addr data)
  else (s.tell (.hostRead (Config.freeWord s.fresh))).used

/-- PCIE_HOST_ACCESS: with the pcie field clear, the endpoint does not train. -/
def execPcieHostAccess (bar2 wr : Bool) (addr data : Word) (s : State) : Host.Outcome State Fault Refusal :=
  .next (if s.boot.cfgBit 100 0 && decide (s.boot.state = 3) then s.hostAccess bar2 wr addr data else s)

/-! ### CONTROL_REGISTER_WRITE (R335, R358, R371, R381, R399, R410, R411, R425, R435, R436) -/

/-- A ring's field written: base, size, write index, read index; a base or a size outside the limits is not written. -/
def Ring.setField (r : Ring) (field : Nat) (v : Word) : Ring :=
  match field with
  | 0 => if v.toNat % 4096 = 0 then { r with base := v } else r
  | 1 => if 4096 ≤ v.toNat ∧ v.toNat ≤ 2 ^ 30 ∧ (v &&& (v - 1)) = 0 then { r with size := v.toNat } else r
  | 2 => { r with windex := v.toNat }
  | 3 => { r with rindex := v.toNat }
  | _ => r

/-- Write one word of the tables and registers that have no row of their own. -/
def State.control (s : State) (r : Ctl) (v : Word) : State :=
  match r with
  | .coreReg core n =>
    (match csrOf (BitVec.ofNat 12 n) with
     | .ok c => if core < Config.cores ∧ n < 4096 then s.onCore core fun k => k.setCsr c v else s
     | .error _ => s)
  | .debug core off => if core < Config.cores then s.debugWrite core off v else s
  | .fabricGroup g w =>
    if g ≥ 256 then s
    else if w = 0 then { s with fabric := { s.fabric with groups := tset s.fabric.groups g (v &&& 0x0000FFFFFFFFFF01) } }
    else if w = 1 then { s with fabric := { s.fabric with words1 := tset s.fabric.words1 g (v &&& 0xFFFF) } }
    else s
  | .tenantRoot t => if t < 65536 then { s with mem := { s.mem with roots := tset s.mem.roots t v } } else s
  | .tenantWeight t => if t < 65536 ∧ 1 ≤ v.toNat ∧ v.toNat ≤ 65535 then s.onSched fun q => { q with weights := tset q.weights t v.toNat } else s
  | .ring die tenant field =>
    let key := ringKey die tenant
    { s with dbg := { s.dbg with rings := tset s.dbg.rings key ((tgetD s.dbg.rings key Ring.reset).setField field v) } }
  | .seriesRing die field =>
    { s with dbg := { s.dbg with series := tset s.dbg.series die ((tgetD s.dbg.series die Ring.reset).setField field v) } }
  | .checkRing field => { s with dbg := { s.dbg with check := some ((s.dbg.check.getD Ring.reset).setField field v) } }
  | .tickExp => s.setTick v.toNat
  | .rectangle c => if c < 512 ∧ v.toNat < 512 then { s with rel := { s.rel with rects := tset s.rel.rects c v.toNat } } else s
  | .poisonPolicy r =>
    let off := s.rel.policyOff.filter (· != r)
    { s with rel := { s.rel with policyOff := if v.getLsbD 0 then off else off ++ [r] } }

/-- CONTROL_REGISTER_WRITE. -/
def execControlRegisterWrite (r : Ctl) (v : Word) (s : State) : Host.Outcome State Fault Refusal := .next (s.control r v)

end Sys2Proof.Machine
end

