-- ==== Sys2Proof/Machine/Dispatch.lean ====
section
/-! DEFINITION. Dispatch.lean: the meaning of every instruction and event, one arm each. -/
namespace Sys2Proof.Machine

def exec (i : Instr) (s : State) : Host.Outcome State Fault Refusal :=
  match i with
  | .nop h => Sys2Proof.Machine.execNop h s
  | .yieldT h => Sys2Proof.Machine.execYieldT h s
  | .wait h => Sys2Proof.Machine.execWait h s
  | .doze h a => Sys2Proof.Machine.execDoze h a s
  | .nowns h d => Sys2Proof.Machine.execNowns h d s
  | .exit h a => Sys2Proof.Machine.execExit h a s
  | .join h d a => Sys2Proof.Machine.execJoin h d a s
  | .leave h a => Sys2Proof.Machine.execLeave h a s
  | .gbar h a => Sys2Proof.Machine.execGbar h a s
  | .garrive h a => Sys2Proof.Machine.execGarrive h a s
  | .gwait h a => Sys2Proof.Machine.execGwait h a s
  | .phase h a => Sys2Proof.Machine.execPhase h a s
  | .ginfoSize h d a => Sys2Proof.Machine.execGinfoSize h d a s
  | .ginfoRank h d a => Sys2Proof.Machine.execGinfoRank h d a s
  | .mfs h d r => Sys2Proof.Machine.execMfs h d r s
  | .mts h r a => Sys2Proof.Machine.execMts h r a s
  | .add h wd d a b => Sys2Proof.Machine.execAdd h wd d a b s
  | .addImm h wd d a imm => Sys2Proof.Machine.execAddImm h wd d a imm s
  | .sub h wd d a b => Sys2Proof.Machine.execSub h wd d a b s
  | .subImm h wd d a imm => Sys2Proof.Machine.execSubImm h wd d a imm s
  | .mul h wd d a b => Sys2Proof.Machine.execMul h wd d a b s
  | .mulImm h wd d a imm => Sys2Proof.Machine.execMulImm h wd d a imm s
  | .mulh h wd d a b => Sys2Proof.Machine.execMulh h wd d a b s
  | .mulhImm h wd d a imm => Sys2Proof.Machine.execMulhImm h wd d a imm s
  | .mulhu h wd d a b => Sys2Proof.Machine.execMulhu h wd d a b s
  | .mulhuImm h wd d a imm => Sys2Proof.Machine.execMulhuImm h wd d a imm s
  | .div h wd d a b => Sys2Proof.Machine.execDiv h wd d a b s
  | .divImm h wd d a imm => Sys2Proof.Machine.execDivImm h wd d a imm s
  | .divu h wd d a b => Sys2Proof.Machine.execDivu h wd d a b s
  | .divuImm h wd d a imm => Sys2Proof.Machine.execDivuImm h wd d a imm s
  | .rem h wd d a b => Sys2Proof.Machine.execRem h wd d a b s
  | .remImm h wd d a imm => Sys2Proof.Machine.execRemImm h wd d a imm s
  | .remu h wd d a b => Sys2Proof.Machine.execRemu h wd d a b s
  | .remuImm h wd d a imm => Sys2Proof.Machine.execRemuImm h wd d a imm s
  | .andd h wd d a b => Sys2Proof.Machine.execAndd h wd d a b s
  | .andImm h wd d a imm => Sys2Proof.Machine.execAndImm h wd d a imm s
  | .orr h wd d a b => Sys2Proof.Machine.execOrr h wd d a b s
  | .orImm h wd d a imm => Sys2Proof.Machine.execOrImm h wd d a imm s
  | .xor h wd d a b => Sys2Proof.Machine.execXor h wd d a b s
  | .xorImm h wd d a imm => Sys2Proof.Machine.execXorImm h wd d a imm s
  | .andn h wd d a b => Sys2Proof.Machine.execAndn h wd d a b s
  | .andnImm h wd d a imm => Sys2Proof.Machine.execAndnImm h wd d a imm s
  | .shl h wd d a b => Sys2Proof.Machine.execShl h wd d a b s
  | .shlImm h wd d a imm => Sys2Proof.Machine.execShlImm h wd d a imm s
  | .shr h wd d a b => Sys2Proof.Machine.execShr h wd d a b s
  | .shrImm h wd d a imm => Sys2Proof.Machine.execShrImm h wd d a imm s
  | .sra h wd d a b => Sys2Proof.Machine.execSra h wd d a b s
  | .sraImm h wd d a imm => Sys2Proof.Machine.execSraImm h wd d a imm s
  | .rol h wd d a b => Sys2Proof.Machine.execRol h wd d a b s
  | .rolImm h wd d a imm => Sys2Proof.Machine.execRolImm h wd d a imm s
  | .min h wd d a b => Sys2Proof.Machine.execMin h wd d a b s
  | .minImm h wd d a imm => Sys2Proof.Machine.execMinImm h wd d a imm s
  | .max h wd d a b => Sys2Proof.Machine.execMax h wd d a b s
  | .maxImm h wd d a imm => Sys2Proof.Machine.execMaxImm h wd d a imm s
  | .minu h wd d a b => Sys2Proof.Machine.execMinu h wd d a b s
  | .minuImm h wd d a imm => Sys2Proof.Machine.execMinuImm h wd d a imm s
  | .maxu h wd d a b => Sys2Proof.Machine.execMaxu h wd d a b s
  | .maxuImm h wd d a imm => Sys2Proof.Machine.execMaxuImm h wd d a imm s
  | .setp h wd c d a b => Sys2Proof.Machine.execSetp h wd c d a b s
  | .setpImm h wd c d a imm => Sys2Proof.Machine.execSetpImm h wd c d a imm s
  | .sel h wd d a b c => Sys2Proof.Machine.execSel h wd d a b c s
  | .clz h wd d a => Sys2Proof.Machine.execClz h wd d a s
  | .ctz h wd d a => Sys2Proof.Machine.execCtz h wd d a s
  | .popc h wd d a => Sys2Proof.Machine.execPopc h wd d a s
  | .brev h wd d a => Sys2Proof.Machine.execBrev h wd d a s
  | .bfx h wd sx d a b c => Sys2Proof.Machine.execBfx h wd sx d a b c s
  | .bfxImm h wd sx d a pos len => Sys2Proof.Machine.execBfxImm h wd sx d a pos len s
  | .bfi h wd d a b c => Sys2Proof.Machine.execBfi h wd d a b c s
  | .bfiImm h wd d a pos len => Sys2Proof.Machine.execBfiImm h wd d a pos len s
  | .mov h f => Sys2Proof.Machine.execMov h f s
  | .plog h tt d a b => Sys2Proof.Machine.execPlog h tt d a b s
  | .li h wd d imm => Sys2Proof.Machine.execLi h wd d imm s
  | .liHi h d imm => Sys2Proof.Machine.execLiHi h d imm s
  | .lea h d a imm => Sys2Proof.Machine.execLea h d a imm s
  | .mkptr h d a b => Sys2Proof.Machine.execMkptr h d a b s
  | .getband h d a => Sys2Proof.Machine.execGetband h d a s
  | .caddr h d a b c => Sys2Proof.Machine.execCaddr h d a b c s
  | .chkptr h d a => Sys2Proof.Machine.execChkptr h d a s
  | .br h x disp => Sys2Proof.Machine.execBr h x disp s
  | .bri h a => Sys2Proof.Machine.execBri h a s
  | .call h disp => Sys2Proof.Machine.execCall h disp s
  | .calli h a => Sys2Proof.Machine.execCalli h a s
  | .ret h a => Sys2Proof.Machine.execRet h a s
  | .loop h a b x disp => Sys2Proof.Machine.execLoop h a b x disp s
  | .xrd h hdr d a => Sys2Proof.Machine.execXrd h hdr d a s
  | .xsel h d b x => Sys2Proof.Machine.execXsel h d b x s
  | .xunr h d b x => Sys2Proof.Machine.execXunr h d b x s
  | .xpfd h d a b x => Sys2Proof.Machine.execXpfd h d a b x s
  | .xnote h a x => Sys2Proof.Machine.execXnote h a x s
  | .xflush h => Sys2Proof.Machine.execXflush h s
  | .vadd h f rm d a b => Sys2Proof.Machine.execVadd h f rm d a b s
  | .vsub h f rm d a b => Sys2Proof.Machine.execVsub h f rm d a b s
  | .vmul h f rm d a b => Sys2Proof.Machine.execVmul h f rm d a b s
  | .vfma h f rm d a b c => Sys2Proof.Machine.execVfma h f rm d a b c s
  | .vfms h f rm d a b c => Sys2Proof.Machine.execVfms h f rm d a b c s
  | .vfnma h f rm d a b c => Sys2Proof.Machine.execVfnma h f rm d a b c s
  | .vmin h f d a b => Sys2Proof.Machine.execVmin h f d a b s
  | .vmax h f d a b => Sys2Proof.Machine.execVmax h f d a b s
  | .vabs h f d a => Sys2Proof.Machine.execVabs h f d a s
  | .vneg h f d a => Sys2Proof.Machine.execVneg h f d a s
  | .vrcp h f rm d a => Sys2Proof.Machine.execVrcp h f rm d a s
  | .vrsq h f rm d a => Sys2Proof.Machine.execVrsq h f rm d a s
  | .vexp2 h f rm d a => Sys2Proof.Machine.execVexp2 h f rm d a s
  | .vlog2 h f rm d a => Sys2Proof.Machine.execVlog2 h f rm d a s
  | .vdiv h f rm d a b => Sys2Proof.Machine.execVdiv h f rm d a b s
  | .vsqrt h f rm d a => Sys2Proof.Machine.execVsqrt h f rm d a s
  | .vcvt h rm part t src d a => Sys2Proof.Machine.execVcvt h rm part t src d a s
  | .vcmp h f c d a b => Sys2Proof.Machine.execVcmp h f c d a b s
  | .vred h f rm d a => Sys2Proof.Machine.execVred h f rm d a s
  | .vdot h f rm d a b => Sys2Proof.Machine.execVdot h f rm d a b s
  | .fadd h f rm d a b => Sys2Proof.Machine.execFadd h f rm d a b s
  | .fmul h f rm d a b => Sys2Proof.Machine.execFmul h f rm d a b s
  | .ffma h f rm d a b c => Sys2Proof.Machine.execFfma h f rm d a b c s
  | .fcmp h f c d a b => Sys2Proof.Machine.execFcmp h f c d a b s
  | .fcvt h rm t src d a => Sys2Proof.Machine.execFcvt h rm t src d a s
  | .rep h n1 st a => Sys2Proof.Machine.execRep h n1 st a s
  | .repwait h => Sys2Proof.Machine.execRepwait h s
  | .viadd h vw d a b => Sys2Proof.Machine.execViadd h vw d a b s
  | .visub h vw d a b => Sys2Proof.Machine.execVisub h vw d a b s
  | .vimul h vw d a b => Sys2Proof.Machine.execVimul h vw d a b s
  | .vand h vw d a b => Sys2Proof.Machine.execVand h vw d a b s
  | .vor h vw d a b => Sys2Proof.Machine.execVor h vw d a b s
  | .vxor h vw d a b => Sys2Proof.Machine.execVxor h vw d a b s
  | .vshl h vw d a b => Sys2Proof.Machine.execVshl h vw d a b s
  | .vshr h vw d a b => Sys2Proof.Machine.execVshr h vw d a b s
  | .vsra h vw d a b => Sys2Proof.Machine.execVsra h vw d a b s
  | .vimin h u vw d a b => Sys2Proof.Machine.execVimin h u vw d a b s
  | .vimax h u vw d a b => Sys2Proof.Machine.execVimax h u vw d a b s
  | .vsel h vw d a b c => Sys2Proof.Machine.execVsel h vw d a b c s
  | .vshuf h vw d a b => Sys2Proof.Machine.execVshuf h vw d a b s
  | .vbcast h vw d a => Sys2Proof.Machine.execVbcast h vw d a s
  | .vins h vw d a b => Sys2Proof.Machine.execVins h vw d a b s
  | .vext h u vw d a b => Sys2Proof.Machine.execVext h u vw d a b s
  | .vcmprs h vw d a c => Sys2Proof.Machine.execVcmprs h vw d a c s
  | .vexpnd h vw d a c => Sys2Proof.Machine.execVexpnd h vw d a c s
  | .viota h vw d c => Sys2Proof.Machine.execViota h vw d c s
  | .vicmp h vw c d a b => Sys2Proof.Machine.execVicmp h vw c d a b s
  | .vqnt h rn f bx d a b c => Sys2Proof.Machine.execVqnt h rn f bx d a b c s
  | .vdqnt h rm part f bx d a c => Sys2Proof.Machine.execVdqnt h rm part f bx d a c s
  | .vsrnd h part f d a b c => Sys2Proof.Machine.execVsrnd h part f d a b c s
  | .vbxdot h rm bx d a b c => Sys2Proof.Machine.execVbxdot h rm bx d a b c s
  | .ld h sz nc x d m => Sys2Proof.Machine.execLd h sz nc x d m s
  | .st h sz bset d m => Sys2Proof.Machine.execSt h sz bset d m s
  | .vld h nc x d m => Sys2Proof.Machine.execVld h nc x d m s
  | .vst h bset d m => Sys2Proof.Machine.execVst h bset d m s
  | .lds h d m => Sys2Proof.Machine.execLds h d m s
  | .sts h d m => Sys2Proof.Machine.execSts h d m s
  | .ldf h d m => Sys2Proof.Machine.execLdf h d m s
  | .feset h m => Sys2Proof.Machine.execFeset h m s
  | .feclr h m => Sys2Proof.Machine.execFeclr h m s
  | .ldacq h sz d m => Sys2Proof.Machine.execLdacq h sz d m s
  | .strel h sz d m => Sys2Proof.Machine.execStrel h sz d m s
  | .atom h wd op am d a b disp => Sys2Proof.Machine.execAtom h wd op am d a b disp s
  | .pref h d m => Sys2Proof.Machine.execPref h d m s
  | .vldx h cm d a b sc disp => Sys2Proof.Machine.execVldx h cm d a b sc disp s
  | .vstx h cm d a b sc disp => Sys2Proof.Machine.execVstx h cm d a b sc disp s
  | .cld h tid d a b disp => Sys2Proof.Machine.execCld h tid d a b disp s
  | .cst h tid d a b disp => Sys2Proof.Machine.execCst h tid d a b disp s
  | .cvld h tid d a b disp => Sys2Proof.Machine.execCvld h tid d a b disp s
  | .cvst h tid d a b disp => Sys2Proof.Machine.execCvst h tid d a b disp s
  | .cprobe h tid d a => Sys2Proof.Machine.execCprobe h tid d a s
  | .cclr h tid a => Sys2Proof.Machine.execCclr h tid a s
  | .ctileFind h tid d a => Sys2Proof.Machine.execCtileFind h tid d a s
  | .ctileDetach h tid d a => Sys2Proof.Machine.execCtileDetach h tid d a s
  | .ctilePtile h tid a => Sys2Proof.Machine.execCtilePtile h tid a s
  | .ctilePnode h tid a => Sys2Proof.Machine.execCtilePnode h tid a s
  | .clbinv h tid => Sys2Proof.Machine.execClbinv h tid s
  | .cpy h dk sk d a b c => Sys2Proof.Machine.execCpy h dk sk d a b c s
  | .cpyw h a b => Sys2Proof.Machine.execCpyw h a b s
  | .cpyt h d a b => Sys2Proof.Machine.execCpyt h d a b s
  | .deal h die d a b c total => Sys2Proof.Machine.execDeal h die d a b c total s
  | .sarm h wr n2 n1 n0 tid d b c => Sys2Proof.Machine.execSarm h wr n2 n1 n0 tid d b c s
  | .sdrop h a => Sys2Proof.Machine.execSdrop h a s
  | .cbset h d a b => Sys2Proof.Machine.execCbset h d a b s
  | .cbrsv h d a => Sys2Proof.Machine.execCbrsv h d a s
  | .cbcmt h a => Sys2Proof.Machine.execCbcmt h a s
  | .cbacq h d a => Sys2Proof.Machine.execCbacq h d a s
  | .cbrel h a => Sys2Proof.Machine.execCbrel h a s
  | .get h i64 pm lm tid d a b c => Sys2Proof.Machine.execGet h i64 pm lm tid d a b c s
  | .put h i64 pm lm cmb tid d a b c => Sys2Proof.Machine.execPut h i64 pm lm cmb tid d a b c s
  | .gpwait h sub d a b => Sys2Proof.Machine.execGpwait h sub d a b s
  | .card h lvl a => Sys2Proof.Machine.execCard h lvl a s
  | .cwait h d a => Sys2Proof.Machine.execCwait h d a s
  | .oclaim h d a => Sys2Proof.Machine.execOclaim h d a s
  | .orel h a => Sys2Proof.Machine.execOrel h a s
  | .ofill h d a b => Sys2Proof.Machine.execOfill h d a b s
  | .aclr h d => Sys2Proof.Machine.execAclr h d s
  | .ast h am f act vr1 vc1 a b c => Sys2Proof.Machine.execAst h am f act vr1 vc1 a b c s
  | .ald h am f d a => Sys2Proof.Machine.execAld h am f d a s
  | .tdset h tid a => Sys2Proof.Machine.execTdset h tid a s
  | .tdget h tid d => Sys2Proof.Machine.execTdget h tid d s
  | .pget h f a b disp => Sys2Proof.Machine.execPget h f a b disp s
  | .pput h f a b disp => Sys2Proof.Machine.execPput h f a b disp s
  | .patom h wd op d a b disp => Sys2Proof.Machine.execPatom h wd op d a b disp s
  | .fbar h a b => Sys2Proof.Machine.execFbar h a b s
  | .trap h code => Sys2Proof.Machine.execTrap h code s
  | .eret h => Sys2Proof.Machine.execEret h s
  | .eretNext h => Sys2Proof.Machine.execEretNext h s
  | .csrr h d r => Sys2Proof.Machine.execCsrr h d r s
  | .csrw h r a => Sys2Proof.Machine.execCsrw h r a s
  | .tlbinvPage h a b => Sys2Proof.Machine.execTlbinvPage h a b s
  | .tlbinvTenant h a b => Sys2Proof.Machine.execTlbinvTenant h a b s
  | .tlbinvAll h a b => Sys2Proof.Machine.execTlbinvAll h a b s
  | .jnlrd h word d a => Sys2Proof.Machine.execJnlrd h word d a s
  | .jnlclr h a => Sys2Proof.Machine.execJnlclr h a s
  | .jnlclrResend h a => Sys2Proof.Machine.execJnlclrResend h a s
  | .ctxsv h a b => Sys2Proof.Machine.execCtxsv h a b s
  | .ctxld h a b => Sys2Proof.Machine.execCtxld h a b s
  | .fencei h => Sys2Proof.Machine.execFencei h s
  | .launch h d a => Sys2Proof.Machine.execLaunch h d a s
  | .glaunch h d a b => Sys2Proof.Machine.execGlaunch h d a b s
  | .gnodeGraph h d a => Sys2Proof.Machine.execGnodeGraph h d a s
  | .gnodeNode h d a b => Sys2Proof.Machine.execGnodeNode h d a b s
  | .gnodeEdge h d a b => Sys2Proof.Machine.execGnodeEdge h d a b s
  | .gnodeDrop h d a => Sys2Proof.Machine.execGnodeDrop h d a s
  | .gdone h d a b => Sys2Proof.Machine.execGdone h d a b s
  | .grabTake h d a => Sys2Proof.Machine.execGrabTake h d a s
  | .grabSet h d a b => Sys2Proof.Machine.execGrabSet h d a b s
  | .qstatLaunch h d a => Sys2Proof.Machine.execQstatLaunch h d a s
  | .qstatQueue h d a => Sys2Proof.Machine.execQstatQueue h d a s
  | .qstatRange h d a => Sys2Proof.Machine.execQstatRange h d a s
  | .qstatInst h d a => Sys2Proof.Machine.execQstatInst h d a s
  | .renter h id => Sys2Proof.Machine.execRenter h id s
  | .rleave h => Sys2Proof.Machine.execRleave h s
  | .trace h tag a => Sys2Proof.Machine.execTrace h tag a s
  | .brk h code scope => Sys2Proof.Machine.execBrk h code scope s
  | .wpset h idx kind scope am a => Sys2Proof.Machine.execWpset h idx kind scope am a s
  | .wpclr h idx am a => Sys2Proof.Machine.execWpclr h idx am a s
  | .cntrd h lat n d => Sys2Proof.Machine.execCntrd h lat n d s
  | .pageMappedRestore tenant page mapped => Sys2Proof.Machine.execPageMappedRestore tenant page mapped s
  | .schedulerCommand c => Sys2Proof.Machine.execSchedulerCommand c s
  | .imageLoad tenant image => Sys2Proof.Machine.execImageLoad tenant image s
  | .fabricBarrierArrive group rank => Sys2Proof.Machine.execFabricBarrierArrive group rank s
  | .progressProbe group rank held => Sys2Proof.Machine.execProgressProbe group rank held s
  | .replicaSetChange set add remove => Sys2Proof.Machine.execReplicaSetChange set add remove s
  | .gangSwitch areas => Sys2Proof.Machine.execGangSwitch areas s
  | .gangResume areas => Sys2Proof.Machine.execGangResume areas s
  | .dcmdStop core scope edge => Sys2Proof.Machine.execDcmdStop core scope edge s
  | .dcmdResume core => Sys2Proof.Machine.execDcmdResume core s
  | .dcmdStepContext core ctx eng => Sys2Proof.Machine.execDcmdStepContext core ctx eng s
  | .dcmdStepGroup core handle eng => Sys2Proof.Machine.execDcmdStepGroup core handle eng s
  | .clockRateAdjust adj => Sys2Proof.Machine.execClockRateAdjust adj s
  | .clockStepForward ns => Sys2Proof.Machine.execClockStepForward ns s
  | .machineCheck m => Sys2Proof.Machine.execMachineCheck m s
  | .attestationRequest tenant launch nonce => Sys2Proof.Machine.execAttestationRequest tenant launch nonce s
  | .pcieHostAccess bar2 wr addr data => Sys2Proof.Machine.execPcieHostAccess bar2 wr addr data s
  | .thermalReport die temp => Sys2Proof.Machine.execThermalReport die temp s
  | .plimitSet w => Sys2Proof.Machine.execPlimitSet w s
  | .controlRegisterWrite r v => Sys2Proof.Machine.execControlRegisterWrite r v s
  | .systemCoreAccess hart wr sz addr data => Sys2Proof.Machine.execSystemCoreAccess hart wr sz addr data s
  | .hartStartRequest hart => Sys2Proof.Machine.execHartStartRequest hart s
  | .pairIssue w1 w2 => Sys2Proof.Machine.execPairIssue w1 w2 s
  | .fetchLine core ctx => Sys2Proof.Machine.execFetchLine core ctx s
  | .plankerReissue core pos => Sys2Proof.Machine.execPlankerReissue core pos s
  | .drain core ctx => Sys2Proof.Machine.execDrain core ctx s
  | .messageDeliver i1 => Sys2Proof.Machine.execMessageDeliver i1 s
  | .homeServe q => Sys2Proof.Machine.execHomeServe q s
  | .longResultLand core ctx i1 => Sys2Proof.Machine.execLongResultLand core ctx i1 s
  | .storeAcknowledge i1 => Sys2Proof.Machine.execStoreAcknowledge i1 s
  | .dozeWake core ctx => Sys2Proof.Machine.execDozeWake core ctx s
  | .syncLimit core ctx => Sys2Proof.Machine.execSyncLimit core ctx s
  | .syncCancelReturn i1 => Sys2Proof.Machine.execSyncCancelReturn i1 s
  | .contextReuseDelay core ctx => Sys2Proof.Machine.execContextReuseDelay core ctx s
  | .strayMessageDiscard i1 => Sys2Proof.Machine.execStrayMessageDiscard i1 s
  | .engineAccessRetry i1 => Sys2Proof.Machine.execEngineAccessRetry i1 s
  | .launchStart => Sys2Proof.Machine.execLaunchStart s
  | .threadStart launch => Sys2Proof.Machine.execThreadStart launch s
  | .priorityAging launch => Sys2Proof.Machine.execPriorityAging launch s
  | .deficitCharge => Sys2Proof.Machine.execDeficitCharge s
  | .coreGate core => Sys2Proof.Machine.execCoreGate core s
  | .coreWake core => Sys2Proof.Machine.execCoreWake core s
  | .doneMessage core launch => Sys2Proof.Machine.execDoneMessage core launch s
  | .completionCombine i1 => Sys2Proof.Machine.execCompletionCombine i1 s
  | .graphNodeComplete inst node => Sys2Proof.Machine.execGraphNodeComplete inst node s
  | .instanceFill launch => Sys2Proof.Machine.execInstanceFill launch s
  | .instanceSeal launch => Sys2Proof.Machine.execInstanceSeal launch s
  | .groupRequestArrive i1 => Sys2Proof.Machine.execGroupRequestArrive i1 s
  | .barrierArrival i1 => Sys2Proof.Machine.execBarrierArrival i1 s
  | .groupRelease i1 => Sys2Proof.Machine.execGroupRelease i1 s
  | .experienceFillLand i1 => Sys2Proof.Machine.execExperienceFillLand i1 s
  | .mergeReply i1 => Sys2Proof.Machine.execMergeReply i1 s
  | .engineKickAccept i1 => Sys2Proof.Machine.execEngineKickAccept i1 s
  | .chunkComplete core op chunk => Sys2Proof.Machine.execChunkComplete core op chunk s
  | .cbStageWrite core op => Sys2Proof.Machine.execCbStageWrite core op s
  | .dealComplete i1 => Sys2Proof.Machine.execDealComplete i1 s
  | .streamStripLoad core ctx v => Sys2Proof.Machine.execStreamStripLoad core ctx v s
  | .fillNotice i1 => Sys2Proof.Machine.execFillNotice i1 s
  | .stageFreeNotice i1 => Sys2Proof.Machine.execStageFreeNotice i1 s
  | .gatherComplete core op => Sys2Proof.Machine.execGatherComplete core op s
  | .clbWalk i1 => Sys2Proof.Machine.execClbWalk i1 s
  | .cardAccept lvl unit i1 => Sys2Proof.Machine.execCardAccept lvl unit i1 s
  | .cardDecompose lvl unit => Sys2Proof.Machine.execCardDecompose lvl unit s
  | .cardParityRefetch lvl unit => Sys2Proof.Machine.execCardParityRefetch lvl unit s
  | .cardRun core => Sys2Proof.Machine.execCardRun core s
  | .slotClaimGrant core => Sys2Proof.Machine.execSlotClaimGrant core s
  | .childReport i1 => Sys2Proof.Machine.execChildReport i1 s
  | .cardRetire lvl unit => Sys2Proof.Machine.execCardRetire lvl unit s
  | .flitReplay link ok => Sys2Proof.Machine.execFlitReplay link ok s
  | .fabricBarrierRelease group => Sys2Proof.Machine.execFabricBarrierRelease group s
  | .fabricTimeout group => Sys2Proof.Machine.execFabricTimeout group s
  | .replicaInvalidateAck set frame => Sys2Proof.Machine.execReplicaInvalidateAck set frame s
  | .tlbInvalidate i1 => Sys2Proof.Machine.execTlbInvalidate i1 s
  | .breakpointHit core ctx => Sys2Proof.Machine.execBreakpointHit core ctx s
  | .stopArrive core => Sys2Proof.Machine.execStopArrive core s
  | .preciseStopTimeout core ctx => Sys2Proof.Machine.execPreciseStopTimeout core ctx s
  | .engineStepLimit core => Sys2Proof.Machine.execEngineStepLimit core s
  | .tickLatch => Sys2Proof.Machine.execTickLatch s
  | .ptpEventMessage port => Sys2Proof.Machine.execPtpEventMessage port s
  | .keepaliveResponse port => Sys2Proof.Machine.execKeepaliveResponse port s
  | .pairTimeout core ctx => Sys2Proof.Machine.execPairTimeout core ctx s
  | .pairMismatch core => Sys2Proof.Machine.execPairMismatch core s
  | .checkpointClose => Sys2Proof.Machine.execCheckpointClose s
  | .commitRecord => Sys2Proof.Machine.execCommitRecord s
  | .rollback => Sys2Proof.Machine.execRollback s
  | .containment cluster => Sys2Proof.Machine.execContainment cluster s
  | .powerOn => Sys2Proof.Machine.execPowerOn s
  | .bootImageFetch ok => Sys2Proof.Machine.execBootImageFetch ok s
  | .bootVerify ok cfg => Sys2Proof.Machine.execBootVerify ok cfg s
  | .bootRetryWait => Sys2Proof.Machine.execBootRetryWait s
  | .redfishPower op => Sys2Proof.Machine.execRedfishPower op s
  | .redfishBootState => Sys2Proof.Machine.execRedfishBootState s
  | .cxlPortDown port => Sys2Proof.Machine.execCxlPortDown port s
  | .refusedWithRetryResend i1 => Sys2Proof.Machine.execRefusedWithRetryResend i1 s
  | .ethernetFrameReceive port frame => Sys2Proof.Machine.execEthernetFrameReceive port frame s
  | .machineCheckThreadEnd core ctx => Sys2Proof.Machine.execMachineCheckThreadEnd core ctx s

end Sys2Proof.Machine
end

