-- ==== Sys2Proof/Machine/Inner.lean ====
section
/-! DEFINITION. Inner.lean: the steps that the machine takes by itself, and which of them can be taken (R203 to R211). -/
namespace Sys2Proof.Machine

/-- A step of the machine's own, by the row that gives it its meaning. -/
inductive Inner
  | drain (core x : Nat)
  | messageDeliver (i : Nat)
  | homeServe (q : Nat)
  | longResultLand (core x i : Nat)
  | storeAcknowledge (i : Nat)
  | syncCancelReturn (i : Nat)
  | strayMessageDiscard (i : Nat)
  | engineAccessRetry (i : Nat)
  | launchStart
  | threadStart (launch : Nat)
  | priorityAging (launch : Nat)
  | deficitCharge
  | coreGate (core : Nat)
  | coreWake (core : Nat)
  | doneMessage (core launch : Nat)
  | completionCombine (i : Nat)
  | graphNodeComplete (inst node : Nat)
  | instanceFill (launch : Nat)
  | instanceSeal (launch : Nat)
  | groupRequestArrive (i : Nat)
  | barrierArrival (i : Nat)
  | groupRelease (i : Nat)
  | experienceFillLand (i : Nat)
  | mergeReply (i : Nat)
  | engineKickAccept (i : Nat)
  | chunkComplete (core op chunk : Nat)
  | cbStageWrite (core op : Nat)
  | dealComplete (i : Nat)
  | streamStripLoad (core x v : Nat)
  | fillNotice (i : Nat)
  | stageFreeNotice (i : Nat)
  | gatherComplete (core op : Nat)
  | clbWalk (i : Nat)
  | cardAccept (lvl : Lvl) (unit i : Nat)
  | cardDecompose (lvl : Lvl) (unit : Nat)
  | cardRun (core : Nat)
  | slotClaimGrant (core : Nat)
  | childReport (i : Nat)
  | cardRetire (lvl : Lvl) (unit : Nat)
  | fabricBarrierRelease (group : Nat)
  | fabricTimeout (group : Nat)
  | tlbInvalidate (i : Nat)
  | stopArrive (core : Nat)
  | preciseStopTimeout (core x : Nat)
  | engineStepLimit (core : Nat)
  | tickLatch
  | refusedWithRetryResend (i : Nat)
  | containment (cluster : Nat)
  /-- the restoration that PAGE_MAPPED_RESTORE could not make at once (R354) -/
  | restore (core : Nat)
deriving Repr

/-- The meaning of a step: that of its row. -/
def Inner.exec (e : Inner) (s : State) : Host.Outcome State Fault Refusal :=
  match e with
  | .drain c x => execDrain c x s
  | .messageDeliver i => execMessageDeliver i s
  | .homeServe q => execHomeServe q s
  | .longResultLand c x i => execLongResultLand c x i s
  | .storeAcknowledge i => execStoreAcknowledge i s
  | .syncCancelReturn i => execSyncCancelReturn i s
  | .strayMessageDiscard i => execStrayMessageDiscard i s
  | .engineAccessRetry i => execEngineAccessRetry i s
  | .launchStart => execLaunchStart s
  | .threadStart l => execThreadStart l s
  | .priorityAging l => execPriorityAging l s
  | .deficitCharge => execDeficitCharge s
  | .coreGate c => execCoreGate c s
  | .coreWake c => execCoreWake c s
  | .doneMessage c l => execDoneMessage c l s
  | .completionCombine i => execCompletionCombine i s
  | .graphNodeComplete i n => execGraphNodeComplete i n s
  | .instanceFill l => execInstanceFill l s
  | .instanceSeal l => execInstanceSeal l s
  | .groupRequestArrive i => execGroupRequestArrive i s
  | .barrierArrival i => execBarrierArrival i s
  | .groupRelease i => execGroupRelease i s
  | .experienceFillLand i => execExperienceFillLand i s
  | .mergeReply i => execMergeReply i s
  | .engineKickAccept i => execEngineKickAccept i s
  | .chunkComplete c o n => execChunkComplete c o n s
  | .cbStageWrite c o => execCbStageWrite c o s
  | .dealComplete i => execDealComplete i s
  | .streamStripLoad c x v => execStreamStripLoad c x v s
  | .fillNotice i => execFillNotice i s
  | .stageFreeNotice i => execStageFreeNotice i s
  | .gatherComplete c o => execGatherComplete c o s
  | .clbWalk i => execClbWalk i s
  | .cardAccept l u i => execCardAccept l u i s
  | .cardDecompose l u => execCardDecompose l u s
  | .cardRun c => execCardRun c s
  | .slotClaimGrant c => execSlotClaimGrant c s
  | .childReport i => execChildReport i s
  | .cardRetire l u => execCardRetire l u s
  | .fabricBarrierRelease g => execFabricBarrierRelease g s
  | .fabricTimeout g => execFabricTimeout g s
  | .tlbInvalidate i => execTlbInvalidate i s
  | .stopArrive c => execStopArrive c s
  | .preciseStopTimeout c x => execPreciseStopTimeout c x s
  | .engineStepLimit c => execEngineStepLimit c s
  | .tickLatch => execTickLatch s
  | .refusedWithRetryResend i => execRefusedWithRetryResend i s
  | .containment c => execContainment c s
  | .restore c => .next (s.restorePaged c)

/-- The state after a step. -/
def Inner.after (e : Inner) (s : State) : State := match e.exec s with | .next t => t | _ => s

/-! ### Candidates -/

/-- The step that takes message i up. -/
def Body.steps (i : Nat) : Body → List Inner
  | .req r => (match r.op with | .kick _ => [.engineKickAccept i] | .walk .. => [.clbWalk i] | _ => [.messageDeliver i])
  | .reply _ | .cancel .. | .clbinv .. => [.messageDeliver i]
  | .storeAck .. => [.storeAcknowledge i]
  | .group .. => [.groupRequestArrive i]
  | .arrive .. => [.barrierArrival i]
  | .release .. => [.groupRelease i]
  | .xfill .. => [.experienceFillLand i]
  | .mergeReply .. => [.mergeReply i]
  | .fill .. => [.fillNotice i]
  | .stageFree .. => [.stageFreeNotice i]
  | .cancelBack .. => [.syncCancelReturn i]
  | .status .. => [.completionCombine i]
  | .report .. => [.childReport i]
  | .inval .. => [.tlbInvalidate i]
  | .retry _ => [.refusedWithRetryResend i]

/-- Steps of the messages. -/
def State.chanSteps (s : State) : List Inner :=
  (s.chan.mapIdx fun i m => m.body.steps i ++ (if s.isStale m then [Inner.strayMessageDiscard i] else [])).flatten

/-- Steps of one context. -/
def State.ctxSteps (s : State) (core x : Nat) (c : Ctx) : List Inner :=
  (if c.want = .nothing then [] else [.drain core x]) ++
  (c.landing.mapIdx fun i _ => .longResultLand core x i) ++
  (c.streams.flatMap fun q =>
    (if q.2.wants then [.streamStripLoad core x q.1] else []) ++
    (if q.2.out.isEmpty then [] else [.drain core (32 + 8 * x + (q.1 - 24))])) ++
  (if s.edgeLate core x then [.preciseStopTimeout core x] else [])

/-- Steps of one operation of a core's copy unit and carders. -/
def COp.steps (core : Nat) (o : COp) : List Inner :=
  match o.op with
  | .cpy dk _ _ _ _ n =>
    if dk = .cb then [.cbStageWrite core o.id]
    else ((upTo (chunksOf n)).filter fun i => !o.done.getLsbD i).map fun i => .chunkComplete core o.id i
  | .deal .. => [.dealComplete (core + 8192 * o.id)]
  | .gather .. => [.gatherComplete core o.id]
  | .sdrop .. => [.drain core (289 + 2 * o.id)]
  | _ => []

/-- Steps of one core. -/
def State.coreSteps (s : State) (core : Nat) (k : Core) : List Inner :=
  (k.ctxs.flatMap fun q => s.ctxSteps core q.1 q.2) ++
  (k.residents.mapIdx fun i r => if r.left.isEmpty then [] else [Inner.drain core (288 + 2 * i)]).flatten ++
  (k.residents.filterMap fun r => if s.coreDone core r.launch.toNat then some (.doneMessage core r.launch.toNat) else none) ++
  (k.copies.flatMap fun o => o.steps core) ++
  (if k.claims.any fun c => c.granted.isNone then [.slotClaimGrant core] else []) ++
  (if s.gateDue core then [.coreGate core] else []) ++
  (match k.power with | .waking t => if t ≤ s.now then [.coreWake core] else [] | _ => []) ++
  (if k.restorable.isSome && k.freeCtx.isSome then [.restore core] else []) ++
  (if (s.stopFor core).isSome || (s.stopNotes core).isSome then [.stopArrive core] else [])

/-- The first number from a start that passes a test, among n. -/
def firstFrom (p : Nat → Bool) : Nat → Nat → Option Nat
  | 0, _ => none
  | n + 1, a => if p a then some a else firstFrom p n (a + 1)

/-- The core that the distributor wakes for a launch (R383, R448): in an awake cluster first, the lowest in the order of placement;
for a paired launch the gated one of the first two twins that are, or can be, awake and free. -/
def State.wakeFor (s : State) (part : Word) (tenant : BitVec 16) : Option Nat :=
  let at' := fun (j : Nat) => coreOfCluster (j / 16) (j % 16)
  let wake := s.worthWaking part tenant
  let can := fun (c : Nat) => wake c || s.vacant c
  let ok := fun (c : Nat) => twins part can c && (wake c || (partPair part && wake (c + 64)))
  let near := fun (c : Nat) => ok c && s.clusterAwake (clusterOf c)
  match (firstFrom (fun j => near (at' j)) Config.cores 0).or (firstFrom (fun j => ok (at' j)) Config.cores 0) with
  | some j => some (if wake (at' j) then at' j else at' j + 64)
  | none => none

/-- Steps of the scheduler and the loader. -/
def State.schedSteps (s : State) : List Inner :=
  (if s.sched.queue.isEmpty then [] else [.launchStart]) ++
  (s.sched.queue.filterMap fun e => if s.agingDue e then some (.priorityAging e.launch) else none) ++
  (if s.chargeDue then [.deficitCharge] else []) ++
  (s.sched.launches.flatMap fun p =>
    (if (s.startPlace p.1).isSome then [.threadStart p.1] else []) ++
    (if p.2.st = .running && !p.2.filled then [.instanceFill p.1] else []) ++
    (if s.sealDue p.1 then [.instanceSeal p.1] else [])) ++
  (s.sched.insts.flatMap fun x => x.nodes.filterMap fun n => if n.st = .ended then some (.graphNodeComplete x.id n.node.id) else none) ++
  (match s.wanting.bind fun l => s.wakeFor (descW l.desc 1) l.tenant with | some c => [.coreWake c] | none => [])

/-- A level by its number. -/
def lvlOf : Nat → Lvl
  | 1 => .L1 | 2 => .L2 | 3 => .L3 | 4 => .L4 | _ => .L5

/-- Steps of one unit of a level. -/
def unitSteps (key : Nat) (u : LUnit) : List Inner :=
  let l := key / 8192
  let n := key % 8192
  if u.queue.isEmpty then [] else
  (u.queue.mapIdx fun i r => if r.accepted then [] else [Inner.cardAccept (lvlOf l) n i]).flatten ++
  (if l = 1 then [.cardRun n] else if l = 5 then [.cardDecompose .L5 n, .cardRun 8192] else [.cardDecompose (lvlOf l) n]) ++
  [.cardRetire (lvlOf l) n]

/-- Everything that might be taken, in no order that matters. -/
def State.candidates (s : State) : List Inner :=
  s.chanSteps ++
  ((upTo (s.homes.length + s.mem.fwds.length)).map .homeServe) ++
  (s.cores.flatMap fun p => s.coreSteps p.1 p.2) ++
  s.schedSteps ++
  (s.units.flatMap fun p => unitSteps p.1 p.2) ++
  (s.parked.mapIdx fun i h => if h.answer.isSome then [Inner.engineAccessRetry i] else []).flatten ++
  (s.fabric.bars.flatMap fun p => [.fabricBarrierRelease p.1, .fabricTimeout p.1]) ++
  (s.fabric.timers.map fun p => .fabricTimeout p.1) ++
  (if s.tickDue then [.tickLatch] else []) ++
  (s.rel.faulty.map .containment) ++
  (match s.dbg.stepEngines with | some e => [.engineStepLimit e.core] | none => [])

/-- The first step of a list that can be taken: one that does something. -/
def State.firstEnabled (s : State) (l : List Inner) : Option Inner := l.find? fun e => decide (e.after s ≠ s)

end Sys2Proof.Machine
end

