-- ==== Sys2Proof/Machine/Issue.lean ====
section
/-! DEFINITION. Issue.lean: the turns of the cores: which context issues, what it issues, and what a turn counts (R15, R31, R32, R36,
R47, R78 to R81, R91, R104, R401, R405 to R407, R412); and what the machine does next. -/
namespace Sys2Proof.Machine

/-! ### The choice of a context (R78 to R81, R407) -/

/-- Contexts of a core's position, by number. -/
def Core.posCtxs (k : Core) (pos : Nat) : List (Nat × Ctx) :=
  k.ctxs.filter fun q => q.1 % 8 == pos && decide (q.1 < 8 * partCtx (k.part.getD 0))

/-- The older of two contexts; the lower slot where they started together. -/
def older (a b : Nat × Ctx) : Nat × Ctx := if b.2.start < a.2.start then b else a
/-- The oldest of a list in rising order of slot. -/
def oldest : List (Nat × Ctx) → Option (Nat × Ctx)
  | [] => none
  | a :: t => some (t.foldl older a)

/-- RR: the first ready slot after the one that issued last, wrapping; before any issue, from slot 0 on. -/
def chooseRR (last : Option (Nat × Bool)) (l : List (Nat × Ctx)) : Option (Nat × Ctx) :=
  match last with
  | some (slot, _) => (l.find? fun q => decide (q.1 / 8 > slot)).or l.head?
  | none => l.head?

/-- GTO: a context ready for 64 − CTX turns; the one that issued last, unless it yielded; the oldest, the one that yielded passed
over. -/
def chooseGTO (last : Option (Nat × Bool)) (ctx : Nat) (l : List (Nat × Ctx)) : Option (Nat × Ctx) :=
  match oldest (l.filter fun q => decide (q.2.readyTurns ≥ 64 - ctx)) with
  | some q => some q
  | none =>
    match last with
    | none => oldest l
    | some (slot, yielded) =>
      if yielded then (oldest (l.filter fun q => q.1 / 8 != slot)).or (oldest l)
      else (l.find? fun q => q.1 / 8 == slot).or (oldest l)

/-- The context that issues in a turn of a position: a stepped one first. -/
def Core.choose (k : Core) (pos : Nat) : Option Nat :=
  let l := (k.posCtxs pos).filter fun q => q.2.canIssue && !k.saving q.1
  match l.find? fun q => q.2.stepping with
  | some q => some q.1
  | none =>
    (if k.policy then chooseGTO (tget k.last pos) (partCtx (k.part.getD 0) - 1) l else chooseRR (tget k.last pos) l).map fun q => q.1

/-! ### What is issued (R31 to R36, R47) -/

/-- What a context is about to issue: one instruction's bits, or a pair's. -/
inductive Word1 | one (w : Insn96) | two (w1 w2 : Insn96)
deriving DecidableEq, Repr

/-- The bits at a PC in a line. -/
def lineAt (l : Line) (pc : Word) : Word1 :=
  let i := fld pc 2 0
  if pairBit (lineWord l) i then .two (lineInsn l i) (lineInsn l (i + 1)) else .one (lineInsn l i)

/-- Instructions that the issue performs or skips, 0 where a check stops it (R405, R412). -/
def State.issued (s : State) : Word1 → Nat
  | .one w =>
    (match (decode w).toOption with
     | some i => if (verdict s i).check = 9 then 1 else 0
     | none => 0)
  | .two a b =>
    (match (decode a).toOption, (decode b).toOption with
     | some i, some j =>
       if (verdict s i).check = 9 && (verdict s j).check = 9 && !sameDest i j && !pairLong s i j then 2 else 0
     | _, _ => 0)

/-- Class 0x5 to 0x7 (R176). -/
def rawVec (w : Insn96) : Bool := decide (5 ≤ rawClass w) && decide (rawClass w ≤ 7)
/-- The issue uses the vector port. -/
def Word1.vec : Word1 → Bool
  | .one w => rawVec w
  | .two a b => rawVec a || rawVec b
/-- PCs that the issue moves past (R31). -/
def Word1.length : Word1 → Nat
  | .one _ => 1
  | .two _ _ => 2
/-- A YIELD (R81). The rule does not say whether one whose guard is false counts; the model counts it (log entry 74). -/
def Word1.yields : Word1 → Bool
  | .one w => (match (decode w).toOption with | some (.yieldT _) => true | _ => false)
  | .two .. => false

/-! ### What a turn counts (R81, R91, R104, R406, R412) -/

/-- A turn of a context's position: turns until it may be reused; ready turns without an issue; turns parked on a limited access;
turns that a precise stop has waited. A halted context counts none of them. -/
def Ctx.turn (c : Ctx) (issues : Bool) : Ctx :=
  if c.run = .free then { c with reuse := c.reuse - 1 }
  else if c.halted then c
  else
    { c with
      readyTurns := if c.run = .ready && !issues then c.readyTurns + 1 else 0
      syncTurns := (match c.run with | .parked _ _ _ true => c.syncTurns + 1 | _ => c.syncTurns)
      edgeWait := c.edgeWait.map (· + 1) }

/-- Counter of R412 for a context that does not issue, by its state. -/
def Ctx.waitCount (c : Ctx) : Option Nat :=
  if c.halted then none else
  match c.run with
  | .parked .marker _ _ _ => some 3
  | .parked .sync _ _ _ => some 4
  | .parked .group _ _ _ => some 5
  | .dozing _ => some 6
  | _ => none

/-- A turn of a position in which n instructions are issued, by context x if any; `yields`: the issue is a YIELD. The rotation goes on
from the context that was chosen, whether its issue was performed or a check stopped it (R80, R103). -/
def Core.turn (k : Core) (pos : Nat) (x : Option Nat) (n : Nat) (yields : Bool := false) : Core :=
  let waits := (k.posCtxs pos).filterMap fun q => q.2.waitCount
  let k := if n = 0 then k.count 2 else k.count 1 n
  let k := waits.foldl (fun k w => k.count w) k
  { k with
    ctxs := k.ctxs.map fun q => (q.1, if q.1 % 8 = pos then q.2.turn (x == some q.1) else q.2)
    last := match x with | some c => tset k.last pos (c / 8, yields) | none => k.last }

/-- The end of a core's turn: the planker reissues when the position has issued no vector instruction (R176); one that a check stopped was
not issued. -/
def State.endTurn (s : State) (core pos : Nat) (vec : Bool) : State :=
  let busy := match tget (s.core core).capHold pos with
    | some x => (s.ctx core x).cap.any Capture.busy
    | none => false
  { s with slot := core + 1, follow := if busy && !vec then s.follow ++ [.reissue core pos] else s.follow }

/-- Instructions that a context issues count for the skid of a stop on its way (R405). -/
def State.skids (s : State) (core x : Nat) : Bool :=
  (s.ctx core x).edgeWait.isSome || s.dbg.stops.any fun d => d.covers core && !d.reached.contains core

/-- The state in which a context performs what it is about to issue. -/
def State.prepare (s : State) (core pos x : Nat) (w : Word1) : State :=
  let s := { s with me := (core, x), took := none }
  let n := s.issued w
  let skid := if s.skids core x then n else 0
  let s := s.onCore core fun k => k.turn pos (some x) n (n != 0 && w.yields)
  s.onCtx core x fun c =>
    { c with npc := pcAfter c.pc w.length, entry := false, half := 0, view := none, pairOf := 0, stepping := false
             bpPass := if n = 0 then c.bpPass else c.bpPass.filter fun q => q.2 != c.pc && (w.length != 2 || q.2 != c.pc + 1), skid := c.skid + skid }

/-! ### What the machine does next -/

/-- The next step. -/
inductive Next
  /-- an instruction of a context, in a turn of a core's position -/
  | issue (i : Instr) (s : State) (core pos : Nat) (vec : Bool)
  /-- a pair -/
  | pair (w1 w2 : Insn96) (s : State) (core pos : Nat) (vec : Bool)
  /-- an event that an outside party brings -/
  | event (i : Instr) (s : State)
  /-- a step of the machine's own -/
  | inner (e : Inner) (s : State)
  /-- the state after a step that has no row of its own, or that is made of the parts of one -/
  | done (s : State)
  /-- the core rail is off and nothing is left to come (R449) -/
  | off

/-- A context's issue: a breakpoint first, then the target test of an entry, then the instruction. -/
def State.issueOf (s : State) (core pos x : Nat) (l : Line) : Next :=
  let c := s.ctx core x
  let spent := fun (f : State → State) =>
    Next.done ((f ({ (s.onCore core fun k => k.turn pos (some x) 0) with me := (core, x), took := none })).endTurn core pos false)
  if (s.bpAt core x).isSome then spent fun s => s.breakpoint core x
  else if c.entry && !s.targetOk core c.pc then spent fun s => s.trap BAD_TARGET c.pc
  else
    let w := lineAt l c.pc
    let vec := fun (w : Word1) => w.vec && ({ s with me := (core, x), took := none }).issued w != 0
    match w with
    | .two a b => .pair a b (s.prepare core pos x w) core pos (vec w)
    | .one a =>
      match decode a with
      | .ok i => .issue i (s.prepare core pos x w) core pos (vec w)
      | .error _ => .done (((s.prepare core pos x w).trap ILLEGAL_INSN 0).endTurn core pos false)

/-- The park at a marker of a verdict. -/
def Verdict.marker : Verdict → Option PCond
  | .park .marker c _ => some c
  | _ => none

/-- What a ready context, whose line is held, waits for at a marker before its next issue (R34, R78, R86, R177): it is parked, and cannot be
chosen. An entry that fails its target test traps instead. -/
def State.parksFor (s : State) (core x : Nat) : Option PCond :=
  let c := s.ctx core x
  match tget (s.core core).lines (fld (lineOfPc c.pc) 56 6) with
  | none => none
  | some l =>
    if !c.canIssue || (c.entry && !s.targetOk core c.pc) then none
    else
      let s := { s with me := (core, x), took := none }
      match lineAt l c.pc with
      | .one w => (decode w).toOption.bind fun i => (verdict s i).marker
      | .two a b =>
        match (decode a).toOption, (decode b).toOption with
        | some i, some j => (pairVerdict s i j).bind fun p => p.2.marker
        | _, _ => none

/-- Park a context at the marker of its next issue. -/
def State.parkAt (s : State) (core x : Nat) (c : PCond) : State :=
  (({ s with me := (core, x), took := none }).onCx fun q => { q with pairOf := 0, stepping := false }).park .marker c .again

/-- What a position's turn settles before it chooses, one step at a time: a park that was over when the turn began ends (R78); a limit that
has passed is taken (R104); a context that waits at a marker is parked (R78). None when nothing is left to settle. -/
def State.preTurn (s : State) (core pos : Nat) : Option State :=
  let l := (s.core core).posCtxs pos
  match l.find? fun q => q.2.due && (match q.2.run with | .parked _ c _ _ => s.condMet core q.1 c | _ => false) with
  | some q => some (s.tryResume core q.1)
  | none =>
    match l.find? fun q => q.2.limited && q.2.limitPassed with
    | some q => some (s.syncLimit core q.1)
    | none => l.findSome? fun q => (s.parksFor core q.1).map fun c => s.parkAt core q.1 c

/-- A core's turn: what is to be settled first; then the chosen context issues, once its line is held. -/
def State.turnOf (s : State) (core : Nat) : Next :=
  let k := s.core core
  let pos := (s.cycle + k.phase) % 8
  match s.preTurn core pos with
  | some t => .done t
  | none =>
    match k.choose pos with
    | none => .done ((s.onCore core fun k => k.turn pos none 0).endTurn core pos false)
    | some x =>
      match tget k.lines (fld (lineOfPc (k.ctx x).pc) 56 6) with
      | none => .done (s.fetchLine core x)
      | some l => s.issueOf core pos x l

/-- A turn of a core begins: registers written in the last one take effect (R79, R371); what has landed is read from now on (R83); parks whose conditions have come
about are over, and contexts whose instant has come doze no more (R78, R110). -/
def State.turnStart (s : State) (core : Nat) : State :=
  let s := s.onCore core fun k => { k.takeCsrs with ctxs := k.ctxs.map fun q => (q.1, q.2.settle) }
  let t := s.onCore core fun k => { k with ctxs := k.ctxs.map fun q =>
    (q.1, match q.2.run with
      | .parked _ c _ _ => { q.2 with due := s.condMet core q.1 c }
      | .dozing _ => q.2.woken (s.coreNow core)
      | _ => q.2) }
  if (s.core core).ctxs.any fun q => match q.2.run with | .dozing _ => true | _ => false then t.readClock core else t

/-- A core cycle passes: the counter and its rate; the cores whose next turn begins with the new cycle (R15, R396, R397). -/
def State.nextCycle (s : State) : State :=
  let s := { s with cycle := s.cycle + 1, slot := 0, clk := s.clk + (4 * (2 ^ 40 + s.rate)).toNat }
  (s.cores.filter fun p => (s.cycle + p.2.phase) % 8 == 0 && !p.2.stopped).foldl (fun s p => s.turnStart p.1) s

/-- The next core's turn of this cycle, or the next cycle. -/
def State.nextTurn (s : State) : Next :=
  match s.cores.find? fun p => decide (p.1 ≥ s.slot) && p.2.runs with
  | some p => s.turnOf p.1
  | none => .done s.nextCycle

/-! ### Outside events -/

/-- Who brings an event. -/
inductive Source | system | service | other | none'
deriving DecidableEq, Repr

/-- Who brings an event; nobody brings an instruction, nor a step that the machine takes by itself. -/
def source : Instr → Source
  | .pageMappedRestore .. | .schedulerCommand _ | .imageLoad .. | .replicaSetChange .. | .gangSwitch _ | .gangResume _
  | .clockRateAdjust _ | .clockStepForward _ | .plimitSet _ | .controlRegisterWrite .. | .hartStartRequest _ | .checkpointClose
  | .rollback | .containment _ | .machineCheckThreadEnd .. => .system
  | .systemCoreAccess hart .. => if hart < 32 then .system else .other
  | .attestationRequest .. | .redfishPower _ | .redfishBootState | .powerOn | .bootImageFetch _ | .bootVerify .. | .bootRetryWait
  | .thermalReport .. => .service
  | .fabricBarrierArrive .. | .progressProbe .. | .dcmdStop .. | .dcmdResume _ | .dcmdStepContext .. | .dcmdStepGroup ..
  | .machineCheck _ | .pcieHostAccess .. | .flitReplay .. | .cxlPortDown _ | .ethernetFrameReceive .. | .ptpEventMessage _
  | .keepaliveResponse _ | .replicaInvalidateAck .. | .cardParityRefetch .. | .pairMismatch _ | .pairTimeout .. => .other
  | _ => .none'

/-- An event may come now: during a close only the management service, whose reset waits (R433, R445); before system software runs only
the security core's own; while a package stop halts the system cores, nothing of theirs (R406). -/
def State.allows (s : State) (i : Instr) : Bool :=
  match source i with
  | .service => true
  | .other => !s.rel.closing && decide (s.boot.state = 3) && !s.boot.railOff
  | .system => !s.rel.closing && decide (s.boot.state = 3) && !s.boot.railOff && !s.dbg.pkgHalt
  | .none' => true

/-- A store by physical address that has to wait (R432). -/
def State.blocked (s : State) : Instr → Bool
  | .systemCoreAccess _ wr _ addr _ => s.physWaits wr addr
  | .pcieHostAccess bar2 wr addr _ => bar2 && s.physWaits wr addr
  | _ => false

/-- The first event that may come. -/
def State.nextEvent (s : State) : Option Next :=
  match s.agenda.findIdx? fun i => s.allows i && !s.blocked i with
  | none => none
  | some n =>
    let t := { s with agenda := dropAt s.agenda n }
    (s.agenda[n]?).map fun i => if source i = .none' then .done t else .event i t

/-- What the machine does next: what follows at once; an outside event; the end of a close; a step of its own or a turn. -/
def State.next (s : State) : Next :=
  match s.follow with
  | f :: t =>
    let s := { s with follow := t }
    (match f with
     | .reissue core pos => .done (s.reissue core pos)
     | .contain cluster => .done (s.contain cluster))
  | [] =>
    match s.nextEvent with
    | some n => n
    | none =>
      if s.boot.railOff then .off
      else if s.rel.closing then .done s.commit
      else
        let l := s.candidates
        if l.isEmpty then s.nextTurn
        else
          let k := Config.pick s.fresh % (l.length + 1)
          if k = l.length then s.used.nextTurn
          else
            match s.firstEnabled (l.drop k ++ l.take k) with
            | some e => .inner e s.used
            | none => s.used.nextTurn

end Sys2Proof.Machine
end

