-- ==== Sys2Proof/Machine/Place.lean ====
section
/-! DEFINITION. Place.lean: a machine about to issue a given instruction, as a launch of one supervisor thread on core 0 would have it
(log entry 22). -/
namespace Sys2Proof.Machine

/-- Partition word of the thread: 8 contexts, every register, 8 accumulator tiles, streams (R88, R89). -/
def placePart : Word := 0x638

/-- A sound line that holds one instruction and four zero words: the instruction is a target (R30). -/
def placeLine (w : Insn96) : Line :=
  let word := 1 + 2 ^ 24 * (onesIn 96 w.toNat % 2) + 2 ^ 29
  setWord32 (w.setWidth 512) 15 (BitVec.ofNat 32 word)

/-- The thread: launch 1, thread 0 of 1, in supervisor mode, about to issue at address 0. -/
def placeCtx : Ctx :=
  { Ctx.reset with run := .ready, inc := 1, nthr := 1, launch := 1, sup := true, part := placePart, npc := 1 }

/-- The launch, which runs. -/
def placeLaunch : Launch :=
  { id := 1, desc := 0, tenant := 0, service := false, sup := true, prio := 0, level := 0, st := .running, next := 1, ended := 0
    cores := [0], heard := [], status := 0, cause := 0, node := none, filled := true, inst := none, sealed' := true }

/-- Core 0 with the thread, its pool as it stood. -/
def placeCore (k : Core) (w : Insn96) (cycle : Nat) : Core :=
  { Core.reset with
    phase := (8 - cycle % 8) % 8, power := .awake, pool := k.pool, part := some placePart, policy := k.policy, csrs := []
    wins := [(0, launchWin placePart), (1, 1)]
    residents := [{ launch := 1, live := 1, status := 0, left := [], done := false }]
    ctxs := [(0, placeCtx)], lines := [(0, placeLine w)] }

/-- The state in which the next step issues the instruction: what would come before it is not there. -/
def State.place (s : State) (w : Insn96) : State :=
  { s with
    slot := 0, agenda := [], follow := [], cores := [(0, placeCore (s.core 0) w s.cycle)], chan := [], homes := [], parked := []
    sched := { s.sched with launches := [(1, placeLaunch)], nextLaunch := max 2 s.sched.nextLaunch, queue := [], insts := []
                            groups := [{ launch := 1, handle := 0, members := [], size := 1, arrived := [], count := 0, joins := [], leaves := [] }]
                            lastCharge := s.now }
    units := [], fabric := { s.fabric with bars := [], timers := [] }
    dbg := { s.dbg with stops := [], tick := tickAt s.now s.dbg.tickExp, stepEngines := none, pkgHalt := false }
    rel := { s.rel with closing := false, contained := [] }
    boot := { s.boot with state := 3, railOff := false } }

end Sys2Proof.Machine
end

