-- ==== Sys2Proof/Machine/Step.lean ====
section
/-! DEFINITION. Step.lean: one step of the machine, and how the host places an instruction. -/
namespace Sys2Proof.Machine

/-- After an instruction, its core's turn ends. -/
def ended (o : Host.Outcome State Fault Refusal) (core pos : Nat) (vec : Bool) : Host.Outcome State Fault Refusal :=
  match o with
  | .next t => .next (t.endTurn core pos vec)
  | .fault f => .fault f
  | .refused r => .refused r

/-- One step of the machine. -/
def step (s : State) : Host.Outcome State Fault Refusal :=
  match s.next with
  | .issue i t core pos vec => ended (exec i t) core pos vec
  | .pair a b t core pos vec => ended (execPairIssue a b t) core pos vec
  | .event i t => exec i t
  | .inner e t => e.exec t
  | .done t => .next t
  | .off => .fault .railOff

/-- The state with an instruction of nbits bits where step issues its next one (log entry 22). -/
def State.withFetchWord (s : State) (nbits w : Nat) : State := s.place (BitVec.ofNat 96 (w % 2 ^ min nbits 96))

end Sys2Proof.Machine
end

