-- ==== Sys2Proof/Machine/Mesh.lean ====
section
/-! DEFINITION. Machine/Mesh.lean: where the units of the device lie and the routers that a message passes (R12 to R14, R23,
R25, R451). Messages are otherwise delivered in any order that the channels allow, so no step reads a path. -/
namespace Sys2Proof.Machine

/-- A unit that sends or receives messages. A hart, port or responder is named by its number in the device. -/
inductive Node where
  /-- A core, by its number (R12). -/
  | core (c : Nat)
  /-- A cluster engine. -/
  | cluster (k : Nat)
  /-- A die engine. -/
  | die (d : Nat)
  /-- A memory stop. -/
  | stop (i : Nat)
  /-- A system core: hart h lies on IO die h / 8 (R25). -/
  | hart (h : Nat)
  /-- Port k of IO die d's two Ethernet ports. -/
  | ethernet (d k : Nat)
  /-- CXL port 4d + k. -/
  | cxl (p : Nat)
  /-- Link k of IO die d's twelve fabric links. -/
  | link (d k : Nat)
  /-- The keep-alive responder of an IO die. -/
  | keepalive (d : Nat)
  | scheduler
  | package
  | fabric
  | security
  | pcie
  deriving DecidableEq, Repr

/-- Mesh coordinates of a core. -/
def coreAt (c : Nat) : Nat × Nat := (c % 128, c / 128)

/-- The IO die that carries a unit, if one does (R25). -/
def Node.ioDie : Node → Option Nat
  | .core _ | .cluster _ | .die _ | .stop _ => none
  | .hart h => some (h / 8)
  | .ethernet d _ | .link d _ | .keepalive d => some d
  | .cxl p => some (p / 4)
  | .scheduler | .package | .fabric | .security | .pcie => some 0

/-- The router of a unit that lies on a compute die (R12, R14, R23). -/
def Node.router : Node → Option (Nat × Nat)
  | .core c => some (coreAt c)
  | .cluster k => some (32 * (k / 32 % 4) + 4 * (k % 8), 16 * (k / 32 / 4) + 4 * (k % 32 / 8))
  | .die d => some (32 * (d % 4) + 16, 16 * (d / 4) + 8)
  | .stop i => some (32 * (i / 4 % 4) + 8 * (i % 4) + 3, 16 * (i / 4 / 4) + 7)
  | _ => none

/-- Compute dies joined to an IO die, in the order of its attachment routers (R25). -/
def joinedDies : Nat → List Nat
  | 0 => [0, 1, 2, 3]
  | 1 => [3, 7, 11, 15]
  | 2 => [12, 13, 14, 15]
  | 3 => [0, 4, 8, 12]
  | _ => []

/-- The attachment router of IO die d for die column or die row n (R451). -/
def attachment (d n : Nat) : Nat × Nat :=
  match d with
  | 0 => (32 * n + 16, 0)
  | 1 => (127, 16 * n + 8)
  | 2 => (32 * n + 16, 63)
  | _ => (0, 16 * n + 8)

/-- The attachment router of IO die d that a message to or from router p uses (R451). -/
def attachFor (d : Nat) (p : Nat × Nat) : Nat × Nat :=
  attachment d (if d % 2 = 0 then p.1 / 32 else p.2 / 16)

/-- The numbers after a up to and including b, in either direction. -/
def axisPath (a b : Nat) : List Nat :=
  if a ≤ b then (List.range (b - a)).map (a + 1 + ·) else (List.range (a - b)).map (a - 1 - ·)

/-- Routers that a message passes from a to b: X first, then Y (R13). -/
def xyPath (a b : Nat × Nat) : List (Nat × Nat) :=
  a :: ((axisPath a.1 b.1).map (·, a.2) ++ (axisPath a.2 b.2).map (b.1, ·))

/-- Routers that a message passes from one unit to another (R13, R451). Units of one IO die meet inside it. -/
def path (a b : Node) : List (Nat × Nat) :=
  match a.router, b.router, a.ioDie, b.ioDie with
  | some p, some q, _, _ => xyPath p q
  | some p, none, _, some e => xyPath p (attachFor e p)
  | none, some q, some d, _ => xyPath (attachFor d q) q
  | none, none, some d, some e =>
    if d = e then [] else xyPath (attachment d 0) (attachFor e (attachment d 0))
  | _, _, _, _ => []

/-- Hops from one unit to another: the routers that a message passes from one to the next, and 2 for each crossing to an IO die (R193,
R451). -/
def hops (a b : Node) : Nat :=
  (path a b).length - 1 + (if path a b = [] then 0 else
    (if a.ioDie.isSome then 2 else 0) + (if b.ioDie.isSome then 2 else 0))

/-- A core's mesh distance from a memory stop, as the nominal latencies count it (R193). -/
def hopsToStop (core stop : Nat) : Nat := hops (.core core) (.stop stop)

end Sys2Proof.Machine
end

