-- ==== Sys2Proof/Safety.lean ====
section
/-! DEFINITION. Safety.lean: what the statements rest on: when an instruction executes normally, where the thread goes on, and the
forms of the state that every step keeps. -/
namespace Sys2Proof.Machine

/-! ### An instruction that executes normally -/

/-- A planker capture stands in the way of nothing: there is none, or the instruction is of another class, waits for no reissue, and
no reissue left writes its destinations (R175, R177, R178). -/
def capturePermits (c : Ctx) (u : Use) : Bool :=
  match c.cap with
  | none => true
  | some p => !u.vec && (!u.marked || !p.busy) && u.dests.all fun d => !(reissueDests p).contains d

/-- Nothing keeps a marker waiting: no long result is outstanding, and every record of the replay list has been taken (R85, R352). -/
def marksClear (c : Ctx) (i : Instr) : Bool := !(usesOf i).marked || (c.noLong && c.replay.all fun r => !r.due)
/-- Nothing that the instruction waits for is outstanding: at a marker (R85), or for room among the long results (R86). -/
def waitsForNothing (c : Ctx) (i : Instr) : Bool :=
  marksClear c i && (!startsLong c.regs c i || decide (c.longs.length < Config.maxLong))

/-- No refused store of the thread waits to be taken, or it is in a handler (R356). -/
def noRefusal (s : State) : Bool := s.cx.hnd || (s.mine.refusal s.me.2 s.cx.inc).isNone

/-- The context issues an instruction by itself, in state ready (R78). -/
def alone (s : State) : Bool :=
  decide (s.cx.run = .ready) && decide (s.cx.half = 0) && decide (s.cx.view = none) && decide (s.took = none)

/-- The issuing context executes the instruction normally: it is issued alone; its registers are allotted (R44); the mode may run it
(R348); nothing that it waits for is outstanding; its guard performs it (R38, R162); no destination has a result pending (R84); and it
names no stream register. -/
def Clear (i : Instr) (s : State) : Bool :=
  let c := s.cx
  let u := usesOf i
  alone s && u.allotted c.part && privOk s i && waitsForNothing c i && noRefusal s && capturePermits c u &&
  u.performed c.regs && (pendingDest c u.dests).isNone && noStream c (u.vs ++ u.dv)

/-- The same, but for the stream registers that it names (R276, R277). -/
def Able (i : Instr) (s : State) : Bool :=
  let c := s.cx
  let u := usesOf i
  alone s && u.allotted c.part && privOk s i && waitsForNothing c i && noRefusal s && c.cap.isNone && u.performed c.regs &&
  (pendingDest c u.dests).isNone

/-- The same, but that the guard does not perform the instruction (R38). -/
def Skips (i : Instr) (s : State) : Bool :=
  let c := s.cx
  let u := usesOf i
  alone s && u.allotted c.part && privOk s i && marksClear c i && noRefusal s && c.cap.isNone && !u.performed c.regs

/-- Everything that the thread stored has been acknowledged, and every kick of it: the next kick may be sent (R219, R313). -/
def State.maySend (s : State) : Bool := s.isDrained s.me.1 s.me.2 && s.cx.kicksIn

/-- The thread goes on behind the issue (R31). -/
def State.pass (s : State) : State := s.onCx fun c => { c with pc := c.npc }

/-! ### Long results -/

/-- A long result that the core itself forms is entered, the thread goes on, and its value waits to land (R82, R83). A destination that
discards its writes leaves nothing pending. -/
def ownLong (s t : State) (d : Dest) (data : Line) (flags : BitVec 6) : Prop :=
  t.cx.regs = s.cx.regs ∧ t.cx.pc = s.cx.npc ∧ t.mem = s.mem ∧ t.chan = s.chan ∧ t.took = none ∧ t.cx.run = .ready ∧
  if d.discarded then t.cx.pend = s.cx.pend ∧ t.cx.landing = s.cx.landing
  else
    t.cx.landing = s.cx.landing ++ [{ dst := s.whoMe, tag := s.cx.nextTag, data := data, flags := flags, fault := none, lane := none }] ∧
    ∃ p, t.cx.pend = s.cx.pend ++ [p] ∧ p.dest = d ∧ p.tag = s.cx.nextTag ∧ p.left = 1 ∧ p.got = 0 ∧ p.fmask = 0

/-- A long result of one request is entered, its request is sent, and the thread goes on (R82, R83, R195, R203). One whose destination
discards its writes is none of the results outstanding (Ctx.longs); its request is kept for what its reply brings besides. -/
def farLong (s t : State) (d : Dest) (place : Place) (op : ROp) : Prop :=
  t.cx.regs = s.cx.regs ∧ t.cx.pc = s.cx.npc ∧ t.mem = s.mem ∧ t.took = none ∧ t.cx.run = .ready ∧ t.cx.landing = s.cx.landing ∧
  t.chan = s.chan ++ [{ born := s.now, body := .req { who := s.asker, place := place, op := op, tag := s.cx.nextTag, lane := none } }] ∧
  ∃ p, t.cx.pend = s.cx.pend ++ [p] ∧ p.dest = d ∧ p.tag = s.cx.nextTag ∧ p.left = 1 ∧ p.got = 0

/-! ### Addresses -/

/-- The effective address of an access of n-byte alignment that passes the checks of R180 to R182. -/
def soundAt (am : Mode) (base idx : Word) (disp : BitVec 16) (n : Nat) : Option Word :=
  match eaOf am base idx disp with
  | some ea => if eaClean am ea && ea.toNat % n == 0 then some ea else none
  | none => none
/-- The same for a memory operand, by the registers of the issuing thread. -/
def State.soundEa (s : State) (m : MemOp) (n : Nat) : Option Word :=
  soundAt m.am (s.cx.regs.getG m.a) (scaled (s.cx.regs.getG m.b) m.sc) m.disp n

/-- The thread's own port would accept a .l access to n bytes, and nothing watches the pool (R183, R187, R402). -/
def State.localOk (s : State) (off n : Nat) (need : Need) : Bool :=
  (s.localRefusal s.me.1 off n).isNone && (s.poolCheck s.me.1 off n false s.asker need).isNone && !s.mine.poisoned off n && s.mine.wps.isEmpty

/-! ### What stands in memory -/

/-- Physical memory is in its canonical form. -/
def Memory.wf (m : Memory) : Bool := cellsOk m.bytes

/-- A core's pool and operand memory are in the canonical form. -/
def Core.memWf (k : Core) : Bool := cellsOk k.pool && cellsOk k.opmem

/-- The byte at a physical address. -/
def State.byte (s : State) (a : Nat) : Byte := rdByte s.mem.bytes a
/-- A byte of a core's pool. -/
def State.poolByte (s : State) (c a : Nat) : Byte := rdByte (s.core c).pool a

/-! ### The state in which a context issues next -/

/-- The machine's next step is the issue of what stands at the PC of a core's context, in a line that is held: nothing that follows at once,
comes from outside, ends a close or is a step of the machine's own stands before it; the turn has nothing to settle; the choice falls on
the context; no breakpoint matches; and an entry has passed its target test (R32, R78 to R81, R401). -/
def State.issues (s : State) (core x : Nat) (l : Line) : Bool :=
  s.follow.isEmpty && s.nextEvent.isNone && !s.boot.railOff && !s.rel.closing && s.candidates.isEmpty &&
  (match s.cores.find? fun p => decide (p.1 ≥ s.slot) && p.2.runs with
   | some p =>
     let pos := (s.cycle + (s.core core).phase) % 8
     decide (p.1 = core) && (s.preTurn core pos).isNone && decide ((s.core core).choose pos = some x)
   | none => false) &&
  decide (tget (s.core core).lines (fld (lineOfPc (s.ctx core x).pc) 56 6) = some l) &&
  (s.bpAt core x).isNone && (!(s.ctx core x).entry || s.targetOk core (s.ctx core x).pc)

end Sys2Proof.Machine
end

