-- ==== Sys2Proof/Safety/Control.lean ====
section
/-! DEFINITION. Control.lean: what the statements say of transfers, traps, groups and the experience instructions, in the rules' own
terms (R31, R32, R98, R134 to R137, R155, R349, R350). -/
namespace Sys2Proof.Machine

/-! ### Where a thread goes on -/

/-- The thread goes on at a target. -/
def State.goTo (s : State) (t : Word) : State := s.onCx fun c => { c with pc := t, npc := t }
/-- The line of a target is held. -/
def State.holds (s : State) (t : Word) : Bool := (tget s.mine.lines (fld (lineOfPc t) 56 6)).isSome
/-- A transfer may enter the target, whose line is held (R32). -/
def State.entersAt (s : State) (t : Word) : Bool := decide (fld t 63 57 = 0) && s.holds t && s.targetOk s.me.1 t
/-- A transfer to the target, whose line is held, fails the test of R32 (R36, R134). -/
def State.rejects (s : State) (t : Word) : Bool := s.holds t && (decide (fld t 63 57 ≠ 0) || !s.targetOk s.me.1 t)

/-! ### Traps (R349, R350) -/

/-- The thread has taken a trap that its handler will handle: the five registers are written, HND is set, and the next issue enters the
handler; a capture that was forming is given up, and by REP_USE any (R175); nothing else has changed. -/
def traps (s t : State) (cause : BitVec 8) (addr : Word) (info : Nat) : Prop :=
  t.cx = { s.cx with
    trapcause := cause, trapaddr := addr, trapinfo := BitVec.ofNat 64 (info + pairBits s.cx.pairOf), trappc := s.cx.pc, hnd := true
    pc := s.cx.regs.trapvec, npc := s.cx.regs.trapvec, entry := true, run := .ready, want := .nothing, popped := [], answer := none
    stepping := false, cap := if s.cx.cap.any Capture.forming || cause = REP_USE then none else s.cx.cap } ∧
  (∀ c x, (c, x) ≠ s.me → t.ctx c x = s.ctx c x) ∧ t.mem = s.mem ∧ t.chan = s.chan ∧ t.homes = s.homes ∧ t.sched = s.sched ∧
  ∀ c, (t.core c).pool = (s.core c).pool ∧ (t.core c).jnl = (s.core c).jnl

/-- A return from a trap may be performed: the thread is in its handler, alone, and nothing is outstanding but records that have been
reported (R85, R353, R370). -/
def State.returns (s : State) (i : Instr) : Bool :=
  let c := s.cx
  alone s && c.hnd && c.cap.isNone && c.noLong && (c.replay.all fun r => !r.due) && (usesOf i).performed c.regs

end Sys2Proof.Machine

namespace Sys2Proof.Manual
open Sys2Proof.Machine

/-- The target of BR, CALL and LOOP (R134). -/
def branchTarget (pc : Word) (disp : BitVec 32) : Word :=
  let line : Int := (pc.toNat / 64 * 64 : Nat)
  let lines := (disp.extractLsb' 3 29).toInt
  BitVec.ofNat 64 (((line + 64 * lines) % 2 ^ 57).toNat + disp.toNat % 8)

/-- The target of an instruction that transfers control, with these registers (R135 to R137). -/
def taken (r : Regs) (pc : Word) : Instr → Option Word
  | .br h _ disp => if r.guard h then some (branchTarget pc disp) else none
  | .bri _ a | .calli _ a | .ret _ a => some (r.getG a)
  | .call _ disp => some (branchTarget pc disp)
  | .loop _ a _ _ disp => if (r.getG a).toNat ≤ 1 then none else some (branchTarget pc disp)
  | _ => none

/-- The register that names a group instruction's handle. -/
def groupHandle : Instr → Option GReg
  | .join _ _ a | .leave _ a | .gbar _ a | .garrive _ a | .gwait _ a | .phase _ a | .ginfoSize _ _ a | .ginfoRank _ _ a => some a
  | _ => none

/-- Subcode of GROUP_USE, by the thread's own table (R98). -/
def groupMisuse (c : Ctx) (i : Instr) (g : BitVec 32) : Option Nat :=
  match i, c.hent g with
  | .join .., some e => if g = 0 then some 5 else if e.st = .member then some 2 else none
  | .join .., none => if 8 ≤ (c.handles.filter fun e => e.handle != 0).length then some 3 else none
  | .leave .., some _ => if g = 0 then some 5 else none
  | .gbar .., some e | .garrive .., some e | .phase .., some e => if e.st = .member && e.arrived then some 4 else none
  | .gwait .., some e => if e.st = .member && e.waitFor.isNone then some 4 else none
  | .ginfoSize .., some _ | .ginfoRank .., some _ => none
  | .leave .., none | .gbar .., none | .garrive .., none | .gwait .., none | .phase .., none | .ginfoSize .., none | .ginfoRank .., none =>
    if g = 0 then none else some 1
  | _, _ => none

/-- The slot that an instruction reads, its destination, what is made of the slot's words, and the report that follows (R155). -/
def slotRead (c : Ctx) (i : Instr) : Option (Nat × Dest × Shape × Option (BitVec 16 × XHeld)) :=
  let r := c.regs
  match i with
  | .xrd _ hdr d a => some ((r.getG a).toNat % 2 ^ 16, .g d .d (if hdr then 0 else 8), .plain, none)
  | .xsel _ d b x => some (x.toNat, .p d, .xsel, b.map fun g => (x, { rep := .outcome ((r.getG g).getLsbD 0), pc := c.pc, kind := some 1 }))
  | .xunr _ d b x =>
    some (x.toNat, .g d .d 0, .xunr, b.map fun g => (x, { rep := .trip ((r.getG g).toNat % 2 ^ 32), pc := c.pc, kind := some 3 }))
  | .xpfd _ d a b x =>
    some (x.toNat, .g d .d 0, .xpfd (r.getG a), b.map fun g => (x, { rep := .latency (r.getG g).toNat, pc := c.pc, kind := some 2 }))
  | _ => none

end Sys2Proof.Manual
end

