-- ==== Sys2Proof/Safety/Access.lean ====
section
/-! DEFINITION. Access.lean: what the statements say of loads and stores in the rules' own terms: the bytes that a thread sees and stores,
the requests that an access sends, and the addresses that it must not form (R180 to R200). -/
namespace Sys2Proof.Machine

/-- The byte that a load of the thread sees k bytes into an access of its own pool: its own youngest store that has not left, else the
pool's (R191, R192). -/
def State.localByte (s : State) (off n k : Nat) : Byte :=
  let f := forward s.me.1 (.pool s.me.1 off n) s.cx.sb 0 0
  if f.2.getLsbD (off % 64 + k) then f.1.extractLsb' (8 * (off % 64 + k)) 8 else s.poolByte s.me.1 (off + k)

/-- A load outside .l that goes to a home, or is answered by the snapshot cache or wholly by the thread's own stores: what is outstanding, what
is asked, and what waits to land (R192, R193, R195, R207). -/
def loadStarts (s t : State) (am : Mode) (ea : Word) (n : Nat) (d : Dest) (nc acq : Bool) (xs : BitVec 16) : Prop :=
  let f := forward s.me.1 (spanOf s.me.1 am ea n) s.cx.sb 0 0
  let keeps := decide (am = .g) && !nc && !acq && !partPair s.cx.part
  let held := if keeps then s.mine.snapFind s.cx.tenant (fld ea 56 6) else none
  let whole := !nc && !acq && decide (f.2 &&& byteMask (fld ea 5 0) n = byteMask (fld ea 5 0) n)
  let answered := held.isSome || whole
  let silent := answered && d.discarded && decide (xs = 0xFFFF)
  t.cx.regs = s.cx.regs ∧ t.cx.pc = s.cx.npc ∧ t.mem = s.mem ∧ t.took = none ∧ t.cx.run = .ready ∧ t.cx.sb = s.cx.sb ∧
  (t.cx.landing = if answered && !silent
    then s.cx.landing ++ [{ dst := s.whoMe, tag := s.cx.nextTag, data := held.getD 0, flags := 0, fault := none, lane := none }]
    else s.cx.landing) ∧
  (t.chan = if answered then s.chan
    else s.chan ++ [{ born := s.now, body := .req {
      who := s.asker, place := placeOf s.me.1 am ea, op := .load n keeps, tag := s.cx.nextTag, lane := none } }]) ∧
  if silent then t.cx.pend = s.cx.pend
  else ∃ p, t.cx.pend = s.cx.pend ++ [p] ∧ p.dest = d ∧ p.tag = s.cx.nextTag ∧ p.left = 1 ∧ p.got = 0 ∧ p.fwd = f.1 ∧ p.fmask = f.2 ∧
    p.acq = acq ∧ p.xs = xs ∧ p.fill = (keeps && !answered)

/-- Stores entered in the thread's buffer one after another; none when one of them finds no room (R205). -/
def State.buffers (s : State) : List SbEnt → Option State
  | [] => some s
  | e :: t =>
    match bufStore s.mine s.me.1 s.cx e with
    | some sb => (s.onCx fun c => { c with sb := sb }).buffers t
    | none => none

/-- The bytes of a core's pool from off on are those of a line where its mask says so, and nothing else has changed but the PC. -/
def poolWritten (s t : State) (off n : Nat) (byte : Nat → Byte) (wr : Nat → Bool) : Prop :=
  (∀ a, t.poolByte s.me.1 a = if off ≤ a ∧ a < off + n ∧ wr (a - off) then byte (a - off) else s.poolByte s.me.1 a) ∧
  (∀ c a, c ≠ s.me.1 → t.poolByte c a = s.poolByte c a) ∧ t.cx = { s.cx with pc := s.cx.npc } ∧
  (∀ c x, (c, x) ≠ s.me → t.ctx c x = s.ctx c x) ∧ t.mem = s.mem ∧ t.chan = s.chan ∧ t.took = none

/-- The buffered store of an access. -/
def State.entry (s : State) (am : Mode) (ea : Word) (data : Line) (mask : BitVec 64) (bset : Bool) : SbEnt :=
  { am := am, line := lineVa ea, mask := mask, data := data, bset := bset, pc := s.cx.pc, spill := false, peer := none }

/-- The stores that a synchronising access must drain first have left (R191, R196, R198). -/
def State.clearOf (s : State) (am : Mode) (ea : Word) (n : Nat) : Bool := s.isClear s.me.1 s.me.2 [spanOf s.me.1 am ea n]
/-- The thread's own port does not refuse the access (R183, R187). -/
def State.gateOk (s : State) (am : Mode) (ea : Word) (n : Nat) : Bool :=
  decide (am ≠ .l) || (s.localRefusal s.me.1 (fld ea 15 0) n).isNone

end Sys2Proof.Machine

namespace Sys2Proof.Manual
open Sys2Proof.Machine

/-- n bytes, the lowest first, as a number. -/
def leNat (f : Nat → Byte) : Nat → Nat
  | 0 => 0
  | n + 1 => leNat f n + (f n).toNat * 256 ^ n
/-- A loaded value in a g register (R195). -/
def loadedAs (sz : LdSz) (n : Nat) : Word :=
  match sz with
  | .b => (BitVec.ofNat 8 n).signExtend 64 | .h => (BitVec.ofNat 16 n).signExtend 64 | .w => (BitVec.ofNat 32 n).signExtend 64
  | .d | .bu | .hu | .wu => BitVec.ofNat 64 n
/-- Bytes of a load size, of a store size (R40). -/
def ldN : LdSz → Nat | .b | .bu => 1 | .h | .hu => 2 | .w | .wu => 4 | .d => 8
def stN : StSz → Nat | .b => 1 | .h => 2 | .w => 4 | .d => 8
/-- Byte k of a register. -/
def byteOf (v : Word) (k : Nat) : Byte := v.extractLsb' (8 * k) 8
/-- A lane is performed. -/
def laneOn (r : Regs) (h : Hdr) (i : Nat) : Bool := (r.gmask h).getLsbD i
/-- The address of lane i of VLDX and VSTX (R200). -/
def laneEa (r : Regs) (a : GReg) (b : VReg) (sc : BitVec 2) (disp : BitVec 16) (i : Nat) : Word :=
  r.getG a + (((r.getV b).extractLsb' (32 * i) 32).setWidth 64) * BitVec.ofNat 64 (2 ^ sc.toNat) + disp.signExtend 64

/-- The memory operand of a class 0x8 instruction: mode, base, scaled index, displacement, alignment (R180, R182). -/
def operandOf (r : Regs) (i : Instr) : Option (Mode × Word × Word × BitVec 16 × Nat) :=
  let op := fun (m : MemOp) (n : Nat) => some (m.am, r.getG m.a, r.getG m.b <<< m.sc.toNat, m.disp, n)
  match i with
  | .ld _ sz _ _ _ m => op m (ldN sz)
  | .st _ sz _ _ m => op m (stN sz)
  | .vld _ _ _ _ m | .vst _ _ _ m => op m 64
  | .lds _ _ m | .sts _ _ m | .ldf _ _ m | .feset _ m | .feclr _ m => op m 8
  | .ldacq _ sz _ m => op m (ldN sz)
  | .strel _ sz _ m => op m (stN sz)
  | .atom _ wd _ am _ a _ disp => some (am, r.getG a, 0, disp, match wd with | .w => 4 | .d => 8)
  | .pref _ d m => if r.getG d = 0 then none else op m 1
  | _ => none

/-- The address that a memory operand forms, and the trap of one that must not be formed (R180 to R182). -/
def addressTrap (am : Mode) (base idx : Word) (disp : BitVec 16) (n : Nat) : Option (BitVec 8 × Word) :=
  let sum : Int := base.toNat + idx.toNat + disp.toInt
  if am = .g ∧ base.getLsbD 57 then some (BAD_ADDR, base)
  else
    let ea : Nat := if am = .g then base.toNat / 2 ^ 58 * 2 ^ 58 + (sum % 2 ^ 57).toNat else (sum % 2 ^ 64).toNat
    let top := match am with | .l => ea / 2 ^ 16 | .c => ea / 2 ^ 26 | .x => ea / 2 ^ 29 | .g => ea / 2 ^ 57 % 2
    if top ≠ 0 then some (BAD_ADDR, BitVec.ofNat 64 ea)
    else if ea % n ≠ 0 then some (MISALIGN, BitVec.ofNat 64 ea) else none

end Sys2Proof.Manual

namespace Sys2Proof.Manual
open Sys2Proof.Machine

/-- The buffered store of ST and VST in .c, .x or .g at a sound address, and the address (R195). -/
def storeForm (s : State) (i : Instr) : Option (SbEnt × Word) :=
  match i with
  | .st _ sz bset d m =>
    match s.soundEa m (stN sz) with
    | some ea =>
      if m.am = .l then none
      else
        let off := ea.toNat % 64
        some (s.entry m.am ea (atByte off ((s.cx.regs.getG d).toNat % 2 ^ (8 * stN sz))) (byteMask off (stN sz)) bset, ea)
    | none => none
  | .vst h bset d m =>
    match s.soundEa m 64 with
    | some ea => if m.am = .l then none else some (s.entry m.am ea (s.cx.regs.getV d) (laneBytes (s.cx.regs.gmask h) 16) bset, ea)
    | none => none
  | _ => none

/-- LDS, STS and LDF: operand, operation, destination (R196). -/
def syncForm (r : Regs) : Instr → Option (MemOp × ROp × (Word → Dest))
  | .lds _ d m => some (m, .lds, fun ea => .g d .d (ea.toNat % 64))
  | .sts _ d m => some (m, .sts (r.getG d), fun _ => .none)
  | .ldf _ d m => some (m, .ldf, fun ea => .g d .d (ea.toNat % 64))
  | _ => none

/-- Instructions that wait for the thread's own stores to the same bytes (R191, R196, R198). -/
def waitsForOverlap : Instr → Bool
  | .st .. | .vst .. | .lds .. | .sts .. | .ldf .. | .feset .. | .feclr .. | .atom .. => true
  | _ => false

end Sys2Proof.Manual
end

