-- ==== Sys2Proof/Safety/Values.lean ====
section
/-! DEFINITION. Values.lean: what the spec's tables say an instruction writes, in the words of the spec and apart from the meanings, for
the statements to hold the meanings against. -/
namespace Sys2Proof.Manual
open Sys2Proof.Machine

/-! ### Integer results (R120 to R126) -/

/-- An operation of width w on two registers: .w works on the low 32 bits and sign-extends its result (R120). -/
def wide (wd : Wd) (f : (w : Nat) → BitVec w → BitVec w → BitVec w) (x y : Word) : Word :=
  match wd with
  | .d => f 64 x y
  | .w => (f 32 (x.setWidth 32) (y.setWidth 32)).signExtend 64

/-- The results of R120, at width w. -/
def resAdd (w : Nat) (a b : BitVec w) : BitVec w := a + b
def resSub (w : Nat) (a b : BitVec w) : BitVec w := a - b
def resMul (w : Nat) (a b : BitVec w) : BitVec w := a * b
def resMulh (w : Nat) (a b : BitVec w) : BitVec w := BitVec.ofInt w (a.toInt * b.toInt / 2 ^ w)
def resMulhu (w : Nat) (a b : BitVec w) : BitVec w := BitVec.ofNat w (a.toNat * b.toNat / 2 ^ w)
def resAnd (w : Nat) (a b : BitVec w) : BitVec w := a &&& b
def resOr (w : Nat) (a b : BitVec w) : BitVec w := a ||| b
def resXor (w : Nat) (a b : BitVec w) : BitVec w := a ^^^ b
def resAndn (w : Nat) (a b : BitVec w) : BitVec w := a &&& ~~~b
def resShl (w : Nat) (a b : BitVec w) : BitVec w := a <<< (b.toNat % w)
def resShr (w : Nat) (a b : BitVec w) : BitVec w := a >>> (b.toNat % w)
def resSra (w : Nat) (a b : BitVec w) : BitVec w := a.sshiftRight (b.toNat % w)
def resRol (w : Nat) (a b : BitVec w) : BitVec w := (a <<< (b.toNat % w)) ||| (a >>> (w - b.toNat % w))
def resMin (w : Nat) (a b : BitVec w) : BitVec w := if a.toInt ≤ b.toInt then a else b
def resMax (w : Nat) (a b : BitVec w) : BitVec w := if b.toInt ≤ a.toInt then a else b
def resMinu (w : Nat) (a b : BitVec w) : BitVec w := if a ≤ b then a else b
def resMaxu (w : Nat) (a b : BitVec w) : BitVec w := if b ≤ a then a else b

/-- The results of R121. -/
def resDiv (w : Nat) (a b : BitVec w) : BitVec w := if b = 0 then BitVec.allOnes w else BitVec.ofInt w (a.toInt.tdiv b.toInt)
def resRem (w : Nat) (a b : BitVec w) : BitVec w := if b = 0 then a else BitVec.ofInt w (a.toInt.tmod b.toInt)
def resDivu (w : Nat) (a b : BitVec w) : BitVec w := if b = 0 then BitVec.allOnes w else a / b
def resRemu (w : Nat) (a b : BitVec w) : BitVec w := if b = 0 then a else a % b

/-- Zero bits above the highest one of the n low bits of a; n for none. -/
def zerosAbove {w : Nat} (a : BitVec w) : Nat → Nat
  | 0 => 0
  | n + 1 => if a.getLsbD n then 0 else zerosAbove a n + 1
/-- Zero bits from bit i on below the first one, of n bits. -/
def zerosFrom {w : Nat} (a : BitVec w) (i : Nat) : Nat → Nat
  | 0 => 0
  | n + 1 => if a.getLsbD i then 0 else zerosFrom a (i + 1) n + 1
/-- Ones among the n low bits. -/
def onesBelow {w : Nat} (a : BitVec w) : Nat → Nat
  | 0 => 0
  | n + 1 => onesBelow a n + (if a.getLsbD n then 1 else 0)

/-- CLZ, CTZ, POPC, BREV (R120). -/
def resClz (w : Nat) (a _b : BitVec w) : BitVec w := BitVec.ofNat w (zerosAbove a w)
def resCtz (w : Nat) (a _b : BitVec w) : BitVec w := BitVec.ofNat w (zerosFrom a 0 w)
def resPopc (w : Nat) (a _b : BitVec w) : BitVec w := BitVec.ofNat w (onesBelow a w)
def resBrev (w : Nat) (a _b : BitVec w) : BitVec w := a.reverse

/-- Length of a field that starts at p, cut at bit w - 1 (R125). -/
def fieldLength (w p l : Nat) : Nat := if w ≤ p then 0 else min l (w - p)
/-- BFX (R125): bit i of the field, its sign or zero above it. -/
def resBfx (p l : Nat) (sx : Bool) (w : Nat) (a _b : BitVec w) : BitVec w :=
  let len := fieldLength w p l
  if len = 0 then 0
  else if sx then ((a >>> p).setWidth len).signExtend w else ((a >>> p).setWidth len).setWidth w
/-- BFI (R125): the field of gD replaced. -/
def resBfi (p l : Nat) (w : Nat) (a old : BitVec w) : BitVec w :=
  let mask := ((BitVec.allOnes (fieldLength w p l)).setWidth w) <<< p
  (old &&& ~~~mask) ||| ((a <<< p) &&& mask)

/-- A comparison of R122. -/
def holds {w : Nat} (c : Cond) (a b : BitVec w) : Bool :=
  match c with
  | .eq => decide (a = b)
  | .ne => decide (a ≠ b)
  | .lt => decide (a.toInt < b.toInt)
  | .ge => decide (b.toInt ≤ a.toInt)
  | .ltu => decide (a < b)
  | .geu => decide (b ≤ a)
  | .tst => decide (a &&& b ≠ 0)
  | .tstz => decide (a &&& b = 0)
/-- The same at the width of an instruction. -/
def holdsAt (wd : Wd) (c : Cond) (x y : Word) : Bool :=
  match wd with
  | .d => holds c x y
  | .w => holds c (x.setWidth 32) (y.setWidth 32)

/-- A predicate of one answer: all ones or all zeros. -/
def allOf (b : Bool) : Pred := if b then 0xFFFF else 0

/-- PLOG (R124): TT<2 × a + b> for the bits a and b of each place. -/
def plogWord (tt : BitVec 4) (a b : Pred) : Pred :=
  (if tt.getLsbD 0 then ~~~a &&& ~~~b else 0) ||| (if tt.getLsbD 1 then ~~~a &&& b else 0) |||
  (if tt.getLsbD 2 then a &&& ~~~b else 0) ||| (if tt.getLsbD 3 then a &&& b else 0)

/-- The register and the value that an instruction of the register classes writes to a g register at once, from the registers r of the
thread (R116, R120, R123, R125, R126, R129 to R131, R172, R371). -/
def gValue (r : Regs) (s : State) : Instr → Option (GReg × Word)
  | .add _ wd d a b => some (d, wide wd resAdd (r.getG a) (r.getG b))
  | .addImm _ wd d a imm => some (d, wide wd resAdd (r.getG a) (imm.signExtend 64))
  | .sub _ wd d a b => some (d, wide wd resSub (r.getG a) (r.getG b))
  | .subImm _ wd d a imm => some (d, wide wd resSub (r.getG a) (imm.signExtend 64))
  | .mul _ wd d a b => some (d, wide wd resMul (r.getG a) (r.getG b))
  | .mulImm _ wd d a imm => some (d, wide wd resMul (r.getG a) (imm.signExtend 64))
  | .mulh _ wd d a b => some (d, wide wd resMulh (r.getG a) (r.getG b))
  | .mulhImm _ wd d a imm => some (d, wide wd resMulh (r.getG a) (imm.signExtend 64))
  | .mulhu _ wd d a b => some (d, wide wd resMulhu (r.getG a) (r.getG b))
  | .mulhuImm _ wd d a imm => some (d, wide wd resMulhu (r.getG a) (imm.signExtend 64))
  | .andd _ wd d a b => some (d, wide wd resAnd (r.getG a) (r.getG b))
  | .andImm _ wd d a imm => some (d, wide wd resAnd (r.getG a) (imm.signExtend 64))
  | .orr _ wd d a b => some (d, wide wd resOr (r.getG a) (r.getG b))
  | .orImm _ wd d a imm => some (d, wide wd resOr (r.getG a) (imm.signExtend 64))
  | .xor _ wd d a b => some (d, wide wd resXor (r.getG a) (r.getG b))
  | .xorImm _ wd d a imm => some (d, wide wd resXor (r.getG a) (imm.signExtend 64))
  | .andn _ wd d a b => some (d, wide wd resAndn (r.getG a) (r.getG b))
  | .andnImm _ wd d a imm => some (d, wide wd resAndn (r.getG a) (imm.signExtend 64))
  | .shl _ wd d a b => some (d, wide wd resShl (r.getG a) (r.getG b))
  | .shlImm _ wd d a imm => some (d, wide wd resShl (r.getG a) (imm.signExtend 64))
  | .shr _ wd d a b => some (d, wide wd resShr (r.getG a) (r.getG b))
  | .shrImm _ wd d a imm => some (d, wide wd resShr (r.getG a) (imm.signExtend 64))
  | .sra _ wd d a b => some (d, wide wd resSra (r.getG a) (r.getG b))
  | .sraImm _ wd d a imm => some (d, wide wd resSra (r.getG a) (imm.signExtend 64))
  | .rol _ wd d a b => some (d, wide wd resRol (r.getG a) (r.getG b))
  | .rolImm _ wd d a imm => some (d, wide wd resRol (r.getG a) (imm.signExtend 64))
  | .min _ wd d a b => some (d, wide wd resMin (r.getG a) (r.getG b))
  | .minImm _ wd d a imm => some (d, wide wd resMin (r.getG a) (imm.signExtend 64))
  | .max _ wd d a b => some (d, wide wd resMax (r.getG a) (r.getG b))
  | .maxImm _ wd d a imm => some (d, wide wd resMax (r.getG a) (imm.signExtend 64))
  | .minu _ wd d a b => some (d, wide wd resMinu (r.getG a) (r.getG b))
  | .minuImm _ wd d a imm => some (d, wide wd resMinu (r.getG a) (imm.signExtend 64))
  | .maxu _ wd d a b => some (d, wide wd resMaxu (r.getG a) (r.getG b))
  | .maxuImm _ wd d a imm => some (d, wide wd resMaxu (r.getG a) (imm.signExtend 64))
  | .sel _ wd d a b c => some (d, wide wd (fun _ x y => if (r.getP c).getLsbD 0 then x else y) (r.getG a) (r.getG b))
  | .clz _ wd d a => some (d, wide wd resClz (r.getG a) 0)
  | .ctz _ wd d a => some (d, wide wd resCtz (r.getG a) 0)
  | .popc _ wd d a => some (d, wide wd resPopc (r.getG a) 0)
  | .brev _ wd d a => some (d, wide wd resBrev (r.getG a) 0)
  | .bfx _ wd sx d a b c =>
    some (d, wide wd (resBfx ((r.getG b).setWidth 6).toNat ((r.getG c).setWidth 7).toNat sx) (r.getG a) 0)
  | .bfxImm _ wd sx d a pos len => some (d, wide wd (resBfx pos.toNat len.toNat sx) (r.getG a) 0)
  | .bfi _ wd d a b c => some (d, wide wd (resBfi ((r.getG b).setWidth 6).toNat ((r.getG c).setWidth 7).toNat) (r.getG a) (r.getG d))
  | .bfiImm _ wd d a pos len => some (d, wide wd (resBfi pos.toNat len.toNat) (r.getG a) (r.getG d))
  | .mov _ (.gg wd d a) => some (d, wide wd (fun _ x _ => x) (r.getG a) 0)
  | .mov _ (.gp d a) => some (d, (r.getP a).setWidth 64)
  | .li _ .d d imm => some (d, imm.signExtend 64)
  | .li _ .w d imm => some (d, (imm.setWidth 32).signExtend 64)
  | .liHi _ d imm => some (d, imm ++ (r.getG d).setWidth 48)
  | .lea _ d a imm => some (d, (r.getG a).extractLsb' 57 7 ++ ((r.getG a).setWidth 57 + imm.signExtend 57))
  | .mkptr _ d a b => some (d, (r.getG b).setWidth 6 ++ 0#1 ++ (r.getG a).setWidth 57)
  | .getband _ d a => some (d, ((r.getG a).extractLsb' 58 6).setWidth 64)
  | .caddr _ d a b c =>
    some (d, 0#35 ++ (r.getG b).setWidth 6 ++ (r.getG a).setWidth 7 ++ (r.getG c).setWidth 16)
  | .vext _ u vw d a b =>
    let w := viewW vw
    let e := (r.getV a).extractLsb' (w * ((r.getG b).toNat % (512 / w))) w
    some (d, if u then e.setWidth 64 else e.signExtend 64)
  | .mfs _ d x => some (d, s.special x)
  | .csrr _ d x => some (d, s.mine.csr x)
  | _ => none

/-- The register and the value that an instruction writes to a p register at once (R122, R124, R126). -/
def pValue (r : Regs) : Instr → Option (PReg × Pred)
  | .setp _ wd c d a b => some (d, allOf (holdsAt wd c (r.getG a) (r.getG b)))
  | .setpImm _ wd c d a imm => some (d, allOf (holdsAt wd c (r.getG a) (imm.signExtend 64)))
  | .mov _ (.pg d a) => some (d, (r.getG a).setWidth 16)
  | .mov _ (.pp d a) => some (d, r.getP a)
  | .plog _ tt d a b => some (d, plogWord tt (r.getP a) (r.getP b))
  | _ => none

/-- The register and the quotient or remainder of the divider (R121). -/
def dividerValue (r : Regs) : Instr → Option (GReg × Word)
  | .div _ wd d a b => some (d, wide wd resDiv (r.getG a) (r.getG b))
  | .divImm _ wd d a imm => some (d, wide wd resDiv (r.getG a) (imm.signExtend 64))
  | .divu _ wd d a b => some (d, wide wd resDivu (r.getG a) (r.getG b))
  | .divuImm _ wd d a imm => some (d, wide wd resDivu (r.getG a) (imm.signExtend 64))
  | .rem _ wd d a b => some (d, wide wd resRem (r.getG a) (r.getG b))
  | .remImm _ wd d a imm => some (d, wide wd resRem (r.getG a) (imm.signExtend 64))
  | .remu _ wd d a b => some (d, wide wd resRemu (r.getG a) (r.getG b))
  | .remuImm _ wd d a imm => some (d, wide wd resRemu (r.getG a) (imm.signExtend 64))
  | _ => none

/-! ### Vector results, element by element (R161, R162, R166 to R174) -/

/-- Element j of a register in a view of width w, as a bit vector. -/
def el (w : Nat) (l : Line) (j : Nat) : BitVec w := BitVec.ofNat w (elem w l j)
/-- An element that sets no flag. -/
def quiet {w : Nat} (x : BitVec w) : Nat × BitVec 6 := (x.toNat, 0)
/-- The lane bit of element j in predicate p (R162). -/
def sel (w : Nat) (p : Pred) (j : Nat) : Bool := p.getLsbD (j / (32 / w))
/-- Elements k < j whose selector is set (R172). -/
def prefixCount (w : Nat) (p : Pred) : Nat → Nat
  | 0 => 0
  | j + 1 => prefixCount w p j + (if sel w p j then 1 else 0)
/-- The nth element from j on whose selector is set, of those below j + k. -/
def nthSet (w : Nat) (p : Pred) (j : Nat) : Nat → Nat → Option Nat
  | 0, _ => none
  | k + 1, n =>
    if sel w p j then (match n with | 0 => some j | n + 1 => nthSet w p (j + 1) k n) else nthSet w p (j + 1) k n

/-- The flags that elements j < n raise, of those that are on. -/
def flagsOf (on : Nat → Bool) (f : Nat → BitVec 6) : Nat → BitVec 6
  | 0 => 0
  | n + 1 => flagsOf on f n ||| (if on n then f n else 0)

/-- A two-operand operation of class 0x6 on elements (R172). -/
def int2 (w : Nat) (f : (w : Nat) → BitVec w → BitVec w → BitVec w) (x y : Line) (j : Nat) : Nat × BitVec 6 := quiet (f w (el w x j) (el w y j))

/-- The results of a lane-guarded instruction that writes whole views: the view's width, the destination, and element j with the flags
that it raises (R166 to R168, R172, R174). -/
def vLanes (r : Regs) : Instr → Option (Nat × VReg × (Nat → Nat × BitVec 6))
  | .vadd _ f rm d a b => some (fmtBits' f, d, fun j => fAdd f (modeIn r.frm rm) (elem (fmtBits' f) (r.getV a) j) (elem (fmtBits' f) (r.getV b) j))
  | .vsub _ f rm d a b => some (fmtBits' f, d, fun j => fSub f (modeIn r.frm rm) (elem (fmtBits' f) (r.getV a) j) (elem (fmtBits' f) (r.getV b) j))
  | .vmul _ f rm d a b => some (fmtBits' f, d, fun j => fMul f (modeIn r.frm rm) (elem (fmtBits' f) (r.getV a) j) (elem (fmtBits' f) (r.getV b) j))
  | .vfma _ f rm d a b c => some (fmtBits' f, d, fun j =>
      fFma f (modeIn r.frm rm) (elem (fmtBits' f) (r.getV a) j) (elem (fmtBits' f) (r.getV b) j) (elem (fmtBits' f) (r.getV c) j))
  | .vfms _ f rm d a b c => some (fmtBits' f, d, fun j =>
      fFms f (modeIn r.frm rm) (elem (fmtBits' f) (r.getV a) j) (elem (fmtBits' f) (r.getV b) j) (elem (fmtBits' f) (r.getV c) j))
  | .vfnma _ f rm d a b c => some (fmtBits' f, d, fun j =>
      fFnma f (modeIn r.frm rm) (elem (fmtBits' f) (r.getV a) j) (elem (fmtBits' f) (r.getV b) j) (elem (fmtBits' f) (r.getV c) j))
  | .vmin _ f d a b => some (fmtBits' f, d, fun j => fMinMax f false (elem (fmtBits' f) (r.getV a) j) (elem (fmtBits' f) (r.getV b) j))
  | .vmax _ f d a b => some (fmtBits' f, d, fun j => fMinMax f true (elem (fmtBits' f) (r.getV a) j) (elem (fmtBits' f) (r.getV b) j))
  | .vabs _ f d a => some (fmtBits' f, d, fun j => fAbs f (elem (fmtBits' f) (r.getV a) j))
  | .vneg _ f d a => some (fmtBits' f, d, fun j => fNeg f (elem (fmtBits' f) (r.getV a) j))
  | .vrcp _ f rm d a => some (fmtBits' f, d, fun j => fRcp f (modeIn r.frm rm) (elem (fmtBits' f) (r.getV a) j))
  | .vrsq _ f rm d a => some (fmtBits' f, d, fun j => fRsq f (modeIn r.frm rm) (elem (fmtBits' f) (r.getV a) j))
  | .vexp2 _ f rm d a => some (fmtBits' f, d, fun j => fExp2 f (modeIn r.frm rm) (elem (fmtBits' f) (r.getV a) j))
  | .vlog2 _ f rm d a => some (fmtBits' f, d, fun j => fLog2 f (modeIn r.frm rm) (elem (fmtBits' f) (r.getV a) j))
  | .vcvt _ rm part t src d a =>
    if src.bits ≤ t.bits then
      some (t.bits, d, fun j => convert (modeIn r.frm rm) t src
        (elem src.bits (r.getV a) (if src.bits = t.bits then j else 16 * part.toNat + j)))
    else none
  | .vdqnt _ rm part f bx d a c =>
    some (fmtBits' f, d, fun j =>
      let i := if f = .f32 then 16 * part.toNat + j else j
      let pair := pairOf bx (r.getV a) (c.map fun g => ((r.getG g).setWidth 16).toNat)
      let x := putNum f (modeIn r.frm rm) (bxValue bx pair.1 pair.2 (elem (Machine.bxBits bx) (r.getV a) i))
      (x.1, if f = .f32 then 0 else x.2))
  | .viadd _ vw d a b => some (viewW vw, d, int2 (viewW vw) resAdd (r.getV a) (r.getV b))
  | .visub _ vw d a b => some (viewW vw, d, int2 (viewW vw) resSub (r.getV a) (r.getV b))
  | .vimul _ vw d a b => some (viewW vw, d, int2 (viewW vw) resMul (r.getV a) (r.getV b))
  | .vand _ vw d a b => some (viewW vw, d, int2 (viewW vw) resAnd (r.getV a) (r.getV b))
  | .vor _ vw d a b => some (viewW vw, d, int2 (viewW vw) resOr (r.getV a) (r.getV b))
  | .vxor _ vw d a b => some (viewW vw, d, int2 (viewW vw) resXor (r.getV a) (r.getV b))
  | .vshl _ vw d a b => some (viewW vw, d, int2 (viewW vw) resShl (r.getV a) (r.getV b))
  | .vshr _ vw d a b => some (viewW vw, d, int2 (viewW vw) resShr (r.getV a) (r.getV b))
  | .vsra _ vw d a b => some (viewW vw, d, int2 (viewW vw) resSra (r.getV a) (r.getV b))
  | .vimin _ u vw d a b => some (viewW vw, d, int2 (viewW vw) (if u then resMinu else resMin) (r.getV a) (r.getV b))
  | .vimax _ u vw d a b => some (viewW vw, d, int2 (viewW vw) (if u then resMaxu else resMax) (r.getV a) (r.getV b))
  | .vsel _ vw d a b c =>
    some (viewW vw, d, fun j => quiet (if sel (viewW vw) (r.getP c) j then el (viewW vw) (r.getV a) j else el (viewW vw) (r.getV b) j))
  | .vshuf _ vw d a b => some (viewW vw, d, fun j =>
      let k := elem (viewW vw) (r.getV b) j
      quiet (if k < 512 / viewW vw then el (viewW vw) (r.getV a) k else 0))
  | .vbcast _ vw d a => some (viewW vw, d, fun _ => quiet ((r.getG a).setWidth (viewW vw)))
  | .vins _ vw d a b => some (viewW vw, d, fun j =>
      quiet (if j = (r.getG b).toNat % (512 / viewW vw) then (r.getG a).setWidth (viewW vw) else el (viewW vw) (r.getV d) j))
  | .vcmprs _ vw d a c => some (viewW vw, d, fun j =>
      quiet (match nthSet (viewW vw) (r.getP c) 0 (512 / viewW vw) j with | some k => el (viewW vw) (r.getV a) k | none => 0))
  | .vexpnd _ vw d a c => some (viewW vw, d, fun j =>
      quiet (if sel (viewW vw) (r.getP c) j then el (viewW vw) (r.getV a) (prefixCount (viewW vw) (r.getP c) j) else 0))
  | .viota _ vw d c => some (viewW vw, d, fun j =>
      quiet (BitVec.ofNat (viewW vw) (match c with | some p => prefixCount (viewW vw) (r.getP p) j | none => j)))
  | _ => none

/-- The register that those results make: the elements whose lane is on are new, the others kept. -/
def lanesInto (w : Nat) (gm : Pred) (old : Line) (res : Nat → Nat × BitVec 6) (l : Line) : Prop :=
  ∀ j, j < 512 / w → el w l j = if sel w gm j then BitVec.ofNat w (res j).1 else el w old j

/-- The sixteen results of a conversion to a narrower format (R168, R174): the destination's width, the destination, the part, result i. -/
def vNarrow (r : Regs) : Instr → Option (Nat × VReg × Nat × (Nat → Nat × BitVec 6))
  | .vcvt _ rm part t src d a =>
    if t.bits < src.bits then some (t.bits, d, part.toNat, fun i => convert (modeIn r.frm rm) t src (elem src.bits (r.getV a) i)) else none
  | .vsrnd _ part f d a b c =>
    some (16, d, part.toNat, fun i =>
      srElem f (srKey ((r.getG b).setWidth 32) ((r.getG b).extractLsb' 32 32) ((r.getG c).setWidth 32 + BitVec.ofNat 32 i)) (elem 32 (r.getV a) i))
  | _ => none

/-- The register that they make: guard bit i governs result i, at element 16 × part + i (R162). -/
def partInto (w part : Nat) (gm : Pred) (old : Line) (res : Nat → Nat × BitVec 6) (l : Line) : Prop :=
  ∀ j, j < 512 / w → el w l j = if j / 16 = part ∧ gm.getLsbD (j % 16) then BitVec.ofNat w (res (j % 16)).1 else el w old j

/-- A long vector result (R166): the divisions and roots of the elements. -/
def vLong (r : Regs) : Instr → Option (Nat × VReg × (Nat → Nat × BitVec 6))
  | .vdiv _ f rm d a b => some (fmtBits' f, d, fun j => fDiv f (modeIn r.frm rm) (elem (fmtBits' f) (r.getV a) j) (elem (fmtBits' f) (r.getV b) j))
  | .vsqrt _ f rm d a => some (fmtBits' f, d, fun j => fSqrt f (modeIn r.frm rm) (elem (fmtBits' f) (r.getV a) j))
  | _ => none

/-- A comparison of elements (R169, R172): the destination, the view's width, the answer and the flags of element j. -/
def vCompare (r : Regs) : Instr → Option (PReg × Nat × (Nat → Bool × BitVec 6))
  | .vcmp _ f c d a b => some (d, fmtBits' f, fun j => fCmp f c (elem (fmtBits' f) (r.getV a) j) (elem (fmtBits' f) (r.getV b) j))
  | .vicmp _ vw c d a b => some (d, viewW vw, fun j => (holds c (el (viewW vw) (r.getV a) j) (el (viewW vw) (r.getV b) j), 0))
  | _ => none

/-- Bit i of the predicate is the AND of the answers of the elements of lane i. -/
def predInto (w : Nat) (ans : Nat → Bool) (p : Pred) : Prop :=
  ∀ i, i < 16 → (p.getLsbD i = true ↔ ∀ j, j < 512 / w → j / (32 / w) = i → ans j = true)

/-- The pairwise tree of R75 over 2^k values, in lane order. -/
def treeSum (add : Nat → Nat → Nat × BitVec 6) (f : Nat → Nat) : Nat → Nat → Nat × BitVec 6
  | 0, j => (f j, 0)
  | k + 1, j =>
    let x := treeSum add f k j
    let y := treeSum add f k (j + 2 ^ k)
    ((add x.1 y.1).1, (add x.1 y.1).2 ||| x.2 ||| y.2)

/-- Levels of the tree of a view: 16 or 32 leaves. -/
def levelsOf (f : Fmt) : Nat := match f with | .f32 => 4 | _ => 5

/-- What a sum writes to the low element of its destination, in which width, and its flags (R171, R174). -/
def vSum (r : Regs) : Instr → Option (VReg × Nat × (Nat × BitVec 6))
  | .vred h f rm d a =>
    some (d, fmtBits' f, treeSum (fAdd f (modeIn r.frm rm))
      (fun j => if sel (fmtBits' f) (r.gmask h) j then elem (fmtBits' f) (r.getV a) j else zeroF f true) (levelsOf f) 0)
  | .vdot h f rm d a b =>
    let m := modeIn r.frm rm
    let on := sel (fmtBits' f) (r.gmask h)
    let p := fun j => finish .f32 m (mulNum (toNum f (elem (fmtBits' f) (r.getV a) j)) (toNum f (elem (fmtBits' f) (r.getV b) j)))
    let x := treeSum (fAdd .f32 m) (fun j => if on j then (p j).1 else zeroF .f32 true) (levelsOf f) 0
    some (d, 32, (x.1, flagsOf on (fun j => (p j).2) (512 / fmtBits' f) ||| x.2))
  | .vbxdot _ rm bx d a b c =>
    let x := blockVals bx (r.getV a) (c.map fun g => ((r.getG g).setWidth 16).toNat)
    let y := blockVals bx (r.getV b) (c.map fun g => ((r.getG g).extractLsb' 16 16).toNat)
    some (d, 32, accStep (modeIn r.frm rm) (elem 32 (r.getV d) 0) (exactDot (x.zip y)))
  | _ => none

/-- The register that a sum makes: element 0 is new, the others are kept. -/
def lowInto (w : Nat) (old : Line) (x : Nat) (l : Line) : Prop :=
  el w l 0 = BitVec.ofNat w x ∧ ∀ j, 0 < j → j < 512 / w → el w l j = el w old j

/-- A scalar floating-point result (R170): zero-extended, or sign-extended for a signed integer. -/
def fScalar (r : Regs) : Instr → Option (GReg × Word × BitVec 6)
  | .fadd _ f rm d a b =>
    let x := fAdd f (modeIn r.frm rm) ((r.getG a).setWidth (fmtBits' f)).toNat ((r.getG b).setWidth (fmtBits' f)).toNat
    some (d, BitVec.ofNat 64 x.1, x.2)
  | .fmul _ f rm d a b =>
    let x := fMul f (modeIn r.frm rm) ((r.getG a).setWidth (fmtBits' f)).toNat ((r.getG b).setWidth (fmtBits' f)).toNat
    some (d, BitVec.ofNat 64 x.1, x.2)
  | .ffma _ f rm d a b c =>
    let x := fFma f (modeIn r.frm rm) ((r.getG a).setWidth (fmtBits' f)).toNat ((r.getG b).setWidth (fmtBits' f)).toNat
      ((r.getG c).setWidth (fmtBits' f)).toNat
    some (d, BitVec.ofNat 64 x.1, x.2)
  | .fcvt _ rm t src d a =>
    let x := convert (modeIn r.frm rm) t src ((r.getG a).setWidth src.bits).toNat
    some (d, if nfmtSigned t then (BitVec.ofNat t.bits x.1).signExtend 64 else BitVec.ofNat 64 x.1, x.2)
  | _ => none

/-! ### Destinations of the register classes -/

/-- The g register that an instruction of the register classes writes at once. -/
def destG (s : State) (i : Instr) : Option GReg :=
  match gValue s.cx.regs s i, fScalar s.cx.regs i with
  | some x, _ => some x.1
  | none, some x => some x.1
  | none, none => none
/-- The p register. -/
def destP (s : State) (i : Instr) : Option PReg :=
  match pValue s.cx.regs i, vCompare s.cx.regs i with
  | some x, _ => some x.1
  | none, some x => some x.1
  | none, none => none
/-- The v register. -/
def destV (s : State) (i : Instr) : Option VReg :=
  match vLanes s.cx.regs i, vNarrow s.cx.regs i, vSum s.cx.regs i with
  | some x, _, _ => some x.2.1
  | none, some x, _ => some x.2.1
  | none, none, some x => some x.1
  | none, none, none => none
/-- The instruction may raise flags: floating point, and the block formats (R62, R64). -/
def raises : Instr → Bool
  | .vadd .. | .vsub .. | .vmul .. | .vfma .. | .vfms .. | .vfnma .. | .vmin .. | .vmax .. | .vabs .. | .vneg .. | .vrcp .. | .vrsq ..
  | .vexp2 .. | .vlog2 .. | .vcvt .. | .vcmp .. | .vred .. | .vdot .. | .fadd .. | .fmul .. | .ffma .. | .fcvt .. | .vdqnt .. | .vsrnd ..
  | .vbxdot .. => true
  | _ => false

end Sys2Proof.Manual
end

