-- ==== Sys2Proof/Safety/Units.lean ====
section
/-! DEFINITION. Units.lean: what the statements say of volumes, of the copy unit's instructions and of the tile instructions in the rules'
own terms (R246 to R260, R268 to R289, R321 to R326). -/
namespace Sys2Proof.Machine

/-- A core's buffer, handle or counter set. -/
def State.setBuf (s : State) (cb : CbReg) (q : CBuf) : State := s.onMine fun k => { k with cbs := tset k.cbs cb.toNat q }
def State.setHandle (s : State) (h : HReg) (x : Handle) : State := s.onMine fun k => { k with handles := tset k.handles h.toNat x }
def State.setCounter (s : State) (r : KReg) (x : Counter) : State := s.onMine fun k => { k with counters := tset k.counters r.toNat x }

/-- The physical line of an address whose home has its entry in the TLB, which permits the access, in an unbanded page of this device that
is neither replicated nor bound to its colour, behind a port that is up (R190, R229, R358 to R360). -/
def State.openLine (s : State) (a : Asker) (need : XNeed) (va : Word) : Option Nat :=
  match tlbFind s.mem.tlb (homeStop va) a.tenant (fld va 56 0) with
  | some e =>
    let pa := leafPa e.pte e.level (fld va 56 0) 0
    if permOk e.pte a.sup need && (need != .store || pteD e.pte) && pteUNB e.pte && bandOf va == 0 && !pteREPL e.pte && !pteCCHK e.pte &&
        (physStop pa).isSome && !(cxlPort pa).any s.mem.cxlDown.contains then some (pa / 64 * 64) else none
  | none => none
/-- The line at an address takes a store, and n more may be logged at its home (R431). -/
def State.takesLine (s : State) (a : Asker) (va : Word) (n : Nat) : Bool :=
  match s.openLine a .store va with
  | some pa => decide ((s.mem.stop ((physStop pa).getD 0)).log.length + n ≤ 2097152)
  | none => false
/-- The line at an address reads as l: it may be read, it is not poisoned, and it stands under the reader's key (R366, R436). -/
def State.givesLine (s : State) (a : Asker) (va : Word) (l : Line) : Bool :=
  match s.openLine a .load va with
  | some pa => !s.mem.poison.contains pa && s.mem.locked s.cx.tenant pa 4 == 0 && rdLine s.mem.bytes pa == l
  | none => false

end Sys2Proof.Machine

namespace Sys2Proof.Manual
open Sys2Proof.Machine

/-! ### Volumes (R246, R249, R250, R255) -/

/-- The entry of tensor tid that the core holds, when it keeps R246. -/
def heldVolume (s : State) (tid : BitVec 8) : Option Line :=
  match s.mine.vols.find? fun v => v.launch == s.cx.launch.toNat && v.tid == tid with
  | some v => if volOk v.entry then some v.entry else none
  | none => none
/-- Bytes of an element, by EFMT. -/
def volBytes (e : Line) : Nat := match (e.extractLsb' 12 2).toNat with | 0 | 1 => 2 | 2 => 4 | _ => 1
/-- Channels. -/
def volChans (e : Line) : Nat := (e.extractLsb' 16 6).toNat + 1
/-- Axis i of a coordinate word. -/
def axis (w : Word) (i : Nat) : Int := (w.extractLsb' (21 * i) 21).toInt
/-- The voxel lies inside the bounds. -/
def insideVol (e : Line) (c : Word) : Prop :=
  ∀ i < 3, 0 ≤ axis c i - axis (el 64 e 1) i ∧ axis c i - axis (el 64 e 1) i < ((e.extractLsb' (128 + 21 * i) 21).toNat : Int)
/-- The background element. -/
def volBack (e : Line) : Nat := (e.extractLsb' 32 32).toNat % 2 ^ (8 * volBytes e)
/-- The background as CLD writes it: an INT8 element sign-extended, the others zero-extended. -/
def volBackG (e : Line) : Word :=
  if (e.extractLsb' 12 2).toNat = 3 then (BitVec.ofNat 8 (volBack e)).signExtend 64 else BitVec.ofNat 64 (volBack e)
/-- The channel of an access. -/
def channelOf (r : Regs) (b : GReg) (disp : BitVec 16) : Int := (r.getG b + disp.signExtend 64).toInt

/-! ### Block copies (R268) -/

/-- A place of CPY passes the checks of R268 for n bytes. -/
def placeSound (s : State) (dst : Bool) (k : CKind) (a : Word) (n : Nat) : Bool :=
  match k with
  | .l => decide (a.toNat < 2 ^ 16) && a.toNat % 64 == 0 && s.mine.reachable a.toNat n
  | .c => decide (a.toNat < 2 ^ 26) && a.toNat % 64 == 0
  | .x => decide (a.toNat < 2 ^ 29) && a.toNat % 64 == 0
  | .g => !a.getLsbD 57 && a.toNat % 64 == 0
  | .o => decide (a.toNat < 2 ^ 16) && a.toNat % 64 == 0 && decide (a.toNat % 2 ^ 11 + n ≤ 1088)
  | .cb => dst && decide (a.toNat < 8) && n % (s.mine.cb a.toNat).size == 0 && (s.mine.cb a.toNat).role == 0
/-- The operands of CPY are sound. -/
def copySound (s : State) (dk sk : CKind) (dst src len : Word) : Bool :=
  let n := len.toNat
  decide (64 ≤ n) && decide (n ≤ 32768) && n % 64 == 0 && placeSound s true dk dst n && placeSound s false sk src n

/-! ### Deals (R274) -/

/-- The operands of DEAL are sound. -/
def dealSound (die : Bool) (src pat : Word) (total : Nat) : Bool :=
  let size := if die then 512 else 16
  let blk := pat.toNat % 2 ^ 16
  let first := pat.toNat / 2 ^ 16 % 2 ^ 16
  let step := pat.toNat / 2 ^ 32 % 2 ^ 16
  let cnt := pat.toNat / 2 ^ 48
  !src.getLsbD 57 && src.toNat % 64 == 0 && decide (64 ≤ blk) && decide (blk ≤ 32768) && blk % 64 == 0 && total != 0 && total % blk == 0 &&
  decide (1 ≤ cnt) && decide (cnt ≤ size) && decide (first < size) &&
  ((List.range cnt).all fun i => (List.range cnt).all fun j => i == j || (first + i * step) % size != (first + j * step) % size)

/-! ### Circular buffers (R280) -/

/-- The buffer that CBSET's operand words describe. -/
def bufferOf (x y : Word) : CBuf :=
  let f := fun (w : Word) lo n => (w.extractLsb' lo n).toNat
  let role := f y 18 2
  { set := true, core := f x 16 13, base := f x 0 16, pcb := f y 33 3, pcore := f y 20 13, role := role, count := f y 10 8 + 1
    size := 64 * (f y 0 10 + 1), free := if role = 2 then 0 else f y 10 8 + 1, filled := 0, pidx := 0, cidx := 0, reserved := 0
    acquired := 0, lost := false }
/-- The words of CBSET are sound for buffer cb. -/
def bufferSound (s : State) (cb : CbReg) (x y : Word) : Bool :=
  let q := bufferOf x y
  decide (x.toNat < 2 ^ 29) && decide (y.toNat < 2 ^ 36) && q.base % 64 == 0 && q.core == (if q.role = 3 then q.pcore else s.me.1) &&
  (decide (q.role < 2) || q.pcore != s.me.1) && (q.role == 3 || s.mine.reachable q.base (q.count * q.size)) && !s.cbCopying s.me.1 cb.toNat

/-! ### Streams (R275) -/

/-- The stream that SARM arms. -/
def streamOf (wr : Bool) (n2 n1 n0 : BitVec 10) (tid : BitVec 8) (start pitch : Word) : Stream :=
  { wr := wr, ready := false, tid := tid, start := start, p1 := pitch.extractLsb' 0 32, p2 := pitch.extractLsb' 32 32
    n0 := n0.toNat + 1, n1 := n1.toNat + 1, n2 := n2.toNat + 1, mode := .l, base := 0, next := 0, ahead := [], last := 0, out := []
    fault := none }

/-! ### Gather and scatter (R284, R289) -/

/-- An address has the bits zero that its mode requires (R181). -/
def inMode (am : Mode) (a : Word) : Bool :=
  match am with | .l => decide (a.toNat < 2 ^ 16) | .c => decide (a.toNat < 2 ^ 26) | .x => decide (a.toNat < 2 ^ 29) | .g => !a.getLsbD 57
/-- The operands of GET and PUT are sound. -/
def gatherSound (i64 : Bool) (pm lm : Mode) (list rows n : Word) : Bool :=
  let al := if i64 then 8 else 4
  inMode lm list && inMode pm rows && list.toNat % al == 0 && rows.toNat % al == 0 && decide (n.toNat ≤ 65536)
/-- A counter satisfies a wait for a target. -/
def satisfied (n target : BitVec 32) : Bool := target == 0 || decide ((n - target).toNat < 2 ^ 31)

/-! ### Requests to the walker, and misuse -/

/-- The thread asks its cluster's walker and parks for the answer, which goes on as said (R258 to R260). -/
def asksWalker (s : State) (what : Nat) (tid : BitVec 8) (e : Line) (c : Word) (ch : Int) (k : Cont) : State :=
  ((s.onCx fun q => { q with nextTag := s.cx.nextTag + 1 }).send (.req {
    who := s.asker, place := .unit, op := .walk what tid e c ch 0 s.cx.sb false, tag := s.cx.nextTag, lane := none })).park
      .sync (.reply s.cx.nextTag) k

/-- The tensor and the operand register of a volume instruction. -/
def volumeForm : Instr → Option (BitVec 8 × GReg)
  | .cld _ tid _ a _ _ | .cst _ tid _ a _ _ | .cvld _ tid _ a _ _ | .cvst _ tid _ a _ _ | .cprobe _ tid _ a | .cclr _ tid a
  | .ctileFind _ tid _ a | .ctileDetach _ tid _ a | .ctilePtile _ tid a | .ctilePnode _ tid a => some (tid, a)
  | _ => none
/-- The alignment of the block pointer of a push (R260). -/
def blockAlign : Instr → Option Nat
  | .ctilePtile .. => some 64
  | .ctilePnode .. => some 4096
  | _ => none

/-- Subcode of XFER_USE, where the checks before it pass (R268, R274, R275, R280, R281, R284). -/
def transferMisuse (s : State) (i : Instr) : Option Nat :=
  let r := s.cx.regs
  match i with
  | .cpy _ dk sk _ a b c =>
    let da := r.getG a
    let sa := r.getG b
    let n := (r.getG c).toNat
    if n < 64 ∨ 32768 < n ∨ n % 64 ≠ 0 ∨ (dk = .cb ∧ n % (s.mine.cb (da.toNat % 8)).size ≠ 0) then some 1
    else if sk = .cb ∨ (dk = .cb ∧ 8 ≤ da.toNat) ∨ (dk = .o ∧ 2 ^ 16 ≤ da.toNat) ∨ (sk = .o ∧ 2 ^ 16 ≤ sa.toNat) then some 2
    else if (dk = .o ∧ 1088 < da.toNat % 2 ^ 11 + n) ∨ (sk = .o ∧ 1088 < sa.toNat % 2 ^ 11 + n) then some 3
    else if dk = .cb ∧ placeSound s false sk sa n ∧ (s.mine.cb da.toNat).role ≠ 0 then some 6
    else none
  | .deal _ die _ a b _ total =>
    let src := r.getG a
    let pat := r.getG b
    let blk := pat.toNat % 2 ^ 16
    if src.getLsbD 57 ∨ src.toNat % 64 ≠ 0 then none
    else if blk < 64 ∨ 32768 < blk ∨ blk % 64 ≠ 0 ∨ total = 0 ∨ total.toNat % blk ≠ 0 then some 1
    else if dealSound die src pat total.toNat then none else some 7
  | .sarm _ wr n2 n1 n0 tid d b c =>
    let st := streamOf wr n2 n1 n0 tid (r.getG b) (r.getG c)
    if st.start.toNat % 64 ≠ 0 ∨ st.p1.toNat % 64 ≠ 0 ∨ st.p2.toNat % 64 ≠ 0 then none
    else if d.toNat < 24 ∨ !s.cx.part.getLsbD 10 ∨ (tget s.cx.streams d.toNat).isSome then some 4 else none
  | .cbset _ d a b =>
    if (bufferOf (r.getG a) (r.getG b)).base % 64 ≠ 0 ∨ bufferSound s d (r.getG a) (r.getG b) then none else some 8
  | .cbrsv _ _ a => if (s.mine.cb a.toNat).role ∈ [1, 3] then none else some 6
  | .cbcmt _ a =>
    let q := s.mine.cb a.toNat
    if q.role ∉ [1, 3] ∨ (q.lost = false ∧ q.reserved = 0) then some 6 else none
  | .cbacq _ _ a => if (s.mine.cb a.toNat).role ≤ 2 then none else some 6
  | .cbrel _ a =>
    let q := s.mine.cb a.toNat
    if 2 < q.role ∨ (q.lost = false ∧ q.acquired = 0) then some 6 else none
  | .get _ i64 pm lm _ _ a b c | .put _ i64 pm lm _ _ _ a b c =>
    if gatherSound i64 pm lm (r.getG a) (r.getG b) 0 ∧ 65536 < (r.getG c).toNat then some 1 else none
  | _ => none

end Sys2Proof.Manual

namespace Sys2Proof.Manual
open Sys2Proof.Machine

/-! ### Tiles (R295, R297, R307, R325) -/

/-- EFMT code of a unit format. -/
def unitCode : TFmt → Nat | .f32 => 0 | .f16 => 1 | .bf16 => 2 | .bx8 => 4 | .bx16 => 5
/-- Bytes of a unit in consecutive tiles (R297). -/
def unitBytes : TFmt → Nat | .f32 => 4096 | .bx8 => 1088 | .f16 | .bf16 | .bx16 => 2176
/-- Element (r, c) of a unit whose bytes are given, as FP32 (R297). -/
def unitElem (f : TFmt) (byte : Nat → Nat) (r c : Nat) : Nat :=
  match f with
  | .f32 | .bx8 => tile32 (unitCode f) byte r c
  | .f16 | .bf16 | .bx16 => tile32 (unitCode f) (fun o => byte (c / 16 * 1088 + o)) r (c % 16)
/-- The epilogue of AST on one element: the bias if there is one, then the activation (R307). -/
def epilogue (act : Nat) (bias : Option Nat) (y : Nat) : Nat :=
  let y := match bias with | some b => (fAdd .f32 .rn y b).1 | none => y
  let nan := decide (2 ^ 23 * 255 < y % 2 ^ 31)
  let neg := decide (2 ^ 31 < y) && !nan
  let pos := decide (0 < y) && decide (y < 2 ^ 31) && !nan
  if nan then 0x7FC00000
  else match act with
    | 1 => if pos then y else 0
    | 2 => if neg then (fMul .f32 .rn y 0x3E000000).1 else y
    | 3 => y % 2 ^ 31
    | _ => y

/-- Subcode of TILE_USE (R324, R325). -/
def slotMisuse (s : State) : Instr → Option Nat
  | .oclaim _ _ a => if 1 ≤ (s.cx.regs.getG a).toNat ∧ (s.cx.regs.getG a).toNat ≤ 32 then none else some 1
  | .orel _ a => if (List.range 32).any fun i => (s.cx.regs.getG a).getLsbD i && !s.holdsSlot i then some 2 else none
  | .ofill _ d _ b => if 16 < (s.cx.regs.getG b).toNat ∨ s.holdsSlot d.toNat = false then some 3 else none
  | _ => none

/-! ### Peers (R335 to R337) -/

/-- The peer that a selector names: none where the selector names this device itself, as a member that the tenant may use. -/
def namedPeer (s : State) (sel : Word) : Option (Nat × Nat) :=
  let g := sel.toNat % 2 ^ 8
  let r := sel.toNat / 2 ^ 8 % 2 ^ 12
  let w := s.fgroup g
  if w.getLsbD 0 ∧ w.toNat / 2 ^ 32 % 2 ^ 16 = s.cx.tenant.toNat ∧ r ≤ w.toNat / 2 ^ 20 % 2 ^ 12 ∧ w.toNat / 2 ^ 8 % 2 ^ 12 = r then none
  else some (g, r)

end Sys2Proof.Manual

namespace Sys2Proof.Manual
open Sys2Proof.Machine

/-! ### System and debug instructions (R357, R371, R373, R374, R398, R412 to R418) -/

/-- A core register's value (R371). -/
def csrValue (k : Core) : Csr → Word
  | .issue => if k.policy then 1 else 0
  | .stray => k.stray.setWidth 64
  | .fpar => k.fpar.setWidth 64
  | .xmis => k.xmis.setWidth 64
  | .jnlref => k.jnlref
  | .saves => BitVec.ofNat 64 (k.saves.length + (k.paged.filter fun p => p.2.1.expects).length)
  | .win i => k.win i.toNat
/-- A core with a core register written (R185, R186, R371). -/
def csrWritten (k : Core) (r : Csr) (v : Word) : Core :=
  match r with
  | .issue => { k with policy := v.getLsbD 0 }
  | .stray => { k with stray := v.setWidth 32 }
  | .fpar => { k with fpar := v.setWidth 32 }
  | .xmis => { k with xmis := v.setWidth 32 }
  | .jnlref | .saves => k
  | .win i =>
    if i.toNat < 2 ∧ k.anyResident then k
    else { k with wins := tset k.wins i.toNat (v % if i.toNat % 2 = 1 then 2 ^ 32 else 2 ^ 37) }
/-- A word of a journal entry (R357, R373). -/
def journalWord (e : JEnt) (w : Nat) : Word :=
  match w with
  | 0 => e.line
  | 1 => e.mask
  | 2 => e.pc
  | 3 =>
    let st := match e.st with | .free => 0 | .inFlight => 1 | .refused => 2
    let am := match e.am with | .l => 0 | .c => 1 | .x => 2 | .g => 3
    BitVec.ofNat 64 (st + am * 2 ^ 5 + (if e.bset then 2 ^ 7 else 0) + e.kind.toNat * 2 ^ 8 + e.ctx * 2 ^ 35 + e.inc.toNat * 2 ^ 48)
  | n => el 64 e.data (n - 8)
/-- The caller may use a journal entry (R373). -/
def mayUseEntry (s : State) (e : JEnt) : Bool := s.cx.sup || (e.ctx == s.me.2 && e.inc == s.cx.inc)
/-- A counter of a core, present or latched; the counters of units without promised timing are free (R412, R418). -/
def counterValue (s : State) (lat : Bool) (n : Nat) : Word :=
  if lat then (if n = 0 then BitVec.ofNat 64 s.dbg.tickCyc else tgetD s.mine.cntLat n 0)
  else if n = 0 then BitVec.ofNat 64 s.cycle
  else if 7 ≤ n ∧ n ≤ 11 then Config.freeWord s.fresh else tgetD s.mine.cnt n 0
/-- The unit that a watchpoint address names (R417). -/
def watchedUnit (s : State) (am : Mode) (a : Word) : Place :=
  match am with
  | .g => .glob a
  | .l => .pool s.me.1 (a.toNat % 2 ^ 16) false a
  | _ => .pool (poolOf s.me.1 am a).1 (poolOf s.me.1 am a).2 false a

/-- A request to the scheduler that orders nothing (R385 to R394). -/
def schedRequest (r : Regs) : Instr → Option (GReg × ROp)
  | .gnodeGraph _ d a => some (d, .gnodeGraph (r.getG a))
  | .gnodeEdge _ d a b => some (d, .gnodeEdge (r.getG a) (r.getG b))
  | .gnodeDrop _ d a => some (d, .gnodeDrop (r.getG a))
  | .grabTake _ d a => some (d, .grabTake (r.getG a))
  | .grabSet _ d a b => if (r.getG b).getLsbD 57 ∨ (r.getG b).toNat % 32 ≠ 0 then none else some (d, .grabSet (r.getG a) (r.getG b))
  | .qstatLaunch _ d a => some (d, .qstat 0 (r.getG a))
  | .qstatQueue _ d a => some (d, .qstat 1 (r.getG a))
  | .qstatRange _ d a => some (d, .qstat 2 (r.getG a))
  | .qstatInst _ d a => some (d, .qstat 3 (r.getG a))
  | _ => none
/-- A request to the scheduler that is a kick: destination, operation, and the pointer that it checks with its alignment (R386, R390,
R392). -/
def schedKick (r : Regs) : Instr → Option (GReg × KOp × Option (Word × Nat))
  | .launch _ d a => some (d, .launch (r.getG a), some (r.getG a, 64))
  | .glaunch _ d a b => some (d, .glaunch (r.getG a) (r.getG b), some (r.getG b, 16))
  | .gnodeNode _ d a b => some (d, .gnodeNode (r.getG a) (r.getG b), some (r.getG b, 64))
  | .gdone _ d a b => some (d, .gdone (r.getG a) (r.getG b), none)
  | _ => none
/-- A pointer is one that the scheduler's instructions accept. -/
def pointerOk (p : Word) (align : Nat) : Bool := !p.getLsbD 57 && p.toNat % align == 0

end Sys2Proof.Manual
end

