-- ==== Sys2Proof/Safety/Events.lean ====
section
/-! DEFINITION. Events.lean: what the statements say of the machine's own steps. -/
namespace Sys2Proof.Machine

/-- The state in which a step of the machine acts on a context: that context is the one that issues, changed as said. -/
def State.stands (s : State) (core x : Nat) (f : Ctx → Ctx) : State := ({ s with me := (core, x), took := none }).onCtx core x f

/-- Nothing before request q comes to its queue, and its home can serve it now (R204). -/
def State.mayServe (s : State) (q : Nat) (r : Req) : Bool := decide (s.homes[q]? = some r) && s.firstServable q
/-- The state with request q taken from its queue. -/
def State.taking (s : State) (q : Nat) : State := { s with homes := dropAt s.homes q }

/-- Message i of the channels has a body. -/
def State.message (s : State) (i : Nat) (b : Body) : Prop := ∃ m, s.chan[i]? = some m ∧ m.body = b
/-- Message i has not been in flight for so long that the router discards it (R91). -/
def State.inTime (s : State) (i : Nat) : Bool := s.chan[i]?.all fun m => !s.isStale m
/-- One message has been taken from the channels and others have been sent. -/
def State.sent (s t : State) (i : Nat) (l : List Body) : Prop :=
  t.chan = dropAt s.chan i ++ l.map fun b => { born := s.now, body := b }
/-- One request has left its queue, and messages have been sent. -/
def State.served (s t : State) (q : Nat) (l : List Body) : Prop :=
  t.homes = dropAt s.homes q ∧ t.chan = s.chan ++ l.map fun b => { born := s.now, body := b }

/-- Contexts but one are as before. -/
def State.others (s t : State) (core x : Nat) : Prop := ∀ c y, (c, y) ≠ (core, x) → t.ctx c y = s.ctx c y
/-- All contexts are as before. -/
def State.threadsKept (s t : State) : Prop := ∀ c y, t.ctx c y = s.ctx c y

/-- An engine's step that has made no access yet. -/
def State.engine (s : State) (a : Asker) (tag : Nat) (lane : Option Nat) : EX :=
  { s := s, a := a, tag := tag, lane := lane, f := none, pois := false }

/-! ### The steps of the copy unit and of the carders (R269 to R290) -/

/-- The step i performs an operation's next part, a chunk of a copy or the whole of the others; and lane is the lane of its accesses. -/
def COp.doneBy (o : COp) (core chunk : Nat) (i : Instr) (lane : Option Nat) : Prop :=
  match o.op with
  | .cpy .cb .. => i = .cbStageWrite core o.id ∧ lane = none
  | .cpy .. => i = .chunkComplete core o.id chunk ∧ lane = some chunk
  | .deal .. => i = .dealComplete (o.id * 8192 + core) ∧ lane = some core ∧ core < 8192
  | .gather .. => i = .gatherComplete core o.id ∧ lane = none
  | _ => False
/-- The circular buffer that a copy fills. -/
def cbOf (o : COp) : Nat := match o.op with | .cpy .cb _ _ a .. => fld a 2 0 | _ => 0
/-- The step can be performed now: the core's engines work; a chunk is one of the copy's, not handled yet; a stage is free. -/
def State.opReady (s : State) (core chunk : Nat) (o : COp) : Bool :=
  let q := (s.core core).cb (cbOf o)
  s.engineOn core && match o.op with
    | .cpy .cb .. => q.free != 0 && !q.lost && q.size != 0
    | .cpy _ _ _ _ _ n => decide (chunk < chunksOf n) && !o.done.getLsbD chunk
    | _ => true
/-- The loads of the step and the stores that it passes into the buffer, q being the circular buffer. -/
def COp.work (o : COp) (core chunk : Nat) (q : CBuf) (x : EX) : Except Stalled EX :=
  let w := o.who
  match o.op with
  | .cpy .cb sk _ _ b _ =>
    let at' := q.stage q.pidx
    x.copyUnits core (fun off t => t.kindLoad w core sk b (o.stages * q.size + off))
      (fun off l t => t.eBuf w.agent w (.pool core (at' + off) true (BitVec.ofNat 64 (at' + off))) l allBytes)
      (fun off t => t.ePoison w (.pool core (at' + off) true 0)) (q.size / 64) 0
  | .cpy dk sk _ a b n =>
    x.copyUnits core (fun off t => t.kindLoad w core sk b off) (fun off l t => t.kindStore w core dk a off l)
      (fun off t => t.kindPoison w core dk a off) (min 512 (n - 512 * chunk) / 64) (512 * chunk)
  | .deal die _ a pat off total =>
    let to' := fun n => dealUnit die core pat off (n / 64)
    x.copyUnits core (fun n t => t.eLoad w (.glob (ptrAdd a n)) 64) (fun n l t => t.dealStore w (to' n).1 (to' n).2 l)
      (fun n t => t.dealPoison w (to' n).1 (to' n).2) (total / 64) 0
  | .gather put i64 pm lm cmb _ _ a b n => do
    let size := if i64 then 8 else 4
    let (ls, x) ← x.readList core lm a (if n = 0 then 0 else (a.toNat % 64 + n * size + 63) / 64) []
    x.gatherRows core put i64 pm cmb o.entry b (listEntry ls a.toNat size) n 0
  | _ => .error none
/-- What a step whose stores have all been acknowledged reports, f being its first final fault. -/
def State.reported (u t : State) (core chunk : Nat) (o : COp) (f : Option RFault) : Prop :=
  let k := u.core core
  let j := t.core core
  t.mem = u.mem ∧ j.pool = k.pool ∧
  match o.op with
  | .cpy .cb _ h a _ n =>
    let q := k.cb (fld a 2 0)
    let last := (o.stages + 1) * q.size
    j.cb (fld a 2 0) = { q with free := q.free - 1, filled := q.filled + 1, pidx := (q.pidx + 1) % q.count } ∧
    (j.handle h).fault = (k.handle h).fault.or (if o.fault.isNone then f else none) ∧
    (f = none → (j.handle h).bits = (k.handle h).bits |||
      (BitVec.ofNat 64 (2 ^ (if n ≤ last then chunksOf n else last / 512) - 1) &&& ~~~o.done)) ∧
    (n ≤ last → (j.handle h).busy = false ∧ j.copy o.id = none)
  | .cpy _ _ h _ _ n =>
    let done := o.done ||| (1#64 <<< chunk)
    (j.handle h).fault = (k.handle h).fault.or (if o.fault.isNone then f else none) ∧
    (j.handle h).bits = (if f = none then (k.handle h).bits ||| (1#64 <<< chunk) else (k.handle h).bits) ∧
    (done.toNat % 2 ^ chunksOf n = 2 ^ chunksOf n - 1 → (j.handle h).busy = false ∧ j.copy o.id = none)
  | .deal _ r .. | .gather _ _ _ _ _ _ r .. =>
    (j.counter r).n = (k.counter r).n + 1 ∧ (j.counter r).fault = (k.counter r).fault.or f ∧ j.copy o.id = none
  | _ => True

/-! ### Memory other than the device's own -/

/-- Every core of a table has a pool and operand memory in the canonical form. -/
def poolsWf (l : Tab Core) : Bool := l.all fun p => p.2.memWf
/-- Every pool and operand memory, those saved at a close or at a replay point, and the memory of peers are in the canonical form. -/
def State.poolsOk (s : State) : Bool :=
  poolsWf s.cores && (match s.rel.saved with | some c => poolsWf c.cores | none => true) && poolsWf s.rel.points &&
  s.fabric.peerMem.all fun p => cellsOk p.2

/-! ### The scheduler (R377 to R387) -/

/-- Contexts that run a thread of a launch charged to a key: a tenant at a level (R381). -/
def State.runningFor (s : State) (key : Nat) : Nat :=
  (s.cores.map fun p => (p.2.ctxs.filter fun c => decide (c.2.run ≠ .free) &&
    (match s.launch c.2.launch.toNat with | some l => l.tenant.toNat * 8 + l.level == key | none => false)).length).sum

/-- No node of a graph waits for room in the queues alone (R379). -/
def State.noneWaits (s : State) : Bool := s.sched.insts.all fun x => !s.roomless x.id

/-- A graph node that waits for its other predecessors, or has none left. -/
def INode.freed (m n : INode) : INode :=
  { m with st := if m.node.id = n.node.id then .done else m.st
           left := m.left - (n.node.succs.filter (· == m.node.id)).length }

/-! ### Groups (R95) -/

/-- A group after its barrier completes: the leaves, then the joins, in order of arrival. -/
def Group.next (g : Group) : Group :=
  let left := g.leaves.map fun p => p.1
  { g with members := g.members.filter (fun w => !left.contains w) ++ g.joins.map fun p => p.1
           size := g.size - left.length, arrived := [], count := 0, leaves := [], joins := [] }
/-- What the completion sends: the leaves' results, the joins' ranks, the releases. -/
def Group.tells (g : Group) : List Body :=
  let left := g.leaves.map fun p => p.1
  let stay := (g.members.filter fun w => !left.contains w).length
  (g.leaves.filterMap fun p => p.2.map fun tag => .reply (ackTo p.1 tag)) ++
  (g.joins.mapIdx fun k p => .reply { ackTo p.1 p.2 with data := (BitVec.ofNat 64 (stay + k)).setWidth 512 }) ++
  ((g.arrived.filter fun w => !left.contains w).map fun w => .release w g.handle)

end Sys2Proof.Machine
end

