-- ==== Sys2Proof/Certificates/Slice0/Obligations.lean ====
section
/-! DEFINITION. Obligations.lean: what is to be proved of the model, rule by rule. Clear (Safety.lean) says when an instruction executes
normally; the tables of Safety/Values.lean say what the spec has it write. -/

open Sys2Proof Sys2Proof.Machine Sys2Proof.Manual

/-! ### The register classes -/

/-- R116, R120, R123, R125, R126, R129 to R131, R172, R371: an instruction that writes a g register at once completes, writes the
value of the spec's table, and changes nothing else but the PC. A write to g0 is discarded (R43).
R122, R124, R126: an instruction that writes a p register at once completes and writes all sixteen bits of the table's value. A write
to p0 is discarded (R43).
R121, R82, R83: the divider's instructions complete for every divisor, 0 among them: their result is pending and lands later. -/
def Obligations.ScalarResults : Prop :=
  (∀ (i : Instr) (s : State) (d : GReg) (v : Word), gValue s.cx.regs s i = some (d, v) → Clear i s = true →
     exec i s = .next (s.wrG d v).pass) ∧
  (∀ (i : Instr) (s : State) (d : PReg) (v : Pred), pValue s.cx.regs i = some (d, v) → Clear i s = true →
     exec i s = .next (s.wrP d v).pass) ∧
  (∀ (i : Instr) (s : State) (d : GReg) (v : Word), dividerValue s.cx.regs i = some (d, v) → Clear i s = true →
     ∃ t, exec i s = .next t ∧ ownLong s t (.g d .d 0) (v.setWidth 512) 0)

/-- R161, R162, R166 to R168, R172, R174: a lane-guarded instruction writes the performed elements of its whole result, keeps the others,
and raises the flags of the performed elements only.
R162, R168, R174: a conversion to a narrower format writes its sixteen results to the elements of its part, guard bit i governing
result i, and keeps the others. -/
def Obligations.VectorElements : Prop :=
  (∀ (i : Instr) (s : State) (w : Nat) (d : VReg) (res : Nat → Nat × BitVec 6), vLanes s.cx.regs i = some (w, d, res) → i.wf = true →
     Clear i s = true →
     ∃ l : Line, lanesInto w (s.cx.regs.gmask (usesOf i).h) (s.cx.regs.getV d) res l ∧
       exec i s = .next ((s.onRegs fun r => r.setV d l).raise
         (flagsOf (sel w (s.cx.regs.gmask (usesOf i).h)) (fun j => (res j).2) (512 / w))).pass) ∧
  (∀ (i : Instr) (s : State) (w : Nat) (d : VReg) (part : Nat) (res : Nat → Nat × BitVec 6), vNarrow s.cx.regs i = some (w, d, part, res) →
     i.wf = true → Clear i s = true →
     ∃ l : Line, partInto w part (s.cx.regs.gmask (usesOf i).h) (s.cx.regs.getV d) res l ∧
       exec i s = .next ((s.onRegs fun r => r.setV d l).raise
         (flagsOf (fun j => (s.cx.regs.gmask (usesOf i).h).getLsbD j) (fun j => (res j).2) 16)).pass)

/-- R169, R172: VCMP and VICMP write all sixteen bits: bit i is the AND of the answers of the elements of lane i.
R75, R171, R174: VRED, VDOT and VBXDOT write the low element of their destination and keep the rest; a lane that does not take part
enters the tree as -0. -/
def Obligations.VectorReductions : Prop :=
  (∀ (i : Instr) (s : State) (d : PReg) (w : Nat) (f : Nat → Bool × BitVec 6), vCompare s.cx.regs i = some (d, w, f) → Clear i s = true →
     ∃ p : Pred, predInto w (fun j => (f j).1) p ∧
       exec i s = .next ((s.wrP d p).raise (flagsOf (fun _ => true) (fun j => (f j).2) (512 / w))).pass) ∧
  (∀ (i : Instr) (s : State) (d : VReg) (w : Nat) (x : Nat × BitVec 6), vSum s.cx.regs i = some (d, w, x) → Clear i s = true →
     ∃ l : Line, lowInto w (s.cx.regs.getV d) x.1 l ∧ exec i s = .next ((s.onRegs fun r => r.setV d l).raise x.2).pass)

/-- R166, R82, R83: VDIV and VSQRT are long: the performed lanes are pending, and the whole result with the flags of the performed elements
waits to land. -/
def Obligations.VectorLong : Prop :=
  ∀ (i : Instr) (s : State) (w : Nat) (d : VReg) (res : Nat → Nat × BitVec 6), vLong s.cx.regs i = some (w, d, res) → Clear i s = true →
    ∃ (t : State) (l : Line), exec i s = .next t ∧ (∀ j, j < 512 / w → el w l j = BitVec.ofNat w (res j).1) ∧
      ownLong s t (.v d (laneBytes (s.cx.regs.gmask (usesOf i).h) 16)) l
        (flagsOf (sel w (s.cx.regs.gmask (usesOf i).h)) (fun j => (res j).2) (512 / w))

/-- R69, R173, R174: VQNT quantises its 32 inputs with %bxdelta and RNE, writes the elements and, for BX4 and BX8, the exponent pair above
them and zero above the pair; the pair goes to gC when it is named. -/
def Obligations.Quantise : Prop :=
  ∀ (h : Hdr) (rn : Bool) (f : Fmt) (bx : Bx) (d a : VReg) (b : Option VReg) (c : Option GReg) (s : State),
    Instr.wf (.vqnt h rn f bx d a b c) = true → Clear (.vqnt h rn f bx d a b c) s = true →
    let r := s.cx.regs
    let w := fmtBits' f
    let x := (elems w (r.getV a) ++ (b.elim [] fun v => elems w (r.getV v))).map (toNum f)
    let q := quantise bx r.bxdelta.toNat (fun _ => roundRne) x
    let n := Machine.bxBits bx
    x.length = 32 ∧
    ∃ l : Line, (∀ j (hj : j < q.1.length), el n l j = BitVec.ofNat n (q.1[j]).1) ∧
      (bx ≠ .bx16 → el 8 l (4 * n) = BitVec.ofNat 8 q.2.1 ∧ el 8 l (4 * n + 1) = BitVec.ofNat 8 q.2.2 ∧
        ∀ j, 4 * n + 2 ≤ j → j < 64 → el 8 l j = 0) ∧
      exec (.vqnt h rn f bx d a b c) s =
        .next (match c with
          | none => (s.onRegs fun r => r.setV d l).raise (allFlags q.1)
          | some g => ((s.onRegs fun r => r.setV d l).raise (allFlags q.1)).wrG g (BitVec.ofNat 64 (q.2.1 + 256 * q.2.2))).pass

/-- R169, R170: the scalar floating-point forms: the result zero-extended, or sign-extended for a signed integer, with its flags; FCMP
writes all sixteen bits.
R58, R59, R61, R63: a value that a format holds, subnormal or not, is delivered in that format as it stands, whatever the rounding
mode, and raises no flag. -/
def Obligations.FloatResults : Prop :=
  ((∀ (i : Instr) (s : State) (d : GReg) (v : Word) (f : BitVec 6), fScalar s.cx.regs i = some (d, v, f) → i.wf = true → Clear i s = true →
     exec i s = .next ((s.wrG d v).raise f).pass) ∧
   (∀ (h : Hdr) (f : Fmt) (c : FCond) (d : PReg) (a b : GReg) (s : State), Clear (.fcmp h f c d a b) s = true →
     let x := fCmp f c ((s.cx.regs.getG a).setWidth (fmtBits' f)).toNat ((s.cx.regs.getG b).setWidth (fmtBits' f)).toNat
     exec (.fcmp h f c d a b) s = .next ((s.wrP d (allOf x.1)).raise x.2).pass)) ∧
  (∀ (f : Fmt) (m : RMode) (n : Nat), n < 2 ^ fmtBits' f → isNaN (toNum f n) = false → putNum f m (toNum f n) = (n, 0))

/-- The frame of the register classes: an instruction that the tables list, when it executes normally, changes no register but its
destination, no flag unless it may raise flags, no other part of its context but the PC, no other context, and no byte of memory or of a
pool. -/
def Obligations.RegisterFrame : Prop :=
  ∀ (i : Instr) (s t : State), (destG s i).isSome || (destP s i).isSome || (destV s i).isSome → i.wf = true → Clear i s = true →
    exec i s = .next t →
    (∀ r, destG s i ≠ some r → t.cx.regs.getG r = s.cx.regs.getG r) ∧
    (∀ r, destP s i ≠ some r → t.cx.regs.getP r = s.cx.regs.getP r) ∧
    (∀ r, destV s i ≠ some r → t.cx.regs.getV r = s.cx.regs.getV r) ∧
    (raises i = false → t.cx.regs.fflags = s.cx.regs.fflags) ∧
    t.cx.regs.frm = s.cx.regs.frm ∧ t.cx.regs.bxdelta = s.cx.regs.bxdelta ∧ t.cx.regs.synclim = s.cx.regs.synclim ∧
    t.cx.regs.trapvec = s.cx.regs.trapvec ∧
    t.cx = { s.cx with regs := t.cx.regs, pc := s.cx.npc } ∧
    (∀ c x, (c, x) ≠ s.me → t.ctx c x = s.ctx c x) ∧
    (∀ a, t.byte a = s.byte a) ∧ (∀ c a, t.poolByte c a = s.poolByte c a) ∧ (∀ c, (t.core c).opmem = (s.core c).opmem) ∧
    t.chan = s.chan ∧ t.mem = s.mem

/-- R43: g0 reads zero and p0 all ones, whatever is written; a write to any other register reads back, and no other register changes. -/
def Obligations.RegisterAccess : Prop :=
  ∀ (r : Regs) (d i : GReg) (v : Word) (e j : PReg) (p : Pred) (x y : VReg) (l : Line),
    (r.setG d v).getG 0 = 0 ∧ (d ≠ 0 → (r.setG d v).getG d = v) ∧ (i ≠ d → (r.setG d v).getG i = r.getG i) ∧ r.setG 0 v = r ∧
    (r.setP e p).getP 0 = 0xFFFF ∧ (e ≠ 0 → (r.setP e p).getP e = p) ∧ (j ≠ e → (r.setP e p).getP j = r.getP j) ∧ r.setP 0 p = r ∧
    (r.setV x l).getV x = l ∧ (y ≠ x → (r.setV x l).getV y = r.getV y)

/-! ### Thread control and control flow -/

/-- R108 to R111: NOP, YIELD, and WAIT once nothing is outstanding, only let the thread go on; NOWNS writes the counter as the core reads it;
DOZE leaves the choice of contexts until the instant in gA, or does nothing where that has passed; EXIT ends the thread with its code.
R109, R110, R396: a core's reading of the counter is at most 2 ns above the master, or what it has read before; it is never below what it has
read before, nor more than 2 ns below the master; and a reading is what the core's next ones start from.
R105, R116: MTS writes the fields that software may write, and ignores a read-only register. -/
def Obligations.SpecialRegisters : Prop :=
  ((∀ h s, Clear (.nop h) s = true → exec (.nop h) s = .next s.pass) ∧
   (∀ h s, Clear (.yieldT h) s = true → exec (.yieldT h) s = .next s.pass) ∧
   (∀ h s, Clear (.wait h) s = true → exec (.wait h) s = .next s.pass) ∧
   (∀ h a s, Clear (.doze h a) s = true →
     let t := (s.cx.regs.getG a).toNat
     let r := s.readClock s.me.1
     exec (.doze h a) s = .next (if t ≤ s.coreNow s.me.1 then r.pass else r.onCx fun c => { c with run := .dozing t, pc := c.npc })) ∧
   (∀ h d s, Clear (.nowns h d) s = true →
     exec (.nowns h d) s = .next ((s.readClock s.me.1).wrG d (BitVec.ofNat 64 (s.coreNow s.me.1))).pass) ∧
   (∀ h a s, Clear (.exit h a) s = true → s.cx.cap.any Capture.forming = false →
     ∃ t, exec (.exit h a) s = .next t ∧ t = s.endThread s.me.1 s.me.2 (exitWord ((s.cx.regs.getG a).setWidth 32)) ∧
       t.cx = { Ctx.reset with inc := s.cx.inc, reuse := 16, nextTag := s.cx.nextTag } ∧ t.took = none ∧ t.mem = s.mem)) ∧
  (∀ (s : State) (core : Nat),
     (s.core core).clock ≤ s.coreNow core ∧ s.now ≤ s.coreNow core + 2 ∧ (s.coreNow core ≤ s.now + 2 ∨ s.coreNow core = (s.core core).clock) ∧
     ((s.readClock core).core core).clock = s.coreNow core ∧ (s.readClock core).now = s.now ∧
     s.coreNow core ≤ (s.readClock core).coreNow core) ∧
  (∀ (h : Hdr) (r : SReg) (a : GReg) (s : State), Clear (.mts h r a) s = true →
     let v := s.cx.regs.getG a
     exec (.mts h r a) s = .next (s.onRegs fun q => match r with
       | .fflags => { q with fflags := v.setWidth 6 }
       | .frm => { q with frm := v.setWidth 2 }
       | .bxdelta => { q with bxdelta := v.setWidth 4 }
       | .synclim => { q with synclim := v.setWidth 32 }
       | .trapvec => { q with trapvec := v }
       | _ => q).pass)

/-- R78, R85: an instruction that waits for the thread's long results, by its marker or by what it is, parks while one is outstanding, and
performs nothing; it is issued again when they have landed.
R38, R135, R162: an instruction whose guard does not perform it changes nothing but the PC; BR is performed under any guard. -/
def Obligations.ParksAndGuards : Prop :=
  (∀ (i : Instr) (s : State), (usesOf i).allotted s.cx.part = true → privOk s i = true → (usesOf i).marked = true →
     s.cx.noLong = false → exec i s = .next (s.park .marker .noLong .again)) ∧
  ((∀ (i : Instr) (s : State), Skips i s = true → exec i s = .next s.pass) ∧
   ∀ h x disp r, (usesOf (.br h x disp)).performed r = true)

/-- R134 to R138: the transfers, to a target whose line is held and that passes the test of R32: BR by its guard, LOOP by its count, CALL and
CALLI with their link, each with what it records or reports; the thread goes on at the target.
R32, R36, R134: a transfer to a target whose line is held and that fails the test takes BAD_TARGET with the target as its address, and has
no other effect. -/
def Obligations.Transfers : Prop :=
  ((∀ h x disp s, Clear (.br h x disp) s = true → s.cx.cap.any Capture.forming = false →
     let t := branchTarget s.cx.pc disp
     (s.cx.regs.guard h = false → exec (.br h x disp) s = .next (s.reportBr x false).pass) ∧
     (s.cx.regs.guard h = true → s.entersAt t = true → exec (.br h x disp) s = .next ((s.reportBr x true).goTo t))) ∧
   (∀ h a s, Clear (.bri h a) s = true → s.cx.cap.any Capture.forming = false → s.entersAt (s.cx.regs.getG a) = true →
     exec (.bri h a) s = .next ((s.brTrace 4 (s.cx.regs.getG a)).goTo (s.cx.regs.getG a))) ∧
   (∀ h disp s, Clear (.call h disp) s = true → s.cx.cap.any Capture.forming = false →
     let t := branchTarget s.cx.pc disp
     s.entersAt t = true → exec (.call h disp) s = .next (((s.wrG 1 s.cx.npc).brTrace 1 t).goTo t)) ∧
   (∀ h a s, Clear (.calli h a) s = true → s.cx.cap.any Capture.forming = false →
     let t := s.cx.regs.getG a
     s.entersAt t = true → exec (.calli h a) s = .next (((s.wrG 1 s.cx.npc).brTrace 2 t).goTo t)) ∧
   (∀ h a s, Clear (.ret h a) s = true → s.cx.cap.any Capture.forming = false → s.entersAt (s.cx.regs.getG a) = true →
     exec (.ret h a) s = .next ((s.brTrace 3 (s.cx.regs.getG a)).goTo (s.cx.regs.getG a))) ∧
   (∀ h a b x disp s, Clear (.loop h a b x disp) s = true → s.cx.cap.any Capture.forming = false →
     let c := s.cx.regs.getG a
     (c.toNat ≤ 1 → exec (.loop h a b x disp) s =
       .next (if x = 0xFFFF ∨ b = 0 then (s.wrG a 0).pass
         else ((s.wrG a 0).xReport s.me.1 s.cx.part s.cx.launch.toNat x
           { rep := .trip (min ((s.cx.regs.getG b).toNat % 2 ^ 32) 0xFFFF), pc := s.cx.pc, kind := some 3 }).pass)) ∧
     (1 < c.toNat → s.entersAt (branchTarget s.cx.pc disp) = true →
       exec (.loop h a b x disp) s = .next ((s.wrG a (c - 1)).goTo (branchTarget s.cx.pc disp))))) ∧
  (∀ (i : Instr) (s : State) (t : Word), taken s.cx.regs s.cx.pc i = some t → Clear i s = true → s.cx.cap.any Capture.forming = false → s.rejects t = true →
     s.cx.hnd = false → s.cx.regs.trapvec ≠ 0 → ∃ u, exec i s = .next u ∧ traps s u BAD_TARGET t 0)

/-! ### Groups -/

/-- R93, R95, R112, R113, R115: the group instructions on a handle whose entry is settled: JOIN and LEAVE enter the handle as joining or
leaving and send their request; GBAR, GARRIVE and PHASE arrive, GBAR and PHASE park; GWAIT goes on or parks by the release of its barrier;
GINFO of handle 0 answers at once, of another handle asks the slice. -/
def Obligations.Groups : Prop :=
  (∀ h d a s, Clear (.join h d a) s = true →
    let g := (s.cx.regs.getG a).setWidth 32
    g ≠ 0 → s.cx.hent g = none → (s.cx.handles.filter fun e => e.handle != 0).length < 8 →
    exec (.join h d a) s = .next (((s.onCx fun c => { c with
      nextTag := s.cx.nextTag + 1
      pend := c.pend ++ [s.newPend (.g d .d 0)]
      handles := c.handles.filter (fun e => e.handle != g) ++
        [{ handle := g, st := .joining, tag := s.cx.nextTag, arrived := false, waitFor := none }] }).send
      (.group s.whoMe s.cx.launch g true (some s.cx.nextTag))).pass)) ∧
  (∀ h a e s, Clear (.leave h a) s = true →
    let g := (s.cx.regs.getG a).setWidth 32
    g ≠ 0 → s.cx.hent g = some e → e.st = .member →
    exec (.leave h a) s = .next (((s.onCx fun c => { c with
      nextTag := s.cx.nextTag + 1
      pend := c.pend ++ [s.newPend .none]
      handles := c.handles.filter (fun x => x.handle != e.handle) ++ [{ e with st := .leaving, tag := s.cx.nextTag }] }).send
      (.group s.whoMe s.cx.launch g false (some s.cx.nextTag))).pass)) ∧
  (∀ h a e s, Clear (.gbar h a) s = true →
    let g := (s.cx.regs.getG a).setWidth 32
    s.cx.hent g = some e → e.st = .member → e.arrived = false →
    exec (.gbar h a) s = .next ((s.arriveAt g none).park .group (.barrier g) .finish)) ∧
  (∀ h a e s, Clear (.garrive h a) s = true →
    let g := (s.cx.regs.getG a).setWidth 32
    s.cx.hent g = some e → e.st = .member → e.arrived = false →
    exec (.garrive h a) s = .next (s.arriveAt g (some false)).pass) ∧
  (∀ h a e done s, Clear (.gwait h a) s = true →
    let g := (s.cx.regs.getG a).setWidth 32
    s.cx.hent g = some e → e.st = .member → e.waitFor = some done →
    let t := s.onCx fun c => { c with handles := c.handles.filter (fun x => x.handle != e.handle) ++ [{ e with waitFor := none }] }
    exec (.gwait h a) s = .next (if done then t.pass else t.park .group (.barrier g) .finish)) ∧
  (∀ h a e s, Clear (.phase h a) s = true →
    let g := (s.cx.regs.getG a).setWidth 32
    s.cx.hent g = some e → e.st = .member → e.arrived = false → s.isDrained s.me.1 s.me.2 = true →
    exec (.phase h a) s = .next ((s.arriveAt g none).park .group (.barrier g) (.phaseDone g))) ∧
  (∀ h d a e s, Clear (.ginfoSize h d a) s = true →
    let g := (s.cx.regs.getG a).setWidth 32
    (g = 0 → exec (.ginfoSize h d a) s = .next (s.wrG d (s.cx.nthr.setWidth 64)).pass) ∧
    (g ≠ 0 → s.cx.hent g = some e → e.st = .member →
      ∃ t, exec (.ginfoSize h d a) s = .next t ∧ farLong s t (.g d .d 0) .unit (.ginfo g false))) ∧
  (∀ h d a e s, Clear (.ginfoRank h d a) s = true →
    let g := (s.cx.regs.getG a).setWidth 32
    (g = 0 → exec (.ginfoRank h d a) s = .next (s.wrG d (s.cx.tid.setWidth 64)).pass) ∧
    (g ≠ 0 → s.cx.hent g = some e → e.st = .member →
      ∃ t, exec (.ginfoRank h d a) s = .next t ∧ farLong s t (.g d .d 0) .unit (.ginfo g true)))

/-- R97, R98: a group instruction on a handle whose JOIN or LEAVE is pending parks; misuse takes GROUP_USE with its subcode.
R247, R249, R260, R263: a held entry that breaks R246 takes VOL_ENTRY, a coordinate word with bit 63 set takes BAD_ADDR, and so does a block
pointer that no block can have.
R268, R272 to R275, R281, R284, R289, R290: what the copy unit's instructions refuse at issue, and the fault records that they report and
clear.
R324, R325: what the slot instructions and the tile instructions refuse, with the subcode or the tile.
R322: a card that a check refuses takes BAD_CARD with its subcode; what the first checks are, and what a card that passes them all keeps. -/
def Obligations.UnitMisuse : Prop :=
  (∀ (i : Instr) (s : State) (a : GReg), groupHandle i = some a → Clear i s = true →
     let g := (s.cx.regs.getG a).setWidth 32
     (∀ e, s.cx.hent g = some e → e.st ≠ .member → g ≠ 0 → exec i s = .next (s.park .group (.handle g) .again)) ∧
     (s.cx.hnd = false → s.cx.regs.trapvec ≠ 0 → ∀ n, groupMisuse s.cx i g = some n →
       ∃ u, exec i s = .next u ∧ traps s u GROUP_USE (g.setWidth 64) n)) ∧
  (∀ (i : Instr) (s : State) (tid : BitVec 8) (a : GReg) (v : VolCopy), volumeForm i = some (tid, a) → Clear i s = true →
     s.mine.vols.find? (fun v => v.launch == s.cx.launch.toNat && v.tid == tid) = some v → s.cx.hnd = false → s.cx.regs.trapvec ≠ 0 →
     (volOk v.entry = false → ∃ t, exec i s = .next t ∧ traps s t VOL_ENTRY 0 tid.toNat) ∧
     (volOk v.entry = true → blockAlign i = none → (s.cx.regs.getG a).getLsbD 63 = true →
       ∃ t, exec i s = .next t ∧ traps s t BAD_ADDR (s.cx.regs.getG a) 0) ∧
     (∀ n, volOk v.entry = true → blockAlign i = some n → ((s.cx.regs.getG a).getLsbD 57 = true ∨ (s.cx.regs.getG a).toNat % n ≠ 0) →
       ∃ t, exec i s = .next t ∧ traps s t BAD_ADDR (s.cx.regs.getG a) 0)) ∧
  ((∀ (i : Instr) (s : State) (n : Nat), transferMisuse s i = some n → Clear i s = true → s.cx.hnd = false → s.cx.regs.trapvec ≠ 0 →
     ∃ t, exec i s = .next t ∧ traps s t XFER_USE 0 n) ∧
   (∀ h a b s f, Clear (.cpyw h a b) s = true → s.cx.hnd = false → s.cx.regs.trapvec ≠ 0 →
     let x := s.mine.handle a
     x.fault = some f → (x.busy = false ∨ x.bits &&& s.cx.regs.getG b = s.cx.regs.getG b) →
     ∃ t, exec (.cpyw h a b) s = .next t ∧
       traps (s.setHandle a { x with fault := none }) t XFER_FAULT f.addr
         ((0xB0 + a.toNat) + f.kind.toNat * 256)) ∧
   (∀ h a s f, Clear (.sdrop h a) s = true → s.cx.hnd = false → s.cx.regs.trapvec ≠ 0 →
     (tget s.cx.dropRec a.toNat = some f → ∃ t, exec (.sdrop h a) s = .next t ∧
       traps (s.onCx fun c => { c with dropRec := tdel c.dropRec a.toNat }) t XFER_FAULT f.addr ((0x40 + a.toNat) + f.kind.toNat * 256)) ∧
     (∀ st, tget s.cx.dropRec a.toNat = none → tget s.cx.streams a.toNat = some st → st.wr = true → st.n0 * st.n1 * st.n2 ≠ 0 → st.fault = some f →
       ∃ t, exec (.sdrop h a) s = .next t ∧
         traps (s.onCx fun c => { c with streams := tset c.streams a.toNat { st with fault := none } }) t XFER_FAULT f.addr
           ((0x40 + a.toNat) + f.kind.toNat * 256))) ∧
   (∀ h sub d a b s f, Clear (.gpwait h sub d a b) s = true → s.cx.hnd = false → s.cx.regs.trapvec ≠ 0 →
     let x := s.mine.counter a
     x.fault = some f → satisfied x.n ((s.cx.regs.getG b).setWidth 32) = true →
     ∃ t, exec (.gpwait h sub d a b) s = .next t ∧
       traps (s.setCounter a { x with fault := none }) t XFER_FAULT f.addr
         ((0xC8 + a.toNat) + f.kind.toNat * 256))) ∧
  (∀ (i : Instr) (s : State), Clear i s = true → s.cx.hnd = false → s.cx.regs.trapvec ≠ 0 →
     (∀ n, slotMisuse s i = some n → ∃ t, exec i s = .next t ∧ traps s t TILE_USE 0 n) ∧
     (∀ h d, i = .aclr h d → s.tileBusy s.me.1 d.toNat = true → ∃ t, exec i s = .next t ∧ traps s t ACC_BUSY (0x80 + d.setWidth 64) 0) ∧
     (∀ h am f d a, i = .ald h am f d a → inMode am (s.cx.regs.getG a) = true → (s.cx.regs.getG a).toNat % 64 = 0 →
       s.tileBusy s.me.1 d.toNat = true → ∃ t, exec i s = .next t ∧ traps s t ACC_BUSY (0x80 + d.setWidth 64) 0)) ∧
  ((∀ h lvl a s n, Clear (.card h lvl a) s = true → s.cx.hnd = false → s.cx.regs.trapvec ≠ 0 →
     badCard (s.cx.regs.getV a) (match lvl with | .L1 => 1 | .L2 => 2 | .L3 => 3 | .L4 => 4 | .L5 => 5) s.holdsSlot (partAcc s.cx.part) = some n →
     ∃ t, exec (.card h lvl a) s = .next t ∧ traps s t BAD_CARD 0 n) ∧
   ∀ (card : Line) (lvl : Nat) (held : Nat → Bool) (acc : Nat),
     let op := (el 8 card 0).toNat
     let level := (card.extractLsb' 8 3).toNat
     let mbox := el 64 card 6
     let ar := card.getLsbD 14
     let sl := card.getLsbD 15
     (badCard card lvl held acc = some 1 ↔ ¬(1 ≤ op ∧ op ≤ 0x0E)) ∧
     (badCard card lvl held acc = some 2 ↔ (1 ≤ op ∧ op ≤ 0x0E) ∧ level ≠ lvl) ∧
     (badCard card lvl held acc = none → (1 ≤ op ∧ op ≤ 0x0E) ∧ level = lvl ∧ el 32 card 14 = 0 ∧ el 32 card 15 = 0 ∧
       (op ≠ 0x0E → mbox ≠ 0 ∧ mbox.getLsbD 57 = false ∧ mbox.toNat % 16 = 0) ∧ ((sl ∨ ar) → lvl = 1) ∧ ((0x0B ≤ op ∧ op ≤ 0x0D) → lvl = 5) ∧
       (sl → held (el 8 card 4).toNat ∧ held (el 8 card 5).toNat) ∧ (ar → (el 8 card 7).toNat < acc)))

/-! ### Special registers and experience -/

/-- R152, R155: a read of a slot lands from the entry's view, or from the slot's home; a slot that is absent reads as zeros. The report, the
second half of XSEL, XUNR and XPFD and all of XNOTE, is made at the issue; XFLUSH merges the launch's entries.
R155: what XSEL, XUNR and XPFD make of a slot's words. -/
def Obligations.Experience : Prop :=
  ((∀ (i : Instr) (s : State) (n : Nat) (d : Dest) (sh : Shape) (rep : Option (BitVec 16 × XHeld)), slotRead s.cx i = some (n, d, sh, rep) →
     Clear i s = true →
     ∃ t, exec i s = .next (match rep with
         | none => t
         | some (x, r) => t.xReport s.me.1 s.cx.part s.cx.launch.toNat x r).pass ∧
       ((n = 0xFFFF ∨ s.slotCount s.cx.launch.toNat ≤ n) → t = s.longValue { s.newPend d with shape := sh } 0 0) ∧
       (n ≠ 0xFFFF → n < s.slotCount s.cx.launch.toNat →
         (∀ e v, xFind s.mine.xcache s.cx.launch.toNat n = some e → e.view = some v →
           t = (s.onMine fun k => { k with xcache := xFront k.xcache e }).longValue { s.newPend d with shape := sh } (v.setWidth 448 ++ e.w0) 0) ∧
         (∀ e, xFind s.mine.xcache s.cx.launch.toNat n = some e → e.view = none →
           t = s.startLong { s.newPend d with
             shape := sh, reqs := [s.reqFor (.glob (s.slotVa s.cx.launch.toNat n)) (.xread s.me.1 s.cx.launch.toNat n none true) s.cx.nextTag] }) ∧
         (xFind s.mine.xcache s.cx.launch.toNat n = none →
           t = (s.addPend { s.newPend d with
             shape := sh, reqs := [s.reqFor (.glob (s.slotVa s.cx.launch.toNat n)) (.xread s.me.1 s.cx.launch.toNat n none true) s.cx.nextTag]
               }).xAlloc s.me.1 s.cx.launch.toNat n [] (some (s.asker, s.cx.nextTag))))) ∧
   (∀ h a x s, Clear (.xnote h a x) s = true →
     exec (.xnote h a x) s = .next (s.xReport s.me.1 s.cx.part s.cx.launch.toNat x
       { rep := .latency (s.cx.regs.getG a).toNat, pc := s.cx.pc, kind := none }).pass) ∧
   (∀ h s, Clear (.xflush h) s = true →
     let m := s.mergeWhere s.me.1 (fun e => e.launch == s.cx.launch.toNat) (some (s.asker, s.cx.nextTag))
     exec (.xflush h) s = .next (if m.2 = 0 then m.1.longValue (s.newPend .none) 0 0
       else m.1.addPend { s.newPend .none with left := m.2 }).pass)) ∧
  (∀ (l : Line) (cap : Word),
     let w0 : Word := l.extractLsb' 0 64
     let b := fun i => (l.extractLsb' (64 + 16 * i) 16).toNat
     let kind := (w0.extractLsb' 0 8).toNat
     shapeLine .plain l = l ∧
     ((shapeLine .xsel l).getLsbD 0 = true ↔ kind = 1 ∧ (b 0 > b 1 ∨ b 0 = b 1 ∧ (b 2) % 2 = 1)) ∧
     (∃ f ∈ [1, 2, 4, 8], shapeLine .xunr l = BitVec.ofNat 512 f ∧
       let m := if kind = 3 then max 512 (b 1) else 512
       512 * f ≤ m ∧ ∀ g ∈ [1, 2, 4, 8], 512 * g ≤ m → g ≤ f) ∧
     (∃ d : Nat, shapeLine (.xpfd cap) l = BitVec.ofNat 512 (min d cap.toNat) ∧
       ((kind ≠ 2 ∨ ∀ i < 4, b i = 0) → d = 1) ∧
       (kind = 2 → (∃ i < 4, b i ≠ 0) → ∃ i < 4, (∀ j < 4, b j ≤ b i) ∧ (∀ j < i, b j < b i) ∧ d = [0, 1, 4, 8][i]!)))

/-- R175, R178: REP starts a capture, or does nothing with a count of 0, or waits for the position's capture; REPWAIT waits for the
reissues.
R175, R176: a vector instruction issued while a capture forms is performed and entered; a reissue performs the captured instruction with its
v registers staggered, and after the last one the position is free again. -/
def Obligations.PlankerRuns : Prop :=
  ((∀ h n1 st a s, Clear (.rep h n1 st a) s = true → s.cx.cap = none →
     let k := (s.cx.regs.getG a).toNat % 2 ^ 16
     exec (.rep h n1 st a) s = .next (
       if k = 0 then s.pass
       else if (tget s.mine.capHold (s.me.2 % 8)).isSome then s.park .sync (.capFree (s.me.2 % 8)) (.rep (n1.toNat + 1) st.toNat k)
       else ((s.onCx fun c => { c with cap := some { n := n1.toNat + 1, s := st.toNat, k := k, code := [], next := 0 } }).onMine fun q =>
         { q with capHold := tset q.capHold (s.me.2 % 8) s.me.2 }).pass)) ∧
   (∀ h s, Clear (.repwait h) s = true →
     (s.cx.cap.any Capture.forming = false → s.cx.cap.any Capture.busy = false → exec (.repwait h) s = .next s.pass) ∧
     (s.cx.cap.any Capture.busy = true → exec (.repwait h) s = .next (s.park .sync .captured .finish)))) ∧
  ((∀ (i : Instr) (s : State) (p : Capture) (w : Nat) (d : VReg) (res : Nat → Nat × BitVec 6), Able i (s.onCx fun c => { c with cap := none }) = true → s.cx.cap = some p → p.forming = true → captureCheck s.cx i = none →
     pendingDest s.cx (laterDests s.cx (usesOf i)) = none →
     noStream s.cx ((usesOf i).vs ++ (usesOf i).dv) = true → vLanes s.cx.regs i = some (w, d, res) →
     ∃ (t : State) (q : Line), lanesInto w (s.cx.regs.gmask (usesOf i).h) (s.cx.regs.getV d) res q ∧ exec i s = .next t ∧
       t.cx.regs.getV d = q ∧ t.cx.pc = s.cx.npc ∧ t.cx.cap = some { p with code := p.code ++ [i] }) ∧
   (∀ (s : State) (core pos x : Nat) (p : Capture) (i : Instr) (w : Nat) (d : VReg) (res : Nat → Nat × BitVec 6),
     let c := s.ctx core x
     let j := mapV (fun v => v + BitVec.ofNat 5 ((p.next / p.n + 1) * p.s)) i
     tget (s.core core).capHold pos = some x → c.cap = some p → p.busy = true → c.halted = false → c.run ≠ .stopped → c.view = none → (s.core core).saving x = false →
     p.code[p.next % p.n]? = some i → (usesOf j).performed c.regs = true → vLanes c.regs j = some (w, d, res) →
     ∃ (t : State) (q : Line), lanesInto w (c.regs.gmask (usesOf j).h) (c.regs.getV d) res q ∧
       exec (.plankerReissue core pos) s = .next t ∧ (t.ctx core x).regs.getV d = q ∧ t.me = s.me ∧
       (t.ctx core x).cap = if p.next + 1 < p.n * p.k then some { p with next := p.next + 1 } else none))

/-! ### Traps -/

/-- R44, R47, R84, R348, R349, R351: an instruction that names a register beyond the partition, one that the mode may not run, and one that
would write a register with a result pending, take their traps and do nothing else.
R349, R92, R102: the same traps end the thread when its handler is running or it has none: the context is free, and the launch's record
on the core counts one thread less and takes the status word of a trap.
R352, R356: a marker takes LOAD_FAULT for a record that is due; an issue outside a handler takes the oldest refused store of its thread,
which then counts as taken. -/
def Obligations.IssueTraps : Prop :=
  (∀ (i : Instr) (s : State), alone s = true → s.cx.hnd = false → s.cx.regs.trapvec ≠ 0 →
     ((usesOf i).allotted s.cx.part = false → ∃ t, exec i s = .next t ∧ traps s t ILLEGAL_INSN 0 0) ∧
     ((usesOf i).allotted s.cx.part = true → privOk s i = false → ∃ t, exec i s = .next t ∧ traps s t PRIV_INSN 0 0) ∧
     (∀ d, (usesOf i).allotted s.cx.part = true → privOk s i = true → waitsForNothing s.cx i = true → noRefusal s = true → s.cx.cap = none →
       (usesOf i).performed s.cx.regs = true → pendingDest s.cx (usesOf i).dests = some d →
       ∃ t, exec i s = .next t ∧ traps s t PENDING_WRITE (d.setWidth 64) d.toNat)) ∧
  (∀ (i : Instr) (s : State), alone s = true → s.cx.cap = none → (s.cx.hnd = true ∨ s.cx.regs.trapvec = 0) →
     (usesOf i).allotted s.cx.part = false ∨ (usesOf i).allotted s.cx.part = true ∧ privOk s i = false →
     ∃ t, exec i s = .next t ∧ t.cx = { Ctx.reset with inc := s.cx.inc, reuse := 16, nextTag := s.cx.nextTag } ∧ t.mem = s.mem ∧
       (∀ c x, (c, x) ≠ s.me → t.ctx c x = s.ctx c x) ∧
       ∀ r ∈ s.mine.residents, r.launch = s.cx.launch →
         ∃ q ∈ t.mine.residents, q.launch = r.launch ∧ q.live = r.live - 1 ∧ q.status = combine r.status 0x02000103) ∧
  ((∀ (i : Instr) (s : State) (f : Replay), alone s = true → s.cx.hnd = false → s.cx.regs.trapvec ≠ 0 → s.cx.cap = none →
     (usesOf i).allotted s.cx.part = true → privOk s i = true → (usesOf i).marked = true → s.cx.noLong = true →
     ((usesOf i).performed s.cx.regs && startsLong s.cx.regs s.cx i && decide (s.cx.longs.length ≥ 32)) = false →
     s.cx.replay.find? (fun r => r.due && !r.fault.absent) = some f →
     ∃ t, exec i s = .next t ∧
       traps (s.onCx Ctx.faultTaken) t LOAD_FAULT f.fault.addr (f.fault.kind.toNat * 2 ^ 8 + s.cx.replay.length * 2 ^ 32)) ∧
   (∀ (i : Instr) (s : State) (j : Nat), alone s = true → s.cx.hnd = false → s.cx.regs.trapvec ≠ 0 → s.cx.cap = none →
     (usesOf i).allotted s.cx.part = true → privOk s i = true → waitsForNothing s.cx i = true → s.mine.refusal s.me.2 s.cx.inc = some j →
     let e := s.mine.jent j
     ∃ t, exec i s = .next t ∧
       traps (s.onMine fun k => { k with jnl := tset k.jnl j { e with taken := true } }) t STORE_REFUSED e.line
         (e.kind.toNat * 2 ^ 8 + j * 2 ^ 24)))

/-- R31: from index 0 to 3 the next PC is the next index of the same line, from index 4 it is index 0 of the line 64 bytes above; a pair
advances the PC by two; an index stays 0 to 4. -/
def Obligations.SequentialPc : Prop :=
  ∀ pc : Word, pc.toNat % 64 ≤ 4 → pc.toNat < 2 ^ 57 - 64 →
    (pcAfter pc 1).toNat = (if pc.toNat % 8 = 4 then pc.toNat - 4 + 64 else pc.toNat + 1) ∧ pcAfter pc 2 = pcAfter (pcAfter pc 1) 1 ∧
    (pcAfter pc 1).toNat % 64 ≤ 4

/-! ### Loads and stores -/

/-- R180 to R183, R187: an access at an address that must not be formed takes BAD_ADDR or MISALIGN, and a .l access that the port would refuse
takes WINDOW or ACC_BUSY, with the address, and does nothing else.
R132: CHKPTR asks the granule's home, or answers at once a pointer that has bit 57 set. -/
def Obligations.Addresses : Prop :=
  (∀ (i : Instr) (s : State) (am : Mode) (base idx : Word) (disp : BitVec 16) (n : Nat), operandOf s.cx.regs i = some (am, base, idx, disp, n) →
     Clear i s = true → s.cx.hnd = false → s.cx.regs.trapvec ≠ 0 →
     (∀ cause a, addressTrap am base idx disp n = some (cause, a) → ∃ t, exec i s = .next t ∧ traps s t cause a 0) ∧
     (∀ ea cause, soundAt am base idx disp n = some ea → am = .l → (∀ h d m, i ≠ .pref h d m) →
       s.localRefusal s.me.1 (ea.toNat % 2 ^ 16) n = some cause → ∃ t, exec i s = .next t ∧ traps s t cause ea 0)) ∧
  (∀ (h : Hdr) (d a : GReg) (s : State), Clear (.chkptr h d a) s = true →
     ∃ t, exec (.chkptr h d a) s = .next t ∧
       let p := s.cx.regs.getG a
       if p.getLsbD 57 then ownLong s t (.g d .d 0) (BitVec.ofNat 512 (2 ^ 13)) 0 else farLong s t (.g d .d 0) (.glob p) .probe)

/-- R183, R191, R192, R195, R197, R200: the .l loads are performed at once: the destination takes the bytes of the pool, the thread's own
stores that have not left in front of them. LDACQ empties the snapshot cache.
R192, R193, R195, R197, R200: a load in .c, .x or .g is a long result: one request to where its address is served, unless the snapshot
cache holds the line or the thread's own stores cover the access. -/
def Obligations.Loads : Prop :=
  ((∀ h sz nc x d m ea s, Clear (.ld h sz nc x d m) s = true → m.am = .l → s.soundEa m (ldN sz) = some ea →
     let off := ea.toNat % 2 ^ 16
     s.localOk off (ldN sz) .r = true →
     exec (.ld h sz nc x d m) s =
       .next ((s.wrG d (loadedAs sz (leNat (s.localByte off (ldN sz)) (ldN sz)))).reportLd x s.cx.pc 8).pass) ∧
   (∀ h nc x d m ea s, Clear (.vld h nc x d m) s = true → m.am = .l → s.soundEa m 64 = some ea →
     let off := ea.toNat % 2 ^ 16
     s.localOk off 64 .r = true →
     ∃ l : Line, (∀ k < 64, el 8 l k = if laneOn s.cx.regs h (k / 4) then s.localByte off 64 k else el 8 (s.cx.regs.getV d) k) ∧
       exec (.vld h nc x d m) s = .next ((s.onRegs fun r => r.setV d l).reportLd x s.cx.pc 8).pass) ∧
   (∀ h sz d m ea s, Clear (.ldacq h sz d m) s = true → m.am = .l → s.soundEa m (ldN sz) = some ea →
     let off := ea.toNat % 2 ^ 16
     s.localOk off (ldN sz) .r = true →
     exec (.ldacq h sz d m) s = .next ((s.wrG d (loadedAs sz (leNat (s.localByte off (ldN sz)) (ldN sz)))).snapEmpty s.me.1).pass) ∧
   (∀ h d a b sc disp s, Clear (.vldx h false d a b sc disp) s = true →
     let ea := laneEa s.cx.regs a b sc disp
     (∀ i < 16, laneOn s.cx.regs h i = true → (ea i).toNat < 2 ^ 16 ∧ (ea i).toNat % 4 = 0 ∧ s.localOk (ea i).toNat 4 .r = true) →
     ∃ l : Line, (∀ k < 64, el 8 l k =
         if laneOn s.cx.regs h (k / 4) then s.localByte (ea (k / 4)).toNat 4 (k % 4) else el 8 (s.cx.regs.getV d) k) ∧
       exec (.vldx h false d a b sc disp) s = .next (s.onRegs fun r => r.setV d l).pass)) ∧
  ((∀ h sz nc x d m ea s, Clear (.ld h sz nc x d m) s = true → m.am ≠ .l → s.soundEa m (ldN sz) = some ea →
     ∃ t, exec (.ld h sz nc x d m) s = .next t ∧ loadStarts s t m.am ea (ldN sz) (.g d sz (ea.toNat % 64)) nc false x) ∧
   (∀ h nc x d m ea s, Clear (.vld h nc x d m) s = true → m.am ≠ .l → s.soundEa m 64 = some ea →
     ∃ t, exec (.vld h nc x d m) s = .next t ∧
       loadStarts s t m.am ea 64 (.v d (laneBytes (s.cx.regs.gmask h) 16)) nc false x) ∧
   (∀ h sz d m ea s, Clear (.ldacq h sz d m) s = true → m.am ≠ .l → s.soundEa m (ldN sz) = some ea →
     ∃ t, exec (.ldacq h sz d m) s = .next t ∧ loadStarts s t m.am ea (ldN sz) (.g d sz (ea.toNat % 64)) true true 0xFFFF) ∧
   (∀ h d a b sc disp s, Clear (.vldx h true d a b sc disp) s = true →
     let ea := laneEa s.cx.regs a b sc disp
     let lanes := (List.range 16).filter fun i => laneOn s.cx.regs h i
     let own := fun i => (forward s.me.1 (spanOf s.me.1 .c (ea i) 4) s.cx.sb 0 0).2 &&& byteMask ((ea i).toNat % 64) 4
     let out := lanes.filter fun i => own i != byteMask ((ea i).toNat % 64) 4
     (∀ i ∈ lanes, (ea i).toNat < 2 ^ 26 ∧ (ea i).toNat % 4 = 0) →
     ∃ t p, exec (.vldx h true d a b sc disp) s = .next t ∧ t.cx.regs = s.cx.regs ∧ t.cx.pc = s.cx.npc ∧ t.mem = s.mem ∧
       t.cx.pend = s.cx.pend ++ [p] ∧ p.dest = .v d (laneBytes (s.cx.regs.gmask h) 16) ∧ p.tag = s.cx.nextTag ∧
       (p.fwd, p.fmask) = forwardLanes s.me.1 s.cx.sb (lanes.map fun i => (i, ea i)) ∧
       (t.chan = s.chan ++ out.map fun i => { born := s.now, body := .req {
         who := s.asker, place := placeOf s.me.1 .c (ea i), op := .load 4 false, tag := s.cx.nextTag, lane := some i } }) ∧
       (out ≠ [] → p.left = out.length ∧ t.cx.landing = s.cx.landing) ∧
       (out = [] → lanes ≠ [] → p.left = 1 ∧ t.cx.landing = s.cx.landing ++
         [{ dst := s.whoMe, tag := s.cx.nextTag, data := 0, flags := 0, fault := none, lane := none }])))

/-- R191, R195, R200: the .l stores, once the thread's own stores to the same bytes have left, write their bytes at once and no others. -/
def Obligations.LocalStores : Prop :=
  (∀ h sz bset d m ea s, Clear (.st h sz bset d m) s = true → s.mine.memWf = true → m.am = .l → s.soundEa m (stN sz) = some ea →
    let off := ea.toNat % 2 ^ 16
    s.localOk off (stN sz) .w = true → s.clearOf .l ea (stN sz) = true →
    ∃ t, exec (.st h sz bset d m) s = .next t ∧ poolWritten s t off (stN sz) (byteOf (s.cx.regs.getG d)) fun _ => true) ∧
  (∀ h bset d m ea s, Clear (.vst h bset d m) s = true → s.mine.memWf = true → m.am = .l → s.soundEa m 64 = some ea →
    let off := ea.toNat % 2 ^ 16
    s.localOk off 64 .w = true → s.clearOf .l ea 64 = true →
    ∃ t, exec (.vst h bset d m) s = .next t ∧ poolWritten s t off 64 (el 8 (s.cx.regs.getV d)) fun k => laneOn s.cx.regs h (k / 4)) ∧
  (∀ h sz d m ea s, Clear (.strel h sz d m) s = true → s.mine.memWf = true → m.am = .l → s.soundEa m (stN sz) = some ea →
    let off := ea.toNat % 2 ^ 16
    s.localOk off (stN sz) .w = true → s.isDrained s.me.1 s.me.2 = true →
    ∃ t, exec (.strel h sz d m) s = .next t ∧ poolWritten s t off (stN sz) (byteOf (s.cx.regs.getG d)) fun _ => true) ∧
  (∀ h d a b sc disp s, Clear (.vstx h false d a b sc disp) s = true → s.mine.memWf = true →
    let ea := fun i => (laneEa s.cx.regs a b sc disp i).toNat
    let lanes := (List.range 16).filter fun i => laneOn s.cx.regs h i
    (∀ i ∈ lanes, ea i < 2 ^ 16 ∧ ea i % 4 = 0 ∧ s.localOk (ea i) 4 .w = true ∧
      s.clearOf .l (laneEa s.cx.regs a b sc disp i) 4 = true) →
    ∃ t, exec (.vstx h false d a b sc disp) s = .next t ∧ t.cx = { s.cx with pc := s.cx.npc } ∧ t.mem = s.mem ∧ t.chan = s.chan ∧
      (∀ x, (∀ i ∈ lanes, ¬ (ea i ≤ x ∧ x < ea i + 4)) → t.poolByte s.me.1 x = s.poolByte s.me.1 x) ∧
      (∀ c x, c ≠ s.me.1 → t.poolByte c x = s.poolByte c x) ∧
      ∀ i ∈ lanes, (∀ j ∈ lanes, i < j → ea j ≠ ea i) → ∀ k < 4, t.poolByte s.me.1 (ea i + k) = el 8 (s.cx.regs.getV d) (4 * i + k))

/-- R191, R195, R200, R205: a store in .c, .x or .g enters the thread's buffer and changes no memory; without room it takes STORE_SPILL.
R192, R205, R210: after a store has entered the buffer, a load of the same thread sees its bytes, and every other byte as before. -/
def Obligations.StoreBuffer : Prop :=
  ((∀ (i : Instr) (s : State) (e : SbEnt) (ea : Word), storeForm s i = some (e, ea) → Clear i s = true →
     (∀ sb, bufStore s.mine s.me.1 s.cx e = some sb → exec i s = .next (s.onCx fun c => { c with sb := sb }).pass) ∧
     (bufStore s.mine s.me.1 s.cx e = none → s.cx.hnd = false → s.cx.regs.trapvec ≠ 0 →
       ∃ t, exec i s = .next t ∧ traps s t STORE_SPILL ea 0)) ∧
   (∀ h d a b sc disp s, Clear (.vstx h true d a b sc disp) s = true →
     let ea := laneEa s.cx.regs a b sc disp
     let lanes := (List.range 16).filter fun i => laneOn s.cx.regs h i
     (∀ i ∈ lanes, (ea i).toNat < 2 ^ 26 ∧ (ea i).toNat % 4 = 0) →
     ∀ t, s.buffers (lanes.map fun i => s.entry .c (ea i)
       (atByte ((ea i).toNat % 64) ((s.cx.regs.getV d).extractLsb' (32 * i) 32).toNat) (byteMask ((ea i).toNat % 64) 4) false) = some t →
     exec (.vstx h true d a b sc disp) s = .next t.pass)) ∧
  (∀ (k : Core) (core : Nat) (c : Ctx) (e : SbEnt) (sb : List SbEnt) (sp : Span) (l : Line) (m : BitVec 64), bufStore k core c e = some sb →
     let f := forward core sp sb l m
     let g := forward core sp c.sb l m
     let h := if peerHits e.peer sp then lineHits core e.am e.line e.mask sp else 0
     f.2 = g.2 ||| h ∧ ∀ b < 64, el 8 f.1 b = if h.getLsbD b then el 8 e.data b else el 8 g.1 b)

/-- R196 to R198, R207: the synchronising accesses, once the stores that overlap have left: LDS, STS and LDF ask and park; FESET, FECLR and
ATOM ask and go on. In .l the core's own port answers at once. -/
def Obligations.Synchronising : Prop :=
  (∀ (i : Instr) (s : State) (m : MemOp) (op : ROp) (d : Word → Dest) (ea : Word), syncForm s.cx.regs i = some (m, op, d) → Clear i s = true →
    s.soundEa m 8 = some ea → s.gateOk m.am ea 8 = true → s.clearOf m.am ea 8 = true →
    let r : Req := { who := s.asker, place := placeOf s.me.1 m.am ea, op := op, tag := s.cx.nextTag, lane := none }
    let t := (s.onCx fun c => { c with syncEa := ea, nextTag := s.cx.nextTag + 1 }).park .sync (.reply s.cx.nextTag) (.got (d ea) false) true
    exec i s = .next (if m.am = .l then t.pSync r s.me.1 (ea.toNat % 2 ^ 16) false ea else t.send (.req r))) ∧
  (∀ (i : Instr) (s : State) (m : MemOp) (op : ROp) (ea : Word), (∃ h, i = .feset h m ∧ op = .feset ∨ i = .feclr h m ∧ op = .feclr) →
    Clear i s = true → s.soundEa m 8 = some ea → s.gateOk m.am ea 8 = true → s.clearOf m.am ea 8 = true →
    let r : Req := { who := s.asker, place := placeOf s.me.1 m.am ea, op := op, tag := s.cx.nextTag, lane := none }
    ∃ t, exec i s = .next t ∧ (m.am ≠ .l → farLong s t .none (placeOf s.me.1 m.am ea) op) ∧
      (m.am = .l → t = ((s.addPend { s.newPend .none with reqs := [r] }).pSync r s.me.1 (ea.toNat % 2 ^ 16) false ea).pass)) ∧
  (∀ h wd op am d a b disp ea s, Clear (.atom h wd op am d a b disp) s = true →
    let n := match wd with | .w => 4 | .d => 8
    soundAt am (s.cx.regs.getG a) 0 disp n = some ea → s.gateOk am ea n = true → s.clearOf am ea n = true →
    let dest : Dest := .g d (match wd with | .w => .w | .d => .d) (ea.toNat % 64)
    ∃ t, exec (.atom h wd op am d a b disp) s = .next t ∧
      (am ≠ .l → farLong s t dest (placeOf s.me.1 am ea) (.atom op wd (s.cx.regs.getG b) (s.cx.regs.getG d))) ∧
      (am = .l → s.localOk ea.toNat n .sync = true → s.mine.memWf = true →
        let byte := fun k => s.poolByte s.me.1 (ea.toNat + k)
        let new := BitVec.ofNat 64 (atomNew op (8 * n) (leNat byte n) ((s.cx.regs.getG b).toNat % 2 ^ (8 * n)) ((s.cx.regs.getG d).toNat % 2 ^ (8 * n)))
        t.cx.regs = s.cx.regs ∧ t.cx.pc = s.cx.npc ∧ t.mem = s.mem ∧
        (∀ a, t.poolByte s.me.1 a = if ea.toNat ≤ a ∧ a < ea.toNat + n then byteOf new (a - ea.toNat) else s.poolByte s.me.1 a) ∧
        (∀ c a, c ≠ s.me.1 → t.poolByte c a = s.poolByte c a) ∧
        (∃ p, t.cx.pend = s.cx.pend ++ [p] ∧ p.dest = dest ∧ p.tag = s.cx.nextTag ∧ p.left = 1 ∧ p.got = 0) ∧
        ∃ l : Line, (∀ k < n, el 8 l (ea.toNat % 64 + k) = byte k) ∧ t.chan = s.chan ++ [{ born := s.now, body := .reply {
          dst := s.whoMe, tag := s.cx.nextTag, data := l, flags := 0, fault := none, lane := none } }]))

/-- R191, R196, R198, R214: what has to wait for the thread's own stores parks its thread and has them drained.
R197, R199, R214: once everything has drained, STREL takes a free journal entry and sends its store, whose acknowledgement is a long result
with no destination; PREF asks for its lines and waits for none. -/
def Obligations.Drains : Prop :=
  ((∀ (i : Instr) (s : State) (am : Mode) (base idx : Word) (disp : BitVec 16) (n : Nat) (ea : Word), waitsForOverlap i = true →
     operandOf s.cx.regs i = some (am, base, idx, disp, n) → Clear i s = true → soundAt am base idx disp n = some ea →
     (am = .l ∨ storeForm s i = none) → s.gateOk am ea n = true → s.clearOf am ea n = false →
     ∃ t k, exec i s = .next t ∧ t.cx.run = .parked .sync (.clearOf [spanOf s.me.1 am ea n]) k false ∧
       t.cx.want = .overlap [spanOf s.me.1 am ea n] ∧ t.cx.regs = s.cx.regs ∧ t.cx.pc = s.cx.pc ∧ t.chan = s.chan ∧ t.mem = s.mem) ∧
   (∀ h sz d m ea s, Clear (.strel h sz d m) s = true → s.soundEa m (stN sz) = some ea → s.gateOk m.am ea (stN sz) = true →
     s.isDrained s.me.1 s.me.2 = false →
     ∃ t k, exec (.strel h sz d m) s = .next t ∧ t.cx.run = .parked .sync .drained k false ∧ t.cx.want = .all ∧
       t.cx.regs = s.cx.regs ∧ t.cx.pc = s.cx.pc ∧ t.chan = s.chan ∧ t.mem = s.mem)) ∧
  ((∀ h sz d m ea j s, Clear (.strel h sz d m) s = true → m.am ≠ .l → s.soundEa m (stN sz) = some ea → s.isDrained s.me.1 s.me.2 = true →
     s.mine.freeJ = some j →
     let off := ea.toNat % 64
     let e := s.entry m.am ea (atByte off ((s.cx.regs.getG d).toNat % 2 ^ (8 * stN sz))) (byteMask off (stN sz)) false
     ∃ t, exec (.strel h sz d m) s = .next t ∧ t.cx.regs = s.cx.regs ∧ t.cx.pc = s.cx.npc ∧ t.mem = s.mem ∧
       t.chan = s.chan ++ [{ born := s.now, body := .req (storeReq s.me.1 s.asker e j) }] ∧
       (t.mine.jent j).st = .inFlight ∧ (t.mine.jent j).data = e.data ∧ (t.mine.jent j).mask = e.mask ∧
       (t.mine.jent j).tag = some s.cx.nextTag ∧
       ∃ p, t.cx.pend = s.cx.pend ++ [p] ∧ p.dest = .none ∧ p.tag = s.cx.nextTag ∧ p.left = 1) ∧
   (∀ h d m s, Clear (.pref h d m) s = true →
     let n := min (s.cx.regs.getG d).toNat 16
     (n = 0 → exec (.pref h d m) s = .next s.pass) ∧
     (∀ ea, n ≠ 0 → s.soundEa m 1 = some ea →
       exec (.pref h d m) s = .next (if partPair s.cx.part then s.pass
         else ((List.range n).foldl (fun t i => t.prefLine (lineAfter ea i)) s).pass))) ∧
   (∀ (s : State) (va : Word), (s.prefLine va).cx.regs = s.cx.regs ∧
     (s.mine.snapFind s.cx.tenant (fld va 56 6) = none → (s.prefLine va).chan = s.chan ++ [{ born := s.now, body := .req {
       who := s.asker, place := .glob va, op := .pref, tag := s.cx.nextTag, lane := none } }]) ∧
     (s.mine.snapFind s.cx.tenant (fld va 56 6) ≠ none → s.prefLine va = s)))

/-! ### Coordinate volumes -/

/-- R246, R249, R250, R255 to R261: the volume instructions on an entry that the core holds. Inside the bounds they ask the cluster's walker,
and those that park wait for it; outside, a read gives the background at once, CPROBE and CTILE give 0, and CCLR does nothing. -/
def Obligations.Volumes : Prop :=
  (∀ h tid d a b disp e s, Clear (.cld h tid d a b disp) s = true → heldVolume s tid = some e →
    let c := s.cx.regs.getG a
    c.getLsbD 63 = false →
    ∃ t, exec (.cld h tid d a b disp) s = .next t ∧
      (insideVol e c → farLong s t (.g d .d 0) .unit (.walk 0 tid e c (channelOf s.cx.regs b disp) 1 s.cx.sb false)) ∧
      (¬insideVol e c → ownLong s t (.g d .d 0) ((volBackG e).setWidth 512) 0)) ∧
  (∀ h tid d a b disp e s, Clear (.cvld h tid d a b disp) s = true → heldVolume s tid = some e →
    let c := s.cx.regs.getG a
    let n := 64 / volBytes e
    c.getLsbD 63 = false →
    ∃ t, exec (.cvld h tid d a b disp) s = .next t ∧
      (insideVol e c → farLong s t (.v d (BitVec.allOnes 64)) .unit (.walk 0 tid e c (channelOf s.cx.regs b disp) n s.cx.sb false)) ∧
      (¬insideVol e c → ∃ l : Line, (∀ j < n, el (8 * volBytes e) l j = BitVec.ofNat _ (volBack e)) ∧
        ownLong s t (.v d (BitVec.allOnes 64)) l 0)) ∧
  (∀ (i : Instr) (s : State) (tid : BitVec 8) (a b : GReg) (disp : BitVec 16) (e : Line) (data : Line) (n : Nat),
    ((∃ h d, i = .cst h tid d a b disp ∧ data = (s.cx.regs.getG d).setWidth 512 ∧ n = 1) ∨
     (∃ h d, i = .cvst h tid d a b disp ∧ data = s.cx.regs.getV d ∧ n = 64 / volBytes e)) →
    Clear i s = true → heldVolume s tid = some e →
    let c := s.cx.regs.getG a
    let ch := channelOf s.cx.regs b disp
    c.getLsbD 63 = false →
    (insideVol e c ∧ 0 ≤ ch ∧ ch < volChans e →
      exec i s = .next (asksWalker s 1 tid e c ch (.cst e c ch data n))) ∧
    (¬(insideVol e c ∧ 0 ≤ ch ∧ ch < volChans e) → s.cx.hnd = false → s.cx.regs.trapvec ≠ 0 →
      ∃ t, exec i s = .next t ∧ traps s t VOL_BOUNDS c 0)) ∧
  (∀ h tid d a e s, Clear (.cprobe h tid d a) s = true → heldVolume s tid = some e →
    let c := s.cx.regs.getG a
    c.getLsbD 63 = false →
    ∃ t, exec (.cprobe h tid d a) s = .next t ∧
      (insideVol e c → farLong s t (.g d .d 0) .unit (.walk 2 tid e c 0 0 s.cx.sb false)) ∧ (¬insideVol e c → ownLong s t (.g d .d 0) 0 0)) ∧
  (∀ h tid a e s, Clear (.cclr h tid a) s = true → heldVolume s tid = some e →
    let c := s.cx.regs.getG a
    c.getLsbD 63 = false →
    (¬insideVol e c → exec (.cclr h tid a) s = .next s.pass) ∧
    (insideVol e c → exec (.cclr h tid a) s = .next (asksWalker s 8 tid e c 0 (.cclr {
      who := s.asker, place := .unit, op := .walk 7 tid e c 0 0 s.cx.sb false, tag := 0, lane := none })))) ∧
  (∀ h tid d a e s, Clear (.ctileFind h tid d a) s = true → heldVolume s tid = some e →
    let c := s.cx.regs.getG a
    c.getLsbD 63 = false →
    (insideVol e c → exec (.ctileFind h tid d a) s = .next (asksWalker s 3 tid e c 0 (.got (.g d .d 0) false))) ∧
    (¬insideVol e c → exec (.ctileFind h tid d a) s = .next (s.wrG d 0).pass)) ∧
  (∀ h tid d a e s, Clear (.ctileDetach h tid d a) s = true → heldVolume s tid = some e →
    let c := s.cx.regs.getG a
    c.getLsbD 63 = false →
    (insideVol e c → exec (.ctileDetach h tid d a) s = .next (asksWalker s 4 tid e c 0 (.got (.g d .d 0) false))) ∧
    (¬insideVol e c → exec (.ctileDetach h tid d a) s = .next (s.wrG d 0).pass)) ∧
  (∀ h tid a e s, Clear (.ctilePtile h tid a) s = true → heldVolume s tid = some e →
    let b := s.cx.regs.getG a
    b.getLsbD 57 = false → b.toNat % 64 = 0 → exec (.ctilePtile h tid a) s = .next (asksWalker s 5 tid e b 0 (.got .none false))) ∧
  (∀ h tid a e s, Clear (.ctilePnode h tid a) s = true → heldVolume s tid = some e →
    let b := s.cx.regs.getG a
    b.getLsbD 57 = false → b.toNat % 4096 = 0 → exec (.ctilePnode h tid a) s = .next (asksWalker s 6 tid e b 0 (.got .none false))) ∧
  (∀ h tid e s, Clear (.clbinv h tid) s = true → heldVolume s tid = some e →
    let cs := s.coresOf s.cx.launch
    exec (.clbinv h tid) s = .next (if cs.isEmpty then (s.longValue (s.newPend .none) 0 0).pass
      else ((s.addPend { s.newPend .none with left := cs.length }).sendAll
        (cs.map fun c => .clbinv c s.whoMe s.cx.nextTag s.cx.launch.toNat tid false)).pass))

/-! ### Copies, streams, buffers, gathers -/

/-- R219, R268, R269, R272 to R274, R284, R289, R313: the copy unit's instructions with sound operands, everything stored and every earlier
kick having been acknowledged: what they change in the core's tables, and the operation that goes to the unit. -/
def Obligations.CopyUnit : Prop :=
  (∀ h dk sk d a b c s, Clear (.cpy h dk sk d a b c) s = true →
    let r := s.cx.regs
    copySound s dk sk (r.getG a) (r.getG b) (r.getG c) = true →
    let n := (r.getG c).toNat
    let x := s.mine.handle d
    (x.busy = true → exec (.cpy h dk sk d a b c) s = .next (s.park .sync (.idle d) (.cpy dk sk d (r.getG a) (r.getG b) n))) ∧
    (x.busy = false → x.fault = none → s.maySend = true →
      ∃ t, exec (.cpy h dk sk d a b c) s = .next t ∧ farLong s t .none .unit (.kick (.cpy dk sk d (r.getG a) (r.getG b) n)) ∧
        (t.mine.handle d).busy = true ∧ (t.mine.handle d).fault = none ∧
        ∀ j < 64, (t.mine.handle d).bits.getLsbD j = decide ((n + 511) / 512 ≤ j))) ∧
  (∀ h a b s, Clear (.cpyw h a b) s = true →
    let m := s.cx.regs.getG b
    let x := s.mine.handle a
    x.fault = none →
    exec (.cpyw h a b) s = .next (if x.bits &&& m = m then (s.snapEmpty s.me.1).pass else s.park .sync (.mask a m) (.cpyw a))) ∧
  (∀ h d a b s, Clear (.cpyt h d a b) s = true →
    let m := s.cx.regs.getG b
    let x := s.mine.handle a
    x.fault = none →
    exec (.cpyt h d a b) s = .next (if x.bits &&& m = m then ((s.wrG d m).snapEmpty s.me.1).pass else (s.wrG d (x.bits &&& m)).pass)) ∧
  (∀ h die d a b c total s, Clear (.deal h die d a b c total) s = true →
    let r := s.cx.regs
    dealSound die (r.getG a) (r.getG b) total.toNat = true → s.maySend = true →
    ∃ t, exec (.deal h die d a b c total) s = .next t ∧
      farLong s t .none .unit (.kick (.deal die d (r.getG a) (r.getG b) (r.getG c) total.toNat))) ∧
  (∀ h i64 pm lm tid d a b c s, Clear (.get h i64 pm lm tid d a b c) s = true →
    let r := s.cx.regs
    gatherSound i64 pm lm (r.getG a) (r.getG b) (r.getG c) = true → s.maySend = true →
    ∃ t, exec (.get h i64 pm lm tid d a b c) s = .next t ∧
      farLong s t .none .unit (.kick (.gather false i64 pm lm 0 tid d (r.getG a) (r.getG b) (r.getG c).toNat))) ∧
  (∀ h i64 pm lm cmb tid d a b c s, Clear (.put h i64 pm lm cmb tid d a b c) s = true →
    let r := s.cx.regs
    gatherSound i64 pm lm (r.getG a) (r.getG b) (r.getG c) = true → s.maySend = true →
    ∃ t, exec (.put h i64 pm lm cmb tid d a b c) s = .next t ∧
      farLong s t .none .unit (.kick (.gather true i64 pm lm cmb tid d (r.getG a) (r.getG b) (r.getG c).toNat))) ∧
  (∀ h sub d a b s, Clear (.gpwait h sub d a b) s = true →
    let target := (s.cx.regs.getG b).setWidth 32
    let x := s.mine.counter a
    (satisfied x.n target = false → exec (.gpwait h sub d a b) s = .next (s.park .sync (.counter a target) (.gpwait sub d a target))) ∧
    (satisfied x.n target = true → x.fault = none →
      exec (.gpwait h sub d a b) s = .next ((if sub
        then (s.wrG d (x.n.setWidth 64)).setCounter a { x with n := x.n - target }
        else s.wrG d (x.n.setWidth 64)).snapEmpty s.me.1).pass))

/-- R275, R276, R278: SARM arms a stream register and tells the copy unit; SDROP of a read stream leaves its last strip, of a write stream tells
the unit to drain it, and of no stream does nothing.
R276, R277: a lane-guarded instruction whose source is an armed read stream pops the strip that has landed and reads it, or parks for it; one
that writes an armed write stream pushes the bytes it has written to the next pattern address. -/
def Obligations.Streams : Prop :=
  ((∀ h wr n2 n1 n0 tid d b c s, Clear (.sarm h wr n2 n1 n0 tid d b c) s = true →
     let st := streamOf wr n2 n1 n0 tid (s.cx.regs.getG b) (s.cx.regs.getG c)
     st.start.toNat % 64 = 0 → st.p1.toNat % 64 = 0 → st.p2.toNat % 64 = 0 → 24 ≤ d.toNat → s.cx.part.getLsbD 10 = true →
     tget s.cx.streams d.toNat = none → s.maySend = true →
     ∃ t, exec (.sarm h wr n2 n1 n0 tid d b c) s = .next t ∧ farLong s t .none .unit (.kick (.sarm d)) ∧
       t.cx.streams = tset s.cx.streams d.toNat st) ∧
   (∀ h a s, Clear (.sdrop h a) s = true → tget s.cx.dropRec a.toNat = none →
     (tget s.cx.streams a.toNat = none → exec (.sdrop h a) s = .next s.pass) ∧
     (∀ st, tget s.cx.streams a.toNat = some st →
       (st.wr = false → exec (.sdrop h a) s =
         .next ((s.onCx fun c => { c with streams := tdel c.streams a.toNat }).onRegs fun r => r.setV a st.last).pass) ∧
       (st.wr = true → st.fault = none →
         ∃ t, exec (.sdrop h a) s = .next t ∧ farLong s t .none .unit (.kick (.sdrop a st)) ∧
           t.cx.streams = tdel s.cx.streams a.toNat)))) ∧
  ((∀ (i : Instr) (s : State) (v : VReg) (st : Stream) (l : Line) (rest : List (Line × Option RFault)) (w : Nat) (d : VReg)
       (res : Nat → Nat × BitVec 6),
     let r := s.cx.regs.setV v l
     Able i s = true → v ∈ (usesOf i).vs → (∀ x ∈ (usesOf i).vs ++ (usesOf i).dv, x ≠ v → tget s.cx.streams x.toNat = none) →
     v ∉ (usesOf i).dv → tget s.cx.streams v.toNat = some st → st.wr = false → st.ready = true → st.ahead = (l, none) :: rest →
     vLanes r i = some (w, d, res) →
     ∃ (t : State) (q : Line), lanesInto w (r.gmask (usesOf i).h) (r.getV d) res q ∧ exec i s = .next t ∧
       t.cx.regs = (r.setV d q).raise (flagsOf (sel w (r.gmask (usesOf i).h)) (fun n => (res n).2) (512 / w)) ∧ t.cx.pc = s.cx.npc ∧
       t.cx.streams = tset s.cx.streams v.toNat { st with ahead := rest, next := st.next + 1, last := l }) ∧
   (∀ (i : Instr) (s : State) (v : VReg) (st : Stream), Able i s = true → (usesOf i).vs.head? = some v →
     tget s.cx.streams v.toNat = some st → st.wr = false → (st.ready = false ∨ st.ahead = [] ∧ st.fault = none ∧ st.next < st.total) →
     exec i s = .next (s.park .sync (.strip v) .again true)) ∧
   (∀ (i : Instr) (s : State) (w : Nat) (d : VReg) (res : Nat → Nat × BitVec 6) (st : Stream), Able i s = true →
     vLanes s.cx.regs i = some (w, d, res) → noStream s.cx (usesOf i).vs = true → tget s.cx.streams d.toNat = some st → st.wr = true →
     st.ready = true → st.next < st.total →
     ∃ (t : State) (q : Line), lanesInto w (s.cx.regs.gmask (usesOf i).h) (s.cx.regs.getV d) res q ∧ exec i s = .next t ∧
       t.cx.regs.getV d = q ∧ t.cx.pc = s.cx.npc ∧
       t.cx.streams = tset s.cx.streams d.toNat { st with
         next := st.next + 1, out := st.out ++ [(st.off st.next, q, laneBytes (s.cx.regs.gmask (usesOf i).h) 16)] }))

/-- R280, R281: CBSET with sound words sets the buffer; CBRSV and CBACQ take a stage, give its address and move on the index, or park where
there is none; CBCMT and CBREL pass a stage on, to the partner's core where the role says so. -/
def Obligations.CircularBuffers : Prop :=
  (∀ h d a b s, Clear (.cbset h d a b) s = true → bufferSound s d (s.cx.regs.getG a) (s.cx.regs.getG b) = true →
    exec (.cbset h d a b) s = .next (s.setBuf d (bufferOf (s.cx.regs.getG a) (s.cx.regs.getG b))).pass) ∧
  (∀ h d a s, Clear (.cbrsv h d a) s = true →
    let q := s.mine.cb a.toNat
    (q.role = 1 ∨ q.role = 3) → q.lost = false →
    exec (.cbrsv h d a) s = .next (
      if q.free = 0 then s.park .sync (.cbFree a) (.cbrsv d a)
      else ((s.setBuf a { q with free := q.free - 1, pidx := (q.pidx + 1) % q.count, reserved := q.reserved + 1 }).wrG d
        (BitVec.ofNat 64 (q.base + q.pidx * q.size + if q.role = 3 then q.core * 2 ^ 16 else 0))).pass)) ∧
  (∀ h a s, Clear (.cbcmt h a) s = true →
    let q := s.mine.cb a.toNat
    (q.role = 1 ∨ q.role = 3) → q.lost = false → q.reserved ≠ 0 → s.isDrained s.me.1 s.me.2 = true →
    let t := s.setBuf a { q with reserved := q.reserved - 1, filled := if q.role = 1 then q.filled + 1 else q.filled }
    exec (.cbcmt h a) s = .next (if q.role = 3 then (t.send (.fill q.pcore q.pcb)).pass else t.pass)) ∧
  (∀ h d a s, Clear (.cbacq h d a) s = true →
    let q := s.mine.cb a.toNat
    q.role ≤ 2 → q.lost = false →
    exec (.cbacq h d a) s = .next (
      if q.filled = 0 then s.park .sync (.cbFilled a) (.cbacq d a)
      else (((s.setBuf a { q with filled := q.filled - 1, cidx := (q.cidx + 1) % q.count, acquired := q.acquired + 1 }).wrG d
        (BitVec.ofNat 64 (q.base + q.cidx * q.size))).snapEmpty s.me.1).pass)) ∧
  (∀ h a s, Clear (.cbrel h a) s = true →
    let q := s.mine.cb a.toNat
    q.role ≤ 2 → q.lost = false → q.acquired ≠ 0 →
    let t := s.setBuf a { q with acquired := q.acquired - 1, free := if q.role ≤ 1 then q.free + 1 else q.free }
    exec (.cbrel h a) s = .next (if q.role = 2 then (t.send (.stageFree q.pcore q.pcb)).pass else t.pass))

/-! ### Tiles -/

/-- R219, R298, R303, R313, R322 to R326: the tile instructions with sound operands: CARD seals its card and kicks it to its unit; CWAIT asks and parks;
the slot instructions act on the core's slots; TDSET and TDGET on the tensor table.
R187, R297, R307, R325: ACLR clears a tile; ALD puts a unit's elements into one, and AST writes a tile's valid elements through the
epilogue: here from and to the core's own pool, where no card names the tile, everything stored having drained. -/
def Obligations.TilesAndSlots : Prop :=
  ((∀ h lvl a s, Clear (.card h lvl a) s = true →
     let card := s.cx.regs.getV a
     let n := match lvl with | .L1 => 1 | .L2 => 2 | .L3 => 3 | .L4 => 4 | .L5 => 5
     let seq := tgetD s.mine.seqs n 0
     badCard card n s.holdsSlot (partAcc s.cx.part) = none → s.maySend = true →
     ∃ t, exec (.card h lvl a) s = .next t ∧ farLong s t .none .unit (.kick (.card lvl (sealCard card seq))) ∧
       t.mine.seqs = tset s.mine.seqs n ((seq + 1) % 2 ^ 31)) ∧
   (∀ h d a s, Clear (.cwait h d a) s = true →
     let p := s.cx.regs.getG a
     p.getLsbD 57 = false → p.toNat % 16 = 0 →
     exec (.cwait h d a) s = .next (((s.onCx fun c => { c with nextTag := s.cx.nextTag + 1 }).send (.req {
       who := s.asker, place := .glob p, op := .cwait, tag := s.cx.nextTag, lane := none })).park
         .sync (.reply s.cx.nextTag) (.got (.g d .d (p.toNat % 64)) true))) ∧
   (∀ h d a s, Clear (.oclaim h d a) s = true →
     let n := (s.cx.regs.getG a).toNat
     1 ≤ n → n ≤ 32 →
     let id := s.mine.nextClaim
     exec (.oclaim h d a) s = .next ((s.onMine fun k => { k with
       nextClaim := id + 1, claims := k.claims ++ [{ id := id, who := some s.whoMe, n := n, card := 0, granted := none }] }).park
         .sync (.claim id) (.oclaim d id))) ∧
   (∀ h a s, Clear (.orel h a) s = true →
     let m := s.cx.regs.getG a
     (∀ i < 32, m.getLsbD i = true → s.holdsSlot i = true) →
     ∃ t, exec (.orel h a) s = .next t ∧ t.cx = { s.cx with pc := s.cx.npc } ∧ t.mem = s.mem ∧ t.chan = s.chan ∧
       ∀ i < 32, t.mine.slot i = if m.getLsbD i
         then (if s.slotBusy s.me.1 i then { by' := .ctx s.whoMe, pending := true } else { by' := .free, pending := false })
         else s.mine.slot i) ∧
   (∀ h d a b s, Clear (.ofill h d a b) s = true →
     let u := (s.cx.regs.getG b).toNat
     u ≤ 16 → s.holdsSlot d.toNat = true →
     (s.slotBusy s.me.1 d.toNat = true →
       exec (.ofill h d a b) s = .next (s.park .sync (.unnamed d) (.ofill d (s.cx.regs.getV a) u))) ∧
     (s.mine.memWf = true → s.slotBusy s.me.1 d.toNat = false → ∃ t, exec (.ofill h d a b) s = .next t ∧ t.cx = { s.cx with pc := s.cx.npc } ∧ t.mem = s.mem ∧
       ∀ x, rdByte t.mine.opmem x = if d.toNat * 2048 + 64 * u ≤ x ∧ x < d.toNat * 2048 + 64 * u + 64
         then el 8 (s.cx.regs.getV a) (x - (d.toNat * 2048 + 64 * u)) else rdByte s.mine.opmem x)) ∧
   (∀ h tid a j s, Clear (.tdset h tid a) s = true → s.isDrained s.me.1 s.me.2 = true → s.mine.freeJ = some j →
     let e := { s.entry .g (s.tdVa tid) (s.cx.regs.getV a) (BitVec.allOnes 64) false with line := s.tdVa tid }
     ∃ t, exec (.tdset h tid a) s = .next t ∧ t.cx.regs = s.cx.regs ∧ t.cx.pc = s.cx.npc ∧ t.mem = s.mem ∧
       t.chan = s.chan ++ [{ born := s.now, body := .req (storeReq s.me.1 s.asker e j) }] ∧
       (t.mine.jent j).st = .inFlight ∧ (t.mine.jent j).data = s.cx.regs.getV a ∧
       (∀ v ∈ t.mine.vols, ¬(v.launch = s.cx.launch.toNat ∧ v.tid = tid)) ∧
       ∃ p, t.cx.pend = s.cx.pend ++ [p] ∧ p.dest = .none ∧ p.tag = s.cx.nextTag ∧ p.left = 1) ∧
   (∀ h tid d s, Clear (.tdget h tid d) s = true →
     ∃ t, exec (.tdget h tid d) s = .next t ∧ farLong s t (.v d (BitVec.allOnes 64)) (.glob (s.tdVa tid)) (.load 64 false))) ∧
  ((∀ h d s, Clear (.aclr h d) s = true → s.mine.memWf = true → s.tileBusy s.me.1 d.toNat = false →
     ∃ t, exec (.aclr h d) s = .next t ∧ t.cx = { s.cx with pc := s.cx.npc } ∧ t.mem = s.mem ∧
       t.mine.accVals d.toNat = List.replicate 1024 0 ∧
       ∀ x, (x < s.mine.accBase d.toNat ∨ s.mine.accBase d.toNat + 4096 ≤ x) → t.poolByte s.me.1 x = s.poolByte s.me.1 x) ∧
   (∀ h f d a s, Clear (.ald h .l f d a) s = true → s.mine.memWf = true →
     let src := (s.cx.regs.getG a).toNat
     src < 2 ^ 16 → src % 64 = 0 → s.tileBusy s.me.1 d.toNat = false → s.isDrained s.me.1 s.me.2 = true →
     (∀ i < unitBytes f / 64, s.localOk (src + 64 * i) 64 .r = true) →
     ∃ t, exec (.ald h .l f d a) s = .next t ∧ t.cx = { s.cx with pc := s.cx.npc } ∧ t.mem = s.mem ∧
       (∀ r < 32, ∀ c < 32, (t.mine.accVals d.toNat)[32 * r + c]? =
         some (unitElem f (fun o => (s.poolByte s.me.1 (src + o)).toNat) r c)) ∧
       ∀ x, (x < s.mine.accBase d.toNat ∨ s.mine.accBase d.toNat + 4096 ≤ x) → t.poolByte s.me.1 x = s.poolByte s.me.1 x) ∧
   (∀ h f act vr1 vc1 a b c s, Clear (.ast h .l f act vr1 vc1 a b c) s = true → s.mine.memWf = true →
     let dst := (s.cx.regs.getG b).toNat
     let bias := c.map fun g => (s.cx.regs.getG g).toNat
     dst < 2 ^ 16 → dst % 64 = 0 → (∀ p, bias = some p → p < 2 ^ 16 ∧ p % 64 = 0 ∧ ∀ i < 2, s.localOk (p + 64 * i) 64 .r = true) →
     s.tileBusy s.me.1 a.toNat = false → s.isDrained s.me.1 s.me.2 = true →
     (∀ i < unitBytes f / 64, s.localOk (dst + 64 * i) 64 .w = true) →
     ∃ t, exec (.ast h .l f act vr1 vc1 a b c) s = .next t ∧ t.cx = { s.cx with pc := s.cx.npc } ∧ t.mem = s.mem ∧
       (∀ x, (x < dst ∨ dst + unitBytes f ≤ x) → t.poolByte s.me.1 x = s.poolByte s.me.1 x) ∧
       (f = .f32 → ∀ r < 32, ∀ q < 32, ∀ k < 4, t.poolByte s.me.1 (dst + 128 * r + 4 * q + k) =
         if r ≤ vr1.toNat ∧ q ≤ vc1.toNat
         then BitVec.ofNat 8 (epilogue act.toNat (bias.map fun p => leNat (fun j => s.poolByte s.me.1 (p + 4 * q + j)) 4)
           ((s.mine.accVals a.toNat)[32 * r + q]?.getD 0) / 256 ^ k)
         else s.poolByte s.me.1 (dst + 128 * r + 4 * q + k))))

/-! ### The fabric -/

/-- R192, R335 to R339: the fabric instructions: the request goes to the member that the selector names, or to this device's own homes; a PPUT is
a buffered store; FBAR arrives at the group's barrier and parks. -/
def Obligations.FabricAccess : Prop :=
  (∀ h f a b disp ea s, Clear (.pget h f a b disp) s = true →
    let n := match f with | .g sz _ => ldN sz | .v _ => 64
    let d : Dest := match f with | .g sz r => .g r sz (ea.toNat % 64) | .v r => .v r (laneBytes (s.cx.regs.gmask h) 16)
    soundAt .g (s.cx.regs.getG a) 0 disp n = some ea →
    let peer := namedPeer s (s.cx.regs.getG b)
    let w := forward s.me.1 (peerSpan peer ea n) s.cx.sb 0 0
    ∃ t, exec (.pget h f a b disp) s = .next t ∧ farLong s t d (peerPlace peer ea) (.load n false) ∧
      ∃ p, t.cx.pend = s.cx.pend ++ [p] ∧ p.fwd = w.1 ∧ p.fmask = w.2) ∧
  (∀ h f a b disp ea s, Clear (.pput h f a b disp) s = true →
    let n := match f with | .g sz _ => stN sz | .v _ => 64
    let off := ea.toNat % 64
    soundAt .g (s.cx.regs.getG a) 0 disp n = some ea →
    let e : SbEnt := { (match f with
      | .g sz r => s.entry .g ea (atByte off ((s.cx.regs.getG r).toNat % 2 ^ (8 * stN sz))) (byteMask off (stN sz)) false
      | .v r => s.entry .g ea (s.cx.regs.getV r) (laneBytes (s.cx.regs.gmask h) 16) false) with peer := namedPeer s (s.cx.regs.getG b) }
    ∀ sb, bufStore s.mine s.me.1 s.cx e = some sb → exec (.pput h f a b disp) s = .next (s.onCx fun c => { c with sb := sb }).pass) ∧
  (∀ h wd op d a b disp ea s, Clear (.patom h wd op d a b disp) s = true →
    let n := match wd with | .w => 4 | .d => 8
    soundAt .g (s.cx.regs.getG a) 0 disp n = some ea →
    let peer := namedPeer s (s.cx.regs.getG b)
    s.isClear s.me.1 s.me.2 [peerSpan peer ea n] = true →
    ∃ t, exec (.patom h wd op d a b disp) s = .next t ∧
      farLong s t (.g d (match wd with | .w => .w | .d => .d) (ea.toNat % 64)) (peerPlace peer ea)
        (.atom op wd (s.cx.regs.getG d) (s.cx.regs.getG (d + 1)))) ∧
  (∀ h a b s, Clear (.fbar h a b) s = true →
    let g := (s.cx.regs.getG a).toNat % 2 ^ 8
    let n := (s.cx.regs.getG b).toNat % 2 ^ 32
    let w := s.fgroup g
    let q := s.fbar g
    fgOk w s.cx.tenant = true → fgRank w < fgSize w → 1 ≤ n → n ≤ 2 ^ 24 → (q.count = 0 ∨ q.count = n) → s.isDrained s.me.1 s.me.2 = true →
    ∃ t, exec (.fbar h a b) s = .next t ∧ t.cx.run = .parked .group (.reply s.cx.nextTag) .fbarDone false ∧ t.cx.regs = s.cx.regs ∧
      t.cx.pc = s.cx.pc ∧ (t.fbar g).count = n ∧ (t.fbar g).local' = q.local' ++ [(s.whoMe, s.cx.nextTag)] ∧
      (t.fbar g).ranks = (if q.local'.length + 1 = n then q.ranks ++ [fgRank w] else q.ranks) ∧ ∀ x, x ≠ g → t.fbar x = s.fbar x)

/-- R335, R339: FBAR of a group that the tenant may not use takes PEER_USE 1, and with a count that is out of range or not the barrier's takes
PEER_USE 2.
R373: the journal instructions refuse an entry of another thread in thread mode, and JNLCLR an entry that is not refused.
R374: what CTXSV and CTXLD refuse before they read a frame. -/
def Obligations.SystemMisuse : Prop :=
  (∀ h a b s, Clear (.fbar h a b) s = true → s.cx.hnd = false → s.cx.regs.trapvec ≠ 0 →
     let g := (s.cx.regs.getG a).toNat % 2 ^ 8
     let n := (s.cx.regs.getG b).toNat % 2 ^ 32
     let q := s.fbar g
     let bad := n = 0 ∨ 2 ^ 24 < n ∨ (q.count ≠ 0 ∧ q.count ≠ n)
     (bad → ∃ t, exec (.fbar h a b) s = .next t ∧ traps s t PEER_USE 0 2) ∧
     (¬bad → fgOk (s.fgroup g) s.cx.tenant = false → s.isDrained s.me.1 s.me.2 = true →
       ∃ t, exec (.fbar h a b) s = .next t ∧ traps s t PEER_USE 0 1)) ∧
  (∀ (i : Instr) (s : State) (a : GReg), ((∃ h w d, i = .jnlrd h w d a) ∨ (∃ h, i = .jnlclr h a) ∨ (∃ h, i = .jnlclrResend h a)) →
     Clear i s = true → s.cx.hnd = false → s.cx.regs.trapvec ≠ 0 →
     let j := (s.cx.regs.getG a).toNat % 64
     let e := s.mine.jent j
     (mayUseEntry s e = false → ∃ t, exec i s = .next t ∧ traps s t JNL_USE (BitVec.ofNat 64 j) 1) ∧
     (mayUseEntry s e = true → e.st ≠ .refused → (∀ h w d, i ≠ .jnlrd h w d a) →
       ∃ t, exec i s = .next t ∧ traps s t JNL_USE (BitVec.ofNat 64 j) 2)) ∧
  ((∀ h a b s, Clear (.ctxsv h a b) s = true → s.cx.hnd = false → s.cx.regs.trapvec ≠ 0 →
     let frame := s.cx.regs.getG a
     let x := (s.cx.regs.getG b).toNat % 32
     let ok := frame.getLsbD 57 = false ∧ frame.toNat % 4096 = 0
     (¬ok → ∃ t, exec (.ctxsv h a b) s = .next t ∧ traps s t MISALIGN frame 0) ∧
     (ok → (x = s.me.2 ∨ partCtx s.cx.part ≤ x / 8) → ∃ t, exec (.ctxsv h a b) s = .next t ∧ traps s t CTX_USE frame 1) ∧
     (ok → x ≠ s.me.2 → x / 8 < partCtx s.cx.part → (s.ctx s.me.1 x).run = .free →
       ∃ t, exec (.ctxsv h a b) s = .next t ∧ traps s t CTX_USE frame 2)) ∧
   (∀ h a b s, Clear (.ctxld h a b) s = true → s.cx.hnd = false → s.cx.regs.trapvec ≠ 0 →
     let frame := s.cx.regs.getG a
     let x := (s.cx.regs.getG b).toNat % 32
     frame.getLsbD 57 = false → frame.toNat % 4096 = 0 → (s.ctx s.me.1 x).run ≠ .free →
     ∃ t, exec (.ctxld h a b) s = .next t ∧ traps s t CTX_USE frame 3))

/-! ### System instructions -/

/-- R349, R369: TRAP takes TRAP_INSN with its code.
R353, R370: ERET in a handler, with nothing outstanding but records already reported, clears HND, resends the records in order and
resumes at the saved PC; ERET.next drops the records with their results and resumes past the issue there. -/
def Obligations.TrapsAndReturns : Prop :=
  (∀ (h : Hdr) (code : BitVec 8) (s : State), Clear (.trap h code) s = true → s.cx.hnd = false → s.cx.regs.trapvec ≠ 0 →
     ∃ t, exec (.trap h code) s = .next t ∧ traps s t TRAP_INSN 0 code.toNat) ∧
  ((∀ h s, s.returns (.eret h) = true →
     let p := s.cx.pend.map fun q => if s.cx.replay.any (fun r => r.tag == q.tag) then { q with left := q.reqs.length, got := 0, xs := 0xFFFF } else q
     exec (.eret h) s = .next (((s.cx.replay.flatMap fun r => (s.cx.pend.find? fun q => q.tag == r.tag).elim [] Pend.reqs).foldl State.sendReq
       (s.onCx fun c => { c with replay := [], pend := p })).onCx fun c =>
         { c with hnd := false, pc := c.trappc, npc := c.trappc, entry := false })) ∧
   (∀ h s, s.returns (.eretNext h) = true →
     let pc := pcAfter s.cx.trappc (if s.cx.trapinfo.getLsbD 17 then 2 else 1)
     exec (.eretNext h) s = .next (s.onCx fun c => { c with
       replay := [], pend := s.cx.pend.filter fun q => !s.cx.replay.any (fun r => r.tag == q.tag)
       hnd := false, pc := pc, npc := pc, entry := false, bpPass := [] })))

/-- R185, R186, R371: CSRW writes a core register's writable bits from the core's next turn on, CSRR reads one.
R230, R372: TLBINV sends an invalidation of its scope to every stop and every CLB walker, whose acknowledgements it awaits as one long result.
R357, R373: JNLRD reads a word of an entry, JNLCLR frees a refused one, JNLCLR.resend sends its store again for the issuing thread.
R375: FENCEI drops the fetched lines that the core holds. -/
def Obligations.SystemRegisters : Prop :=
  (∀ h r a s, Clear (.csrw h r a) s = true →
    exec (.csrw h r a) s = .next (s.onMine fun k => { k with csrs := k.csrs ++ [(r, s.cx.regs.getG a)] }).pass) ∧
  (∀ k : Core, k.takeCsrs = { k.csrs.foldl (fun k p => csrWritten k p.1 p.2) k with csrs := [] }) ∧
  (∀ (s : State) (core : Nat), let k := ((s.turnStart core).core core)
    k.csrs = [] ∧ k.policy = (s.core core).takeCsrs.policy ∧ k.wins = (s.core core).takeCsrs.wins ∧ k.fpar = (s.core core).takeCsrs.fpar ∧
    k.stray = (s.core core).takeCsrs.stray ∧ k.xmis = (s.core core).takeCsrs.xmis) ∧
  (∀ h d r s, Clear (.csrr h d r) s = true → exec (.csrr h d r) s = .next (s.wrG d (csrValue s.mine r)).pass) ∧
  (∀ (i : Instr) (s : State) (a b : GReg) (scope : Nat),
    ((∃ h, i = .tlbinvPage h a b ∧ scope = 0) ∨ (∃ h, i = .tlbinvTenant h a b ∧ scope = 1) ∨ (∃ h, i = .tlbinvAll h a b ∧ scope = 2)) →
    Clear i s = true → s.isDrained s.me.1 s.me.2 = true →
    exec i s = .next ((s.addPend { s.newPend .none with left := Config.stops + 512 }).sendAll
      ((upTo (Config.stops + 512)).map fun n =>
        .inval n s.whoMe s.cx.nextTag scope (s.cx.regs.getG a) ((s.cx.regs.getG b).setWidth 16))).pass) ∧
  (∀ h w d a s, Clear (.jnlrd h w d a) s = true → Instr.wf (.jnlrd h w d a) = true →
    let e := s.mine.jent ((s.cx.regs.getG a).toNat % 64)
    mayUseEntry s e = true → exec (.jnlrd h w d a) s = .next (s.wrG d (journalWord e w.toNat)).pass) ∧
  (∀ h a s, Clear (.jnlclr h a) s = true →
    let j := (s.cx.regs.getG a).toNat % 64
    mayUseEntry s (s.mine.jent j) = true → (s.mine.jent j).st = .refused →
    exec (.jnlclr h a) s = .next (s.onMine fun k => { k with jnl := tdel k.jnl j }).pass) ∧
  (∀ h a s, Clear (.jnlclrResend h a) s = true →
    let j := (s.cx.regs.getG a).toNat % 64
    let e := s.mine.jent j
    mayUseEntry s e = true → e.st = .refused →
    ∃ t, exec (.jnlclrResend h a) s = .next t ∧ t.cx = { s.cx with pc := s.cx.npc } ∧ t.mem = s.mem ∧
      (t.mine.jent j).st = .inFlight ∧ (t.mine.jent j).ctx = s.me.2 ∧ (t.mine.jent j).inc = s.cx.inc ∧ (t.mine.jent j).data = e.data ∧
      (t.mine.jent j).mask = e.mask ∧ t.chan = s.chan ++ [{ born := s.now, body := .req (storeReq s.me.1 s.asker e.store j) }]) ∧
  (∀ h s, Clear (.fencei h) s = true → s.isDrained s.me.1 s.me.2 = true →
    exec (.fencei h) s = .next (s.onMine fun k => { k with lines := [] }).pass)

/-- R363, R374: CTXSV of another context that is not free saves it and leaves it free, where the pages of its frame take its stores; CTXLD of
a frame of this core into a free context, whose lines stand readable in memory, restores it under the context's next incarnation. -/
def Obligations.ContextSaves : Prop :=
  (∀ h a b s, Clear (.ctxsv h a b) s = true →
    let frame := s.cx.regs.getG a
    let x := (s.cx.regs.getG b).toNat % 32
    frame.getLsbD 57 = false → frame.toNat % 4096 = 0 → x ≠ s.me.2 → x / 8 < partCtx s.cx.part → (s.ctx s.me.1 x).run ≠ .free →
    s.isDrained s.me.1 s.me.2 = true → s.mine.saves.length + (s.mine.paged.filter fun p => p.2.1.expects).length < 64 →
    (∀ k < 2688, s.takesLine s.asker (ptrAdd frame (64 * k)) 2688 = true) →
    ∃ t, exec (.ctxsv h a b) s = .next t ∧ (t.ctx s.me.1 x).run = .free ∧ t.cx.pc = s.cx.npc ∧
      (tget (t.core s.me.1).frames (saveKey x (s.ctx s.me.1 x).inc)).isSome = true) ∧
  (∀ h a b s, Clear (.ctxld h a b) s = true →
    let frame := s.cx.regs.getG a
    let x := (s.cx.regs.getG b).toNat % 32
    frame.getLsbD 57 = false → frame.toNat % 4096 = 0 → x / 8 < partCtx s.cx.part → (s.ctx s.me.1 x).run = .free →
    ∀ ls : List Line, ls.length = 128 → (∀ k < 128, ∃ l, ls[k]? = some l ∧ s.givesLine s.asker (ptrAdd frame (64 * k)) l = true) →
    let n := fun off len => leNat (fun i => BitVec.ofNat 8 (byteIn ls (off + i))) len
    n 0 4 = 0x46585443 → n 4 2 = 1 → n 16 2 = s.me.1 → s.mine.part = some (BitVec.ofNat 64 (n 48 8)) → s.launchOver (n 8 4) = false →
    (∀ q ∈ s.mine.saves, ¬(q.who.ctx = n 15 1 ∧ q.who.inc.toNat = n 18 2)) → tget s.mine.capHold (x % 8) = none →
    ∃ t, exec (.ctxld h a b) s = .next t ∧ (t.ctx s.me.1 x).run ≠ .free ∧ (t.ctx s.me.1 x).inc = (s.ctx s.me.1 x).inc + 1 ∧
      (t.ctx s.me.1 x).pc.toNat = n 0x18 8 ∧ (t.ctx s.me.1 x).launch.toNat = n 8 4)

/-! ### The scheduler's instructions -/

/-- R385 to R394: the scheduling instructions that read no memory ask the scheduler, their answer being a long result in gD.
R219, R390, R392: those that read memory on the thread's behalf are kicks, once everything stored, and every earlier kick, has been acknowledged; a pointer with bit 57 set takes
BAD_ADDR, and one that is not aligned MISALIGN. -/
def Obligations.SchedulerRequests : Prop :=
  (∀ (i : Instr) (s : State) (d : GReg) (op : ROp), schedRequest s.cx.regs i = some (d, op) → Clear i s = true →
    ∃ t, exec i s = .next t ∧ farLong s t (.g d .d 0) .unit op) ∧
  (∀ (i : Instr) (s : State) (d : GReg) (op : KOp) (p : Option (Word × Nat)), schedKick s.cx.regs i = some (d, op, p) → Clear i s = true →
    (∀ q, p = some q → pointerOk q.1 q.2 = true) → s.maySend = true →
    ∃ t, exec i s = .next t ∧ farLong s t (.g d .d 0) .unit (.kick op)) ∧
  (∀ (i : Instr) (s : State) (d : GReg) (op : KOp) (p : Word) (n : Nat), schedKick s.cx.regs i = some (d, op, some (p, n)) →
    Clear i s = true → s.cx.hnd = false → s.cx.regs.trapvec ≠ 0 → pointerOk p n = false →
    ∃ t, exec i s = .next t ∧ traps s t (if p.getLsbD 57 then BAD_ADDR else MISALIGN) p 0)

/-! ### Debug -/

/-- R398, R414: RENTER pushes a region and counts what falls off; RLEAVE pops one or counts down.
R406: a region edge changes nothing where no precise stop waits and DCTL.RGT is 0.
R400, R415: TRACE writes its record. R416: BRK takes BREAK, or with a debugger attached halts the context and starts a stop of its scope.
R402, R417: WPSET and WPCLR go to the unit that serves the word. R412, R418: CNTRD reads a counter, counting first or latched. -/
def Obligations.DebugInstructions : Prop :=
  (∀ h id s, Clear (.renter h id) s = true →
    exec (.renter h id) s = .next ((s.onCx fun c => { c with
      regions := (id :: c.regions).take (if c.regions.length = 16 then 16 else c.regions.length + 1)
      ovf := if c.regions.length = 16 ∧ c.ovf ≠ 0xFFFF then c.ovf + 1 else c.ovf }).edge 2 id).pass) ∧
  (∀ h s, Clear (.rleave h) s = true →
    let t := s.onCx fun c => { c with
      regions := c.regions.drop 1, ovf := if c.regions = [] ∧ c.ovf ≠ 0 then c.ovf - 1 else c.ovf }
    exec (.rleave h) s = .next (t.edge 3 (s.cx.regions.headD 0)).pass) ∧
  (∀ (s : State) typ id, s.mine.dctl.getLsbD 2 = false → s.cx.edgeWait = none → s.edge typ id = s) ∧
  (∀ h tag a s, Clear (.trace h tag a) s = true →
    exec (.trace h tag a) s = .next (s.traceCtx s.me.1 s.me.2 1 tag.toNat (s.cx.regs.getG a)).pass) ∧
  (∀ h code scope s, Clear (.brk h code scope) s = true → s.mine.dctl.getLsbD 0 = false → s.cx.hnd = false → s.cx.regs.trapvec ≠ 0 →
    ∃ t, exec (.brk h code scope) s = .next t ∧ traps s t BREAK s.cx.pc 0) ∧
  (∀ h code scope s, Clear (.brk h code scope) s = true → s.mine.dctl.getLsbD 0 = true →
    exec (.brk h code scope) s = .next ((((s.traceCtx s.me.1 s.me.2 5 code.toNat s.cx.pc).onCx fun c => { c with
      pc := c.npc, skid := 0 }).haltCtx s.me.1 s.me.2 false).startStop scope.toNat s.me.1 false none).pass) ∧
  (∀ h idx kind scope am a s, Clear (.wpset h idx kind scope am a) s = true → inMode am (s.cx.regs.getG a) = true →
    (s.cx.regs.getG a).toNat % 8 = 0 →
    ∃ t, exec (.wpset h idx kind scope am a) s = .next t ∧
      farLong s t .none (watchedUnit s am (s.cx.regs.getG a)) (.wpset idx.toNat kind.toNat scope.toNat)) ∧
  (∀ h idx am a s, Clear (.wpclr h idx am a) s = true → inMode am (s.cx.regs.getG a) = true → (s.cx.regs.getG a).toNat % 8 = 0 →
    ∃ t, exec (.wpclr h idx am a) s = .next t ∧ farLong s t .none (watchedUnit s am (s.cx.regs.getG a)) (.wpclr idx.toNat)) ∧
  (∀ h lat n d s, Clear (.cntrd h lat n d) s = true →
    ∃ t, exec (.cntrd h lat n d) s = .next t ∧ ownLong s t (.g d .d 0) ((counterValue s lat n.toNat).setWidth 512) 0)

/-! ### Pairs, streams, the planker -/

/-- R31, R34, R64: a pair of an instruction that writes a g register at once and a lane-guarded vector instruction, in either order: both read
the registers as they stood before the pair, both write, and the PC moves past both.
R34, R47, R350: where the second instruction of a pair fails a check that the first passes, the pair takes its trap as a whole, with PAIR
and SECOND in the record, and neither is performed; a pair that names one destination twice takes ILLEGAL_INSN. -/
def Obligations.Pairs : Prop :=
  (∀ (w1 w2 : Insn96) (i j : Instr) (s : State) (d : GReg) (v : Word) (w : Nat) (dv : VReg) (res : Nat → Nat × BitVec 6),
     decode w1 = .ok i → decode w2 = .ok j → (pairLegal w1 w2 = true ∨ pairLegal w2 w1 = true) → gValue s.cx.regs s i = some (d, v) →
     vLanes s.cx.regs j = some (w, dv, res) → Clear i s = true → Clear j s = true →
     ∃ l : Line, lanesInto w (s.cx.regs.gmask (usesOf j).h) (s.cx.regs.getV dv) res l ∧
       let r := ((s.cx.regs.setG d v).setV dv l).raise (flagsOf (sel w (s.cx.regs.gmask (usesOf j).h)) (fun n => (res n).2) (512 / w))
       ∀ x ∈ [(w1, w2), (w2, w1)], ∃ t, exec (.pairIssue x.1 x.2) s = .next t ∧ t.cx.regs = r ∧ t.cx.pc = s.cx.npc ∧ t.cx.run = .ready ∧
         t.cx.half = 0 ∧ t.mem = s.mem ∧ t.chan = s.chan) ∧
  (∀ (w1 w2 : Insn96) (i j : Instr) (s : State), decode w1 = .ok i → decode w2 = .ok j → Clear i s = true → s.cx.hnd = false →
     s.cx.regs.trapvec ≠ 0 → s.cx.cap = none → s.cx.pairOf = 0 →
     ((usesOf j).allotted s.cx.part = false → sameDest i j = false →
       ∃ t, exec (.pairIssue w1 w2) s = .next t ∧ traps s t ILLEGAL_INSN 0 (2 ^ 17 + 2 ^ 16)) ∧
     (sameDest i j = true → ∃ t, exec (.pairIssue w1 w2) s = .next t ∧ traps s t ILLEGAL_INSN 0 (2 ^ 17)))

/-! ### The steps of threads and of messages -/

/-- R35, R36, R352, R452: the line from which a context issues next is fetched with its thread's rights and checked, and is then held; a
defect, a refusal, an absent page and a parity that fails twice are charged to the PC.
R91, R104, R110, R196, R362: a doze ends at its instant; a freed context's turns pass; a wait that has lasted for more turns than
%synclim allows is taken back and traps with nothing performed; a message that no thread expects is dropped and counted. -/
def Obligations.ThreadSteps : Prop :=
  (∀ core x s, (s.core core).runs = true → (s.ctx core x).canIssue = true → (s.core core).holds (s.ctx core x).pc = false →
     let c := s.ctx core x
     let va := lineOfPc c.pc
     let u := ({ s with me := (core, x), took := none } : State).gLoad (askerOf c (s.who core x)) .fetch va 64
     (∀ l v, u = .done l v → exec (.fetchLine core x) s = .next (
       if !lineParity l then v.parityStop core x c.pc
       else if lineDefect l then v.trapInfo BAD_LINE va 0
       else v.onCore core fun k => { k with lines := tset k.lines (fld va 56 6) l })) ∧
     (∀ f v, u = .fail f v → exec (.fetchLine core x) s = .next (
       if f.absent then v.fetchAbsent core x va else v.trapInfo LOAD_FAULT va (f.kind.toNat * 2 ^ 8)))) ∧
  ((∀ core x n s, (s.ctx core x).run = .dozing n → n ≤ s.coreNow core →
     exec (.dozeWake core x) s = .next ((s.readClock core).onCtx core x fun c => { c with run := .ready })) ∧
   (∀ core x s, (s.ctx core x).run = .free →
     exec (.contextReuseDelay core x) s = .next (s.onCtx core x fun c => { c with reuse := c.reuse - 1 })) ∧
   (∀ core x s tag k pk, (s.ctx core x).limitPassed = true → (s.ctx core x).run = .parked pk (.reply tag) k true →
     exec (.syncLimit core x) s = .next ((s.onCtx core x fun c => { c with cancelling := true }).send (.cancel core (s.who core x) tag))) ∧
   (∀ core x s v k pk, (s.ctx core x).limitPassed = true → (s.ctx core x).run = .parked pk (.strip v) k true → (s.ctx core x).hnd = false →
     (s.ctx core x).regs.trapvec ≠ 0 →
     ∃ t, exec (.syncLimit core x) s = .next t ∧
       traps (s.stands core x fun c => { c with npc := c.pc, cancelling := false, half := 0, syncEa := 0 }) t SYNC_LIMIT 0 0) ∧
   (∀ i c w tag s, s.message i (.cancel c w tag) → s.unserved w tag = true →
     exec (.messageDeliver i) s = .next (((s.unsend i).withdraw w tag).send (.cancelBack w tag))) ∧
   (∀ i w tag s k pk l, s.message i (.cancelBack w tag) → s.inTime i = true → s.live w = true → (s.ctx w.core w.ctx).run = .parked pk (.reply tag) k l →
     (s.ctx w.core w.ctx).hnd = false → (s.ctx w.core w.ctx).regs.trapvec ≠ 0 →
     ∃ t, exec (.syncCancelReturn i) s = .next t ∧
       traps ((s.unsend i).stands w.core w.ctx fun c => { c with npc := c.pc, cancelling := false, half := 0 }) t SYNC_LIMIT
         (s.ctx w.core w.ctx).syncEa 0) ∧
   (∀ i w s m, s.chan[i]? = some m → s.directed m.body = some w → m.born + 1000000 ≤ s.now →
     ∃ t, exec (.strayMessageDiscard i) s = .next t ∧ t.chan = dropAt s.chan i ∧ s.threadsKept t ∧ t.out = s.out ++ [.stray w.core] ∧
       (t.core w.core).stray.toNat = min ((s.core w.core).stray.toNat + 1) (2 ^ 32 - 1)))

/-- R191, R193, R203 to R208, R226, R356, R364: a store leaves its buffer with a journal entry, comes to its home, is performed there, and its
acknowledgement frees the entry, or leaves it refused.
R20, R196: a synchronising access whose full-empty bit is as it must be is performed at its port in one step; otherwise it waits there. -/
def Obligations.StoreSteps : Prop :=
  ((∀ core x i j e s, x < 32 → nextDrain core (s.ctx core x) = some i → (s.ctx core x).sb[i]? = some e → (s.core core).freeJ = some j →
     (s.core core).stopped = false →
     ∃ t, exec (.drain core x) s = .next t ∧ (∀ c y, ∃ kept : Pend → Bool, (e.am ≠ .g → kept = fun _ => true) ∧
         let q := if (c, y) = (core, x) then { s.ctx core x with sb := dropAt (s.ctx core x).sb i } else s.ctx c y
         t.ctx c y = { q with pend := q.pend.map fun p => { p with fill := p.fill && kept p } }) ∧
       t.chan = s.chan ++ [{ born := s.now, body := .req (storeReq core (askerOf (s.ctx core x) (s.who core x)) e j) }] ∧ t.mem = s.mem ∧
       ((t.core core).jent j).st = .inFlight ∧ ((t.core core).jent j).data = e.data ∧ ((t.core core).jent j).mask = e.mask ∧
       ((t.core core).jent j).line = e.line ∧ ((t.core core).jent j).seq = (s.core core).jseq ∧
       (e.am = .g → (t.core core).snapFind (s.ctx core x).tenant (fld e.line 56 6) = none)) ∧
   (∀ core n j r w e rest s, (s.core core).residents[n]? = some r → r.left = (w, e) :: rest → (s.core core).freeJ = some j →
     (s.core core).stopped = false →
     ∃ t q, exec (.drain core (288 + 2 * n)) s = .next t ∧ (t.core core).residents[n]? = some q ∧ q.left = rest ∧ q.launch = r.launch ∧
       ((t.core core).jent j).st = .inFlight ∧ ((t.core core).jent j).data = e.data ∧ ((t.core core).jent j).launch = r.launch ∧
       ∃ a, a.agent = .thread w ∧ t.chan = s.chan ++ [{ born := s.now, body := .req (storeReq core a e j) }]) ∧
   (∀ i r s, s.message i (.req r) → r.op.toHome = true → s.mayDeliver r = true →
     exec (.messageDeliver i) s = .next { s.unsend i with homes := s.homes ++ [{ r with place := s.twinPlace r.place }] }) ∧
   (∀ i r s, s.message i (.req r) → s.mayDeliver r = false → exec (.messageDeliver i) s = .next s) ∧
   (∀ q core off win ea d m b j w s r, r.place = .pool core off win ea → r.op = .store d m b j → j < Config.journalSize → r.who.agent = .thread w →
     s.mayServe q r = true → (s.core core).stopped = false → (s.core core).wps = [] → (s.core core).memWf = true →
     s.poolCheck core (off / 64 * 64 + (maskSpan m).1) (maskSpan m).2 win r.who .w = none →
     ∃ t, exec (.homeServe q) s = .next t ∧ s.served t q [.storeAck w.core j none] ∧ t.mem = s.mem ∧ s.threadsKept t ∧
       (∀ c, c ≠ core → t.core c = s.core c) ∧
       ∀ a, t.poolByte core a = if a / 64 = off / 64 ∧ m.getLsbD (a % 64) = true then el 8 d (a % 64) else s.poolByte core a) ∧
   (∀ q va d m b j s r l u, r.place = .glob va → r.op = .store d m b j → s.mayServe q r = true →
     (s.taking q).gStore r.who va d m b = .done l u →
     exec (.homeServe q) s = .next ((s.taking q).holdAcks (u.ackStore r j none).mailWake)) ∧
   (∀ s t : State, t.mem.fwds.length ≤ s.mem.fwds.length → s.holdAcks t = t) ∧
   (∀ (s t : State) (w : Fwd) (sent : List Msg), t.mem.fwds = s.mem.fwds ++ [w] → t.chan = s.chan ++ sent →
     s.holdAcks t = { t with chan := s.chan, mem := { t.mem with fwds := s.mem.fwds ++ [{ w with held := w.held ++ sent }] } }) ∧
   (∀ i core j s, s.message i (.storeAck core j none) → s.inTime i = true → ((s.core core).jent j).tag = none →
     exec (.storeAcknowledge i) s = .next ((s.unsend i).onCore core fun k => { k with jnl := tdel k.jnl j })) ∧
   (∀ i core j f s, s.message i (.storeAck core j (some f)) → s.inTime i = true →
     let e := (s.core core).jent j
     e.tag = none → s.gone { core := core, ctx := e.ctx, inc := e.inc } = false →
     exec (.storeAcknowledge i) s = .next ((s.unsend i).onCore core fun k => { k with
       jnl := tset k.jnl j { e with st := .refused, kind := f.kind } })) ∧
   (∀ i r s, s.message i (.retry r) → exec (.refusedWithRetryResend i) s = .next ((s.unsend i).send (.req r)))) ∧
  (∀ q core off win ea w s r, r.place = .pool core off win ea → r.who.agent = .thread w → s.mayServe q r = true →
     (s.core core).stopped = false → (s.core core).wps = [] → (s.core core).waiters = [] → (s.core core).ppoison = [] →
     s.poolCheck core off 8 win r.who .sync = none → off % 8 = 0 → (s.core core).memWf = true →
     let k := s.core core
     let ans := fun (l : Line) => Body.reply { dst := w, tag := r.tag, data := l, flags := 0, fault := none, lane := r.lane }
     (r.op = .lds → k.full off = true → ∃ t, exec (.homeServe q) s = .next t ∧ s.served t q [ans (k.poolLine off)] ∧
       (t.core core).full off = false ∧ (t.core core).pool = k.pool ∧ t.mem = s.mem ∧ s.threadsKept t) ∧
     (r.op = .ldf → k.full off = true → ∃ t, exec (.homeServe q) s = .next t ∧ s.served t q [ans (k.poolLine off)] ∧ t.cores = s.cores) ∧
     (∀ x, r.op = .sts x → k.full off = false → ∃ t, exec (.homeServe q) s = .next t ∧ s.served t q [ans 0] ∧
       (t.core core).full off = true ∧ (∀ n < 8, t.poolByte core (off + n) = x.extractLsb' (8 * n) 8) ∧
       (∀ a, ¬ (off ≤ a ∧ a < off + 8) → t.poolByte core a = s.poolByte core a)) ∧
     (r.op = .feset → ∃ t, exec (.homeServe q) s = .next t ∧ s.served t q [ans 0] ∧ (t.core core).full off = true ∧
       (t.core core).pool = k.pool) ∧
     (r.op = .feclr → ∃ t, exec (.homeServe q) s = .next t ∧ s.served t q [ans 0] ∧ (t.core core).full off = false ∧
       (t.core core).pool = k.pool) ∧
     (((r.op = .lds ∨ r.op = .ldf) ∧ k.full off = false ∨ ∃ x, r.op = .sts x ∧ k.full off = true) →
       ∃ t, exec (.homeServe q) s = .next t ∧ s.served t q [] ∧ (t.core core).waiters = [r] ∧ (t.core core).pool = k.pool))

/-- R83 to R86, R193, R197, R200, R204, R352, R362: a load is performed at its home; its answer comes to its thread; with the last answer the
result has landed, its line fills the cache or its acquire empties it, and the next turn of the core writes the destination and the flags;
a failed answer leaves a record. -/
def Obligations.AnswersLand : Prop :=
  (∀ q core off win ea n ln w s r, r.place = .pool core off win ea → r.op = .load n ln → r.who.agent = .thread w →
    s.mayServe q r = true → (s.core core).stopped = false → (s.core core).wps = [] → s.poolCheck core off n win r.who .r = none →
    (s.core core).poisoned off n = false →
    exec (.homeServe q) s = .next ((s.taking q).send (.reply
      { dst := w, tag := r.tag, data := (s.core core).poolLine off, flags := 0, fault := none, lane := r.lane }))) ∧
  (∀ q va n ln s r l u, r.place = .glob va → r.op = .load n ln → s.mayServe q r = true → (s.taking q).gLoad r.who .load va n = .done l u →
    exec (.homeServe q) s = .next (u.reply r l 0 none)) ∧
  (∀ q s r p, s.homes[q]? = some r → p ∈ s.homes.take q → p.sameHome r = true → ({ s with homes := [] }.serve p).isSome = true →
    exec (.homeServe q) s = .next s) ∧
  (∀ i r s, s.message i (.reply r) → s.inTime i = true → s.live r.dst = true →
    (∀ p ∈ (s.core r.dst.core).prefs, p.1 ≠ r.dst.ctx ∨ p.2.1 ≠ r.tag) →
    exec (.messageDeliver i) s = .next (((s.unsend i).replyLog r.dst.core).onCtx r.dst.core r.dst.ctx fun c =>
      if (match c.run with | .parked _ (.reply t) _ _ => t == r.tag | _ => false) then { c with answer := some r }
      else { c with landing := c.landing ++ [r] })) ∧
  (∀ core x i s r p,
    let c := s.ctx core x
    (s.core core).stopped = false → c.landing[i]? = some r → c.pend.find? (fun q => q.tag == r.tag) = some p →
    (∀ q ∈ c.replay, q.tag ≠ r.tag) →
    let done := fun (n : Nat) => { p with left := n, flags := p.flags ||| r.flags }
    (∀ f, r.fault = some f → exec (.longResultLand core x i) s = .next (s.setCtx core x { c with
      landing := dropAt c.landing i, replay := c.replay ++ [{ tag := r.tag, fault := f, due := true }]
      pend := c.pend.map fun q => if q.tag = r.tag then done (p.left - 1) else q })) ∧
    (r.fault = none →
      (2 ≤ p.left → exec (.longResultLand core x i) s = .next (s.setCtx core x { c with
        landing := dropAt c.landing i
        pend := c.pend.map fun q => if q.tag = r.tag then { done (p.left - 1) with got := gotBytes p r } else q })) ∧
      (p.left = 1 → p.xs = 0xFFFF →
        let v := shapeLine p.shape (mergeLine (gotBytes p r) p.fwd p.fmask)
        ∃ t, exec (.longResultLand core x i) s = .next t ∧ t.mem = s.mem ∧ t.chan = s.chan ∧ t.homes = s.homes ∧
          (t.ctx core x).regs = c.regs ∧ (t.ctx core x).pc = c.pc ∧ (t.ctx core x).landing = dropAt c.landing i ∧
          (∃ q, (t.ctx core x).pend.find? (fun q => q.tag == r.tag) = some q ∧ q.landed = true ∧ q.got = v ∧ q.dest = p.dest ∧
            q.flags = p.flags ||| r.flags) ∧
          (p.acq = true → (t.core core).snap = []) ∧
          (p.acq = false → ∀ l, p.fillKey = some l → (t.core core).snapFind c.tenant l = some (gotBytes p r))))) ∧
  (∀ (c : Ctx) (p : Pend), c.pend.filter Pend.landed = [p] → p.dest.pushes = none → (∀ h ∈ c.handles, h.tag ≠ p.tag) →
    c.settle = { c with regs := (c.regs.putDest p.dest p.got).raise p.flags, pend := c.pend.filter fun q => q.tag != p.tag }) ∧
  (∀ (s : State) (core x : Nat) (c : Ctx), tget (s.core core).ctxs x = some c →
    ((s.turnStart core).ctx core x).regs = c.settle.regs ∧ ((s.turnStart core).ctx core x).pend = c.settle.pend)

/-- R144, R148, R149: a fill comes to its entry in the experience cache of the core, a held report that does not match the fetched slot
discarding everything held; the answer to a merge, with the reports made since, is the view.
R55 to R57, R157 to R159: an image that breaks a rule, or whose SM3 hash does not hold, is refused and loads nothing; one that keeps them is
mapped where nothing was mapped, and its instance is known; an instance is filled from its sealed entry, or from its seeds where FRZX says so,
where there is no entry, and, with a report, where the entry fails its HMAC, the slots that are marked frozen; after the launch it is sealed
under the tenant's keys, but not under FRZX. -/
def Obligations.InstanceSteps : Prop :=
  ((∀ i core l slot id s e, s.message i (.xfill core l slot id none) → (s.core core).xcache.find? (fun x => x.id == id) = some e →
     e.gone = false →
     exec (.experienceFillLand i) s = .next ((s.unsend i).onCore core fun k =>
       ({ k with xcache := k.xcache.erase e }).mismatch e.held.length)) ∧
   (∀ i core l slot id w0 w1 s e, s.message i (.xfill core l slot id (some (w0, w1))) →
     (s.core core).xcache.find? (fun x => x.id == id) = some e → e.gone = false →
     (e.held = [] ∨ ∃ h ∈ e.held, (xVerdict w0 (h.pc - s.textOf l) h).2 = true) →
     ∃ t f, exec (.experienceFillLand i) s = .next t ∧ t.chan = dropAt s.chan i ∧ s.threadsKept t ∧
       xFind (t.core core).xcache e.launch e.slot = some f ∧ f.w0 = w0 ∧ f.view = some w1 ∧ f.held = [] ∧ f.contrib = e.contrib) ∧
   (∀ i core l slot id v n s e since, s.message i (.mergeReply core l slot id (some v) n none) →
     xFind (s.core core).xcache l slot = some e → tget e.merging id = some since →
     ∃ t f, exec (.mergeReply i) s = .next t ∧ t.chan = dropAt s.chan i ∧ s.threadsKept t ∧
       xFind (t.core core).xcache l slot = some f ∧ f.view = some (since.foldl (xApply e.w0) v) ∧ f.merging = tdel e.merging id ∧
       f.contrib = e.contrib) ∧
   (∀ i core l slot id n s, s.message i (.mergeReply core l slot id none n none) → xFind (s.core core).xcache l slot = none →
     exec (.mergeReply i) s = .next ((s.unsend i).onCore core fun k => k.mismatch n))) ∧
  ((∀ tenant im s, (imgOk im.bytes = false ∨ hashOk im.bytes = false) → ∃ t, exec (.imageLoad tenant im) s = .next t ∧
     t.out = s.out ++ [.imageRefused tenant] ∧ t.mem = s.mem ∧ t.images = s.images) ∧
   (∀ tenant im s root, imgOk im.bytes = true → hashOk im.bytes = true → tget s.mem.roots (BitVec.ofNat 16 tenant).toNat = some root →
     let pages := imagePages (imgN im.bytes 16 8) ((upTo (imgN im.bytes 6 2)).map (imgSection im.bytes))
     (∀ f ∈ im.frames, (physStop (4096 * f)).isSome = true) → s.unmapped (root.toNat / 4096) pages = true →
     5 * pages.length ≤ im.frames.length →
     ∃ t, exec (.imageLoad tenant im) s = .next t ∧ t.cores = s.cores ∧
       ∃ g ∈ t.images, g.tenant = BitVec.ofNat 16 tenant ∧ g.hash = BitVec.ofNat 256 (imgN im.bytes 32 32) ∧
         g.entry = BitVec.ofNat 64 (imgN im.bytes 8 8)) ∧
   (∀ launch l s, s.launch launch = some l → l.filled = false → s.imageOf l.tenant (descW l.desc 3) = none →
     exec (.instanceFill launch) s = .next { s with sched := { s.sched with
       launches := tset s.sched.launches launch { l with filled := true } } }) ∧
   (∀ launch l g e s, s.launch launch = some l → l.filled = false → s.imageOf l.tenant (descW l.desc 3) = some g →
     s.sealedOf l.tenant g.hash = e →
     let bad := !partFrzx (descW l.desc 1) && e.any fun k => hmacSm3 (macBytes k.tenant) k.data != k.mac
     let slots := if partFrzx (descW l.desc 1) || bad then g.xbytes else e.elim g.xbytes fun k => sm4Dec (keyBytes k.tenant) k.data
     exec (.instanceFill launch) s = .next { s with
       out := s.out ++ (if bad then [.hmacFailed launch] else []),
       sched := { s.sched with
         launches := tset s.sched.launches launch { l with filled := true, inst := some (freezeSlots slots (e.elim [] Sealed.frozen)) } } }) ∧
   (∀ launch l s, s.launch launch = some l → s.sealDue launch = true → s.imageOf l.tenant (descW l.desc 3) = none →
     exec (.instanceSeal launch) s = .next { s with sched := { s.sched with
       launches := tset s.sched.launches launch { l with sealed' := true } } }) ∧
   (∀ launch l g s, s.launch launch = some l → s.sealDue launch = true → s.imageOf l.tenant (descW l.desc 3) = some g →
     ∃ t, exec (.instanceSeal launch) s = .next t ∧ (partFrzx (descW l.desc 1) = true → t.store = s.store) ∧
       (partFrzx (descW l.desc 1) = false → ∃ e ∈ t.store, e.tenant = l.tenant ∧ e.hash = g.hash ∧
         e.data = sm4Enc (keyBytes l.tenant) (l.inst.getD []) ∧ e.mac = hmacSm3 (macBytes l.tenant) e.data ∧
         e.frozen = (s.sealedOf l.tenant g.hash).elim [] Sealed.frozen ∧
         ∀ f ∈ t.store, f.tenant = l.tenant → f.hash = g.hash → f = e)))

/-- R229, R230, R254, R263, R354, R358: a walker answers its request, and a walk that fails has performed nothing; an invalidation drops the translations that it names and is acknowledged; a
store held for a page goes to its home again once the page is mapped, and is refused as UNMAPPED when it is declined. -/
def Obligations.PagesAnswered : Prop :=
  (∀ i r what tid e c ch n sb dead s, s.message i (.req r) → r.op = .walk what tid e c ch n sb dead →
    (∀ l t, (s.unsend i).serveWalk r = .done l t → exec (.clbWalk i) s = .next (t.reply r l 0 none)) ∧
    (∀ f t, (s.unsend i).serveWalk r = .fail f t →
      ∃ u : State, exec (.clbWalk i) s = .next (u.reply r 0 0 (some f)) ∧ u.mem.bytes = s.mem.bytes ∧ u.homes = s.homes ∧
        u.chan = dropAt s.chan i ∧ u.mem.poison = s.mem.poison ∧ u.mem.keys = s.mem.keys) ∧
    ((s.unsend i).serveWalk r = .wait → exec (.clbWalk i) s = .next s)) ∧
  (∀ i n w tag scope va ten s, s.message i (.inval n w tag scope va ten) →
    ∃ t, exec (.tlbInvalidate i) s = .next t ∧ s.sent t i [.reply (ackTo w tag)] ∧ t.cores = s.cores ∧ t.mem.bytes = s.mem.bytes ∧
      ∀ e, e ∈ t.mem.tlb ↔ e ∈ s.mem.tlb ∧ ¬ (e.stop = n ∧ match scope with
        | 0 => e.tenant = ten ∧ (if pteN e.pte then e.vpn / 16 = fld va 56 0 / 65536 else e.vpn = fld va 56 0 / 2 ^ (12 + 9 * e.level))
        | 1 => e.tenant = ten
        | _ => True)) ∧
  (∀ tenant page ok s r j h d m b, (∀ p ∈ s.cores, p.2.paged = []) → s.parked = [h] → h.req = r → r.op = .store d m b j → h.page = page →
    r.who.tenant.toNat = tenant →
    exec (.pageMappedRestore tenant page ok) s = .next (
      if ok then { s with parked := [], homes := r :: s.homes }
      else ({ s with parked := [] } : State).ackStore r j (some
        { kind := 1, absent := false, addr := match r.place with | .glob va => va | _ => 0 }))) ∧
  (∀ core k old c a x tenant page s, s.parked = [] → s.cores = [(core, k)] → k.paged = [(old, c, [(a, none)])] → c.expects = false →
    c.cap = none → c.replay = [] → c.pend = [] → c.tenant.toNat = tenant → fld (BitVec.ofNat 64 a) 56 12 = page → k.freeCtx = some x →
    k.held = false → k.stopped = false →
    ∃ t, exec (.pageMappedRestore tenant page true) s = .next t ∧ (t.ctx core x).regs = c.regs ∧ (t.ctx core x).pc = c.pc ∧
      (t.ctx core x).tid = c.tid ∧ (t.ctx core x).hnd = c.hnd ∧ (t.ctx core x).run ≠ .free ∧ (t.ctx core x).inc = (k.ctx x).inc + 1 ∧
      (t.core core).paged = [] ∧ t.mem = s.mem ∧ ∀ y, y ≠ x → t.ctx core y = k.ctx y)

/-! ### The scheduler's steps -/

/-- R377, R379, R391, R392: at the command port a launch joins the tail of its queue, a node its graph; the result word says the id or what is
refused.
R386: when a node's completion is served it is complete, each of its successors waits for one less, and those that wait for nothing are
queued. -/
def Obligations.SchedulerSteps : Prop :=
  ((∀ d s, descBad sysIssuer false d = false → s.xinstBad (descTenant d) d = false → s.sched.room (descPrio d) (descTenant d) = true →
     let id := s.sched.nextLaunch
     ∃ t l, exec (.schedulerCommand (.launch d)) s = .next t ∧ t.out = s.out ++ [.result (BitVec.ofNat 64 id)] ∧ t.launch id = some l ∧
       l.desc = d ∧ l.st = .queued ∧ l.tenant = descTenant d ∧ l.sup = descSuper d ∧ l.prio = descPrio d ∧ l.next = 0 ∧ l.cores = [] ∧
       l.node = none ∧ t.sched.queue = s.sched.queue ++ [{ launch := id, level := descPrio d, tenant := descTenant d, since := s.now }] ∧
       t.cores = s.cores ∧ t.mem = s.mem) ∧
   (∀ d s, descBad sysIssuer false d = true →
     exec (.schedulerCommand (.launch d)) s = .next { s with out := s.out ++ [.result (BitVec.ofNat 64 (2 * 2 ^ 56))] }) ∧
   (∀ d s, descBad sysIssuer false d = false → s.xinstBad (descTenant d) d = false → s.sched.room (descPrio d) (descTenant d) = false →
     exec (.schedulerCommand (.launch d)) s = .next { s with out := s.out ++ [.result (BitVec.ofNat 64 (2 ^ 56))] }) ∧
   (∀ g d x s, s.sched.graphs.find? (fun y => y.id == g) = some x → descBad sysIssuer true d = false → s.xinstBad (descTenant d) d = false →
     x.nodes.length < 4096 → s.sched.nodeCount < 65536 → 0 < s.sched.nextNode → s.sched.nextNode < 65536 →
     (∀ y ∈ s.sched.graphs, ∀ v ∈ y.nodes, v.id ≠ s.sched.nextNode) →
     ∃ t y v, exec (.schedulerCommand (.node g d)) s = .next t ∧ t.out = s.out ++ [.result (BitVec.ofNat 64 s.sched.nextNode)] ∧
       t.sched.graphs.find? (fun y => y.id == g) = some y ∧ y.nodes = x.nodes ++ [v] ∧ v.id = s.sched.nextNode ∧ v.desc = d ∧
       v.preds = 0 ∧ v.succs = [] ∧ t.sched.launches = s.sched.launches) ∧
   (∀ g d s, (∀ y ∈ s.sched.graphs, y.id ≠ g) →
     exec (.schedulerCommand (.node g d)) s = .next { s with out := s.out ++ [.result (BitVec.ofNat 64 (4 * 2 ^ 56))] })) ∧
  (∀ i v x n s, s.inst i = some x → x.nodes.find? (fun n => n.node.id == v && n.st == .ended) = some n →
     let now := x.nodes.filter fun m => decide ((m.freed n).left = 0) && decide ((m.freed n).st = .waiting)
     (now = [] → (∃ m ∈ x.nodes, (m.freed n).st ≠ .done) →
       ∃ t y, exec (.graphNodeComplete i v) s = .next t ∧ t.inst i = some y ∧ y.nodes = x.nodes.map (fun m => m.freed n) ∧ y.st = x.st ∧
         t.sched.queue = s.sched.queue ∧ t.mem = s.mem ∧ t.cores = s.cores) ∧
     (∀ m, now = [m] → descEvent m.node.desc = false → s.sched.room m.node.prio m.node.tenant = true →
       ∃ t l, exec (.graphNodeComplete i v) s = .next t ∧ t.launch s.sched.nextLaunch = some l ∧ l.desc = m.node.desc ∧
         l.node = some (i, m.node.id) ∧ l.st = .queued ∧ t.mem = s.mem ∧ t.cores = s.cores ∧
         t.sched.queue = s.sched.queue ++ [{ launch := s.sched.nextLaunch, level := m.node.prio, tenant := m.node.tenant, since := s.now }]))

/-- R89, R93, R378, R380, R381: a launch that waits alone starts when a core has room and its tenant's deficit is positive, and its group then
exists; with a bad partition word it is rejected; after 10 ms it moves up a level; every microsecond the tenants pay for the contexts that they
run.
R20, R27, R185, R186, R266, R383, R384, R448: a launch's next thread starts in a free context of the core that the order of placement
gives, whose pool is set when no launch is there; cores are gated and woken. -/
def Obligations.LaunchSteps : Prop :=
  ((∀ e l s, s.sched.queue = [e] → s.launch e.launch = some l → l.id = e.launch → s.canStart = true → partOk (descW l.desc 1) = true →
     let key := e.tenant.toNat * 8 + e.level
     let w : Int := (tgetD s.sched.weights e.tenant.toNat 1 : Nat)
     0 < min (tgetD s.sched.deficits key 0 + w * 1000) (8 * w * 1000) → s.noneWaits = true →
     ∃ t, exec .launchStart s = .next t ∧ t.sched.queue = [] ∧ t.launch l.id = some { l with st := .running, level := e.level } ∧
       t.sched.groups = s.sched.groups ++ [{ launch := BitVec.ofNat 32 l.id, handle := 0, members := [], size := descNthr l.desc, arrived := []
                                             count := 0, joins := [], leaves := [] }] ∧
       tgetD t.sched.deficits key 0 = 0 ∧ tgetD t.sched.lastTenant e.level 0 = e.tenant.toNat ∧ t.cores = s.cores ∧ t.mem = s.mem) ∧
   (∀ e l s, s.sched.queue = [e] → s.launch e.launch = some l → l.id = e.launch → s.canStart = true → partOk (descW l.desc 1) = false →
     l.node = none → descW l.desc 4 = 0 → 0 < tgetD s.sched.weights e.tenant.toNat 1 →
     0 < tgetD s.sched.deficits (e.tenant.toNat * 8 + e.level) 0 → s.noneWaits = true →
     ∃ t, exec .launchStart s = .next t ∧ t.sched.queue = [] ∧
       t.launch l.id = some { l with st := .rejected, status := 0x04000008, cause := 1 } ∧ t.sched.groups = s.sched.groups) ∧
   (∀ s, s.canStart = false → exec .launchStart s = .next s) ∧
   (∀ launch e l s, s.sched.queue.find? (fun q => q.launch == launch && s.agingDue q) = some e → s.launch launch = some l →
     e.level < 7 ∧ e.since + 10000000 ≤ s.now ∧ ∃ t, exec (.priorityAging launch) s = .next t ∧
       t.sched.launches = tset s.sched.launches launch { l with level := e.level + 1 } ∧
       t.sched.queue = s.sched.queue.erase e ++ [{ e with level := e.level + 1, since := s.now }] ∧ t.cores = s.cores ∧ t.mem = s.mem) ∧
   (∀ s, s.sched.lastCharge + 1000 ≤ s.now → ∃ t, exec .deficitCharge s = .next t ∧ t.cores = s.cores ∧ t.mem = s.mem ∧
     t.sched.queue = s.sched.queue ∧ t.sched.lastCharge = s.sched.lastCharge + 1000 ∧
     ∀ key, tgetD t.sched.deficits key 0 = tgetD s.sched.deficits key 0 - (s.runningFor key : Int))) ∧
  ((∀ launch l core x s, s.startPlace launch = some (l, core) → l.id = launch →
     ({ s.core core with part := some (descW l.desc 1) } : Core).freeCtx = some x →
     ∃ t, exec (.threadStart launch) s = .next t ∧ t.mem = s.mem ∧ (∀ c y, c ≠ core → t.ctx c y = s.ctx c y) ∧
       (t.ctx core x).run = .ready ∧ (t.ctx core x).regs = Regs.reset ∧ (t.ctx core x).pc = descW l.desc 0 ∧ (t.ctx core x).entry = true ∧
       (t.ctx core x).tid = BitVec.ofNat 32 l.next ∧ (t.ctx core x).nthr = BitVec.ofNat 32 (descNthr l.desc) ∧
       (t.ctx core x).launch = BitVec.ofNat 32 l.id ∧ (t.ctx core x).tenant = l.tenant ∧ (t.ctx core x).sup = l.sup ∧
       (t.ctx core x).part = descW l.desc 1 ∧ (t.ctx core x).start = s.now ∧ (t.ctx core x).inc = (s.ctx core x).inc + 1 ∧
       (t.ctx core x).hnd = false ∧ (t.ctx core x).pend = [] ∧ (t.ctx core x).sb = [] ∧ (t.ctx core x).handles = [] ∧
       (t.core core).snap = [] ∧ (t.core core).win 1 = (BitVec.ofNat 32 l.id).setWidth 64 ∧
       (∃ m, t.launch launch = some m ∧ m.next = l.next + 1 ∧ m.cores = if core ∈ l.cores then l.cores else l.cores ++ [core]) ∧
       ((s.core core).anyResident = false → (t.core core).part = some (descW l.desc 1) ∧ (t.core core).empties = [] ∧
         (t.core core).handles = [] ∧ (t.core core).counters = [] ∧
         (t.core core).win 0 = BitVec.ofNat 64 ((0xEFFF - partRegs (descW l.desc 1)) * 2 ^ 16 + 0x1F * 2 ^ 32) ∧
         (t.core core).pool = (s.core core).pool)) ∧
   (∀ launch s, s.startPlace launch = none → exec (.threadStart launch) s = .next s) ∧
   (∀ core s, s.gateDue core = true → exec (.coreGate core) s = .next (s.onCore core fun k => { k with power := .gated })) ∧
   (∀ core n s, (s.core core).power = .waking n → n ≤ s.now →
     exec (.coreWake core) s = .next (s.onCore core fun k => { k with power := .awake, idleSince := s.now })) ∧
   (∀ core s l, (s.core core).power = .gated → s.wanting = some l → s.worthWaking (descW l.desc 1) l.tenant core = true →
     ∃ t, exec (.coreWake core) s = .next t ∧
       (t.core core).power = .waking (s.now + if s.clusterAwake (clusterOf core) then 800 else 3000)))

/-- R28, R186, R378: when a core is done with a launch it sends its status word to its parent of four; a parent combines the words of its
children with its own; the root's word ends the launch, and the last launch to leave a core clears EN of window 0. -/
def Obligations.CompletionTree : Prop :=
  (∀ core launch l r i s, s.coreDone core launch = true → s.launch launch = some l → l.cores.findIdx? (· == core) = some (i + 1) →
    childrenOf l.cores (i + 1) = [] → l.heard.filter (fun h => h.1 == core) = [] →
    (s.core core).residents.find? (fun r => r.launch.toNat == launch) = some r →
    ∃ t, exec (.doneMessage core launch) s = .next t ∧ t.mem = s.mem ∧ s.threadsKept t ∧
      t.chan = s.chan ++ [{ born := s.now, body := .status launch core r.status }] ∧
      (∀ q ∈ (t.core core).residents, q.launch.toNat ≠ launch) ∧
      ((∀ q ∈ (s.core core).residents, q.launch.toNat = launch) → ((t.core core).win 0).getLsbD 36 = false)) ∧
  (∀ core launch l r s, s.coreDone core launch = true → s.launch launch = some l → l.id = launch → l.cores = [core] → l.heard = [] →
    l.node = none → descW l.desc 4 = 0 → (s.core core).residents.find? (fun r => r.launch.toNat == launch) = some r →
    s.noneWaits = true → ∃ t, exec (.doneMessage core launch) s = .next t ∧ t.launch launch = some { l with st := .done, status := r.status } ∧
      launch ∈ t.sched.finished ∧ t.mem = s.mem ∧ t.chan = s.chan) ∧
  (∀ i launch c w l s, s.message i (.status launch c w) → s.launch launch = some l →
    ∀ n, l.cores.findIdx? (· == c) = some n →
      let p := (l.cores[(n - 1) / 4]?).getD 0
      ((s.core p).residents.any fun r => r.launch.toNat == launch && r.done) = false →
      exec (.completionCombine i) s = .next { s.unsend i with sched := { s.sched with
        launches := tset s.sched.launches launch { l with heard := l.heard ++ [(p, c, w)] } } }) ∧
  (∀ i launch p c w l r s, s.message i (.status launch c w) → s.launch launch = some l → l.id = launch → l.cores = [p, c] → p ≠ c →
    l.heard = [] → l.node = none → descW l.desc 4 = 0 → (s.core p).residents.find? (fun r => r.launch.toNat == launch && r.done) = some r →
    s.noneWaits = true → ∃ t m, exec (.completionCombine i) s = .next t ∧ t.chan = dropAt s.chan i ∧ t.launch launch = some m ∧ m.st = .done ∧
      m.status = combine r.status w)

/-- R93 to R95, R112: a JOIN makes a group, joins it behind its members, is refused in a full slice, or waits while a barrier is in progress; a
LEAVE removes its member, and the last one ends the group.
R96, R99, R113: an arrival is counted, and the last of a barrier releases its members and starts the next; a release ends the wait recorded
in a thread's table, and that of a PHASE empties the snapshot cache of the thread's core (R101). -/
def Obligations.GroupSteps : Prop :=
  (∀ i w l h tag s, s.message i (.group w l h true (some tag)) → h ≠ 0 → s.sliceFenced l h = false →
    (s.group l h = none → s.sliceLoad (s.slice l h) < 256 → ∃ t g, exec (.groupRequestArrive i) s = .next t ∧
      s.sent t i [wordTo w tag 0] ∧ t.group l h = some g ∧ g.members = [w] ∧ g.count = 0 ∧ t.cores = s.cores) ∧
    (s.group l h = none → 256 ≤ s.sliceLoad (s.slice l h) → exec (.groupRequestArrive i) s = .next
      ((s.unsend i).send (wordTo w tag (BitVec.allOnes 64)))) ∧
    (∀ g, s.group l h = some g → g.count = 0 → ∃ t, exec (.groupRequestArrive i) s = .next t ∧
      s.sent t i [wordTo w tag (BitVec.ofNat 64 g.members.length)] ∧ t.group l h = some { g with members := g.members ++ [w] }) ∧
    (∀ g, s.group l h = some g → g.count ≠ 0 → g.members ≠ [] → ∃ t, exec (.groupRequestArrive i) s = .next t ∧ s.sent t i [] ∧
      t.group l h = some { g with joins := g.joins ++ [(w, tag)] })) ∧
  (∀ i w l h tag g s, s.message i (.group w l h false (some tag)) → h ≠ 0 → s.sliceFenced l h = false → s.joinFirst w h = false →
    s.group l h = some g → g.count = 0 →
    let rest := g.members.filter fun m => m != w
    ∃ t, exec (.groupRequestArrive i) s = .next t ∧ s.sent t i [.reply (ackTo w tag)] ∧
      t.group l h = if rest = [] then none else some { g with members := rest, size := g.size - 1 }) ∧
  (∀ i w l h g s, s.message i (.arrive w l h false) → s.sliceFenced l h = false → s.group l h = some g →
    let a := { g with arrived := g.arrived ++ [w], count := g.count + 1 }
    (a.count ≠ a.total → a.total ≠ 0 → ∃ t, exec (.barrierArrival i) s = .next t ∧ s.sent t i [] ∧ t.group l h = some a) ∧
    (a.count = a.total → a.next.total ≠ 0 → ∃ t, exec (.barrierArrival i) s = .next t ∧ s.sent t i a.tells ∧
      t.group l h = some a.next)) ∧
  (∀ i w h s, s.message i (.release w h) → s.inTime i = true → s.live w = true → (s.ctx w.core w.ctx).inPhase h = true →
    ∃ t, exec (.groupRelease i) s = .next t ∧ (t.core w.core).snap = []) ∧
  (∀ i w h e s, s.message i (.release w h) → s.inTime i = true → s.live w = true → (s.ctx w.core w.ctx).hent h = some e →
    (s.ctx w.core w.ctx).inPhase h = false →
    exec (.groupRelease i) s = .next ((s.unsend i).onCtx w.core w.ctx fun c => { c with
      handles := c.handles.filter (fun x => x.handle != h) ++
        [{ e with arrived := false, waitFor := if e.waitFor = some false then some true else e.waitFor }] }))

/-! ### The engines' steps -/

/-- R190, R205, R208, R220, R221, R269 to R271, R274, R276, R281, R282, R285, R290: the step of an operation serves its loads and passes its
stores into the store buffer of its engine; they leave one by one; and when all are acknowledged the step reports: the bitmap, the stages, the
counter, the fault record, and the end of the operation. -/
def Obligations.TransfersStep : Prop :=
  (∀ core chunk o e lane y b s, (s.core core).copy o.id = some o → o.doneBy core chunk e lane → s.opReady core chunk o = true →
    s.ebuf o.who.agent = none → s.pageWait o.who o.id lane = false →
    o.work core chunk ((s.core core).cb (cbOf o)) ((s.setEbuf (EBuf.open' o.who.agent o.id lane)).engine o.who o.id lane) = .ok y →
    y.s.ebuf o.who.agent = some b →
    (b.ents ≠ [] → exec e s = .next ((y.s.unhold o.who o.id lane).setEbuf { b with fault := y.f })) ∧
    (b.ents = [] → (y.s.core core).cbs = (s.core core).cbs →
      ∃ t, exec e s = .next t ∧ ((y.s.unhold o.who o.id lane).dropEbuf o.who.agent).reported t core chunk o y.f)) ∧
  (∀ core chunk o e lane b x rest s, (s.core core).copy o.id = some o → o.doneBy core chunk e lane →
    s.opReady core chunk o = true → s.ebuf o.who.agent = some b → b.tag = o.id → b.lane = lane → b.ents = x :: rest →
    s.pageWait o.who o.id lane = false →
    (∀ l u, s.eStore x.who x.pl x.data x.mask = .done l u →
      exec e s = .next ((u.unhold o.who o.id lane).setEbuf { b with ents := rest })) ∧
    (∀ f u, s.eStore x.who x.pl x.data x.mask = .fail f u → f.absent = false →
      exec e s = .next ((u.unhold o.who o.id lane).setEbuf { b with ents := rest, fault := b.fault.or (some f) })) ∧
    (∀ f u, s.eStore x.who x.pl x.data x.mask = .fail f u → f.absent = true → s.heldFor o.who o.id lane = none →
      exec e s = .next (s.holdFor o.who o.id lane f)) ∧
    (s.eStore x.who x.pl x.data x.mask = .wait → exec e s = .next s)) ∧
  (∀ core chunk o e lane b s, (s.core core).copy o.id = some o → o.doneBy core chunk e lane → s.opReady core chunk o = true →
    s.ebuf o.who.agent = some b → b.tag = o.id → b.lane = lane → b.ents = [] → s.mem.fwds = [] →
    ∃ t, exec e s = .next t ∧ (s.dropEbuf o.who.agent).reported t core chunk o b.fault) ∧
  (∀ core op h a b who s, (s.core core).copy op = some
      { id := op, who := who, core := core, op := .cpy .l .l h a b 64, entry := 0, done := 0, fault := none, stages := 0 } →
    s.engineOn core = true → s.ebuf who.agent = none → s.bufUsed who.agent < 32 → s.mem.fwds = [] → s.pageWait who op (some 0) = false →
    (s.core core).memWf = true → (s.core core).wps = [] → (s.core core).poisoned b.toNat 64 = false → a.toNat < 2 ^ 16 → a.toNat % 64 = 0 →
    b.toNat < 2 ^ 16 → b.toNat % 64 = 0 → s.poolCheck core b.toNat 64 true who .r = none → s.poolCheck core a.toNat 64 true who .w = none →
    ∃ t u v, exec (.chunkComplete core op 0) s = .next t ∧ exec (.chunkComplete core op 0) t = .next u ∧
      exec (.chunkComplete core op 0) u = .next v ∧ (∀ x, t.poolByte core x = s.poolByte core x) ∧
      ((v.core core).handle h).busy = false ∧ ((v.core core).handle h).bits = ((s.core core).handle h).bits ||| 1 ∧
      ∀ x, v.poolByte core x = if a.toNat ≤ x ∧ x < a.toNat + 64 then s.poolByte core (b.toNat + (x - a.toNat)) else s.poolByte core x) ∧
  (∀ core x v st l y s, tget (s.ctx core x).streams v = some st → st.wants = true → (s.ctx core x).run ≠ .free → s.engineOn core = true →
    let a := (askerOf (s.ctx core x) (s.who core x)).engine (.copy core)
    s.pageWait a (streamTag x v) none = false →
    (s.engine a (streamTag x v) none).load
      (enginePlace core st.mode (modeAdd st.mode st.base (st.off (st.next + st.ahead.length)))) 64 = .ok (l, y) →
    ∃ t q, exec (.streamStripLoad core x v) s = .next t ∧ t.mem = y.s.mem ∧ tget (t.ctx core x).streams v = some q ∧
      q = { st with ahead := st.ahead ++ [(l.getD 0, y.f)] }) ∧
  (∀ i core cb s, s.message i (.fill core cb) → (s.core core).stopped = false → s.fenced core = false → ((s.core core).cb cb).set = true → ((s.core core).cb cb).role = 2 →
    exec (.fillNotice i) s = .next ((s.unsend i).onCore core fun k => { k with
      cbs := tset k.cbs cb { k.cb cb with filled := (k.cb cb).filled + 1 } })) ∧
  (∀ i core cb s, s.message i (.stageFree core cb) → (s.core core).stopped = false → s.fenced core = false → ((s.core core).cb cb).set = true →
    ((s.core core).cb cb).role = 3 →
    exec (.stageFreeNotice i) s = .next ((s.unsend i).onCore core fun k => { k with
      cbs := tset k.cbs cb { k.cb cb with free := (k.cb cb).free + 1 } }))

/-- R219, R220, R322: a card's kick joins the queue of its unit and is acknowledged, or waits while the queue is full.
R269, R274: a copy or a deal is entered in the copy unit with its engine's rights; R278, R291: a SDROP of a stream never made ready is
acknowledged; R384, R390: a launch's descriptor is read and its id answered.
R290, R320, R354: the access that an engine holds for a page is made again once the page is answered: the step that it belongs to is performed,
of the copy unit's operations, of a stream, of a kick or of a card; a hold whose operation is over is dropped. -/
def Obligations.KicksAccepted : Prop :=
  (∀ i r w k s, s.message i (.req r) → r.op = .kick k → r.who.agent = .thread w → s.kickStopped w.core k = false →
    let ack : Body := .reply { dst := w, tag := r.tag, data := 0, flags := 0, fault := none, lane := r.lane }
    (∀ lvl card, k = .card lvl card →
      let u := unitOf (lvlNo lvl) w.core
      ((s.unit (lvlNo lvl) u).queue.length < queueCap (lvlNo lvl) → ∃ t c, exec (.engineKickAccept i) s = .next t ∧ s.sent t i [ack] ∧
        (t.unit (lvlNo lvl) u).queue = (s.unit (lvlNo lvl) u).queue ++ [c] ∧ c.card = card ∧ c.origin = w.core ∧ c.who = r.who ∧
        c.parent = none ∧ c.accepted = false ∧ c.ran = false ∧ c.code = 0 ∧ t.cores = s.cores ∧ t.mem = s.mem) ∧
      (queueCap (lvlNo lvl) ≤ (s.unit (lvlNo lvl) u).queue.length → exec (.engineKickAccept i) s = .next s)) ∧
    (∀ dk sk h a b n, k = .cpy dk sk h a b n → ∃ t o, exec (.engineKickAccept i) s = .next t ∧ s.sent t i [ack] ∧
      (t.core w.core).copies = (s.core w.core).copies ++ [o] ∧ o.op = k ∧ o.done = 0 ∧ o.who = r.who.engine (.copy w.core) ∧ t.mem = s.mem) ∧
    (∀ die c a pat off total, k = .deal die c a pat off total → ∃ t o, exec (.engineKickAccept i) s = .next t ∧ s.sent t i [ack] ∧
      (t.core w.core).copies = (s.core w.core).copies ++ [o] ∧ o.op = k ∧ o.who = r.who.engine
        (if die then .die (dieOf w.core) else .cluster (clusterOf w.core)) ∧ t.mem = s.mem) ∧
    (∀ v st, k = .sdrop v st → (st.ready = false ∨ st.out = []) →
      exec (.engineKickAccept i) s = .next ((s.unsend i).send ack)) ∧
    (∀ a d u, k = .launch a → (s.unsend i).gLoad (r.who.engine .package) .load a 64 = .done d u → fld a 5 0 = 0 →
      let q := u.accept (u.issuer r.who) d
      exec (.engineKickAccept i) s = .next (q.2.send (.reply
        { dst := w, tag := r.tag, data := q.1.setWidth 512, flags := 0, fault := none, lane := r.lane })))) ∧
  (∀ i h s, s.parked[i]? = some h → h.req.op = .pref → h.answer.isSome = true →
    let tag := h.req.tag
    (∀ c o e, tag < 2 ^ 20 → (h.req.who.agent = .copy c ∨ h.req.lane = some c ∧ ∀ d, h.req.who.agent ≠ .copy d) →
      (s.core c).copy tag = some o → o.id = tag → o.doneBy c (h.req.lane.getD 0) e h.req.lane →
      ∃ t, exec (.engineAccessRetry i) s = .next t ∧ exec e s = .next t) ∧
    (∀ c, tag < 2 ^ 20 → h.req.who.agent = .copy c → (s.core c).copy tag = none →
      exec (.engineAccessRetry i) s = .next (s.unhold h.req.who tag h.req.lane)) ∧
    (∀ c x v st, tag = streamTag x v → x < 32 → 24 ≤ v → v < 32 → h.req.who.agent = .copy c → tget (s.ctx c x).streams v = some st →
      ∃ t, exec (.engineAccessRetry i) s = .next t ∧
        exec (if st.wr then .drain c (32 + 8 * x + (v - 24)) else .streamStripLoad c x v) s = .next t) ∧
    (∀ c n, 2 ^ 30 ≤ tag → tag < 2 ^ 31 → h.req.who.agent = .copy c → s.chan.findIdx? (fun m => match m.body with
        | .req r => m.body.isKick && some r.tag == h.req.lane &&
          (match r.who.thread? with | some w => w.core == c && kickTag w == tag | none => false)
        | _ => false) = some n →
      ∃ t, exec (.engineAccessRetry i) s = .next t ∧ exec (.engineKickAccept n) s = .next t) ∧
    (∀ lvl u n r, h.req.who.agent = unitAgent (lvlNo lvl) u → (lvl = .L4 ∨ lvl = .L5 → u = 0) → 2 ^ 31 ≤ tag →
      (s.unit (lvlNo lvl) u).queue.findIdx? (fun r => cardTag r.id == tag) = some n → (s.unit (lvlNo lvl) u).queue[n]? = some r →
      (r.accepted = false → ∃ t, exec (.engineAccessRetry i) s = .next t ∧ exec (.cardAccept lvl u n) s = .next t) ∧
      (r.accepted = true → lvl = .L1 → u < 8192 → ∃ t, exec (.engineAccessRetry i) s = .next t ∧ exec (.cardRun u) s = .next t) ∧
      (r.accepted = true → lvl ≠ .L1 → isCollective r.card = false →
        ∃ t, exec (.engineAccessRetry i) s = .next t ∧ exec (.cardDecompose lvl u) s = .next t) ∧
      (r.accepted = true → lvl ≠ .L1 → isCollective r.card = true →
        ∃ t, exec (.engineAccessRetry i) s = .next t ∧ exec (.cardRun 8192) s = .next t)))

/-! ### The levels' steps -/

/-- R294, R298, R302, R305, R315 to R319, R322, R324: a card is accepted, split and run, a unit at a time through its
engine's store buffer, and its children's reports are added up; a PARITY that a child met itself is replayed once from where it stood.
R301, R303, R304: a card that is done leaves its queue; a child reports to its parent; a root whose card names no mailbox is over, and one
that names a mailbox writes its status word there. -/
def Obligations.CardSteps : Prop :=
  ((∀ lvl unit i r es x s, (s.unit (lvlNo lvl) unit).queue[i]? = some r → r.accepted = false → parityOk r.card = true →
     (((s.unit (lvlNo lvl) unit).queue.take i).all fun q => q.accepted) = true → s.unitStopped (lvlNo lvl) unit = false → isFence r.card = false → isCollective r.card = false →
     let own := r.who.engine (unitAgent (lvlNo lvl) unit)
     s.pageWait own (cardTag r.id) none = false →
     ({ s := s, own := own, a := own, tag := cardTag r.id, lane := none } : CX).entries r 4 [] = .ok (es, x) →
     let code := x.s.cardReject (lvlNo lvl) unit r.who r.card es
     exec (.cardAccept lvl unit i) s = .next ((x.s.onCard (lvlNo lvl) unit r.id fun q =>
       if code = 0 then { q with accepted := true, ents := es }
       else ({ q with accepted := true, ents := es } : CardRec).fail code 4 (cardPath q.card)
         (funitOf (lvlNo lvl) (x.s.unitNo (lvlNo lvl) unit q.card))).unhold own (cardTag r.id) none)) ∧
   (∀ lvl unit r s, (s.unit (lvlNo lvl) unit).queue.find? (fun r => !r.accepted && !r.ran) = some r →
     exec (.cardParityRefetch lvl unit) s = .next (s.onCard (lvlNo lvl) unit r.id fun q =>
       if q.parityTries = 0 then { q with card := s.parentCopy q, parityTries := 1 }
       else { q.fail 13 2 (cardPath q.card) (funitOf (lvlNo lvl) unit) with accepted := true })) ∧
   (∀ core r rest s, core < 8192 → (s.unit 1 core).queue = r :: rest → r.accepted = true → r.ran = false → isFence r.card = false →
     s.engineOn core = true → cardSL r.card = false → r.slots = none →
     ((s.core core).seqClaim r.id = none → ∃ t, exec (.cardRun core) s = .next t ∧ (t.core core).claims = (s.core core).claims ++
       [{ id := (s.core core).nextClaim, who := none, n := 4, card := r.id, granted := none }] ∧ t.units = s.units) ∧
     (∀ cl m, (s.core core).seqClaim r.id = some cl → cl.granted = some m → ∃ t q rs, exec (.cardRun core) s = .next t ∧
       (t.unit 1 core).queue = q :: rs ∧ q = { r with slots := some m } ∧ ∀ c ∈ (t.core core).claims, c.id ≠ cl.id)) ∧
   (∀ core r rest s, core < 8192 → (s.unit 1 core).queue = r :: rest → r.accepted = true → r.ran = false →
     isFence r.card = false → s.engineOn core = true → (cardSL r.card || r.slots.isSome) = true → cardOp r.card ≠ 0x0A →
     let own := r.who.engine (.seqr core)
     let tag := cardTag r.id
     s.pageWait own tag (some core) = false →
     (∀ n sat nan x b, s.ebuf own.agent = none →
       ({ s := s.setEbuf (EBuf.open' own.agent tag (some core)), own := own, a := own, tag := tag, lane := some core } : CX).step
         (some core) r r.at' = .ok (n, sat, nan, x) → x.s.ebuf own.agent = some b → b.ents ≠ [] →
       exec (.cardRun core) s = .next ((x.s.setEbuf { b with note := [n, bitNat sat, bitNat nan] }).unhold own tag (some core))) ∧
     (∀ n sat nan x b, s.ebuf own.agent = none →
       ({ s := s.setEbuf (EBuf.open' own.agent tag (some core)), own := own, a := own, tag := tag, lane := some core } : CX).step
         (some core) r r.at' = .ok (n, sat, nan, x) → x.s.ebuf own.agent = some b → b.ents = [] →
       exec (.cardRun core) s = .next (((x.s.dropEbuf own.agent).onCard 1 core r.id fun q => { q with
         prog := q.prog + n, satf := q.satf || sat, nanf := q.nanf || nan, at' := q.at' + 1
         ran := q.ran || decide (q.at' + 1 ≥ cardUnits q.card) }).unhold own tag (some core))) ∧
     (∀ b e rest l u, s.ebuf own.agent = some b → b.tag = tag → b.lane = some core → b.ents = e :: rest →
       s.eStore e.who e.pl e.data e.mask = .done l u →
       exec (.cardRun core) s = .next ((u.setEbuf { b with ents := rest }).unhold own tag (some core))) ∧
     (∀ b n sat nan, s.ebuf own.agent = some b → b.tag = tag → b.lane = some core → b.ents = [] → s.mem.fwds = [] →
       b.note = [n, bitNat sat, bitNat nan] →
       exec (.cardRun core) s = .next ((s.dropEbuf own.agent).onCard 1 core r.id fun q => { q with
         prog := q.prog + n, satf := q.satf || sat, nanf := q.nanf || nan, at' := q.at' + 1
         ran := q.ran || decide (q.at' + 1 ≥ cardUnits q.card) }))) ∧
   (∀ lvl unit r s, lvl ≠ .L1 → (lvl = .L4 → unit = 0) → s.unitOn (lvlNo lvl) unit = true →
     (s.unit (lvlNo lvl) unit).queue.find? (fun r => !r.ran && r.accepted && r.combines && r.heard && r.code == 0) = none →
     (s.unit (lvlNo lvl) unit).queue.find? (fun r => !r.issued && !r.ran) = some r → r.accepted = true →
     behindFence (s.unit (lvlNo lvl) unit).queue r.id = false → isCollective r.card = false →
     (r.children = [] → cardOp r.card ≠ 0x0A → exec (.cardDecompose lvl unit) s = .next (s.onCard (lvlNo lvl) unit r.id fun q => { q with
       children := s.childrenFor (lvlNo lvl) unit r, issued := (s.childrenFor (lvlNo lvl) unit r).isEmpty })) ∧
     (∀ c, r.code = 0 → r.children.find? (fun c => !c.sent) = some c → c.unit < 8192 →
       (s.unit (lvlNo lvl - 1) c.unit).queue.length < queueCap (lvlNo lvl - 1) →
       ∃ t d, exec (.cardDecompose lvl unit) s = .next t ∧
         (t.unit (lvlNo lvl - 1) c.unit).queue = (s.unit (lvlNo lvl - 1) c.unit).queue ++ [d] ∧ d.card = sealCard c.card (s.unit (lvlNo lvl) unit).sent ∧
         d.parent = some (lvlNo lvl, unit, r.id, c.no) ∧ d.origin = r.origin ∧ t.mem = s.mem ∧ t.cores = s.cores)) ∧
   (∀ core cl s, (s.core core).stopped = false → (s.core core).claims.find? (fun c => c.granted.isNone) = some cl → cl.n ≤ ((s.core core).freeSlots cl.n).length →
     ∃ t, exec (.slotClaimGrant core) s = .next t ∧ t.mem = s.mem ∧ s.threadsKept t ∧
       (∀ j ∈ (s.core core).freeSlots cl.n, ((t.core core).slot j).by' = (cl.who.elim .seqr Holder.ctx) ∧ ((t.core core).slot j).pending = false) ∧
       (∀ j, j ∉ (s.core core).freeSlots cl.n → (t.core core).slot j = (s.core core).slot j) ∧
       ∃ c ∈ (t.core core).claims, c.id = cl.id ∧ c.granted =
         some (((s.core core).freeSlots cl.n).foldl (fun m i => m ||| (1#32 <<< i)) 0)) ∧
   (∀ i lvl unit card child code sev path funit prog sat nan at' r c s,
     s.message i (.report lvl unit card child code sev path funit prog sat nan at') → s.unitStopped lvl unit = false →
     (s.unit lvl unit).queue.find? (fun r => r.id == card) = some r → r.children.find? (fun c => c.no == child) = some c →
     ∃ t q, exec (.childReport i) s = .next t ∧ t.chan = dropAt s.chan i ∧ (t.unit lvl unit).queue.find? (fun r => r.id == card) = some q ∧
       let heard := { r with prog := r.prog + prog, satf := r.satf || sat, nanf := r.nanf || nan }
       ((code ≠ 13 ∨ c.tries ≠ 0 ∨ r.code ≠ 0 ∨ funit ≠ funitOf (lvl - 1) c.unit) → q = { heard with
         children := r.children.map fun d => if d.no = child then { d with done := true } else d
         code := if code ≠ 0 ∧ r.code = 0 then code else r.code, sev := if code ≠ 0 ∧ r.code = 0 then sev else r.sev
         path := if code ≠ 0 ∧ r.code = 0 then path else r.path, funit := if code ≠ 0 ∧ r.code = 0 then funit else r.funit }) ∧
       (code = 13 → c.tries = 0 → r.code = 0 → funit = funitOf (lvl - 1) c.unit → q = { heard with
         issued := false
         children := r.children.map fun d => if d.no = child then { d with sent := false, tries := 1, resume := at' } else d }))) ∧
  ((∀ lvl unit r l u c no s, lvl ≠ .L1 → s.unitStopped (lvlNo lvl) unit = false → firstDone (lvlNo lvl) (s.unit (lvlNo lvl) unit).queue = some r → r.parent = some (l, u, c, no) →
     isCollective r.card = false →
     exec (.cardRetire lvl unit) s = .next ((s.onUnit (lvlNo lvl) unit fun q => { q with
       queue := q.queue.filter fun x => x.id != r.id }).send (.report l u c no r.code r.sev r.path
         (if r.code = 0 then funitOf (lvlNo lvl) (s.unitNo (lvlNo lvl) unit r.card) else r.funit) r.prog r.satf r.nanf r.at'))) ∧
   (∀ core r s, s.unitStopped 1 core = false → firstDone 1 (s.unit 1 core).queue = some r → r.parent = none → cardMbox r.card = 0 → isCollective r.card = false →
     ∃ t, exec (.cardRetire .L1 core) s = .next t ∧ (t.unit 1 core).queue = (s.unit 1 core).queue.filter (fun x => x.id != r.id) ∧
       t.mem = s.mem ∧ t.chan = s.chan ∧ (∀ j ∈ r.slotList, ((t.core core).slot j).by' = .free)) ∧
   (∀ lvl unit r d u s, lvl ≠ .L1 → s.unitStopped (lvlNo lvl) unit = false → firstDone (lvlNo lvl) (s.unit (lvlNo lvl) unit).queue = some r → r.parent = none →
     cardMbox r.card ≠ 0 → isCollective r.card = false →
     let off := fld (cardMbox r.card) 5 0
     let funit := if r.code = 0 then funitOf (lvlNo lvl) (s.unitNo (lvlNo lvl) unit r.card) else r.funit
     let w := mailWord r.sev r.code r.path funit r.prog r.satf r.nanf
     (s.onUnit (lvlNo lvl) unit fun q => { q with queue := q.queue.filter fun x => x.id != r.id }).gStore
       (r.who.engine (unitAgent (lvlNo lvl) unit)) (lineVa (cardMbox r.card))
       (atByte off w.toNat ||| atByte (off + 8) s.nowW.toNat) (byteMask off 16) false = .done d u →
     ∃ t, exec (.cardRetire lvl unit) s = .next t ∧ t.mem = u.mem) ∧
   (∀ lvl unit s, firstDone (lvlNo lvl) (s.unit (lvlNo lvl) unit).queue = none → exec (.cardRetire lvl unit) s = .next s))

/-! ### Fabric, debug and time -/

/-- R334: a flit that its retries deliver counts as a transient fault, one that they do not is a machine check and takes the path down.
R339: ranks arrive at the fabric barrier; with every rank there, the local threads are answered and a fresh barrier begins.
R340, R341: past its limit the barrier answers its local threads with a time-out; a probe says whether a stop is in force, and a held answer
stops the timer.
R342, R343: the acknowledgement of a removed frame is noted; a removal leaves the other frames and keeps the removed ones until then. -/
def Obligations.FabricSteps : Prop :=
  (∀ link s, exec (.flitReplay link true) s = .next (s.transient (BitVec.ofNat 32 (7 * 2 ^ 24 + link % 65536)) mcLINK)) ∧
  (∀ link s, ∃ t m, exec (.flitReplay link false) s = .next t ∧ link ∈ t.fabric.down ∧ (∀ k ∈ s.fabric.down, k ∈ t.fabric.down) ∧
    t.out = s.out ++ [.machineCheck m s.now] ∧ m.kind = mcLINK ∧ m.lasting = true ∧ t.cores = s.cores) ∧
  (∀ g rank s, (s.fgroup g).getLsbD 0 = true → rank < fgSize (s.fgroup g) → rank ≠ fgRank (s.fgroup g) → rank ∉ (s.fbar g).ranks →
    exec (.fabricBarrierArrive g rank) s = .next (s.setFbar g { s.fbar g with ranks := (s.fbar g).ranks ++ [rank] })) ∧
  (∀ g s, (s.fbar g).count ≠ 0 → (∀ r < fgSize (s.fgroup g), r ∈ (s.fbar g).ranks) →
    exec (.fabricBarrierRelease g) s = .next ((s.setFbar g FBarrier.fresh).sendAll
      ((s.fbar g).local'.map fun p => .reply (ackTo p.1 p.2)))) ∧
  (∀ g r s, r < fgSize (s.fgroup g) → r ∉ (s.fbar g).ranks → exec (.fabricBarrierRelease g) s = .next s) ∧
  (∀ g n s, (s.fbar g).local' ≠ [] → s.fbarFull g = false → fld (tgetD s.fabric.words1 g 0) 15 0 = n → n ≠ 0 →
    n * 1000000 < (s.fbar g).timer.at' s.now →
    exec (.fabricTimeout g) s = .next ((s.setFbar g { FBarrier.fresh with
      ranks := (s.fbar g).ranks.filter fun r => r != fgRank (s.fgroup g) }).sendAll ((s.fbar g).local'.map fun p => .reply
        { ackTo p.1 p.2 with fault := some { kind := 0, absent := false, addr := 0 } }))) ∧
  (∀ g s, (s.fbar g).local' = [] → tget s.fabric.timers g = none → exec (.fabricTimeout g) s = .next s) ∧
  (∀ g rank held s, (s.fbar g).local' = [] → tget s.fabric.timers g = none →
    exec (.progressProbe g rank held) s = .next { s with out := s.out ++ [.probe g rank (!s.dbg.stops.isEmpty)] }) ∧
  (∀ g rank held s, (s.fbar g).local' ≠ [] → tget s.fabric.timers g = none →
    ∃ t, exec (.progressProbe g rank held) s = .next t ∧ (t.fbar g).timer.held =
        (if held then (if rank ∈ (s.fbar g).timer.held then (s.fbar g).timer.held else rank :: (s.fbar g).timer.held)
         else (s.fbar g).timer.held.filter (· != rank)) ∧
      (held = true → ∀ n, (t.fbar g).timer.at' n = (s.fbar g).timer.at' s.now) ∧ (t.fbar g).ranks = (s.fbar g).ranks ∧
      (t.fbar g).local' = (s.fbar g).local') ∧
  (∀ set frame r s, tget s.mem.replicas set = some r →
    exec (.replicaInvalidateAck set frame) s = .next { s with mem := { s.mem with
      replicas := tset s.mem.replicas set { r with removed := r.removed.filter fun f => f != (frame / 2 ^ 40, frame % 2 ^ 40) } } }) ∧
  (∀ set remove r s, tget s.mem.replicas set = some r → r.frames ≠ [] → r.frames.length ≤ 16 → noDup (r.frames.map fun f => f.1) = true →
    (∃ f ∈ r.frames, f ∉ remove.map frameOf) →
    ∃ t q, exec (.replicaSetChange set [] remove) s = .next t ∧ tget t.mem.replicas set = some q ∧
      (∀ f, f ∈ q.frames ↔ f ∈ r.frames ∧ f ∉ remove.map frameOf) ∧
      q.removed = r.removed ++ (r.frames.filter fun f => decide (f ∈ remove.map frameOf)) ∧ t.mem.bytes = s.mem.bytes ∧ t.cores = s.cores)

/-- R401: a breakpoint takes BREAK, or with a debugger attached halts its context and starts a stop.
R403 to R406: a stop holds a core's engines and halts its contexts, at an edge where it is precise, or after DEDGE turns.
R407, R408, R410: the debugger's commands stop, resume and step; a step with engines ends in time.
R396, R397, R411: a tick is counted when due; a message is stamped; the clock's rate and value are adjusted. -/
def Obligations.DebugSteps : Prop :=
  (∀ core x n pc s, s.bpAt core x = some (n, pc) → (s.core core).dctl.getLsbD 0 = false → (s.ctx core x).hnd = false →
    (s.ctx core x).regs.trapvec ≠ 0 →
    ∃ t, exec (.breakpointHit core x) s = .next t ∧ traps (s.stands core x fun c => { c with
      bpPass := (n, pc) :: c.bpPass, stepping := false, half := 0
      pairOf := if s.pairAt core c.pc then (if pc = c.pc then 1 else 2) else 0 }) t BREAK pc 0) ∧
  (∀ core x n pc s, s.bpAt core x = some (n, pc) → (s.core core).dctl.getLsbD 0 = true →
    exec (.breakpointHit core x) s = .next (((((s.onCtx core x fun c => { c with bpPass := (n, pc) :: c.bpPass, stepping := false }).traceCtx core x 5
      (0xFF00 + n) pc).onCtx core x fun c => { c with skid := 0 }).haltCtx core x false).startStop
        (fld (tgetD (s.core core).pcbp n 0) 62 61) core false none)) ∧
  (∀ core n d s, s.stopFor core = some n → s.dbg.stops[n]? = some d →
    ∃ t, exec (.stopArrive core) s = .next t ∧ (t.core core).held = true ∧ ((s.core core).occupied = [] → t.mem = s.mem) ∧
      t.dbg.stops[n]? = some { d with reached := core :: d.reached, halts := d.halts ++ s.unhalted core } ∧
      ∀ c, c ≠ core → t.core c = s.core c) ∧
  (∀ core n d s, s.stopFor core = some n → s.dbg.stops[n]? = some d → d.edge = true → ∀ x, (s.core core).occupied = [x] →
    (s.ctx core x).halted = false → (s.ctx core x).edgeWait = none →
    ∃ t, exec (.stopArrive core) s = .next t ∧ t.ctx core x = { s.ctx core x with edgeWait := some 0 } ∧ (t.core core).held = true) ∧
  (∀ core n d s, s.stopFor core = some n → s.dbg.stops[n]? = some d → d.edge = false → ∀ x, (s.core core).occupied = [x] →
    (s.ctx core x).halted = false →
    ∃ t, exec (.stopArrive core) s = .next t ∧ (t.ctx core x).halted = true ∧ (t.ctx core x).regs = (s.ctx core x).regs ∧
      (t.ctx core x).pc = (s.ctx core x).pc) ∧
  (∀ core x n s, (s.core core).dedge ≠ 0 → (s.ctx core x).edgeWait = some n → (s.core core).dedge.toNat ≤ n →
    exec (.preciseStopTimeout core x) s = .next (s.haltCtx core x false)) ∧
  (∀ core x (s : State), (s.ctx core x).halted = false → ((s.haltCtx core x false).ctx core x).halted = true ∧
    ((s.haltCtx core x false).ctx core x).regs = (s.ctx core x).regs ∧ ((s.haltCtx core x false).ctx core x).edgeWait = none) ∧
  (∀ core scope edge s,
    (scope = 0 → exec (.dcmdStop core scope edge) s = .next s) ∧
    (scope ≠ 0 → exec (.dcmdStop core scope edge) s = .next { s with dbg := { s.dbg with
      stops := s.dbg.stops ++ [{ scope := scope.toNat, core := core, hit := s.now, edge := edge, extra := []
                                 reached := [], halts := [], noted := false }]
      pkgHalt := s.dbg.pkgHalt || decide (scope = 3) } })) ∧
  (∀ core s, (∀ d ∈ s.dbg.stops, d.covers core = true) →
    ∃ t, exec (.dcmdResume core) s = .next t ∧ t.dbg.pkgHalt = false ∧ t.dbg.stops = [] ∧ t.dbg.stepEngines = none ∧ t.boot.portBuf = [] ∧
      t.mem = s.mem ∧ ∀ c k, tget s.cores c = some k → (c = core ∨ ∃ d ∈ s.dbg.stops, d.covers c = true) →
        (t.core c).held = false ∧ ∀ x, (t.ctx c x).halted = false) ∧
  (∀ core x eng s, (s.ctx core x).halted = true → (s.ctx core x).run = .ready →
    ∃ t, exec (.dcmdStepContext core x eng) s = .next t ∧ t.ctx core x = { s.ctx core x with stepping := true } ∧ s.others t core x ∧
      (eng = false → t.dbg = s.dbg) ∧
      (eng = true → ∃ e, t.dbg = { s.dbg with stepEngines := some e } ∧ e.core = core ∧ e.limit = s.cycle + 2 ^ 20)) ∧
  (∀ core handle eng s, let members := ((s.group (s.ctx core 0).launch handle).map Group.members).getD []
    ∃ t, exec (.dcmdStepGroup core handle eng) s = .next t ∧ t.mem = s.mem ∧
      ∀ c x, t.ctx c x = if (s.ctx c x).launch = (s.ctx core 0).launch ∧ (handle = 0 ∨ s.who c x ∈ members) ∧
          (s.dbg.stops.any fun d => d.covers core && d.has c x (s.ctx c x)) = true ∧ (s.ctx c x).halted = true ∧ (s.ctx c x).run = .ready
        then { s.ctx c x with stepping := true } else s.ctx c x) ∧
  (∀ core e s, s.dbg.stepEngines = some e → e.core = core → e.limit ≤ s.cycle →
    exec (.engineStepLimit core) s = .next { s with dbg := { s.dbg with stepEngines := none } }) ∧
  (∀ s, s.dbg.tick < tickAt s.now s.dbg.tickExp → ∃ t, exec .tickLatch s = .next t ∧ t.dbg.tick = s.dbg.tick + 1 ∧ t.dbg.tickCyc = s.cycle ∧
    s.threadsKept t ∧ ∀ core k n, tget s.cores core = some k → n < 7 → tgetD (t.core core).cntLat n 0 = tgetD k.cnt n 0) ∧
  (∀ port s, port < 8 → exec (.ptpEventMessage port) s = .next { s with
    boot := { s.boot with ptpStamps := s.boot.ptpStamps ++ [(port, s.now)] }, out := s.out ++ [.timestamp port s.now] }) ∧
  (∀ adj : Word, ∀ s, ∃ t, exec (.clockRateAdjust adj) s = .next t ∧ t = { s with rate := t.rate } ∧
    (-(2 ^ 40 / 1000) ≤ adj.toInt ∧ adj.toInt ≤ 2 ^ 40 / 1000 → t.rate = adj.toInt)) ∧
  (∀ ns s, ∃ t, exec (.clockStepForward ns) s = .next t ∧ t.now = s.now + ns.toNat ∧ t.cores = s.cores ∧ t.mem = s.mem) ∧
  (∀ port s, exec (.keepaliveResponse port) s = .next (if s.dbg.pkgHalt then { s with out := s.out ++ [.keepalive port] } else s))

/-! ### Reliability, boot and the ports -/

/-- R425: a transient fault is counted; a lasting one is reported, stops its thread or poisons its line.
R428 to R430: a pair's first mismatch or time-out counts as transient; a second one is voted on, after which two copies that agree go on, or the
pair is contained.
R435: containment ends a rectangle's cores and threads; R364, R365: a gang switch stops cores and writes their save areas; a resume reloads
them and empties the caches.
R433, R434: a close saves the cores and what is under way; the commit opens the next interval with empty logs; a rollback writes the logged
lines back and takes up what was saved. What a close saves of messages and of the scheduler is the model's reading (log entry 64). -/
def Obligations.ReliabilitySteps : Prop :=
  (∀ m s, m.lasting = false → m.kind ≠ mcFETCH → exec (.machineCheck m) s = .next { s with rel := { s.rel with
    transients := tset s.rel.transients (m.unit.toNat * 256 + m.kind.toNat)
      (tgetD s.rel.transients (m.unit.toNat * 256 + m.kind.toNat) 0 + 1) } }) ∧
  (∀ m core s, m.lasting = false → m.kind = mcFETCH → core < 8192 → m.unit = BitVec.ofNat 32 core →
    ∃ t, exec (.machineCheck m) s = .next t ∧
      (t.core core).fpar.toNat = min ((s.core core).fpar.toNat + 1) 0xFFFFFFFF ∧ t.mem = s.mem ∧ s.threadsKept t ∧
      tget t.rel.transients (core * 256 + mcFETCH.toNat) = some (tgetD s.rel.transients (core * 256 + mcFETCH.toNat) 0 + 1)) ∧
  (∀ m s, m.lasting = true → m.kind = 2 → ∃ t, exec (.machineCheck m) s = .next t ∧ t.out = s.out ++ [.machineCheck m s.now] ∧
    (t.core m.core).ppoison = (s.core m.core).ppoison ++ [m.addr.toNat % 65536 / 8] ∧
    ∀ c, c ≠ m.core → t.core c = s.core c) ∧
  (∀ m s, m.lasting = true → m.kind = 1 → (s.ctx m.core m.ctx).run ≠ .free →
    ∃ t, exec (.machineCheck m) s = .next t ∧ t.ctx m.core m.ctx = { s.ctx m.core m.ctx with run := .stopped } ∧
      t.out = s.out ++ [.machineCheck m s.now] ∧ s.others t m.core m.ctx) ∧
  (∀ m s, m.lasting = true → m.kind = 4 → ∃ t, exec (.machineCheck m) s = .next t ∧ m.addr.toNat / 64 * 64 ∈ t.mem.poison ∧
    t.out = s.out ++ [.machineCheck m s.now] ∧ t.cores = s.cores) ∧
  (∀ core x s, (s.ctx core x).run = .stopped →
    ∃ t, exec (.machineCheckThreadEnd core x) s = .next t ∧ (t.ctx core x).run = .free ∧ (t.ctx core x).inc = (s.ctx core x).inc) ∧
  (∀ core s, s.pairRuns core = true →
    let u := s.replay core
    (tgetD u.rel.mismatch core 0 = 0 →
      exec (.pairMismatch core) s = .next (({ u with rel := { u.rel with mismatch := tset u.rel.mismatch core 1 } }).transient
        (BitVec.ofNat 32 core) mcPAIR)) ∧
    (tgetD u.rel.mismatch core 0 ≠ 0 → core < 8192 → ∃ t, exec (.pairMismatch core) s = .next t ∧
      (core ∈ t.rel.moved ∨ clusterOf core ∈ t.rel.contained ∧ clusterOf (core + 64) ∈ t.rel.contained))) ∧
  (∀ core s, s.pairRuns core = false → exec (.pairMismatch core) s = .next s) ∧
  (∀ core x s, (s.ctx core x).run ≠ .free → exec (.pairTimeout core x) s = exec (.pairMismatch core) s) ∧
  (∀ cluster s, s.rect cluster = cluster → cluster < 512 → (∀ c, c ≠ cluster → s.rect c ≠ cluster) → cluster ∉ s.rel.contained →
    ∃ t, exec (.containment cluster) s = .next t ∧ cluster ∈ t.rel.contained ∧
      ∀ core k, tget s.cores core = some k → clusterOf core = cluster → core ∉ s.rel.moved →
        (t.core core).dead = true ∧ (t.core core).pool = [] ∧ ∀ x, (t.ctx core x).run = .free) ∧
  (∀ cluster s, (∀ c < 512, s.rect c = s.rect cluster → c ∈ s.rel.contained) → exec (.containment cluster) s = .next s) ∧
  (∀ core area s, areaOk (core, area) = true → (s.core core).stopped = false → ∃ t, exec (.gangSwitch [(core, area)]) s = .next t ∧
    (t.core core).stopped = true ∧ (∀ e ∈ (t.core core).xcache, e.gone = true) ∧
    ((s.core core).csrs = [] → (∀ x, (s.ctx core x).answer = none) →
      s.threadsKept t ∧ (∀ c, c ≠ core → t.core c = s.core c) ∧ (t.core core).pool = (s.core core).pool ∧
      (s.mem.wf = true → ∀ n < 65536, t.byte (area.toNat + n) = s.poolByte core n))) ∧
  (∀ core area s, areaOk (core, area) = true → (s.core core).stopped = true → ∃ t, exec (.gangResume [(core, area)]) s = .next t ∧
    t.mem = s.mem ∧ (t.core core).stopped = false ∧ (t.core core).snap = [] ∧
    ((s.core core).memWf = true → (∀ n < 4096, tget s.mem.keys (area.toNat / 16 + n) = none) →
      ∀ n < 65536, t.poolByte core n = s.byte (area.toNat + n))) ∧
  (∀ core area s, areaOk (core, area) = false ∨ (s.core core).stopped = true → exec (.gangSwitch [(core, area)]) s = .next s) ∧
  (∀ core area s, areaOk (core, area) = false ∨ (s.core core).stopped = false → exec (.gangResume [(core, area)]) s = .next s) ∧
  (∀ s, s.rel.closing = false → (∀ p ∈ s.cores, p.2.xcache = [] ∧ p.2.csrs = [] ∧ ∀ q ∈ p.2.ctxs, q.2.answer = none) →
    ∃ t c, exec .checkpointClose s = .next t ∧ t.rel.closing = true ∧ t.rel.saved = some c ∧ c.sched = s.sched ∧ c.chan = s.chan ∧
      c.homes = s.homes ∧ c.units = s.units ∧ c.ebufs = s.ebufs ∧ c.fwds = s.mem.fwds ∧ c.parked = s.parked ∧
      (∀ core, tgetD c.cores core Core.reset = s.core core) ∧ t.mem = s.mem ∧ tget t.rel.journals s.mem.interval =
        some ((s.mem.stops.map fun p => p.2.log.map fun r => (r.line, rdLine s.mem.bytes r.line)).flatten)) ∧
  (∀ s, s.rel.closing = true → s.boot.pendingReset = false → ∃ t, exec .commitRecord s = .next t ∧ t.rel.closing = false ∧
    t.rel.commits = s.rel.commits ++ [s.mem.interval] ∧ t.mem.interval = s.mem.interval + 1 ∧ t.mem.bytes = s.mem.bytes ∧
    (∀ p ∈ t.mem.stops, p.2.log = []) ∧ t.chan = s.chan ∧ ∀ core, (t.core core).snap = []) ∧
  (∀ c s, s.rel.closing = false → s.rel.saved = some c → s.mem.stops = [] → ∃ t, exec .rollback s = .next t ∧
    t.mem = { s.mem with fwds := c.fwds, tlb := [] } ∧ t.chan = c.chan ∧ t.homes = c.homes ∧ t.sched = c.sched ∧ t.units = c.units ∧
    t.ebufs = c.ebufs ∧ t.parked = c.parked ∧ ∀ core, (t.core core).pool = (tgetD c.cores core Core.reset).pool) ∧
  (∀ c n st r s, s.rel.closing = false → s.rel.saved = some c → s.mem.wf = true → s.mem.stops = [(n, st)] → st.log = [r] →
    ∃ t, exec .rollback s = .next t ∧ ∀ a, t.byte a = if r.line ≤ a ∧ a < r.line + 64 then el 8 r.old (a - r.line) else s.byte a) ∧
  (∀ s, s.rel.saved = none ∨ s.rel.closing = true → exec .rollback s = .next s)

/-- R441 to R443: power-on, image, verification with the configuration block, the wait after eight failures, harts.
R367, R444 to R449: attestation, power limit, temperature, ports, frames, doorbells, management.
R5, R6, R335, R358, R371, R410, R438, R447: what system software reads and writes, its access faults, and the debug window, where DCMD, which is
write-only, reads as zero.
The contents of an attestation's digest and signature are free values (log entry 20). -/
def Obligations.SystemSteps : Prop :=
  (∀ s, ∃ t, exec .powerOn s = .next t ∧ t.cores = [] ∧ t.mem = Memory.reset ∧ t.boot.state = 1 ∧ t.boot.secver = s.boot.secver ∧
    t.sched = Sched.reset ∧ t.chan = []) ∧
  (∀ s, s.boot.state = 1 → exec (.bootImageFetch true) s = .next { s with boot := { s.boot with state := 2 } }) ∧
  (∀ s, s.boot.state = 1 → ∃ t, exec (.bootImageFetch false) s = .next t ∧ t.boot.failures = s.boot.failures + 1 ∧
    t.boot.state = if 8 ≤ s.boot.failures + 1 then 4 else 1) ∧
  (∀ cfg s, s.boot.state = 2 → cfgOk cfg s.boot.secver = true → ∃ t, exec (.bootVerify true cfg) s = .next t ∧ t.boot.state = 3 ∧
    t.boot.failures = 0 ∧ t.boot.harts = [0] ∧ t.boot.config = cfg ∧ t.sched.plimit = cfgN cfg 104 4 ∧ t.sched.plimitMax = cfgN cfg 104 4 ∧
    (∀ c < 512, c ∈ t.sched.disabled ↔ (cfgN cfg 24 64).testBit c = true) ∧ s.boot.secver ≤ t.boot.secver) ∧
  (∀ cfg s, s.boot.state = 2 → ∃ t, exec (.bootVerify false cfg) s = .next t ∧ t.boot.failures = s.boot.failures + 1 ∧
    t.boot.state = if 8 ≤ s.boot.failures + 1 then 4 else 1) ∧
  (∀ s, s.boot.state = 4 → s.boot.since + 60000000000 ≤ s.now →
    exec .bootRetryWait s = .next { s with boot := { s.boot with state := 1, failures := 0 } }) ∧
  (∀ hart s, 0 ∈ s.boot.harts → hart < 32 → hart ∉ s.boot.harts →
    exec (.hartStartRequest hart) s = .next { s with boot := { s.boot with harts := s.boot.harts ++ [hart] } }) ∧
  (∀ op s, ∃ t, exec (.redfishPower op) s = .next t ∧ (op = 0 → t.boot.state = if s.boot.state = 0 then 1 else s.boot.state) ∧
    (op = 1 → t.boot.state = 0 ∧ t.cores = []) ∧ (op = 2 → s.rel.closing = false → t.boot.state = 1 ∧ t.cores = []) ∧
    (op = 2 → s.rel.closing = true → t.boot.pendingReset = true ∧ t.cores = s.cores)) ∧
  (∀ s, exec .redfishBootState s = .next { s with out := s.out ++ [.bootState s.boot.state] }) ∧
  (∀ tenant launch nonce s, ∃ t r, exec (.attestationRequest tenant launch nonce) s = .next t ∧ t.out = s.out ++ [.attested r] ∧
    r.length = 256 ∧ t.mem = s.mem ∧ t.cores = s.cores) ∧
  (∀ w s, exec (.plimitSet w) s = .next (if w.toNat ≤ s.sched.plimitMax then { s with sched := { s.sched with plimit := w.toNat } } else s)) ∧
  (∀ die temp s, die < 16 → ∃ t, exec (.thermalReport die temp) s = .next t ∧ tget t.boot.junction die = some temp ∧
    (die ∈ t.boot.wakeRefused ↔ s.boot.tthrot ≤ temp) ∧ (125 ≤ temp → t.boot.railOff = true) ∧
    (s.boot.tstop ≤ temp → s.dbg.pkgHalt = false → t.dbg.pkgHalt = true) ∧ (temp < s.boot.tstop → t.dbg = s.dbg)) ∧
  (∀ port s, port < 16 → ∃ t, exec (.cxlPortDown port) s = .next t ∧ port ∈ t.mem.cxlDown ∧ t.mem.bytes = s.mem.bytes ∧ t.cores = s.cores) ∧
  (∀ port frame s, port < 8 → s.boot.cfgBit 98 port = true → s.boot.state = 3 → s.dbg.pkgHalt = false →
    exec (.ethernetFrameReceive port frame) s = .next { s with out := s.out ++ [.frame port frame] }) ∧
  (∀ addr data s, s.boot.cfgBit 100 0 = true → s.boot.state = 3 →
    exec (.pcieHostAccess false true addr data) s = .next { s with out := s.out ++ [.doorbell addr data] }) ∧
  (∀ hart sz addr data s,
    let pa := fld addr 57 0
    inDebug pa = false → pa % 64 + stN sz ≤ 64 → s.logRoom (pa / 64 * 64) = true → s.mem.wf = true → s.physCheck addr pa (stN sz) false = none →
    (∀ n < 4, tget s.mem.keys (pa / 64 * 4 + n) = none) →
    ∃ t, exec (.systemCoreAccess hart true sz addr data) s = .next t ∧ t.cores = s.cores ∧
      ∀ a, t.byte a = if pa ≤ a ∧ a < pa + stN sz then data.extractLsb' (8 * (a - pa)) 8 else s.byte a) ∧
  (∀ hart sz addr data k s, let pa := fld addr 57 0
    inDebug pa = false → pa % 64 + stN sz ≤ 64 → s.physCheck addr pa (stN sz) false = some k →
    ∃ t, exec (.systemCoreAccess hart true sz addr data) s = .next t ∧ t.out = s.out ++ [.accessFault hart k addr] ∧ t.mem.bytes = s.mem.bytes) ∧
  (∀ hart sz addr data s, let pa := fld addr 57 0
    inDebug pa = false → pa % 64 + stN sz ≤ 64 → s.physCheck addr pa (stN sz) true = none →
    (∀ n < 4, tget s.mem.keys (pa / 64 * 4 + n) = none) →
    exec (.systemCoreAccess hart false sz addr data) s = .next { s with
      out := s.out ++ [.loaded hart (BitVec.ofNat 64 (leNat (fun k => s.byte (pa + k)) (stN sz)))] }) ∧
  (∀ hart core s, core < 8192 → ∃ t, exec (.systemCoreAccess hart false .d (BitVec.ofNat 64 (0xF0000000000 + 512 * core + 16)) 0) s = .next t ∧
    t.out = s.out ++ [.loaded hart 0] ∧ t.cores = s.cores ∧ t.mem = s.mem ∧ t.dbg = s.dbg) ∧
  (∀ hart core v s, core < 8192 →
    exec (.systemCoreAccess hart true .d (BitVec.ofNat 64 (0xF0000000000 + 512 * core + 24)) v) s =
      .next (s.onCore core fun k => { k with dedge := v.setWidth 32 })) ∧
  (∀ n v s, n < 65536 → exec (.controlRegisterWrite (.tenantRoot n) v) s = .next { s with mem := { s.mem with
    roots := tset s.mem.roots n v } }) ∧
  (∀ core n c v s, core < 8192 → n < 4096 → csrOf (BitVec.ofNat 12 n) = .ok c →
    exec (.controlRegisterWrite (.coreReg core n) v) s = .next (s.onCore core fun k => csrWritten k c v)) ∧
  (∀ g v s, g < 256 → ∃ t, exec (.controlRegisterWrite (.fabricGroup g 0) v) s = .next t ∧ fgRank (t.fgroup g) = fld v 19 8 ∧
    fgSize (t.fgroup g) = fld v 31 20 + 1 ∧ (t.fgroup g).getLsbD 0 = v.getLsbD 0)

/-! ### Reset, memory, encoding, the step -/

/-- R27, R266, R435, R436, R441: after reset no context holds a thread, every incarnation is 0, every compute core is gated, handles are
idle with all ones and counters 0, each cluster is a rectangle of its own with its poison policy set; only system-core hart 0 runs, and
no message, request or card is on its way. R43, R62, R105: the registers that a thread starts with. -/
def Obligations.ResetState : Prop :=
  (∀ c x, (State.reset.ctx c x).run = .free ∧ (State.reset.ctx c x).inc = 0 ∧ (State.reset.core c).power = .gated) ∧
  (∀ c h k, (State.reset.core c).handle h = { bits := BitVec.allOnes 64, busy := false, fault := none } ∧
    ((State.reset.core c).counter k).n = 0) ∧
  (∀ n, State.reset.rect n = n ∧ n ∉ State.reset.rel.policyOff ∧ n ∉ State.reset.rel.contained) ∧
  State.reset.boot.harts = [0] ∧ State.reset.chan = [] ∧ State.reset.homes = [] ∧ State.reset.units = [] ∧
  (∀ r, Regs.reset.getG r = 0) ∧ (∀ r, Regs.reset.getV r = 0) ∧ (∀ r, Regs.reset.getP r = if r = 0 then 0xFFFF else 0) ∧
  Regs.reset.fflags = 0 ∧ Regs.reset.frm = 0 ∧ Regs.reset.bxdelta = 4 ∧ Regs.reset.synclim = 65536 ∧ Regs.reset.trapvec = 0

/-- The model's choice (log entry 4): after reset no byte of memory is listed, and a byte that is not listed reads as 0. Physical memory
and every core's pool are then in the canonical form. -/
def Obligations.ResetMemory : Prop :=
  State.reset.mem.wf = true ∧ State.reset.poolsOk = true ∧ (∀ a, State.reset.byte a = 0) ∧ (∀ c a, State.reset.poolByte c a = 0)

/-- Whatever the machine does in a step, physical memory keeps its canonical form: addresses rise, and no byte is listed that an unlisted
one reads as. -/
def Obligations.StepKeepsMemory : Prop :=
  ∀ s t, s.mem.wf = true → step s = .next t → t.mem.wf = true

/-- Whatever the machine does in a step, every core's pool and operand memory, those saved at a close or at a replay point and the memory
of peers keep the canonical form. -/
def Obligations.StepKeepsPools : Prop :=
  ∀ s t, s.poolsOk = true → step s = .next t → t.poolsOk = true

/-- R12 to R14, R23: units lie where the tables put them. R13: a message passes routers in X first until it reaches the destination
column, and then in Y, one neighbour after another. R451: between a unit of a compute die and an IO die it passes the attachment router of
the same die column, or of the same die row. R193: its hops. -/
def Obligations.MessagePaths : Prop :=
  (∀ c, c < 8192 → Node.router (.core c) = some (c % 128, c / 128)) ∧
  (∀ k, k < 512 → ∀ x y, Node.router (.cluster k) = some (x, y) → x < 128 ∧ y < 64 ∧ x % 4 = 0 ∧ y % 4 = 0 ∧
    (y / 16 * 4 + x / 32) * 32 + y % 16 / 4 * 8 + x % 32 / 4 = k) ∧
  (∀ d, d < 16 → Node.router (.die d) = some (32 * (d % 4) + 16, 16 * (d / 4) + 8)) ∧
  (∀ n j, n < 16 → j < 4 → Node.router (.stop (4 * n + j)) = some (32 * (n % 4) + 8 * j + 3, 16 * (n / 4) + 7)) ∧
  (∀ a b p q, Node.router a = some p → Node.router b = some q →
    (path a b).head? = some p ∧ (path a b).getLast? = some q ∧
    (∀ m ∈ path a b, m.2 = p.2 ∨ m.1 = q.1) ∧
    (∀ n u v, (path a b)[n]? = some u → (path a b)[n + 1]? = some v →
      (u.2 = v.2 ∧ (u.1 + 1 = v.1 ∨ v.1 + 1 = u.1)) ∨ (u.1 = v.1 ∧ (u.2 + 1 = v.2 ∨ v.2 + 1 = u.2))) ∧
    hops a b = (max p.1 q.1 - min p.1 q.1) + (max p.2 q.2 - min p.2 q.2)) ∧
  (∀ a b p d, Node.router a = some p → Node.router b = none → Node.ioDie b = some d → d < 4 →
    (path a b).head? = some p ∧
    (path a b).getLast? = some (if d = 0 then (32 * (p.1 / 32) + 16, 0) else if d = 1 then (127, 16 * (p.2 / 16) + 8)
      else if d = 2 then (32 * (p.1 / 32) + 16, 63) else (0, 16 * (p.2 / 16) + 8)) ∧
    hops a b = (path a b).length - 1 + 2)

/-- R38, R45 to R47: encoding and decoding agree: what the encoder writes for a well-formed instruction decodes to that instruction, with
every operand, and a word that decodes is what the encoder writes for a well-formed instruction. -/
def Obligations.RoundTrip : Prop :=
  (∀ i w, i.wf = true → encode i = some w → decode w = .ok i) ∧
  ∀ w i, decode w = .ok i → i.wf = true ∧ encode i = some w

/-- R45 to R47: words written out from the spec's encodings decode to the instructions they stand for. -/
def Obligations.DecodedWords : Prop :=
  decode 0x000D08000000000000000000#96 = .ok (.mfs ⟨false, 0, false⟩ 8 .tid) ∧
  decode 0x00C003040001FFFFFFFFFFFF#96 = .ok (.addImm ⟨false, 0, false⟩ .d 3 4 0xFFFFFFFFFFFF) ∧
  decode 0x388003040500000100000000#96 = .ok (.add ⟨false, 3, true⟩ .d 3 4 5) ∧
  decode 0x010303040506000000000000#96 = .ok (.caddr ⟨false, 0, false⟩ 3 4 5 6) ∧
  decode 0x218000000000FFFFFFFFFFF1#96 = .ok (.br ⟨false, 2, false⟩ 0xFFFF 0xFFFFFFF1) ∧
  decode 0x020161000500000000040000#96 = .ok (.xsel ⟨false, 0, false⟩ 1 (some 5) 4) ∧
  decode 0x828344454644000000000000#96 = .ok (.vfma ⟨true, 0, false⟩ .f32 .cur 4 5 6 4) ∧
  decode 0x031364454600040000000000#96 = .ok (.vicmp ⟨false, 0, false⟩ .i32 .ltu 4 5 6) ∧
  decode 0x0380414243FF010000000000#96 = .ok (.vqnt ⟨false, 0, false⟩ false .f32 .bx8 1 2 (some 3) none) ∧
  decode 0x0400070405F30002FFFF0010#96 = .ok (.ld ⟨false, 0, false⟩ .d true 0xFFFF 7 { am := .g, a := 4, b := 5, sc := 3, disp := 16 }) ∧
  decode 0x048107040500000200000003#96 = .ok (.cst ⟨false, 0, false⟩ 2 7 4 5 3) ∧
  decode 0x0500B0040506000000000030#96 = .ok (.cpy ⟨false, 0, false⟩ .l .g 0 4 5 6) ∧
  decode 0x0586008104FF000003F90003#96 = .ok (.ast ⟨false, 0, false⟩ .g .f32 0 25 31 1 4 none) ∧
  decode 0x0602060405C3009000000008#96 = .ok (.patom ⟨false, 0, false⟩ .d .cas 6 4 5 8) ∧
  decode 0x068503040000000B00000000#96 = .ok (.jnlrd ⟨false, 0, false⟩ 11 3 4) ∧
  decode 0x070503040000000000000003#96 = .ok (.qstatInst ⟨false, 0, false⟩ 3 4) ∧
  decode 0x078400040000013A00000000#96 = .ok (.wpset ⟨false, 0, false⟩ 2 3 1 .x 4)

/-- R31 to R33, R42: the machine's step issues the instruction whose bits stand at the PC of the chosen context, with the PC of the next
one behind it; then the core's turn ends. Bits that are no instruction take ILLEGAL_INSN, and a pair issues as one. An event that may come
happens at once. -/
def Obligations.StepRuns : Prop :=
  (∀ s core x l w i, s.issues core x l = true → lineAt l (s.ctx core x).pc = .one w → decode w = .ok i →
    let pos := (s.cycle + (s.core core).phase) % 8
    let u := s.prepare core pos x (.one w)
    u.me = (core, x) ∧ u.took = none ∧ u.cx.regs = (s.ctx core x).regs ∧ u.cx.pc = (s.ctx core x).pc ∧ u.cx.run = (s.ctx core x).run ∧
    u.cx.npc = pcAfter (s.ctx core x).pc 1 ∧ u.mem = s.mem ∧ u.chan = s.chan ∧ (∀ c, (u.core c).pool = (s.core c).pool) ∧
    ∀ t, exec i u = .next t → step s = .next (t.endTurn core pos
      ((Word1.one w).vec && ({ s with me := (core, x), took := none }).issued (.one w) != 0))) ∧
  (∀ s core x l w e, s.issues core x l = true → lineAt l (s.ctx core x).pc = .one w → decode w = .error e →
    let pos := (s.cycle + (s.core core).phase) % 8
    step s = .next (((s.prepare core pos x (.one w)).trap ILLEGAL_INSN 0).endTurn core pos false)) ∧
  (∀ s core x l a b, s.issues core x l = true → lineAt l (s.ctx core x).pc = .two a b →
    let pos := (s.cycle + (s.core core).phase) % 8
    ∀ t, execPairIssue a b (s.prepare core pos x (.two a b)) = .next t → step s = .next (t.endTurn core pos
      ((Word1.two a b).vec && ({ s with me := (core, x), took := none }).issued (.two a b) != 0))) ∧
  (∀ s pre i post, s.follow = [] → s.agenda = pre ++ i :: post → (∀ j ∈ pre, s.allows j = false ∨ s.blocked j = true) →
    s.allows i = true → s.blocked i = false → source i ≠ .none' → step s = exec i { s with agenda := pre ++ post })
end

