-- ==== Sys2Proof/Laws/Tables.lean ====
section
/-! SUPPORT. Tables.lean: sparse tables: reading after a write, and the order of the keys. -/
namespace Sys2Proof.Machine

@[simp] theorem tget_tset_self {α : Type} (t : Tab α) (k : Nat) (v : α) : tget (tset t k v) k = some v := by
  induction t with
  | nil => simp [tset, tget]
  | cons p t ih =>
    obtain ⟨j, w⟩ := p
    simp only [tset]
    split
    · simp [tget]
    · split
      · simp [tget]
      · simp [tget, *]

theorem tget_tset_ne {α : Type} (t : Tab α) {j k : Nat} (v : α) (h : j ≠ k) : tget (tset t k v) j = tget t j := by
  induction t with
  | nil => simp [tset, tget, h]
  | cons p t ih =>
    obtain ⟨i, w⟩ := p
    simp only [tset]
    split
    · simp [tget, h]
    · split
      · subst_vars; simp [tget, h]
      · simp [tget, ih]

theorem tget_tset {α : Type} (t : Tab α) (j k : Nat) (v : α) :
    tget (tset t k v) j = if j = k then some v else tget t j := by
  by_cases h : j = k
  · subst h; simp
  · simp [h, tget_tset_ne t v h]

@[simp] theorem tgetD_tset_self {α : Type} (t : Tab α) (k : Nat) (v d : α) : tgetD (tset t k v) k d = v := by
  simp [tgetD]

theorem tgetD_tset_ne {α : Type} (t : Tab α) {j k : Nat} (v d : α) (h : j ≠ k) :
    tgetD (tset t k v) j d = tgetD t j d := by
  simp [tgetD, tget_tset_ne t v h]

theorem tgetD_tset {α : Type} (t : Tab α) (j k : Nat) (v d : α) :
    tgetD (tset t k v) j d = if j = k then v else tgetD t j d := by
  by_cases h : j = k
  · subst h; simp
  · simp [h, tgetD_tset_ne t v d h]

/-- Keys that rise from b rise from every smaller bound. -/
theorem risesFrom_le {α : Type} {b c : Nat} {t : Tab α} (h : risesFrom b t = true) (hc : c ≤ b) : risesFrom c t = true := by
  cases t with
  | nil => rfl
  | cons p t =>
    simp only [risesFrom, Bool.and_eq_true, decide_eq_true_eq] at h ⊢
    exact ⟨by omega, h.2⟩

theorem risesFrom_tset {α : Type} {b k : Nat} {t : Tab α} (v : α) (h : risesFrom b t = true) (hk : b ≤ k) :
    risesFrom b (tset t k v) = true := by
  induction t generalizing b with
  | nil => simp [tset, risesFrom, hk]
  | cons p t ih =>
    obtain ⟨j, w⟩ := p
    simp only [risesFrom, Bool.and_eq_true, decide_eq_true_eq] at h
    simp only [tset]
    split
    · simp only [risesFrom, Bool.and_eq_true, decide_eq_true_eq]
      exact ⟨hk, by omega, h.2⟩
    · split
      · subst_vars; simpa [risesFrom] using h
      · simp only [risesFrom, Bool.and_eq_true, decide_eq_true_eq]
        exact ⟨h.1, ih h.2 (by omega)⟩

theorem risesFrom_tdel {α : Type} {b k : Nat} {t : Tab α} (h : risesFrom b t = true) : risesFrom b (tdel t k) = true := by
  induction t generalizing b with
  | nil => rfl
  | cons p t ih =>
    obtain ⟨j, w⟩ := p
    simp only [risesFrom, Bool.and_eq_true, decide_eq_true_eq] at h
    simp only [tdel]
    split
    · exact risesFrom_le h.2 (by omega)
    · simp only [risesFrom, Bool.and_eq_true, decide_eq_true_eq]
      exact ⟨h.1, ih h.2⟩

/-- A key below the bound is not there. -/
theorem tget_none_of_rises {α : Type} {b k : Nat} {t : Tab α} (h : risesFrom b t = true) (hk : k < b) : tget t k = none := by
  induction t generalizing b with
  | nil => rfl
  | cons p t ih =>
    obtain ⟨j, w⟩ := p
    simp only [risesFrom, Bool.and_eq_true, decide_eq_true_eq] at h
    simp only [tget]
    rw [if_neg (by omega)]
    exact ih h.2 (by omega)

theorem tget_tdel {α : Type} {b : Nat} {t : Tab α} (h : risesFrom b t = true) (j k : Nat) :
    tget (tdel t k) j = if j = k then none else tget t j := by
  induction t generalizing b with
  | nil => simp [tdel, tget]
  | cons p t ih =>
    obtain ⟨i, w⟩ := p
    simp only [risesFrom, Bool.and_eq_true, decide_eq_true_eq] at h
    simp only [tdel]
    by_cases hk : k = i
    · subst hk
      rw [if_pos rfl]
      by_cases hj : j = k
      · subst hj; rw [if_pos rfl]; exact tget_none_of_rises h.2 (by omega)
      · simp [tget, hj]
    · rw [if_neg hk]
      simp only [tget]
      by_cases hj : j = i
      · subst hj; simp [Ne.symm hk]
      · simp [hj, ih h.2]

end Sys2Proof.Machine
end

