-- ==== Sys2Proof/Laws/Cells.lean ====
section
/-! SUPPORT. Cells.lean: bytes of memory: every write keeps the canonical form, and reads back. -/
namespace Sys2Proof.Machine
open Host (Cell)

theorem all_tset {α : Type} {p : Nat × α → Bool} {t : Tab α} {k : Nat} {v : α} (h : t.all p = true) (hv : p (k, v) = true) :
    (tset t k v).all p = true := by
  induction t with
  | nil => simp [tset, hv]
  | cons q t ih =>
    obtain ⟨j, w⟩ := q
    simp only [List.all_cons, Bool.and_eq_true] at h
    simp only [tset]
    split
    · simp [hv, h]
    · split <;> simp [hv, h, ih h.2]

theorem all_tdel {α : Type} {p : Nat × α → Bool} {t : Tab α} {k : Nat} (h : t.all p = true) : (tdel t k).all p = true := by
  induction t with
  | nil => rfl
  | cons q t ih =>
    obtain ⟨j, w⟩ := q
    simp only [List.all_cons, Bool.and_eq_true] at h
    simp only [tdel]
    split
    · exact h.2
    · simp [h, ih h.2]

theorem cellsOk_nil : cellsOk [] = true := rfl

theorem cellsOk_wrByte {m : List Cell} (h : cellsOk m = true) (a : Nat) (b : Byte) : cellsOk (wrByte m a b) = true := by
  simp only [cellsOk, Bool.and_eq_true] at h ⊢
  unfold wrByte tput
  split
  · exact ⟨risesFrom_tdel h.1, all_tdel h.2⟩
  · exact ⟨risesFrom_tset b h.1 (Nat.zero_le _), all_tset h.2 (by simpa using ‹¬ b = 0›)⟩

theorem cellsOk_wrBytes {m : List Cell} (h : cellsOk m = true) (a : Nat) (l : List Byte) : cellsOk (wrBytes m a l) = true := by
  induction l generalizing m a with
  | nil => exact h
  | cons b t ih => exact ih (cellsOk_wrByte h a b) (a + 1)

theorem cellsOk_wrN {m : List Cell} (h : cellsOk m = true) (a n v : Nat) : cellsOk (wrN m a n v) = true := by
  induction n generalizing m a v with
  | zero => exact h
  | succ n ih => exact ih (cellsOk_wrByte h a _) (a + 1) (v / 256)

theorem cellsOk_wrMasked {m : List Cell} (h : cellsOk m = true) (a : Nat) (l : Line) (mask : BitVec 64) (n : Nat) :
    cellsOk (wrMasked m a l mask n) = true := by
  induction n with
  | zero => exact h
  | succ n ih =>
    simp only [wrMasked]
    split
    · exact cellsOk_wrByte ih _ _
    · exact ih

/-- A byte written reads back, and every other byte reads as before. -/
theorem rdByte_wrByte {m : List Cell} (h : cellsOk m = true) (a c : Nat) (b : Byte) :
    rdByte (wrByte m a b) c = if c = a then b else rdByte m c := by
  simp only [cellsOk, Bool.and_eq_true] at h
  unfold rdByte wrByte tput tgetD
  split
  · rw [tget_tdel h.1]; split <;> simp [*]
  · rw [tget_tset]; split <;> simp

/-- The bytes of a masked write read back; every other byte reads as before. -/
theorem rdByte_wrMasked {m : List Cell} (h : cellsOk m = true) (a c : Nat) (l : Line) (mask : BitVec 64) (n : Nat) :
    rdByte (wrMasked m a l mask n) c =
      if a ≤ c ∧ c < a + n ∧ mask.getLsbD (c - a) = true then lineByte l (c - a) else rdByte m c := by
  induction n with
  | zero => simp only [wrMasked]; rw [if_neg]; omega
  | succ n ih =>
    simp only [wrMasked]
    by_cases hc : c = a + n
    · subst hc
      split
      · rw [rdByte_wrByte (cellsOk_wrMasked h ..)]; simp [*]
      · rw [ih]; simp [*]
    · have : (a ≤ c ∧ c < a + (n + 1) ∧ mask.getLsbD (c - a) = true) ↔ (a ≤ c ∧ c < a + n ∧ mask.getLsbD (c - a) = true) := by
        constructor <;> intro ⟨h1, h2, h3⟩ <;> exact ⟨h1, by omega, h3⟩
      split
      · rw [rdByte_wrByte (cellsOk_wrMasked h ..), if_neg hc, ih]; simp only [this]
      · rw [ih]; simp only [this]

/-- The bytes of a number written read back, lowest first; every other byte reads as before. -/
theorem rdByte_wrN {m : List Cell} (h : cellsOk m = true) (a c n v : Nat) :
    rdByte (wrN m a n v) c = if a ≤ c ∧ c < a + n then BitVec.ofNat 8 (v / 256 ^ (c - a)) else rdByte m c := by
  induction n generalizing m a v with
  | zero => simp only [wrN]; rw [if_neg]; omega
  | succ n ih =>
    simp only [wrN]
    rw [ih (cellsOk_wrByte h ..), rdByte_wrByte h]
    by_cases hc : c = a
    · subst hc
      rw [if_neg (by omega), if_pos rfl, if_pos (by omega)]; simp
    · by_cases h1 : a + 1 ≤ c ∧ c < a + 1 + n
      · rw [if_pos h1, if_pos (by omega), Nat.div_div_eq_div_mul]
        have : c - a = (c - (a + 1)) + 1 := by omega
        rw [this, Nat.pow_succ, Nat.mul_comm]
      · rw [if_neg h1, if_neg hc, if_neg (by omega)]

theorem rdByte_wrBytes {m : List Cell} (h : cellsOk m = true) (a c : Nat) (l : List Byte) :
    rdByte (wrBytes m a l) c = if a ≤ c ∧ c < a + l.length then (l[c - a]?).getD 0 else rdByte m c := by
  induction l generalizing m a with
  | nil => simp only [wrBytes, List.length_nil]; rw [if_neg]; omega
  | cons b t ih =>
    simp only [wrBytes, List.length_cons]
    rw [ih (cellsOk_wrByte h ..), rdByte_wrByte h]
    by_cases hc : c = a
    · subst hc; rw [if_neg (by omega), if_pos rfl, if_pos (by omega)]; simp
    · by_cases h1 : a + 1 ≤ c ∧ c < a + 1 + t.length
      · rw [if_pos h1, if_pos (by omega)]
        have : c - a = (c - (a + 1)) + 1 := by omega
        rw [this]; simp
      · rw [if_neg h1, if_neg hc, if_neg (by omega)]

end Sys2Proof.Machine
end

