-- ==== Sys2Proof/Laws/Integer.lean ====
section
/-! SUPPORT. Integer.lean: the integer results of the meanings are those of the spec's tables (R120 to R126). -/
namespace Sys2Proof.Machine
open Sys2Proof.Manual

theorem signedOf_eq (w n : Nat) : signedOf w n = (BitVec.ofNat w n).toInt := by
  simp only [signedOf, BitVec.toInt_eq_toNat_cond, BitVec.toNat_ofNat]
  split <;> simp

theorem sextW_eq (w n : Nat) : sextW w n = (BitVec.ofNat w n).signExtend 64 := by
  simp [sextW, signedOf_eq, BitVec.signExtend]

theorem signedOf_toNat {w : Nat} (a : BitVec w) : signedOf w a.toNat = a.toInt := by simp [signedOf_eq]

theorem ofNat_modPow (w : Nat) (i : Int) : BitVec.ofNat w (modPow w i) = BitVec.ofInt w i := by
  apply BitVec.eq_of_toNat_eq
  simp only [modPow, BitVec.toNat_ofNat, BitVec.toNat_ofInt]
  rw [Nat.mod_eq_of_lt]
  · simp
  · have h := Int.emod_lt_of_pos i (show (0 : Int) < 2 ^ w by positivity)
    have h0 := Int.emod_nonneg i (show (2 : Int) ^ w ≠ 0 by positivity)
    zify
    rw [Int.toNat_of_nonneg h0]
    exact_mod_cast h

/-- An operation on numbers that agrees with one on bit vectors at each width gives the same result in a register. -/
theorem aluValue_eq {f : Nat → Nat → Nat → Nat} {g : (w : Nat) → BitVec w → BitVec w → BitVec w} (wd : Wd) (x y : Word)
    (h : ∀ w, (w = 32 ∨ w = 64) → ∀ a b : BitVec w, BitVec.ofNat w (f w a.toNat b.toNat) = g w a b) :
    aluValue wd f x y = wide wd g x y := by
  cases wd with
  | d =>
    have := h 64 (.inr rfl) x y
    simp only [aluValue, wdWidth, sextW_eq, wide]
    rw [Nat.mod_eq_of_lt x.isLt, Nat.mod_eq_of_lt y.isLt, this, BitVec.signExtend_eq]
  | w =>
    have := h 32 (.inl rfl) (x.setWidth 32) (y.setWidth 32)
    simp only [BitVec.toNat_setWidth] at this
    simp only [aluValue, wdWidth, sextW_eq, wide, this]

variable (wd : Wd) (x y : Word)

theorem alu_add : aluValue wd rAdd x y = wide wd resAdd x y :=
  aluValue_eq wd x y fun w _ a b => by apply BitVec.eq_of_toNat_eq; simp [rAdd, resAdd]
theorem alu_sub : aluValue wd rSub x y = wide wd resSub x y :=
  aluValue_eq wd x y fun w _ a b => by
    apply BitVec.eq_of_toNat_eq
    simp only [rSub, resSub, BitVec.toNat_ofNat, BitVec.toNat_sub, Nat.mod_mod]
    congr 1; have := b.isLt; omega
theorem alu_mul : aluValue wd rMul x y = wide wd resMul x y :=
  aluValue_eq wd x y fun w _ a b => by
    simp only [rMul, resMul, ofNat_modPow, signedOf_toNat, BitVec.ofInt_mul, BitVec.ofInt_toInt]
theorem alu_mulh : aluValue wd rMulh x y = wide wd resMulh x y :=
  aluValue_eq wd x y fun w _ a b => by simp only [rMulh, resMulh, ofNat_modPow, signedOf_toNat]
theorem alu_mulhu : aluValue wd rMulhu x y = wide wd resMulhu x y :=
  aluValue_eq wd x y fun w _ a b => by simp only [rMulhu, resMulhu]
theorem alu_and : aluValue wd rAndd x y = wide wd resAnd x y :=
  aluValue_eq wd x y fun w _ a b => by apply BitVec.eq_of_toNat_eq; simp [rAndd, resAnd]
theorem alu_or : aluValue wd rOrr x y = wide wd resOr x y :=
  aluValue_eq wd x y fun w _ a b => by apply BitVec.eq_of_toNat_eq; simp [rOrr, resOr]
theorem alu_xor : aluValue wd rXor x y = wide wd resXor x y :=
  aluValue_eq wd x y fun w _ a b => by apply BitVec.eq_of_toNat_eq; simp [rXor, resXor]
theorem alu_andn : aluValue wd rAndn x y = wide wd resAndn x y :=
  aluValue_eq wd x y fun w _ a b => by
    apply BitVec.eq_of_toNat_eq
    have h : 2 ^ w - 1 - b.toNat < 2 ^ w := by have := Nat.two_pow_pos w; omega
    simp [rAndn, resAndn, BitVec.toNat_not, Nat.mod_eq_of_lt h]
theorem alu_shl : aluValue wd rShl x y = wide wd resShl x y :=
  aluValue_eq wd x y fun w _ a b => by
    apply BitVec.eq_of_toNat_eq; simp [rShl, resShl, Nat.shiftLeft_eq]
theorem alu_shr : aluValue wd rShr x y = wide wd resShr x y :=
  aluValue_eq wd x y fun w _ a b => by
    apply BitVec.eq_of_toNat_eq
    simp [rShr, resShr, Nat.shiftRight_eq_div_pow, Nat.mod_eq_of_lt (Nat.lt_of_le_of_lt (Nat.div_le_self _ _) a.isLt)]
theorem alu_sra : aluValue wd rSra x y = wide wd resSra x y :=
  aluValue_eq wd x y fun w _ a b => by
    simp only [rSra, resSra, ofNat_modPow, signedOf_toNat, BitVec.sshiftRight, Int.shiftRight_eq_div_pow]
    norm_cast
theorem alu_rol : aluValue wd rRol x y = wide wd resRol x y :=
  aluValue_eq wd x y fun w _ a b => by
    apply BitVec.eq_of_toNat_eq
    have h1 : a.toNat / 2 ^ (w - b.toNat % w) < 2 ^ w := Nat.lt_of_le_of_lt (Nat.div_le_self _ _) a.isLt
    simp [rRol, resRol, Nat.shiftRight_eq_div_pow, Nat.shiftLeft_eq, Nat.mod_eq_of_lt h1]
theorem alu_min : aluValue wd rMin x y = wide wd resMin x y :=
  aluValue_eq wd x y fun w _ a b => by simp only [rMin, resMin, signedOf_toNat]; split <;> simp
theorem alu_max : aluValue wd rMax x y = wide wd resMax x y :=
  aluValue_eq wd x y fun w _ a b => by simp only [rMax, resMax, signedOf_toNat, ge_iff_le]; split <;> simp
theorem alu_minu : aluValue wd rMinu x y = wide wd resMinu x y :=
  aluValue_eq wd x y fun w _ a b => by
    apply BitVec.eq_of_toNat_eq
    simp only [rMinu, resMinu, BitVec.le_def, Nat.min_def]; split <;> simp
theorem alu_maxu : aluValue wd rMaxu x y = wide wd resMaxu x y :=
  aluValue_eq wd x y fun w _ a b => by
    apply BitVec.eq_of_toNat_eq
    have ha := a.isLt
    have hb := b.isLt
    simp only [rMaxu, resMaxu, BitVec.le_def, Nat.max_def, BitVec.toNat_ofNat]
    split <;> split <;> simp [Nat.mod_eq_of_lt, ha, hb] <;> omega
theorem alu_div : aluValue wd rDiv x y = wide wd resDiv x y :=
  aluValue_eq wd x y fun w _ a b => by
    simp only [rDiv, resDiv]
    by_cases h : b.toNat = 0
    · have : b = 0 := BitVec.eq_of_toNat_eq (by simpa using h)
      simp only [if_true, this]
      apply BitVec.eq_of_toNat_eq; simp
    · have : b ≠ 0 := fun e => h (by simp [e])
      simp only [h, if_false, this, ofNat_modPow, signedOf_toNat]
theorem alu_rem : aluValue wd rRem x y = wide wd resRem x y :=
  aluValue_eq wd x y fun w _ a b => by
    simp only [rRem, resRem]
    by_cases h : b.toNat = 0
    · have : b = 0 := BitVec.eq_of_toNat_eq (by simpa using h)
      simp [this]
    · have : b ≠ 0 := fun e => h (by simp [e])
      simp only [h, if_false, this, ofNat_modPow, signedOf_toNat]
theorem alu_divu : aluValue wd rDivu x y = wide wd resDivu x y :=
  aluValue_eq wd x y fun w _ a b => by
    simp only [rDivu, resDivu]
    by_cases h : b.toNat = 0
    · have : b = 0 := BitVec.eq_of_toNat_eq (by simpa using h)
      subst this
      apply BitVec.eq_of_toNat_eq; simp
    · have : b ≠ 0 := fun e => h (by simp [e])
      simp only [h, if_false, this]
      apply BitVec.eq_of_toNat_eq
      simp [Nat.mod_eq_of_lt (Nat.lt_of_le_of_lt (Nat.div_le_self _ _) a.isLt)]
theorem alu_remu : aluValue wd rRemu x y = wide wd resRemu x y :=
  aluValue_eq wd x y fun w _ a b => by
    simp only [rRemu, resRemu]
    by_cases h : b.toNat = 0
    · have : b = 0 := BitVec.eq_of_toNat_eq (by simpa using h)
      simp [this]
    · have : b ≠ 0 := fun e => h (by simp [e])
      simp only [h, if_false, this]
      apply BitVec.eq_of_toNat_eq
      simp [Nat.mod_eq_of_lt (Nat.lt_of_le_of_lt (Nat.mod_le _ _) a.isLt)]

/-! ### Counts, fields, comparisons -/

theorem ofNat_zerosAbove {w : Nat} (a : BitVec w) (n : Nat) (h : a.toNat < 2 ^ n) : zerosAbove a n = n - bitLen a.toNat := by
  induction n with
  | zero => simp [zerosAbove]
  | succ n ih =>
    simp only [zerosAbove]
    by_cases hb : a.getLsbD n = true
    · have hge : 2 ^ n ≤ a.toNat := by
        rw [BitVec.getLsbD] at hb
        exact Nat.ge_two_pow_of_testBit hb
      have hne : a.toNat ≠ 0 := by have := Nat.two_pow_pos n; omega
      have hl : Nat.log2 a.toNat = n := by
        rw [Nat.log2_eq_iff hne]; exact ⟨hge, h⟩
      simp [hb, bitLen, hne, hl]
    · have hlt : a.toNat < 2 ^ n := by
        rw [BitVec.getLsbD] at hb
        by_contra hge
        exact hb (Nat.testBit_of_two_pow_le_and_two_pow_add_one_gt (by omega) h)
      have hle : bitLen a.toNat ≤ n := by
        unfold bitLen
        split
        · omega
        · rename_i hne
          have := (Nat.log2_lt hne).2 hlt
          omega
      simp only [hb, Bool.false_eq_true, if_false, ih hlt]
      omega

theorem alu_clz : aluValue wd (fun w x _ => rClz w x) x 0 = wide wd resClz x 0 :=
  aluValue_eq wd x 0 fun w _ a b => by simp only [rClz, resClz, ofNat_zerosAbove a w a.isLt]

theorem ctzFrom_eq {w : Nat} (a : BitVec w) (n : Nat) (hn : n ≤ w) : ctzFrom w a.toNat n = zerosFrom a (w - n) n := by
  induction n with
  | zero => rfl
  | succ n ih =>
    have hs : w - (n + 1) + 1 = w - n := by omega
    simp only [ctzFrom, zerosFrom, hs, ih (by omega), BitVec.getLsbD, Nat.testBit_eq_decide_div_mod_eq, Nat.shiftRight_eq_div_pow]
    by_cases h : a.toNat / 2 ^ (w - (n + 1)) % 2 = 1
    · simp [h]
    · simp [h, Nat.add_comm]

theorem alu_ctz : aluValue wd (fun w x _ => rCtz w x) x 0 = wide wd resCtz x 0 :=
  aluValue_eq wd x 0 fun w _ a b => by simp only [rCtz, resCtz, ctzFrom_eq a w (Nat.le_refl w), Nat.sub_self]

/-- Ones among the n low bits, counted from the lowest. -/
theorem onesIn_succ (n v : Nat) : onesIn (n + 1) v = onesIn n v + v / 2 ^ n % 2 := by
  induction n generalizing v with
  | zero => simp [onesIn]
  | succ n ih =>
    rw [onesIn, ih (v / 2), onesIn, Nat.div_div_eq_div_mul, Nat.add_assoc, Nat.pow_succ, Nat.mul_comm 2]

theorem onesBelow_eq {w : Nat} (a : BitVec w) (n : Nat) : onesBelow a n = onesIn n a.toNat := by
  induction n with
  | zero => rfl
  | succ n ih =>
    rw [onesBelow, onesIn_succ, ih, BitVec.getLsbD, Nat.testBit_eq_decide_div_mod_eq]
    have := Nat.mod_two_eq_zero_or_one (a.toNat / 2 ^ n)
    obtain h | h := this <;> simp [h]

theorem alu_popc : aluValue wd (fun w x _ => rPopc w x) x 0 = wide wd resPopc x 0 :=
  aluValue_eq wd x 0 fun w _ a b => by simp only [rPopc, resPopc, onesBelow_eq]

theorem revBits_lt (n a : Nat) : revBits n a < 2 ^ n := by
  induction n generalizing a with
  | zero => simp [revBits]
  | succ n ih =>
    have := ih (a / 2)
    have h2 : a % 2 ≤ 1 := by omega
    simp only [revBits, Nat.pow_succ]
    nlinarith [Nat.two_pow_pos n]

theorem testBit_revBits (n a i : Nat) (hi : i < n) : (revBits n a).testBit i = a.testBit (n - 1 - i) := by
  induction n generalizing a i with
  | zero => omega
  | succ n ih =>
    simp only [revBits]
    have hm := Nat.mod_two_eq_zero_or_one a
    rw [Nat.mul_comm, Nat.testBit_two_pow_mul_add _ (revBits_lt n (a / 2))]
    by_cases h : i < n
    · rw [if_pos h, ih _ _ h, Nat.testBit_div_two]
      congr 1; omega
    · have hin : i = n := by omega
      subst hin
      simp [Nat.testBit_eq_decide_div_mod_eq]

theorem alu_brev : aluValue wd (fun w x _ => revBits w x) x 0 = wide wd resBrev x 0 :=
  aluValue_eq wd x 0 fun w _ a b => by
    apply BitVec.eq_of_getLsbD_eq
    intro i hi
    rw [BitVec.getLsbD_ofNat, resBrev, BitVec.getLsbD_reverse, BitVec.getMsbD]
    simp only [hi, decide_true, Bool.true_and, testBit_revBits w _ i hi, BitVec.getLsbD]

theorem fieldLen_eq (w p l : Nat) : fieldLen w p l = fieldLength w p l := by unfold fieldLen fieldLength; rfl

theorem fieldLength_le (w p l : Nat) : fieldLength w p l ≤ w := by
  unfold fieldLength; split <;> omega

theorem alu_bfx (sx : Bool) (p l : Nat) : aluValue wd (fun w x _ => rBfx sx w x p l) x 0 = wide wd (resBfx p l sx) x 0 :=
  aluValue_eq wd x 0 fun w _ a b => by
    simp only [rBfx, resBfx, fieldLen_eq]
    by_cases h0 : fieldLength w p l = 0
    · simp [h0]
    · rw [if_neg h0, if_neg h0]
      have hf : a.toNat / 2 ^ p % 2 ^ fieldLength w p l = ((a >>> p).setWidth (fieldLength w p l)).toNat := by
        simp [Nat.shiftRight_eq_div_pow]
      rw [hf]
      cases sx with
      | true => simp only [if_true, ofNat_modPow, signedOf_toNat, BitVec.signExtend]
      | false => simp only [Bool.false_eq_true, if_false, BitVec.ofNat_toNat]

theorem alu_bfi (p l : Nat) (old : Word) :
    aluValue wd (fun w x o => rBfi w o x p l) x old = wide wd (resBfi p l) x old :=
  aluValue_eq wd x old fun w _ a o => by
    have hle := fieldLength_le w p l
    have hm : ((BitVec.allOnes (fieldLength w p l)).setWidth w <<< p).toNat = (2 ^ fieldLength w p l - 1) * 2 ^ p := by
      have h1 : 2 ^ fieldLength w p l - 1 < 2 ^ w := by
        have := Nat.pow_le_pow_right (show 0 < 2 by omega) hle
        have := Nat.two_pow_pos (fieldLength w p l); omega
      rw [BitVec.toNat_shiftLeft, BitVec.toNat_setWidth, BitVec.toNat_allOnes, Nat.mod_eq_of_lt h1, Nat.shiftLeft_eq]
      apply Nat.mod_eq_of_lt
      by_cases hp : w ≤ p
      · have : fieldLength w p l = 0 := by simp [fieldLength, hp]
        simp [this]
      · have : fieldLength w p l + p ≤ w := by unfold fieldLength; rw [if_neg hp]; omega
        calc (2 ^ fieldLength w p l - 1) * 2 ^ p < 2 ^ fieldLength w p l * 2 ^ p := by
              have := Nat.two_pow_pos (fieldLength w p l)
              exact Nat.mul_lt_mul_of_pos_right (by omega) (Nat.two_pow_pos p)
          _ = 2 ^ (fieldLength w p l + p) := by rw [Nat.pow_add]
          _ ≤ 2 ^ w := Nat.pow_le_pow_right (by omega) this
    have hlt : (2 ^ fieldLength w p l - 1) * 2 ^ p < 2 ^ w := by rw [← hm]; exact BitVec.isLt _
    simp only [rBfi, resBfi, fieldLen_eq]
    apply BitVec.eq_of_toNat_eq
    simp only [BitVec.toNat_or, BitVec.toNat_and, BitVec.toNat_not, hm, BitVec.toNat_ofNat, BitVec.toNat_shiftLeft]
    generalize hM : (2 ^ fieldLength w p l - 1) * 2 ^ p = M at *
    have hA : ((a.toNat * 2 ^ p) &&& M) = ((a.toNat <<< p % 2 ^ w) &&& M) := by
      rw [Nat.shiftLeft_eq]
      apply Nat.eq_of_testBit_eq
      intro i
      simp only [Nat.testBit_and, Nat.testBit_mod_two_pow]
      by_cases hi : i < w
      · simp [hi]
      · have : M.testBit i = false := Nat.testBit_lt_two_pow (Nat.lt_of_lt_of_le hlt (Nat.pow_le_pow_right (by omega) (by omega)))
        simp [this]
    rw [hA, Nat.mod_eq_of_lt]
    exact Nat.or_lt_two_pow (Nat.lt_of_le_of_lt Nat.and_le_left o.isLt) (Nat.lt_of_le_of_lt Nat.and_le_right hlt)

theorem sextW_wide (f : Word) : sextW (wdWidth wd) f.toNat = wide wd (fun _ x _ => x) f 0 := by
  cases wd <;> simp [sextW_eq, wdWidth, wide, BitVec.signExtend_eq]

theorem condHolds_eq {w : Nat} (c : Cond) (a b : BitVec w) : condHolds w c a.toNat b.toNat = holds c a b := by
  cases c <;> simp only [condHolds, holds, signedOf_toNat]
  · rw [Bool.eq_iff_iff]; simp [BitVec.toNat_inj]
  · rw [Bool.eq_iff_iff]; simp [BitVec.toNat_inj]
  · rfl
  · rfl
  · rw [Bool.eq_iff_iff]; simp only [bne_iff_ne, decide_eq_true_eq, ← BitVec.toNat_and]
    exact not_congr ⟨fun h => BitVec.eq_of_toNat_eq (by simpa using h), fun h => by rw [h]; simp⟩
  · rw [Bool.eq_iff_iff]; simp only [beq_iff_eq, decide_eq_true_eq, ← BitVec.toNat_and]
    exact ⟨fun h => BitVec.eq_of_toNat_eq (by simpa using h), fun h => by rw [h]; simp⟩

theorem condHolds_wide (c : Cond) : condHolds (wdWidth wd) c (x.toNat % 2 ^ wdWidth wd) (y.toNat % 2 ^ wdWidth wd) = holdsAt wd c x y := by
  cases wd with
  | d => simp only [wdWidth, holdsAt, Nat.mod_eq_of_lt x.isLt, Nat.mod_eq_of_lt y.isLt, condHolds_eq]
  | w =>
    have := condHolds_eq c (x.setWidth 32) (y.setWidth 32)
    simpa [wdWidth, holdsAt] using this

/-- Bit of PLOG (R124). -/
theorem plogWord_bit (tt : BitVec 4) (a b : Pred) (i : Nat) (hi : i < 16) :
    (plogWord tt a b).getLsbD i = tt.getLsbD (2 * (a.getLsbD i).toNat + (b.getLsbD i).toNat) := by
  have e : ∀ (c : Bool) (x : Pred), (if c then x else 0).getLsbD i = (c && x.getLsbD i) := by intro c x; cases c <;> simp
  simp only [plogWord, BitVec.getLsbD_or, e, BitVec.getLsbD_and, BitVec.getLsbD_not, hi, decide_true, Bool.true_and]
  cases a.getLsbD i <;> cases b.getLsbD i <;> simp

theorem testBit_plogBits (tt : BitVec 4) (a b : Pred) (n : Nat) (hn : n ≤ 16) :
    plogBits tt a b n < 2 ^ n ∧ ∀ i, i < n → (plogBits tt a b n).testBit i = (plogWord tt a b).getLsbD i := by
  induction n with
  | zero => simp [plogBits]
  | succ n ih =>
    obtain ⟨hlt, hb⟩ := ih (by omega)
    have hbit : tt.getLsbD (2 * (if a.getLsbD n then 1 else 0) + (if b.getLsbD n then 1 else 0)) = (plogWord tt a b).getLsbD n := by
      rw [plogWord_bit tt a b n (by omega)]
      cases ha : a.getLsbD n <;> cases hb : b.getLsbD n <;> simp
    simp only [plogBits, hbit]
    cases h : (plogWord tt a b).getLsbD n with
    | false =>
      refine ⟨by simp; rw [Nat.pow_succ]; omega, fun i hi => ?_⟩
      simp only [Bool.false_eq_true, if_false, Nat.add_zero]
      by_cases hin : i < n
      · exact hb i hin
      · have : i = n := by omega
        subst this
        rw [h]; exact Nat.testBit_lt_two_pow hlt
    | true =>
      refine ⟨by simp; rw [Nat.pow_succ]; omega, fun i hi => ?_⟩
      simp only [if_true]
      have he : plogBits tt a b n + 2 ^ n = 2 ^ n * 1 + plogBits tt a b n := by omega
      rw [he, Nat.testBit_two_pow_mul_add _ hlt]
      by_cases hin : i < n
      · rw [if_pos hin, hb i hin]
      · have : i = n := by omega
        subst this
        simp [h]

theorem plog_eq (tt : BitVec 4) (a b : Pred) : BitVec.ofNat 16 (plogBits tt a b 16) = plogWord tt a b := by
  have h := (testBit_plogBits tt a b 16 (Nat.le_refl _)).2
  apply BitVec.eq_of_getLsbD_eq
  intro i hi
  rw [BitVec.getLsbD_ofNat, h i hi]
  simp [hi]

end Sys2Proof.Machine
end

