-- ==== Sys2Proof/Laws/State.lean ====
section
/-! SUPPORT. State.lean: what each update of the state leaves as it was, field by field, and what it makes of the cores and contexts. -/
namespace Sys2Proof.Machine

/-! ### setCore -/

@[simp] theorem State.setCore_cycle (s : State) (c : Nat) (k : Core) : (s.setCore c k).cycle = s.cycle := rfl
@[simp] theorem State.setCore_slot (s : State) (c : Nat) (k : Core) : (s.setCore c k).slot = s.slot := rfl
@[simp] theorem State.setCore_clk (s : State) (c : Nat) (k : Core) : (s.setCore c k).clk = s.clk := rfl
@[simp] theorem State.setCore_rate (s : State) (c : Nat) (k : Core) : (s.setCore c k).rate = s.rate := rfl
@[simp] theorem State.setCore_agenda (s : State) (c : Nat) (k : Core) : (s.setCore c k).agenda = s.agenda := rfl
@[simp] theorem State.setCore_follow (s : State) (c : Nat) (k : Core) : (s.setCore c k).follow = s.follow := rfl
@[simp] theorem State.setCore_fresh (s : State) (c : Nat) (k : Core) : (s.setCore c k).fresh = s.fresh := rfl
@[simp] theorem State.setCore_me (s : State) (c : Nat) (k : Core) : (s.setCore c k).me = s.me := rfl
@[simp] theorem State.setCore_took (s : State) (c : Nat) (k : Core) : (s.setCore c k).took = s.took := rfl
@[simp] theorem State.setCore_chan (s : State) (c : Nat) (k : Core) : (s.setCore c k).chan = s.chan := rfl
@[simp] theorem State.setCore_homes (s : State) (c : Nat) (k : Core) : (s.setCore c k).homes = s.homes := rfl
@[simp] theorem State.setCore_parked (s : State) (c : Nat) (k : Core) : (s.setCore c k).parked = s.parked := rfl
@[simp] theorem State.setCore_mem (s : State) (c : Nat) (k : Core) : (s.setCore c k).mem = s.mem := rfl
@[simp] theorem State.setCore_sched (s : State) (c : Nat) (k : Core) : (s.setCore c k).sched = s.sched := rfl
@[simp] theorem State.setCore_store (s : State) (c : Nat) (k : Core) : (s.setCore c k).store = s.store := rfl
@[simp] theorem State.setCore_images (s : State) (c : Nat) (k : Core) : (s.setCore c k).images = s.images := rfl
@[simp] theorem State.setCore_units (s : State) (c : Nat) (k : Core) : (s.setCore c k).units = s.units := rfl
@[simp] theorem State.setCore_ebufs (s : State) (c : Nat) (k : Core) : (s.setCore c k).ebufs = s.ebufs := rfl
@[simp] theorem State.setCore_fabric (s : State) (c : Nat) (k : Core) : (s.setCore c k).fabric = s.fabric := rfl
@[simp] theorem State.setCore_dbg (s : State) (c : Nat) (k : Core) : (s.setCore c k).dbg = s.dbg := rfl
@[simp] theorem State.setCore_rel (s : State) (c : Nat) (k : Core) : (s.setCore c k).rel = s.rel := rfl
@[simp] theorem State.setCore_boot (s : State) (c : Nat) (k : Core) : (s.setCore c k).boot = s.boot := rfl
@[simp] theorem State.setCore_out (s : State) (c : Nat) (k : Core) : (s.setCore c k).out = s.out := rfl

/-! ### onCore -/

@[simp] theorem State.onCore_cycle (s : State) (c : Nat) (f : Core → Core) : (s.onCore c f).cycle = s.cycle := rfl
@[simp] theorem State.onCore_slot (s : State) (c : Nat) (f : Core → Core) : (s.onCore c f).slot = s.slot := rfl
@[simp] theorem State.onCore_clk (s : State) (c : Nat) (f : Core → Core) : (s.onCore c f).clk = s.clk := rfl
@[simp] theorem State.onCore_rate (s : State) (c : Nat) (f : Core → Core) : (s.onCore c f).rate = s.rate := rfl
@[simp] theorem State.onCore_agenda (s : State) (c : Nat) (f : Core → Core) : (s.onCore c f).agenda = s.agenda := rfl
@[simp] theorem State.onCore_follow (s : State) (c : Nat) (f : Core → Core) : (s.onCore c f).follow = s.follow := rfl
@[simp] theorem State.onCore_fresh (s : State) (c : Nat) (f : Core → Core) : (s.onCore c f).fresh = s.fresh := rfl
@[simp] theorem State.onCore_me (s : State) (c : Nat) (f : Core → Core) : (s.onCore c f).me = s.me := rfl
@[simp] theorem State.onCore_took (s : State) (c : Nat) (f : Core → Core) : (s.onCore c f).took = s.took := rfl
@[simp] theorem State.onCore_chan (s : State) (c : Nat) (f : Core → Core) : (s.onCore c f).chan = s.chan := rfl
@[simp] theorem State.onCore_homes (s : State) (c : Nat) (f : Core → Core) : (s.onCore c f).homes = s.homes := rfl
@[simp] theorem State.onCore_parked (s : State) (c : Nat) (f : Core → Core) : (s.onCore c f).parked = s.parked := rfl
@[simp] theorem State.onCore_mem (s : State) (c : Nat) (f : Core → Core) : (s.onCore c f).mem = s.mem := rfl
@[simp] theorem State.onCore_sched (s : State) (c : Nat) (f : Core → Core) : (s.onCore c f).sched = s.sched := rfl
@[simp] theorem State.onCore_store (s : State) (c : Nat) (f : Core → Core) : (s.onCore c f).store = s.store := rfl
@[simp] theorem State.onCore_images (s : State) (c : Nat) (f : Core → Core) : (s.onCore c f).images = s.images := rfl
@[simp] theorem State.onCore_units (s : State) (c : Nat) (f : Core → Core) : (s.onCore c f).units = s.units := rfl
@[simp] theorem State.onCore_ebufs (s : State) (c : Nat) (f : Core → Core) : (s.onCore c f).ebufs = s.ebufs := rfl
@[simp] theorem State.onCore_fabric (s : State) (c : Nat) (f : Core → Core) : (s.onCore c f).fabric = s.fabric := rfl
@[simp] theorem State.onCore_dbg (s : State) (c : Nat) (f : Core → Core) : (s.onCore c f).dbg = s.dbg := rfl
@[simp] theorem State.onCore_rel (s : State) (c : Nat) (f : Core → Core) : (s.onCore c f).rel = s.rel := rfl
@[simp] theorem State.onCore_boot (s : State) (c : Nat) (f : Core → Core) : (s.onCore c f).boot = s.boot := rfl
@[simp] theorem State.onCore_out (s : State) (c : Nat) (f : Core → Core) : (s.onCore c f).out = s.out := rfl

/-! ### setCtx -/

@[simp] theorem State.setCtx_cycle (s : State) (c x : Nat) (t : Ctx) : (s.setCtx c x t).cycle = s.cycle := rfl
@[simp] theorem State.setCtx_slot (s : State) (c x : Nat) (t : Ctx) : (s.setCtx c x t).slot = s.slot := rfl
@[simp] theorem State.setCtx_clk (s : State) (c x : Nat) (t : Ctx) : (s.setCtx c x t).clk = s.clk := rfl
@[simp] theorem State.setCtx_rate (s : State) (c x : Nat) (t : Ctx) : (s.setCtx c x t).rate = s.rate := rfl
@[simp] theorem State.setCtx_agenda (s : State) (c x : Nat) (t : Ctx) : (s.setCtx c x t).agenda = s.agenda := rfl
@[simp] theorem State.setCtx_follow (s : State) (c x : Nat) (t : Ctx) : (s.setCtx c x t).follow = s.follow := rfl
@[simp] theorem State.setCtx_fresh (s : State) (c x : Nat) (t : Ctx) : (s.setCtx c x t).fresh = s.fresh := rfl
@[simp] theorem State.setCtx_me (s : State) (c x : Nat) (t : Ctx) : (s.setCtx c x t).me = s.me := rfl
@[simp] theorem State.setCtx_took (s : State) (c x : Nat) (t : Ctx) : (s.setCtx c x t).took = s.took := rfl
@[simp] theorem State.setCtx_chan (s : State) (c x : Nat) (t : Ctx) : (s.setCtx c x t).chan = s.chan := rfl
@[simp] theorem State.setCtx_homes (s : State) (c x : Nat) (t : Ctx) : (s.setCtx c x t).homes = s.homes := rfl
@[simp] theorem State.setCtx_parked (s : State) (c x : Nat) (t : Ctx) : (s.setCtx c x t).parked = s.parked := rfl
@[simp] theorem State.setCtx_mem (s : State) (c x : Nat) (t : Ctx) : (s.setCtx c x t).mem = s.mem := rfl
@[simp] theorem State.setCtx_sched (s : State) (c x : Nat) (t : Ctx) : (s.setCtx c x t).sched = s.sched := rfl
@[simp] theorem State.setCtx_store (s : State) (c x : Nat) (t : Ctx) : (s.setCtx c x t).store = s.store := rfl
@[simp] theorem State.setCtx_images (s : State) (c x : Nat) (t : Ctx) : (s.setCtx c x t).images = s.images := rfl
@[simp] theorem State.setCtx_units (s : State) (c x : Nat) (t : Ctx) : (s.setCtx c x t).units = s.units := rfl
@[simp] theorem State.setCtx_ebufs (s : State) (c x : Nat) (t : Ctx) : (s.setCtx c x t).ebufs = s.ebufs := rfl
@[simp] theorem State.setCtx_fabric (s : State) (c x : Nat) (t : Ctx) : (s.setCtx c x t).fabric = s.fabric := rfl
@[simp] theorem State.setCtx_dbg (s : State) (c x : Nat) (t : Ctx) : (s.setCtx c x t).dbg = s.dbg := rfl
@[simp] theorem State.setCtx_rel (s : State) (c x : Nat) (t : Ctx) : (s.setCtx c x t).rel = s.rel := rfl
@[simp] theorem State.setCtx_boot (s : State) (c x : Nat) (t : Ctx) : (s.setCtx c x t).boot = s.boot := rfl
@[simp] theorem State.setCtx_out (s : State) (c x : Nat) (t : Ctx) : (s.setCtx c x t).out = s.out := rfl

/-! ### onCtx -/

@[simp] theorem State.onCtx_cycle (s : State) (c x : Nat) (f : Ctx → Ctx) : (s.onCtx c x f).cycle = s.cycle := rfl
@[simp] theorem State.onCtx_slot (s : State) (c x : Nat) (f : Ctx → Ctx) : (s.onCtx c x f).slot = s.slot := rfl
@[simp] theorem State.onCtx_clk (s : State) (c x : Nat) (f : Ctx → Ctx) : (s.onCtx c x f).clk = s.clk := rfl
@[simp] theorem State.onCtx_rate (s : State) (c x : Nat) (f : Ctx → Ctx) : (s.onCtx c x f).rate = s.rate := rfl
@[simp] theorem State.onCtx_agenda (s : State) (c x : Nat) (f : Ctx → Ctx) : (s.onCtx c x f).agenda = s.agenda := rfl
@[simp] theorem State.onCtx_follow (s : State) (c x : Nat) (f : Ctx → Ctx) : (s.onCtx c x f).follow = s.follow := rfl
@[simp] theorem State.onCtx_fresh (s : State) (c x : Nat) (f : Ctx → Ctx) : (s.onCtx c x f).fresh = s.fresh := rfl
@[simp] theorem State.onCtx_me (s : State) (c x : Nat) (f : Ctx → Ctx) : (s.onCtx c x f).me = s.me := rfl
@[simp] theorem State.onCtx_took (s : State) (c x : Nat) (f : Ctx → Ctx) : (s.onCtx c x f).took = s.took := rfl
@[simp] theorem State.onCtx_chan (s : State) (c x : Nat) (f : Ctx → Ctx) : (s.onCtx c x f).chan = s.chan := rfl
@[simp] theorem State.onCtx_homes (s : State) (c x : Nat) (f : Ctx → Ctx) : (s.onCtx c x f).homes = s.homes := rfl
@[simp] theorem State.onCtx_parked (s : State) (c x : Nat) (f : Ctx → Ctx) : (s.onCtx c x f).parked = s.parked := rfl
@[simp] theorem State.onCtx_mem (s : State) (c x : Nat) (f : Ctx → Ctx) : (s.onCtx c x f).mem = s.mem := rfl
@[simp] theorem State.onCtx_sched (s : State) (c x : Nat) (f : Ctx → Ctx) : (s.onCtx c x f).sched = s.sched := rfl
@[simp] theorem State.onCtx_store (s : State) (c x : Nat) (f : Ctx → Ctx) : (s.onCtx c x f).store = s.store := rfl
@[simp] theorem State.onCtx_images (s : State) (c x : Nat) (f : Ctx → Ctx) : (s.onCtx c x f).images = s.images := rfl
@[simp] theorem State.onCtx_units (s : State) (c x : Nat) (f : Ctx → Ctx) : (s.onCtx c x f).units = s.units := rfl
@[simp] theorem State.onCtx_ebufs (s : State) (c x : Nat) (f : Ctx → Ctx) : (s.onCtx c x f).ebufs = s.ebufs := rfl
@[simp] theorem State.onCtx_fabric (s : State) (c x : Nat) (f : Ctx → Ctx) : (s.onCtx c x f).fabric = s.fabric := rfl
@[simp] theorem State.onCtx_dbg (s : State) (c x : Nat) (f : Ctx → Ctx) : (s.onCtx c x f).dbg = s.dbg := rfl
@[simp] theorem State.onCtx_rel (s : State) (c x : Nat) (f : Ctx → Ctx) : (s.onCtx c x f).rel = s.rel := rfl
@[simp] theorem State.onCtx_boot (s : State) (c x : Nat) (f : Ctx → Ctx) : (s.onCtx c x f).boot = s.boot := rfl
@[simp] theorem State.onCtx_out (s : State) (c x : Nat) (f : Ctx → Ctx) : (s.onCtx c x f).out = s.out := rfl

/-! ### onCx -/

@[simp] theorem State.onCx_cycle (s : State) (f : Ctx → Ctx) : (s.onCx f).cycle = s.cycle := rfl
@[simp] theorem State.onCx_slot (s : State) (f : Ctx → Ctx) : (s.onCx f).slot = s.slot := rfl
@[simp] theorem State.onCx_clk (s : State) (f : Ctx → Ctx) : (s.onCx f).clk = s.clk := rfl
@[simp] theorem State.onCx_rate (s : State) (f : Ctx → Ctx) : (s.onCx f).rate = s.rate := rfl
@[simp] theorem State.onCx_agenda (s : State) (f : Ctx → Ctx) : (s.onCx f).agenda = s.agenda := rfl
@[simp] theorem State.onCx_follow (s : State) (f : Ctx → Ctx) : (s.onCx f).follow = s.follow := rfl
@[simp] theorem State.onCx_fresh (s : State) (f : Ctx → Ctx) : (s.onCx f).fresh = s.fresh := rfl
@[simp] theorem State.onCx_me (s : State) (f : Ctx → Ctx) : (s.onCx f).me = s.me := rfl
@[simp] theorem State.onCx_took (s : State) (f : Ctx → Ctx) : (s.onCx f).took = s.took := rfl
@[simp] theorem State.onCx_chan (s : State) (f : Ctx → Ctx) : (s.onCx f).chan = s.chan := rfl
@[simp] theorem State.onCx_homes (s : State) (f : Ctx → Ctx) : (s.onCx f).homes = s.homes := rfl
@[simp] theorem State.onCx_parked (s : State) (f : Ctx → Ctx) : (s.onCx f).parked = s.parked := rfl
@[simp] theorem State.onCx_mem (s : State) (f : Ctx → Ctx) : (s.onCx f).mem = s.mem := rfl
@[simp] theorem State.onCx_sched (s : State) (f : Ctx → Ctx) : (s.onCx f).sched = s.sched := rfl
@[simp] theorem State.onCx_store (s : State) (f : Ctx → Ctx) : (s.onCx f).store = s.store := rfl
@[simp] theorem State.onCx_images (s : State) (f : Ctx → Ctx) : (s.onCx f).images = s.images := rfl
@[simp] theorem State.onCx_units (s : State) (f : Ctx → Ctx) : (s.onCx f).units = s.units := rfl
@[simp] theorem State.onCx_ebufs (s : State) (f : Ctx → Ctx) : (s.onCx f).ebufs = s.ebufs := rfl
@[simp] theorem State.onCx_fabric (s : State) (f : Ctx → Ctx) : (s.onCx f).fabric = s.fabric := rfl
@[simp] theorem State.onCx_dbg (s : State) (f : Ctx → Ctx) : (s.onCx f).dbg = s.dbg := rfl
@[simp] theorem State.onCx_rel (s : State) (f : Ctx → Ctx) : (s.onCx f).rel = s.rel := rfl
@[simp] theorem State.onCx_boot (s : State) (f : Ctx → Ctx) : (s.onCx f).boot = s.boot := rfl
@[simp] theorem State.onCx_out (s : State) (f : Ctx → Ctx) : (s.onCx f).out = s.out := rfl

/-! ### onMine -/

@[simp] theorem State.onMine_cycle (s : State) (f : Core → Core) : (s.onMine f).cycle = s.cycle := rfl
@[simp] theorem State.onMine_slot (s : State) (f : Core → Core) : (s.onMine f).slot = s.slot := rfl
@[simp] theorem State.onMine_clk (s : State) (f : Core → Core) : (s.onMine f).clk = s.clk := rfl
@[simp] theorem State.onMine_rate (s : State) (f : Core → Core) : (s.onMine f).rate = s.rate := rfl
@[simp] theorem State.onMine_agenda (s : State) (f : Core → Core) : (s.onMine f).agenda = s.agenda := rfl
@[simp] theorem State.onMine_follow (s : State) (f : Core → Core) : (s.onMine f).follow = s.follow := rfl
@[simp] theorem State.onMine_fresh (s : State) (f : Core → Core) : (s.onMine f).fresh = s.fresh := rfl
@[simp] theorem State.onMine_me (s : State) (f : Core → Core) : (s.onMine f).me = s.me := rfl
@[simp] theorem State.onMine_took (s : State) (f : Core → Core) : (s.onMine f).took = s.took := rfl
@[simp] theorem State.onMine_chan (s : State) (f : Core → Core) : (s.onMine f).chan = s.chan := rfl
@[simp] theorem State.onMine_homes (s : State) (f : Core → Core) : (s.onMine f).homes = s.homes := rfl
@[simp] theorem State.onMine_parked (s : State) (f : Core → Core) : (s.onMine f).parked = s.parked := rfl
@[simp] theorem State.onMine_mem (s : State) (f : Core → Core) : (s.onMine f).mem = s.mem := rfl
@[simp] theorem State.onMine_sched (s : State) (f : Core → Core) : (s.onMine f).sched = s.sched := rfl
@[simp] theorem State.onMine_store (s : State) (f : Core → Core) : (s.onMine f).store = s.store := rfl
@[simp] theorem State.onMine_images (s : State) (f : Core → Core) : (s.onMine f).images = s.images := rfl
@[simp] theorem State.onMine_units (s : State) (f : Core → Core) : (s.onMine f).units = s.units := rfl
@[simp] theorem State.onMine_ebufs (s : State) (f : Core → Core) : (s.onMine f).ebufs = s.ebufs := rfl
@[simp] theorem State.onMine_fabric (s : State) (f : Core → Core) : (s.onMine f).fabric = s.fabric := rfl
@[simp] theorem State.onMine_dbg (s : State) (f : Core → Core) : (s.onMine f).dbg = s.dbg := rfl
@[simp] theorem State.onMine_rel (s : State) (f : Core → Core) : (s.onMine f).rel = s.rel := rfl
@[simp] theorem State.onMine_boot (s : State) (f : Core → Core) : (s.onMine f).boot = s.boot := rfl
@[simp] theorem State.onMine_out (s : State) (f : Core → Core) : (s.onMine f).out = s.out := rfl

/-! ### onRegs -/

@[simp] theorem State.onRegs_cycle (s : State) (f : Regs → Regs) : (s.onRegs f).cycle = s.cycle := rfl
@[simp] theorem State.onRegs_slot (s : State) (f : Regs → Regs) : (s.onRegs f).slot = s.slot := rfl
@[simp] theorem State.onRegs_clk (s : State) (f : Regs → Regs) : (s.onRegs f).clk = s.clk := rfl
@[simp] theorem State.onRegs_rate (s : State) (f : Regs → Regs) : (s.onRegs f).rate = s.rate := rfl
@[simp] theorem State.onRegs_agenda (s : State) (f : Regs → Regs) : (s.onRegs f).agenda = s.agenda := rfl
@[simp] theorem State.onRegs_follow (s : State) (f : Regs → Regs) : (s.onRegs f).follow = s.follow := rfl
@[simp] theorem State.onRegs_fresh (s : State) (f : Regs → Regs) : (s.onRegs f).fresh = s.fresh := rfl
@[simp] theorem State.onRegs_me (s : State) (f : Regs → Regs) : (s.onRegs f).me = s.me := rfl
@[simp] theorem State.onRegs_took (s : State) (f : Regs → Regs) : (s.onRegs f).took = s.took := rfl
@[simp] theorem State.onRegs_chan (s : State) (f : Regs → Regs) : (s.onRegs f).chan = s.chan := rfl
@[simp] theorem State.onRegs_homes (s : State) (f : Regs → Regs) : (s.onRegs f).homes = s.homes := rfl
@[simp] theorem State.onRegs_parked (s : State) (f : Regs → Regs) : (s.onRegs f).parked = s.parked := rfl
@[simp] theorem State.onRegs_mem (s : State) (f : Regs → Regs) : (s.onRegs f).mem = s.mem := rfl
@[simp] theorem State.onRegs_sched (s : State) (f : Regs → Regs) : (s.onRegs f).sched = s.sched := rfl
@[simp] theorem State.onRegs_store (s : State) (f : Regs → Regs) : (s.onRegs f).store = s.store := rfl
@[simp] theorem State.onRegs_images (s : State) (f : Regs → Regs) : (s.onRegs f).images = s.images := rfl
@[simp] theorem State.onRegs_units (s : State) (f : Regs → Regs) : (s.onRegs f).units = s.units := rfl
@[simp] theorem State.onRegs_ebufs (s : State) (f : Regs → Regs) : (s.onRegs f).ebufs = s.ebufs := rfl
@[simp] theorem State.onRegs_fabric (s : State) (f : Regs → Regs) : (s.onRegs f).fabric = s.fabric := rfl
@[simp] theorem State.onRegs_dbg (s : State) (f : Regs → Regs) : (s.onRegs f).dbg = s.dbg := rfl
@[simp] theorem State.onRegs_rel (s : State) (f : Regs → Regs) : (s.onRegs f).rel = s.rel := rfl
@[simp] theorem State.onRegs_boot (s : State) (f : Regs → Regs) : (s.onRegs f).boot = s.boot := rfl
@[simp] theorem State.onRegs_out (s : State) (f : Regs → Regs) : (s.onRegs f).out = s.out := rfl

/-! ### wrG -/

@[simp] theorem State.wrG_cycle (s : State) (d : GReg) (v : Word) : (s.wrG d v).cycle = s.cycle := rfl
@[simp] theorem State.wrG_slot (s : State) (d : GReg) (v : Word) : (s.wrG d v).slot = s.slot := rfl
@[simp] theorem State.wrG_clk (s : State) (d : GReg) (v : Word) : (s.wrG d v).clk = s.clk := rfl
@[simp] theorem State.wrG_rate (s : State) (d : GReg) (v : Word) : (s.wrG d v).rate = s.rate := rfl
@[simp] theorem State.wrG_agenda (s : State) (d : GReg) (v : Word) : (s.wrG d v).agenda = s.agenda := rfl
@[simp] theorem State.wrG_follow (s : State) (d : GReg) (v : Word) : (s.wrG d v).follow = s.follow := rfl
@[simp] theorem State.wrG_fresh (s : State) (d : GReg) (v : Word) : (s.wrG d v).fresh = s.fresh := rfl
@[simp] theorem State.wrG_me (s : State) (d : GReg) (v : Word) : (s.wrG d v).me = s.me := rfl
@[simp] theorem State.wrG_took (s : State) (d : GReg) (v : Word) : (s.wrG d v).took = s.took := rfl
@[simp] theorem State.wrG_chan (s : State) (d : GReg) (v : Word) : (s.wrG d v).chan = s.chan := rfl
@[simp] theorem State.wrG_homes (s : State) (d : GReg) (v : Word) : (s.wrG d v).homes = s.homes := rfl
@[simp] theorem State.wrG_parked (s : State) (d : GReg) (v : Word) : (s.wrG d v).parked = s.parked := rfl
@[simp] theorem State.wrG_mem (s : State) (d : GReg) (v : Word) : (s.wrG d v).mem = s.mem := rfl
@[simp] theorem State.wrG_sched (s : State) (d : GReg) (v : Word) : (s.wrG d v).sched = s.sched := rfl
@[simp] theorem State.wrG_store (s : State) (d : GReg) (v : Word) : (s.wrG d v).store = s.store := rfl
@[simp] theorem State.wrG_images (s : State) (d : GReg) (v : Word) : (s.wrG d v).images = s.images := rfl
@[simp] theorem State.wrG_units (s : State) (d : GReg) (v : Word) : (s.wrG d v).units = s.units := rfl
@[simp] theorem State.wrG_ebufs (s : State) (d : GReg) (v : Word) : (s.wrG d v).ebufs = s.ebufs := rfl
@[simp] theorem State.wrG_fabric (s : State) (d : GReg) (v : Word) : (s.wrG d v).fabric = s.fabric := rfl
@[simp] theorem State.wrG_dbg (s : State) (d : GReg) (v : Word) : (s.wrG d v).dbg = s.dbg := rfl
@[simp] theorem State.wrG_rel (s : State) (d : GReg) (v : Word) : (s.wrG d v).rel = s.rel := rfl
@[simp] theorem State.wrG_boot (s : State) (d : GReg) (v : Word) : (s.wrG d v).boot = s.boot := rfl
@[simp] theorem State.wrG_out (s : State) (d : GReg) (v : Word) : (s.wrG d v).out = s.out := rfl

/-! ### wrP -/

@[simp] theorem State.wrP_cycle (s : State) (d : PReg) (v : Pred) : (s.wrP d v).cycle = s.cycle := rfl
@[simp] theorem State.wrP_slot (s : State) (d : PReg) (v : Pred) : (s.wrP d v).slot = s.slot := rfl
@[simp] theorem State.wrP_clk (s : State) (d : PReg) (v : Pred) : (s.wrP d v).clk = s.clk := rfl
@[simp] theorem State.wrP_rate (s : State) (d : PReg) (v : Pred) : (s.wrP d v).rate = s.rate := rfl
@[simp] theorem State.wrP_agenda (s : State) (d : PReg) (v : Pred) : (s.wrP d v).agenda = s.agenda := rfl
@[simp] theorem State.wrP_follow (s : State) (d : PReg) (v : Pred) : (s.wrP d v).follow = s.follow := rfl
@[simp] theorem State.wrP_fresh (s : State) (d : PReg) (v : Pred) : (s.wrP d v).fresh = s.fresh := rfl
@[simp] theorem State.wrP_me (s : State) (d : PReg) (v : Pred) : (s.wrP d v).me = s.me := rfl
@[simp] theorem State.wrP_took (s : State) (d : PReg) (v : Pred) : (s.wrP d v).took = s.took := rfl
@[simp] theorem State.wrP_chan (s : State) (d : PReg) (v : Pred) : (s.wrP d v).chan = s.chan := rfl
@[simp] theorem State.wrP_homes (s : State) (d : PReg) (v : Pred) : (s.wrP d v).homes = s.homes := rfl
@[simp] theorem State.wrP_parked (s : State) (d : PReg) (v : Pred) : (s.wrP d v).parked = s.parked := rfl
@[simp] theorem State.wrP_mem (s : State) (d : PReg) (v : Pred) : (s.wrP d v).mem = s.mem := rfl
@[simp] theorem State.wrP_sched (s : State) (d : PReg) (v : Pred) : (s.wrP d v).sched = s.sched := rfl
@[simp] theorem State.wrP_store (s : State) (d : PReg) (v : Pred) : (s.wrP d v).store = s.store := rfl
@[simp] theorem State.wrP_images (s : State) (d : PReg) (v : Pred) : (s.wrP d v).images = s.images := rfl
@[simp] theorem State.wrP_units (s : State) (d : PReg) (v : Pred) : (s.wrP d v).units = s.units := rfl
@[simp] theorem State.wrP_ebufs (s : State) (d : PReg) (v : Pred) : (s.wrP d v).ebufs = s.ebufs := rfl
@[simp] theorem State.wrP_fabric (s : State) (d : PReg) (v : Pred) : (s.wrP d v).fabric = s.fabric := rfl
@[simp] theorem State.wrP_dbg (s : State) (d : PReg) (v : Pred) : (s.wrP d v).dbg = s.dbg := rfl
@[simp] theorem State.wrP_rel (s : State) (d : PReg) (v : Pred) : (s.wrP d v).rel = s.rel := rfl
@[simp] theorem State.wrP_boot (s : State) (d : PReg) (v : Pred) : (s.wrP d v).boot = s.boot := rfl
@[simp] theorem State.wrP_out (s : State) (d : PReg) (v : Pred) : (s.wrP d v).out = s.out := rfl

/-! ### raise -/

@[simp] theorem State.raise_cycle (s : State) (b : BitVec 6) : (s.raise b).cycle = s.cycle := rfl
@[simp] theorem State.raise_slot (s : State) (b : BitVec 6) : (s.raise b).slot = s.slot := rfl
@[simp] theorem State.raise_clk (s : State) (b : BitVec 6) : (s.raise b).clk = s.clk := rfl
@[simp] theorem State.raise_rate (s : State) (b : BitVec 6) : (s.raise b).rate = s.rate := rfl
@[simp] theorem State.raise_agenda (s : State) (b : BitVec 6) : (s.raise b).agenda = s.agenda := rfl
@[simp] theorem State.raise_follow (s : State) (b : BitVec 6) : (s.raise b).follow = s.follow := rfl
@[simp] theorem State.raise_fresh (s : State) (b : BitVec 6) : (s.raise b).fresh = s.fresh := rfl
@[simp] theorem State.raise_me (s : State) (b : BitVec 6) : (s.raise b).me = s.me := rfl
@[simp] theorem State.raise_took (s : State) (b : BitVec 6) : (s.raise b).took = s.took := rfl
@[simp] theorem State.raise_chan (s : State) (b : BitVec 6) : (s.raise b).chan = s.chan := rfl
@[simp] theorem State.raise_homes (s : State) (b : BitVec 6) : (s.raise b).homes = s.homes := rfl
@[simp] theorem State.raise_parked (s : State) (b : BitVec 6) : (s.raise b).parked = s.parked := rfl
@[simp] theorem State.raise_mem (s : State) (b : BitVec 6) : (s.raise b).mem = s.mem := rfl
@[simp] theorem State.raise_sched (s : State) (b : BitVec 6) : (s.raise b).sched = s.sched := rfl
@[simp] theorem State.raise_store (s : State) (b : BitVec 6) : (s.raise b).store = s.store := rfl
@[simp] theorem State.raise_images (s : State) (b : BitVec 6) : (s.raise b).images = s.images := rfl
@[simp] theorem State.raise_units (s : State) (b : BitVec 6) : (s.raise b).units = s.units := rfl
@[simp] theorem State.raise_ebufs (s : State) (b : BitVec 6) : (s.raise b).ebufs = s.ebufs := rfl
@[simp] theorem State.raise_fabric (s : State) (b : BitVec 6) : (s.raise b).fabric = s.fabric := rfl
@[simp] theorem State.raise_dbg (s : State) (b : BitVec 6) : (s.raise b).dbg = s.dbg := rfl
@[simp] theorem State.raise_rel (s : State) (b : BitVec 6) : (s.raise b).rel = s.rel := rfl
@[simp] theorem State.raise_boot (s : State) (b : BitVec 6) : (s.raise b).boot = s.boot := rfl
@[simp] theorem State.raise_out (s : State) (b : BitVec 6) : (s.raise b).out = s.out := rfl

/-! ### send -/

@[simp] theorem State.send_cycle (s : State) (b : Body) : (s.send b).cycle = s.cycle := rfl
@[simp] theorem State.send_slot (s : State) (b : Body) : (s.send b).slot = s.slot := rfl
@[simp] theorem State.send_clk (s : State) (b : Body) : (s.send b).clk = s.clk := rfl
@[simp] theorem State.send_rate (s : State) (b : Body) : (s.send b).rate = s.rate := rfl
@[simp] theorem State.send_agenda (s : State) (b : Body) : (s.send b).agenda = s.agenda := rfl
@[simp] theorem State.send_follow (s : State) (b : Body) : (s.send b).follow = s.follow := rfl
@[simp] theorem State.send_fresh (s : State) (b : Body) : (s.send b).fresh = s.fresh := rfl
@[simp] theorem State.send_me (s : State) (b : Body) : (s.send b).me = s.me := rfl
@[simp] theorem State.send_took (s : State) (b : Body) : (s.send b).took = s.took := rfl
@[simp] theorem State.send_cores (s : State) (b : Body) : (s.send b).cores = s.cores := rfl
@[simp] theorem State.send_homes (s : State) (b : Body) : (s.send b).homes = s.homes := rfl
@[simp] theorem State.send_parked (s : State) (b : Body) : (s.send b).parked = s.parked := rfl
@[simp] theorem State.send_mem (s : State) (b : Body) : (s.send b).mem = s.mem := rfl
@[simp] theorem State.send_sched (s : State) (b : Body) : (s.send b).sched = s.sched := rfl
@[simp] theorem State.send_store (s : State) (b : Body) : (s.send b).store = s.store := rfl
@[simp] theorem State.send_images (s : State) (b : Body) : (s.send b).images = s.images := rfl
@[simp] theorem State.send_units (s : State) (b : Body) : (s.send b).units = s.units := rfl
@[simp] theorem State.send_ebufs (s : State) (b : Body) : (s.send b).ebufs = s.ebufs := rfl
@[simp] theorem State.send_fabric (s : State) (b : Body) : (s.send b).fabric = s.fabric := rfl
@[simp] theorem State.send_dbg (s : State) (b : Body) : (s.send b).dbg = s.dbg := rfl
@[simp] theorem State.send_rel (s : State) (b : Body) : (s.send b).rel = s.rel := rfl
@[simp] theorem State.send_boot (s : State) (b : Body) : (s.send b).boot = s.boot := rfl
@[simp] theorem State.send_out (s : State) (b : Body) : (s.send b).out = s.out := rfl

/-! ### tell -/

@[simp] theorem State.tell_cycle (s : State) (o : Out) : (s.tell o).cycle = s.cycle := rfl
@[simp] theorem State.tell_slot (s : State) (o : Out) : (s.tell o).slot = s.slot := rfl
@[simp] theorem State.tell_clk (s : State) (o : Out) : (s.tell o).clk = s.clk := rfl
@[simp] theorem State.tell_rate (s : State) (o : Out) : (s.tell o).rate = s.rate := rfl
@[simp] theorem State.tell_agenda (s : State) (o : Out) : (s.tell o).agenda = s.agenda := rfl
@[simp] theorem State.tell_follow (s : State) (o : Out) : (s.tell o).follow = s.follow := rfl
@[simp] theorem State.tell_fresh (s : State) (o : Out) : (s.tell o).fresh = s.fresh := rfl
@[simp] theorem State.tell_me (s : State) (o : Out) : (s.tell o).me = s.me := rfl
@[simp] theorem State.tell_took (s : State) (o : Out) : (s.tell o).took = s.took := rfl
@[simp] theorem State.tell_cores (s : State) (o : Out) : (s.tell o).cores = s.cores := rfl
@[simp] theorem State.tell_chan (s : State) (o : Out) : (s.tell o).chan = s.chan := rfl
@[simp] theorem State.tell_homes (s : State) (o : Out) : (s.tell o).homes = s.homes := rfl
@[simp] theorem State.tell_parked (s : State) (o : Out) : (s.tell o).parked = s.parked := rfl
@[simp] theorem State.tell_mem (s : State) (o : Out) : (s.tell o).mem = s.mem := rfl
@[simp] theorem State.tell_sched (s : State) (o : Out) : (s.tell o).sched = s.sched := rfl
@[simp] theorem State.tell_store (s : State) (o : Out) : (s.tell o).store = s.store := rfl
@[simp] theorem State.tell_images (s : State) (o : Out) : (s.tell o).images = s.images := rfl
@[simp] theorem State.tell_units (s : State) (o : Out) : (s.tell o).units = s.units := rfl
@[simp] theorem State.tell_ebufs (s : State) (o : Out) : (s.tell o).ebufs = s.ebufs := rfl
@[simp] theorem State.tell_fabric (s : State) (o : Out) : (s.tell o).fabric = s.fabric := rfl
@[simp] theorem State.tell_dbg (s : State) (o : Out) : (s.tell o).dbg = s.dbg := rfl
@[simp] theorem State.tell_rel (s : State) (o : Out) : (s.tell o).rel = s.rel := rfl
@[simp] theorem State.tell_boot (s : State) (o : Out) : (s.tell o).boot = s.boot := rfl

/-! ### used -/

@[simp] theorem State.used_cycle (s : State) : (s.used).cycle = s.cycle := rfl
@[simp] theorem State.used_slot (s : State) : (s.used).slot = s.slot := rfl
@[simp] theorem State.used_clk (s : State) : (s.used).clk = s.clk := rfl
@[simp] theorem State.used_rate (s : State) : (s.used).rate = s.rate := rfl
@[simp] theorem State.used_agenda (s : State) : (s.used).agenda = s.agenda := rfl
@[simp] theorem State.used_follow (s : State) : (s.used).follow = s.follow := rfl
@[simp] theorem State.used_me (s : State) : (s.used).me = s.me := rfl
@[simp] theorem State.used_took (s : State) : (s.used).took = s.took := rfl
@[simp] theorem State.used_cores (s : State) : (s.used).cores = s.cores := rfl
@[simp] theorem State.used_chan (s : State) : (s.used).chan = s.chan := rfl
@[simp] theorem State.used_homes (s : State) : (s.used).homes = s.homes := rfl
@[simp] theorem State.used_parked (s : State) : (s.used).parked = s.parked := rfl
@[simp] theorem State.used_mem (s : State) : (s.used).mem = s.mem := rfl
@[simp] theorem State.used_sched (s : State) : (s.used).sched = s.sched := rfl
@[simp] theorem State.used_store (s : State) : (s.used).store = s.store := rfl
@[simp] theorem State.used_images (s : State) : (s.used).images = s.images := rfl
@[simp] theorem State.used_units (s : State) : (s.used).units = s.units := rfl
@[simp] theorem State.used_ebufs (s : State) : (s.used).ebufs = s.ebufs := rfl
@[simp] theorem State.used_fabric (s : State) : (s.used).fabric = s.fabric := rfl
@[simp] theorem State.used_dbg (s : State) : (s.used).dbg = s.dbg := rfl
@[simp] theorem State.used_rel (s : State) : (s.used).rel = s.rel := rfl
@[simp] theorem State.used_boot (s : State) : (s.used).boot = s.boot := rfl
@[simp] theorem State.used_out (s : State) : (s.used).out = s.out := rfl

/-! ### onSched -/

@[simp] theorem State.onSched_cycle (s : State) (f : Sched → Sched) : (s.onSched f).cycle = s.cycle := rfl
@[simp] theorem State.onSched_slot (s : State) (f : Sched → Sched) : (s.onSched f).slot = s.slot := rfl
@[simp] theorem State.onSched_clk (s : State) (f : Sched → Sched) : (s.onSched f).clk = s.clk := rfl
@[simp] theorem State.onSched_rate (s : State) (f : Sched → Sched) : (s.onSched f).rate = s.rate := rfl
@[simp] theorem State.onSched_agenda (s : State) (f : Sched → Sched) : (s.onSched f).agenda = s.agenda := rfl
@[simp] theorem State.onSched_follow (s : State) (f : Sched → Sched) : (s.onSched f).follow = s.follow := rfl
@[simp] theorem State.onSched_fresh (s : State) (f : Sched → Sched) : (s.onSched f).fresh = s.fresh := rfl
@[simp] theorem State.onSched_me (s : State) (f : Sched → Sched) : (s.onSched f).me = s.me := rfl
@[simp] theorem State.onSched_took (s : State) (f : Sched → Sched) : (s.onSched f).took = s.took := rfl
@[simp] theorem State.onSched_cores (s : State) (f : Sched → Sched) : (s.onSched f).cores = s.cores := rfl
@[simp] theorem State.onSched_chan (s : State) (f : Sched → Sched) : (s.onSched f).chan = s.chan := rfl
@[simp] theorem State.onSched_homes (s : State) (f : Sched → Sched) : (s.onSched f).homes = s.homes := rfl
@[simp] theorem State.onSched_parked (s : State) (f : Sched → Sched) : (s.onSched f).parked = s.parked := rfl
@[simp] theorem State.onSched_mem (s : State) (f : Sched → Sched) : (s.onSched f).mem = s.mem := rfl
@[simp] theorem State.onSched_store (s : State) (f : Sched → Sched) : (s.onSched f).store = s.store := rfl
@[simp] theorem State.onSched_images (s : State) (f : Sched → Sched) : (s.onSched f).images = s.images := rfl
@[simp] theorem State.onSched_units (s : State) (f : Sched → Sched) : (s.onSched f).units = s.units := rfl
@[simp] theorem State.onSched_ebufs (s : State) (f : Sched → Sched) : (s.onSched f).ebufs = s.ebufs := rfl
@[simp] theorem State.onSched_fabric (s : State) (f : Sched → Sched) : (s.onSched f).fabric = s.fabric := rfl
@[simp] theorem State.onSched_dbg (s : State) (f : Sched → Sched) : (s.onSched f).dbg = s.dbg := rfl
@[simp] theorem State.onSched_rel (s : State) (f : Sched → Sched) : (s.onSched f).rel = s.rel := rfl
@[simp] theorem State.onSched_boot (s : State) (f : Sched → Sched) : (s.onSched f).boot = s.boot := rfl
@[simp] theorem State.onSched_out (s : State) (f : Sched → Sched) : (s.onSched f).out = s.out := rfl

/-! ### onUnit -/

@[simp] theorem State.onUnit_cycle (s : State) (l n : Nat) (f : LUnit → LUnit) : (s.onUnit l n f).cycle = s.cycle := rfl
@[simp] theorem State.onUnit_slot (s : State) (l n : Nat) (f : LUnit → LUnit) : (s.onUnit l n f).slot = s.slot := rfl
@[simp] theorem State.onUnit_clk (s : State) (l n : Nat) (f : LUnit → LUnit) : (s.onUnit l n f).clk = s.clk := rfl
@[simp] theorem State.onUnit_rate (s : State) (l n : Nat) (f : LUnit → LUnit) : (s.onUnit l n f).rate = s.rate := rfl
@[simp] theorem State.onUnit_agenda (s : State) (l n : Nat) (f : LUnit → LUnit) : (s.onUnit l n f).agenda = s.agenda := rfl
@[simp] theorem State.onUnit_follow (s : State) (l n : Nat) (f : LUnit → LUnit) : (s.onUnit l n f).follow = s.follow := rfl
@[simp] theorem State.onUnit_fresh (s : State) (l n : Nat) (f : LUnit → LUnit) : (s.onUnit l n f).fresh = s.fresh := rfl
@[simp] theorem State.onUnit_me (s : State) (l n : Nat) (f : LUnit → LUnit) : (s.onUnit l n f).me = s.me := rfl
@[simp] theorem State.onUnit_took (s : State) (l n : Nat) (f : LUnit → LUnit) : (s.onUnit l n f).took = s.took := rfl
@[simp] theorem State.onUnit_cores (s : State) (l n : Nat) (f : LUnit → LUnit) : (s.onUnit l n f).cores = s.cores := rfl
@[simp] theorem State.onUnit_chan (s : State) (l n : Nat) (f : LUnit → LUnit) : (s.onUnit l n f).chan = s.chan := rfl
@[simp] theorem State.onUnit_homes (s : State) (l n : Nat) (f : LUnit → LUnit) : (s.onUnit l n f).homes = s.homes := rfl
@[simp] theorem State.onUnit_parked (s : State) (l n : Nat) (f : LUnit → LUnit) : (s.onUnit l n f).parked = s.parked := rfl
@[simp] theorem State.onUnit_mem (s : State) (l n : Nat) (f : LUnit → LUnit) : (s.onUnit l n f).mem = s.mem := rfl
@[simp] theorem State.onUnit_sched (s : State) (l n : Nat) (f : LUnit → LUnit) : (s.onUnit l n f).sched = s.sched := rfl
@[simp] theorem State.onUnit_store (s : State) (l n : Nat) (f : LUnit → LUnit) : (s.onUnit l n f).store = s.store := rfl
@[simp] theorem State.onUnit_images (s : State) (l n : Nat) (f : LUnit → LUnit) : (s.onUnit l n f).images = s.images := rfl
@[simp] theorem State.onUnit_fabric (s : State) (l n : Nat) (f : LUnit → LUnit) : (s.onUnit l n f).fabric = s.fabric := rfl
@[simp] theorem State.onUnit_dbg (s : State) (l n : Nat) (f : LUnit → LUnit) : (s.onUnit l n f).dbg = s.dbg := rfl
@[simp] theorem State.onUnit_rel (s : State) (l n : Nat) (f : LUnit → LUnit) : (s.onUnit l n f).rel = s.rel := rfl
@[simp] theorem State.onUnit_boot (s : State) (l n : Nat) (f : LUnit → LUnit) : (s.onUnit l n f).boot = s.boot := rfl
@[simp] theorem State.onUnit_out (s : State) (l n : Nat) (f : LUnit → LUnit) : (s.onUnit l n f).out = s.out := rfl

/-! ### onStop -/

@[simp] theorem State.onStop_cycle (s : State) (n : Nat) (f : Stop → Stop) : (s.onStop n f).cycle = s.cycle := rfl
@[simp] theorem State.onStop_slot (s : State) (n : Nat) (f : Stop → Stop) : (s.onStop n f).slot = s.slot := rfl
@[simp] theorem State.onStop_clk (s : State) (n : Nat) (f : Stop → Stop) : (s.onStop n f).clk = s.clk := rfl
@[simp] theorem State.onStop_rate (s : State) (n : Nat) (f : Stop → Stop) : (s.onStop n f).rate = s.rate := rfl
@[simp] theorem State.onStop_agenda (s : State) (n : Nat) (f : Stop → Stop) : (s.onStop n f).agenda = s.agenda := rfl
@[simp] theorem State.onStop_follow (s : State) (n : Nat) (f : Stop → Stop) : (s.onStop n f).follow = s.follow := rfl
@[simp] theorem State.onStop_fresh (s : State) (n : Nat) (f : Stop → Stop) : (s.onStop n f).fresh = s.fresh := rfl
@[simp] theorem State.onStop_me (s : State) (n : Nat) (f : Stop → Stop) : (s.onStop n f).me = s.me := rfl
@[simp] theorem State.onStop_took (s : State) (n : Nat) (f : Stop → Stop) : (s.onStop n f).took = s.took := rfl
@[simp] theorem State.onStop_cores (s : State) (n : Nat) (f : Stop → Stop) : (s.onStop n f).cores = s.cores := rfl
@[simp] theorem State.onStop_chan (s : State) (n : Nat) (f : Stop → Stop) : (s.onStop n f).chan = s.chan := rfl
@[simp] theorem State.onStop_homes (s : State) (n : Nat) (f : Stop → Stop) : (s.onStop n f).homes = s.homes := rfl
@[simp] theorem State.onStop_parked (s : State) (n : Nat) (f : Stop → Stop) : (s.onStop n f).parked = s.parked := rfl
@[simp] theorem State.onStop_sched (s : State) (n : Nat) (f : Stop → Stop) : (s.onStop n f).sched = s.sched := rfl
@[simp] theorem State.onStop_store (s : State) (n : Nat) (f : Stop → Stop) : (s.onStop n f).store = s.store := rfl
@[simp] theorem State.onStop_images (s : State) (n : Nat) (f : Stop → Stop) : (s.onStop n f).images = s.images := rfl
@[simp] theorem State.onStop_units (s : State) (n : Nat) (f : Stop → Stop) : (s.onStop n f).units = s.units := rfl
@[simp] theorem State.onStop_ebufs (s : State) (n : Nat) (f : Stop → Stop) : (s.onStop n f).ebufs = s.ebufs := rfl
@[simp] theorem State.onStop_fabric (s : State) (n : Nat) (f : Stop → Stop) : (s.onStop n f).fabric = s.fabric := rfl
@[simp] theorem State.onStop_dbg (s : State) (n : Nat) (f : Stop → Stop) : (s.onStop n f).dbg = s.dbg := rfl
@[simp] theorem State.onStop_rel (s : State) (n : Nat) (f : Stop → Stop) : (s.onStop n f).rel = s.rel := rfl
@[simp] theorem State.onStop_boot (s : State) (n : Nat) (f : Stop → Stop) : (s.onStop n f).boot = s.boot := rfl
@[simp] theorem State.onStop_out (s : State) (n : Nat) (f : Stop → Stop) : (s.onStop n f).out = s.out := rfl

@[simp] theorem State.send_chan (s : State) (b : Body) : (s.send b).chan = s.chan ++ [{ born := s.now, body := b }] := rfl
@[simp] theorem State.tell_out (s : State) (o : Out) : (s.tell o).out = s.out ++ [o] := rfl
@[simp] theorem State.used_fresh (s : State) : s.used.fresh = s.fresh + 1 := rfl
@[simp] theorem State.onSched_sched (s : State) (f : Sched → Sched) : (s.onSched f).sched = f s.sched := rfl

/-! ### Cores -/

theorem State.core_setCore (s : State) (c d : Nat) (k : Core) : (s.setCore c k).core d = if d = c then k else s.core d := by
  simp [State.core, State.setCore, tgetD_tset]
@[simp] theorem State.core_setCore_self (s : State) (c : Nat) (k : Core) : (s.setCore c k).core c = k := by
  simp [State.core_setCore]
theorem State.core_onCore (s : State) (c d : Nat) (f : Core → Core) :
    (s.onCore c f).core d = if d = c then f (s.core c) else s.core d := by simp [State.onCore, State.core_setCore]
@[simp] theorem State.core_onCore_self (s : State) (c : Nat) (f : Core → Core) : (s.onCore c f).core c = f (s.core c) := by
  simp [State.core_onCore]
@[simp] theorem State.mine_onMine (s : State) (f : Core → Core) : (s.onMine f).mine = f s.mine := by
  simp [State.mine, State.onMine]
@[simp] theorem State.core_send (s : State) (b : Body) (c : Nat) : (s.send b).core c = s.core c := rfl
@[simp] theorem State.mine_send (s : State) (b : Body) : (s.send b).mine = s.mine := rfl
@[simp] theorem State.core_used (s : State) (c : Nat) : s.used.core c = s.core c := rfl

/-! ### Contexts -/

theorem Core.ctx_setCtx (k : Core) (x y : Nat) (c : Ctx) : (k.setCtx x c).ctx y = if y = x then c else k.ctx y := by
  simp [Core.ctx, Core.setCtx, tgetD_tset]
@[simp] theorem Core.ctx_setCtx_self (k : Core) (x : Nat) (c : Ctx) : (k.setCtx x c).ctx x = c := by simp [Core.ctx_setCtx]
theorem State.ctx_setCtx (s : State) (c x d y : Nat) (t : Ctx) :
    (s.setCtx c x t).ctx d y = if d = c ∧ y = x then t else s.ctx d y := by
  simp only [State.ctx, State.setCtx, State.core_onCore]
  by_cases h : d = c
  · subst h; simp [Core.ctx_setCtx]
  · simp [h]
@[simp] theorem State.ctx_setCtx_self (s : State) (c x : Nat) (t : Ctx) : (s.setCtx c x t).ctx c x = t := by
  simp [State.ctx_setCtx]
@[simp] theorem State.cx_onCx (s : State) (f : Ctx → Ctx) : (s.onCx f).cx = f s.cx := by
  simp [State.cx, State.onCx, State.onCtx]
theorem State.ctx_onCx_ne (s : State) (f : Ctx → Ctx) {c x : Nat} (h : (c, x) ≠ s.me) : (s.onCx f).ctx c x = s.ctx c x := by
  rw [State.onCx, State.onCtx, State.ctx_setCtx, if_neg]
  intro ⟨h1, h2⟩; exact h (by rw [h1, h2])
@[simp] theorem State.cx_onRegs (s : State) (f : Regs → Regs) : (s.onRegs f).cx = { s.cx with regs := f s.cx.regs } := by
  simp [State.onRegs]
@[simp] theorem State.cx_wrG (s : State) (d : GReg) (v : Word) : (s.wrG d v).cx = { s.cx with regs := s.cx.regs.setG d v } := by
  simp [State.wrG]
@[simp] theorem State.cx_wrP (s : State) (d : PReg) (v : Pred) : (s.wrP d v).cx = { s.cx with regs := s.cx.regs.setP d v } := by
  simp [State.wrP]
@[simp] theorem State.cx_raise (s : State) (b : BitVec 6) : (s.raise b).cx = { s.cx with regs := s.cx.regs.raise b } := by
  simp [State.raise]
@[simp] theorem State.cx_send (s : State) (b : Body) : (s.send b).cx = s.cx := rfl
@[simp] theorem State.cx_tell (s : State) (o : Out) : (s.tell o).cx = s.cx := rfl
@[simp] theorem State.cx_used (s : State) : s.used.cx = s.cx := rfl

/-- Changing a core's shared parts changes none of its contexts. -/
theorem State.cx_onMine (s : State) (f : Core → Core) (h : (f s.mine).ctxs = s.mine.ctxs) : (s.onMine f).cx = s.cx := by
  have h2 : (s.onMine f).cx = (f s.mine).ctx s.me.2 := by
    simp [State.cx, State.ctx, State.onMine, State.mine]
  rw [h2, Core.ctx, h]; rfl

/-- Sending messages changes the channels only. -/
theorem State.sendAll_eq (s : State) (l : List Body) :
    s.sendAll l = { s with chan := s.chan ++ l.map fun b => { born := s.now, body := b } } := by
  unfold State.sendAll
  induction l generalizing s with
  | nil => simp
  | cons b t ih => rw [List.foldl_cons, ih]; simp [State.send, State.now]

@[simp] theorem State.cx_sendAll (s : State) (l : List Body) : (s.sendAll l).cx = s.cx := by rw [State.sendAll_eq]; rfl
@[simp] theorem State.took_sendAll (s : State) (l : List Body) : (s.sendAll l).took = s.took := by rw [State.sendAll_eq]
@[simp] theorem State.me_sendAll (s : State) (l : List Body) : (s.sendAll l).me = s.me := by rw [State.sendAll_eq]
@[simp] theorem State.mem_sendAll (s : State) (l : List Body) : (s.sendAll l).mem = s.mem := by rw [State.sendAll_eq]
@[simp] theorem State.mine_sendAll (s : State) (l : List Body) : (s.sendAll l).mine = s.mine := by rw [State.sendAll_eq]; rfl
@[simp] theorem State.cores_sendAll (s : State) (l : List Body) : (s.sendAll l).cores = s.cores := by rw [State.sendAll_eq]

/-! ### Writing twice -/

@[simp] theorem tset_tset {α : Type} (t : Tab α) (k : Nat) (v w : α) : tset (tset t k v) k w = tset t k w := by
  induction t with
  | nil => simp [tset]
  | cons p t ih =>
    obtain ⟨j, u⟩ := p
    simp only [tset]
    split
    · simp [tset]
    · split
      · simp [tset]
      · simp [tset, *]
theorem Core.setCtx_setCtx (k : Core) (x : Nat) (a b : Ctx) : (k.setCtx x a).setCtx x b = k.setCtx x b := by simp [Core.setCtx]
theorem State.onCx_onCx (s : State) (f g : Ctx → Ctx) : (s.onCx f).onCx g = s.onCx fun c => g (f c) := by
  have h : (s.onCx f).ctx s.me.1 s.me.2 = f (s.ctx s.me.1 s.me.2) := s.cx_onCx f
  show (s.onCx f).setCtx s.me.1 s.me.2 (g ((s.onCx f).ctx s.me.1 s.me.2)) = s.setCtx s.me.1 s.me.2 (g (f (s.ctx s.me.1 s.me.2)))
  rw [h]
  simp [State.onCx, State.onCtx, State.setCtx, State.onCore, State.setCore, State.core, Core.setCtx]
theorem State.onRegs_onRegs (s : State) (f g : Regs → Regs) : (s.onRegs f).onRegs g = s.onRegs fun r => g (f r) := by
  simp only [State.onRegs, State.onCx_onCx]

/-! ### Registers -/

theorem Regs.getG_setG (r : Regs) (d i : GReg) (v : Word) :
    (r.setG d v).getG i = if i = d ∧ d ≠ 0 then v else r.getG i := by
  by_cases hd : d = 0
  · simp [Regs.setG, hd]
  · by_cases hi : i = 0
    · subst hi; rw [if_neg (fun ⟨e, h⟩ => h e.symm)]; simp [Regs.getG]
    · simp only [Regs.getG, Regs.setG, hi, hd, if_false]
      by_cases h : i = d
      · subst h; exact Eq.trans (by simp) (if_pos ⟨rfl, hi⟩).symm
      · have : d.toNat ≠ i.toNat := fun e => h (BitVec.eq_of_toNat_eq e.symm)
        simp [h, this]
theorem Regs.getP_setP (r : Regs) (d i : PReg) (v : Pred) :
    (r.setP d v).getP i = if i = d ∧ d ≠ 0 then v else r.getP i := by
  by_cases hd : d = 0
  · simp [Regs.setP, hd]
  · by_cases hi : i = 0
    · subst hi; rw [if_neg (fun ⟨e, h⟩ => h e.symm)]; simp [Regs.getP]
    · simp only [Regs.getP, Regs.setP, hi, hd, if_false]
      by_cases h : i = d
      · subst h; exact Eq.trans (by simp) (if_pos ⟨rfl, hi⟩).symm
      · have : d.toNat ≠ i.toNat := fun e => h (BitVec.eq_of_toNat_eq e.symm)
        simp [h, this]
theorem Regs.getV_setV (r : Regs) (d i : VReg) (v : Line) : (r.setV d v).getV i = if i = d then v else r.getV i := by
  by_cases h : i = d
  · subst h; simp [Regs.getV, Regs.setV]
  · have : d.toNat ≠ i.toNat := fun e => h (BitVec.eq_of_toNat_eq e.symm)
    simp [h, Regs.getV, Regs.setV, this]
@[simp] theorem Regs.setG_v (r : Regs) (d : GReg) (v : Word) : (r.setG d v).v = r.v := by unfold Regs.setG; split <;> rfl
@[simp] theorem Regs.setG_p (r : Regs) (d : GReg) (v : Word) : (r.setG d v).p = r.p := by unfold Regs.setG; split <;> rfl
@[simp] theorem Regs.setG_fflags (r : Regs) (d : GReg) (v : Word) : (r.setG d v).fflags = r.fflags := by unfold Regs.setG; split <;> rfl
@[simp] theorem Regs.setG_frm (r : Regs) (d : GReg) (v : Word) : (r.setG d v).frm = r.frm := by unfold Regs.setG; split <;> rfl
@[simp] theorem Regs.setP_g (r : Regs) (d : PReg) (v : Pred) : (r.setP d v).g = r.g := by unfold Regs.setP; split <;> rfl
@[simp] theorem Regs.setP_v (r : Regs) (d : PReg) (v : Pred) : (r.setP d v).v = r.v := by unfold Regs.setP; split <;> rfl
@[simp] theorem Regs.setP_fflags (r : Regs) (d : PReg) (v : Pred) : (r.setP d v).fflags = r.fflags := by unfold Regs.setP; split <;> rfl
@[simp] theorem Regs.setV_g (r : Regs) (d : VReg) (v : Line) : (r.setV d v).g = r.g := rfl
@[simp] theorem Regs.setV_p (r : Regs) (d : VReg) (v : Line) : (r.setV d v).p = r.p := rfl
@[simp] theorem Regs.setV_fflags (r : Regs) (d : VReg) (v : Line) : (r.setV d v).fflags = r.fflags := rfl

end Sys2Proof.Machine
end

