-- ==== Sys2Proof/Laws/Issue.lean ====
section
/-! SUPPORT. Issue.lean: what an issue does, said once: where every check passes, where the guard fails, and where a check stops it. -/
namespace Sys2Proof.Machine

/-- The parts of Clear. -/
structure ClearFacts (i : Instr) (s : State) : Prop where
  run      : s.cx.run = .ready
  half     : s.cx.half = 0
  view     : s.cx.view = none
  took     : s.took = none
  allotted : (usesOf i).allotted s.cx.part = true
  priv     : privOk s i = true
  waits    : waitsForNothing s.cx i = true
  refusal  : noRefusal s = true
  capture  : capturePermits s.cx (usesOf i) = true
  perform  : (usesOf i).performed s.cx.regs = true
  pending  : pendingDest s.cx (usesOf i).dests = none
  streams  : noStream s.cx ((usesOf i).vs ++ (usesOf i).dv) = true

theorem clear_facts {i : Instr} {s : State} (h : Clear i s = true) : ClearFacts i s := by
  simp only [Clear, alone, Bool.and_eq_true, decide_eq_true_eq, Option.isNone_iff_eq_none] at h
  obtain ⟨⟨⟨⟨⟨⟨⟨⟨⟨⟨⟨a1, a2⟩, a3⟩, a4⟩, a5⟩, a6⟩, a7⟩, a8⟩, a9⟩, a10⟩, a11⟩, a12⟩ := h
  exact ⟨a1, a2, a3, a4, a5, a6, a7, a8, a9, a10, a11, a12⟩

theorem rd_of_view {s : State} (h : s.cx.view = none) : s.rd = s.cx.regs := by simp [State.rd, h]

theorem noStream_append {c : Ctx} {a b : List VReg} : noStream c (a ++ b) = (noStream c a && noStream c b) := by
  simp [noStream]

theorem firstV_ok {l : List StreamV} (h : ∀ x ∈ l, x = .ok) : firstV l = .ok := by
  induction l with
  | nil => rfl
  | cons x t ih =>
    rw [h x (by simp)]
    exact ih fun y hy => h y (by simp [hy])

theorem streamCheck_ok {c : Ctx} {u : Use} (h : noStream c (u.vs ++ u.dv) = true) : streamCheck c u = .ok := by
  simp only [noStream, List.all_append, Bool.and_eq_true, List.all_eq_true, Option.isNone_iff_eq_none] at h
  unfold streamCheck
  split
  · rfl
  · apply firstV_ok
    intro x hx
    simp only [List.mem_append, List.mem_map] at hx
    obtain ⟨v, hv, rfl⟩ | ⟨v, hv, rfl⟩ := hx
    · simp [srcStream, h.1 v hv]
    · simp [dstStream, h.2 v hv]

/-- An instruction that executes normally passes every check. -/
theorem clear_verdict {i : Instr} {s : State} (h : Clear i s = true) : verdict s i = .go := by
  have f := clear_facts h
  have hc := f.capture
  have hw := f.waits
  have hr := f.refusal
  simp only [waitsForNothing, marksClear, Bool.and_eq_true, Bool.or_eq_true, Bool.not_eq_true', List.all_eq_true, decide_eq_true_eq] at hw
  simp only [noRefusal, Bool.or_eq_true, Option.isNone_iff_eq_none] at hr
  have hm : (usesOf i).marked = true → s.cx.noLong = true ∧ ∀ r ∈ s.cx.replay, r.due = false := by
    intro hm; obtain h | h := hw.1
    · simp [hm] at h
    · exact h
  have hl : (true && startsLong s.rd s.cx i && decide (s.cx.longs.length ≥ Config.maxLong)) = false := by
    rw [Bool.true_and, rd_of_view f.view]
    obtain h | h := hw.2
    · simp [h]
    · have : ¬ s.cx.longs.length ≥ Config.maxLong := by omega
      simp [this]
  have hb : (usesOf i).marked = true → s.cx.cap.any Capture.busy = false := by
    intro hm
    unfold capturePermits at hc
    cases hcap : s.cx.cap with
    | none => rfl
    | some p => simp only [hcap, hm, Bool.and_eq_true, Bool.or_eq_true, Bool.not_eq_true', Bool.true_eq_false, false_or] at hc; simp [hc.1.2]
  have hv : ((usesOf i).vec && s.cx.cap.any Capture.busy) = false := by
    unfold capturePermits at hc
    cases hcap : s.cx.cap with
    | none => simp
    | some p => simp only [hcap, Bool.and_eq_true, Bool.not_eq_true'] at hc; simp [hc.1.1]
  have hf : capturing s.cx (usesOf i) = false := by
    unfold capturePermits at hc
    unfold capturing
    cases hcap : s.cx.cap with
    | none => simp
    | some p => simp only [hcap, Bool.and_eq_true, Bool.not_eq_true'] at hc; simp [hc.1.1]
  have hd : (usesOf i).dests.find? (reissueWrites s.cx) = none := by
    unfold capturePermits at hc
    rw [List.find?_eq_none]
    intro d hd
    cases hcap : s.cx.cap with
    | none => simp [reissueWrites, hcap]
    | some p =>
      simp only [hcap, Bool.and_eq_true, List.all_eq_true, Bool.not_eq_true'] at hc
      have := hc.2 d hd
      simp only [reissueWrites, hcap, this, Bool.false_eq_true, not_false_eq_true]
  have hp : (usesOf i).performed s.rd = true := by rw [rd_of_view f.view]; exact f.perform
  have hmark : ((usesOf i).marked && !(s.cx.noLong && !s.cx.cap.any Capture.busy)) = false := by
    cases hmk : (usesOf i).marked with
    | false => rfl
    | true => simp [(hm hmk).1, hb hmk]
  have hfind : (if (usesOf i).marked then s.cx.replay.find? (fun p => p.due && !p.fault.absent) else none) = none := by
    cases hmk : (usesOf i).marked with
    | false => simp
    | true => simpa using fun r hr h => absurd h (by simp [(hm hmk).2 r hr])
  have hpage : ((usesOf i).marked && s.cx.replay.any Replay.due) = false := by
    cases hmk : (usesOf i).marked with
    | false => rfl
    | true => simpa using fun r hr => (hm hmk).2 r hr
  have href : (if s.cx.hnd then none else s.mine.refusal s.me.2 s.cx.inc) = none := by
    obtain h | h := hr <;> simp [h]
  unfold verdict
  simp only [f.allotted, f.priv, hmark, hv, hl, hfind, hpage, href, hf, hp, pendingCheck, f.pending, hd, streamCheck_ok f.streams,
    Bool.not_true, Bool.false_eq_true, if_false, if_true, Option.or_none]

/-- What is done of an instruction that executes normally. -/
theorem clear_issue {i : Instr} {s : State} (body : State → State) (h : Clear i s = true) (ht : (body s).took = none)
    (hs : noStream (body s).cx (usesOf i).dv = true) (hc : (usesOf i).vec = true → (body s).cx.cap = none) :
    issue i body s = (body s).finish := by
  have f := clear_facts h
  have hst := f.streams
  rw [noStream_append, Bool.and_eq_true] at hst
  have hn : (body s).noteCapture i = body s := by
    unfold State.noteCapture
    cases hv : (usesOf i).vec with
    | true => simp [hc hv]
    | false => split <;> simp
  unfold issue
  rw [clear_verdict h]
  simp only [State.perform, State.popAll, hst.1, if_true, ht, Option.isSome_none, Bool.false_eq_true, if_false, State.pushAll, hs, hn]

/-- Going on behind an issue that neither trapped nor parked. -/
theorem finish_pass {s : State} (ht : s.took = none) (hh : s.cx.half = 0) (hr : s.cx.run = .ready) : s.finish = s.pass := by
  simp [State.finish, State.pass, ht, hh, hr]

/-- An instruction that executes normally and neither traps nor parks: its body's effect, and the thread goes on. -/
theorem issue_pass {i : Instr} {s t : State} {body : State → State} (h : Clear i s = true) (hb : body s = t) (ht : t.took = s.took)
    (h1 : t.cx.streams = s.cx.streams) (h2 : t.cx.cap = s.cx.cap) (h3 : t.cx.half = s.cx.half) (h4 : t.cx.run = s.cx.run) :
    issue i body s = t.pass := by
  have f := clear_facts h
  have hst := f.streams
  rw [noStream_append, Bool.and_eq_true] at hst
  rw [clear_issue body h (by rw [hb, ht, f.took]), hb]
  · exact finish_pass (by rw [ht, f.took]) (by rw [h3, f.half]) (by rw [h4, f.run])
  · rw [hb]; simpa [noStream, h1] using hst.2
  · intro hv
    rw [hb, h2]
    have hc := f.capture
    unfold capturePermits at hc
    cases hcap : s.cx.cap with
    | none => rfl
    | some p => simp [hcap, hv] at hc

/-- An issue that parks its thread leaves the PC. -/
theorem finish_park {s : State} {k : PKind} {p : PCond} {c : Cont} {l : Bool} (hr : s.cx.run = .parked k p c l) : s.finish = s := by
  simp [State.finish, hr]

/-- An issue that took a trap is over. -/
theorem finish_trap {s : State} (ht : s.took ≠ none) : s.finish = s := by
  unfold State.finish
  rw [if_neg]
  cases h : s.took with
  | none => exact absurd h ht
  | some t => simp

/-- An instruction that its guard does not perform only lets the thread go on. -/
theorem skips_issue {i : Instr} {s : State} (body : State → State) (h : Skips i s = true)
    : issue i body s = s.pass := by
  simp only [Skips, alone, Bool.and_eq_true, decide_eq_true_eq, Option.isNone_iff_eq_none, Bool.not_eq_true'] at h
  obtain ⟨⟨⟨⟨⟨⟨⟨⟨⟨a1, a2⟩, a3⟩, a4⟩, a5⟩, a6⟩, a7⟩, a8⟩, a9⟩, a10⟩ := h
  simp only [marksClear, Bool.or_eq_true, Bool.not_eq_true', Bool.and_eq_true, List.all_eq_true] at a7
  simp only [noRefusal, Bool.or_eq_true, Option.isNone_iff_eq_none] at a8
  have hmk : (usesOf i).marked = true → s.cx.noLong = true ∧ ∀ r ∈ s.cx.replay, r.due = false := by
    intro hm; obtain h | h := a7
    · simp [hm] at h
    · exact h
  have hmark : ((usesOf i).marked && !(s.cx.noLong && !s.cx.cap.any Capture.busy)) = false := by
    cases hm : (usesOf i).marked with
    | false => rfl
    | true => simp [(hmk hm).1, a9]
  have hfind : (if (usesOf i).marked then s.cx.replay.find? (fun p => p.due && !p.fault.absent) else none) = none := by
    cases hm : (usesOf i).marked with
    | false => simp
    | true => simpa using fun r hr h => absurd h (by simp [(hmk hm).2 r hr])
  have hpage : ((usesOf i).marked && s.cx.replay.any Replay.due) = false := by
    cases hm : (usesOf i).marked with
    | false => rfl
    | true => simpa using fun r hr => (hmk hm).2 r hr
  have href : (if s.cx.hnd then none else s.mine.refusal s.me.2 s.cx.inc) = none := by
    obtain h | h := a8 <;> simp [h]
  have hp : (usesOf i).performed s.rd = false := by rw [rd_of_view a3]; exact a10
  have hv : verdict s i = .skip := by
    unfold verdict
    have hc : capturing s.cx (usesOf i) = false := by simp [capturing, a9]
    have hb : ((usesOf i).vec && s.cx.cap.any Capture.busy) = false := by simp [a9]
    simp only [a5, a6, hmark, hb, hfind, hpage, href, hp, hc, pendingCheck, Option.or_none, Bool.not_true, Bool.false_eq_true, if_false, Bool.false_and,
      Bool.not_false, if_true]
  unfold issue
  rw [hv]
  have : s.noteCapture i = s := by simp [State.noteCapture, a9]
  simp only [this]
  exact finish_pass a4 a2 a1

end Sys2Proof.Machine
end

