-- ==== Sys2Proof/Laws/Memory.lean ====
section
/-! SUPPORT. Memory.lean: every operation that writes memory, a pool, operand memory or a peer's memory keeps its canonical form. -/
namespace Sys2Proof.Machine

theorem foldl_keeps {α β : Type} {p : β → Prop} {f : β → α → β} (h : ∀ b a, p b → p (f b a)) (l : List α) (b : β) (hb : p b) :
    p (l.foldl f b) := by
  induction l generalizing b with
  | nil => exact hb
  | cons a t ih => exact ih _ (h b a hb)

theorem wf_writePhys {s : State} (h : s.mem.wf = true) (t : BitVec 16) (pa : Nat) (d : Line) (m : BitVec 64) :
    (s.writePhys t pa d m).mem.wf = true := by
  unfold State.writePhys
  split <;> exact cellsOk_wrMasked (by split <;> exact h) _ _ _ _

theorem bytes_undoLog (s : State) (pa : Nat) : (s.undoLog pa).mem.bytes = s.mem.bytes := by
  unfold State.undoLog
  dsimp only
  split
  · rfl
  · split <;> rfl

theorem wf_putLine {s : State} (h : s.mem.wf = true) (t : BitVec 16) (pa : Nat) (d : Line) (m : BitVec 64) :
    (s.putLine t pa d m).mem.wf = true := by
  unfold State.putLine
  split
  · exact h
  · exact wf_writePhys (by simpa [Memory.wf, bytes_undoLog] using h) _ _ _ _

theorem wf_setBand {m : Memory} (h : m.wf = true) (pa : Nat) (b : BitVec 6) : (m.setBand pa b).wf = true := h

theorem wf_unwrite {m : Memory} (h : m.wf = true) (r : UndoRec) : (m.unwrite r).wf = true := by
  unfold Memory.unwrite
  exact foldl_keeps (p := fun m : Memory => m.wf = true) (fun m i hm => wf_setBand hm _ _) _ _ (cellsOk_wrMasked h _ _ _ _)

theorem wf_ringWrite {s : State} (h : s.mem.wf = true) (key : Nat) (l : List Byte) : (s.ringWrite key l).mem.wf = true := by
  unfold State.ringWrite
  dsimp only
  split
  · exact h
  · exact cellsOk_wrBytes h _ _

theorem wf_seriesWrite {s : State} (h : s.mem.wf = true) (die : Nat) (l : List Byte) : (s.seriesWrite die l).mem.wf = true := by
  unfold State.seriesWrite
  dsimp only
  split
  · exact h
  · exact cellsOk_wrBytes h _ _

theorem wf_mcheck {s : State} (h : s.mem.wf = true) (m : MCheck) (inc : BitVec 16) : (s.mcheck m inc).mem.wf = true := by
  unfold State.mcheck State.tell
  dsimp only
  split
  · exact h
  · split
    · exact h
    · exact cellsOk_wrBytes h _ _

theorem memWf_parts {k : Core} : k.memWf = true ↔ cellsOk k.pool = true ∧ cellsOk k.opmem = true := by simp [Core.memWf]

theorem memWf_poolWrite {k : Core} (h : k.memWf = true) (line : Nat) (d : Line) (m : BitVec 64) : (k.poolWrite line d m).memWf = true := by
  obtain ⟨h1, h2⟩ := memWf_parts.mp h
  unfold Core.poolWrite Core.heal
  split <;> exact memWf_parts.mpr ⟨cellsOk_wrMasked h1 _ _ _ _, h2⟩

theorem memWf_opPut {k : Core} (h : k.memWf = true) (a : Nat) (d : Line) : (k.opPut a d).memWf = true := by
  obtain ⟨h1, h2⟩ := memWf_parts.mp h
  exact memWf_parts.mpr ⟨h1, cellsOk_wrMasked h2 _ _ _ _⟩

theorem memWf_accPut {k : Core} (h : k.memWf = true) (i : Nat) (l : List Nat) : (k.accPut i l).memWf = true := by
  obtain ⟨h1, h2⟩ := memWf_parts.mp h
  exact memWf_parts.mpr ⟨foldl_keeps (p := fun m => cellsOk m = true) (fun m _ hm => cellsOk_wrN hm _ _ _) _ _ h1, h2⟩

theorem memWf_accMat {k : Core} (h : k.memWf = true) (t : Nat) (m : Mat) : (k.accMat t m).memWf = true := by
  refine foldl_keeps (p := fun k : Core => k.memWf = true) (fun k p hk => ?_) _ _ h
  obtain ⟨h1, h2⟩ := memWf_parts.mp hk
  exact memWf_parts.mpr ⟨foldl_keeps (p := fun m => cellsOk m = true) (fun m _ hm => cellsOk_wrN hm _ _ _) _ _ h1, h2⟩

/-- The memory of every peer is in the canonical form. -/
def State.peersOk (s : State) : Bool := s.fabric.peerMem.all fun p => cellsOk p.2

theorem peersOk_cells {s : State} (h : s.peersOk = true) (k : Nat) : cellsOk (tgetD s.fabric.peerMem k []) = true := by
  unfold State.peersOk at h
  generalize s.fabric.peerMem = t at h ⊢
  induction t with
  | nil => rfl
  | cons p t ih =>
    obtain ⟨j, v⟩ := p
    simp only [List.all_cons, Bool.and_eq_true] at h
    by_cases hk : k = j
    · simpa [tgetD, tget, hk] using h.1
    · simpa [tgetD, tget, hk] using ih h.2

theorem peersOk_set {s : State} (h : s.peersOk = true) (k : Nat) {m : List Host.Cell} (hm : cellsOk m = true) : (s.setPeerCells k m).peersOk = true :=
  all_tset h hm

theorem ok_writeFrame {s : State} (h : s.mem.wf = true) (hp : s.peersOk = true) (t : BitVec 16) (off : Nat) (d : Line) (m : BitVec 64)
    (f : Nat × Nat) : (s.writeFrame t off d m f).mem.wf = true ∧ (f.1 ≠ 0 → (s.writeFrame t off d m f).peersOk = true) := by
  unfold State.writeFrame
  split
  · exact ⟨wf_putLine h _ _ _ _, fun hf => absurd ‹_› hf⟩
  · exact ⟨h, fun _ => all_tset hp (cellsOk_wrMasked (peersOk_cells hp _) _ _ _ _)⟩

theorem fabric_undoLog (s : State) (pa : Nat) : (s.undoLog pa).fabric = s.fabric := by
  unfold State.undoLog
  dsimp only
  split
  · rfl
  · split <;> rfl

theorem ok_logFrame {s : State} (h : s.mem.wf = true) (hp : s.peersOk = true) (f : Nat) :
    (s.logFrame f).mem.wf = true ∧ (s.logFrame f).peersOk = true := by
  unfold State.logFrame
  generalize upTo 64 = l
  induction l generalizing s with
  | nil => exact ⟨h, hp⟩
  | cons i l ih => exact ih (by simpa [Memory.wf, bytes_undoLog] using h) (by simpa [State.peersOk, fabric_undoLog] using hp)

theorem ok_putFrame {s : State} (h : s.mem.wf = true) (hp : s.peersOk = true) (f : Nat × Nat) (page : List Byte) :
    (s.putFrame f page).mem.wf = true ∧ (s.putFrame f page).peersOk = true := by
  unfold State.putFrame
  split
  · generalize hq : s.logFrame f.2 = q
    obtain ⟨h', hp'⟩ := hq ▸ ok_logFrame h hp f.2
    exact ⟨cellsOk_wrBytes h' _ _, hp'⟩
  · exact ⟨h, all_tset hp (cellsOk_wrBytes (peersOk_cells hp _) _ _)⟩

theorem ok_copyFrame {s : State} (h : s.mem.wf = true) (hp : s.peersOk = true) (src f : Nat × Nat) :
    (s.copyFrame src f).mem.wf = true ∧ (s.copyFrame src f).peersOk = true := ok_putFrame h hp f _

end Sys2Proof.Machine
end

