-- ==== Sys2Proof/Laws/Outcome.lean ====
section
/-! SUPPORT. Outcome.lean: the three ways in which an instruction that passed its checks ends (it goes on, it parks, it takes a trap),
one lemma for each. -/
namespace Sys2Proof.Machine

/-! ### Parks -/

@[simp] theorem State.cx_park (s : State) (k : PKind) (c : PCond) (m : Cont) (l : Bool) :
    (s.park k c m l).cx = { s.cx with run := .parked k c m l, syncTurns := 0, due := false } := by simp [State.park]
@[simp] theorem State.took_park (s : State) (k : PKind) (c : PCond) (m : Cont) (l : Bool) : (s.park k c m l).took = s.took := rfl
@[simp] theorem State.me_park (s : State) (k : PKind) (c : PCond) (m : Cont) (l : Bool) : (s.park k c m l).me = s.me := rfl

theorem clear_cap {i : Instr} {s : State} (f : ClearFacts i s) (hv : (usesOf i).vec = true) : s.cx.cap = none := by
  have hc := f.capture
  unfold capturePermits at hc
  cases hcap : s.cx.cap with
  | none => rfl
  | some p => simp [hcap, hv] at hc

theorem clear_dv {i : Instr} {s : State} (f : ClearFacts i s) : noStream s.cx (usesOf i).dv = true := by
  have hst := f.streams
  rw [noStream_append, Bool.and_eq_true] at hst
  exact hst.2

/-- An instruction that executes normally and parks. -/
theorem issue_park {i : Instr} {s t : State} {body : State → State} {k : PKind} {c : PCond} {m : Cont} {l : Bool} (h : Clear i s = true)
    (hb : body s = t.park k c m l) (ht : t.took = s.took) (h1 : t.cx.streams = s.cx.streams) (h2 : t.cx.cap = s.cx.cap) :
    issue i body s = t.park k c m l := by
  have f := clear_facts h
  rw [clear_issue body h (by rw [hb, State.took_park, ht, f.took]), hb]
  · exact finish_park (k := k) (p := c) (c := m) (l := l) (by rw [State.cx_park])
  · rw [hb, State.cx_park]; simpa [noStream, h1] using clear_dv f
  · intro hv
    rw [hb, State.cx_park]
    exact h2.trans (clear_cap f hv)

/-- An instruction that executes normally and leaves the ready state, or sets the PC itself: nothing is added to its body. -/
theorem issue_stays {i : Instr} {s t : State} {body : State → State} (h : Clear i s = true) (hb : body s = t) (ht : t.took = s.took)
    (h1 : t.cx.streams = [] ∨ t.cx.streams = s.cx.streams) (h2 : t.cx.cap = none ∨ t.cx.cap = s.cx.cap) (h3 : t.cx.run ≠ .ready) :
    issue i body s = t := by
  have f := clear_facts h
  rw [clear_issue body h (by rw [hb, ht, f.took]), hb]
  · simp [State.finish, h3]
  · rw [hb]
    obtain h1 | h1 := h1
    · simp [noStream, h1, tget]
    · simpa [noStream, h1] using clear_dv f
  · intro hv
    rw [hb]
    obtain h2 | h2 := h2
    · exact h2
    · exact h2.trans (clear_cap f hv)

/-! ### Traps -/

theorem State.dropCapture_eq (s : State) :
    s.dropCapture s.me.1 s.me.2 = (s.onCx fun c => { c with cap := none }).onMine fun k =>
      { k with capHold := if tget k.capHold (s.me.2 % 8) = some s.me.2 then tdel k.capHold (s.me.2 % 8) else k.capHold } := rfl

/-- What taking a trap does when a handler will handle it; the trap is recorded, and the messages stay. -/
theorem trapInfo_facts {s : State} (h0 : s.cx.half = 0) (h1 : s.cx.hnd = false) (h2 : s.cx.regs.trapvec ≠ 0) (cause : BitVec 8) (addr : Word)
    (info : Nat) :
    traps s (s.trapInfo cause addr info) cause addr info ∧ (s.trapInfo cause addr info).took.isSome ∧ (s.trapInfo cause addr info).me = s.me := by
  have h2' : (s.cx.regs.trapvec == 0) = false := by simpa using h2
  have hc : ({ s with took := some ⟨cause, addr, BitVec.ofNat 64 (info + pairBits s.cx.pairOf)⟩ } : State).cx = s.cx := rfl
  unfold State.trapInfo
  simp only [h0, if_true, hc]
  unfold State.deliver
  simp only
  have hcx : ({ s with took := some ⟨cause, addr, BitVec.ofNat 64 (info + pairBits s.cx.pairOf)⟩ } : State).ctx s.me.1 s.me.2 = s.cx := rfl
  rw [hcx]
  cases hcap : (s.cx.cap.any Capture.forming || decide (cause = REP_USE)) with
  | false =>
    simp only [Bool.false_eq_true, if_false, hcx, h1, h2', Bool.or_self]
    refine ⟨⟨?_, ?_, rfl, rfl, rfl, rfl, ?_⟩, rfl, rfl⟩
    · rw [hcap]; exact State.ctx_setCtx_self _ _ _ _
    · intro c x hne
      rw [State.ctx_setCtx, if_neg (fun ⟨a, b⟩ => hne (by rw [a, b]))]; rfl
    · intro c
      simp only [State.setCtx, State.core_onCore]
      split <;> rename_i hh
      · subst hh; exact ⟨rfl, rfl⟩
      · exact ⟨rfl, rfl⟩
  | true =>
    have hd := State.dropCapture_eq { s with took := some ⟨cause, addr, BitVec.ofNat 64 (info + pairBits s.cx.pairOf)⟩ }
    simp only at hd
    simp only [if_true, hd]
    have h4 : ∀ (u : State) (g : Core → Core), (∀ k, (g k).ctxs = k.ctxs) → (u.onMine g).ctx u.me.1 u.me.2 = u.cx := by
      intro u g hg
      exact State.cx_onMine u g (hg _)
    have h5 := h4 (({ s with took := some ⟨cause, addr, BitVec.ofNat 64 (info + pairBits s.cx.pairOf)⟩ } : State).onCx fun c => { c with cap := none })
      (fun k => { k with capHold := if tget k.capHold (s.me.2 % 8) = some s.me.2 then tdel k.capHold (s.me.2 % 8) else k.capHold }) (fun _ => rfl)
    rw [State.cx_onCx] at h5
    simp only [State.onCx_me] at h5
    simp only [h5, hc, h1, h2', Bool.or_self, Bool.false_eq_true, if_false]
    refine ⟨⟨?_, ?_, rfl, rfl, rfl, rfl, ?_⟩, rfl, rfl⟩
    · rw [hcap]; exact State.ctx_setCtx_self _ _ _ _
    · intro c x hne
      rw [State.ctx_setCtx, if_neg (fun ⟨a, b⟩ => hne (by rw [a, b]))]
      simp only [State.ctx, State.onMine, State.core_onCore, State.onCx_me]
      split <;> rename_i hh
      · subst hh
        show (State.core _ _).ctx x = _
        exact State.ctx_onCx_ne _ _ hne
      · exact State.ctx_onCx_ne _ _ hne
    · intro c
      simp only [State.setCtx, State.core_onCore, State.onMine, State.onCx, State.onCtx, State.onCore_me]
      by_cases hh : c = s.me.1
      · subst hh; simp only [if_true]; exact ⟨rfl, rfl⟩
      · simp only [hh, if_false]; exact ⟨rfl, rfl⟩

/-- A stream from which nothing has been popped stays. -/
theorem repop_unpopIn_self (l : Tab Stream) (v : Nat) : Ctx.repop.unpopIn l l v = l := by
  unfold Ctx.repop.unpopIn
  cases tget l v <;> simp

/-- Streams from which nothing has been popped stay. -/
theorem repop_self (l m : Tab Stream) : m.foldl (fun t p => Ctx.repop.unpopIn l t p.1) l = l := by
  induction m with
  | nil => rfl
  | cons p m ih => rw [List.foldl_cons, repop_unpopIn_self, ih]

/-- What is put back of the streams after a trap is nothing where the trap has changed none of it. -/
theorem traps_unpop {s t : State} {cause : BitVec 8} {addr : Word} {info : Nat} (h : traps s t cause addr info) (hm : t.me = s.me) :
    traps s (t.unpop s.cx) cause addr info := by
  unfold State.unpop
  split
  · exact h
  · obtain ⟨h1, h2, h3, h4, h5, h6, h7⟩ := h
    refine ⟨?_, ?_, h3, h4, h5, h6, ?_⟩
    · rw [State.cx_onCx, h1]
      simp [Ctx.repop, repop_self]
    · intro c x hne
      rw [State.ctx_onCx_ne _ _ (by rw [hm]; exact hne)]; exact h2 c x hne
    · intro c
      simp only [State.onCx, State.onCtx, State.setCtx, State.core_onCore]
      split <;> rename_i hh
      · subst hh; exact h7 _
      · exact h7 _

/-- An instruction that passes its checks and traps in its body, before it has changed anything. -/
theorem issue_traps {i : Instr} {s : State} {body : State → State} {cause : BitVec 8} {addr : Word} {info : Nat} (h : Clear i s = true)
    (hh : s.cx.hnd = false) (hv : s.cx.regs.trapvec ≠ 0) (hb : body s = s.trapInfo cause addr info) :
    traps s (issue i body s) cause addr info := by
  have f := clear_facts h
  obtain ⟨ht, htk, hme⟩ := trapInfo_facts (s := s) f.half hh hv cause addr info
  have hst := f.streams
  rw [noStream_append, Bool.and_eq_true] at hst
  have hu : ((s.trapInfo cause addr info).unpop s.cx).took = (s.trapInfo cause addr info).took := by
    unfold State.unpop; split <;> rfl
  have hi : issue i body s = ((s.trapInfo cause addr info).unpop s.cx).finish := by
    unfold issue
    rw [clear_verdict h]
    simp only [State.perform, State.popAll, hst.1, if_true, hb, htk]
  rw [hi, finish_trap (by rw [hu]; intro he; rw [he] at htk; cases htk)]
  exact traps_unpop ht hme

end Sys2Proof.Machine
end

