-- ==== Sys2Proof/Laws/PerInstr.lean ====
section
/-! SUPPORT. PerInstr.lean: for each instruction, the decoder takes back what the encoder gives to its fields: no bit of an operand is dropped
and none runs into another's place. -/
namespace Sys2Proof.Laws.Encodes

-- One theorem after the other: each of them is small, and their threads' stacks together are not.
set_option Elab.async false

/-- What the encoder puts into the parts of a word, the decoder of its class reads back (R39, R45). An event has no word. -/
def Statement (i : Instr) : Prop := ∀ r, encodeRaw i = some r → decodeRaw r = .ok i

/-! Specifiers (R43). -/
@[simp] theorem gReg_gSpec (r : GReg) : gReg (gSpec r) = .ok r := by revert r; decide +kernel
@[simp] theorem vReg_vSpec (r : VReg) : vReg (vSpec r) = .ok r := by revert r; decide +kernel
@[simp] theorem pReg_pSpec (r : PReg) : pReg (pSpec r) = .ok r := by revert r; decide +kernel
@[simp] theorem aReg_aSpec (r : AReg) : aReg (aSpec r) = .ok r := by revert r; decide +kernel
@[simp] theorem oReg_oSpec (r : OReg) : oReg (oSpec r) = .ok r := by revert r; decide +kernel
@[simp] theorem hReg_hSpec (r : HReg) : hReg (hSpec r) = .ok r := by revert r; decide +kernel
@[simp] theorem cbReg_cbSpec (r : CbReg) : cbReg (cbSpec r) = .ok r := by revert r; decide +kernel
@[simp] theorem kReg_kSpec (r : KReg) : kReg (kSpec r) = .ok r := by revert r; decide +kernel
@[simp] theorem optGReg_optGSpec (r : Option GReg) : optGReg (optGSpec r) = .ok r := by
  cases r with
  | none => rfl
  | some r => revert r; decide +kernel
@[simp] theorem optPReg_optPSpec (r : Option PReg) : optPReg (optPSpec r) = .ok r := by
  cases r with
  | none => rfl
  | some r => revert r; decide +kernel
@[simp] theorem zeroVReg_zeroVSpec (r : Option VReg) : zeroVReg (zeroVSpec r) = .ok r := by
  cases r with
  | none => rfl
  | some r => revert r; decide +kernel
@[simp] theorem isG_gSpec (r : GReg) : isG (gSpec r) = true := by revert r; decide +kernel
@[simp] theorem isG_pSpec (r : PReg) : isG (pSpec r) = false := by revert r; decide +kernel

/-! Codes. -/
@[simp] theorem wd_code (x : Wd) : wdOf (wdBits x) = x := by cases x <;> rfl
@[simp] theorem mode_code (a : Mode) : modeOf (modeBits a) = a := by cases a <;> rfl
@[simp] theorem lc_code (x : Bool) : lcOf (lcBits x) = .ok x := by cases x <;> rfl
@[simp] theorem wdsz_code (x : Wd) : wdszOf (wdszBits x) = .ok x := by cases x <;> rfl
@[simp] theorem ldsz_code (x : LdSz) : ldszOf (ldszBits x) = .ok x := by cases x <;> rfl
@[simp] theorem stsz_code (x : StSz) : stszOf (stszBits x) = .ok x := by cases x <;> rfl
@[simp] theorem cond_code (x : Cond) : condOf (condBits x) = .ok x := by cases x <;> rfl
@[simp] theorem fcond_code (x : FCond) : fcondOf (fcondBits x) = .ok x := by cases x <;> rfl
@[simp] theorem fmt_code (x : Fmt) : fmtOf (fmtBits x) = .ok x := by cases x <;> rfl
@[simp] theorem rm_code (x : Rm) : rmOf (rmBits x) = .ok x := by cases x <;> rfl
@[simp] theorem nfmt_code (x : NFmt) : nfmtOf (nfmtBits x) = .ok x := by cases x <;> rfl
@[simp] theorem view_code (x : View) : viewOf (viewBits x) = .ok x := by cases x <;> rfl
@[simp] theorem bx_code (x : Bx) : bxOf (bxBits x) = .ok x := by cases x <;> rfl
@[simp] theorem atom_code (x : AtomOp) : atomOf (atomBits x) = .ok x := by cases x <;> rfl
@[simp] theorem ckind_code (k : CKind) : ckindOf (ckindBits k) = .ok k := by cases k <;> rfl
@[simp] theorem lvl_code (x : Lvl) : lvlOf (lvlBits x) = .ok x := by cases x <;> rfl
@[simp] theorem tfmt_code (x : TFmt) : tfmtOf (tfmtBits x) = .ok x := by cases x <;> rfl
@[simp] theorem sreg_code (x : SReg) : sregOf (sregBits x) = .ok x := by cases x <;> rfl
@[simp] theorem csr_code (x : Csr) : csrOf (csrBits x) = .ok x := by
  cases x with
  | win i => revert i; decide +kernel
  | _ => rfl
@[simp] theorem bit_code (b : Bool) : (BitVec.ofBool b == 1#1) = b := by cases b <;> rfl
@[simp] theorem ldsz_not_v (x : LdSz) : ldszBits x ≠ 8#4 := by cases x <;> decide
@[simp] theorem stsz_not_v (x : StSz) : stszBits x ≠ 8#4 := by cases x <;> decide

/-! Fields put side by side. -/
@[simp] theorem put_same {n lo k : Nat} (v : BitVec k) (h : lo + k ≤ n) : (putAt n lo v).extractLsb' lo k = v := by
  apply BitVec.eq_of_getLsbD_eq
  intro i hi
  simp [putAt, hi, show lo + i < n by omega]
@[simp] theorem put_apart {n lo k s m : Nat} (v : BitVec k) (h : s + m ≤ lo ∨ lo + k ≤ s) : (putAt n lo v).extractLsb' s m = 0#m := by
  ext i hi
  simp only [putAt, BitVec.getElem_extractLsb', BitVec.getLsbD_shiftLeft, BitVec.getLsbD_setWidth, BitVec.getElem_zero]
  by_cases h1 : s + i < lo
  · simp [h1]
  · simp [BitVec.getLsbD_of_ge v (s + i - lo) (by omega)]
@[simp] theorem put_masked {n lo k : Nat} (v : BitVec k) (mask : BitVec n) (h : mask.extractLsb' lo k = 0#k) : putAt n lo v &&& mask = 0#n := by
  ext i hi
  simp only [putAt, BitVec.getElem_and, BitVec.getElem_shiftLeft, BitVec.getElem_zero]
  by_cases h1 : i < lo
  · simp [h1]
  by_cases h2 : i - lo < k
  · have e := congrArg (fun q => q.getLsbD (i - lo)) h
    simp only [BitVec.getLsbD_extractLsb', h2, decide_true, Bool.true_and, BitVec.getLsbD_zero, show lo + (i - lo) = i by omega] at e
    simp [BitVec.getLsbD_eq_getElem hi] at e
    simp [e]
  · simp [BitVec.getLsbD_of_ge v (i - lo) (by omega)]
@[simp] theorem put_whole {n : Nat} (v : BitVec n) : putAt n 0 v = v := by simp [putAt]
@[simp] theorem ok_bind {α β : Type} (a : α) (f : α → Except Reject β) : (Except.ok a >>= f) = f a := rfl
@[simp] theorem zero_zero {k : Nat} : zero (0#k) = .ok () := by simp [zero, need]
@[simp] theorem need_true (e : Reject) : need true e = .ok () := rfl
/-- Two neighbouring fields of a word make the field that they stand in. -/
theorem split_two {n a b : Nat} (v : BitVec n) (h : b + a = n) : (v.extractLsb' a b ++ v.extractLsb' 0 a) = v.setWidth (b + a) := by
  apply BitVec.eq_of_getLsbD_eq
  intro i hi
  simp only [BitVec.getLsbD_append, BitVec.getLsbD_extractLsb', BitVec.getLsbD_setWidth, hi, decide_true, Bool.true_and]
  by_cases h1 : i < a
  · simp [h1]
  · simp [h1, show i - a < b by omega, show a + (i - a) = i by omega]
@[simp] theorem mi_rawI (h : Hdr) (cls : BitVec 4) (fn : BitVec 7) (d a : BitVec 8) (m : BitVec 16) (imm : BitVec 48) :
    (rawI h cls fn d a m imm).mi = m := by
  simpa [rawI, Raw.mi] using split_two (a := 8) (b := 8) m rfl
@[simp] theorem imm48_rawI (h : Hdr) (cls : BitVec 4) (fn : BitVec 7) (d a : BitVec 8) (m : BitVec 16) (imm : BitVec 48) :
    (rawI h cls fn d a m imm).imm48 = imm := by
  apply BitVec.eq_of_getLsbD_eq
  intro i hi
  simp only [rawI, Raw.imm48, BitVec.getLsbD_append, BitVec.getLsbD_extractLsb']
  by_cases h1 : i < 16
  · simp [h1]
  by_cases h2 : i < 32
  · simp [h1, show i - 16 < 16 by omega, show 16 + (i - 16) = i by omega]
  · simp [h1, show ¬ i - 16 < 16 by omega, show i - 16 - 16 < 16 by omega, show 32 + (i - 16 - 16) = i by omega]
@[simp] theorem imm32_rawB (h : Hdr) (cls : BitVec 4) (fn : BitVec 7) (a b : BitVec 8) (x : BitVec 16) (imm : BitVec 32) :
    (rawB h cls fn a b x imm).imm32 = imm := by
  simpa [rawB, Raw.imm32] using split_two (a := 16) (b := 16) imm rfl
@[simp] theorem imm32_rawE (h : Hdr) (cls : BitVec 4) (fn : BitVec 7) (d a b c : BitVec 8) (m : BitVec 16) (imm : BitVec 32) :
    (rawE h cls fn d a b c m imm).imm32 = imm := by
  simpa [rawE, Raw.imm32] using split_two (a := 16) (b := 16) imm rfl

/-! The parts of a word of formats I, B and E (R39). -/
@[simp] theorem hdr_eta (h : Hdr) : (⟨h.s, h.g, h.n⟩ : Hdr) = h := rfl
section
variable (h : Hdr) (cls : BitVec 4) (fn : BitVec 7) (d a b c : BitVec 8) (m x : BitVec 16) (i : BitVec 48) (e : BitVec 32)
@[simp] theorem rawI_parts_s : (rawI h cls fn d a m i).s = h.s := rfl
@[simp] theorem rawI_parts_g : (rawI h cls fn d a m i).g = h.g := rfl
@[simp] theorem rawI_parts_n : (rawI h cls fn d a m i).n = h.n := rfl
@[simp] theorem rawI_parts_cls : (rawI h cls fn d a m i).cls = cls := rfl
@[simp] theorem rawI_parts_fn : (rawI h cls fn d a m i).fn = fn := rfl
@[simp] theorem rawI_parts_d : (rawI h cls fn d a m i).d = d := rfl
@[simp] theorem rawI_parts_a : (rawI h cls fn d a m i).a = a := rfl
@[simp] theorem rawB_parts_s : (rawB h cls fn a b x e).s = h.s := rfl
@[simp] theorem rawB_parts_g : (rawB h cls fn a b x e).g = h.g := rfl
@[simp] theorem rawB_parts_n : (rawB h cls fn a b x e).n = h.n := rfl
@[simp] theorem rawB_parts_cls : (rawB h cls fn a b x e).cls = cls := rfl
@[simp] theorem rawB_parts_fn : (rawB h cls fn a b x e).fn = fn := rfl
@[simp] theorem rawB_parts_d : (rawB h cls fn a b x e).d = a := rfl
@[simp] theorem rawB_parts_a : (rawB h cls fn a b x e).a = b := rfl
@[simp] theorem rawB_parts_b : (rawB h cls fn a b x e).b = 0 := rfl
@[simp] theorem rawB_parts_c : (rawB h cls fn a b x e).c = 0 := rfl
@[simp] theorem rawB_parts_m : (rawB h cls fn a b x e).m = x := rfl
@[simp] theorem rawE_parts_s : (rawE h cls fn d a b c m e).s = h.s := rfl
@[simp] theorem rawE_parts_g : (rawE h cls fn d a b c m e).g = h.g := rfl
@[simp] theorem rawE_parts_n : (rawE h cls fn d a b c m e).n = h.n := rfl
@[simp] theorem rawE_parts_cls : (rawE h cls fn d a b c m e).cls = cls := rfl
@[simp] theorem rawE_parts_fn : (rawE h cls fn d a b c m e).fn = fn := rfl
@[simp] theorem rawE_parts_d : (rawE h cls fn d a b c m e).d = d := rfl
@[simp] theorem rawE_parts_a : (rawE h cls fn d a b c m e).a = a := rfl
@[simp] theorem rawE_parts_b : (rawE h cls fn d a b c m e).b = b := rfl
@[simp] theorem rawE_parts_c : (rawE h cls fn d a b c m e).c = c := rfl
@[simp] theorem rawE_parts_m : (rawE h cls fn d a b c m e).m = m := rfl
end

/-! One lemma for each constructor. -/


theorem nop (h) : Statement (.nop h) := by
  intro r e; cases e
  simp (disch := decide) [decodeRaw, decodeThread, rawA]
theorem yieldT (h) : Statement (.yieldT h) := by
  intro r e; cases e
  simp (disch := decide) [decodeRaw, decodeThread, rawA]
theorem wait (h) : Statement (.wait h) := by
  intro r e; cases e
  simp (disch := decide) [decodeRaw, decodeThread, rawA]
theorem doze (h a) : Statement (.doze h a) := by
  intro r e; cases e
  simp (disch := decide) [decodeRaw, decodeThread, rawA]
theorem nowns (h d) : Statement (.nowns h d) := by
  intro r e; cases e
  simp (disch := decide) [decodeRaw, decodeThread, rawA]
theorem exit (h a) : Statement (.exit h a) := by
  intro r e; cases e
  simp (disch := decide) [decodeRaw, decodeThread, rawA]
theorem join (h d a) : Statement (.join h d a) := by
  intro r e; cases e
  simp (disch := decide) [decodeRaw, decodeThread, rawA]
theorem leave (h a) : Statement (.leave h a) := by
  intro r e; cases e
  simp (disch := decide) [decodeRaw, decodeThread, rawA]
theorem gbar (h a) : Statement (.gbar h a) := by
  intro r e; cases e
  simp (disch := decide) [decodeRaw, decodeThread, rawA]
theorem garrive (h a) : Statement (.garrive h a) := by
  intro r e; cases e
  simp (disch := decide) [decodeRaw, decodeThread, rawA]
theorem gwait (h a) : Statement (.gwait h a) := by
  intro r e; cases e
  simp (disch := decide) [decodeRaw, decodeThread, rawA]
theorem phase (h a) : Statement (.phase h a) := by
  intro r e; cases e
  simp (disch := decide) [decodeRaw, decodeThread, rawA]
theorem ginfoSize (h d a) : Statement (.ginfoSize h d a) := by
  intro r e; cases e
  simp (disch := decide) [decodeRaw, decodeThread, rawA]
theorem ginfoRank (h d a) : Statement (.ginfoRank h d a) := by
  intro r e; cases e
  simp (disch := decide) [decodeRaw, decodeThread, rawA]
theorem mfs (h d r) : Statement (.mfs h d r) := by
  intro r e; cases e
  simp (disch := decide) [decodeRaw, decodeThread]
theorem mts (h r a) : Statement (.mts h r a) := by
  intro r e; cases e
  simp (disch := decide) [decodeRaw, decodeThread]
theorem add (h wd d a b) : Statement (.add h wd d a b) := by
  intro r e; cases e
  simp (disch := decide) [decodeRaw, decodeInteger, rawA]
theorem addImm (h wd d a imm) : Statement (.addImm h wd d a imm) := by
  intro r e; cases e
  simp (disch := decide) [decodeRaw, decodeInteger]
theorem sub (h wd d a b) : Statement (.sub h wd d a b) := by
  intro r e; cases e
  simp (disch := decide) [decodeRaw, decodeInteger, rawA]
theorem subImm (h wd d a imm) : Statement (.subImm h wd d a imm) := by
  intro r e; cases e
  simp (disch := decide) [decodeRaw, decodeInteger]
theorem mul (h wd d a b) : Statement (.mul h wd d a b) := by
  intro r e; cases e
  simp (disch := decide) [decodeRaw, decodeInteger, rawA]
theorem mulImm (h wd d a imm) : Statement (.mulImm h wd d a imm) := by
  intro r e; cases e
  simp (disch := decide) [decodeRaw, decodeInteger]
theorem mulh (h wd d a b) : Statement (.mulh h wd d a b) := by
  intro r e; cases e
  simp (disch := decide) [decodeRaw, decodeInteger, rawA]
theorem mulhImm (h wd d a imm) : Statement (.mulhImm h wd d a imm) := by
  intro r e; cases e
  simp (disch := decide) [decodeRaw, decodeInteger]
theorem mulhu (h wd d a b) : Statement (.mulhu h wd d a b) := by
  intro r e; cases e
  simp (disch := decide) [decodeRaw, decodeInteger, rawA]
theorem mulhuImm (h wd d a imm) : Statement (.mulhuImm h wd d a imm) := by
  intro r e; cases e
  simp (disch := decide) [decodeRaw, decodeInteger]
theorem div (h wd d a b) : Statement (.div h wd d a b) := by
  intro r e; cases e
  simp (disch := decide) [decodeRaw, decodeInteger, rawA]
theorem divImm (h wd d a imm) : Statement (.divImm h wd d a imm) := by
  intro r e; cases e
  simp (disch := decide) [decodeRaw, decodeInteger]
theorem divu (h wd d a b) : Statement (.divu h wd d a b) := by
  intro r e; cases e
  simp (disch := decide) [decodeRaw, decodeInteger, rawA]
theorem divuImm (h wd d a imm) : Statement (.divuImm h wd d a imm) := by
  intro r e; cases e
  simp (disch := decide) [decodeRaw, decodeInteger]
theorem rem (h wd d a b) : Statement (.rem h wd d a b) := by
  intro r e; cases e
  simp (disch := decide) [decodeRaw, decodeInteger, rawA]
theorem remImm (h wd d a imm) : Statement (.remImm h wd d a imm) := by
  intro r e; cases e
  simp (disch := decide) [decodeRaw, decodeInteger]
theorem remu (h wd d a b) : Statement (.remu h wd d a b) := by
  intro r e; cases e
  simp (disch := decide) [decodeRaw, decodeInteger, rawA]
theorem remuImm (h wd d a imm) : Statement (.remuImm h wd d a imm) := by
  intro r e; cases e
  simp (disch := decide) [decodeRaw, decodeInteger]
theorem andd (h wd d a b) : Statement (.andd h wd d a b) := by
  intro r e; cases e
  simp (disch := decide) [decodeRaw, decodeInteger, rawA]
theorem andImm (h wd d a imm) : Statement (.andImm h wd d a imm) := by
  intro r e; cases e
  simp (disch := decide) [decodeRaw, decodeInteger]
theorem orr (h wd d a b) : Statement (.orr h wd d a b) := by
  intro r e; cases e
  simp (disch := decide) [decodeRaw, decodeInteger, rawA]
theorem orImm (h wd d a imm) : Statement (.orImm h wd d a imm) := by
  intro r e; cases e
  simp (disch := decide) [decodeRaw, decodeInteger]
theorem xor (h wd d a b) : Statement (.xor h wd d a b) := by
  intro r e; cases e
  simp (disch := decide) [decodeRaw, decodeInteger, rawA]
theorem xorImm (h wd d a imm) : Statement (.xorImm h wd d a imm) := by
  intro r e; cases e
  simp (disch := decide) [decodeRaw, decodeInteger]
theorem andn (h wd d a b) : Statement (.andn h wd d a b) := by
  intro r e; cases e
  simp (disch := decide) [decodeRaw, decodeInteger, rawA]
theorem andnImm (h wd d a imm) : Statement (.andnImm h wd d a imm) := by
  intro r e; cases e
  simp (disch := decide) [decodeRaw, decodeInteger]
theorem shl (h wd d a b) : Statement (.shl h wd d a b) := by
  intro r e; cases e
  simp (disch := decide) [decodeRaw, decodeInteger, rawA]
theorem shlImm (h wd d a imm) : Statement (.shlImm h wd d a imm) := by
  intro r e; cases e
  simp (disch := decide) [decodeRaw, decodeInteger]
theorem shr (h wd d a b) : Statement (.shr h wd d a b) := by
  intro r e; cases e
  simp (disch := decide) [decodeRaw, decodeInteger, rawA]
theorem shrImm (h wd d a imm) : Statement (.shrImm h wd d a imm) := by
  intro r e; cases e
  simp (disch := decide) [decodeRaw, decodeInteger]
theorem sra (h wd d a b) : Statement (.sra h wd d a b) := by
  intro r e; cases e
  simp (disch := decide) [decodeRaw, decodeInteger, rawA]
theorem sraImm (h wd d a imm) : Statement (.sraImm h wd d a imm) := by
  intro r e; cases e
  simp (disch := decide) [decodeRaw, decodeInteger]
theorem rol (h wd d a b) : Statement (.rol h wd d a b) := by
  intro r e; cases e
  simp (disch := decide) [decodeRaw, decodeInteger, rawA]
theorem rolImm (h wd d a imm) : Statement (.rolImm h wd d a imm) := by
  intro r e; cases e
  simp (disch := decide) [decodeRaw, decodeInteger]
theorem min (h wd d a b) : Statement (.min h wd d a b) := by
  intro r e; cases e
  simp (disch := decide) [decodeRaw, decodeInteger, rawA]
theorem minImm (h wd d a imm) : Statement (.minImm h wd d a imm) := by
  intro r e; cases e
  simp (disch := decide) [decodeRaw, decodeInteger]
theorem max (h wd d a b) : Statement (.max h wd d a b) := by
  intro r e; cases e
  simp (disch := decide) [decodeRaw, decodeInteger, rawA]
theorem maxImm (h wd d a imm) : Statement (.maxImm h wd d a imm) := by
  intro r e; cases e
  simp (disch := decide) [decodeRaw, decodeInteger]
theorem minu (h wd d a b) : Statement (.minu h wd d a b) := by
  intro r e; cases e
  simp (disch := decide) [decodeRaw, decodeInteger, rawA]
theorem minuImm (h wd d a imm) : Statement (.minuImm h wd d a imm) := by
  intro r e; cases e
  simp (disch := decide) [decodeRaw, decodeInteger]
theorem maxu (h wd d a b) : Statement (.maxu h wd d a b) := by
  intro r e; cases e
  simp (disch := decide) [decodeRaw, decodeInteger, rawA]
theorem maxuImm (h wd d a imm) : Statement (.maxuImm h wd d a imm) := by
  intro r e; cases e
  simp (disch := decide) [decodeRaw, decodeInteger]
theorem setp (h wd c d a b) : Statement (.setp h wd c d a b) := by
  intro r e; cases e
  simp (disch := decide) [decodeRaw, decodeInteger, rawA, BitVec.extractLsb'_or, BitVec.and_or_distrib_right]
theorem setpImm (h wd c d a imm) : Statement (.setpImm h wd c d a imm) := by
  intro r e; cases e
  simp (disch := decide) [decodeRaw, decodeInteger, BitVec.extractLsb'_or, BitVec.and_or_distrib_right]
theorem sel (h wd d a b c) : Statement (.sel h wd d a b c) := by
  intro r e; cases e
  simp (disch := decide) [decodeRaw, decodeInteger, rawA]
theorem clz (h wd d a) : Statement (.clz h wd d a) := by
  intro r e; cases e
  simp (disch := decide) [decodeRaw, decodeInteger, rawA]
theorem ctz (h wd d a) : Statement (.ctz h wd d a) := by
  intro r e; cases e
  simp (disch := decide) [decodeRaw, decodeInteger, rawA]
theorem popc (h wd d a) : Statement (.popc h wd d a) := by
  intro r e; cases e
  simp (disch := decide) [decodeRaw, decodeInteger, rawA]
theorem brev (h wd d a) : Statement (.brev h wd d a) := by
  intro r e; cases e
  simp (disch := decide) [decodeRaw, decodeInteger, rawA]
theorem bfx (h wd sx d a b c) : Statement (.bfx h wd sx d a b c) := by
  intro r e; cases e
  simp (disch := decide) [decodeRaw, decodeInteger, rawA, BitVec.extractLsb'_or, BitVec.and_or_distrib_right]
theorem bfxImm (h wd sx d a pos len) : Statement (.bfxImm h wd sx d a pos len) := by
  intro r e; cases e
  simp (disch := decide) [decodeRaw, decodeInteger, BitVec.extractLsb'_or, BitVec.and_or_distrib_right]
theorem bfi (h wd d a b c) : Statement (.bfi h wd d a b c) := by
  intro r e; cases e
  simp (disch := decide) [decodeRaw, decodeInteger, rawA]
theorem bfiImm (h wd d a pos len) : Statement (.bfiImm h wd d a pos len) := by
  intro r e; cases e
  simp (disch := decide) [decodeRaw, decodeInteger, BitVec.extractLsb'_or, BitVec.and_or_distrib_right]
theorem mov (h f) : Statement (.mov h f) := by
  intro r e
  cases f <;> cases e <;>
    simp (disch := decide) [decodeRaw, decodeInteger, rawA]
theorem plog (h tt d a b) : Statement (.plog h tt d a b) := by
  intro r e; cases e
  simp (disch := decide) [decodeRaw, decodeInteger, rawA]
theorem li (h wd d imm) : Statement (.li h wd d imm) := by
  intro r e; cases e
  cases wd <;> simp (disch := decide) [decodeRaw, decodeInteger] <;> rfl
theorem liHi (h d imm) : Statement (.liHi h d imm) := by
  intro r e; cases e
  simp (disch := decide) [decodeRaw, decodeInteger]
theorem lea (h d a imm) : Statement (.lea h d a imm) := by
  intro r e; cases e
  simp (disch := decide) [decodeRaw, decodeAddress]
theorem mkptr (h d a b) : Statement (.mkptr h d a b) := by
  intro r e; cases e
  simp (disch := decide) [decodeRaw, decodeAddress, rawA]
theorem getband (h d a) : Statement (.getband h d a) := by
  intro r e; cases e
  simp (disch := decide) [decodeRaw, decodeAddress, rawA]
theorem caddr (h d a b c) : Statement (.caddr h d a b c) := by
  intro r e; cases e
  simp (disch := decide) [decodeRaw, decodeAddress, rawA]
theorem chkptr (h d a) : Statement (.chkptr h d a) := by
  intro r e; cases e
  simp (disch := decide) [decodeRaw, decodeAddress, rawA]
theorem br (h x disp) : Statement (.br h x disp) := by
  intro r e; cases e
  simp (disch := decide) [decodeRaw, decodeControl, Raw.mi]
theorem bri (h a) : Statement (.bri h a) := by
  intro r e; cases e
  simp (disch := decide) [decodeRaw, decodeControl, Raw.mi]
theorem call (h disp) : Statement (.call h disp) := by
  intro r e; cases e
  simp (disch := decide) [decodeRaw, decodeControl, Raw.mi]
theorem calli (h a) : Statement (.calli h a) := by
  intro r e; cases e
  simp (disch := decide) [decodeRaw, decodeControl, Raw.mi]
theorem ret (h a) : Statement (.ret h a) := by
  intro r e; cases e
  simp (disch := decide) [decodeRaw, decodeControl, Raw.mi]
theorem loop (h a b x disp) : Statement (.loop h a b x disp) := by
  intro r e; cases e
  simp (disch := decide) [decodeRaw, decodeControl, Raw.mi]
theorem xrd (h hdr d a) : Statement (.xrd h hdr d a) := by
  intro r e; cases e
  simp (disch := decide) [decodeRaw, decodeExperience, rawA]
theorem xsel (h d b x) : Statement (.xsel h d b x) := by
  intro r e; cases e
  simp (disch := decide) [decodeRaw, decodeExperience, rawA]
theorem xunr (h d b x) : Statement (.xunr h d b x) := by
  intro r e; cases e
  simp (disch := decide) [decodeRaw, decodeExperience, rawA]
theorem xpfd (h d a b x) : Statement (.xpfd h d a b x) := by
  intro r e; cases e
  simp (disch := decide) [decodeRaw, decodeExperience, rawA]
theorem xnote (h a x) : Statement (.xnote h a x) := by
  intro r e; cases e
  simp (disch := decide) [decodeRaw, decodeExperience, rawA]
theorem xflush (h) : Statement (.xflush h) := by
  intro r e; cases e
  simp (disch := decide) [decodeRaw, decodeExperience, rawA]
theorem vadd (h f rm d a b) : Statement (.vadd h f rm d a b) := by
  intro r e; cases e
  simp (disch := decide) [decodeRaw, decodeFloat, rawA, BitVec.extractLsb'_or, BitVec.and_or_distrib_right]
theorem vsub (h f rm d a b) : Statement (.vsub h f rm d a b) := by
  intro r e; cases e
  simp (disch := decide) [decodeRaw, decodeFloat, rawA, BitVec.extractLsb'_or, BitVec.and_or_distrib_right]
theorem vmul (h f rm d a b) : Statement (.vmul h f rm d a b) := by
  intro r e; cases e
  simp (disch := decide) [decodeRaw, decodeFloat, rawA, BitVec.extractLsb'_or, BitVec.and_or_distrib_right]
theorem vfma (h f rm d a b c) : Statement (.vfma h f rm d a b c) := by
  intro r e; cases e
  simp (disch := decide) [decodeRaw, decodeFloat, rawA, BitVec.extractLsb'_or, BitVec.and_or_distrib_right]
theorem vfms (h f rm d a b c) : Statement (.vfms h f rm d a b c) := by
  intro r e; cases e
  simp (disch := decide) [decodeRaw, decodeFloat, rawA, BitVec.extractLsb'_or, BitVec.and_or_distrib_right]
theorem vfnma (h f rm d a b c) : Statement (.vfnma h f rm d a b c) := by
  intro r e; cases e
  simp (disch := decide) [decodeRaw, decodeFloat, rawA, BitVec.extractLsb'_or, BitVec.and_or_distrib_right]
theorem vmin (h f d a b) : Statement (.vmin h f d a b) := by
  intro r e; cases e
  simp (disch := decide) [decodeRaw, decodeFloat, rawA]
theorem vmax (h f d a b) : Statement (.vmax h f d a b) := by
  intro r e; cases e
  simp (disch := decide) [decodeRaw, decodeFloat, rawA]
theorem vabs (h f d a) : Statement (.vabs h f d a) := by
  intro r e; cases e
  simp (disch := decide) [decodeRaw, decodeFloat, rawA]
theorem vneg (h f d a) : Statement (.vneg h f d a) := by
  intro r e; cases e
  simp (disch := decide) [decodeRaw, decodeFloat, rawA]
theorem vrcp (h f rm d a) : Statement (.vrcp h f rm d a) := by
  intro r e; cases e
  simp (disch := decide) [decodeRaw, decodeFloat, rawA, BitVec.extractLsb'_or, BitVec.and_or_distrib_right]
theorem vrsq (h f rm d a) : Statement (.vrsq h f rm d a) := by
  intro r e; cases e
  simp (disch := decide) [decodeRaw, decodeFloat, rawA, BitVec.extractLsb'_or, BitVec.and_or_distrib_right]
theorem vexp2 (h f rm d a) : Statement (.vexp2 h f rm d a) := by
  intro r e; cases e
  simp (disch := decide) [decodeRaw, decodeFloat, rawA, BitVec.extractLsb'_or, BitVec.and_or_distrib_right]
theorem vlog2 (h f rm d a) : Statement (.vlog2 h f rm d a) := by
  intro r e; cases e
  simp (disch := decide) [decodeRaw, decodeFloat, rawA, BitVec.extractLsb'_or, BitVec.and_or_distrib_right]
theorem vdiv (h f rm d a b) : Statement (.vdiv h f rm d a b) := by
  intro r e; cases e
  simp (disch := decide) [decodeRaw, decodeFloat, rawA, BitVec.extractLsb'_or, BitVec.and_or_distrib_right]
theorem vsqrt (h f rm d a) : Statement (.vsqrt h f rm d a) := by
  intro r e; cases e
  simp (disch := decide) [decodeRaw, decodeFloat, rawA, BitVec.extractLsb'_or, BitVec.and_or_distrib_right]
theorem vcvt (h rm part t src d a) : Statement (.vcvt h rm part t src d a) := by
  intro r e; cases e
  simp (disch := decide) [decodeRaw, decodeFloat, rawA, BitVec.extractLsb'_or, BitVec.and_or_distrib_right]
theorem vcmp (h f c d a b) : Statement (.vcmp h f c d a b) := by
  intro r e; cases e
  simp (disch := decide) [decodeRaw, decodeFloat, rawA, BitVec.extractLsb'_or, BitVec.and_or_distrib_right]
theorem vred (h f rm d a) : Statement (.vred h f rm d a) := by
  intro r e; cases e
  simp (disch := decide) [decodeRaw, decodeFloat, rawA, BitVec.extractLsb'_or, BitVec.and_or_distrib_right]
theorem vdot (h f rm d a b) : Statement (.vdot h f rm d a b) := by
  intro r e; cases e
  simp (disch := decide) [decodeRaw, decodeFloat, rawA, BitVec.extractLsb'_or, BitVec.and_or_distrib_right]
theorem fadd (h f rm d a b) : Statement (.fadd h f rm d a b) := by
  intro r e; cases e
  simp (disch := decide) [decodeRaw, decodeFloat, rawA, BitVec.extractLsb'_or, BitVec.and_or_distrib_right]
theorem fmul (h f rm d a b) : Statement (.fmul h f rm d a b) := by
  intro r e; cases e
  simp (disch := decide) [decodeRaw, decodeFloat, rawA, BitVec.extractLsb'_or, BitVec.and_or_distrib_right]
theorem ffma (h f rm d a b c) : Statement (.ffma h f rm d a b c) := by
  intro r e; cases e
  simp (disch := decide) [decodeRaw, decodeFloat, rawA, BitVec.extractLsb'_or, BitVec.and_or_distrib_right]
theorem fcmp (h f c d a b) : Statement (.fcmp h f c d a b) := by
  intro r e; cases e
  simp (disch := decide) [decodeRaw, decodeFloat, rawA, BitVec.extractLsb'_or, BitVec.and_or_distrib_right]
theorem fcvt (h rm t src d a) : Statement (.fcvt h rm t src d a) := by
  intro r e; cases e
  simp (disch := decide) [decodeRaw, decodeFloat, rawA, BitVec.extractLsb'_or, BitVec.and_or_distrib_right]
theorem rep (h n1 st a) : Statement (.rep h n1 st a) := by
  intro r e; cases e
  simp (disch := decide) [decodeRaw, decodeFloat, rawA, BitVec.extractLsb'_or, BitVec.and_or_distrib_right]
theorem repwait (h) : Statement (.repwait h) := by
  intro r e; cases e
  simp (disch := decide) [decodeRaw, decodeFloat, rawA]
theorem viadd (h vw d a b) : Statement (.viadd h vw d a b) := by
  intro r e; cases e
  simp (disch := decide) [decodeRaw, decodeVInt, rawA]
theorem visub (h vw d a b) : Statement (.visub h vw d a b) := by
  intro r e; cases e
  simp (disch := decide) [decodeRaw, decodeVInt, rawA]
theorem vimul (h vw d a b) : Statement (.vimul h vw d a b) := by
  intro r e; cases e
  simp (disch := decide) [decodeRaw, decodeVInt, rawA]
theorem vand (h vw d a b) : Statement (.vand h vw d a b) := by
  intro r e; cases e
  simp (disch := decide) [decodeRaw, decodeVInt, rawA]
theorem vor (h vw d a b) : Statement (.vor h vw d a b) := by
  intro r e; cases e
  simp (disch := decide) [decodeRaw, decodeVInt, rawA]
theorem vxor (h vw d a b) : Statement (.vxor h vw d a b) := by
  intro r e; cases e
  simp (disch := decide) [decodeRaw, decodeVInt, rawA]
theorem vshl (h vw d a b) : Statement (.vshl h vw d a b) := by
  intro r e; cases e
  simp (disch := decide) [decodeRaw, decodeVInt, rawA]
theorem vshr (h vw d a b) : Statement (.vshr h vw d a b) := by
  intro r e; cases e
  simp (disch := decide) [decodeRaw, decodeVInt, rawA]
theorem vsra (h vw d a b) : Statement (.vsra h vw d a b) := by
  intro r e; cases e
  simp (disch := decide) [decodeRaw, decodeVInt, rawA]
theorem vimin (h u vw d a b) : Statement (.vimin h u vw d a b) := by
  intro r e; cases e
  simp (disch := decide) [decodeRaw, decodeVInt, rawA, BitVec.extractLsb'_or, BitVec.and_or_distrib_right]
theorem vimax (h u vw d a b) : Statement (.vimax h u vw d a b) := by
  intro r e; cases e
  simp (disch := decide) [decodeRaw, decodeVInt, rawA, BitVec.extractLsb'_or, BitVec.and_or_distrib_right]
theorem vsel (h vw d a b c) : Statement (.vsel h vw d a b c) := by
  intro r e; cases e
  simp (disch := decide) [decodeRaw, decodeVInt, rawA]
theorem vshuf (h vw d a b) : Statement (.vshuf h vw d a b) := by
  intro r e; cases e
  simp (disch := decide) [decodeRaw, decodeVInt, rawA]
theorem vbcast (h vw d a) : Statement (.vbcast h vw d a) := by
  intro r e; cases e
  simp (disch := decide) [decodeRaw, decodeVInt, rawA]
theorem vins (h vw d a b) : Statement (.vins h vw d a b) := by
  intro r e; cases e
  simp (disch := decide) [decodeRaw, decodeVInt, rawA]
theorem vext (h u vw d a b) : Statement (.vext h u vw d a b) := by
  intro r e; cases e
  simp (disch := decide) [decodeRaw, decodeVInt, rawA, BitVec.extractLsb'_or, BitVec.and_or_distrib_right]
theorem vcmprs (h vw d a c) : Statement (.vcmprs h vw d a c) := by
  intro r e; cases e
  simp (disch := decide) [decodeRaw, decodeVInt, rawA]
theorem vexpnd (h vw d a c) : Statement (.vexpnd h vw d a c) := by
  intro r e; cases e
  simp (disch := decide) [decodeRaw, decodeVInt, rawA]
theorem viota (h vw d c) : Statement (.viota h vw d c) := by
  intro r e; cases e
  simp (disch := decide) [decodeRaw, decodeVInt, rawA]
theorem vicmp (h vw c d a b) : Statement (.vicmp h vw c d a b) := by
  intro r e; cases e
  simp (disch := decide) [decodeRaw, decodeVInt, rawA, BitVec.extractLsb'_or, BitVec.and_or_distrib_right]
theorem vqnt (h rn f bx d a b c) : Statement (.vqnt h rn f bx d a b c) := by
  intro r e; cases e
  simp (disch := decide) [decodeRaw, decodeBlock, rawA, BitVec.extractLsb'_or, BitVec.and_or_distrib_right]
theorem vdqnt (h rm part f bx d a c) : Statement (.vdqnt h rm part f bx d a c) := by
  intro r e; cases e
  simp (disch := decide) [decodeRaw, decodeBlock, rawA, BitVec.extractLsb'_or, BitVec.and_or_distrib_right]
theorem vsrnd (h part f d a b c) : Statement (.vsrnd h part f d a b c) := by
  intro r e; cases e
  simp (disch := decide) [decodeRaw, decodeBlock, rawA, BitVec.extractLsb'_or, BitVec.and_or_distrib_right]
theorem vbxdot (h rm bx d a b c) : Statement (.vbxdot h rm bx d a b c) := by
  intro r e; cases e
  simp (disch := decide) [decodeRaw, decodeBlock, rawA, BitVec.extractLsb'_or, BitVec.and_or_distrib_right]
theorem ld (h sz nc x d m) : Statement (.ld h sz nc x d m) := by
  intro r e; cases e
  simp (disch := decide) [decodeRaw, decodeMemory, rawA, BitVec.extractLsb'_or]
theorem st (h sz bset d m) : Statement (.st h sz bset d m) := by
  intro r e; cases e
  simp (disch := decide) [decodeRaw, decodeMemory, rawA, BitVec.extractLsb'_or]
theorem vld (h nc x d m) : Statement (.vld h nc x d m) := by
  intro r e; cases e
  simp (disch := decide) [decodeRaw, decodeMemory, rawA, BitVec.extractLsb'_or]
theorem vst (h bset d m) : Statement (.vst h bset d m) := by
  intro r e; cases e
  simp (disch := decide) [decodeRaw, decodeMemory, rawA, BitVec.extractLsb'_or]
theorem lds (h d m) : Statement (.lds h d m) := by
  intro r e; cases e
  simp (disch := decide) [decodeRaw, decodeMemory, rawA, BitVec.extractLsb'_or]
theorem sts (h d m) : Statement (.sts h d m) := by
  intro r e; cases e
  simp (disch := decide) [decodeRaw, decodeMemory, rawA, BitVec.extractLsb'_or]
theorem ldf (h d m) : Statement (.ldf h d m) := by
  intro r e; cases e
  simp (disch := decide) [decodeRaw, decodeMemory, rawA, BitVec.extractLsb'_or]
theorem feset (h m) : Statement (.feset h m) := by
  intro r e; cases e
  simp (disch := decide) [decodeRaw, decodeMemory, rawA, BitVec.extractLsb'_or]
theorem feclr (h m) : Statement (.feclr h m) := by
  intro r e; cases e
  simp (disch := decide) [decodeRaw, decodeMemory, rawA, BitVec.extractLsb'_or]
theorem ldacq (h sz d m) : Statement (.ldacq h sz d m) := by
  intro r e; cases e
  simp (disch := decide) [decodeRaw, decodeMemory, rawA, BitVec.extractLsb'_or]
theorem strel (h sz d m) : Statement (.strel h sz d m) := by
  intro r e; cases e
  simp (disch := decide) [decodeRaw, decodeMemory, rawA, BitVec.extractLsb'_or]
theorem atom (h wd op am d a b disp) : Statement (.atom h wd op am d a b disp) := by
  intro r e; cases e
  simp (disch := decide) [decodeRaw, decodeMemory, rawA, BitVec.extractLsb'_or, BitVec.and_or_distrib_right]
theorem pref (h d m) : Statement (.pref h d m) := by
  intro r e; cases e
  simp (disch := decide) [decodeRaw, decodeMemory, rawA, BitVec.extractLsb'_or]
theorem vldx (h cm d a b sc disp) : Statement (.vldx h cm d a b sc disp) := by
  intro r e; cases e
  simp (disch := decide) [decodeRaw, decodeMemory, rawA, BitVec.extractLsb'_or]
theorem vstx (h cm d a b sc disp) : Statement (.vstx h cm d a b sc disp) := by
  intro r e; cases e
  simp (disch := decide) [decodeRaw, decodeMemory, rawA, BitVec.extractLsb'_or]
theorem cld (h tid d a b disp) : Statement (.cld h tid d a b disp) := by
  intro r e; cases e
  simp (disch := decide) [decodeRaw, decodeVolume, rawA]
theorem cst (h tid d a b disp) : Statement (.cst h tid d a b disp) := by
  intro r e; cases e
  simp (disch := decide) [decodeRaw, decodeVolume, rawA]
theorem cvld (h tid d a b disp) : Statement (.cvld h tid d a b disp) := by
  intro r e; cases e
  simp (disch := decide) [decodeRaw, decodeVolume, rawA]
theorem cvst (h tid d a b disp) : Statement (.cvst h tid d a b disp) := by
  intro r e; cases e
  simp (disch := decide) [decodeRaw, decodeVolume, rawA]
theorem cprobe (h tid d a) : Statement (.cprobe h tid d a) := by
  intro r e; cases e
  simp (disch := decide) [decodeRaw, decodeVolume, rawA]
theorem cclr (h tid a) : Statement (.cclr h tid a) := by
  intro r e; cases e
  simp (disch := decide) [decodeRaw, decodeVolume, rawA]
theorem ctileFind (h tid d a) : Statement (.ctileFind h tid d a) := by
  intro r e; cases e
  simp (disch := decide) [decodeRaw, decodeVolume]
theorem ctileDetach (h tid d a) : Statement (.ctileDetach h tid d a) := by
  intro r e; cases e
  simp (disch := decide) [decodeRaw, decodeVolume]
theorem ctilePtile (h tid a) : Statement (.ctilePtile h tid a) := by
  intro r e; cases e
  simp (disch := decide) [decodeRaw, decodeVolume]
theorem ctilePnode (h tid a) : Statement (.ctilePnode h tid a) := by
  intro r e; cases e
  simp (disch := decide) [decodeRaw, decodeVolume]
theorem clbinv (h tid) : Statement (.clbinv h tid) := by
  intro r e; cases e
  simp (disch := decide) [decodeRaw, decodeVolume, rawA]
theorem cpy (h dk sk d a b c) : Statement (.cpy h dk sk d a b c) := by
  intro r e; cases e
  simp (disch := decide) [decodeRaw, decodeCopy, BitVec.extractLsb'_or, BitVec.and_or_distrib_right]
theorem cpyw (h a b) : Statement (.cpyw h a b) := by
  intro r e; cases e
  simp (disch := decide) [decodeRaw, decodeCopy]
theorem cpyt (h d a b) : Statement (.cpyt h d a b) := by
  intro r e; cases e
  simp (disch := decide) [decodeRaw, decodeCopy]
theorem deal (h die d a b c total) : Statement (.deal h die d a b c total) := by
  intro r e; cases e
  simp (disch := decide) [decodeRaw, decodeCopy]
theorem sarm (h wr n2 n1 n0 tid d b c) : Statement (.sarm h wr n2 n1 n0 tid d b c) := by
  intro r e; cases e
  simp (disch := decide) [decodeRaw, decodeCopy, BitVec.extractLsb'_or, BitVec.and_or_distrib_right]
theorem sdrop (h a) : Statement (.sdrop h a) := by
  intro r e; cases e
  simp (disch := decide) [decodeRaw, decodeCopy]
theorem cbset (h d a b) : Statement (.cbset h d a b) := by
  intro r e; cases e
  simp (disch := decide) [decodeRaw, decodeCopy]
theorem cbrsv (h d a) : Statement (.cbrsv h d a) := by
  intro r e; cases e
  simp (disch := decide) [decodeRaw, decodeCopy]
theorem cbcmt (h a) : Statement (.cbcmt h a) := by
  intro r e; cases e
  simp (disch := decide) [decodeRaw, decodeCopy]
theorem cbacq (h d a) : Statement (.cbacq h d a) := by
  intro r e; cases e
  simp (disch := decide) [decodeRaw, decodeCopy]
theorem cbrel (h a) : Statement (.cbrel h a) := by
  intro r e; cases e
  simp (disch := decide) [decodeRaw, decodeCopy]
theorem get (h i64 pm lm tid d a b c) : Statement (.get h i64 pm lm tid d a b c) := by
  intro r e; cases e
  simp (disch := decide) [decodeRaw, decodeCopy, BitVec.extractLsb'_or, BitVec.and_or_distrib_right]
theorem put (h i64 pm lm cmb tid d a b c) : Statement (.put h i64 pm lm cmb tid d a b c) := by
  intro r e; cases e
  simp (disch := decide) [decodeRaw, decodeCopy, BitVec.extractLsb'_or, BitVec.and_or_distrib_right]
theorem gpwait (h sub d a b) : Statement (.gpwait h sub d a b) := by
  intro r e; cases e
  simp (disch := decide) [decodeRaw, decodeCopy]
theorem card (h lvl a) : Statement (.card h lvl a) := by
  intro r e; cases e
  simp (disch := decide) [decodeRaw, decodeTile]
theorem cwait (h d a) : Statement (.cwait h d a) := by
  intro r e; cases e
  simp (disch := decide) [decodeRaw, decodeTile]
theorem oclaim (h d a) : Statement (.oclaim h d a) := by
  intro r e; cases e
  simp (disch := decide) [decodeRaw, decodeTile]
theorem orel (h a) : Statement (.orel h a) := by
  intro r e; cases e
  simp (disch := decide) [decodeRaw, decodeTile]
theorem ofill (h d a b) : Statement (.ofill h d a b) := by
  intro r e; cases e
  simp (disch := decide) [decodeRaw, decodeTile]
theorem aclr (h d) : Statement (.aclr h d) := by
  intro r e; cases e
  simp (disch := decide) [decodeRaw, decodeTile]
theorem ast (h am f act vr1 vc1 a b c) : Statement (.ast h am f act vr1 vc1 a b c) := by
  intro r e; cases e
  simp (disch := decide) [decodeRaw, decodeTile, BitVec.extractLsb'_or, BitVec.and_or_distrib_right]
theorem ald (h am f d a) : Statement (.ald h am f d a) := by
  intro r e; cases e
  simp (disch := decide) [decodeRaw, decodeTile, BitVec.extractLsb'_or, BitVec.and_or_distrib_right]
theorem tdset (h tid a) : Statement (.tdset h tid a) := by
  intro r e; cases e
  simp (disch := decide) [decodeRaw, decodeTile]
theorem tdget (h tid d) : Statement (.tdget h tid d) := by
  intro r e; cases e
  simp (disch := decide) [decodeRaw, decodeTile]
theorem pget (h f a b disp) : Statement (.pget h f a b disp) := by
  intro r e
  cases f <;> cases e <;> simp (disch := decide) [decodeRaw, decodeFabric, rawA, BitVec.extractLsb'_or]
theorem pput (h f a b disp) : Statement (.pput h f a b disp) := by
  intro r e
  cases f <;> cases e <;> simp (disch := decide) [decodeRaw, decodeFabric, rawA, BitVec.extractLsb'_or]
theorem patom (h wd op d a b disp) : Statement (.patom h wd op d a b disp) := by
  intro r e; cases e
  simp (disch := decide) [decodeRaw, decodeFabric, rawA, BitVec.extractLsb'_or, BitVec.and_or_distrib_right]
theorem fbar (h a b) : Statement (.fbar h a b) := by
  intro r e; cases e
  simp (disch := decide) [decodeRaw, decodeFabric]
theorem trap (h code) : Statement (.trap h code) := by
  intro r e; cases e
  simp (disch := decide) [decodeRaw, decodeSystem]
theorem eret (h) : Statement (.eret h) := by
  intro r e; cases e
  simp (disch := decide) [decodeRaw, decodeSystem, rawA]
theorem eretNext (h) : Statement (.eretNext h) := by
  intro r e; cases e
  simp (disch := decide) [decodeRaw, decodeSystem, rawA]
theorem csrr (h d r) : Statement (.csrr h d r) := by
  intro r e; cases e
  simp (disch := decide) [decodeRaw, decodeSystem]
theorem csrw (h r a) : Statement (.csrw h r a) := by
  intro r e; cases e
  simp (disch := decide) [decodeRaw, decodeSystem]
theorem tlbinvPage (h a b) : Statement (.tlbinvPage h a b) := by
  intro r e; cases e
  simp (disch := decide) [decodeRaw, decodeSystem, rawA]
theorem tlbinvTenant (h a b) : Statement (.tlbinvTenant h a b) := by
  intro r e; cases e
  simp (disch := decide) [decodeRaw, decodeSystem, rawA]
theorem tlbinvAll (h a b) : Statement (.tlbinvAll h a b) := by
  intro r e; cases e
  simp (disch := decide) [decodeRaw, decodeSystem, rawA]
theorem jnlrd (h word d a) : Statement (.jnlrd h word d a) := by
  intro r e; cases e
  simp (disch := decide) [decodeRaw, decodeSystem, rawA]
theorem jnlclr (h a) : Statement (.jnlclr h a) := by
  intro r e; cases e
  simp (disch := decide) [decodeRaw, decodeSystem, rawA]
theorem jnlclrResend (h a) : Statement (.jnlclrResend h a) := by
  intro r e; cases e
  simp (disch := decide) [decodeRaw, decodeSystem, rawA]
theorem ctxsv (h a b) : Statement (.ctxsv h a b) := by
  intro r e; cases e
  simp (disch := decide) [decodeRaw, decodeSystem, rawA]
theorem ctxld (h a b) : Statement (.ctxld h a b) := by
  intro r e; cases e
  simp (disch := decide) [decodeRaw, decodeSystem, rawA]
theorem fencei (h) : Statement (.fencei h) := by
  intro r e; cases e
  simp (disch := decide) [decodeRaw, decodeSystem, rawA]
theorem launch (h d a) : Statement (.launch h d a) := by
  intro r e; cases e
  simp (disch := decide) [decodeRaw, decodeSched]
theorem glaunch (h d a b) : Statement (.glaunch h d a b) := by
  intro r e; cases e
  simp (disch := decide) [decodeRaw, decodeSched]
theorem gnodeGraph (h d a) : Statement (.gnodeGraph h d a) := by
  intro r e; cases e
  simp (disch := decide) [decodeRaw, decodeSched]
theorem gnodeNode (h d a b) : Statement (.gnodeNode h d a b) := by
  intro r e; cases e
  simp (disch := decide) [decodeRaw, decodeSched]
theorem gnodeEdge (h d a b) : Statement (.gnodeEdge h d a b) := by
  intro r e; cases e
  simp (disch := decide) [decodeRaw, decodeSched]
theorem gnodeDrop (h d a) : Statement (.gnodeDrop h d a) := by
  intro r e; cases e
  simp (disch := decide) [decodeRaw, decodeSched]
theorem gdone (h d a b) : Statement (.gdone h d a b) := by
  intro r e; cases e
  simp (disch := decide) [decodeRaw, decodeSched]
theorem grabTake (h d a) : Statement (.grabTake h d a) := by
  intro r e; cases e
  simp (disch := decide) [decodeRaw, decodeSched]
theorem grabSet (h d a b) : Statement (.grabSet h d a b) := by
  intro r e; cases e
  simp (disch := decide) [decodeRaw, decodeSched]
theorem qstatLaunch (h d a) : Statement (.qstatLaunch h d a) := by
  intro r e; cases e
  simp (disch := decide) [decodeRaw, decodeSched]
theorem qstatQueue (h d a) : Statement (.qstatQueue h d a) := by
  intro r e; cases e
  simp (disch := decide) [decodeRaw, decodeSched]
theorem qstatRange (h d a) : Statement (.qstatRange h d a) := by
  intro r e; cases e
  simp (disch := decide) [decodeRaw, decodeSched]
theorem qstatInst (h d a) : Statement (.qstatInst h d a) := by
  intro r e; cases e
  simp (disch := decide) [decodeRaw, decodeSched]
theorem renter (h id) : Statement (.renter h id) := by
  intro r e; cases e
  simp (disch := decide) [decodeRaw, decodeDebug]
theorem rleave (h) : Statement (.rleave h) := by
  intro r e; cases e
  simp (disch := decide) [decodeRaw, decodeDebug, rawA]
theorem trace (h tag a) : Statement (.trace h tag a) := by
  intro r e; cases e
  simp (disch := decide) [decodeRaw, decodeDebug, rawA]
theorem brk (h code scope) : Statement (.brk h code scope) := by
  intro r e; cases e
  simp (disch := decide) [decodeRaw, decodeDebug, BitVec.extractLsb'_or, BitVec.and_or_distrib_right]
theorem wpset (h idx kind scope am a) : Statement (.wpset h idx kind scope am a) := by
  intro r e; cases e
  simp (disch := decide) [decodeRaw, decodeDebug, rawA, BitVec.extractLsb'_or, BitVec.and_or_distrib_right]
theorem wpclr (h idx am a) : Statement (.wpclr h idx am a) := by
  intro r e; cases e
  simp (disch := decide) [decodeRaw, decodeDebug, rawA, BitVec.extractLsb'_or, BitVec.and_or_distrib_right]
theorem cntrd (h lat n d) : Statement (.cntrd h lat n d) := by
  intro r e; cases e
  simp (disch := decide) [decodeRaw, decodeDebug]
theorem pageMappedRestore (tenant page mapped) : Statement (.pageMappedRestore tenant page mapped) := by nofun
theorem schedulerCommand (c) : Statement (.schedulerCommand c) := by nofun
theorem imageLoad (tenant image) : Statement (.imageLoad tenant image) := by nofun
theorem fabricBarrierArrive (group rank) : Statement (.fabricBarrierArrive group rank) := by nofun
theorem progressProbe (group rank held) : Statement (.progressProbe group rank held) := by nofun
theorem replicaSetChange (set add remove) : Statement (.replicaSetChange set add remove) := by nofun
theorem gangSwitch (areas) : Statement (.gangSwitch areas) := by nofun
theorem gangResume (areas) : Statement (.gangResume areas) := by nofun
theorem dcmdStop (core scope edge) : Statement (.dcmdStop core scope edge) := by nofun
theorem dcmdResume (core) : Statement (.dcmdResume core) := by nofun
theorem dcmdStepContext (core ctx eng) : Statement (.dcmdStepContext core ctx eng) := by nofun
theorem dcmdStepGroup (core handle eng) : Statement (.dcmdStepGroup core handle eng) := by nofun
theorem clockRateAdjust (adj) : Statement (.clockRateAdjust adj) := by nofun
theorem clockStepForward (ns) : Statement (.clockStepForward ns) := by nofun
theorem machineCheck (m) : Statement (.machineCheck m) := by nofun
theorem attestationRequest (tenant launch nonce) : Statement (.attestationRequest tenant launch nonce) := by nofun
theorem pcieHostAccess (bar2 wr addr data) : Statement (.pcieHostAccess bar2 wr addr data) := by nofun
theorem thermalReport (die temp) : Statement (.thermalReport die temp) := by nofun
theorem plimitSet (w) : Statement (.plimitSet w) := by nofun
theorem controlRegisterWrite (r v) : Statement (.controlRegisterWrite r v) := by nofun
theorem systemCoreAccess (hart wr sz addr data) : Statement (.systemCoreAccess hart wr sz addr data) := by nofun
theorem hartStartRequest (hart) : Statement (.hartStartRequest hart) := by nofun
theorem pairIssue (w1 w2) : Statement (.pairIssue w1 w2) := by nofun
theorem fetchLine (core ctx) : Statement (.fetchLine core ctx) := by nofun
theorem plankerReissue (core pos) : Statement (.plankerReissue core pos) := by nofun
theorem drain (core ctx) : Statement (.drain core ctx) := by nofun
theorem messageDeliver (i) : Statement (.messageDeliver i) := by nofun
theorem homeServe (q) : Statement (.homeServe q) := by nofun
theorem longResultLand (core ctx i) : Statement (.longResultLand core ctx i) := by nofun
theorem storeAcknowledge (i) : Statement (.storeAcknowledge i) := by nofun
theorem dozeWake (core ctx) : Statement (.dozeWake core ctx) := by nofun
theorem syncLimit (core ctx) : Statement (.syncLimit core ctx) := by nofun
theorem syncCancelReturn (i) : Statement (.syncCancelReturn i) := by nofun
theorem contextReuseDelay (core ctx) : Statement (.contextReuseDelay core ctx) := by nofun
theorem strayMessageDiscard (i) : Statement (.strayMessageDiscard i) := by nofun
theorem engineAccessRetry (i) : Statement (.engineAccessRetry i) := by nofun
theorem launchStart : Statement (.launchStart) := by nofun
theorem threadStart (launch) : Statement (.threadStart launch) := by nofun
theorem priorityAging (launch) : Statement (.priorityAging launch) := by nofun
theorem deficitCharge : Statement (.deficitCharge) := by nofun
theorem coreGate (core) : Statement (.coreGate core) := by nofun
theorem coreWake (core) : Statement (.coreWake core) := by nofun
theorem doneMessage (core launch) : Statement (.doneMessage core launch) := by nofun
theorem completionCombine (i) : Statement (.completionCombine i) := by nofun
theorem graphNodeComplete (inst node) : Statement (.graphNodeComplete inst node) := by nofun
theorem instanceFill (launch) : Statement (.instanceFill launch) := by nofun
theorem instanceSeal (launch) : Statement (.instanceSeal launch) := by nofun
theorem groupRequestArrive (i) : Statement (.groupRequestArrive i) := by nofun
theorem barrierArrival (i) : Statement (.barrierArrival i) := by nofun
theorem groupRelease (i) : Statement (.groupRelease i) := by nofun
theorem experienceFillLand (i) : Statement (.experienceFillLand i) := by nofun
theorem mergeReply (i) : Statement (.mergeReply i) := by nofun
theorem engineKickAccept (i) : Statement (.engineKickAccept i) := by nofun
theorem chunkComplete (core op chunk) : Statement (.chunkComplete core op chunk) := by nofun
theorem cbStageWrite (core op) : Statement (.cbStageWrite core op) := by nofun
theorem dealComplete (i) : Statement (.dealComplete i) := by nofun
theorem streamStripLoad (core ctx v) : Statement (.streamStripLoad core ctx v) := by nofun
theorem fillNotice (i) : Statement (.fillNotice i) := by nofun
theorem stageFreeNotice (i) : Statement (.stageFreeNotice i) := by nofun
theorem gatherComplete (core op) : Statement (.gatherComplete core op) := by nofun
theorem clbWalk (i) : Statement (.clbWalk i) := by nofun
theorem cardAccept (lvl unit i) : Statement (.cardAccept lvl unit i) := by nofun
theorem cardDecompose (lvl unit) : Statement (.cardDecompose lvl unit) := by nofun
theorem cardParityRefetch (lvl unit) : Statement (.cardParityRefetch lvl unit) := by nofun
theorem cardRun (core) : Statement (.cardRun core) := by nofun
theorem slotClaimGrant (core) : Statement (.slotClaimGrant core) := by nofun
theorem childReport (i) : Statement (.childReport i) := by nofun
theorem cardRetire (lvl unit) : Statement (.cardRetire lvl unit) := by nofun
theorem flitReplay (link ok) : Statement (.flitReplay link ok) := by nofun
theorem fabricBarrierRelease (group) : Statement (.fabricBarrierRelease group) := by nofun
theorem fabricTimeout (group) : Statement (.fabricTimeout group) := by nofun
theorem replicaInvalidateAck (set frame) : Statement (.replicaInvalidateAck set frame) := by nofun
theorem tlbInvalidate (i) : Statement (.tlbInvalidate i) := by nofun
theorem breakpointHit (core ctx) : Statement (.breakpointHit core ctx) := by nofun
theorem stopArrive (core) : Statement (.stopArrive core) := by nofun
theorem preciseStopTimeout (core ctx) : Statement (.preciseStopTimeout core ctx) := by nofun
theorem engineStepLimit (core) : Statement (.engineStepLimit core) := by nofun
theorem tickLatch : Statement (.tickLatch) := by nofun
theorem ptpEventMessage (port) : Statement (.ptpEventMessage port) := by nofun
theorem keepaliveResponse (port) : Statement (.keepaliveResponse port) := by nofun
theorem pairTimeout (core ctx) : Statement (.pairTimeout core ctx) := by nofun
theorem pairMismatch (core) : Statement (.pairMismatch core) := by nofun
theorem checkpointClose : Statement (.checkpointClose) := by nofun
theorem commitRecord : Statement (.commitRecord) := by nofun
theorem rollback : Statement (.rollback) := by nofun
theorem containment (cluster) : Statement (.containment cluster) := by nofun
theorem powerOn : Statement (.powerOn) := by nofun
theorem bootImageFetch (ok) : Statement (.bootImageFetch ok) := by nofun
theorem bootVerify (ok cfg) : Statement (.bootVerify ok cfg) := by nofun
theorem bootRetryWait : Statement (.bootRetryWait) := by nofun
theorem redfishPower (op) : Statement (.redfishPower op) := by nofun
theorem redfishBootState : Statement (.redfishBootState) := by nofun
theorem cxlPortDown (port) : Statement (.cxlPortDown port) := by nofun
theorem refusedWithRetryResend (i) : Statement (.refusedWithRetryResend i) := by nofun
theorem ethernetFrameReceive (port frame) : Statement (.ethernetFrameReceive port frame) := by nofun
theorem machineCheckThreadEnd (core ctx) : Statement (.machineCheckThreadEnd core ctx) := by nofun

end Sys2Proof.Laws.Encodes
end

