-- ==== Sys2Proof/Tests/Slice0.lean ====
section
/-! SUPPORT. Slice0.lean: tests of the decoder on words of the spec, of each check of WellFormed, of single results, and a state that meets
the hypotheses of each statement. Words and results are the spec's. -/

open Sys2Proof Sys2Proof.Machine Sys2Proof.Manual
namespace Sys2Proof.Tests

-- One theorem after the other: each of them is small, and their threads' stacks together are not.
set_option Elab.async false

/-- A header with no marker under guard p0. -/
def H : Hdr := ⟨false, 0, false⟩
/-- A thread in supervisor mode, with every register allotted, about to issue. -/
def S0 : State := State.reset.place 0
/-- The same with a trap handler. -/
def S1 : State := S0.onRegs fun r => { r with trapvec := 0x1000 }

/-! ### Witnesses: the register classes -/

/-- Every instruction that writes a g register at once, at operands of every kind. -/
def gList1 : List Instr :=
  [.add H .d 3 4 5, .addImm H .w 3 4 (-1), .sub H .w 3 4 5, .subImm H .d 3 4 1, .mul H .d 3 4 5, .mulImm H .w 3 4 7, .mulh H .d 3 4 5,
   .mulhImm H .w 3 4 2, .mulhu H .d 3 4 5, .mulhuImm H .d 3 4 2, .andd H .d 3 4 5, .andImm H .w 3 4 255, .orr H .w 3 4 5, .orImm H .d 3 4 1,
   .xor H .d 3 4 5, .xorImm H .d 3 4 1, .andn H .d 3 4 5, .andnImm H .w 3 4 1, .shl H .w 3 4 5, .shlImm H .d 3 4 63]
/-- The next of them. -/
def gList2 : List Instr :=
  [.shr H .d 3 4 5, .shrImm H .w 3 4 31, .sra H .d 3 4 5, .sraImm H .w 3 4 1, .rol H .d 3 4 5, .rolImm H .w 3 4 0, .min H .d 3 4 5,
   .minImm H .w 3 4 0, .max H .d 3 4 5, .maxImm H .w 3 4 0, .minu H .d 3 4 5, .minuImm H .w 3 4 0, .maxu H .d 3 4 5, .maxuImm H .w 3 4 0,
   .sel H .d 3 4 5 2, .clz H .w 3 4, .ctz H .d 3 4, .popc H .d 3 4, .brev H .w 3 4]
/-- The rest of them. -/
def gList3 : List Instr :=
  [.bfx H .d true 3 4 5 6, .bfxImm H .w false 3 4 31 64, .bfi H .d 3 4 5 6, .bfiImm H .w 3 4 0 12, .mov H (.gg .w 3 4), .mov H (.gp 3 1),
   .li H .d 3 (-1), .li H .w 3 5, .liHi H 3 0xDEAD, .lea H 3 4 (-64), .mkptr H 3 4 5, .getband H 3 4, .caddr H 3 4 5 6,
   .vext H true .i8 3 4 5, .mfs H 3 .tid, .csrr H 63 .issue, .add H .d 0 4 5]
theorem witness_ScalarResults_g : ∀ l ∈ [gList1, gList2, gList3], ∀ i ∈ l, (gValue S1.cx.regs S1 i).isSome = true ∧ Clear i S1 = true := by
  decide +kernel

/-- Every instruction that writes a p register at once. -/
def pList : List Instr :=
  [.setp H .w .lt 1 4 5, .setpImm H .d .geu 7 4 0, .mov H (.pg 1 4), .mov H (.pp 0 2), .plog H 8 3 1 2]
theorem witness_ScalarResults_p : ∀ i ∈ pList, (pValue S1.cx.regs i).isSome = true ∧ Clear i S1 = true := by decide +kernel

/-- The divider's instructions, by zero among them. -/
def divList : List Instr :=
  [.div H .d 3 4 0, .divImm H .w 3 4 0, .divu H .d 3 4 5, .divuImm H .d 3 4 3, .rem H .w 3 4 5, .remImm H .d 3 4 (-1), .remu H .d 3 4 5,
   .remuImm H .w 0 4 5]
theorem witness_ScalarResults_div : ∀ i ∈ divList, (dividerValue S1.cx.regs i).isSome = true ∧ Clear i S1 = true := by decide +kernel

/-- Every lane-guarded instruction that writes whole views. -/
def vList1 : List Instr :=
  [.vadd H .f32 .cur 4 5 6, .vsub H .f16 .rz 4 5 6, .vmul H .bf16 .ru 4 5 6, .vfma H .f32 .cur 4 5 6 4, .vfms H .f32 .cur 4 5 6 7,
   .vfnma H .f16 .rd 4 5 6 7, .vmin H .f32 4 5 6, .vmax H .bf16 4 5 6, .vabs H .f32 4 5, .vneg H .f16 4 5, .vrcp H .f32 .cur 4 5,
   .vrsq H .f32 .cur 4 5, .vexp2 H .f16 .cur 4 5, .vlog2 H .bf16 .cur 4 5, .vcvt H .cur 0 .i32 .f32 4 5, .vcvt H .cur 1 .f32 .f16 4 5,
   .vdqnt H .cur 1 .f32 .bx8 4 5 none, .vdqnt H .cur 0 .f16 .bx16 4 5 (some 3)]
/-- The rest of them. -/
def vList2 : List Instr :=
  [.viadd H .i32 4 5 6, .visub H .i16 4 5 6, .vimul H .i8 4 5 6, .vand H .i32 4 5 6, .vor H .i32 4 5 6, .vxor H .i32 4 5 6, .vshl H .i8 4 5 6,
   .vshr H .i16 4 5 6, .vsra H .i32 4 5 6, .vimin H true .i8 4 5 6, .vimax H false .i8 4 5 6, .vsel H .i32 4 5 6 2, .vshuf H .i8 4 5 6,
   .vbcast H .i16 4 5, .vins H .i32 4 5 6, .vcmprs H .i8 4 5 1, .vexpnd H .i8 4 5 1, .viota H .i32 31 none, .viota H .i8 4 (some 1)]
theorem witness_VectorElements_lanes : ∀ l ∈ [vList1, vList2], ∀ i ∈ l,
    (vLanes S1.cx.regs i).isSome = true ∧ i.wf = true ∧ Clear i S1 = true := by decide +kernel

/-- The conversions to a narrower format. -/
def nList : List Instr := [.vcvt H .cur 3 .i8 .f32 4 5, .vcvt H .rn 1 .f16 .f32 4 5, .vsrnd H 1 .bf16 4 5 6 7]
theorem witness_VectorElements_narrow : ∀ i ∈ nList, (vNarrow S1.cx.regs i).isSome = true ∧ i.wf = true ∧ Clear i S1 = true := by decide +kernel

theorem witness_VectorReductions_compare : ∀ i ∈ [Instr.vcmp H .f32 .lt 4 5 6, .vicmp H .i8 .tstz 0 5 6],
    (vCompare S1.cx.regs i).isSome = true ∧ Clear i S1 = true := by decide +kernel
theorem witness_VectorReductions_sums :
    ∀ i ∈ [Instr.vred H .f32 .cur 4 5, .vred H .bf16 .cur 4 5, .vdot H .f16 .cur 4 5 6, .vbxdot H .cur .bx4 4 5 6 none,
      .vbxdot H .cur .bx16 4 5 6 (some 3)],
    (vSum S1.cx.regs i).isSome = true ∧ Clear i S1 = true := by decide +kernel
theorem witness_VectorLong : ∀ i ∈ [Instr.vdiv H .f32 .cur 4 5 6, .vsqrt H .bf16 .rz 4 5],
    (vLong S1.cx.regs i).isSome = true ∧ Clear i S1 = true := by decide +kernel
theorem witness_Quantise : ∀ i ∈ [Instr.vqnt H false .f32 .bx4 4 5 (some 6) none, .vqnt H true .f16 .bx8 4 5 none (some 0),
    .vqnt H false .bf16 .bx16 4 5 none (some 3)], i.wf = true ∧ Clear i S1 = true := by decide +kernel
theorem witness_FloatResults_scalar : ∀ i ∈ [Instr.fadd H .f32 .cur 4 5 6, .fmul H .f16 .rz 4 5 6, .ffma H .bf16 .cur 4 5 6 7,
    .fcvt H .cur .i64 .f32 4 5, .fcvt H .cur .f16 .u8 0 5],
    (fScalar S1.cx.regs i).isSome = true ∧ i.wf = true ∧ Clear i S1 = true := by decide +kernel
theorem witness_FloatResults_fcmp : Clear (.fcmp H .f32 .un 1 4 5) S1 = true := by decide +kernel
theorem witness_FloatResults_exact : 1 < 2 ^ fmtBits' .f16 ∧ Machine.isNaN (toNum .f16 1) = false ∧ putNum .f16 .rd (toNum .f16 1) = (1, 0) := by
  decide +kernel
theorem witness_RegisterFrame : ∀ i ∈ [Instr.add H .d 3 4 5, .setp H .w .lt 1 4 5, .vadd H .f32 .cur 4 5 6],
    ((destG S1 i).isSome || (destP S1 i).isSome || (destV S1 i).isSome) = true ∧ i.wf = true ∧ Clear i S1 = true ∧
    (match exec i S1 with | .next _ => true | _ => false) = true := by decide +kernel
theorem witness_RegisterAccess : (3 : GReg) ≠ 0 ∧ (4 : GReg) ≠ 3 ∧ (7 : PReg) ≠ 0 ∧ (31 : VReg) ≠ 0 := by decide

/-! ### Witnesses: thread control, transfers, groups, experience, the planker -/

theorem witness_SpecialRegisters : ∀ i ∈ [Instr.nop H, .yieldT H, .wait H, .doze H 3, .nowns H 3, .exit H 3, .mts H .fflags 3, .mts H .tid 3],
    Clear i S1 = true ∧ S1.cx.cap = none := by decide +kernel

/-- A long result is pending. -/
def Spend : State := S1.onCx fun c => { c with pend := [S1.newPend (.g 9 .d 0)] }
theorem witness_ParksAndGuards_marker : ∀ i ∈ [Instr.add ⟨true, 0, false⟩ .d 3 4 5, .wait H],
    (usesOf i).allotted Spend.cx.part = true ∧ privOk Spend i = true ∧ (usesOf i).marked = true ∧ Spend.cx.noLong = false := by decide +kernel
theorem witness_ParksAndGuards_skip : Skips (.add ⟨false, 0, true⟩ .d 3 4 5) S1 = true ∧ Skips (.ld ⟨false, 3, false⟩ .d false 0 3 ⟨.g, 4, 0, 0, 0⟩) S1 = true := by
  decide +kernel

/-- Registers, by number. -/
def G (l : List (Nat × Word)) : State := S1.onRegs fun r => l.foldl (fun r p => r.setG (BitVec.ofNat 6 p.1) p.2) r
theorem witness_Transfers_br : Clear (.br H 0xFFFF 0) S1 = true ∧ Clear (.br ⟨false, 0, true⟩ 3 0) S1 = true ∧ S1.cx.cap = none ∧
    S1.cx.regs.guard H = true ∧ S1.cx.regs.guard ⟨false, 0, true⟩ = false ∧ S1.entersAt (branchTarget S1.cx.pc 0) = true := by decide +kernel
theorem witness_Transfers_others : ∀ i ∈ [Instr.bri H 3, .call H 0, .calli H 3, .ret H 1], Clear i S1 = true ∧ S1.entersAt 0 = true := by
  decide +kernel
theorem witness_Transfers_loop : Clear (.loop H 3 0 0xFFFF 0) (G [(3, 1)]) = true ∧ Clear (.loop H 3 4 2 0) (G [(3, 2)]) = true ∧
    (G [(3, 2)]).entersAt (branchTarget S1.cx.pc 0) = true := by decide +kernel
theorem witness_Transfers_bad : ∀ i ∈ [Instr.br H 0xFFFF 1, .bri H 3, .call H 4, .calli H 3, .ret H 3, .loop H 3 0 0 2],
    ∃ t, taken (G [(3, 2 ^ 57)]).cx.regs 0 i = some t ∧ Clear i (G [(3, 2 ^ 57)]) = true ∧ (G [(3, 2 ^ 57)]).rejects t = true ∧
      (G [(3, 2 ^ 57)]).cx.regs.trapvec ≠ 0 ∧ (G [(3, 2 ^ 57)]).cx.hnd = false := by
  simp only [List.mem_cons, List.not_mem_nil, or_false, forall_eq_or_imp, forall_eq]
  exact ⟨⟨1, by decide +kernel⟩, ⟨2 ^ 57, by decide +kernel⟩, ⟨4, by decide +kernel⟩, ⟨2 ^ 57, by decide +kernel⟩, ⟨2 ^ 57, by decide +kernel⟩,
    ⟨2, by decide +kernel⟩⟩

/-- A thread whose table holds handle 5 as said; g3 holds 5. -/
def Shd (st : HState) (arrived : Bool) (w : Option Bool) : State :=
  (G [(3, 5)]).onCx fun c => { c with handles := [{ handle := 5, st := st, tag := 9, arrived := arrived, waitFor := w }] }
theorem witness_Groups_join : Clear (.join H 4 3) (G [(3, 5)]) = true ∧ Clear (.join H 0 3) (G [(3, 5)]) = true ∧ (G [(3, 5)]).cx.hent 5 = none ∧
    ((G [(3, 5)]).cx.handles.filter fun e => e.handle != 0).length < 8 := by decide +kernel
theorem witness_Groups_member : ∀ i ∈ [Instr.leave H 3, .gbar H 3, .garrive H 3, .phase H 3, .ginfoSize H 4 3, .ginfoRank H 4 3],
    Clear i (Shd .member false none) = true ∧ (Shd .member false none).isDrained 0 0 = true ∧
      (Shd .member false none).cx.hent 5 = some { handle := 5, st := .member, tag := 9, arrived := false, waitFor := none } := by decide +kernel
theorem witness_Groups_gwait : ∀ d ∈ [false, true], Clear (.gwait H 3) (Shd .member true (some d)) = true ∧
    (Shd .member true (some d)).cx.hent 5 = some { handle := 5, st := .member, tag := 9, arrived := true, waitFor := some d } := by decide +kernel
theorem witness_Groups_zero : Clear (.ginfoSize H 4 0) S1 = true ∧ Clear (.ginfoRank H 4 0) S1 = true := by decide +kernel
theorem witness_UnitMisuse_group : (∀ i ∈ [Instr.join H 4 3, .leave H 3, .gbar H 3, .ginfoRank H 4 3], Clear i (Shd .leaving false none) = true ∧
      (Shd .leaving false none).cx.hent 5 ≠ none) ∧
    groupMisuse S1.cx (.join H 4 0) 0 = some 5 ∧ groupMisuse S1.cx (.gbar H 3) 5 = some 1 ∧ Clear (.gbar H 3) S1 = true ∧
    groupMisuse (Shd .member true none).cx (.gbar H 3) 5 = some 4 ∧ groupMisuse (Shd .member true none).cx (.gwait H 3) 5 = some 4 ∧
    groupMisuse (Shd .member true none).cx (.join H 4 3) 5 = some 2 := by decide +kernel

/-- The experience cache holds what is said. -/
def Sx (l : List XEnt) : State := S1.onMine fun k => { k with xcache := l }
/-- An entry of slot 2. -/
def xe (v : Option Word) : XEnt :=
  { id := 0, launch := 1, slot := 2, w0 := 1, view := v, contrib := ⟨0, 0, 0, 0, 0⟩, held := [], merging := [], gone := false, ask := none }
theorem witness_Experience_reads : ∀ i ∈ [Instr.xrd H false 3 4, .xrd H true 3 4, .xsel H 1 (some 5) 2, .xunr H 3 none 2, .xpfd H 3 4 (some 5) 2],
    (slotRead S1.cx i).isSome = true ∧ Clear i S1 = true := by decide +kernel
/-- The launch runs an image with slots. -/
def withImg (s : State) : State :=
  { (s.onLaunch 1 fun l => { l with desc := BitVec.ofNat 512 (0x10000 * 2 ^ 192) }) with
    images := [{ tenant := 0, hash := 0, entry := 0, text := 0, xinst := 0x10000, xbytes := List.replicate 128 0 }] }
theorem witness_Experience_entry : 2 < (withImg S1).slotCount 1 ∧ S1.slotCount 1 ≤ 2 ∧ xFind (Sx [xe (some 7)]).mine.xcache 1 2 = some (xe (some 7)) ∧ xFind (Sx [xe none]).mine.xcache 1 2 = some (xe none) ∧
    xFind S1.mine.xcache 1 2 = none ∧ Clear (.xsel H 1 none 2) (Sx [xe none]) = true := by decide +kernel
theorem witness_Experience_others : Clear (.xnote H 3 2) S1 = true ∧ Clear (.xflush H) S1 = true := by decide +kernel

/-- A capture of one vector addition, n = 1, stagger 1, k reissues, has been formed or begun. -/
def cap (code : List Instr) : Capture := { n := 1, s := 1, k := 2, code := code, next := 0 }
/-- The thread has begun a capture. -/
def Scap (code : List Instr) : State :=
  (S1.onCx fun c => { c with cap := some (cap code) }).onMine fun k => { k with capHold := tset k.capHold 0 0 }
theorem witness_PlankerRuns_rep : Clear (.rep H 0 1 3) S1 = true ∧ S1.cx.cap = none ∧ Clear (.repwait H) S1 = true := by decide +kernel
theorem witness_PlankerRuns_busy : Clear (.repwait H) (Scap [.vadd H .f32 .cur 4 5 6]) = true ∧
    (Scap [.vadd H .f32 .cur 4 5 6]).cx.cap.any Capture.busy = true := by decide +kernel
theorem witness_PlankerRuns_forming : let i := Instr.vadd H .f32 .cur 4 5 6
    Able i ((Scap []).onCx fun c => { c with cap := none }) = true ∧ (Scap []).cx.cap = some (cap []) ∧ (cap []).forming = true ∧
    captureCheck (Scap []).cx i = none ∧ noStream (Scap []).cx ((usesOf i).vs ++ (usesOf i).dv) = true := by decide +kernel
theorem witness_PlankerRuns_reissue : let i := Instr.vadd H .f32 .cur 4 5 6
    tget ((Scap [i]).core 0).capHold 0 = some 0 ∧ ((Scap [i]).ctx 0 0).cap = some (cap [i]) ∧ (cap [i]).busy = true ∧
    ((Scap [i]).ctx 0 0).halted = false ∧ ((Scap [i]).ctx 0 0).run ≠ .stopped ∧ ((Scap [i]).ctx 0 0).view = none ∧
    (usesOf (mapV (fun v => v + 1) i)).performed ((Scap [i]).ctx 0 0).regs = true := by decide +kernel

/-! ### Witnesses: traps, loads and stores -/

/-- A user thread with the smallest allotment of registers. -/
def Suser : State := S1.onCx fun c => { c with sup := false, part := 0x000 }
theorem witness_IssueTraps_illegal : alone Suser = true ∧ Suser.cx.hnd = false ∧ Suser.cx.regs.trapvec ≠ 0 ∧
    (usesOf (.add H .d 63 4 5)).allotted Suser.cx.part = false ∧ (usesOf (.eret H)).allotted Suser.cx.part = true ∧
    privOk Suser (.eret H) = false := by decide +kernel
theorem witness_IssueTraps_pending : let i := Instr.add H .d 9 4 5
    alone Spend = true ∧ (usesOf i).allotted Spend.cx.part = true ∧ privOk Spend i = true ∧ waitsForNothing Spend.cx i = true ∧ noRefusal Spend = true ∧
    Spend.cx.cap = none ∧ (usesOf i).performed Spend.cx.regs = true ∧ pendingDest Spend.cx (usesOf i).dests = some 9 ∧
    Spend.cx.regs.trapvec ≠ 0 := by decide +kernel
theorem witness_IssueTraps_unhandled : alone S0 = true ∧ S0.cx.cap = none ∧ S0.cx.regs.trapvec = 0 ∧
    ((usesOf (.aclr H 8)).allotted S0.cx.part = false) ∧ S0.mine.residents.length = 1 ∧
    (S0.mine.residents.all fun r => r.launch == S0.cx.launch) = true := by decide +kernel
/-- A long result has failed and its record is due. -/
def Sdue : State := Spend.onCx fun c => { c with
  pend := c.pend.map fun p => { p with left := 0 }
  replay := [{ tag := c.nextTag, fault := { kind := 2, absent := false, addr := 0x40 }, due := true }] }
theorem witness_IssueTraps_fault : let i := Instr.add ⟨true, 0, false⟩ .d 3 4 5
    alone Sdue = true ∧ Sdue.cx.hnd = false ∧ Sdue.cx.regs.trapvec ≠ 0 ∧ Sdue.cx.cap = none ∧ (usesOf i).allotted Sdue.cx.part = true ∧
    privOk Sdue i = true ∧ (usesOf i).marked = true ∧ Sdue.cx.noLong = true ∧
    ((usesOf i).performed Sdue.cx.regs && startsLong Sdue.cx.regs Sdue.cx i && decide (Sdue.cx.pend.length ≥ 32)) = false ∧
    (Sdue.cx.replay.find? fun r => r.due && !r.fault.absent).isSome = true := by decide +kernel
/-- A journal entry of the thread, in a state. -/
def je (st : JState) : JEnt := { JEnt.reset with st := st, inc := 1, line := 0x80, kind := 2, am := .g, mask := 0xFF }
/-- A core whose journal holds that entry, number 63; g3 holds 63. -/
def Sj (st : JState) : State := (G [(3, 63)]).onMine fun k => { k with jnl := [(63, je st)] }
theorem witness_IssueTraps_refusal : let s := Sj .refused
    alone s = true ∧ s.cx.hnd = false ∧ s.cx.regs.trapvec ≠ 0 ∧ s.cx.cap = none ∧ (usesOf (.nop H)).allotted s.cx.part = true ∧
    privOk s (.nop H) = true ∧ waitsForNothing s.cx (.nop H) = true ∧ s.mine.refusal s.me.2 s.cx.inc = some 63 := by decide +kernel
theorem witness_SequentialPc : ∀ p ∈ [0, 3, 4, 2 ^ 57 - 64 - 60], (BitVec.ofNat 64 p).toNat % 64 ≤ 4 ∧ (BitVec.ofNat 64 p).toNat < 2 ^ 57 - 64 := by
  decide

/-- A memory operand at g4. -/
def M (am : Mode) : MemOp := ⟨am, 4, 0, 0, 0⟩
/-- g4 holds an address. -/
def A (ea : Word) : State := G [(3, 0x1122334455667788), (4, ea)]
theorem witness_Addresses : ∀ p ∈ [(Instr.ld H .d false 0xFFFF 3 (M .g), (2 ^ 57 : Word)), (.st H .w false 3 (M .l), 2 ^ 16), (.vld H false 0 1 (M .c), 2 ^ 26),
      (.vst H false 1 (M .x), 2 ^ 29), (.lds H 3 (M .l), 4), (.feset H (M .x), 1), (.atom H .w .add .g 3 4 5 0, 2), (.pref H 3 (M .g), 2 ^ 57)],
    (match operandOf (A p.2).cx.regs p.1 with
     | some (am, b, x, d, n) => (addressTrap am b x d n).isSome && Clear p.1 (A p.2)
     | none => false) = true := by decide +kernel
theorem witness_Addresses_port : let i := Instr.ld H .d false 0xFFFF 3 (M .l)
    Clear i (A 0xFFF8) = true ∧ operandOf (A 0xFFF8).cx.regs i = some (.l, 0xFFF8, 0, 0, 8) ∧ soundAt .l 0xFFF8 0 0 8 = some 0xFFF8 ∧
    (A 0xFFF8).localRefusal 0 0xFFF8 8 = some WINDOW := by decide +kernel
theorem witness_Addresses_chkptr : Clear (.chkptr H 3 4) (A 0) = true ∧ Clear (.chkptr H 3 4) (A (2 ^ 57)) = true := by decide +kernel

theorem witness_Loads_local : ∀ i ∈ [Instr.ld H .d false 0xFFFF 3 (M .l), .ldacq H .d 3 (M .l), .vld H false 0xFFFF 1 (M .l)],
    Clear i (A 0x40) = true ∧ (A 0x40).soundEa (M .l) 8 = some 0x40 ∧ (A 0x40).soundEa (M .l) 64 = some 0x40 ∧ (A 0x40).localOk 0x40 8 .r = true ∧
    (A 0x40).localOk 0x40 64 .r = true := by decide +kernel
theorem witness_Loads_lanes : Clear (.vldx H false 1 4 2 2 0) (A 0x40) = true ∧ ∀ i < 16, (laneEa (A 0x40).cx.regs 4 2 2 0 i).toNat < 2 ^ 16 ∧
    (laneEa (A 0x40).cx.regs 4 2 2 0 i).toNat % 4 = 0 ∧ (A 0x40).localOk (laneEa (A 0x40).cx.regs 4 2 2 0 i).toNat 4 .r = true := by decide +kernel
theorem witness_Loads_remote : ∀ i ∈ [Instr.ld H .d true 0xFFFF 3 (M .g), .ldacq H .d 3 (M .g), .vld H false 0xFFFF 1 (M .g), .vldx H true 1 4 2 2 0],
    Clear i (A 0x40) = true ∧ (A 0x40).soundEa (M .g) 8 = some 0x40 ∧ (A 0x40).soundEa (M .g) 64 = some 0x40 := by decide +kernel
theorem witness_LocalStores : ∀ i ∈ [Instr.st H .d false 3 (M .l), .strel H .d 3 (M .l), .vst H false 1 (M .l), .vstx H false 1 4 2 2 0],
    Clear i (A 0x40) = true ∧ (A 0x40).mine.memWf = true ∧ (A 0x40).soundEa (M .l) 8 = some 0x40 ∧ (A 0x40).soundEa (M .l) 64 = some 0x40 ∧
    (A 0x40).localOk 0x40 8 .w = true ∧ (A 0x40).localOk 0x40 64 .w = true ∧ (A 0x40).clearOf .l 0x40 8 = true ∧
    (A 0x40).clearOf .l 0x40 64 = true ∧ (A 0x40).isDrained 0 0 = true := by decide +kernel
theorem witness_LocalStores_lanes : ∀ i < 16, (laneEa (A 0x40).cx.regs 4 2 2 0 i).toNat < 2 ^ 16 ∧ (A 0x40).localOk 0x40 4 .w = true ∧
    (A 0x40).clearOf .l (laneEa (A 0x40).cx.regs 4 2 2 0 i) 4 = true := by decide +kernel

/-- A buffered store of the thread to the line at 0x40. -/
def sbe : SbEnt := { am := .g, line := 0x40, mask := 0xFF, data := 1, bset := false, pc := 0, spill := false, peer := none }
/-- The thread's buffer holds n stores to different lines. -/
def Ssb (n : Nat) : State :=
  (A 0x40).onCx fun c => { c with sb := (List.range n).map fun i => { sbe with line := BitVec.ofNat 64 (0x40 + 64 * i) } }
theorem witness_StoreBuffer : ∀ i ∈ [Instr.st H .d false 3 (M .g), .vst H true 1 (M .g)], (storeForm (A 0x40) i).isSome = true ∧ Clear i (A 0x40) = true ∧
    (match storeForm (A 0x40) i with | some p => (bufStore (A 0x40).mine 0 (A 0x40).cx p.1).isSome | none => false) = true := by decide +kernel
/-- A thread whose buffer and spill area are full. -/
def Sfull : State := (A 0x40).onCx fun c => { c with sb := (List.range 2255).map fun i => { sbe with spill := decide (i < 2048), line := BitVec.ofNat 64 (0x1000 + 64 * i) } }
theorem witness_StoreBuffer_full : let s := Sfull
    Clear (.st H .d false 3 (M .g)) s = true ∧
    (match storeForm s (.st H .d false 3 (M .g)) with | some p => (bufStore s.mine 0 s.cx p.1).isNone | none => false) = true := by decide +kernel
theorem witness_StoreBuffer_lanes : Clear (.vstx H true 1 4 2 2 0) (A 0x40) = true ∧ (((A 0x40).buffers ((List.range 16).map fun i =>
      (A 0x40).entry .c (laneEa (A 0x40).cx.regs 4 2 2 0 i) 0 (byteMask 0 4) false)).isSome) = true := by decide +kernel
theorem witness_Synchronising : ∀ i ∈ [Instr.lds H 3 (M .x), .sts H 3 (M .x), .ldf H 3 (M .x), .feset H (M .x), .feclr H (M .x),
      .atom H .d .add .x 3 4 5 0], Clear i (A 0x40) = true ∧ (A 0x40).soundEa (M .x) 8 = some 0x40 ∧ (A 0x40).gateOk .x 0x40 8 = true ∧
    (A 0x40).clearOf .x 0x40 8 = true ∧ soundAt .x 0x40 0 0 8 = some 0x40 := by decide +kernel
theorem witness_Synchronising_forms : ∀ i ∈ [Instr.lds H 3 (M .x), .sts H 3 (M .x), .ldf H 3 (M .x)], (syncForm (A 0x40).cx.regs i).isSome = true := by
  decide +kernel
theorem witness_Drains_overlap : let i := Instr.atom H .d .cas .g 3 4 5 0
    waitsForOverlap i = true ∧ (operandOf (Ssb 1).cx.regs i).isSome = true ∧ Clear i (Ssb 1) = true ∧ storeForm (Ssb 1) i = none ∧
    (Ssb 1).gateOk .g 0x40 8 = true ∧ (Ssb 1).clearOf .g 0x40 8 = false := by decide +kernel
theorem witness_Drains_strel : Clear (.strel H .d 3 (M .g)) (Ssb 1) = true ∧ (Ssb 1).isDrained 0 0 = false ∧ (Ssb 1).soundEa (M .g) 8 = some 0x40 ∧
    Clear (.strel H .d 3 (M .g)) (A 0x40) = true ∧ (A 0x40).isDrained 0 0 = true ∧ (A 0x40).mine.freeJ = some 0 := by decide +kernel
theorem witness_Drains_pref : Clear (.pref H 3 (M .g)) (A 0x40) = true ∧ Clear (.pref H 0 (M .g)) (A 0x40) = true ∧
    (A 0x40).soundEa (M .g) 1 = some 0x40 ∧ (A 0x40).mine.snapFind 0 0x40 = none := by decide +kernel

/-! ### Witnesses: volumes, the copy unit, tiles, the fabric, system instructions -/

/-- A line of eight words. -/
def L8 (l : List Nat) : Line := lineOf 64 l
/-- A volume of FP32 elements, two channels, depth 1, extents 4, origin (0, 0, 0), background 7. -/
def vol : Line := L8 [0x10 + 2 ^ 8 + 2 * 2 ^ 12 + 2 ^ 16 + 7 * 2 ^ 32, 0, 4 + 4 * 2 ^ 21 + 4 * 2 ^ 42, 0x10000, 0x20000, 0, 0, 0]
/-- The core holds the entry of tensor 2; g4 holds a coordinate word, g5 a channel. -/
def Svol (e : Line) (c : Word) : State := (G [(4, c)]).onMine fun k => { k with vols := [{ launch := 1, tid := 2, entry := e }] }
theorem witness_Volumes : ∀ s ∈ [Svol vol 0, Svol vol 0xC0000600003, Svol vol 4, Svol vol 0x1FFFFF],
    (∀ i ∈ [Instr.cld H 2 3 4 5 1, .cvld H 2 1 4 5 0, .cst H 2 3 4 5 0, .cvst H 2 1 4 5 0, .cprobe H 2 3 4, .cclr H 2 4, .ctileFind H 2 3 4,
      .ctileDetach H 2 3 4, .clbinv H 2], Clear i s = true) ∧ heldVolume s 2 = some vol ∧ (s.cx.regs.getG 4).getLsbD 63 = false ∧
      s.isDrained 0 0 = true := by decide +kernel
theorem witness_Volumes_inside : ∀ i < 3, 0 ≤ axis (3 + 3 * 2 ^ 21) i - axis (el 64 vol 1) i ∧
    axis (3 + 3 * 2 ^ 21) i - axis (el 64 vol 1) i < ((vol.extractLsb' (128 + 21 * i) 21).toNat : Int) := by decide +kernel
theorem witness_Volumes_outside : ¬ (axis 4 0 - axis (el 64 vol 1) 0 < ((vol.extractLsb' 128 21).toNat : Int)) := by decide +kernel
theorem witness_Volumes_push : Clear (.ctilePtile H 2 4) (Svol vol 0x40) = true ∧ Clear (.ctilePnode H 2 4) (Svol vol 0x1000) = true := by decide +kernel
theorem witness_UnitMisuse_volume : Clear (.cld H 2 3 4 5 0) (Svol 0x11 0) = true ∧ volOk 0x11 = false ∧ Clear (.cld H 2 3 4 5 0) (Svol vol (2 ^ 63)) = true ∧
    Clear (.ctilePtile H 2 4) (Svol vol 32) = true ∧ blockAlign (.ctilePtile H 2 4) = some 64 ∧ volOk vol = true := by decide +kernel

/-- Registers for the copy unit: g4 and g5 addresses, g6 a length. -/
def Scp (a b n : Word) : State := G [(4, a), (5, b), (6, n)]
theorem witness_CopyUnit_cpy : Clear (.cpy H .l .g 2 4 5 6) (Scp 0x40 0x1000 1024) = true ∧
    copySound (Scp 0x40 0x1000 1024) .l .g 0x40 0x1000 1024 = true ∧ copySound (Scp 0 0 64) .o .c 0 0 64 = true ∧
    ((Scp 0x40 0x1000 1024).mine.handle 2).busy = false ∧ ((Scp 0x40 0x1000 1024).mine.handle 2).fault = none ∧
    (Scp 0x40 0x1000 1024).isDrained 0 0 = true := by decide +kernel
/-- Handle 2 of the core. -/
def Shandle (h : Handle) : State := (Scp 0x40 0x1000 1024).setHandle 2 h
theorem witness_CopyUnit_busy : Clear (.cpy H .l .g 2 4 5 6) (Shandle ⟨0, true, none⟩) = true ∧
    copySound (Shandle ⟨0, true, none⟩) .l .g 0x40 0x1000 1024 = true ∧ Clear (.cpyw H 2 6) (Shandle ⟨0, true, none⟩) = true ∧
    Clear (.cpyt H 3 2 6) (Shandle ⟨1024, true, none⟩) = true := by decide +kernel
theorem witness_CopyUnit_others : dealSound true 0x1000 0x0008000101FF0040 128 = true ∧
    dealSound false 0 0x0010000100008000 0x8000 = true ∧ gatherSound false .g .l 0x40 0x1000 65536 = true ∧
    (∀ i ∈ [Instr.deal H true 3 4 5 6 128, .get H false .g .l 3 1 4 5 6, .put H true .g .x 1 3 1 4 5 6, .gpwait H true 3 1 4, .gpwait H false 3 1 0],
      Clear i (Scp 0x40 0x1000 1024) = true) ∧ satisfied 0 5 = false ∧ satisfied 0 0 = true ∧ satisfied 5 5 = true := by decide +kernel
theorem witness_UnitMisuse_transfer : ∀ p ∈ [(Instr.cpy H .l .g 2 4 5 6, 0x40, 0x1000, 63, 1), (.cpy H .l .cb 2 4 5 6, 0x40, 0, 64, 2),
      (.cpy H .o .g 2 4 5 6, 1088, 0x1000, 64, 3), (.deal H true 3 4 5 6 128, 0x40, 0x20, 0, 1), (.deal H false 3 4 5 6 128, 0x40, 0x40, 0, 7),
      (.sarm H false 0 0 0 3 23 5 6, 0, 0x40, 0, 4), (.cbset H 0 4 5, 2 ^ 29, 0, 0, 8), (.cbrsv H 3 0, 0, 0, 0, 0), (.cbcmt H 0, 0, 0, 0, 6),
      (.cbrel H 0, 0, 0, 0, 6), (.get H false .g .l 3 1 4 5 6, 0x40, 0x1000, 65537, 1)],
    Clear p.1 (Scp p.2.1 p.2.2.1 p.2.2.2.1) = true ∧ (p.2.2.2.2 ≠ 0 → transferMisuse (Scp p.2.1 p.2.2.1 p.2.2.2.1) p.1 = some p.2.2.2.2) := by
  decide +kernel
/-- A fault record. -/
def flt : RFault := { kind := 2, absent := false, addr := 0x80 }
theorem witness_UnitMisuse_records : Clear (.cpyw H 2 6) (Shandle ⟨-1, false, some flt⟩) = true ∧
    Clear (.gpwait H false 3 1 0) (S1.setCounter 1 ⟨0, some flt⟩) = true := by decide +kernel

/-- A stream that has been armed: 4 strips, one of them loaded. -/
def stream (wr : Bool) (ahead : List (Line × Option RFault)) : Stream :=
  { wr := wr, ready := true, tid := 3, start := 0, p1 := 0, p2 := 0, n0 := 4, n1 := 1, n2 := 1, mode := .l, base := 0, next := 0, ahead := ahead
    last := 9, out := [], fault := none }
/-- v24 is armed. -/
def Sst (st : Stream) : State := S1.onCx fun c => { c with streams := [(24, st)] }
theorem witness_Streams_control : Clear (.sarm H false 0 0 3 3 24 5 6) S1 = true ∧ S1.cx.part.getLsbD 10 = true ∧ S1.isDrained 0 0 = true ∧
    S1.maySend = true ∧ (∀ f ∈ [none, some flt], Clear (.sdrop H 24) (Sst { stream true [] with fault := f }) = true ∧
      Clear (.sdrop H 24) (S1.onCx fun c => { c with dropRec := f.elim [] fun x => [(24, x)] }) = true) ∧
    Clear (.sdrop H 24) S1 = true ∧ Clear (.sdrop H 24) (Sst (stream false [])) = true ∧ Clear (.sdrop H 24) (Sst (stream true [])) = true := by
  decide +kernel
theorem witness_Streams_pop : let i := Instr.vadd H .f32 .cur 4 24 6
    Able i (Sst (stream false [(5, none)])) = true ∧ (24 : VReg) ∈ (usesOf i).vs ∧ 24 ∉ (usesOf i).dv ∧ (usesOf i).vs.head? = some 24 ∧
    (∀ x ∈ (usesOf i).vs ++ (usesOf i).dv, x ≠ 24 → tget (Sst (stream false [(5, none)])).cx.streams x.toNat = none) ∧
    (stream false []).next < (stream false []).total ∧ Able i (Sst (stream false [])) = true := by decide +kernel
theorem witness_Streams_push : let i := Instr.vadd H .f32 .cur 24 5 6
    Able i (Sst (stream true [])) = true ∧ noStream (Sst (stream true [])).cx (usesOf i).vs = true ∧
    tget (Sst (stream true [])).cx.streams 24 = some (stream true []) := by decide +kernel

/-- Buffer 0 of the core: role, counts. -/
def Scb (role : Nat) (free filled reserved acquired : Nat) : State :=
  (Scp 0x40 0 0).setBuf 0
    { CBuf.reset with set := true, role := role, pcore := 1, base := 0x40, count := 4, size := 64, free := free, filled := filled, reserved := reserved, acquired := acquired }
theorem witness_CircularBuffers_set : Clear (.cbset H 0 4 5) (Scp 0x40 (2 ^ 10) 0) = true ∧ bufferSound (Scp 0x40 (2 ^ 10) 0) 0 0x40 (2 ^ 10) = true := by
  decide +kernel
theorem witness_CircularBuffers_uses : (∀ r ∈ [1, 3], ∀ f ∈ [0, 4], Clear (.cbrsv H 3 0) (Scb r f 0 1 0) = true ∧
      ((Scb r f 0 1 0).mine.cb 0).role = r ∧ ((Scb r f 0 1 0).mine.cb 0).lost = false ∧ Clear (.cbcmt H 0) (Scb r f 0 1 0) = true ∧
      (Scb r f 0 1 0).isDrained 0 0 = true) ∧
    ∀ r ∈ [0, 1, 2], ∀ n ∈ [0, 4], Clear (.cbacq H 3 0) (Scb r 0 n 0 1) = true ∧ Clear (.cbrel H 0) (Scb r 0 n 0 1) = true := by decide +kernel

/-- v1 holds a FENCE card of a level. -/
def Scard (n : Nat) : State := S1.onRegs fun r => r.setV 1 (BitVec.ofNat 512 (0x0E + 256 * n))
theorem witness_TilesAndSlots_card : ∀ p ∈ [(Lvl.L1, 1), (.L2, 2), (.L3, 3), (.L4, 4), (.L5, 5)], Clear (.card H p.1 1) (Scard p.2) = true ∧
    badCard ((Scard p.2).cx.regs.getV 1) p.2 (Scard p.2).holdsSlot (partAcc (Scard p.2).cx.part) = none ∧ (Scard p.2).isDrained 0 0 = true := by
  decide +kernel
theorem witness_UnitMisuse_card : Clear (.card H .L1 1) S1 = true ∧ badCard (S1.cx.regs.getV 1) 1 S1.holdsSlot (partAcc S1.cx.part) = some 1 ∧
    badCard ((Scard 2).cx.regs.getV 1) 1 S1.holdsSlot 8 = some 2 := by decide +kernel
/-- The thread holds slot 31; g3 names it. -/
def Sslot : State := (G [(3, 2 ^ 31)]).onMine fun k => { k with slots := [(31, { by' := .ctx { core := 0, ctx := 0, inc := 1 }, pending := false })] }
theorem witness_TilesAndSlots_slots : (∀ i ∈ [Instr.cwait H 3 4, .oclaim H 3 5, .orel H 3, .ofill H 31 1 0], Clear i (Sslot.onRegs fun r => (r.setG 4 0x10).setG 5 32) = true) ∧
    Sslot.holdsSlot 31 = true ∧ (∀ i < 32, (2 ^ 31 : Word).getLsbD i = true → Sslot.holdsSlot i = true) ∧ Sslot.slotBusy 0 31 = false ∧
    Sslot.mine.memWf = true := by decide +kernel
/-- A card of level 1 that accumulates in tile 7 and reads slot 31 is queued on the core. -/
def Sbusy : State := Sslot.onUnit 1 0 fun u => { u with queue := [
  { id := 0, card := BitVec.ofNat 512 (1 + 256 + 2 ^ 14 + 2 ^ 15 + 2 ^ 32 * (31 + 256 * (31 + 65536 * 7))), who := Sslot.asker, origin := 0, parent := none, accepted := true, ents := [],
    at' := 0, part := false, pairs := none, parityTries := 0, ring := [], slots := none, children := [], issued := false, ran := false, code := 0, sev := 0
    path := 0, funit := 0, prog := 0, satf := false, nanf := false }] }
theorem witness_TilesAndSlots_busy : Sbusy.slotBusy 0 31 = true ∧ Clear (.ofill H 31 1 0) Sbusy = true ∧ Sbusy.holdsSlot 31 = true := by decide +kernel
theorem witness_TilesAndSlots_td : ∀ i ∈ [Instr.tdset H 255 1, .tdget H 0 1], Clear i S1 = true ∧ S1.isDrained 0 0 = true ∧ S1.mine.freeJ = some 0 := by
  decide +kernel
theorem witness_TilesAndSlots_tiles : (∀ i ∈ [Instr.aclr H 7, .ald H .l .f32 7 0, .ast H .l .bf16 1 31 31 7 0 none, .ast H .l .f32 0 0 5 0 0 (some 0)],
      Clear i S1 = true) ∧ S1.mine.memWf = true ∧ S1.tileBusy 0 7 = false ∧ S1.isDrained 0 0 = true ∧ (∀ i < 64, S1.localOk (64 * i) 64 .r = true) ∧
    (∀ i < 64, S1.localOk (64 * i) 64 .w = true) := by decide +kernel
theorem witness_UnitMisuse_tiles : slotMisuse S1 (.oclaim H 3 0) = some 1 ∧ Clear (.oclaim H 3 0) S1 = true ∧ slotMisuse (G [(3, 1)]) (.orel H 3) = some 2 ∧
    slotMisuse S1 (.ofill H 0 1 0) = some 3 ∧ Sbusy.tileBusy 0 7 = true ∧ Clear (.aclr H 7) Sbusy = true ∧ Clear (.ald H .l .f32 7 0) Sbusy = true := by
  decide +kernel

/-- Fabric group 3 of four members for tenant 0, this device its rank 1; g4 names the group, g5 is a count. -/
def Sfg (n : Word) : State :=
  { G [(4, 3), (5, n)] with fabric := { Fabric.reset with groups := [(3, 1 + 2 ^ 8 + 3 * 2 ^ 20)] } }
theorem witness_FabricAccess : (∀ i ∈ [Instr.pget H (.g .d 3) 0 5 8, .pget H (.v 1) 0 5 0, .pput H (.g .b 3) 0 5 7, .pput H (.v 1) 0 5 0, .patom H .d .add 3 0 5 8,
      .fbar H 4 5], Clear i (Sfg 0x203) = true) ∧ soundAt .g 0 0 8 8 = some 8 ∧ soundAt .g 0 0 0 64 = some 0 ∧
    (Sfg 1).isClear 0 0 [peerSpan (some (3, 2)) 8 8] = true ∧ (bufStore (Sfg 0x203).mine 0 (Sfg 0x203).cx sbe).isSome = true := by decide +kernel
theorem witness_FabricAccess_fbar : ∀ s ∈ [Sfg 1, Sfg 0x1000000], fgOk (s.fgroup 3) 0 = true ∧ fgRank (s.fgroup 3) < fgSize (s.fgroup 3) ∧
    (s.fbar 3).count = 0 ∧ s.isDrained 0 0 = true ∧ Clear (.fbar H 4 5) s = true := by decide +kernel
theorem witness_SystemMisuse_fbar : Clear (.fbar H 4 5) (Sfg 0) = true ∧ Clear (.fbar H 4 5) (G [(5, 1)]) = true ∧ fgOk ((G [(5, 1)]).fgroup 0) 0 = false ∧
    (Sfg 0).cx.regs.trapvec ≠ 0 := by decide +kernel
/-- A thread in user mode with a journal entry of another thread, number 63. -/
def Sother : State := (G [(3, 63)]).onMine fun k => { k with ctxs := [(0, { k.ctx 0 with sup := false })], jnl := [(63, { je .refused with ctx := 5 })] }
theorem witness_SystemMisuse_journal : (∀ i ∈ [Instr.jnlrd H 0 4 3, .jnlclr H 3, .jnlclrResend H 3], Clear i Sother = true ∧
      mayUseEntry Sother (Sother.mine.jent 63) = false ∧ Clear i S1 = true ∧ mayUseEntry S1 (S1.mine.jent 0) = true ∧ (S1.mine.jent 0).st ≠ .refused) := by
  decide +kernel
theorem witness_SystemMisuse_contexts : Clear (.ctxsv H 3 4) (G [(3, 1)]) = true ∧ Clear (.ctxsv H 3 4) (G [(4, 8)]) = true ∧
    Clear (.ctxsv H 3 4) (G [(4, 1)]) = true ∧ ((G [(4, 1)]).ctx 0 1).run = .free ∧ Clear (.ctxld H 3 4) S1 = true ∧ (S1.ctx 0 0).run ≠ .free ∧
    1 / 8 < partCtx S1.cx.part := by decide +kernel

theorem witness_TrapsAndReturns_trap : Clear (.trap H 255) S1 = true ∧ S1.cx.hnd = false ∧ S1.cx.regs.trapvec ≠ 0 := by decide +kernel
/-- A thread in its handler with a record already reported. -/
def Shandler : State := Spend.onCx fun c => { c with
  hnd := true, trappc := 0x44, pend := c.pend.map fun p => { p with left := 0 }
  replay := [{ tag := 0, fault := { kind := 2, absent := false, addr := 0x40 }, due := false }] }
theorem witness_TrapsAndReturns_eret : Shandler.returns (.eret H) = true ∧ Shandler.returns (.eretNext H) = true := by decide +kernel
theorem witness_SystemRegisters : (∀ i ∈ [Instr.csrw H (.win 7) 3, .csrw H .issue 3, .csrr H 3 .jnlref, .tlbinvPage H 3 4, .tlbinvTenant H 3 4,
      .tlbinvAll H 3 4, .fencei H], Clear i S1 = true ∧ S1.isDrained 0 0 = true) ∧
    (∀ i ∈ [Instr.jnlrd H 3 4 3, .jnlrd H 15 4 3, .jnlclr H 3, .jnlclrResend H 3], Clear i ((Sj .refused).onMine fun k => { k with jnl := [(63, { je .refused with taken := true })] }) = true ∧ i.wf = true) ∧
    mayUseEntry (Sj .refused) (je .refused) = true := by decide +kernel

/-- Tenant 0's addresses are mapped to the same physical ones, unbanded, or to one frame at a peer; a second context runs. -/
def Smap (g : List (Nat × Word)) (bytes : List Host.Cell) (run : Run) (pte : Word := 0x10000000000000DF) : State :=
  { (G g).onMine fun k => { k with ctxs := k.ctxs ++ [(1, { k.ctx 0 with run := run })] } with
    mem := { Memory.reset with
      bytes := bytes
      tlb := (List.range 64).map fun n => { stop := n, tenant := 0, vpn := 0, level := 4, pte := pte }
      replicas := [(0, { frames := [(1, 5)], removed := [] })] } }
theorem witness_ContextSaves_save : let s := Smap [(3, 0x10000), (4, 1)] [] .ready
    Clear (.ctxsv H 3 4) s = true ∧ (s.ctx 0 1).run ≠ .free ∧ s.isDrained 0 0 = true ∧ s.mine.saves.length + (s.mine.paged.filter fun p => p.2.1.expects).length < 64 ∧
    ∀ k < 2688, s.takesLine s.asker (ptrAdd 0x10000 (64 * k)) 2688 = true := by decide +kernel
/-- The head of a frame of context 5 of core 0, for launch 1. -/
def frame : List Host.Cell := [(0x10000, 0x43), (0x10001, 0x54), (0x10002, 0x58), (0x10003, 0x46), (0x10004, 1), (0x10008, 1), (0x1000F, 5),
  (0x10030, 0x38), (0x10031, 6)]
/-- The first lines of a frame. -/
def frameHead : List Line := (List.range 128).map fun k => rdLine frame (0x10000 + 64 * k)
theorem witness_ContextSaves_load : let s := Smap [(3, 0x10000), (4, 1)] frame .free
    let n := fun off len => leNat (fun i => BitVec.ofNat 8 (byteIn frameHead (off + i))) len
    Clear (.ctxld H 3 4) s = true ∧ (s.ctx 0 1).run = .free ∧ frameHead.length = 128 ∧
    (∀ k < 128, s.givesLine s.asker (ptrAdd 0x10000 (64 * k)) ((frameHead[k]?).getD 0) = true) ∧
    n 0 4 = 0x46585443 ∧ n 4 2 = 1 ∧ n 16 2 = 0 ∧ s.mine.part = some (BitVec.ofNat 64 (n 48 8)) ∧ s.launchOver (n 8 4) = false ∧
    s.mine.saves = [] ∧ tget s.mine.capHold 1 = none := by decide +kernel

theorem witness_SchedulerRequests : (∀ i ∈ [Instr.gnodeGraph H 3 4, .gnodeEdge H 3 4 5, .gnodeDrop H 3 4, .grabTake H 3 4, .grabSet H 3 4 5,
      .qstatLaunch H 3 4, .qstatQueue H 3 4, .qstatRange H 3 4, .qstatInst H 3 4],
      (schedRequest S1.cx.regs i).isSome = true ∧ Clear i (S1.onLaunch 1 fun l => { l with service := true }) = true) ∧
    (∀ i ∈ [Instr.launch H 3 4, .glaunch H 3 4 5, .gnodeNode H 3 4 5, .gdone H 3 4 5], (schedKick S1.cx.regs i).isSome = true ∧ Clear i S1 = true) ∧
    pointerOk 0 64 = true ∧ pointerOk (2 ^ 57) 64 = false ∧ pointerOk 8 16 = false ∧ Clear (.launch H 3 4) (G [(4, 2 ^ 57)]) = true := by decide +kernel
theorem witness_DebugInstructions : (∀ i ∈ [Instr.renter H 1, .rleave H, .trace H 5 3, .brk H 0x42 3, .wpset H 7 3 3 .g 3, .wpset H 0 1 0 .l 3, .wpclr H 3 .x 3,
      .cntrd H false 7 3, .cntrd H true 0 3], Clear i (G [(3, 8)]) = true) ∧ inMode .l 8 = true ∧ S1.mine.dctl.getLsbD 0 = false ∧
    (S1.onMine fun k => { k with dctl := 1 }).mine.dctl.getLsbD 0 = true := by decide +kernel

/-! ### Witnesses: the steps of threads and of messages -/

theorem witness_Pairs_issue :
    ∀ p ∈ [(Instr.add H .d 3 4 5, Instr.vadd H .f32 .cur 4 5 6), (.mulImm H .w 0 3 7, .vxor H .i8 9 9 9)], ∃ w1 w2, decode w1 = .ok p.1 ∧
      decode w2 = .ok p.2 ∧ pairLegal w1 w2 = true ∧ (gValue S1.cx.regs S1 p.1).isSome = true ∧ (vLanes S1.cx.regs p.2).isSome = true ∧
      Clear p.1 S1 = true ∧ Clear p.2 S1 = true := by
  simp only [List.mem_cons, List.not_mem_nil, or_false, forall_eq_or_imp, forall_eq]
  exact ⟨⟨(encode (.add H .d 3 4 5)).getD 0, (encode (.vadd H .f32 .cur 4 5 6)).getD 0, by decide +kernel⟩,
    ⟨(encode (.mulImm H .w 0 3 7)).getD 0, (encode (.vxor H .i8 9 9 9)).getD 0, by decide +kernel⟩⟩
theorem witness_Pairs_traps : ∃ w1 w2 w3, decode w1 = .ok (.add H .d 3 4 5) ∧ decode w2 = .ok (.vadd H .f32 .cur 31 5 6) ∧
    decode w3 = .ok (.vext H true .i8 3 4 5) ∧ (usesOf (.vadd H .f32 .cur 31 5 6)).allotted Suser.cx.part = false ∧
    Clear (.add H .d 3 4 5) Suser = true ∧ sameDest (.add H .d 3 4 5) (.vadd H .f32 .cur 31 5 6) = false ∧
    sameDest (.add H .d 3 4 5) (.vext H true .i8 3 4 5) = true ∧ Suser.cx.pairOf = 0 ∧ Suser.cx.hnd = false ∧ Suser.cx.regs.trapvec ≠ 0 :=
  ⟨(encode (.add H .d 3 4 5)).getD 0, (encode (.vadd H .f32 .cur 31 5 6)).getD 0, (encode (.vext H true .i8 3 4 5)).getD 0, by decide +kernel⟩

/-- A thread about to issue from a line at 0x2000 that its core does not hold. -/
def Sline (bytes : List Host.Cell) (pte : Word := 0x10000000000000DF) : State :=
  (Smap [] bytes .free pte).onCx fun c => { c with pc := 0x2000, npc := 0x2000 }
/-- What its fetch gives. -/
def fetched (s : State) : Served :=
  ({ s with me := (0, 0), took := none } : State).gLoad (askerOf (s.ctx 0 0) (s.who 0 0)) .fetch 0x2000 64
theorem witness_ThreadSteps_fetch : (∀ s ∈ [Sline [], Sline [(0x2000, 1)], Sline [(0x203F, 0xC0)], Sline [] 0x1000000000000001],
      (s.core 0).runs = true ∧ (s.ctx 0 0).canIssue = true ∧ (s.core 0).holds (s.ctx 0 0).pc = false) ∧
    (match fetched (Sline []) with | .done l _ => lineParity l && !lineDefect l | _ => false) = true ∧
    (match fetched (Sline [(0x2000, 1)]) with | .done l _ => !lineParity l | _ => false) = true ∧
    (match fetched (Sline [(0x203F, 0xC0)]) with | .done l _ => lineParity l && lineDefect l | _ => false) = true ∧
    (match fetched (Sline [] 0x1000000000000001) with | .fail f _ => !f.absent | _ => false) = true := by decide +kernel

/-- The thread is in a state. -/
def Srun (r : Run) : State := S1.onCx fun c => { c with run := r, syncTurns := 65537 }
theorem witness_ThreadSteps_waits : 0 ≤ (Srun (.dozing 0)).coreNow 0 ∧ ((Srun (.dozing 0)).ctx 0 0).run = .dozing 0 ∧ (S1.ctx 0 1).run = .free ∧
    ((Srun (.parked .sync (.reply 5) .finish true)).ctx 0 0).limitPassed = true ∧ (S1.ctx 0 0).limitPassed = false ∧
    ((Srun (.parked .sync (.strip 24) .again true)).ctx 0 0).limitPassed = true := by decide +kernel
/-- A message is in the channels. -/
def Schan (s : State) (b : Body) : State := { s with chan := [{ born := 0, body := b }] }
theorem message_Schan (s : State) (b : Body) : (Schan s b).message 0 b := ⟨{ born := 0, body := b }, rfl, rfl⟩
/-- A LDS of the thread for the pool of core 3. -/
def rlds : Req := { who := S1.asker, place := .pool 3 0x40 true 0x80000, op := .lds, tag := 5, lane := none }
theorem witness_ThreadSteps_cancel : (Schan { S1 with homes := [rlds] } (.cancel 3 S1.whoMe 5)).unserved S1.whoMe 5 = true ∧
    (Srun (.parked .sync (.reply 5) .finish true)).live S1.whoMe = true ∧ S1.cx.hnd = false ∧ S1.cx.regs.trapvec ≠ 0 := by decide +kernel
theorem witness_ThreadSteps_stray : let s := { Schan S1 (.release { S1.whoMe with ctx := 31 } 0) with clk := 2 ^ 40 * 9 * 1000000 }
    (s.chan[0]?.bind fun m => s.directed m.body) = some { S1.whoMe with ctx := 31 } ∧ 0 + 1000000 ≤ s.now := by decide +kernel

/-- A buffered store wants to leave, alone or with one before it. -/
def Swant (w : Want) : State := (Ssb 2).onCx fun c => { c with want := w }
theorem witness_StoreSteps_drain : nextDrain 0 ((Swant .all).ctx 0 0) = some 0 ∧ nextDrain 0 ((Swant (.overlap [.glob 0x80 8])).ctx 0 0) = some 1 ∧
    (Swant .all).mine.freeJ = some 0 ∧ ((Swant .all).ctx 0 0).sb.length = 2 := by decide +kernel
/-- The thread has exited with stores left. -/
def Sleft : State := S1.onMine fun k => { k with residents := [{ launch := 1, live := 0, status := 0, left := [(S1.whoMe, sbe)], done := false }] }
theorem witness_StoreSteps_left : (Sleft.core 0).residents[0]? = some { launch := 1, live := 0, status := 0, left := [(S1.whoMe, sbe)], done := false } ∧
    (Sleft.core 0).freeJ = some 0 := by decide +kernel
/-- A store of the thread to a pool or to memory. -/
def rst (p : Place) (i : Nat) (m : BitVec 64) : Req :=
  { who := S1.asker, place := p, op := .store (BitVec.ofNat 512 (2 ^ 200 - 1)) m false i, tag := i, lane := none }
theorem witness_StoreSteps_deliver : (Schan S1 (.req (rst (.glob 0x40) 0 0xFF))).mayDeliver (rst (.glob 0x40) 0 0xFF) = true ∧
    (rst (.glob 0x40) 0 0xFF).op.toHome = true ∧
    (Schan (S1.onMine fun k => { k with jnl := [(1, { JEnt.reset with seq := 1 })] }) (.req (rst (.glob 0x40) 0 1)) : State).mayDeliver
      (rst (.glob 0x40) 1 1) = false := by
  decide +kernel
/-- Requests at the homes. -/
def Shome (s : State) (l : List Req) : State := { s with homes := l }
theorem witness_StoreSteps_pool : let r := rst (.pool 0 0x40 false 0x40) 0 0x8000000000000001
    let s := Shome S1 [r]
    s.mayServe 0 r = true ∧ (s.core 0).stopped = false ∧ (s.core 0).wps = [] ∧ (s.core 0).memWf = true ∧
    s.poolCheck 0 (0x40 / 64 * 64 + (maskSpan 0x8000000000000001).1) (maskSpan 0x8000000000000001).2 false r.who .w = none := by decide +kernel
theorem witness_StoreSteps_glob : let r := rst (.glob 0x40) 0 0xFF
    let s := Shome (Smap [] [] .free) [r]
    s.mayServe 0 r = true ∧ (match (s.taking 0).gStore r.who 0x40 (BitVec.ofNat 512 (2 ^ 200 - 1)) 0xFF false with | .done _ _ => true | _ => false) = true := by
  decide +kernel
theorem witness_StoreSteps_held (t : State) (w : Fwd) : (t.mem.fwds.length ≤ t.mem.fwds.length) ∧
    ({ t with mem := { t.mem with fwds := t.mem.fwds ++ [w] } } : State).mem.fwds = t.mem.fwds ++ [w] ∧ t.chan = t.chan ++ [] :=
  ⟨Nat.le_refl _, rfl, (List.append_nil _).symm⟩
theorem witness_StoreSteps_acks : (∀ f ∈ [none, some flt], (Schan (Sj .inFlight) (.storeAck 0 63 f)).inTime 0 = true) ∧
    (Schan S1 (.cancelBack S1.whoMe 5)).inTime 0 = true ∧ (Schan S1 (.release S1.whoMe 0)).inTime 0 = true ∧ ((Sj .inFlight).mine.jent 63).tag = none ∧
    (Sj .inFlight).gone { core := 0, ctx := ((Sj .inFlight).mine.jent 63).ctx, inc := ((Sj .inFlight).mine.jent 63).inc } = false := by decide +kernel
/-- A synchronising access to the thread's own pool at its home. -/
def rsync (op : ROp) : Req := { who := S1.asker, place := .pool 0 0x48 true 0x48, op := op, tag := 5, lane := none }
/-- Its word is full or empty, and the core's window lets it in. -/
def Sfe (op : ROp) (full : Bool) : State :=
  (Shome S1 [rsync op]).onMine fun k => { k with empties := if full then [] else [9], wins := [(0, 0x1FFFFFFF0000), (1, 1)] }
theorem witness_StoreSteps_ports : ∀ p ∈ [(ROp.lds, true), (.ldf, true), (.sts 77, false), (.feset, false), (.feclr, true), (.lds, false), (.sts 77, true)],
    let s := Sfe p.1 p.2
    s.mayServe 0 (rsync p.1) = true ∧ (s.core 0).stopped = false ∧ (s.core 0).wps = [] ∧ (s.core 0).waiters = [] ∧ (s.core 0).ppoison = [] ∧
      s.poolCheck 0 0x48 8 true S1.asker .sync = none ∧ (s.core 0).memWf = true ∧ (s.core 0).full 0x48 = p.2 := by decide +kernel

/-- A load of the thread from a pool or memory. -/
def rld (p : Place) (i : Nat) : Req := { who := S1.asker, place := p, op := .load 8 false, tag := i, lane := none }
theorem witness_AnswersLand_served : (let r := rld (.pool 0 0x48 false 0x48) 0
      let s := Shome S1 [r]
      s.mayServe 0 r = true ∧ s.poolCheck 0 0x48 8 false r.who .r = none ∧ (s.core 0).poisoned 0x48 8 = false) ∧
    (let r := rld (.glob 0x48) 0
      let s := Shome (Smap [] [] .free) [r]
      s.mayServe 0 r = true ∧ (match (s.taking 0).gLoad r.who .load 0x48 8 with | .done _ _ => true | _ => false) = true) ∧
    (let p := rld (.pool 0 0x48 false 0x48) 0
      let s := Shome S1 [p, rld (.pool 0 0x4C false 0x4C) 1]
      p.sameHome (rld (.pool 0 0x4C false 0x4C) 1) = true ∧ (({ s with homes := [] } : State).serve p).isSome = true) := by decide +kernel
/-- An answer. -/
def rep (tag : Nat) (f : Option RFault) : Reply :=
  { dst := S1.whoMe, tag := tag, data := BitVec.ofNat 512 0x1122334455667788, flags := 4, fault := f, lane := none }
theorem witness_AnswersLand_arrives : (Schan S1 (.reply (rep 5 none))).inTime 0 = true ∧ S1.live S1.whoMe = true ∧ (S1.core 0).prefs = [] := by decide +kernel
/-- A long result of the thread has its answer. -/
def Sland (p : Pend) (f : Option RFault) : State := S1.onCx fun c => { c with pend := [p], landing := [rep 0 f] }
theorem witness_AnswersLand_lands : (∀ p ∈ [S1.newPend (.g 9 .d 0), { S1.newPend (.v 3 (BitVec.allOnes 64)) with acq := true },
      { S1.newPend (.v 3 0) with left := 2 }], ∀ f ∈ [none, some flt],
    ((Sland p f).ctx 0 0).landing[0]? = some (rep 0 f) ∧ (((Sland p f).ctx 0 0).pend.find? fun q => q.tag == 0) = some p ∧
      ((Sland p f).ctx 0 0).replay = [] ∧ ((Sland p f).ctx 0 0).handles = []) ∧
    (S1.newPend (.g 9 .d 0)).left = 1 ∧ (S1.newPend (.g 9 .d 0)).xs = 0xFFFF ∧ (S1.newPend (.g 9 .d 0)).dest.pushes = none := by decide +kernel
theorem witness_AnswersLand_settles : let p : Pend := { S1.newPend (.g 9 .d 0) with landed := true }
    (S1.cx.pend ++ [p]).filter Pend.landed = [p] ∧ p.dest.pushes = none ∧ (∀ h ∈ S1.cx.handles, h.tag ≠ p.tag) ∧
    tget (S1.core 0).ctxs 0 = some S1.cx := by decide +kernel

/-- A taken branch at 0x40 is held for the entry, whose slot's word 0 may name that site or another. -/
def held1 : XHeld := { rep := .outcome true, pc := 0x40, kind := some 1 }
theorem witness_InstanceSteps_held : (∃ h ∈ [held1], (xVerdict 1 (h.pc - 0) h).2 = true) ∧
    ((Sx [{ xe none with held := [held1] }]).mine.xcache.find? fun x => x.id == 0) = some { xe none with held := [held1] } := by decide +kernel
theorem witness_InstanceSteps_experience : xFind (Sx [xe none]).mine.xcache 1 2 = some (xe none) ∧ (xe none).view = none ∧ (xe none).gone = false ∧
    (xe none).held = [] ∧ xFind S1.mine.xcache 1 2 = none ∧ tget ({ xe none with merging := [(4, [])] } : XEnt).merging 4 = some [] ∧
    ({ Sx [xe none] with chan := [] }.mine.xcache.find? fun x => x.id == 0) = some (xe none) := by decide +kernel

theorem witness_PagesAnswered_walk : let r : Req := { who := S1.asker, place := .unit, op := .walk 0 2 vol 0 0 1 [] false, tag := 5, lane := none }
    (match (Smap [] [] .free).serveWalk r with | .done _ _ => true | _ => false) = true ∧
    (match (Smap [] [] .free 0x1000000000000001).serveWalk r with | .fail _ _ => true | _ => false) = true ∧
    (match S1.serveWalk { r with who := { r.who with agent := .host } } with | .wait => true | _ => false) = true := by decide +kernel
/-- A store held at its stop until page 4 of tenant 0 is mapped. -/
def Sheld : State := { S1 with parked := [{ req := rst (.glob 0x4040) 0 0xFF, page := 4, answer := none }] }
theorem witness_PagesAnswered_store : ∀ p ∈ Sheld.cores, p.2.paged = [] := by decide +kernel
/-- A thread has been saved for page 4 of tenant 0; its core has room. -/
def Spaged : State :=
  { S1 with cores := [(0, { S1.core 0 with paged := [(3, { S1.cx with pageFault := true }, [(0x4000, none)])] })] }
theorem witness_PagesAnswered_thread : Spaged.cores = [(0, { S1.core 0 with paged := [(3, { S1.cx with pageFault := true }, [(0x4000, none)])] })] ∧
    S1.cx.expects = false ∧ S1.cx.cap = none ∧ S1.cx.replay = [] ∧ S1.cx.pend = [] ∧ fld (BitVec.ofNat 64 0x4000) 56 12 = 4 ∧
    ({ S1.core 0 with paged := [(3, { S1.cx with pageFault := true }, [(0x4000, none)])] } : Core).freeCtx = some 1 ∧ (S1.core 0).held = false ∧
    (S1.core 0).stopped = false := by decide +kernel

/-! ### Witnesses: the scheduler's steps -/

/-- A descriptor of n threads at 0x4000 with a partition word, an instance and flags (word 5 above the count). -/
def dsc (part : Word) (xinst : Nat) (n flags : Nat) : Line := L8 [0x4000, part.toNat, 0, xinst, 0, n + 2 ^ 32 * flags, 0, 0]
/-- A launch. -/
def lnch (d : Line) (st : LState) : Launch :=
  { placeLaunch with desc := d, st := st, next := 0, cores := [], sup := false }
/-- The device with that launch as number 1, waiting at level 2 of tenant 3. -/
def Squeue (part : Word) : State :=
  { S1 with sched := { S1.sched with launches := [(1, { lnch (dsc part 0 5 0) .queued with tenant := 3 })], weights := [(3, 2)]
                                     deficits := [(3 * 8 + 2, 40)], queue := [{ launch := 1, level := 2, tenant := 3, since := 0 }] }
            cores := [(0, { Core.reset with power := .awake })] }
theorem witness_SchedulerSteps_launch : ∀ d ∈ [(dsc 0x638 0 1 0).toNat, (dsc 0 0x100 (2 ^ 24) 0x50207).toNat],
    descBad sysIssuer false (BitVec.ofNat 512 d) = false ∧ S1.xinstBad (descTenant (BitVec.ofNat 512 d)) (BitVec.ofNat 512 d) = false ∧
    S1.sched.room (descPrio (BitVec.ofNat 512 d)) (descTenant (BitVec.ofNat 512 d)) = true := by decide +kernel
theorem witness_SchedulerSteps_refused : descBad sysIssuer false (dsc 0 0 0 0) = true ∧ descBad sysIssuer false (dsc 0 0 1 0x400) = true ∧
    descBad sysIssuer false (dsc 0 0 1 0) = false ∧ S1.xinstBad (descTenant (dsc 0 0 1 0)) (dsc 0 0 1 0) = false ∧
    ({ S1.sched with launches := List.replicate 16384 (1, placeLaunch) } : Sched).room (descPrio (dsc 0 0 1 0)) (descTenant (dsc 0 0 1 0)) = false := by
  decide +kernel
/-- A node of a graph. -/
def gnode (id : Nat) (succs : List Nat) : GNode := { id := id, desc := dsc 0x638 0 1 0, tenant := 0, sup := false, prio := 2, preds := 0, succs := succs }
/-- Graph 1 has a node. -/
def Sgraph : State := { S1 with sched := { S1.sched with graphs := [{ id := 1, tenant := 0, serial := false, nodes := [gnode 1 []] }], nextNode := 2 } }
theorem witness_SchedulerSteps_node : (∀ p ∈ [(1, 0), (0xFFFF, 0x400)], descBad sysIssuer true (dsc 0 0 p.1 p.2) = false ∧
      Sgraph.xinstBad (descTenant (dsc 0 0 p.1 p.2)) (dsc 0 0 p.1 p.2) = false) ∧ (Sgraph.sched.graphs.find? fun y => y.id == 1).isSome = true ∧
    Sgraph.sched.nodeCount = 1 ∧ (∀ y ∈ Sgraph.sched.graphs, ∀ v ∈ y.nodes, v.id ≠ Sgraph.sched.nextNode) ∧ (∀ y ∈ S1.sched.graphs, y.id ≠ 1) := by
  decide +kernel
/-- An instance of two nodes: the first has ended, the second waits for it and for others. -/
def Sinst (left : Nat) : State :=
  { S1 with sched := { S1.sched with insts := [{ id := 1, graph := 1, tenant := 0, serial := false, mbox := 0, st := 2, status := 0
                                                 nodes := [⟨gnode 1 [2], 0, .ended⟩, ⟨gnode 2 [], left, .waiting⟩] }], nextInst := 2 } }
theorem witness_SchedulerSteps_graph : ∀ n ∈ [1, 2],
    let s := Sinst n
    ((s.inst 1).bind fun x => x.nodes.find? fun m => m.node.id == 1 && m.st == .ended) = some ⟨gnode 1 [2], 0, .ended⟩ ∧
    (((s.inst 1).map fun x => x.nodes.filter fun m => decide ((m.freed ⟨gnode 1 [2], 0, .ended⟩).left = 0) &&
      decide ((m.freed ⟨gnode 1 [2], 0, .ended⟩).st = .waiting)) = if n = 1 then some [⟨gnode 2 [], 1, .waiting⟩] else some []) ∧
    descEvent (gnode 2 []).desc = false ∧ s.sched.room 2 0 = true := by decide +kernel

theorem witness_LaunchSteps_start : (let s := Squeue 0x638
      s.canStart = true ∧ partOk 0x638 = true ∧ (s.launch 1).isSome = true ∧
      0 < min (tgetD s.sched.deficits (3 * 8 + 2) 0 + (tgetD s.sched.weights 3 1 : Nat) * 1000) (8 * ((tgetD s.sched.weights 3 1 : Nat) : Int) * 1000)) ∧
    (let s := Squeue 0xC
     s.canStart = true ∧ partOk 0xC = false ∧ 0 < tgetD s.sched.weights 3 1 ∧ 0 < tgetD s.sched.deficits (3 * 8 + 2) 0) ∧
    S1.canStart = false := by
  decide +kernel
theorem witness_LaunchSteps_none : (Squeue 0x638).noneWaits = true ∧ (Squeue 0xC).noneWaits = true := by decide +kernel
theorem witness_LaunchSteps_times : (({ Squeue 0x638 with clk := 2 ^ 40 * 9 * 10000000 } : State).agingDue { launch := 1, level := 2, tenant := 3, since := 0 }) = true ∧
    ({ S1 with clk := 2 ^ 40 * 9 * 1000 } : State).sched.lastCharge + 1000 ≤ ({ S1 with clk := 2 ^ 40 * 9 * 1000 } : State).now := by decide +kernel
/-- A launch of five threads runs, of which one has started, and cores are there as said. -/
def Sstart (cores : Tab Core) : State :=
  { S1 with sched := { S1.sched with launches := [(1, { lnch (dsc 0x638 0 5 0) .running with next := 1 })] }, cores := cores }
/-- An awake core that holds no launch. -/
def vacantCore : Core := { Core.reset with power := .awake, empties := [3] }
theorem witness_LaunchSteps_threads : (∀ l ∈ ([[(7, vacantCore)], [(7, { S1.core 0 with tenant := 0 })]] : List (Tab Core)),
      ((Sstart l).startPlace 1).map (fun p => p.2) = some 7 ∧ ({ (Sstart l).core 7 with part := some 0x638 } : Core).freeCtx.isSome = true) ∧
    (Sstart []).startPlace 1 = none := by decide +kernel
theorem witness_LaunchSteps_power : ({ Sstart [(7, vacantCore)] with clk := 2 ^ 40 * 9 * 20000 } : State).gateDue 7 = true ∧
    ((Sstart [(7, { vacantCore with power := .waking 0 })]).core 7).power = .waking 0 ∧
    (let s := Sstart [(8, { vacantCore with power := .awake, dead := true })]
     (s.core 9).power = .gated ∧ s.wanting.isSome = true) := by decide +kernel
/-- Any package power estimate is within the limit. -/
def Spower : State :=
  let s := Sstart [(8, { vacantCore with power := .awake, dead := true })]
  { s with sched := { s.sched with plimit := 2 ^ 32 } }
theorem witness_LaunchSteps_wake : Spower.worthWaking 0x638 0 9 = true := by
  have h : Spower.powerOk = true := decide_eq_true (Nat.le_of_lt (Nat.mod_lt _ (by decide)))
  have e : Spower.expectedWait 0x638 0 = none := by decide +kernel
  simp only [State.worthWaking, e, State.wakeable, h, Option.all_none, Bool.and_true]
  decide +kernel
/-- A resident of launch 1 that has no thread left. -/
def ended (d : Bool) : Resident := { launch := 1, live := 0, status := 0x01000002, left := [], done := d }
/-- All threads of the launch have started, on the cores listed. -/
def Send (cores : List Nat) (done : Bool) : State :=
  { S1 with sched := { S1.sched with launches := [(1, { lnch (dsc 0x638 0 5 0) .running with next := 5, cores := cores })] }
            cores := cores.map fun c => (c, { vacantCore with residents := [ended done] }) }
theorem witness_CompletionTree_done : (Send [3, 4] false).coreDone 4 1 = true ∧ [3, 4].findIdx? (· == 4) = some (0 + 1) ∧ childrenOf [3, 4] 1 = [] ∧
    ((Send [3, 4] false).core 4).residents.find? (fun r => r.launch.toNat == 1) = some (ended false) ∧ (Send [3] false).coreDone 3 1 = true := by
  decide +kernel
theorem witness_CompletionTree_combine : (Send [3, 4, 5] false).launch 1 ≠ none ∧ [3, 4, 5].findIdx? (· == 5) = some 2 ∧
    (((Send [3, 4, 5] false).core 3).residents.any fun r => r.launch.toNat == 1 && r.done) = false ∧
    ((Send [3, 4] true).core 3).residents.find? (fun r => r.launch.toNat == 1 && r.done) = some (ended true) ∧
    (Send [3] false).noneWaits = true ∧ (Send [3, 4] true).noneWaits = true := by decide +kernel

/-- An image of one text section of 64 zero bytes at base 0x200000; its SM3 hash was computed outside the model. -/
def img : List Byte := ([82, 79, 88, 1, 1, 0, 1, 0, 0, 0, 0, 0, 0, 0, 0, 0, 0, 0, 32, 0, 0, 0, 0, 0, 0, 0, 0, 0, 0, 0, 0, 0] ++ [213, 202, 127, 235, 246, 245, 173, 132, 232, 28, 235, 143, 86, 37, 92, 239, 91, 169, 77, 231, 12, 152, 198, 199, 6, 131, 135, 21, 188, 15, 104, 130] ++ [1] ++ List.replicate 7 0 ++ [96, 0, 0, 0, 0, 0, 0, 0, 64] ++
  List.replicate 79 0).map (BitVec.ofNat 8)
/-- Tenant 0 has a root table, of zeros. -/
def Sroot : State := { S1 with mem := { S1.mem with roots := [(0, 0x5000)] } }
theorem witness_InstanceSteps_image : imgOk img = true ∧ imgOk [] = false ∧ hashOk img = true ∧ hashOk (img.take 159 ++ [1]) = false ∧
    imagePages 0x200000 [imgSection img 0] = [(0x200, 0x1B)] ∧ tget Sroot.mem.roots (BitVec.ofNat 16 0).toNat = some 0x5000 ∧
    (∀ f ∈ [16, 17, 18, 19, 20], (physStop (4096 * f)).isSome = true) ∧ Sroot.unmapped 5 [(0x200, 0x1B)] = true := by decide +kernel
/-- Launch 1 with an instance at 0x10000, in a state, not filled. -/
def Sximg (st : LState) : State :=
  { withImg S1 with sched := { S1.sched with launches := [(1, { lnch (dsc 0x638 0x10000 5 0) st with filled := false, sealed' := false })] } }
theorem witness_InstanceSteps_fill : ((Sximg .queued).imageOf 0 0x10000).isSome = true ∧ ((Sximg .queued).launch 1).isSome = true ∧
    S1.imageOf 0 0x10000 = none ∧ (Sximg .done).sealDue 1 = true ∧ partFrzx (descW (dsc 0x638 0x10000 5 0) 1) = false ∧
    ({ Sximg .done with images := [] } : State).imageOf 0 0x10000 = none := by decide +kernel

/-- A group of handle 5 of launch 1 with members 0 and 1 and pending requests. -/
def grp (arrived : List Who) (joins : List (Who × Nat)) (leaves : List (Who × Option Nat)) : Group :=
  { launch := 1, handle := 5, members := [⟨0, 0, 1⟩, ⟨0, 1, 1⟩], size := 2, arrived := arrived, count := arrived.length, joins := joins, leaves := leaves }
/-- Those groups exist. -/
def Sgrp (l : List Group) : State := { S1 with sched := { S1.sched with groups := l } }
theorem witness_GroupSteps_joins : (Sgrp []).sliceFenced 1 5 = false ∧ (Sgrp []).group 1 5 = none ∧ (Sgrp []).sliceLoad ((Sgrp []).slice 1 5) < 256 ∧
    (Sgrp [grp [] [] []]).group 1 5 = some (grp [] [] []) ∧ (grp [] [] []).count = 0 ∧ (Sgrp [grp [⟨0, 0, 1⟩] [] []]).group 1 5 = some (grp [⟨0, 0, 1⟩] [] []) ∧
    (grp [⟨0, 0, 1⟩] [] []).count ≠ 0 ∧ (Sgrp []).joinFirst ⟨0, 0, 1⟩ 5 = false := by decide +kernel
theorem witness_GroupSteps_phase : ((Srun (.parked .sync (.handle 5) (.phaseDone 5) false)).ctx 0 0).inPhase 5 = true ∧
    (Srun (.parked .sync (.handle 5) (.phaseDone 5) false)).live S1.whoMe = true ∧ ((Shd .member true (some false)).ctx 0 0).inPhase 5 = false ∧
    (Schan (Srun (.parked .sync (.handle 5) (.phaseDone 5) false)) (.release S1.whoMe 5)).inTime 0 = true := by decide +kernel
theorem witness_GroupSteps_full : 256 ≤ (Sgrp (List.replicate 256 { grp [] [] [] with launch := 2 })).sliceLoad ((Sgrp []).slice 1 5) ∧
    (Sgrp (List.replicate 256 { grp [] [] [] with launch := 2 })).group 1 5 = none := by decide +kernel
theorem witness_GroupSteps_arrives : (let g := grp [] [] []
      ({ g with arrived := g.arrived ++ [⟨0, 0, 1⟩], count := g.count + 1 } : Group).count ≠ g.total ∧ g.total ≠ 0) ∧
    (let g := grp [⟨0, 0, 1⟩] [(⟨0, 2, 1⟩, 7)] [(⟨0, 0, 1⟩, some 8)]
      let a : Group := { g with arrived := g.arrived ++ [⟨0, 1, 1⟩], count := g.count + 1 }
      a.count = a.total ∧ a.next.total ≠ 0) ∧ (Shd .member true (some false)).live ⟨0, 0, 1⟩ = true ∧
    ((Shd .member true (some false)).ctx 0 0).hent 5 ≠ none := by decide +kernel

/-! ### Witnesses: the engines and the levels -/

/-- The copy unit of core 0 does an operation for the thread. -/
def cop (op : KOp) (e : Line) (a : Agent) : COp :=
  { id := 9, who := S1.asker.engine a, core := 0, op := op, entry := e, done := 0, fault := none, stages := 0 }
/-- The core with that operation, its handle 2 busy, its pool as listed. -/
def Scop (o : COp) (bytes : List Host.Cell) : State :=
  (Smap [] [] .free).onMine fun k => { k with copies := [o], handles := [(2, { bits := 0, busy := true, fault := none })], pool := bytes }
/-- A copy of two chunks from the pool to the pool. -/
def ocpy : COp := cop (.cpy .l .l 2 0x1000 0x40 1024) 0 (.copy 0)
/-- What an operation's work leaves: the state, and the stores in its buffer. -/
def worked (s : State) (o : COp) (chunk : Nat) (lane : Option Nat) : Option (EX × EBuf) :=
  match o.work 0 chunk ((s.core 0).cb (cbOf o)) ((s.setEbuf (EBuf.open' o.who.agent o.id lane)).engine o.who o.id lane) with
  | .ok y => (y.s.ebuf o.who.agent).map fun b => (y, b)
  | .error _ => none
/-- The step of an operation of core 0 can be performed, and its stores go into the buffer. -/
def canWork (s : State) (o : COp) (chunk : Nat) (lane : Option Nat) (stores : Bool) : Bool :=
  decide ((s.core 0).copy o.id = some o) && s.opReady 0 chunk o && decide (s.ebuf o.who.agent = none) && !s.pageWait o.who o.id lane &&
  (worked s o chunk lane).any fun p => p.2.ents.isEmpty != stores && (stores || decide ((p.1.s.core 0).cbs = (s.core 0).cbs))
theorem witness_TransfersStep_chunk : canWork (Scop ocpy [(0x40, 1)]) ocpy 1 (some 1) true = true ∧
    ocpy.doneBy 0 1 (.chunkComplete 0 9 1) (some 1) := ⟨by decide +kernel, rfl, rfl⟩
theorem witness_TransfersStep_line : let o := cop (.cpy .l .l 2 0x1000 0x40 64) 0 (.copy 0)
    let s := Scop o [(0x40, 1)]
    (s.core 0).copy 9 = some o ∧ s.engineOn 0 = true ∧ s.ebuf o.who.agent = none ∧ s.bufUsed o.who.agent < 32 ∧ s.mem.fwds = [] ∧
    s.pageWait o.who 9 (some 0) = false ∧ (s.core 0).memWf = true ∧ (s.core 0).wps = [] ∧
    (s.core 0).poisoned 0x40 64 = false ∧ s.poolCheck 0 0x40 64 true o.who .r = none ∧ s.poolCheck 0 0x1000 64 true o.who .w = none := by decide +kernel
/-- A copy from the pool into buffer 1, whose stages hold 128 bytes. -/
def ostage : COp := cop (.cpy .cb .l 2 1 0x40 256) 0 (.copy 0)
def Sstage : State := (Scop ostage [(0x40, 1)]).setBuf 1
  { CBuf.reset with set := true, role := 1, base := 0x1000, count := 2, size := 128, free := 2 }
theorem witness_TransfersStep_stage : canWork Sstage ostage 0 none true = true ∧ ostage.doneBy 0 0 (.cbStageWrite 0 9) none := ⟨by decide +kernel, rfl, rfl⟩
/-- A deal of lines over the cluster of core 0, one line to each core from core 0 on. -/
def odeal (n : Nat) : COp := cop (.deal false 3 0x3000 0x0002000100000040 0x100 n) 0 (.cluster 0)
theorem witness_TransfersStep_deal : canWork (Scop (odeal 128) []) (odeal 128) 0 (some 0) true = true ∧
    canWork (Scop (odeal 0) []) (odeal 0) 0 (some 0) false = true ∧ (odeal 128).doneBy 0 0 (.dealComplete (9 * 8192)) (some 0) :=
  ⟨by decide +kernel, by decide +kernel, rfl, rfl, by decide⟩
/-- A gather of two rows of 16 bytes by a list of i64 in the pool. -/
def ogath : COp := cop (.gather false true .l .l 0 7 3 0x40 0x200 2) (L8 [2 + 2 ^ 14, 0, 16 * 2 ^ 32, 0, 0, 0, 0, 0]) (.copy 0)
theorem witness_TransfersStep_gather : canWork (Scop ogath [(0x40, 0x80)]) ogath 0 none true = true ∧ ogath.doneBy 0 0 (.gatherComplete 0 9) none :=
  ⟨by decide +kernel, rfl, rfl⟩
/-- A store of the operation to a place is at the head of its buffer, or there is none. -/
def Sbuf (s : State) (o : COp) (lane : Option Nat) (l : List Place) : State :=
  s.setEbuf { EBuf.open' o.who.agent o.id lane with ents := l.map fun p => { who := o.who, pl := p, data := 5, mask := allBytes } }
/-- How that store ends: 0 applied, 1 refused, 2 its page is absent, 3 it waits. -/
def storeEnd (s : State) (p : Place) : Nat :=
  match s.eStore ocpy.who p 5 allBytes with
  | .done _ _ => 0
  | .fail f _ => if f.absent then 2 else 1
  | _ => 3
theorem witness_TransfersStep_stores :
    storeEnd (Scop ocpy []) (.pool 0 0x1000 true 0x1000) = 0 ∧ storeEnd (Scop ocpy []) (.glob 0x1000) = 0 ∧
    storeEnd (Smap [] [] .free 0x1000000000000001) (.glob 0x1000) = 1 ∧ storeEnd Sroot (.glob 0x1000) = 2 ∧
    storeEnd { Smap [] [] .free 0x18000000000000DF with mem := { (Smap [] [] .free 0x18000000000000DF).mem with
      replicas := [(0, { frames := [(0, 5)], removed := [(3, 1)] })] } } (.glob 0x1000) = 3 ∧
    (∀ l ∈ [[], [Place.pool 0 0x1000 true 0x1000]], let s := Sbuf (Scop ocpy []) ocpy (some 1) l
      (s.core 0).copy 9 = some ocpy ∧ s.opReady 0 1 ocpy = true ∧ ((s.ebuf ocpy.who.agent).map fun b => b.ents.length) = some l.length ∧
      s.pageWait ocpy.who 9 (some 1) = false ∧ s.heldFor ocpy.who 9 (some 1) = none ∧ s.mem.fwds = []) := by decide +kernel
theorem witness_TransfersStep_strip : let st := stream false []
    let s := Sst st
    tget (s.ctx 0 0).streams 24 = some st ∧ st.wants = true ∧ (s.ctx 0 0).run ≠ .free ∧ s.engineOn 0 = true ∧
    (let a := (askerOf (s.ctx 0 0) (s.who 0 0)).engine (.copy 0)
     s.pageWait a (streamTag 0 24) none = false ∧
     (match (s.engine a (streamTag 0 24) none).load (enginePlace 0 .l (modeAdd .l st.base (st.off (st.next + st.ahead.length)))) 64 with
      | .ok _ => true | _ => false) = true) := by
  decide +kernel
theorem witness_TransfersStep_notices : ∀ r ∈ [2, 3], ((Scb r 1 1 0 0).mine.cb 0).set = true ∧ ((Scb r 1 1 0 0).mine.cb 0).role = r ∧
    (Scb r 1 1 0 0).fenced 0 = false ∧ ((Scb r 1 1 0 0).core 0).stopped = false := by decide +kernel

theorem witness_KicksAccepted : (∀ p ∈ [(Lvl.L1, 1), (.L2, 2), (.L3, 3), (.L4, 4), (.L5, 5)], (S1.unit (lvlNo p.1) (unitOf (lvlNo p.1) 0)).queue.length < queueCap (lvlNo p.1)) ∧
    queueCap 1 ≤ ((S1.onUnit 1 0 fun u => { u with queue := List.replicate 8 (newCard 0 0 S1.asker 0 none false none) }).unit 1 0).queue.length ∧
    (stream true []).ready = true ∧ ({ stream true [] with ready := false } : Stream).ready = false ∧
    S1.pageWait (S1.asker.engine (.copy 0)) (kickTag S1.whoMe) (some 5) = false ∧ (∀ h ∈ S1.parked, h.req.op ≠ .pref) ∧
    (match (Smap [] [] .free).gLoad (S1.asker.engine .package) .load 0x40 64 with | .done _ _ => true | _ => false) = true := by decide +kernel
/-- An operation's step is held for a page that has been answered. -/
def hold (op : Nat) (lane : Option Nat) : Held :=
  { req := { who := S1.asker.engine (.copy 0), place := .glob 0x40, op := .pref, tag := op, lane := lane }, page := 0, answer := some true }
theorem witness_KicksAccepted_stops : ∀ k ∈ [KOp.card .L1 5, .cpy .l .g 2 0 0 64, .deal true 3 0 0 0 64, .sdrop 24 (stream true []), .launch 0],
    S1.kickStopped 0 k = false := by decide +kernel
theorem witness_KicksAccepted_retry : (hold 9 (some 1)).req.op = .pref ∧ (hold 9 none).answer.isSome = true ∧ (hold 9 none).req.tag = 9 ∧
    (hold 9 none).req.who.agent = .copy 0 ∧ ((Scop ocpy []).core 0).copy 9 = some ocpy ∧ (Sstage.core 0).copy 9 = some ostage ∧
    ((Scop ogath []).core 0).copy 9 = some ogath ∧ (S1.core 0).copy 9 = none ∧ (odeal 128).who.agent = .cluster 0 ∧
    tget ((Sst (stream true [])).ctx 0 0).streams 24 = some (stream true []) ∧
    tget ((Sst (stream false [])).ctx 0 0).streams 24 = some (stream false []) := by decide +kernel
/-- A kick of the thread for core 0 is on its way. -/
def Skick : State := Schan S1 (.req { who := S1.asker, place := .unit, op := .kick (.cpy .l .g 2 0 0 64), tag := 5, lane := none })
theorem witness_KicksAccepted_kick : let h := hold (kickTag S1.whoMe) (some 5)
    2 ^ 30 ≤ h.req.tag ∧ h.req.tag < 2 ^ 31 ∧ Skick.chan.findIdx? (fun m => match m.body with
        | .req r => m.body.isKick && some r.tag == h.req.lane &&
          (match r.who.thread? with | some w => w.core == 0 && kickTag w == h.req.tag | none => false)
        | _ => false) = some 0 := by decide +kernel

/-! ### Witnesses: the levels' cards -/

/-- A card of a level that works on slots and a tile, of even parity; without slots it names no operands. -/
def slcard (lvl : Nat) (sl : Bool) : Line := sealCard
  ([(0, 7 + 256 * lvl + 2 ^ 14 + (if sl then 2 ^ 15 else 0)), (1, 0x07FF0100), (10, 32 + 4 * 64), (11, 32)].foldl
    (fun c p => setWord32 c p.1 (BitVec.ofNat 32 p.2)) 0) 0
/-- That card as a record. -/
def rcard (lvl : Nat) (sl acc : Bool) : CardRec := { newCard 3 (slcard lvl sl) S1.asker 0 none false none with accepted := acc }
/-- A unit holds cards. -/
def Scards (lvl unit : Nat) (l : List CardRec) : State := (Smap [] [] .free).onUnit lvl unit fun q => { q with queue := l, next := 9 }
theorem witness_CardSteps_accept : ∀ p ∈ [(Lvl.L1, true), (.L2, true), (.L1, false)], let r := rcard (lvlNo p.1) p.2 false
    let s := Scards (lvlNo p.1) 0 [r]
    let own := r.who.engine (unitAgent (lvlNo p.1) 0)
    (s.unit (lvlNo p.1) 0).queue[0]? = some r ∧ parityOk r.card = true ∧ isFence r.card = false ∧ isCollective r.card = false ∧
      s.pageWait own (cardTag r.id) none = false ∧
      (match ({ s := s, own := own, a := own, tag := cardTag r.id, lane := none } : CX).entries r 4 [] with | .ok _ => true | _ => false) = true := by
  decide +kernel
/-- A card whose parity is odd. -/
def rodd (n : Nat) : CardRec := { rcard 1 true false with card := slcard 1 true ^^^ 1, parityTries := n }
theorem witness_CardSteps_parity : ∀ n ∈ [0, 1],
    (Scards 1 0 [rodd n]).unit 1 0 |>.queue.find? (fun r => !r.accepted && !r.ran && !parityOk r.card) |>.isSome := by decide +kernel
/-- The sequencer's claim for card 3. -/
def seqc (g : Option (BitVec 32)) : Claim := { id := 4, who := none, n := 4, card := 3, granted := g }
/-- Core 0 with claims. -/
def Sclaims (l : List Claim) : State := (Scards 1 0 [rcard 1 false true]).onMine fun k => { k with claims := l }
theorem witness_CardSteps_claims : ((Sclaims []).unit 1 0).queue = [rcard 1 false true] ∧ isFence (rcard 1 false true).card = false ∧
    (Sclaims []).engineOn 0 = true ∧ cardSL (rcard 1 false true).card = false ∧ ((Sclaims []).core 0).seqClaim 3 = none ∧
    ((Sclaims [seqc (some 15)]).core 0).seqClaim 3 = some (seqc (some 15)) ∧
    ((Sclaims [seqc none]).core 0).claims.find? (fun c => c.granted.isNone) = some (seqc none) ∧
    4 ≤ (((Sclaims [seqc none]).core 0).freeSlots 4).length := by decide +kernel
/-- A sequencer's buffer of the card, with stores to the places listed; its step has done one unit. -/
def cbuf (l : List Place) : EBuf :=
  { own := .seqr 0, tag := cardTag 3, lane := some 0, fault := none, note := [1, 0, 1]
    ents := l.map fun p => { who := S1.asker.engine (.seqr 0), pl := p, data := 5, mask := allBytes } }
/-- That card with a FP32 tensor in the pool as D. -/
def rstore : CardRec :=
  { rcard 1 true true with card := setWord32 (slcard 1 true &&& ~~~0x4000) 10 257, ents := [0, 0, 0, L8 [1, 0x1000, 1 + 2 ^ 32, 1, 0, 0, 0, 0]] }
theorem witness_CardSteps_run : ∀ p ∈ [(rcard 1 true true, false), (rstore, true)], let r := p.1
    let s := Scards 1 0 [r]
    let own := r.who.engine (.seqr 0)
    (s.unit 1 0).queue = [r] ∧ s.engineOn 0 = true ∧ cardSL r.card = true ∧ cardOp r.card ≠ 0x0A ∧ s.pageWait own (cardTag r.id) (some 0) = false ∧
    s.ebuf own.agent = none ∧
    (match ({ s := s.setEbuf (EBuf.open' own.agent (cardTag r.id) (some 0)), own := own, a := own, tag := cardTag r.id, lane := some 0 } : CX).step
        (some 0) r r.at' with | .ok (_, _, _, x) => (x.s.ebuf own.agent).any fun b => b.ents.isEmpty != p.2 | _ => false) = true ∧
    (let u := s.setEbuf (cbuf [.pool 0 0x1000 true 0x1000])
     (u.ebuf own.agent).isSome = true ∧ (u.unit 1 0).queue = [r] ∧
       (match u.eStore own (.pool 0 0x1000 true 0x1000) 5 allBytes with | .done _ _ => true | _ => false) = true) ∧
    (let u := s.setEbuf (cbuf [])
     u.ebuf own.agent = some (cbuf []) ∧ (u.unit 1 0).queue = [r] ∧ u.mem.fwds = []) := by
  decide +kernel
/-- A child of card 3 for unit 0, sent or not, done or not. -/
def kid (sent done : Bool) : Child := { no := 0, unit := 0, card := slcard 1 true, part := false, pairs := none, sent := sent, done := done, tries := 0, resume := 0 }
/-- The card of level 2 with children. -/
def rkids (l : List Child) : CardRec := { rcard 2 true true with children := l }
theorem witness_CardSteps_split : ∀ l ∈ [[], [kid false false]], let s := Scards 2 0 [rkids l]
    s.unitOn 2 0 = true ∧ (s.unit 2 0).queue.find? (fun r => !r.ran && r.accepted && r.combines && r.heard && r.code == 0) = none ∧
      (s.unit 2 0).queue.find? (fun r => !r.issued && !r.ran) = some (rkids l) ∧ behindFence (s.unit 2 0).queue 3 = false ∧
      isCollective (rkids l).card = false ∧ (s.unit 1 0).queue.length < queueCap 1 := by decide +kernel
theorem witness_CardSteps_report : (Scards 2 0 [rkids [kid true false]]).unit 2 0 |>.queue.find? (fun r => r.id == 3) |>.any (fun r =>
    decide (r.children.find? (fun c => c.no == 0) = some (kid true false))) := by decide +kernel
/-- A fence or a child card that is done. -/
def rdone (card : Line) (p : Option (Nat × Nat × Nat × Nat)) : CardRec := { rcard 1 true true with card := card, parent := p, ran := true, issued := true }
theorem witness_CardSteps_retire : firstDone 2 ((Scards 2 0 [rdone (slcard 2 true) (some (3, 0, 3, 0))]).unit 2 0).queue = some (rdone (slcard 2 true) (some (3, 0, 3, 0))) ∧
    firstDone 1 ((Scards 1 0 [rdone 0x10E none]).unit 1 0).queue = some (rdone 0x10E none) ∧ cardMbox (rdone 0x10E none).card = 0 ∧
    isCollective (rdone 0x10E none).card = false ∧ firstDone 2 ((Scards 2 0 []).unit 2 0).queue = none := by decide +kernel
/-- A card that names a mailbox at 0x2040. -/
def rmail : CardRec := rdone (slcard 2 true ||| BitVec.ofNat 512 (0x2040 * 2 ^ 384)) none
theorem witness_CardSteps_mailbox : let s := Scards 2 0 [rmail]
    firstDone 2 (s.unit 2 0).queue = some rmail ∧ cardMbox rmail.card = 0x2040 ∧ isCollective rmail.card = false ∧
    (match (s.onUnit 2 0 fun q => { q with queue := q.queue.filter fun x => x.id != rmail.id }).gStore (rmail.who.engine (unitAgent 2 0)) 0x2040
      5 (byteMask 0 16) false with | .done _ _ => true | _ => false) = true := by decide +kernel

/-! ### Witnesses: fabric, debug, reliability, the system, and the step -/

/-- Group 3 with a barrier in progress: one arrival of this device's single thread, and the ranks listed; a timeout of 5 ms. -/
def Sfbar (ranks : List Nat) : State :=
  { Sfg 1 with clk := 2 ^ 40 * 9 * 6000000, fabric := { (Sfg 1).fabric with words1 := [(3, 5)], bars := [(3, {
      count := 1, local' := [(S1.whoMe, 5)], ranks := ranks, timer := { elapsed := 0, from' := some 0, held := [2] } })] } }
theorem witness_FabricSteps_barrier : ((Sfg 1).fgroup 3).getLsbD 0 = true ∧ 3 < fgSize ((Sfg 1).fgroup 3) ∧ 3 ≠ fgRank ((Sfg 1).fgroup 3) ∧
    3 ∉ ((Sfbar [1]).fbar 3).ranks ∧ ((Sfbar [3, 2, 1, 0]).fbar 3).count ≠ 0 ∧
    (∀ r < fgSize ((Sfbar [3, 2, 1, 0]).fgroup 3), r ∈ ((Sfbar [3, 2, 1, 0]).fbar 3).ranks) := by decide +kernel
theorem witness_FabricSteps_timeout : let s := Sfbar [1]
    (s.fbar 3).local' ≠ [] ∧ s.fbarFull 3 = false ∧ fld (tgetD s.fabric.words1 3 0) 15 0 = 5 ∧ 5 * 1000000 < (s.fbar 3).timer.at' s.now ∧
    tget s.fabric.timers 3 = none ∧ (S1.fbar 3).local' = [] ∧ tget S1.fabric.timers 3 = none := by decide +kernel
/-- Replica set 7 has the lead at this device and a frame at peer 2; one at peer 3 is being removed. -/
def Srepl : State := { S1 with mem := { S1.mem with replicas := [(7, { frames := [(0, 4), (2, 9)], removed := [(3, 1)] })] } }
theorem witness_FabricSteps_replicas : tget Srepl.mem.replicas 7 = some { frames := [(0, 4), (2, 9)], removed := [(3, 1)] } ∧
    noDup [0, 2] = true ∧ (∃ f ∈ [(0, 4), (2, 9)], f ∉ [2 * 2 ^ 40 + 9].map frameOf) := by decide +kernel

/-- Breakpoint 2 stands at the thread's next instruction; a debugger is attached or not. -/
def Sbp (d : BitVec 4) : State := S1.onMine fun k => { k with dctl := d, pcbp := [(2, 2 ^ 63)] }
theorem witness_DebugSteps_breakpoint : (Sbp 0).bpAt 0 0 = some (2, 0) ∧ (Sbp 1).bpAt 0 0 = some (2, 0) ∧ ((Sbp 0).core 0).dctl.getLsbD 0 = false ∧
    ((Sbp 1).core 0).dctl.getLsbD 0 = true ∧ ((Sbp 0).ctx 0 0).hnd = false ∧ ((Sbp 0).ctx 0 0).regs.trapvec ≠ 0 ∧ ((Sbp 0).ctx 0 0).half = 0 := by
  decide +kernel
/-- A stop of scope 2 or 3 is on its way to core 0. -/
def Sstop (edge : Bool) (s : State := S1) : State :=
  { s with dbg := { s.dbg with stops := [{ scope := 3, core := 9, hit := 0, edge := edge, extra := [], reached := [], halts := [⟨0, 0, 1⟩], noted := false }] } }
theorem witness_DebugSteps_stop : (∀ e ∈ [false, true], (Sstop e).stopFor 0 = some 0 ∧ ((Sstop e).core 0).occupied = [0] ∧ ((Sstop e).ctx 0 0).halted = false ∧
      ((Sstop e).ctx 0 0).edgeWait = none ∧ (Sstop e).stopFor 5 = some 0 ∧ ((Sstop e).core 5).occupied = [] ∧ (Sstop e).dbg.stops.length = 1) := by
  decide +kernel
/-- The context is halted, or waits for a region edge. -/
def Shalt (h : Bool) (e : Option Nat) : State := S1.onCx fun c => { c with halted := h, edgeWait := e }
theorem witness_DebugSteps_halted : ((Shalt false (some 4096)).core 0).dedge ≠ 0 ∧ ((Shalt false (some 4096)).core 0).dedge.toNat ≤ 4096 ∧
    ((Shalt false (some 4096)).ctx 0 0).edgeWait = some 4096 ∧ (S1.ctx 0 0).halted = false ∧ ((Shalt true none).ctx 0 0).halted = true ∧
    ((Shalt true none).ctx 0 0).run = .ready ∧ S1.dbg.stops = [] ∧ (tget (Shalt true none).cores 0).isSome = true ∧ S1.boot.portBuf = [] ∧
    ((Sgrp [grp [] [] []]).group ((Sgrp [grp [] [] []]).ctx 0 0).launch 5) = some (grp [] [] []) := by decide +kernel
theorem witness_DebugSteps_time : (let e : EngStep := { core := 0, limit := 0, cores := [], copies := [], cards := [] }
      ({ S1 with dbg := { S1.dbg with stepEngines := some e } } : State).dbg.stepEngines = some e ∧ e.core = 0 ∧ e.limit ≤ S1.cycle) ∧
    (Sstop false (Shalt true none)).dbg.stops.any (fun d => d.covers 0 && d.has 0 0 ((Shalt true none).ctx 0 0)) = true ∧
    (∀ d ∈ (Sstop false).dbg.stops, d.covers 0 = true) ∧ tget S1.cores 0 = some (S1.core 0) ∧
    ({ S1 with clk := 2 ^ 40 * 9 * 2 ^ 14 } : State).dbg.tick < tickAt ({ S1 with clk := 2 ^ 40 * 9 * 2 ^ 14 } : State).now S1.dbg.tickExp ∧
    (-(2 ^ 40 / 1000) ≤ (1 : Word).toInt ∧ (1 : Word).toInt ≤ 2 ^ 40 / 1000) := by decide +kernel

/-- A machine check. -/
def chk (kind : BitVec 8) (lasting : Bool) : MCheck := { kind := kind, lasting := lasting, unit := 0, addr := 0x47, core := 0, ctx := 0 }
theorem witness_ReliabilitySteps_checks : (chk 2 false).lasting = false ∧ (chk 1 true).kind = 1 ∧ (S1.ctx (chk 1 true).core (chk 1 true).ctx).run ≠ .free ∧
    (chk 1 false).kind = mcFETCH ∧ (chk 1 false).unit = BitVec.ofNat 32 0 ∧ (chk 2 true).kind = 2 ∧ (chk 2 false).kind ≠ mcFETCH ∧
    (chk 4 true).lasting = true ∧ (chk 4 true).kind = 4 ∧ ((Srun .stopped).ctx 0 0).run = .stopped := by decide +kernel
theorem witness_ReliabilitySteps_pairs : (S1.onMine fun k => { k with part := some (0x638 + 2 ^ 11) }).pairRuns 0 = true ∧
    S1.pairRuns 0 = false ∧ tgetD (S1.replay 0).rel.mismatch 0 0 = 0 ∧
    tgetD (({ S1 with rel := { S1.rel with mismatch := [(0, 1)] } } : State).replay 0).rel.mismatch 0 0 ≠ 0 ∧ (S1.ctx 0 0).run ≠ .free := by decide +kernel
theorem witness_ReliabilitySteps_clusters : S1.rect 0 = 0 ∧ (∀ c, c ≠ 0 → S1.rect c ≠ 0) ∧ 0 ∉ S1.rel.contained ∧ clusterOf 0 = 0 ∧ 0 ∉ S1.rel.moved ∧
    (∀ c < 512, ({ S1 with rel := { S1.rel with contained := [0] } } : State).rect c = S1.rect 0 → c ∈ [0]) := by
  have h : S1.rel.rects = [] := by decide +kernel
  refine ⟨by decide +kernel, fun c hc => ?_, by decide +kernel, by decide +kernel, by decide +kernel, by decide +kernel⟩
  rw [State.rect, h]
  exact hc
/-- What a close saved, and a log of one line. -/
def saved : Checkpt := { cores := [(0, Core.reset)], chan := [], homes := [], parked := [], units := [], ebufs := [], fwds := [], sched := Sched.reset, bars := [] }
def Ssaved (closing : Bool) : State :=
  { S1 with rel := { S1.rel with saved := some saved, closing := closing }, mem := { S1.mem with
      stops := [(5, { Stop.reset with log := [{ line := 0x40, old := 7, tags := [none, none, none, none], bands := [0, 0] }] })] } }
theorem witness_ReliabilitySteps_intervals : S1.rel.closing = false ∧ (∀ p ∈ S1.cores, p.2.xcache = [] ∧ p.2.csrs = [] ∧ ∀ q ∈ p.2.ctxs, q.2.answer = none) ∧ (Ssaved true).rel.closing = true ∧
    (Ssaved true).boot.pendingReset = false ∧ (Ssaved false).rel.saved = some saved ∧ (Ssaved false).mem.wf = true ∧ S1.rel.saved = none ∧
    ({ Ssaved false with mem := S1.mem } : State).mem.stops = [] := by decide +kernel

theorem witness_ReliabilitySteps_gangs : areaOk (0, 0x800000) = true ∧ (S1.core 0).stopped = false ∧ (S1.core 0).csrs = [] ∧
    (S1.core 0).memWf = true ∧ S1.mem.wf = true ∧ ((S1.onMine fun k => { k with stopped := true }).core 0).stopped = true ∧
    areaOk (0, 0x800800) = false ∧ (∀ p ∈ (S1.core 0).ctxs, p.2.answer = none) ∧ S1.mem.keys = [] := by decide +kernel

/-- A configuration block. -/
def block : List Byte := (toBytes 4 0x46435844 ++ toBytes 4 3 ++ toBytes 16 0) ++ (toBytes 64 1 ++ toBytes 8 0 ++ toBytes 2 0) ++
  (toBytes 1 255 ++ toBytes 1 0 ++ toBytes 1 1 ++ toBytes 3 0) ++ (toBytes 4 8000 ++ toBytes 2 100 ++ toBytes 2 110 ++ toBytes 16 0)
/-- The device in a boot state. -/
def Sboot (n : Nat) : State := { State.reset with boot := { Boot.reset with state := n }, clk := 2 ^ 40 * 9 * 60000000000 }
theorem witness_SystemSteps_boot : (Sboot 1).boot.state = 1 ∧ (Sboot 2).boot.state = 2 ∧ cfgOk block (Sboot 2).boot.secver = true ∧
    (Sboot 4).boot.since + 60000000000 ≤ (Sboot 4).now ∧ 0 ∈ State.reset.boot.harts ∧ 31 ∉ State.reset.boot.harts := by decide +kernel
theorem witness_SystemSteps_ports : S1.boot.cfgBit 98 7 = true ∧ S1.boot.state = 3 ∧ S1.dbg.pkgHalt = false ∧ S1.boot.cfgBit 100 0 = true ∧
    S1.rel.closing = false ∧ (Ssaved true).rel.closing = true := by decide +kernel
theorem witness_SystemSteps_memory : (∀ a ∈ [0x40, 0x7C, 0x100000000000], inDebug a = false ∧ a % 64 + stN .w ≤ 64 ∧ S1.logRoom (a / 64 * 64) = true ∧
      S1.physCheck (BitVec.ofNat 64 a) a 4 false = none ∧ S1.physCheck (BitVec.ofNat 64 a) a 4 true = none ∧ fld (BitVec.ofNat 64 a) 57 0 = a ∧
      ∀ n < 4, tget S1.mem.keys (a / 64 * 4 + n) = none) ∧ S1.mem.wf = true ∧ S1.physCheck 0x10000000000 0x10000000000 4 false = some 4 := by decide +kernel
theorem witness_SystemSteps_registers : csrOf (BitVec.ofNat 12 1) = .ok .issue ∧ (0 : Nat) < 8192 := by decide +kernel

theorem witness_StepKeeps : State.reset.mem.wf = true ∧ State.reset.poolsOk = true ∧ S0.mem.wf = true ∧ S0.poolsOk = true ∧
    (match step State.reset with | .next _ => true | _ => false) = true ∧ (match step S0 with | .next _ => true | _ => false) = true := by
  decide +kernel
theorem witness_RoundTrip : (Instr.vfma ⟨true, 7, true⟩ .f32 .cur 31 5 6 4).wf = true ∧ (encode (.vfma ⟨true, 7, true⟩ .f32 .cur 31 5 6 4)).isSome = true := by
  decide +kernel
/-- A line of a pair: a LI and a vector addition, without parity; the core holds it at the PC. -/
def pline : Line := (((encode (.vadd H .f32 .cur 4 5 6)).getD 0).setWidth 512 <<< 96) ||| ((encode (.li H .d 3 7)).getD 0).setWidth 512 |||
  BitVec.ofNat 512 (33 * 2 ^ 480)
theorem witness_StepRuns_one : let s := State.reset.place ((encode (.li H .d 3 7)).getD 0)
    s.issues 0 0 (placeLine ((encode (.li H .d 3 7)).getD 0)) = true ∧ lineAt (placeLine ((encode (.li H .d 3 7)).getD 0)) 0 = .one ((encode (.li H .d 3 7)).getD 0) ∧
    decode ((encode (.li H .d 3 7)).getD 0) = .ok (.li H .d 3 7) := by decide +kernel
theorem witness_StepRuns_illegal : let w : Insn96 := 0x007F00000000000000000000
    (State.reset.place w).issues 0 0 (placeLine w) = true ∧ lineAt (placeLine w) 0 = .one w ∧ (decode w).isOk = false := by decide +kernel
theorem witness_StepRuns_pair : let s := S1.onMine fun k => { k with lines := [(0, pline)] }
    s.issues 0 0 pline = true ∧ lineAt pline 0 = .two ((encode (.li H .d 3 7)).getD 0) ((encode (.vadd H .f32 .cur 4 5 6)).getD 0) := by decide +kernel
theorem witness_StepRuns_event : let s := { Sboot 1 with agenda := [.plimitSet 5, .bootImageFetch true] }
    s.follow = [] ∧ s.allows (.plimitSet 5) = false ∧ s.allows (.bootImageFetch true) = true ∧ s.blocked (.bootImageFetch true) = false ∧
    source (.bootImageFetch true) ≠ .none' := by decide +kernel

/-! ### Decoding: words of the spec, one for each mnemonic that the spec writes out (R45 to R47) -/

theorem test_decode_thread : ∀ p ∈ ([
    (0x000000000000000000000000, .nop H),
    (0x000100000000000000000000, .yieldT H),
    (0x000200000000000000000000, .wait H),
    (0x0003000C0000000000000000, .doze H 12),
    (0x00040A000000000000000000, .nowns H 10),
    (0x000500030000000000000000, .exit H 3),
    (0x000605060000000000000000, .join H 5 6),
    (0x000700060000000000000000, .leave H 6),
    (0x000800060000000000000000, .gbar H 6),
    (0x000900060000000000000000, .garrive H 6),
    (0x000A00060000000000000000, .gwait H 6),
    (0x000B00060000000000000000, .phase H 6),
    (0x000C07060000000100000000, .ginfoRank H 7 6),
    (0x000D08000000000000000000, .mfs H 8 .tid),
    (0x000E00090000000000000013, .mts H .synclim 9),
    (0x000C07060000000000000000, .ginfoSize H 7 6)] : List (Nat × Instr)),
    decode (BitVec.ofNat 96 p.1) = .ok p.2 := by decide +kernel
theorem test_decode_integer : ∀ p ∈ ([
    (0x008003040500000000000000, .add H .w 3 4 5),
    (0x00C003040001000000000064, .addImm H .d 3 4 100),
    (0x008203040500000000000000, .mul H .w 3 4 5),
    (0x008503040500000100000000, .div H .d 3 4 5),
    (0x009703040000000000000000, .clz H .w 3 4),
    (0x009561040500000500000000, .setp H .d .lt 1 4 5),
    (0x00D56104000500000000000A, .setpImm H .d .lt 1 4 10),
    (0x009603040562000100000000, .sel H .d 3 4 5 2),
    (0x009B03040506000100000000, .bfx H .d false 3 4 5 6),
    (0x00DB03040003000000000C08, .bfxImm H .d true 3 4 8 12),
    (0x00DC03040001000000000C08, .bfiImm H .d 3 4 8 12),
    (0x009F63616200001000000000, .plog H 8 3 1 2),
    (0x009D03040000000100000000, .mov H (.gg .d 3 4)),
    (0x00DE03000001000012345678, .li H .d 3 0x12345678),
    (0x00DE0300000300000000DEAD, .liHi H 3 0xdead),
    (0x00C90E070001000000000000, .andImm H .d 14 7 0)] : List (Nat × Instr)),
    decode (BitVec.ofNat 96 p.1) = .ok p.2 := by decide +kernel
theorem test_decode_address : ∀ p ∈ ([
    (0x010003040000000000000040, .lea H 3 4 64),
    (0x010103040500000000000000, .mkptr H 3 4 5),
    (0x010203040000000000000000, .getband H 3 4),
    (0x010303040506000000000000, .caddr H 3 4 5 6),
    (0x010403040000000000000000, .chkptr H 3 4)] : List (Nat × Instr)),
    decode (BitVec.ofNat 96 p.1) = .ok p.2 := by decide +kernel
theorem test_decode_control : ∀ p ∈ ([
    (0x018509000000000200000000, .loop H 9 0 2 0),
    (0x218000000000FFFFFFFFFFF1, .br ⟨false, 2, false⟩ 0xffff 0xfffffff1),
    (0x018105000000000000000000, .bri H 5),
    (0x018200000000000000000018, .call H 24),
    (0x018305000000000000000000, .calli H 5),
    (0x018401000000000000000000, .ret H 1)] : List (Nat × Instr)),
    decode (BitVec.ofNat 96 p.1) = .ok p.2 := by decide +kernel
theorem test_decode_experience : ∀ p ∈ ([
    (0x020003040000000000000000, .xrd H false 3 4),
    (0x020161000500000000040000, .xsel H 1 (some 5) 4),
    (0x020205000A00000000000000, .xunr H 5 (some 10) 0),
    (0x020306070800000000010000, .xpfd H 6 7 (some 8) 1),
    (0x020400090000000000050000, .xnote H 9 5),
    (0x020500000000000000000000, .xflush H)] : List (Nat × Instr)),
    decode (BitVec.ofNat 96 p.1) = .ok p.2 := by decide +kernel
theorem test_decode_float : ∀ p ∈ ([
    (0x028344454644000000000000, .vfma H .f32 .cur 4 5 6 4),
    (0x028F44450000000000000000, .vsqrt H .f32 .cur 4 5),
    (0x029604050604000000000000, .ffma H .f32 .cur 4 5 6 4),
    (0x029164454600020000000000, .vcmp H .f32 .lt 4 5 6),
    (0x029044450000014000000000, .vcvt H .cur 1 .f16 .f32 4 5),
    (0x029900050000010000000000, .rep H 0 1 5),
    (0x029A00000000000000000000, .repwait H),
    (0x828243414200000000000000, .vmul ⟨true, 0, false⟩ .f32 .cur 3 1 2),
    (0x829406060700000000000000, .fadd ⟨true, 0, false⟩ .f32 .cur 6 6 7)] : List (Nat × Instr)),
    decode (BitVec.ofNat 96 p.1) = .ok p.2 := by decide +kernel
theorem test_decode_vint : ∀ p ∈ ([
    (0x030044454600000000000000, .viadd H .i32 4 5 6),
    (0x030944454600002200000000, .vimin H true .i8 4 5 6),
    (0x030B44454662000000000000, .vsel H .i32 4 5 6 2),
    (0x030F04450600001000000000, .vext H false .i16 4 5 6),
    (0x031364454600040000000000, .vicmp H .i32 .ltu 4 5 6),
    (0x0312440000FF000000000000, .viota H .i32 4 none)] : List (Nat × Instr)),
    decode (BitVec.ofNat 96 p.1) = .ok p.2 := by decide +kernel
theorem test_decode_block : ∀ p ∈ ([
    (0x0380414243FF010000000000, .vqnt H false .f32 .bx8 1 2 (some 3) none),
    (0x0383454141FF010000000000, .vbxdot H .cur .bx8 5 1 1 none)] : List (Nat × Instr)),
    decode (BitVec.ofNat 96 p.1) = .ok p.2 := by decide +kernel
theorem test_decode_memory : ∀ p ∈ ([
    (0x0400070405330000FFFF0010, .ld H .d false 0xffff 7 ⟨.l, 4, 5, 3, 16⟩),
    (0x0401070400C3000000000008, .st H .d false 7 ⟨.g, 4, 0, 0, 8⟩),
    (0x0402440400080000FFFF0040, .vld H false 0xffff 4 ⟨.l, 4, 0, 0, 64⟩),
    (0x040344040048000000000000, .vst H false 4 ⟨.c, 4, 0, 0, 0⟩),
    (0x040407040083000000000000, .lds H 7 ⟨.x, 4, 0, 0, 0⟩),
    (0x040507040083000000000000, .sts H 7 ⟨.x, 4, 0, 0, 0⟩),
    (0x040607040083000000000000, .ldf H 7 ⟨.x, 4, 0, 0, 0⟩),
    (0x040700040083000000000000, .feset H ⟨.x, 4, 0, 0, 0⟩),
    (0x040800040083000000000000, .feclr H ⟨.x, 4, 0, 0, 0⟩),
    (0x0409070400C3000000000000, .ldacq H .d 7 ⟨.g, 4, 0, 0, 0⟩),
    (0x040A070400C3000000000000, .strel H .d 7 ⟨.g, 4, 0, 0, 0⟩),
    (0x040B070405C3000000000008, .atom H .d .add .g 7 4 5 8),
    (0x040C060400C0000000000000, .pref H 6 ⟨.g, 4, 0, 0, 0⟩),
    (0x040D44044622000000000000, .vldx H false 4 4 6 2 0),
    (0x040E44044662000000000000, .vstx H true 4 4 6 2 0)] : List (Nat × Instr)),
    decode (BitVec.ofNat 96 p.1) = .ok p.2 := by decide +kernel
theorem test_decode_volume : ∀ p ∈ ([
    (0x048007040500000200000003, .cld H 2 7 4 5 3),
    (0x048107040500000200000003, .cst H 2 7 4 5 3),
    (0x048244040500000200000000, .cvld H 2 4 4 5 0),
    (0x048344040500000200000000, .cvst H 2 4 4 5 0),
    (0x048407040000000200000000, .cprobe H 2 7 4),
    (0x048500040000000200000000, .cclr H 2 4),
    (0x048607040000000200000000, .ctileFind H 2 7 4),
    (0x048607040000000200000001, .ctileDetach H 2 7 4),
    (0x048600040000000200000002, .ctilePtile H 2 4),
    (0x048600040000000200000003, .ctilePnode H 2 4),
    (0x048700000000000200000000, .clbinv H 2)] : List (Nat × Instr)),
    decode (BitVec.ofNat 96 p.1) = .ok p.2 := by decide +kernel
theorem test_decode_transfer : ∀ p ∈ ([
    (0x0500B0040506000000000030, .cpy H .l .g 0 4 5 6),
    (0x050100B00700000000000000, .cpyw H 0 7),
    (0x050208B00700000000000000, .cpyt H 8 0 7),
    (0x0503C8040506000000001000, .deal H false 0 4 5 6 0x1000),
    (0x050458000506000100000C0F, .sarm H false 0 3 15 1 24 5 6),
    (0x050500580000000000000000, .sdrop H 24),
    (0x0506C0040500000000000000, .cbset H 0 4 5),
    (0x050707C00000000000000000, .cbrsv H 7 0),
    (0x050800C00000000000000000, .cbcmt H 0),
    (0x050907C00000000000000000, .cbacq H 7 0),
    (0x050A00C00000000000000000, .cbrel H 0),
    (0x050BC9040506000300000000, .get H false .l .l 3 1 4 5 6),
    (0x050CC9040506000300000000, .put H false .l .l 0 3 1 4 5 6),
    (0x050D07C90800000000000000, .gpwait H false 7 1 8)] : List (Nat × Instr)),
    decode (BitVec.ofNat 96 p.1) = .ok p.2 := by decide +kernel
theorem test_decode_tile : ∀ p ∈ ([
    (0x058000480000020000000000, .card H .L2 8),
    (0x058107040000000000000000, .cwait H 7 4),
    (0x058207050000000000000000, .oclaim H 7 5),
    (0x058300070000000000000000, .orel H 7),
    (0x058492440500000000000000, .ofill H 2 4 5),
    (0x058581000000000000000000, .aclr H 1),
    (0x0586008104FF000003FF0003, .ast H .g .f32 0 31 31 1 4 none),
    (0x058780040000000000000003, .ald H .g .f32 0 4),
    (0x058800440000000300000000, .tdset H 3 4),
    (0x058944000000000300000000, .tdget H 3 4)] : List (Nat × Instr)),
    decode (BitVec.ofNat 96 p.1) = .ok p.2 := by decide +kernel
theorem test_decode_peer : ∀ p ∈ ([
    (0x0600070405C3000000000010, .pget H (.g .d 7) 4 5 16),
    (0x0601070405C3000000000010, .pput H (.g .d 7) 4 5 16),
    (0x0602070405C3000000000008, .patom H .d .add 7 4 5 8),
    (0x060300060700000000000000, .fbar H 6 7)] : List (Nat × Instr)),
    decode (BitVec.ofNat 96 p.1) = .ok p.2 := by decide +kernel
theorem test_decode_system : ∀ p ∈ ([
    (0x068000000000000000000007, .trap H 7),
    (0x068100000000000000000000, .eret H),
    (0x068203000000000000000400, .csrr H 3 (.win 0)),
    (0x068300040000000000000001, .csrw H .issue 4),
    (0x068400040500000000000000, .tlbinvPage H 4 5),
    (0x068503040000000300000000, .jnlrd H 3 3 4),
    (0x068600040000000000000000, .jnlclr H 4),
    (0x068700040500000000000000, .ctxsv H 4 5),
    (0x068800040500000000000000, .ctxld H 4 5),
    (0x068900000000000000000000, .fencei H),
    (0x068100000000000100000000, .eretNext H),
    (0x068400040500000100000000, .tlbinvTenant H 4 5),
    (0x068600040000000100000000, .jnlclrResend H 4)] : List (Nat × Instr)),
    decode (BitVec.ofNat 96 p.1) = .ok p.2 := by decide +kernel
theorem test_decode_scheduler : ∀ p ∈ ([
    (0x070003040000000000000000, .launch H 3 4),
    (0x070103040500000000000000, .glaunch H 3 4 5),
    (0x070203040000000000000000, .gnodeGraph H 3 4),
    (0x070203040500000000000001, .gnodeNode H 3 4 5),
    (0x070203040500000000000002, .gnodeEdge H 3 4 5),
    (0x070203040000000000000003, .gnodeDrop H 3 4),
    (0x070303040500000000000000, .gdone H 3 4 5),
    (0x070403040000000000000000, .grabTake H 3 4),
    (0x070403040500000000000001, .grabSet H 3 4 5),
    (0x070503040000000000000000, .qstatLaunch H 3 4),
    (0x070503040000000000000001, .qstatQueue H 3 4),
    (0x070503040000000000000002, .qstatRange H 3 4),
    (0x070503040000000000000003, .qstatInst H 3 4)] : List (Nat × Instr)),
    decode (BitVec.ofNat 96 p.1) = .ok p.2 := by decide +kernel
theorem test_decode_debug : ∀ p ∈ ([
    (0x078000000000000000000123, .renter H 291),
    (0x078100000000000000000000, .rleave H),
    (0x078200040000000500000000, .trace H 5 4),
    (0x078300000000000000000042, .brk H 66 0),
    (0x078400040000013A00000000, .wpset H 2 3 1 .x 4),
    (0x078500040000010200000000, .wpclr H 2 .x 4),
    (0x078603000000000000000001, .cntrd H false 1 3)] : List (Nat × Instr)),
    decode (BitVec.ofNat 96 p.1) = .ok p.2 := by decide +kernel

/-! ### Decoding: words written from the encoding tables (R39, R45, R118, R164) for the mnemonics that the spec writes no word for -/

theorem test_decode_integer_rest : ∀ p ∈ ([
    (0x008107080900000000000000, .sub H .w 7 8 9),
    (0x008307080900000100000000, .mulh H .d 7 8 9),
    (0x008407080900000000000000, .mulhu H .w 7 8 9),
    (0x008607080900000100000000, .divu H .d 7 8 9),
    (0x008707080900000000000000, .rem H .w 7 8 9),
    (0x008807080900000100000000, .remu H .d 7 8 9),
    (0x008907080900000000000000, .andd H .w 7 8 9),
    (0x008A07080900000100000000, .orr H .d 7 8 9),
    (0x008B07080900000000000000, .xor H .w 7 8 9),
    (0x008C07080900000100000000, .andn H .d 7 8 9),
    (0x008D07080900000000000000, .shl H .w 7 8 9),
    (0x008E07080900000100000000, .shr H .d 7 8 9),
    (0x008F07080900000000000000, .sra H .w 7 8 9),
    (0x009007080900000100000000, .rol H .d 7 8 9),
    (0x009107080900000000000000, .min H .w 7 8 9),
    (0x009207080900000100000000, .max H .d 7 8 9)] : List (Nat × Instr)),
    decode (BitVec.ofNat 96 p.1) = .ok p.2 := by decide +kernel
theorem test_decode_integer_rest2 : ∀ p ∈ ([
    (0x009307080900000000000000, .minu H .w 7 8 9),
    (0x009407080900000100000000, .maxu H .d 7 8 9),
    (0x00C107080000FFFFFFFFFFFE, .subImm H .w 7 8 (-2)),
    (0x00C207080001FFFFFFFFFFFD, .mulImm H .d 7 8 (-3)),
    (0x00C307080000FFFFFFFFFFFC, .mulhImm H .w 7 8 (-4)),
    (0x00C407080001FFFFFFFFFFFB, .mulhuImm H .d 7 8 (-5)),
    (0x00C507080000FFFFFFFFFFFA, .divImm H .w 7 8 (-6)),
    (0x00C607080001FFFFFFFFFFF9, .divuImm H .d 7 8 (-7)),
    (0x00C707080000FFFFFFFFFFF8, .remImm H .w 7 8 (-8)),
    (0x00C807080001FFFFFFFFFFF7, .remuImm H .d 7 8 (-9)),
    (0x00CA07080000FFFFFFFFFFF6, .orImm H .w 7 8 (-10)),
    (0x00CB07080001FFFFFFFFFFF5, .xorImm H .d 7 8 (-11)),
    (0x00CC07080000FFFFFFFFFFF4, .andnImm H .w 7 8 (-12)),
    (0x00CD07080001FFFFFFFFFFF3, .shlImm H .d 7 8 (-13)),
    (0x00CE07080000FFFFFFFFFFF2, .shrImm H .w 7 8 (-14)),
    (0x00CF07080001FFFFFFFFFFF1, .sraImm H .d 7 8 (-15))] : List (Nat × Instr)),
    decode (BitVec.ofNat 96 p.1) = .ok p.2 := by decide +kernel
theorem test_decode_integer_rest3 : ∀ p ∈ ([
    (0x00D007080000FFFFFFFFFFF0, .rolImm H .w 7 8 (-16)),
    (0x00D107080001FFFFFFFFFFEF, .minImm H .d 7 8 (-17)),
    (0x00D207080000FFFFFFFFFFEE, .maxImm H .w 7 8 (-18)),
    (0x00D307080001FFFFFFFFFFED, .minuImm H .d 7 8 (-19)),
    (0x00D407080000FFFFFFFFFFEC, .maxuImm H .w 7 8 (-20)),
    (0x009807080000000100000000, .ctz H .d 7 8),
    (0x009907080000000100000000, .popc H .d 7 8),
    (0x009A07080000000100000000, .brev H .d 7 8),
    (0x009C0708090A000100000000, .bfi H .d 7 8 9 10)] : List (Nat × Instr)),
    decode (BitVec.ofNat 96 p.1) = .ok p.2 := by decide +kernel
theorem test_decode_float_rest : ∀ p ∈ ([
    (0x028044454600001400000000, .vadd H .f16 .rd 4 5 6),
    (0x028144454600001400000000, .vsub H .f16 .rd 4 5 6),
    (0x028444454647002100000000, .vfms H .bf16 .rn 4 5 6 7),
    (0x028544454647002100000000, .vfnma H .bf16 .rn 4 5 6 7),
    (0x028644454600001000000000, .vmin H .f16 4 5 6),
    (0x028744454600001000000000, .vmax H .f16 4 5 6),
    (0x028844450000002000000000, .vabs H .bf16 4 5),
    (0x028944450000002000000000, .vneg H .bf16 4 5),
    (0x028A44450000000300000000, .vrcp H .f32 .ru 4 5),
    (0x028B44450000000300000000, .vrsq H .f32 .ru 4 5),
    (0x028C44450000000300000000, .vexp2 H .f32 .ru 4 5),
    (0x028D44450000000300000000, .vlog2 H .f32 .ru 4 5),
    (0x028E44454600000000000000, .vdiv H .f32 .cur 4 5 6),
    (0x029244450000001000000000, .vred H .f16 .cur 4 5),
    (0x029344454600000200000000, .vdot H .f32 .rz 4 5 6),
    (0x029504050600001200000000, .fmul H .f16 .rz 4 5 6)] : List (Nat × Instr)),
    decode (BitVec.ofNat 96 p.1) = .ok p.2 := by decide +kernel
theorem test_decode_float_rest2 : ∀ p ∈ ([
    (0x029762050600031000000000, .fcmp H .f16 .le 2 5 6),
    (0x029804050000A00200000000, .fcvt H .rz .f32 .i64 4 5)] : List (Nat × Instr)),
    decode (BitVec.ofNat 96 p.1) = .ok p.2 := by decide +kernel
theorem test_decode_vint_rest : ∀ p ∈ ([
    (0x030144454600001000000000, .visub H .i16 4 5 6),
    (0x030244454600001000000000, .vimul H .i16 4 5 6),
    (0x030344454600001000000000, .vand H .i16 4 5 6),
    (0x030444454600001000000000, .vor H .i16 4 5 6),
    (0x030544454600001000000000, .vxor H .i16 4 5 6),
    (0x030644454600001000000000, .vshl H .i16 4 5 6),
    (0x030744454600001000000000, .vshr H .i16 4 5 6),
    (0x030844454600001000000000, .vsra H .i16 4 5 6),
    (0x030C44454600001000000000, .vshuf H .i16 4 5 6),
    (0x030A44454600002200000000, .vimax H true .i8 4 5 6),
    (0x030D44050000000000000000, .vbcast H .i32 4 5),
    (0x030E44050600002000000000, .vins H .i8 4 5 6),
    (0x031044450062001000000000, .vcmprs H .i16 4 5 2),
    (0x031144450062001000000000, .vexpnd H .i16 4 5 2)] : List (Nat × Instr)),
    decode (BitVec.ofNat 96 p.1) = .ok p.2 := by decide +kernel
theorem test_decode_block_rest : ∀ p ∈ ([
    (0x0381444500FF014100000000, .vdqnt H .rn 1 .f32 .bx8 4 5 none),
    (0x038244450607006000000000, .vsrnd H 1 .bf16 4 5 6 7)] : List (Nat × Instr)),
    decode (BitVec.ofNat 96 p.1) = .ok p.2 := by decide +kernel
theorem test_decode_system_rest : ∀ p ∈ ([
    (0x068400080900000200000000, .tlbinvAll H 8 9)] : List (Nat × Instr)),
    decode (BitVec.ofNat 96 p.1) = .ok p.2 := by decide +kernel

/-! ### Well-formedness: one ill-formed term for each check, and its nearest accepted term -/

/-- Terms that the machine refuses with ILLEGAL_INSN, one for each check of WellFormed. -/
def illFormed1 : List Instr :=
  [.li H .w 3 0x100000000, .vcvt H .cur 0 .f16 .i32 4 5, .vcvt H .cur 2 .f16 .f32 4 5, .vcvt H .cur 1 .f32 .i32 4 5, .fcvt H .cur .f32 .f32 4 5,
   .vqnt H true .f32 .bx8 4 5 none none, .vqnt H true .f16 .bx8 4 5 (some 6) none, .vqnt H true .f16 .bx16 4 5 none none,
   .vdqnt H .cur 1 .f16 .bx8 4 5 none, .vdqnt H .cur 2 .f32 .bx8 4 5 none, .vdqnt H .cur 0 .f32 .bx16 4 5 none,
   .vsrnd H 0 .f32 4 5 6 7, .vsrnd H 2 .f16 4 5 6 7, .vbxdot H .cur .bx16 4 5 6 none]
/-- The nearest terms that it accepts. -/
def wellFormed1 : List Instr :=
  [.li H .d 3 0x100000000, .vcvt H .cur 0 .f32 .i32 4 5, .vcvt H .cur 1 .f16 .f32 4 5, .vcvt H .cur 3 .u8 .f32 4 5, .fcvt H .cur .f16 .i32 4 5,
   .vqnt H true .f32 .bx8 4 5 (some 6) none, .vqnt H true .f16 .bx8 4 5 none none, .vqnt H true .f16 .bx16 4 5 none (some 7),
   .vdqnt H .cur 0 .f16 .bx8 4 5 none, .vdqnt H .cur 1 .f32 .bx8 4 5 none, .vdqnt H .cur 0 .f32 .bx16 4 5 (some 6),
   .vsrnd H 1 .f16 4 5 6 7, .vsrnd H 0 .bf16 4 5 6 7, .vbxdot H .cur .bx16 4 5 6 (some 7)]
/-- More terms that the machine refuses. -/
def illFormed2 : List Instr :=
  [.ld H .d true 0xFFFF 3 ⟨.c, 4, 0, 0, 0⟩, .st H .d true 3 ⟨.l, 4, 0, 0, 0⟩, .vld H true 0xFFFF 3 ⟨.x, 4, 0, 0, 0⟩, .vst H true 3 ⟨.c, 4, 0, 0, 0⟩,
   .lds H 3 ⟨.g, 4, 0, 0, 0⟩, .sts H 3 ⟨.g, 4, 0, 0, 0⟩, .ldf H 3 ⟨.g, 4, 0, 0, 0⟩, .feset H ⟨.g, 4, 0, 0, 0⟩, .feclr H ⟨.g, 4, 0, 0, 0⟩,
   .atom H .d .fadd32 .g 3 4 5 0, .pref H 3 ⟨.c, 4, 0, 0, 0⟩, .patom H .d .fadd32 3 4 5 0, .patom H .w .cas 63 4 5 0]
/-- The nearest terms that it accepts. -/
def wellFormed2 : List Instr :=
  [.ld H .d true 0xFFFF 3 ⟨.g, 4, 0, 0, 0⟩, .st H .d true 3 ⟨.g, 4, 0, 0, 0⟩, .vld H true 0xFFFF 3 ⟨.g, 4, 0, 0, 0⟩, .vst H true 3 ⟨.g, 4, 0, 0, 0⟩,
   .lds H 3 ⟨.l, 4, 0, 0, 0⟩, .sts H 3 ⟨.c, 4, 0, 0, 0⟩, .ldf H 3 ⟨.x, 4, 0, 0, 0⟩, .feset H ⟨.l, 4, 0, 0, 0⟩, .feclr H ⟨.c, 4, 0, 0, 0⟩,
   .atom H .w .fadd32 .g 3 4 5 0, .pref H 3 ⟨.g, 4, 0, 0, 0⟩, .patom H .w .fadd32 3 4 5 0, .patom H .w .cas 62 4 5 0]
theorem test_illFormed : ∀ l ∈ [illFormed1, illFormed2], ∀ i ∈ l, i.wf = false := by decide +kernel
theorem test_wellFormed : ∀ l ∈ [wellFormed1, wellFormed2], ∀ i ∈ l, i.wf = true := by decide +kernel
theorem test_illFormed_jnlrd : (Instr.jnlrd H 4 3 4).wf = false ∧ (Instr.jnlrd H 7 3 4).wf = false ∧ (Instr.jnlrd H 8 3 4).wf = true := by decide +kernel
theorem test_illFormed_renter : (Instr.renter H 0).wf = false ∧ (Instr.renter H 1).wf = true := by decide +kernel
theorem test_illFormed_wpset : (Instr.wpset H 0 1 0 .c 4).wf = false ∧ (Instr.wpset H 0 0 0 .g 4).wf = false ∧
    (Instr.wpset H 4 1 0 .l 4).wf = false ∧ (Instr.wpset H 4 1 0 .g 4).wf = true := by decide +kernel
theorem test_illFormed_wpclr : (Instr.wpclr H 0 .c 4).wf = false ∧ (Instr.wpclr H 4 .x 4).wf = false ∧ (Instr.wpclr H 3 .x 4).wf = true := by decide +kernel
theorem test_illFormed_cntrd : (Instr.cntrd H false 0x0F 3).wf = false ∧ (Instr.cntrd H false 0x0E 3).wf = true := by decide +kernel

/-! ### Results that the spec works out -/

/-- The state after one instruction, where there is a next one. -/
def after (i : Instr) (s : State) : Option State :=
  match exec i s with
  | .next t => some t
  | _ => none
/-- What g3 holds after one instruction on g4 = a, g5 = b and g6 = c. -/
def g3After (i : Instr) (a b c : Word) : Option Word :=
  (after i (S1.onRegs fun r => ((r.setG 4 a).setG 5 b).setG 6 c)).map fun t => t.cx.regs.getG 3
/-- What waits to land after one long instruction on g4 = a and g5 = b. -/
def landsAfter (i : Instr) (a b : Word) : Option (List Word) :=
  (after i (S1.onRegs fun r => (r.setG 4 a).setG 5 b)).map fun t => t.cx.landing.map fun l => l.data.setWidth 64

-- R61: 2^24 + 1 and 2^24 + 3 in the four modes.
theorem test_fadd_one : [Rm.rn, .rz, .ru, .rd].map (fun m => g3After (.fadd H .f32 m 3 4 5) 0x4B800000 0x3F800000 0) =
    [some 0x4B800000, some 0x4B800000, some 0x4B800001, some 0x4B800000] := by decide +kernel
theorem test_fadd_three : [Rm.rn, .rz, .ru, .rd].map (fun m => g3After (.fadd H .f32 m 3 4 5) 0x4B800000 0x40400000 0) =
    [some 0x4B800002, some 0x4B800001, some 0x4B800002, some 0x4B800001] := by decide +kernel
-- R121: the worked results at .w.
theorem test_div_w : landsAfter (.div H .w 3 4 5) (-7) 2 = some [0xFFFFFFFFFFFFFFFD] ∧ landsAfter (.div H .w 3 4 5) 5 0 = some [0xFFFFFFFFFFFFFFFF] ∧
    landsAfter (.div H .w 3 4 5) 0x80000000 (-1) = some [0xFFFFFFFF80000000] := by decide +kernel
theorem test_rem_w : landsAfter (.rem H .w 3 4 5) (-7) 2 = some [0xFFFFFFFFFFFFFFFF] ∧ landsAfter (.rem H .w 3 4 5) 5 0 = some [5] ∧
    landsAfter (.rem H .w 3 4 5) 0x80000000 (-1) = some [0] := by decide +kernel
theorem test_divu_w : landsAfter (.divu H .w 3 4 5) (-7) 2 = some [0x7FFFFFFC] ∧ landsAfter (.divu H .w 3 4 5) 5 0 = some [0xFFFFFFFFFFFFFFFF] ∧
    landsAfter (.divu H .w 3 4 5) 0x80000000 (-1) = some [0] := by decide +kernel
theorem test_remu_w : landsAfter (.remu H .w 3 4 5) (-7) 2 = some [1] ∧ landsAfter (.remu H .w 3 4 5) 5 0 = some [5] ∧
    landsAfter (.remu H .w 3 4 5) 0x80000000 (-1) = some [0xFFFFFFFF80000000] := by decide +kernel
-- R127: bits 19 to 8 of 0x00ABC123, with and without the sign.
theorem test_bfx : g3After (.bfxImm H .d true 3 4 8 12) 0xABC123 0 0 = some 0xFFFFFFFFFFFFFBC1 ∧
    g3After (.bfxImm H .d false 3 4 8 12) 0xABC123 0 0 = some 0xBC1 := by decide +kernel
-- R131: x = 37, y = 21, offset 0x100.
theorem test_caddr : g3After (.caddr H 3 4 5 6) 37 21 0x100 = some 0x0AA50100 := by decide +kernel
-- R120: the immediate -1 of MINU is the largest number.
theorem test_minu_imm : g3After (.minuImm H .d 3 4 (-1)) 0x123456789 0 0 = some 0x123456789 := by decide +kernel
-- R167: VRCP of 3.0 gives 0x3EAAAAAB and sets NX; the other lanes hold +0 and set DZ.
theorem test_vrcp : (after (.vrcp H .f32 .rn 4 5) (S1.onRegs fun r => r.setV 5 0x40400000)).map
    (fun t => (((t.cx.regs.getV 4).setWidth 32 : BitVec 32), t.cx.regs.fflags)) = some (0x3EAAAAAB, 0x09) := by decide +kernel
-- R174: v2 holds 3.0, -0.75, 0.01, 0 and 1.0; the block's bytes, its pair above them, and zero above the pair.
theorem test_vqnt : (after (.vqnt H false .f32 .bx8 1 2 (some 3) none) (S1.onRegs fun r =>
      r.setV 2 (0x3F800000_00000000_3C23D70A_BF400000_40400000))).map (fun t => t.cx.regs.getV 1) =
    some (0x7D81_808080808080808080808080808080808080808080808080808080_10_80_83_4C_30) := by decide +kernel
-- R369, R351: TRAP 7 enters the handler with its number, at the handler's entry.
theorem test_trap : (after (.trap H 7) S1).map (fun t => (t.cx.pc, t.cx.regs.trapvec, t.cx.trapinfo.setWidth 8, t.cx.hnd)) =
    some (0x1000, 0x1000, (7 : BitVec 8), true) := by decide +kernel
-- R23, R193: the program of the load buffer says: stop 0 is attached at core 899, stop 63 at core 7163, 168 hops from it.
theorem test_hops : hops (.core 899) (.stop 0) = 0 ∧ hops (.core 899) (.stop 63) = 168 ∧ hops (.core 7163) (.stop 63) = 0 := by decide +kernel
-- R451: the core at (37, 21) reaches the security core by (48, 0), and a port of IO die 3 by (0, 24).
theorem test_attachment : (path (.core 2725) .security).getLast? = some (48, 0) ∧ (path (.core 2725) (.cxl 12)).getLast? = some (0, 24) := by
  decide +kernel
-- The digest of "abc" and the block of the published standards.
theorem test_sm3 : sm3 [0x61, 0x62, 0x63] = [0x66, 0xc7, 0xf0, 0xf4, 0x62, 0xee, 0xed, 0xd9, 0xd1, 0xf2, 0xd4, 0x6b, 0xdc, 0x10, 0xe4, 0xe2,
    0x41, 0x67, 0xc4, 0x87, 0x5c, 0xf2, 0xf7, 0xa2, 0x29, 0x7d, 0xa0, 0x2b, 0x8f, 0x4b, 0xa8, 0xe0] := by decide +kernel
/-- The key and block of the published example. -/
def smKey : List Byte := [0x01, 0x23, 0x45, 0x67, 0x89, 0xab, 0xcd, 0xef, 0xfe, 0xdc, 0xba, 0x98, 0x76, 0x54, 0x32, 0x10]
theorem test_sm4 : sm4Enc smKey smKey = [0x68, 0x1e, 0xdf, 0x34, 0xd2, 0x06, 0x96, 0x5e, 0x86, 0xb3, 0xe9, 0x4f, 0x53, 0x6e, 0x42, 0x46] ∧
    sm4Dec smKey (sm4Enc smKey smKey) = smKey := by decide +kernel
-- R2: a store puts the low byte at the lowest address.
theorem test_st_little_endian : (after (.st H .w false 4 ⟨.l, 5, 0, 0, 0⟩) (S1.onRegs fun r => (r.setG 4 0x11223344).setG 5 0x100)).map
    (fun t => (List.range 5).map fun k => t.poolByte t.me.1 (0x100 + k)) = some [0x44, 0x33, 0x22, 0x11, 0] := by decide +kernel

end Sys2Proof.Tests
end

section
/-! Lists of bytes, masks of a line's bytes, and a line as the bytes of memory that it holds. -/
namespace Sys2Proof.Machine
open Host (Cell)
open Sys2Proof.Manual (leNat)

theorem mem_upTo {i n : Nat} : i ∈ upTo n ↔ i < n := by
  induction n with
  | zero => simp [upTo]
  | succ n ih => simp [upTo, ih]; omega

@[simp] theorem length_toBytes (n v : Nat) : (toBytes n v).length = n := by
  induction n generalizing v with
  | zero => rfl
  | succ n ih => simp [toBytes, ih]

/-- A field of some low bits of a small number is the number. -/
theorem fld_ofNat {w hi n : Nat} (hw : n < 2 ^ w) (hhi : n < 2 ^ (hi + 1)) : fld (BitVec.ofNat w n) hi 0 = n := by
  simp [fld, Nat.mod_eq_of_lt hw, Nat.mod_eq_of_lt hhi]

/-- A field keeps its value under a mask that holds all its bits. -/
theorem fld_and {n : Nat} (v : BitVec n) {m : BitVec n} {hi lo : Nat} (h : ∀ i ≤ hi, lo ≤ i → m.getLsbD i = true) :
    fld (v &&& m) hi lo = fld v hi lo := by
  refine Nat.eq_of_testBit_eq fun i => ?_
  simp only [fld, Nat.testBit_mod_two_pow, Nat.testBit_div_two_pow, BitVec.testBit_toNat, BitVec.getLsbD_and]
  by_cases hin : i < hi + 1 - lo
  · simp [hin, h (i + lo) (by omega) (by omega)]
  · simp [hin]

theorem getLsbD_byteMask {off n : Nat} (i : Nat) (h : off + n ≤ 64) :
    (byteMask off n).getLsbD i = decide (off ≤ i ∧ i < off + n) := by
  rw [byteMask, BitVec.getLsbD_ofNat, Nat.testBit_mul_two_pow, Nat.testBit_two_pow_sub_one, Bool.eq_iff_iff]
  simp only [Bool.and_eq_true, decide_eq_true_eq]
  omega

theorem lineByte_atByte {off i : Nat} (v : Nat) (ho : off ≤ i) (hi : i < 64) :
    lineByte (atByte off v) i = BitVec.ofNat 8 (v / 2 ^ (8 * (i - off))) := by
  refine BitVec.eq_of_getLsbD_eq fun j hj => ?_
  have hlt : 8 * i + j < 512 := by omega
  have hle : 8 * off ≤ 8 * i + j := by omega
  have hsub : 8 * i + j - 8 * off = 8 * (i - off) + j := by omega
  simp only [lineByte, atByte, BitVec.getLsbD_extractLsb', BitVec.getLsbD_ofNat, Nat.testBit_mul_two_pow, Nat.testBit_div_two_pow,
    hj, hlt, hle, hsub, Nat.add_comm j, decide_true, Bool.true_and]

/-- Byte k of an n-byte value put into a line is byte k of the value. -/
theorem lineByte_atByte_word {off i n : Nat} (v : Word) (ho : off ≤ i) (hi : i < off + n) (h : off + n ≤ 64) :
    lineByte (atByte off (v.toNat % 2 ^ (8 * n))) i = v.extractLsb' (8 * (i - off)) 8 := by
  rw [lineByte_atByte _ ho (by omega)]
  refine BitVec.eq_of_getLsbD_eq fun j hj => ?_
  have hlt : 8 * (i - off) + j < 8 * n := by omega
  simp only [BitVec.getLsbD_ofNat, BitVec.getLsbD_extractLsb', Nat.testBit_div_two_pow, Nat.testBit_mod_two_pow, BitVec.testBit_toNat,
    hj, hlt, Nat.add_comm j, decide_true, Bool.true_and]

theorem rdN_lt (m : List Cell) (a n : Nat) : rdN m a n < 256 ^ n := by
  induction n generalizing a with
  | zero => simp [rdN]
  | succ n ih =>
    have hb := (rdByte m a).isLt
    have ht := ih (a + 1)
    rw [rdN, Nat.pow_succ]
    omega

theorem rdN_add (m : List Cell) (a j n : Nat) : rdN m a (j + n) = rdN m a j + 256 ^ j * rdN m (a + j) n := by
  induction j generalizing a with
  | zero => simp [rdN]
  | succ j ih =>
    rw [Nat.succ_add, rdN, rdN, ih (a + 1), Nat.pow_succ, show a + 1 + j = a + (j + 1) by omega]
    ring

/-- The bytes at rising addresses as a little-endian number (R2). -/
theorem leNat_rdByte (m : List Cell) (a n : Nat) : leNat (fun k => rdByte m (a + k)) n = rdN m a n := by
  induction n with
  | zero => rfl
  | succ n ih => rw [leNat, ih, rdN_add m a n 1, Nat.mul_comm]; rfl

theorem two_pow_eight_mul (k : Nat) : 2 ^ (8 * k) = 256 ^ k := Nat.pow_mul 2 8 k

/-- A number of k bytes keeps its value in a word of that width. -/
theorem toNat_ofNat_bytes {w k n : Nat} (hw : w = 8 * k) (hn : n < 256 ^ k) : (BitVec.ofNat w n).toNat = n := by
  rw [BitVec.toNat_ofNat, hw, two_pow_eight_mul, Nat.mod_eq_of_lt hn]

theorem toNat_rdLine (m : List Cell) (a : Nat) : (rdLine m a).toNat = rdN m a 64 := toNat_ofNat_bytes rfl (rdN_lt m a 64)

/-- n bytes of the line at a are the bytes of memory there. -/
theorem fromByte_rdLine (m : List Cell) (a : Nat) {off n : Nat} (h : off + n ≤ 64) :
    fromByte (rdLine m a) off n = rdN m (a + off) n := by
  have hsplit : rdN m a 64 = rdN m a off + 256 ^ off * (rdN m (a + off) n + 256 ^ n * rdN m (a + off + n) (64 - off - n)) := by
    rw [← rdN_add, ← rdN_add]
    congr 1
    omega
  rw [fromByte, toNat_rdLine, two_pow_eight_mul, two_pow_eight_mul, hsplit, Nat.add_mul_div_left _ _ (by positivity),
    Nat.div_eq_of_lt (rdN_lt ..), Nat.zero_add, Nat.add_mul_mod_self_left, Nat.mod_eq_of_lt (rdN_lt ..)]

/-- Keeping the low k bits of a word is its remainder by 2^k. -/
theorem and_mask_eq_mod (v : Word) {k : Nat} (hk : k < 64) : v &&& BitVec.ofNat 64 (2 ^ k - 1) = v % BitVec.ofNat 64 (2 ^ k) := by
  have hlt : 2 ^ k < 2 ^ 64 := Nat.pow_lt_pow_right (by omega) hk
  apply BitVec.eq_of_toNat_eq
  rw [BitVec.toNat_and, BitVec.toNat_umod, BitVec.toNat_ofNat, BitVec.toNat_ofNat, Nat.mod_eq_of_lt hlt,
    Nat.mod_eq_of_lt (by omega), Nat.and_two_pow_sub_one_eq_mod]

end Sys2Proof.Machine
end

section
/-! Physical lines: what a read and a write do where no block of the line is under a key (R366), and what the undo log (R431) and a
mailbox that wakes its waiters (R323) leave unchanged. -/
namespace Sys2Proof.Machine

/-- The undo log records in the stops, and may tell of an early close. -/
theorem undoLog_eq (s : State) (pa : Nat) :
    ∃ st l, s.undoLog pa = { s with mem := { s.mem with stops := st }, out := s.out ++ l } := by
  unfold State.undoLog
  dsimp only
  split
  · exact ⟨s.mem.stops, [], by simp⟩
  · split
    · exact ⟨_, _, rfl⟩
    · exact ⟨_, [], by rw [List.append_nil]; rfl⟩

theorem keys_undoLog (s : State) (pa : Nat) : (s.undoLog pa).mem.keys = s.mem.keys := by
  obtain ⟨st, l, h⟩ := undoLog_eq s pa
  rw [h]

theorem cores_undoLog (s : State) (pa : Nat) : (s.undoLog pa).cores = s.cores := by
  obtain ⟨st, l, h⟩ := undoLog_eq s pa
  rw [h]

theorem locked_of_no_keys {m : Memory} {pa n : Nat} (t : BitVec 16) (h : ∀ i < n, tget m.keys (pa / 16 + i) = none) :
    m.locked t pa n = 0 := by
  induction n with
  | zero => rfl
  | succ n ih =>
    rw [Memory.locked, ih fun i hi => h i (by omega), h n (by omega)]
    exact BitVec.or_zero

theorem readPhys_of_no_keys {s : State} {pa : Nat} (t : BitVec 16) (h : ∀ i < 4, tget s.mem.keys (pa / 16 + i) = none) :
    s.readPhys t pa = (rdLine s.mem.bytes pa, s) := by
  rw [State.readPhys, locked_of_no_keys t h]
  rfl

theorem cores_writePhys (s : State) (t : BitVec 16) (pa : Nat) (d : Line) (m : BitVec 64) : (s.writePhys t pa d m).cores = s.cores := by
  unfold State.writePhys
  dsimp only
  split <;> rfl

theorem bytes_writePhys_of_no_keys {s : State} {pa : Nat} (t : BitVec 16) (d : Line) (m : BitVec 64)
    (h : ∀ i < 4, tget s.mem.keys (pa / 16 + i) = none) : (s.writePhys t pa d m).mem.bytes = wrMasked s.mem.bytes pa d m 64 := by
  unfold State.writePhys
  rw [locked_of_no_keys t h]
  simp

theorem cores_putLine (s : State) (t : BitVec 16) (pa : Nat) (d : Line) (m : BitVec 64) : (s.putLine t pa d m).cores = s.cores := by
  unfold State.putLine
  split
  · rfl
  · rw [cores_writePhys, cores_undoLog]

/-- A line without keys takes exactly the bytes that the mask names. -/
theorem byte_putLine_of_no_keys {s : State} {pa : Nat} (hwf : s.mem.wf = true) (t : BitVec 16) (d : Line) (m : BitVec 64)
    (h : ∀ i < 4, tget s.mem.keys (pa / 16 + i) = none) (a : Nat) :
    (s.putLine t pa d m).byte a = if pa ≤ a ∧ a < pa + 64 ∧ m.getLsbD (a - pa) = true then lineByte d (a - pa) else s.byte a := by
  unfold State.putLine
  split
  next hm => simp [hm]
  next =>
    rw [State.byte, bytes_writePhys_of_no_keys t d m (by rwa [keys_undoLog]), bytes_undoLog]
    exact rdByte_wrMasked hwf pa a d m 64

theorem reply_eq (s : State) (r : Req) (l : Line) (f : BitVec 6) (e : Option RFault) : ∃ c, s.reply r l f e = { s with chan := c } := by
  unfold State.reply
  split
  · exact ⟨s.chan, rfl⟩
  · exact ⟨_, rfl⟩

theorem answerWaits_eq (s : State) (n : Nat) : ∃ h c, s.answerWaits n = { s with homes := h, chan := c } := by
  induction n generalizing s with
  | zero => exact ⟨s.homes, s.chan, rfl⟩
  | succ n ih =>
    rw [State.answerWaits]
    split
    · exact ⟨s.homes, s.chan, rfl⟩
    · split
      · exact ⟨s.homes, s.chan, rfl⟩
      next i _ _ r _ =>
        obtain ⟨c, hr⟩ := reply_eq { s with homes := dropAt s.homes i } r ((s.cwaitDone r).getD 0) 0 none
        obtain ⟨h', c', ha⟩ := ih { s with homes := dropAt s.homes i, chan := c }
        exact ⟨h', c', by rw [hr, ha]⟩

/-- Waking who waits for a mailbox changes queues and channels only. -/
theorem mailWake_eq (s : State) : ∃ h c, s.mailWake = { s with homes := h, chan := c } := answerWaits_eq s _

@[simp] theorem cores_mailWake (s : State) : s.mailWake.cores = s.cores := by
  obtain ⟨h, c, e⟩ := mailWake_eq s
  rw [e]

@[simp] theorem byte_mailWake (s : State) (a : Nat) : s.mailWake.byte a = s.byte a := by
  obtain ⟨h, c, e⟩ := mailWake_eq s
  rw [e]
  rfl

end Sys2Proof.Machine
end

section
/-! Power, boot, heat, the ports, and the accesses of system software (O52). -/
namespace Sys2Proof.Machine
open Sys2Proof Sys2Proof.Manual

/-! ### Power and boot (R441 to R443, R445) -/

theorem exec_powerOn (s : State) : ∃ t, exec .powerOn s = .next t ∧ t.cores = [] ∧ t.mem = Memory.reset ∧ t.boot.state = 1 ∧
    t.boot.secver = s.boot.secver ∧ t.sched = Sched.reset ∧ t.chan = [] :=
  ⟨s.coldReset, rfl, rfl, rfl, rfl, rfl, rfl, rfl⟩

theorem exec_bootImageFetch_ok (s : State) (h : s.boot.state = 1) :
    exec (.bootImageFetch true) s = .next { s with boot := { s.boot with state := 2 } } := by
  change execBootImageFetch true s = _
  rw [execBootImageFetch, if_pos h]
  rfl

theorem exec_bootImageFetch_failed (s : State) (h : s.boot.state = 1) :
    exec (.bootImageFetch false) s = .next (s.onBoot fun b => b.failed s.now) := by
  change execBootImageFetch false s = _
  rw [execBootImageFetch, if_pos h]
  rfl

theorem exec_bootVerify_ok (cfg : List Byte) (s : State) (h : s.boot.state = 2) (hc : cfgOk cfg s.boot.secver = true) :
    exec (.bootVerify true cfg) s = .next (s.bootApply cfg) := by
  change execBootVerify true cfg s = _
  rw [execBootVerify, if_pos h, hc, Bool.and_self, if_pos rfl]

theorem mem_disabled_bootApply (s : State) (cfg : List Byte) {c : Nat} (hc : c < 512) :
    c ∈ (s.bootApply cfg).sched.disabled ↔ (cfgN cfg 24 64).testBit c = true := by
  simp only [State.bootApply, State.onSched, State.onBoot, List.mem_filter, mem_upTo, hc, true_and]

theorem exec_bootVerify_failed (cfg : List Byte) (s : State) (h : s.boot.state = 2) :
    exec (.bootVerify false cfg) s = .next (s.onBoot fun b => b.failed s.now) := by
  change execBootVerify false cfg s = _
  rw [execBootVerify, if_pos h]
  rfl

theorem exec_bootRetryWait (s : State) (h : s.boot.state = 4) (ht : s.boot.since + 60000000000 ≤ s.now) :
    exec .bootRetryWait s = .next { s with boot := { s.boot with state := 1, failures := 0 } } := by
  change execBootRetryWait s = _
  rw [execBootRetryWait, if_pos (by simp [h, ht])]
  rfl

theorem exec_hartStartRequest (hart : Nat) (s : State) (h0 : 0 ∈ s.boot.harts) (hlt : hart < 32) (hn : hart ∉ s.boot.harts) :
    exec (.hartStartRequest hart) s = .next { s with boot := { s.boot with harts := s.boot.harts ++ [hart] } } := by
  change Host.Outcome.next (s.startHart hart) = _
  rw [State.startHart, if_pos (by simp [h0, hlt, hn])]
  rfl

theorem exec_redfishPower (op : BitVec 2) (s : State) : ∃ t, exec (.redfishPower op) s = .next t ∧
    (op = 0 → t.boot.state = if s.boot.state = 0 then 1 else s.boot.state) ∧
    (op = 1 → t.boot.state = 0 ∧ t.cores = []) ∧ (op = 2 → s.rel.closing = false → t.boot.state = 1 ∧ t.cores = []) ∧
    (op = 2 → s.rel.closing = true → t.boot.pendingReset = true ∧ t.cores = s.cores) := by
  refine ⟨_, rfl, ?_, ?_, ?_, ?_⟩
  · rintro rfl
    change (if s.boot.state = 0 then s.coldReset else s).boot.state = _
    split <;> rfl
  · rintro rfl
    exact ⟨rfl, rfl⟩
  · rintro rfl hc
    simp [hc, State.coldReset, State.reset]
  · rintro rfl hc
    simp [hc, State.onBoot]

/-! ### Attestation, heat, ports (R367, R444 to R449) -/

theorem length_report (s : State) (tenant launch : Nat) (nonce : BitVec 256) : (s.report tenant launch nonce).length = 256 := by
  simp [State.report]

theorem exec_plimitSet (w : BitVec 32) (s : State) :
    exec (.plimitSet w) s =
      .next (if w.toNat ≤ s.sched.plimitMax then { s with sched := { s.sched with plimit := w.toNat } } else s) := rfl

theorem exec_thermalReport (die temp : Nat) (s : State) (h : die < 16) : exec (.thermalReport die temp) s = .next (s.thermal die temp) := by
  change execThermalReport die temp s = _
  rw [execThermalReport, if_pos h]

/-- What a report of heat makes of the boot record: a package stop leaves it alone. -/
theorem boot_thermal (s : State) (die temp : Nat) : (s.thermal die temp).boot =
    { s.boot with
      junction := tset s.boot.junction die temp
      wakeRefused := if temp ≥ s.boot.tthrot then
          (if s.boot.wakeRefused.contains die then s.boot.wakeRefused else s.boot.wakeRefused ++ [die])
        else s.boot.wakeRefused.filter (· != die)
      railOff := s.boot.railOff || decide (temp ≥ 125) } := by
  unfold State.thermal
  dsimp only
  split <;> rfl

theorem mem_wakeRefused_thermal (s : State) (die temp : Nat) :
    die ∈ (s.thermal die temp).boot.wakeRefused ↔ s.boot.tthrot ≤ temp := by
  rw [boot_thermal]
  dsimp only
  split
  · split <;> simp_all
  · simp_all

theorem dbg_thermal (s : State) (die temp : Nat) : (s.thermal die temp).dbg =
    if temp ≥ s.boot.tstop && !s.dbg.pkgHalt then (s.startStop 3 (coreOfDie die 0) false none).dbg else s.dbg := by
  unfold State.thermal
  exact apply_ite State.dbg ..

theorem exec_cxlPortDown (port : Nat) (s : State) (h : port < 16) : ∃ t, exec (.cxlPortDown port) s = .next t ∧
    port ∈ t.mem.cxlDown ∧ t.mem.bytes = s.mem.bytes ∧ t.cores = s.cores := by
  refine ⟨_, rfl, ?_⟩
  split
  · simp
  · exact ⟨by simp_all, rfl, rfl⟩

theorem exec_ethernetFrameReceive (port : Nat) (frame : List Byte) (s : State) (hp : port < 8) (hc : s.boot.cfgBit 98 port = true)
    (hb : s.boot.state = 3) (hh : s.dbg.pkgHalt = false) :
    exec (.ethernetFrameReceive port frame) s = .next { s with out := s.out ++ [.frame port frame] } := by
  change execEthernetFrameReceive port frame s = _
  rw [execEthernetFrameReceive, if_pos (by simp [hp, hc, hb]), State.etherIn, hh]
  rfl

theorem exec_pcieHostAccess_doorbell (addr data : Word) (s : State) (hc : s.boot.cfgBit 100 0 = true) (hb : s.boot.state = 3) :
    exec (.pcieHostAccess false true addr data) s = .next { s with out := s.out ++ [.doorbell addr data] } := by
  change execPcieHostAccess false true addr data s = _
  rw [execPcieHostAccess, if_pos (by simp [hc, hb])]
  rfl

/-! ### Memory as system software reads and writes it (R358, R360, R438) -/

theorem stBytes_eq_stN (sz : StSz) : stBytes sz = stN sz := by cases sz <;> rfl

/-- An access outside the debug window that stays in its line goes to memory. -/
theorem physAccess_memory {s : State} {n : Nat} {addr : Word} (a : Asker) (wr : Bool) (data : Word)
    (hd : inDebug (fld addr 57 0) = false) (hl : fld addr 57 0 % 64 + n ≤ 64) :
    s.physAccess a wr n addr data = if wr then s.physStore a addr n data else some (s.physLoad a addr n) := by
  simp [State.physAccess, hd, Nat.not_lt.mpr hl]

theorem exec_systemCoreAccess_memory {s : State} {sz : StSz} {addr : Word} (hart : Nat) (wr : Bool) (data : Word)
    (hd : inDebug (fld addr 57 0) = false) (hl : fld addr 57 0 % 64 + stN sz ≤ 64) :
    exec (.systemCoreAccess hart wr sz addr data) s = .next ((if wr then s.physStore (askerSys hart) addr (stN sz) data
      else some (s.physLoad (askerSys hart) addr (stN sz))).getD s) := by
  change execSystemCoreAccess hart wr sz addr data s = _
  rw [execSystemCoreAccess, stBytes_eq_stN, physAccess_memory _ _ _ hd hl]

/-- A line of blocks without keys, by the number of its blocks. -/
theorem no_keys_at_line {m : Memory} {pa : Nat} (h : ∀ n < 4, tget m.keys (pa / 64 * 4 + n) = none) :
    ∀ i < 4, tget m.keys (pa / 64 * 64 / 16 + i) = none := by
  rwa [show pa / 64 * 64 / 16 = pa / 64 * 4 by omega]

theorem physStore_eq {s : State} {addr : Word} {n : Nat} (a : Asker) (data : Word)
    (hc : s.physCheck addr (fld addr 57 0) n false = none) (hr : s.logRoom (fld addr 57 0 / 64 * 64) = true) :
    s.physStore a addr n data = some (s.putLine a.tenant (fld addr 57 0 / 64 * 64)
      (atByte (fld addr 57 0 % 64) (data.toNat % 2 ^ (8 * n))) (byteMask (fld addr 57 0 % 64) n)).mailWake := by
  simp [State.physStore, hc, hr]

/-- A value put into the line at pa without keys: its bytes stand from pa on, and no other byte changes. -/
theorem byte_putLine_value {s : State} {pa n : Nat} (t : BitVec 16) (data : Word) (hl : pa % 64 + n ≤ 64) (hwf : s.mem.wf = true)
    (hk : ∀ i < 4, tget s.mem.keys (pa / 64 * 64 / 16 + i) = none) (a : Nat) :
    (s.putLine t (pa / 64 * 64) (atByte (pa % 64) (data.toNat % 2 ^ (8 * n))) (byteMask (pa % 64) n)).byte a =
      if pa ≤ a ∧ a < pa + n then data.extractLsb' (8 * (a - pa)) 8 else s.byte a := by
  rw [byte_putLine_of_no_keys hwf t _ _ hk, getLsbD_byteMask _ hl]
  simp only [decide_eq_true_eq]
  by_cases h : pa ≤ a ∧ a < pa + n
  · rw [if_pos h, if_pos (by omega), lineByte_atByte_word data (by omega) (by omega) hl,
      show a - pa / 64 * 64 - pa % 64 = a - pa by omega]
  · rw [if_neg h, if_neg (by omega)]

theorem exec_systemCoreAccess_store (hart : Nat) (sz : StSz) (addr data : Word) (s : State) (hd : inDebug (fld addr 57 0) = false)
    (hl : fld addr 57 0 % 64 + stN sz ≤ 64) (hr : s.logRoom (fld addr 57 0 / 64 * 64) = true) (hwf : s.mem.wf = true)
    (hc : s.physCheck addr (fld addr 57 0) (stN sz) false = none)
    (hk : ∀ n < 4, tget s.mem.keys (fld addr 57 0 / 64 * 4 + n) = none) :
    ∃ t, exec (.systemCoreAccess hart true sz addr data) s = .next t ∧ t.cores = s.cores ∧
      ∀ a, t.byte a = if fld addr 57 0 ≤ a ∧ a < fld addr 57 0 + stN sz then data.extractLsb' (8 * (a - fld addr 57 0)) 8
        else s.byte a := by
  refine ⟨_, (exec_systemCoreAccess_memory hart true data hd hl).trans
    (by rw [if_pos rfl, physStore_eq _ _ hc hr, Option.getD_some]), ?_, fun a => ?_⟩
  · rw [cores_mailWake, cores_putLine]
  · rw [byte_mailWake, byte_putLine_value _ data hl hwf (no_keys_at_line hk)]

/-- A refusal is logged at its stop and told to the hart; no byte changes. -/
theorem physRefuse_sys (s : State) (hart : Nat) (addr : Word) (pa : Nat) (k : BitVec 8) :
    (s.physRefuse (askerSys hart) addr pa k).out = s.out ++ [.accessFault hart k addr] ∧
    (s.physRefuse (askerSys hart) addr pa k).mem.bytes = s.mem.bytes := by
  unfold State.physRefuse
  dsimp only
  split <;> exact ⟨rfl, rfl⟩

theorem exec_systemCoreAccess_store_refused (hart : Nat) (sz : StSz) (addr data : Word) (k : BitVec 8) (s : State)
    (hd : inDebug (fld addr 57 0) = false) (hl : fld addr 57 0 % 64 + stN sz ≤ 64)
    (hc : s.physCheck addr (fld addr 57 0) (stN sz) false = some k) :
    exec (.systemCoreAccess hart true sz addr data) s = .next (s.physRefuse (askerSys hart) addr (fld addr 57 0) k) := by
  rw [exec_systemCoreAccess_memory hart true data hd hl, if_pos rfl]
  simp [State.physStore, hc]

theorem exec_systemCoreAccess_load (hart : Nat) (sz : StSz) (addr data : Word) (s : State) (hd : inDebug (fld addr 57 0) = false)
    (hl : fld addr 57 0 % 64 + stN sz ≤ 64) (hc : s.physCheck addr (fld addr 57 0) (stN sz) true = none)
    (hk : ∀ n < 4, tget s.mem.keys (fld addr 57 0 / 64 * 4 + n) = none) :
    exec (.systemCoreAccess hart false sz addr data) s = .next { s with
      out := s.out ++ [.loaded hart (BitVec.ofNat 64 (leNat (fun k => s.byte (fld addr 57 0 + k)) (stN sz)))] } := by
  have hval : fromByte (rdLine s.mem.bytes (fld addr 57 0 / 64 * 64)) (fld addr 57 0 % 64) (stN sz) =
      leNat (fun k => s.byte (fld addr 57 0 + k)) (stN sz) := by
    rw [fromByte_rdLine _ _ hl, Nat.div_add_mod']
    exact (leNat_rdByte s.mem.bytes _ _).symm
  rw [exec_systemCoreAccess_memory hart false data hd hl, if_neg (by simp), State.physLoad]
  simp only [hc, readPhys_of_no_keys _ (no_keys_at_line hk), hval]
  rfl

/-! ### The debug window (R5, R6, R410, R447) -/

/-- Where register off of core's debug block stands. -/
def debugAddr (core off : Nat) : Word := BitVec.ofNat 64 (0xF0000000000 + 512 * core + off)

theorem fld_debugAddr {core off : Nat} (hc : core < 8192) (ho : off < 512) :
    fld (debugAddr core off) 57 0 = 0xF0000000000 + 512 * core + off := fld_ofNat (by omega) (by omega)

/-- A hart's access to a 64-bit register of a core's debug block goes to that register. -/
theorem exec_systemCoreAccess_window {core off : Nat} (hc : core < 8192) (ho : off < 512) (ha : off % 8 = 0) (hart : Nat) (wr : Bool)
    (data : Word) (s : State) :
    exec (.systemCoreAccess hart wr .d (debugAddr core off) data) s = .next (if wr then s.debugWrite core off data
      else (s.tell (.loaded hart (s.debugRead core off))).used) := by
  have hin : inDebug (0xF0000000000 + 512 * core + off) = true := by
    simp only [inDebug, Bool.and_eq_true, decide_eq_true_eq]
    omega
  have hwin : 0xF0000000000 + 512 * core + off - 0xF0000000000 = 512 * core + off := by omega
  have hsh : (512 * core + off) % 8 = 0 := by omega
  have hreg : (512 * core + off) / 8 * 8 = 512 * core + off := by omega
  have hlow : 512 * core + off < 0x400000 := by omega
  have hblk : (512 * core + off) / 512 = core := by omega
  have hoff : (512 * core + off) % 512 = off := by omega
  have hfit : ¬((0xF0000000000 + 512 * core + off) % 64 + 8 > 64 ∨
      inDebug (0xF0000000000 + 512 * core + off) = true ∧ (0xF0000000000 + 512 * core + off) % 8 + 8 > 8) := by omega
  change execSystemCoreAccess hart wr .d (debugAddr core off) data s = _
  rw [execSystemCoreAccess, State.physAccess]
  simp only [fld_debugAddr hc ho, stBytes]
  rw [if_neg hfit, if_pos hin]
  simp only [askerSys, Option.getD_some, State.windowAccess, hwin, hreg, hsh, State.windowRead, State.windowWrite, hlow, hblk, hoff,
    if_true]
  cases wr with
  | true => rfl
  | false => simp [State.tellRead, Nat.mod_eq_of_lt (s.debugRead core off).isLt]

/-! ### Control registers (R335, R358, R371) -/

theorem exec_controlRegisterWrite_tenantRoot (n : Nat) (v : Word) (s : State) (h : n < 65536) :
    exec (.controlRegisterWrite (.tenantRoot n) v) s = .next { s with mem := { s.mem with roots := tset s.mem.roots n v } } := by
  change Host.Outcome.next (s.control (.tenantRoot n) v) = _
  rw [State.control, if_pos h]

/-- The bits of a window register that can be written: 37 of word A, 32 of word B (R185). -/
theorem and_winBits (v : Word) (i : BitVec 3) : v &&& winBits i = v % if i.toNat % 2 = 1 then 2 ^ 32 else 2 ^ 37 := by
  have hb : i.getLsbD 0 = decide (i.toNat % 2 = 1) := by simp [BitVec.getLsbD, Nat.testBit_zero]
  rw [winBits, hb]
  by_cases h : i.toNat % 2 = 1
  · rw [if_pos h, if_pos (decide_eq_true h)]
    exact and_mask_eq_mod v (k := 32) (by omega)
  · rw [if_neg h, if_neg (by simpa using h)]
    exact and_mask_eq_mod v (k := 37) (by omega)

theorem setCsr_eq_csrWritten (k : Core) (r : Csr) (v : Word) : k.setCsr r v = csrWritten k r v := by
  cases r with
  | win i => simp [Core.setCsr, csrWritten, and_winBits]
  | _ => rfl

theorem exec_controlRegisterWrite_coreReg (core n : Nat) (c : Csr) (v : Word) (s : State) (hc : core < 8192) (hn : n < 4096)
    (h : csrOf (BitVec.ofNat 12 n) = .ok c) :
    exec (.controlRegisterWrite (.coreReg core n) v) s = .next (s.onCore core fun k => csrWritten k c v) := by
  change Host.Outcome.next (s.control (.coreReg core n) v) = _
  simp only [State.control, h, if_pos (show core < Config.cores ∧ n < 4096 from ⟨hc, hn⟩), setCsr_eq_csrWritten]

/-- The bits of word 0 that a group's entry keeps (R335). -/
theorem fgroup_bits_kept (v : Word) :
    fgRank (v &&& 0x0000FFFFFFFFFF01) = fld v 19 8 ∧ fgSize (v &&& 0x0000FFFFFFFFFF01) = fld v 31 20 + 1 ∧
    (v &&& 0x0000FFFFFFFFFF01).getLsbD 0 = v.getLsbD 0 := by
  refine ⟨fld_and v (by decide), congrArg (· + 1) (fld_and v (by decide)), ?_⟩
  simp

theorem exec_controlRegisterWrite_fabricGroup (g : Nat) (v : Word) (s : State) (h : g < 256) :
    ∃ t, exec (.controlRegisterWrite (.fabricGroup g 0) v) s = .next t ∧ t.fgroup g = v &&& 0x0000FFFFFFFFFF01 := by
  refine ⟨_, rfl, ?_⟩
  rw [State.control, if_neg (by omega), if_pos rfl]
  exact tgetD_tset_self ..

/-! ### The obligation -/

/-- Settles O52: clause by clause, by what each step of power, boot, heat, ports, memory accesses and control registers does. -/
theorem systemSteps : Obligations.SystemSteps := by
  unfold Obligations.SystemSteps
  refine ⟨exec_powerOn, exec_bootImageFetch_ok, ?fetchFailed, ?verified, ?notVerified, exec_bootRetryWait, exec_hartStartRequest,
    exec_redfishPower, fun s => rfl, ?attested, exec_plimitSet, ?heat, exec_cxlPortDown, exec_ethernetFrameReceive,
    exec_pcieHostAccess_doorbell, exec_systemCoreAccess_store, ?refused, exec_systemCoreAccess_load, ?commandRead, ?edgeWritten,
    exec_controlRegisterWrite_tenantRoot, exec_controlRegisterWrite_coreReg, ?group⟩
  case fetchFailed => exact fun s h => ⟨_, exec_bootImageFetch_failed s h, rfl, rfl⟩
  case verified =>
    intro cfg s h hc
    exact ⟨_, exec_bootVerify_ok cfg s h hc, rfl, rfl, rfl, rfl, rfl, rfl, fun c => mem_disabled_bootApply s cfg, Nat.le_max_left ..⟩
  case notVerified => exact fun cfg s h => ⟨_, exec_bootVerify_failed cfg s h, rfl, rfl⟩
  case attested =>
    intro tenant launch nonce s
    exact ⟨_, s.report tenant launch nonce, rfl, rfl, length_report .., rfl, rfl⟩
  case heat =>
    intro die temp s hd
    refine ⟨_, exec_thermalReport die temp s hd, ?_, mem_wakeRefused_thermal s die temp, fun ht => ?_, fun ht hh => ?_, fun ht => ?_⟩
    · rw [boot_thermal]
      exact tget_tset_self ..
    · simp [boot_thermal, ht]
    · rw [dbg_thermal, if_pos (by simp [ht, hh])]
      exact Bool.or_true _
    · rw [dbg_thermal, if_neg (by simp; omega)]
  case refused =>
    intro hart sz addr data k s pa hd hl hc
    exact ⟨_, exec_systemCoreAccess_store_refused hart sz addr data k s hd hl hc, physRefuse_sys s hart addr _ k⟩
  case commandRead =>
    intro hart core s hc
    exact ⟨_, exec_systemCoreAccess_window hc (off := 16) (by omega) rfl hart false 0 s, rfl, rfl, rfl, rfl⟩
  case edgeWritten => exact fun hart core v s hc => exec_systemCoreAccess_window hc (off := 24) (by omega) rfl hart true v s
  case group =>
    intro g v s hg
    obtain ⟨t, ht, hw⟩ := exec_controlRegisterWrite_fabricGroup g v s hg
    exact ⟨t, ht, hw ▸ fgroup_bits_kept v⟩

end Sys2Proof.Machine
end

section
/-! Contexts where a core's shared parts change. -/
namespace Sys2Proof.Machine

theorem ctx_onCore_of_ctxs {s : State} {c : Nat} {f : Core → Core} (h : (f (s.core c)).ctxs = (s.core c).ctxs) (d y : Nat) :
    (s.onCore c f).ctx d y = s.ctx d y := by
  unfold State.ctx Core.ctx
  rw [State.core_onCore]
  split
  next hd => rw [h, hd]
  next => rfl

end Sys2Proof.Machine
end

section
/-! The machine after reset (O53). -/
namespace Sys2Proof.Machine

/-! ### The registers that a thread starts with (R43, R62, R105) -/

theorem getG_reset (r : GReg) : Regs.reset.getG r = 0 := by
  unfold Regs.getG
  split
  · rfl
  · exact Vector.getElem_replicate ..

theorem getV_reset (r : VReg) : Regs.reset.getV r = 0 := Vector.getElem_replicate ..

theorem getP_reset (r : PReg) : Regs.reset.getP r = if r = 0 then 0xFFFF else 0 := by
  revert r
  decide

/-- Settles O53: what a table does not list is at reset, and at reset the tables list nothing. -/
theorem resetState : Obligations.ResetState := by
  unfold Obligations.ResetState
  exact ⟨fun _ _ => ⟨rfl, rfl, rfl⟩, fun _ _ _ => ⟨rfl, rfl⟩, fun _ => ⟨rfl, List.not_mem_nil, List.not_mem_nil⟩, rfl, rfl, rfl, rfl,
    getG_reset, getV_reset, getP_reset, rfl, rfl, rfl, rfl, rfl⟩

end Sys2Proof.Machine
end

section
/-! Where units lie and what a message passes (O57): an axis is walked one number at a time, and a path is a walk along X joined to one
along Y. -/
namespace Sys2Proof.Machine

/-! ### One axis -/

/-- The k-th number on the way from a to b. -/
def axisAt (a b k : Nat) : Nat := if a ≤ b then a + k else a - k

theorem cons_axisPath (a b : Nat) : a :: axisPath a b = (List.range (max a b - min a b + 1)).map (axisAt a b) := by
  rw [List.range_succ_eq_map, List.map_cons, List.map_map]
  unfold axisPath
  split
  next h =>
    rw [show max a b - min a b = b - a by omega]
    simp [axisAt, h, Function.comp_def, Nat.add_comm, Nat.add_left_comm]
  next h =>
    rw [show max a b - min a b = a - b by omega]
    simp [axisAt, h, Function.comp_def, Nat.sub_sub, Nat.add_comm]

theorem length_axisPath (a b : Nat) : (axisPath a b).length = max a b - min a b := by
  have h := congrArg List.length (cons_axisPath a b)
  simpa using h

theorem axisAt_dist (a b : Nat) : axisAt a b (max a b - min a b) = b := by
  unfold axisAt
  split <;> omega

theorem getLast?_axisPath (a b : Nat) : (axisPath a b).getLast?.getD a = b := by
  have h := congrArg List.getLast? (cons_axisPath a b)
  rw [List.getLast?_cons, List.getLast?_map, List.range_succ, List.getLast?_concat, Option.map_some, axisAt_dist] at h
  exact Option.some.inj h

/-- Two numbers are neighbours on an axis. -/
def axisNext (u v : Nat) : Prop := u + 1 = v ∨ v + 1 = u

theorem axisAt_next {a b k : Nat} (h : k < max a b - min a b) : axisNext (axisAt a b k) (axisAt a b (k + 1)) := by
  unfold axisNext axisAt
  split <;> omega

theorem isChain_axisPath (a b : Nat) : (a :: axisPath a b).IsChain axisNext := by
  rw [cons_axisPath, List.isChain_iff_getElem]
  intro i hi
  simp only [List.length_map, List.length_range] at hi
  simp only [List.getElem_map, List.getElem_range]
  exact axisAt_next (by omega)

/-! ### Along X, then along Y (R13) -/

/-- Two routers are neighbours in the mesh. -/
def meshNext (u v : Nat × Nat) : Prop :=
  (u.2 = v.2 ∧ (u.1 + 1 = v.1 ∨ v.1 + 1 = u.1)) ∨ (u.1 = v.1 ∧ (u.2 + 1 = v.2 ∨ v.2 + 1 = u.2))

theorem head?_xyPath (p q : Nat × Nat) : (xyPath p q).head? = some p := rfl

theorem getLast?_xyPath (p q : Nat × Nat) : (xyPath p q).getLast? = some q := by
  have hx := getLast?_axisPath p.1 q.1
  have hy := getLast?_axisPath p.2 q.2
  rw [xyPath, List.getLast?_cons, List.getLast?_append, List.getLast?_map, List.getLast?_map]
  congr 1
  cases h2 : (axisPath p.2 q.2).getLast? with
  | some y => exact Prod.ext rfl (by simpa [h2] using hy)
  | none =>
    rw [h2] at hy
    cases h1 : (axisPath p.1 q.1).getLast? with
    | some x => exact Prod.ext (by simpa [h1] using hx) hy
    | none => exact Prod.ext (by simpa [h1] using hx) hy

theorem length_xyPath (p q : Nat × Nat) :
    (xyPath p q).length = (max p.1 q.1 - min p.1 q.1) + (max p.2 q.2 - min p.2 q.2) + 1 := by
  simp [xyPath, length_axisPath]

theorem mem_xyPath {p q m : Nat × Nat} (h : m ∈ xyPath p q) : m.2 = p.2 ∨ m.1 = q.1 := by
  simp only [xyPath, List.mem_cons, List.mem_append, List.mem_map] at h
  obtain rfl | ⟨x, -, rfl⟩ | ⟨y, -, rfl⟩ := h
  · exact .inl rfl
  · exact .inl rfl
  · exact .inr rfl

/-- The way along X ends where the way along Y begins. -/
theorem isChain_xyPath (p q : Nat × Nat) : (xyPath p q).IsChain meshNext := by
  have hrow : ((p.1 :: axisPath p.1 q.1).map (·, p.2)).IsChain meshNext :=
    List.isChain_map_of_isChain _ (fun _ _ h => .inl ⟨rfl, h⟩) (isChain_axisPath p.1 q.1)
  have hcol : ((p.2 :: axisPath p.2 q.2).map (q.1, ·)).IsChain meshNext :=
    List.isChain_map_of_isChain _ (fun _ _ h => .inr ⟨rfl, h⟩) (isChain_axisPath p.2 q.2)
  have hcorner : ((p.1 :: axisPath p.1 q.1).map (·, p.2)).getLast? = some (q.1, p.2) := by
    rw [List.getLast?_map, List.getLast?_cons, getLast?_axisPath, Option.map_some]
  refine List.IsChain.append hrow hcol.tail fun u hu v hv => ?_
  obtain rfl := Option.some.inj (hcorner.symm.trans hu)
  exact hcol.rel_head? hv

/-! ### Between units (R13, R193, R451) -/

theorem ioDie_of_router {a : Node} {p : Nat × Nat} (h : a.router = some p) : a.ioDie = none := by
  cases a with
  | core | cluster | die | stop => rfl
  | hart | ethernet | cxl | link | keepalive | scheduler | package | fabric | security | pcie => cases h

theorem path_of_routers {a b : Node} {p q : Nat × Nat} (ha : a.router = some p) (hb : b.router = some q) : path a b = xyPath p q := by
  simp [path, ha, hb]

theorem path_to_ioDie {a b : Node} {p : Nat × Nat} {d : Nat} (ha : a.router = some p) (hb : b.router = none)
    (hd : b.ioDie = some d) : path a b = xyPath p (attachFor d p) := by
  simp [path, ha, hb, hd]

theorem hops_of_routers {a b : Node} {p q : Nat × Nat} (ha : a.router = some p) (hb : b.router = some q) :
    hops a b = (max p.1 q.1 - min p.1 q.1) + (max p.2 q.2 - min p.2 q.2) := by
  simp [hops, path_of_routers ha hb, length_xyPath, ioDie_of_router ha, ioDie_of_router hb]

theorem hops_to_ioDie {a b : Node} {p : Nat × Nat} {d : Nat} (ha : a.router = some p) (hb : b.router = none)
    (hd : b.ioDie = some d) : hops a b = (path a b).length - 1 + 2 := by
  have hne : path a b ≠ [] := by
    rw [path_to_ioDie ha hb hd]
    exact List.cons_ne_nil _ _
  simp [hops, hne, ioDie_of_router ha, hd]

theorem attachFor_eq {d : Nat} (h : d < 4) (p : Nat × Nat) :
    attachFor d p = if d = 0 then (32 * (p.1 / 32) + 16, 0) else if d = 1 then (127, 16 * (p.2 / 16) + 8)
      else if d = 2 then (32 * (p.1 / 32) + 16, 63) else (0, 16 * (p.2 / 16) + 8) := by
  obtain rfl | rfl | rfl | rfl : d = 0 ∨ d = 1 ∨ d = 2 ∨ d = 3 := by omega
  all_goals rfl

/-! ### Where the units lie (R12, R14, R23) -/

theorem router_cluster {k x y : Nat} (hk : k < 512) (h : Node.router (.cluster k) = some (x, y)) :
    x < 128 ∧ y < 64 ∧ x % 4 = 0 ∧ y % 4 = 0 ∧ (y / 16 * 4 + x / 32) * 32 + y % 16 / 4 * 8 + x % 32 / 4 = k := by
  obtain ⟨rfl, rfl⟩ : 32 * (k / 32 % 4) + 4 * (k % 8) = x ∧ 16 * (k / 32 / 4) + 4 * (k % 32 / 8) = y := by
    simpa [Node.router] using h
  omega

theorem router_stop {n j : Nat} (hj : j < 4) :
    Node.router (.stop (4 * n + j)) = some (32 * (n % 4) + 8 * j + 3, 16 * (n / 4) + 7) := by
  rw [Node.router, show (4 * n + j) / 4 = n by omega, show (4 * n + j) % 4 = j by omega]

/-- Settles O57: a path is the walk along X and the walk along Y, each of neighbours; the walk to an IO die ends at its attachment router. -/
theorem messagePaths : Obligations.MessagePaths := by
  unfold Obligations.MessagePaths
  refine ⟨fun _ _ => rfl, fun k hk x y h => router_cluster hk h, fun _ _ => rfl, fun n j _ hj => router_stop hj, ?routers, ?attached⟩
  case routers =>
    intro a b p q ha hb
    rw [path_of_routers ha hb]
    refine ⟨head?_xyPath p q, getLast?_xyPath p q, fun m hm => mem_xyPath hm, fun n u v hu hv => ?_, hops_of_routers ha hb⟩
    obtain ⟨hn, rfl⟩ := List.getElem?_eq_some_iff.mp hu
    obtain ⟨hn', rfl⟩ := List.getElem?_eq_some_iff.mp hv
    exact List.isChain_iff_getElem.mp (isChain_xyPath p q) n hn'
  case attached =>
    intro a b p d ha hb hd hlt
    refine ⟨?_, ?_, hops_to_ioDie ha hb hd⟩
    · rw [path_to_ioDie ha hb hd, head?_xyPath]
    · rw [path_to_ioDie ha hb hd, getLast?_xyPath, attachFor_eq hlt]

end Sys2Proof.Machine
end

section
/-! Waking a core (O43, R15, R383, R448). -/
namespace Sys2Proof.Machine

/-- A wake that completes takes a free value for the alignment of the core's cycle count (log entry 76). -/
theorem exec_coreWake_awake {core n : Nat} {s : State} (hp : (s.core core).power = .waking n) (hn : n ≤ s.now) :
    exec (.coreWake core) s = .next (s.used.onCore core fun k =>
      { k with power := .awake, idleSince := s.now, phase := (Config.freeWord s.fresh).toNat % 8 }) := by
  change Host.Outcome.next (s.wake core) = _
  simp only [State.wake, hp, hn, if_true]

/-- The state after reset, but core 0 is waking and its instant has come. -/
def wakingCore : State := { State.reset with cores := [(0, { Core.reset with power := .waking 0 })] }

/-- Refutes O43: a core whose wake completes is not only awake and idle: the step takes a free value for the alignment of its cycle count
(log entry 76), which the statement's next state leaves unused. Core 0 of the state after reset, waking until instant 0, shows it. -/
theorem not_launchSteps : ¬ Obligations.LaunchSteps := by
  unfold Obligations.LaunchSteps
  rintro ⟨-, -, -, -, hwake, -⟩
  have hp : (wakingCore.core 0).power = .waking 0 := rfl
  have hsaid := hwake 0 0 wakingCore hp (Nat.zero_le _)
  rw [exec_coreWake_awake hp (Nat.zero_le _)] at hsaid
  have hfresh : wakingCore.fresh + 1 = wakingCore.fresh := congrArg State.fresh (Host.Outcome.next.inj hsaid)
  omega

end Sys2Proof.Machine
end

section
/-! The end of a launch: how a status word goes up the tree of cores (O44, R28, R186, R378). -/
namespace Sys2Proof.Machine

/-! ### The scheduler where nothing waits for room -/

theorem roomless_of_noneWaits {s : State} (h : s.noneWaits = true) (i : Nat) : s.roomless i = false := by
  unfold State.noneWaits at h
  cases hx : s.inst i with
  | none => simp [State.roomless, hx]
  | some x =>
    have hid : x.id = i := by simpa using List.find?_some hx
    have hroom := List.all_eq_true.mp h x (List.mem_of_find?_eq_some hx)
    rw [hid] at hroom
    simpa using hroom

theorem queueReady_of_not_roomless {s : State} {i : Nat} (h : s.roomless i = false) : s.queueReady i = s := by
  unfold State.queueReady
  split
  · rfl
  next x hx =>
    have hnone : x.nodes.filter (fun n => n.left == 0 && n.st == .waiting) = [] := by
      rw [List.filter_eq_nil_iff]
      intro n hn
      rw [State.roomless, hx, Option.any_some] at h
      exact List.any_eq_false.mp h n hn
    rw [hnone]
    rfl

theorem requeue_of_noneWaits {s : State} (h : s.noneWaits = true) : s.requeue = s :=
  List.foldl_fixed' (f := fun (s : State) (x : Inst) => s.queueReady x.id)
    (fun x => queueReady_of_not_roomless (roomless_of_noneWaits h x.id)) _

theorem noneWaits_congr {s t : State} (h : t.sched.insts = s.sched.insts) : t.noneWaits = s.noneWaits := by
  unfold State.noneWaits State.roomless State.inst
  rw [h]

theorem mailbox_zero (s : State) (a : Asker) (w0 w1 : Word) : s.mailbox a 0 w0 w1 = s := if_pos rfl

theorem onLaunch_eq {s : State} {n : Nat} {l : Launch} (f : Launch → Launch) (h : s.launch n = some l) :
    s.onLaunch n f = { s with sched := { s.sched with launches := tset s.sched.launches n (f l) } } := by
  rw [State.onLaunch, h]
  rfl

/-- The newest of the launches that have ended is always kept. -/
theorem mem_finished (l : List Nat) (n : Nat) : n ∈ (l ++ [n]).drop (l.length + 1 - 1024) := by
  rw [List.mem_drop_iff_getElem]
  exact ⟨l.length - (l.length + 1 - 1024), by simp, by
    rw [List.getElem_append_right (by omega)]
    simp⟩

/-- The end of a launch outside a graph that has no mailbox, while nothing waits for room. -/
theorem finishLaunch_eq {s : State} {l x : Launch} (status : BitVec 32) (hx : s.launch l.id = some x) (hnode : l.node = none)
    (hmbox : descW l.desc 4 = 0) (hnone : s.noneWaits = true) :
    s.finishLaunch l status = { s with sched := { s.sched with
      launches := tset s.sched.launches l.id { x with st := .done, status := status }
      finished := (s.sched.finished ++ [l.id]).drop (s.sched.finished.length + 1 - 1024) } } := by
  rw [State.finishLaunch, hnode, hmbox, onLaunch_eq _ hx]
  dsimp only
  rw [mailbox_zero]
  exact requeue_of_noneWaits hnone

/-! ### A launch leaves its cores (R186) -/

theorem ctxs_unsettle (k : Core) (launch : Nat) : (k.unsettle launch).ctxs = k.ctxs := by
  unfold Core.unsettle
  dsimp only
  split <;> rfl

theorem residents_unsettle (k : Core) (launch : Nat) :
    (k.unsettle launch).residents = k.residents.filter fun r => r.launch.toNat != launch := by
  unfold Core.unsettle
  dsimp only
  split <;> rfl

theorem enable_unsettle {k : Core} {launch : Nat} (h : ∀ r ∈ k.residents, r.launch.toNat = launch) :
    ((k.unsettle launch).win 0).getLsbD 36 = false := by
  have hnil : k.residents.filter (fun r => r.launch.toNat != launch) = [] := by
    rw [List.filter_eq_nil_iff]
    intro r hr
    simp [h r hr]
  simp [Core.unsettle, Core.anyResident, hnil, Core.win]

/-- A launch with a partition word leaves a core, and its twin where the word makes a pair. -/
def State.unsettled (s : State) (core launch : Nat) (part : Word) : State :=
  let s := s.onCore core fun k => k.unsettle launch
  if partPair part then s.onCore (core + 64) fun k => k.unsettle launch else s

theorem mem_unsettled (s : State) (core launch : Nat) (part : Word) : (s.unsettled core launch part).mem = s.mem := by
  unfold State.unsettled
  split <;> rfl

theorem sched_unsettled (s : State) (core launch : Nat) (part : Word) : (s.unsettled core launch part).sched = s.sched := by
  unfold State.unsettled
  split <;> rfl

theorem chan_unsettled (s : State) (core launch : Nat) (part : Word) : (s.unsettled core launch part).chan = s.chan := by
  unfold State.unsettled
  split <;> rfl

theorem now_unsettled (s : State) (core launch : Nat) (part : Word) : (s.unsettled core launch part).now = s.now := by
  unfold State.unsettled
  split <;> rfl

theorem core_unsettled (s : State) (core launch : Nat) (part : Word) :
    (s.unsettled core launch part).core core = (s.core core).unsettle launch := by
  unfold State.unsettled
  dsimp only
  split
  · rw [State.core_onCore, if_neg (by omega), State.core_onCore_self]
  · rw [State.core_onCore_self]

theorem ctx_unsettled (s : State) (core launch : Nat) (part : Word) (c y : Nat) :
    (s.unsettled core launch part).ctx c y = s.ctx c y := by
  unfold State.unsettled
  dsimp only
  split
  · rw [ctx_onCore_of_ctxs (ctxs_unsettle ..), ctx_onCore_of_ctxs (ctxs_unsettle ..)]
  · rw [ctx_onCore_of_ctxs (ctxs_unsettle ..)]

/-! ### A word goes up (R28) -/

/-- A core that is done and has heard all its children sends the combined word up, or, at the root, ends the launch. -/
theorem sendUp_eq {s : State} {core launch i : Nat} {l : Launch} {r : Resident} {word : BitVec 32} (hl : s.launch launch = some l)
    (hr : (s.core core).residents.find? (fun r => r.launch.toNat == launch && r.done) = some r)
    (hi : l.cores.findIdx? (· == core) = some i)
    (hkids : ((childrenOf l.cores i).all fun c => (l.heard.filter fun h => h.1 == core).any fun h => h.2.1 == c) = true)
    (hword : (l.heard.filter fun h => h.1 == core).foldl (fun w h => combine w h.2.2) r.status = word) :
    s.sendUp core launch =
      if i = 0 then (s.unsettled core launch (descW l.desc 1)).finishLaunch l word
      else (s.unsettled core launch (descW l.desc 1)).send (.status launch core word) := by
  simp only [State.sendUp, State.unsettled, hl, hr, hi, hkids, hword, Option.getD_some, Bool.not_true, Bool.false_eq_true, if_false]

/-- The root's word ends the launch. -/
theorem sendUp_root {s : State} {core launch : Nat} {l : Launch} {r : Resident} {word : BitVec 32} (hl : s.launch launch = some l)
    (hid : l.id = launch) (hr : (s.core core).residents.find? (fun r => r.launch.toNat == launch && r.done) = some r)
    (hi : l.cores.findIdx? (· == core) = some 0)
    (hkids : ((childrenOf l.cores 0).all fun c => (l.heard.filter fun h => h.1 == core).any fun h => h.2.1 == c) = true)
    (hword : (l.heard.filter fun h => h.1 == core).foldl (fun w h => combine w h.2.2) r.status = word)
    (hnode : l.node = none) (hmbox : descW l.desc 4 = 0) (hnone : s.noneWaits = true) :
    (s.sendUp core launch).launch launch = some { l with st := .done, status := word } ∧
    launch ∈ (s.sendUp core launch).sched.finished ∧ (s.sendUp core launch).mem = s.mem ∧ (s.sendUp core launch).chan = s.chan := by
  have hsched := sched_unsettled s core launch (descW l.desc 1)
  have hx : (s.unsettled core launch (descW l.desc 1)).launch l.id = some l := by rw [State.launch, hsched, hid]; exact hl
  rw [sendUp_eq hl hr hi hkids hword, if_pos rfl,
    finishLaunch_eq word hx hnode hmbox ((noneWaits_congr (congrArg Sched.insts hsched)).trans hnone), hsched, hid]
  refine ⟨tget_tset_self .., ?_, mem_unsettled .., chan_unsettled ..⟩
  dsimp only
  exact mem_finished ..

theorem sendUp_of_not_done {s : State} {core launch : Nat}
    (h : ((s.core core).residents.any fun r => r.launch.toNat == launch && r.done) = false) : s.sendUp core launch = s := by
  have hnone : (s.core core).residents.find? (fun r => r.launch.toNat == launch && r.done) = none := by
    rw [List.find?_eq_none]
    exact fun r hr => by simpa using List.any_eq_false.mp h r hr
  unfold State.sendUp
  rw [hnone]
  split
  next h => cases h
  next => rfl

/-- The core's own threads of a launch are over. -/
def Core.markDone (k : Core) (launch : Nat) : Core := k.onResident (BitVec.ofNat 32 launch) fun r => { r with done := true }

theorem doneMessage_eq {s : State} {core launch : Nat} (h : s.coreDone core launch = true) :
    s.doneMessage core launch = (s.onCore core fun k => k.markDone launch).sendUp core launch := by
  rw [State.doneMessage, h]
  rfl

/-- The resident launch that is done is the one that was marked. -/
theorem find?_markDone {k : Core} {launch : Nat} {r : Resident}
    (h : k.residents.find? (fun r => r.launch.toNat == launch) = some r) :
    (k.markDone launch).residents.find? (fun r => r.launch.toNat == launch && r.done) = some { r with done := true } := by
  have hid : r.launch.toNat = launch := by simpa using List.find?_some h
  have hlt : launch < 2 ^ 32 := hid ▸ r.launch.isLt
  have hiff (q : Resident) : q.launch = BitVec.ofNat 32 launch ↔ q.launch.toNat = launch := by
    rw [← BitVec.toNat_inj, BitVec.toNat_ofNat, Nat.mod_eq_of_lt hlt]
  have hcomp : ((fun r : Resident => r.launch.toNat == launch && r.done) ∘
      fun r => if r.launch = BitVec.ofNat 32 launch then { r with done := true } else r) = fun r => r.launch.toNat == launch := by
    funext q
    by_cases hq : q.launch.toNat = launch <;> simp [hiff, hq]
  rw [Core.markDone, Core.onResident, List.find?_map, hcomp, h, Option.map_some, if_pos ((hiff r).mpr hid)]

theorem mem_markDone {k : Core} {launch : Nat} {q : Resident} (h : q ∈ (k.markDone launch).residents) :
    ∃ r ∈ k.residents, q.launch = r.launch := by
  obtain ⟨r, hr, rfl⟩ := List.mem_map.mp h
  refine ⟨r, hr, ?_⟩
  split <;> rfl

/-! ### The steps -/

theorem exec_doneMessage {s : State} {core launch : Nat} (h : s.coreDone core launch = true) :
    exec (.doneMessage core launch) s = .next ((s.onCore core fun k => k.markDone launch).sendUp core launch) :=
  congrArg Host.Outcome.next (doneMessage_eq h)

/-- A launch keeps the word that core p has heard from core c. -/
def State.hears (s : State) (launch p c : Nat) (w : BitVec 32) : State :=
  s.onLaunch launch fun x => { x with heard := x.heard ++ [(p, c, w)] }

theorem hears_eq {s : State} {launch : Nat} {l : Launch} (p c : Nat) (w : BitVec 32) (h : s.launch launch = some l) :
    s.hears launch p c w = { s with sched := { s.sched with
      launches := tset s.sched.launches launch { l with heard := l.heard ++ [(p, c, w)] } } } := onLaunch_eq _ h

theorem launch_hears {s : State} {launch : Nat} {l : Launch} (p c : Nat) (w : BitVec 32) (h : s.launch launch = some l) :
    (s.hears launch p c w).launch launch = some { l with heard := l.heard ++ [(p, c, w)] } := by
  rw [hears_eq p c w h]
  exact tget_tset_self ..

theorem exec_completionCombine {i launch c n p : Nat} {w : BitVec 32} {l : Launch} {s : State} (hm : s.message i (.status launch c w))
    (hl : s.launch launch = some l) (hn : l.cores.findIdx? (· == c) = some n) (hp : (l.cores[(n - 1) / 4]?).getD 0 = p) :
    exec (.completionCombine i) s = .next (((s.unsend i).hears launch p c w).sendUp p launch) := by
  obtain ⟨⟨born, body⟩, hm, rfl⟩ := hm
  have hl' : (s.unsend i).launch launch = some l := hl
  change execCompletionCombine i s = _
  simp only [execCompletionCombine, hm, State.hearStatus, hl', hn, hp, State.hears]

/-! ### The obligation -/

/-- Settles O44: a core's word goes to its parent, the parent combines its children's words, and the root's word ends the launch. -/
theorem completionTree : Obligations.CompletionTree := by
  unfold Obligations.CompletionTree
  refine ⟨?sent, ?alone, ?heard, ?combined⟩
  case sent =>
    intro core launch l r i s hd hl hi hkids hheard hr
    have hmark : (s.onCore core fun k => k.markDone launch).core core = (s.core core).markDone launch := State.core_onCore_self ..
    have hup := sendUp_eq (s := s.onCore core fun k => k.markDone launch) hl (hmark ▸ find?_markDone hr) hi (by rw [hkids]; rfl)
      (by rw [hheard])
    rw [if_neg (Nat.succ_ne_zero i)] at hup
    refine ⟨_, (exec_doneMessage hd).trans (congrArg _ hup), ?_, fun c y => ?_, ?_, fun q hq => ?_, fun hall => ?_⟩
    · exact mem_unsettled ..
    · exact (ctx_unsettled ..).trans (ctx_onCore_of_ctxs rfl c y)
    · rw [State.send_chan, chan_unsettled, now_unsettled, State.onCore_chan]
      rfl
    · rw [State.core_send, core_unsettled, residents_unsettle] at hq
      simpa using (List.mem_filter.mp hq).2
    · rw [State.core_send, core_unsettled, hmark]
      refine enable_unsettle fun q hq => ?_
      obtain ⟨r', hr', he⟩ := mem_markDone hq
      rw [he, hall r' hr']
  case alone =>
    intro core launch l r s hd hl hid hcores hheard hnode hmbox hr hnone
    have hmark : (s.onCore core fun k => k.markDone launch).core core = (s.core core).markDone launch := State.core_onCore_self ..
    have hi : l.cores.findIdx? (· == core) = some 0 := by simp [hcores, List.findIdx?_cons]
    exact ⟨_, exec_doneMessage hd, sendUp_root (s := s.onCore core fun k => k.markDone launch) hl hid (hmark ▸ find?_markDone hr) hi
      (by rw [hcores]; rfl) (by rw [hheard]; rfl) hnode hmbox hnone⟩
  case heard =>
    intro i launch c w l s hm hl n hn p hp
    rw [exec_completionCombine hm hl hn rfl, hears_eq (s := s.unsend i) _ _ _ hl]
    exact congrArg _ (sendUp_of_not_done hp)
  case combined =>
    intro i launch p c w l r s hm hl hid hcores hne hheard hnode hmbox hr hnone
    have hn : l.cores.findIdx? (· == c) = some 1 := by simp [hcores, List.findIdx?_cons, hne]
    have hi : l.cores.findIdx? (· == p) = some 0 := by simp [hcores, List.findIdx?_cons]
    have hkids : childrenOf l.cores 0 = [c] := by rw [hcores]; rfl
    have hhear := hears_eq (s := s.unsend i) p c w hl
    obtain ⟨hlaunch, -, -, hchan⟩ := sendUp_root (word := combine r.status w) (launch_hears (s := s.unsend i) p c w hl) hid
      (by rw [hhear]; exact hr) hi (by simp [hkids, hheard]) (by simp [hheard]) hnode hmbox (by rw [hhear]; exact hnone)
    refine ⟨_, _, exec_completionCombine hm hl hn (by rw [hcores]; rfl), ?_, hlaunch, rfl, rfl⟩
    rw [hchan, hhear]
    rfl

end Sys2Proof.Machine
end

section
/-! A store leaves its buffer (O38, R102, R191, R193, R208). -/
namespace Sys2Proof.Machine

/-! ### Results outstanding whose lines are not placed -/

/-- Of the results outstanding, those that a test keeps still place their lines in the snapshot cache. -/
def Ctx.keepFill (c : Ctx) (kept : Pend → Bool) : Ctx := { c with pend := c.pend.map fun p => { p with fill := p.fill && kept p } }

theorem keepFill_true (c : Ctx) : c.keepFill (fun _ => true) = c := by
  simp [Ctx.keepFill]

theorem unfill_eq_keepFill (c : Ctx) (p : Ctx → Pend → Bool) : c.unfill p = c.keepFill fun q => !p c q := by
  have hfill (q : Pend) : (if p c q then { q with fill := false } else q) = { q with fill := q.fill && !p c q } := by
    cases h : p c q <;> simp
  simp only [Ctx.unfill, Ctx.keepFill, hfill]

theorem tget_map_values {α : Type} (f : α → α) (t : Tab α) (k : Nat) : tget (t.map fun q => (q.1, f q.2)) k = (tget t k).map f := by
  induction t with
  | nil => rfl
  | cons p t ih =>
    simp only [List.map_cons, tget]
    split
    · rfl
    · exact ih

theorem ctx_unfill (k : Core) (p : Ctx → Pend → Bool) (y : Nat) : (k.unfill p).ctx y = (k.ctx y).unfill p := by
  rw [Core.ctx, Core.ctx, Core.unfill, tgetD, tgetD, tget_map_values fun c : Ctx => c.unfill p]
  cases tget k.ctxs y with
  | none => rfl
  | some c => rfl

/-! ### The snapshot cache loses the line -/

theorem ctx_snapDrop (k : Core) (t : BitVec 16) (am : Mode) (line : Word) (y : Nat) :
    ∃ kept : Pend → Bool, (am ≠ .g → kept = fun _ => true) ∧ (k.snapDrop t am line).ctx y = (k.ctx y).keepFill kept := by
  unfold Core.snapDrop
  by_cases h : am = .g
  · rw [if_pos h]
    exact ⟨_, fun hne => absurd h hne, (ctx_unfill ..).trans (unfill_eq_keepFill ..)⟩
  · rw [if_neg h]
    exact ⟨_, fun _ => rfl, (keepFill_true _).symm⟩

theorem jnl_snapDrop (k : Core) (t : BitVec 16) (am : Mode) (line : Word) : (k.snapDrop t am line).jnl = k.jnl := by
  unfold Core.snapDrop
  split <;> rfl

theorem residents_snapDrop (k : Core) (t : BitVec 16) (am : Mode) (line : Word) : (k.snapDrop t am line).residents = k.residents := by
  unfold Core.snapDrop
  split <;> rfl

theorem snapFind_snapDrop (k : Core) (t : BitVec 16) (line : Word) : (k.snapDrop t .g line).snapFind t (fld line 56 6) = none := by
  have hgone : (k.snap.filter fun l => !(l.tenant == t && l.line == fld line 56 6)).find?
      (fun l => l.tenant == t && l.line == fld line 56 6) = none := by
    rw [List.find?_eq_none]
    intro l hl
    simpa [imp_iff_not_or] using (List.mem_filter.mp hl).2
  simp only [Core.snapFind, Core.snapDrop, if_true, Core.unfill, hgone, Option.map_none]

/-! ### The store is sent, and the journal holds it -/

section
variable (s : State) (core : Nat) (a : Asker) (w : Who) (e : SbEnt) (j : Nat) (tag : Option Nat)

/-- The journal entry that holds a store on its way (R191). -/
def sentEntry (seq : Nat) : JEnt :=
  { st := .inFlight, am := e.am, line := e.line, mask := e.mask, pc := e.pc, kind := 0, bset := e.bset, ctx := w.ctx, inc := w.inc
    data := e.data, taken := false, met := false, seq := seq, tag := tag, peer := e.peer, launch := a.launch }

/-- A core whose journal holds a store that leaves. -/
def Core.posts (k : Core) : Core :=
  ({ k with jnl := tset k.jnl j (sentEntry a w e tag k.jseq), jseq := k.jseq + 1 } : Core).snapDrop a.tenant e.am e.line

theorem sendStore_eq :
    s.sendStore core a w e j tag = (s.onCore core fun k => k.posts a w e j tag).send (.req (storeReq core a e j)) := rfl

theorem chan_sendStore : (s.sendStore core a w e j tag).chan = s.chan ++ [{ born := s.now, body := .req (storeReq core a e j) }] := rfl

theorem core_sendStore : (s.sendStore core a w e j tag).core core = (s.core core).posts a w e j tag := by
  rw [sendStore_eq, State.core_send, State.core_onCore_self]

theorem jent_sendStore : ((s.sendStore core a w e j tag).core core).jent j = sentEntry a w e tag (s.core core).jseq := by
  rw [core_sendStore, Core.posts, Core.jent, jnl_snapDrop]
  exact tgetD_tset_self ..

theorem residents_sendStore : ((s.sendStore core a w e j tag).core core).residents = (s.core core).residents := by
  rw [core_sendStore, Core.posts, residents_snapDrop]

theorem snapFind_sendStore (h : e.am = .g) :
    ((s.sendStore core a w e j tag).core core).snapFind a.tenant (fld e.line 56 6) = none := by
  rw [core_sendStore, Core.posts, h, snapFind_snapDrop]

theorem ctx_sendStore (c y : Nat) : ∃ kept : Pend → Bool, (e.am ≠ .g → kept = fun _ => true) ∧
    (s.sendStore core a w e j tag).ctx c y = (s.ctx c y).keepFill kept := by
  by_cases h : c = core
  · subst h
    obtain ⟨kept, hl, hk⟩ := ctx_snapDrop
      { s.core c with jnl := tset (s.core c).jnl j (sentEntry a w e tag (s.core c).jseq), jseq := (s.core c).jseq + 1 }
      a.tenant e.am e.line y
    refine ⟨kept, hl, ?_⟩
    rw [State.ctx, core_sendStore, Core.posts, hk]
    rfl
  · refine ⟨_, fun _ => rfl, ?_⟩
    rw [keepFill_true, State.ctx, sendStore_eq, State.core_send, State.core_onCore, if_neg h]
    rfl

end

/-! ### The drain step -/

theorem exec_drain_thread {s : State} {core x i j : Nat} {e : SbEnt} (hx : x < 32) (hi : nextDrain core (s.ctx core x) = some i)
    (he : (s.ctx core x).sb[i]? = some e) (hj : (s.core core).freeJ = some j) (hs : (s.core core).stopped = false) :
    exec (.drain core x) s = .next ((s.setCtx core x { s.ctx core x with sb := dropAt (s.ctx core x).sb i }).sendStore core
      (askerOf (s.ctx core x) (s.who core x)) (s.who core x) e j none) := by
  change Host.Outcome.next (s.drainAny core x) = _
  simp only [State.drainAny, State.drainCtx, Core.drainJ, hx, hi, he, hj, hs, Bool.false_eq_true, if_true, if_false]

/-- What the core knows of the exited thread whose store it sends. -/
def State.leftAsker (s : State) (core : Nat) (w : Who) (launch : BitVec 32) : Asker :=
  { agent := .thread w, tenant := (s.core core).tenant, launch := launch, sup := s.launchSup launch.toNat, regions := 0 }

theorem exec_drain_left {s : State} {core n j : Nat} {r : Resident} {w : Who} {e : SbEnt} {rest : List (Who × SbEnt)}
    (hn : (s.core core).residents[n]? = some r) (hl : r.left = (w, e) :: rest) (hj : (s.core core).freeJ = some j)
    (hs : (s.core core).stopped = false) :
    exec (.drain core (288 + 2 * n)) s = .next
      ((s.onCore core fun k => { k with residents := setAt k.residents n { r with left := rest } }).sendStore core
        (s.leftAsker core w r.launch) w e j none) := by
  have hx : ¬ 288 + 2 * n < 32 := by omega
  have hx' : ¬ 288 + 2 * n < 288 := by omega
  have heven : (288 + 2 * n) % 2 = 0 := by omega
  have hidx : (288 + 2 * n - 288) / 2 = n := by omega
  change Host.Outcome.next (s.drainAny core (288 + 2 * n)) = _
  simp only [State.drainAny, State.drainLeft, Core.drainJ, hx, hx', heven, hidx, hn, hl, hj, hs, Bool.false_eq_true, if_true, if_false]
  rfl

theorem getElem?_setAt_self {α : Type} {l : List α} {n : Nat} {u : α} (v : α) (h : l[n]? = some u) : (setAt l n v)[n]? = some v := by
  induction l generalizing n with
  | nil => cases h
  | cons x l ih =>
    cases n with
    | zero => rfl
    | succ n => exact ih (by simpa using h)

end Sys2Proof.Machine
end

section
/-! A request at its home: its delivery, its service, and the acknowledgement of a store (O38, R191, R196, R203 to R207, R231, R356). -/
namespace Sys2Proof.Machine
open Sys2Proof.Manual (el)

/-! ### Messages -/

theorem exec_messageDeliver_req {s : State} {i : Nat} {r : Req} (h : s.message i (.req r)) :
    exec (.messageDeliver i) s = .next (if r.op.toHome && s.mayDeliver r then
      { s.unsend i with homes := s.homes ++ [{ r with place := s.twinPlace r.place }] } else s) := by
  obtain ⟨⟨born, body⟩, hm, rfl⟩ := h
  have hfresh : s.isStale { born := born, body := .req r } = false := rfl
  change Host.Outcome.next (s.deliverMsg i) = _
  simp only [State.deliverMsg, hm, hfresh, Bool.false_eq_true, if_false, State.unsend]

theorem exec_refusedWithRetryResend {s : State} {i : Nat} {r : Req} (h : s.message i (.retry r)) :
    exec (.refusedWithRetryResend i) s = .next ((s.unsend i).send (.req r)) := by
  obtain ⟨⟨born, body⟩, hm, rfl⟩ := h
  change execRefusedWithRetryResend i s = _
  simp only [execRefusedWithRetryResend, hm]

theorem isStale_of_inTime {s : State} {i : Nat} {m : Msg} (hm : s.chan[i]? = some m) (ht : s.inTime i = true) : s.isStale m = false := by
  rw [State.inTime, hm, Option.all_some] at ht
  exact (Bool.not_eq_true' _).mp ht

theorem exec_storeAcknowledge {s : State} {i core j : Nat} {f : Option RFault} (h : s.message i (.storeAck core j f))
    (ht : s.inTime i = true) : exec (.storeAcknowledge i) s = .next ((s.unsend i).storeAcked core j f) := by
  obtain ⟨⟨born, body⟩, hm, rfl⟩ := h
  have hfresh := isStale_of_inTime hm ht
  change execStoreAcknowledge i s = _
  simp only [execStoreAcknowledge, hm, hfresh, Bool.false_eq_true, if_false]

theorem storeAcked_none {s : State} {core j : Nat} (h : ((s.core core).jent j).tag = none) :
    s.storeAcked core j none = s.onCore core fun k => { k with jnl := tdel k.jnl j } := by
  simp only [State.storeAcked, h]

theorem storeAcked_refused {s : State} {core j : Nat} (f : RFault) (h : ((s.core core).jent j).tag = none)
    (hg : s.gone { core := core, ctx := ((s.core core).jent j).ctx, inc := ((s.core core).jent j).inc } = false) :
    s.storeAcked core j (some f) = s.onCore core fun k =>
      { k with jnl := tset k.jnl j { (s.core core).jent j with st := .refused, kind := f.kind } } := by
  simp only [State.storeAcked, h, hg, Bool.false_eq_true, if_false]

/-! ### What waits for replicas (R231) -/

theorem holdAcks_of_length_le {s t : State} (h : t.mem.fwds.length ≤ s.mem.fwds.length) : s.holdAcks t = t := if_pos h

/-- What was sent for a write that the lead forwards waits with that write, the last one. -/
theorem mapIdx_last {α : Type} (l : List α) (x : α) (f : α → α) :
    (l ++ [x]).mapIdx (fun i w => if i = l.length then f w else w) = l ++ [f x] := by
  rw [List.mapIdx_concat, if_pos rfl]
  congr 1
  refine List.ext_getElem (List.length_mapIdx) fun i _ hi => ?_
  rw [List.getElem_mapIdx, if_neg (Nat.ne_of_lt hi)]

theorem holdAcks_forwarded {s t : State} {w : Fwd} {sent : List Msg} (hf : t.mem.fwds = s.mem.fwds ++ [w])
    (hc : t.chan = s.chan ++ sent) :
    s.holdAcks t = { t with
      chan := s.chan, mem := { t.mem with fwds := s.mem.fwds ++ [{ w with held := w.held ++ sent }] } } := by
  have hlen : ¬ t.mem.fwds.length ≤ s.mem.fwds.length := by simp [hf]
  have hlast : t.mem.fwds.length - 1 = s.mem.fwds.length := by simp [hf]
  unfold State.holdAcks
  rw [if_neg hlen]
  dsimp only
  rw [hlast, hc, hf, List.drop_left, List.take_left, mapIdx_last s.mem.fwds w fun w => { w with held := w.held ++ sent }]

/-! ### The home serves its first request (R204) -/

theorem exec_homeServe {s t : State} {q : Nat} {r : Req} (hm : s.mayServe q r = true) (hs : (s.taking q).serve r = some t) :
    exec (.homeServe q) s = .next ((s.taking q).holdAcks t) := by
  simp only [State.mayServe, Bool.and_eq_true, decide_eq_true_eq] at hm
  obtain ⟨hq, hfirst⟩ := hm
  change Host.Outcome.next (s.serveHome q) = _
  unfold State.serveHome
  simp only [hq, hfirst, if_true]
  change Host.Outcome.next (((s.taking q).serve r).elim s (s.taking q).holdAcks) = _
  rw [hs, Option.elim_some]

/-- Two states have the same cores, memory, queues and channels. -/
def State.agrees (s t : State) : Prop := t.cores = s.cores ∧ t.mem = s.mem ∧ t.homes = s.homes ∧ t.chan = s.chan

theorem agrees_rfl (s : State) : s.agrees s := ⟨rfl, rfl, rfl, rfl⟩

theorem core_of_agrees {u t : State} (h : u.agrees t) (c : Nat) : t.core c = u.core c := congrArg (tgetD · c Core.reset) h.1

theorem agrees_replyLog (s : State) (core : Nat) : s.agrees (s.replyLog core) := by
  unfold State.replyLog
  cases (s.core core).part with
  | none => exact agrees_rfl s
  | some p =>
    dsimp only
    split
    · exact agrees_rfl s
    · split <;> exact ⟨rfl, rfl, rfl, rfl⟩

theorem agrees_outsideWrite (s : State) (r : Req) (core : Nat) : s.agrees (s.outsideWrite r core) := by
  have hlog : s.agrees (if r.who.agent.core? == some core then s else s.replyLog core) := by
    split
    · exact agrees_rfl s
    · exact agrees_replyLog s core
  unfold State.outsideWrite
  cases r.op with
  | store | atom | sts | ldf | feset | feclr => exact hlog
  | _ => exact agrees_rfl s

/-- A pool port serves a request that forwards no write; besides, a pair's reply log may take it (R429). -/
theorem exec_homeServe_pool {s u : State} {q core off : Nat} {win : Bool} {ea : Word} {r : Req} (hp : r.place = .pool core off win ea)
    (hm : s.mayServe q r = true) (hs : (s.taking q).servePool r core off win ea = some u) (hf : u.mem = s.mem) :
    ∃ t, exec (.homeServe q) s = .next t ∧ u.agrees t := by
  have hagree := agrees_outsideWrite u r core
  have hserve : (s.taking q).serve r = some (u.outsideWrite r core) := by simp only [State.serve, hp, hs, Option.map_some]
  have hmem : (u.outsideWrite r core).mem = (s.taking q).mem := hagree.2.1.trans hf
  exact ⟨_, (exec_homeServe hm hserve).trans (by rw [holdAcks_of_length_le (by rw [hmem])]), hagree⟩

/-! ### Bytes of a pool -/

theorem poolWrite_eq (k : Core) (line : Nat) (d : Line) (m : BitVec 64) :
    ∃ pp, k.poolWrite line d m = { k with pool := wrMasked k.pool line d m 64, ppoison := pp } := by
  unfold Core.poolWrite Core.heal
  split
  · exact ⟨k.ppoison, rfl⟩
  · exact ⟨_, rfl⟩

theorem pool_poolWrite (k : Core) (line : Nat) (d : Line) (m : BitVec 64) :
    (k.poolWrite line d m).pool = wrMasked k.pool line d m 64 := by
  obtain ⟨pp, h⟩ := poolWrite_eq k line d m
  rw [h]

theorem ctxs_poolWrite (k : Core) (line : Nat) (d : Line) (m : BitVec 64) : (k.poolWrite line d m).ctxs = k.ctxs := by
  obtain ⟨pp, h⟩ := poolWrite_eq k line d m
  rw [h]

theorem waiters_poolWrite (k : Core) (line : Nat) (d : Line) (m : BitVec 64) : (k.poolWrite line d m).waiters = k.waiters := by
  obtain ⟨pp, h⟩ := poolWrite_eq k line d m
  rw [h]

theorem wps_poolWrite (k : Core) (line : Nat) (d : Line) (m : BitVec 64) : (k.poolWrite line d m).wps = k.wps := by
  obtain ⟨pp, h⟩ := poolWrite_eq k line d m
  rw [h]

theorem el_eq_lineByte (d : Line) (i : Nat) : el 8 d i = lineByte d i := by
  apply BitVec.eq_of_toNat_eq
  simp [el, elem, lineByte, Nat.shiftRight_eq_div_pow]

/-- The bytes of a pool after a masked write of the line of off. -/
theorem rdByte_poolWrite {k : Core} (h : k.memWf = true) (off : Nat) (d : Line) (m : BitVec 64) (a : Nat) :
    rdByte (k.poolWrite (off / 64 * 64) d m).pool a =
      if a / 64 = off / 64 ∧ m.getLsbD (a % 64) = true then el 8 d (a % 64) else rdByte k.pool a := by
  rw [pool_poolWrite, rdByte_wrMasked (memWf_parts.mp h).1, el_eq_lineByte]
  by_cases ha : a / 64 = off / 64
  · have hmod : a - off / 64 * 64 = a % 64 := by omega
    have hin : off / 64 * 64 ≤ a ∧ a < off / 64 * 64 + 64 := by omega
    simp [hmod, ha, hin]
  · rw [if_neg (by omega), if_neg (fun h => ha h.1)]

/-- The bytes of a pool after a write of the word at off. -/
theorem rdByte_poolWrite_word {k : Core} (h : k.memWf = true) {off : Nat} (ho : off % 8 = 0) (x : Word) (a : Nat) :
    rdByte (k.poolWrite (off / 64 * 64) (atByte (off % 64) x.toNat) (byteMask (off % 64) 8)).pool a =
      if off ≤ a ∧ a < off + 8 then x.extractLsb' (8 * (a - off)) 8 else rdByte k.pool a := by
  have hfit : off % 64 + 8 ≤ 64 := by omega
  rw [pool_poolWrite, rdByte_wrMasked (memWf_parts.mp h).1, getLsbD_byteMask _ hfit]
  simp only [decide_eq_true_eq]
  by_cases ha : off ≤ a ∧ a < off + 8
  · have hbyte := lineByte_atByte_word (off := off % 64) (i := a - off / 64 * 64) (n := 8) x (by omega) (by omega) hfit
    rw [Nat.mod_eq_of_lt x.isLt, show a - off / 64 * 64 - off % 64 = a - off by omega] at hbyte
    rw [if_pos ha, if_pos (by omega), hbyte]
  · rw [if_neg ha, if_neg (by omega)]

/-! ### A port that nothing watches (R402) -/

theorem firePool_of_no_wps {s : State} {core : Nat} (h : (s.core core).wps = []) (a : Asker) (off n acc : Nat) :
    s.firePool core a off n acc = s := by
  rw [State.firePool, h]
  rfl

theorem fireMask_of_no_wps {s : State} {core : Nat} (h : (s.core core).wps = []) (a : Asker) (off : Nat) (m : BitVec 64) (n : Nat) :
    State.pStore.fireMask a core off s m n = s := by
  induction n with
  | zero => rfl
  | succ n ih =>
    rw [State.pStore.fireMask, ih, firePool_of_no_wps h]
    exact ite_self s

/-- A store that a port accepts is performed, and acknowledged to the journal of its core. -/
theorem servePool_store {s : State} {core off j : Nat} {win b : Bool} {ea : Word} {r : Req} {d : Line} {m : BitVec 64} {w : Who}
    (hop : r.op = .store d m b j) (hj : j < Config.journalSize) (hw : r.who.agent = .thread w) (hs : (s.core core).stopped = false)
    (hwps : (s.core core).wps = []) (hc : s.poolCheck core (off / 64 * 64 + (maskSpan m).1) (maskSpan m).2 win r.who .w = none) :
    s.servePool r core off win ea =
      some ((s.onCore core fun k => k.poolWrite (off / 64 * 64) d m).send (.storeAck w.core j none)) := by
  have hwps' : ((s.onCore core fun k => k.poolWrite (off / 64 * 64) d m).core core).wps = [] := by
    rw [State.core_onCore_self, wps_poolWrite, hwps]
  have hcore : r.who.agent.core? = some w.core := by rw [hw]; rfl
  have hentry : j ≠ noJournal := Nat.ne_of_lt hj
  unfold State.servePool
  rw [hs, if_neg Bool.false_ne_true, hop]
  simp only [State.pStore, hc, fireMask_of_no_wps hwps', Served.acked, State.ackStore, hcore, hentry, if_false]

/-! ### Full-empty bits (R20, R196) -/

theorem full_setFull (k : Core) (off : Nat) (b : Bool) : (k.setFull off b).full off = b := by
  cases b with
  | true => simp [Core.full, Core.setFull]
  | false =>
    simp only [Core.full, Core.setFull, Bool.false_eq_true, if_false]
    split
    next h => rw [h]; rfl
    next => simp

/-- A word is not poisoned where no word is. -/
theorem poisoned_of_nil {k : Core} (h : k.ppoison = []) (off n : Nat) : k.poisoned off n = false := by
  rw [Core.poisoned, h]
  rfl

/-- The operations that depend on a full-empty bit. -/
def ROp.usesFull : ROp → Bool
  | .lds | .sts _ | .ldf | .feset | .feclr => true
  | _ => false

theorem servePool_usesFull {s : State} {core off : Nat} {win : Bool} {ea : Word} {r : Req} (hs : (s.core core).stopped = false)
    (hop : r.op.usesFull = true) : s.servePool r core off win ea = some (s.pSync r core off win ea) := by
  unfold State.servePool
  rw [hs, if_neg Bool.false_ne_true]
  cases h : r.op with
  | lds | sts | ldf | feset | feclr => rfl
  | _ => rw [h] at hop; cases hop

/-- A synchronising access of a thread stands first at its port, which accepts it; nothing watches the pool, no word is poisoned and
nobody waits. -/
structure SyncAtPort (s : State) (q core off : Nat) (win : Bool) (ea : Word) (w : Who) (r : Req) : Prop where
  place : r.place = .pool core off win ea
  agent : r.who.agent = .thread w
  serve : s.mayServe q r = true
  runs : (s.core core).stopped = false
  wps : (s.core core).wps = []
  waiters : (s.core core).waiters = []
  ppoison : (s.core core).ppoison = []
  accepts : s.poolCheck core off 8 win r.who .sync = none

/-- The answer to a synchronising access. -/
def syncReply (r : Req) (w : Who) (l : Line) : Body :=
  .reply { dst := w, tag := r.tag, data := l, flags := 0, fault := none, lane := r.lane }

section
variable {s : State} {q core off : Nat} {win : Bool} {ea : Word} {w : Who} {r : Req}

/-- An access that its port accepts, in a pool without poison. -/
theorem pSync_accepted (hc : s.poolCheck core off 8 win r.who .sync = none) (hp : (s.core core).ppoison = []) :
    s.pSync r core off win ea =
      if syncReady ((s.core core).full off) r.op then
        let t := (s.syncDo r.who core off r.op).2.reply r (s.syncDo r.who core off r.op).1 0 none
        t.scanWaiters core off (t.core core).waiters.length
      else if (s.core core).waiters.length < Config.portWaiters then
        s.onCore core fun k => { k with waiters := k.waiters ++ [r] }
      else s.send (.retry r) := by
  unfold State.pSync
  rw [hc]
  dsimp only
  rw [if_neg]
  · rfl
  · split <;> simp [poisoned_of_nil hp]

theorem pSync_ready {l : Line} {u : State} (hc : s.poolCheck core off 8 win r.who .sync = none) (hp : (s.core core).ppoison = [])
    (hready : syncReady ((s.core core).full off) r.op = true) (hdo : s.syncDo r.who core off r.op = (l, u))
    (hu : (u.core core).waiters = []) (hw : r.who.agent = .thread w) : s.pSync r core off win ea = u.send (syncReply r w l) := by
  have hth : r.who.thread? = some w := by rw [Asker.thread?, hw]
  have hreply : u.reply r l 0 none = u.send (syncReply r w l) := by rw [State.reply, hth]; rfl
  rw [pSync_accepted hc hp, if_pos hready, hdo]
  dsimp only
  rw [hreply, State.core_send, hu]
  rfl

theorem pSync_waits (hc : s.poolCheck core off 8 win r.who .sync = none) (hp : (s.core core).ppoison = [])
    (hwait : (s.core core).waiters = []) (hready : syncReady ((s.core core).full off) r.op = false) :
    s.pSync r core off win ea = s.onCore core fun k => { k with waiters := k.waiters ++ [r] } := by
  have hroom : (s.core core).waiters.length < Config.portWaiters := by rw [hwait]; decide
  rw [pSync_accepted hc hp, hready, if_neg Bool.false_ne_true, if_pos hroom]

/-- A port performs a satisfied access in one step, and sends its answer. -/
theorem SyncAtPort.satisfied {l : Line} {cs : Tab Core} (h : SyncAtPort s q core off win ea w r) (hop : r.op.usesFull = true)
    (hready : syncReady ((s.core core).full off) r.op = true)
    (hdo : (s.taking q).syncDo r.who core off r.op = (l, { s.taking q with cores := cs }))
    (hcs : (tgetD cs core Core.reset).waiters = []) :
    ∃ t, exec (.homeServe q) s = .next t ∧ s.served t q [syncReply r w l] ∧ t.cores = cs ∧ t.mem = s.mem := by
  have hsync := pSync_ready (s := s.taking q) (ea := ea) h.accepts h.ppoison hready hdo hcs h.agent
  obtain ⟨t, hexec, hcores, hmem, hhomes, hchan⟩ := exec_homeServe_pool h.place h.serve
    ((servePool_usesFull (s := s.taking q) h.runs hop).trans (congrArg some hsync)) rfl
  exact ⟨t, hexec, ⟨hhomes, hchan⟩, hcores, hmem⟩

/-- The same for an access that changes its core. -/
theorem SyncAtPort.satisfied_onCore {l : Line} {f : Core → Core} (h : SyncAtPort s q core off win ea w r) (hop : r.op.usesFull = true)
    (hready : syncReady ((s.core core).full off) r.op = true)
    (hdo : (s.taking q).syncDo r.who core off r.op = (l, (s.taking q).onCore core f))
    (hf : (f (s.core core)).waiters = (s.core core).waiters) (hctxs : (f (s.core core)).ctxs = (s.core core).ctxs) :
    ∃ t, exec (.homeServe q) s = .next t ∧ s.served t q [syncReply r w l] ∧ t.core core = f (s.core core) ∧ t.mem = s.mem ∧
      s.threadsKept t := by
  have hcore : tgetD (s.onCore core f).cores core Core.reset = f (s.core core) := State.core_onCore_self ..
  obtain ⟨t, hexec, hserved, hcores, hmem⟩ := h.satisfied (cs := (s.onCore core f).cores) hop hready hdo (by rw [hcore, hf, h.waiters])
  refine ⟨t, hexec, hserved, ?_, hmem, fun c y => ?_⟩
  · rw [State.core, hcores, hcore]
  · rw [State.ctx, State.core, hcores]
    exact ctx_onCore_of_ctxs hctxs c y

/-- An access whose bit is not as it must be waits at its port. -/
theorem SyncAtPort.waits (h : SyncAtPort s q core off win ea w r) (hop : r.op.usesFull = true)
    (hready : syncReady ((s.core core).full off) r.op = false) :
    ∃ t, exec (.homeServe q) s = .next t ∧ s.served t q [] ∧ (t.core core).waiters = [r] ∧ (t.core core).pool = (s.core core).pool := by
  have hsync := pSync_waits (s := s.taking q) (ea := ea) h.accepts h.ppoison h.waiters hready
  obtain ⟨t, hexec, hagree⟩ := exec_homeServe_pool h.place h.serve
    ((servePool_usesFull (s := s.taking q) h.runs hop).trans (congrArg some hsync)) rfl
  have ⟨_, _, hhomes, hchan⟩ := hagree
  have hcore : t.core core = { s.core core with waiters := (s.core core).waiters ++ [r] } :=
    (core_of_agrees hagree core).trans (State.core_onCore_self ..)
  refine ⟨t, hexec, ⟨hhomes, hchan.trans (List.append_nil _).symm⟩, ?_, ?_⟩
  · rw [hcore, h.waiters]
    rfl
  · rw [hcore]

end

theorem firePool_onCore {s : State} {core : Nat} {f : Core → Core} (h : (f (s.core core)).wps = []) (a : Asker) (off n acc : Nat) :
    (s.onCore core f).firePool core a off n acc = s.onCore core f :=
  firePool_of_no_wps (by rw [State.core_onCore_self]; exact h) a off n acc

section
variable {s : State} {core : Nat} (h : (s.core core).wps = []) (a : Asker) (off : Nat)
include h

theorem syncDo_lds : s.syncDo a core off .lds = ((s.core core).poolLine off, s.onCore core fun k => k.setFull off false) :=
  Prod.ext rfl (firePool_onCore (f := fun k => k.setFull off false) h a off 8 3)

theorem syncDo_ldf : s.syncDo a core off .ldf = ((s.core core).poolLine off, s) :=
  Prod.ext rfl (firePool_of_no_wps h a off 8 1)

/-- The word is written, and its bit is full. -/
def Core.putFull (k : Core) (off : Nat) (x : Word) : Core :=
  (k.poolWrite (off / 64 * 64) (atByte (off % 64) x.toNat) (byteMask (off % 64) 8)).setFull off true

theorem syncDo_sts (x : Word) : s.syncDo a core off (.sts x) = (0, s.onCore core fun k => k.putFull off x) :=
  Prod.ext rfl (firePool_onCore (f := fun k => k.putFull off x) ((wps_poolWrite ..).trans h) a off 8 2)

theorem syncDo_feset : s.syncDo a core off .feset = (0, s.onCore core fun k => k.setFull off true) :=
  Prod.ext rfl (firePool_onCore (f := fun k => k.setFull off true) h a off 8 (if (s.core core).full off then 0 else 2))

theorem syncDo_feclr : s.syncDo a core off .feclr = (0, s.onCore core fun k => k.setFull off false) :=
  Prod.ext rfl (firePool_onCore (f := fun k => k.setFull off false) h a off 8 (if (s.core core).full off then 2 else 0))

end

end Sys2Proof.Machine
end

section
/-! The way of a store and the synchronising accesses at their ports (O38). -/
namespace Sys2Proof.Machine
open Sys2Proof.Manual (el)

/-- A thread's store leaves its buffer: the request is on its way, the journal holds it, and its line is no longer cached. -/
theorem drain_thread (core x i j : Nat) (e : SbEnt) (s : State) (hx : x < 32) (hi : nextDrain core (s.ctx core x) = some i)
    (he : (s.ctx core x).sb[i]? = some e) (hj : (s.core core).freeJ = some j) (hs : (s.core core).stopped = false) :
    ∃ t, exec (.drain core x) s = .next t ∧ (∀ c y, ∃ kept : Pend → Bool, (e.am ≠ .g → kept = fun _ => true) ∧
        let q := if (c, y) = (core, x) then { s.ctx core x with sb := dropAt (s.ctx core x).sb i } else s.ctx c y
        t.ctx c y = { q with pend := q.pend.map fun p => { p with fill := p.fill && kept p } }) ∧
      t.chan = s.chan ++ [{ born := s.now, body := .req (storeReq core (askerOf (s.ctx core x) (s.who core x)) e j) }] ∧ t.mem = s.mem ∧
      ((t.core core).jent j).st = .inFlight ∧ ((t.core core).jent j).data = e.data ∧ ((t.core core).jent j).mask = e.mask ∧
      ((t.core core).jent j).line = e.line ∧ ((t.core core).jent j).seq = (s.core core).jseq ∧
      (e.am = .g → (t.core core).snapFind (s.ctx core x).tenant (fld e.line 56 6) = none) := by
  refine ⟨_, exec_drain_thread hx hi he hj hs, fun c y => ?ctx, chan_sendStore .., rfl, ?entry⟩
  case ctx =>
    obtain ⟨kept, hl, hk⟩ := ctx_sendStore (s.setCtx core x { s.ctx core x with sb := dropAt (s.ctx core x).sb i }) core
      (askerOf (s.ctx core x) (s.who core x)) (s.who core x) e j none c y
    refine ⟨kept, hl, ?_⟩
    rw [hk, State.ctx_setCtx]
    simp only [Prod.mk.injEq]
    rfl
  case entry =>
    rw [jent_sendStore]
    refine ⟨rfl, rfl, rfl, rfl, ?_, fun hg => snapFind_sendStore (a := askerOf (s.ctx core x) (s.who core x)) (h := hg) ..⟩
    rw [State.setCtx, State.core_onCore_self]
    rfl

/-- A store that an exited thread has left behind leaves its core. -/
theorem drain_left (core n j : Nat) (r : Resident) (w : Who) (e : SbEnt) (rest : List (Who × SbEnt)) (s : State)
    (hn : (s.core core).residents[n]? = some r) (hl : r.left = (w, e) :: rest) (hj : (s.core core).freeJ = some j)
    (hs : (s.core core).stopped = false) :
    ∃ t q, exec (.drain core (288 + 2 * n)) s = .next t ∧ (t.core core).residents[n]? = some q ∧ q.left = rest ∧ q.launch = r.launch ∧
      ((t.core core).jent j).st = .inFlight ∧ ((t.core core).jent j).data = e.data ∧ ((t.core core).jent j).launch = r.launch ∧
      ∃ a, a.agent = .thread w ∧ t.chan = s.chan ++ [{ born := s.now, body := .req (storeReq core a e j) }] := by
  refine ⟨_, { r with left := rest }, exec_drain_left hn hl hj hs, ?residents, rfl, rfl, ?entry⟩
  case residents =>
    rw [residents_sendStore, State.core_onCore_self]
    exact getElem?_setAt_self _ hn
  case entry =>
    rw [jent_sendStore]
    exact ⟨rfl, rfl, rfl, s.leftAsker core w r.launch, rfl, chan_sendStore ..⟩

/-- A pool port performs a store: the bytes that its mask names are written, and the acknowledgement is sent. -/
theorem serve_store_pool (q core off : Nat) (win : Bool) (ea : Word) (d : Line) (m : BitVec 64) (b : Bool) (j : Nat) (w : Who) (s : State)
    (r : Req) (hp : r.place = .pool core off win ea) (hop : r.op = .store d m b j) (hj : j < Config.journalSize)
    (hw : r.who.agent = .thread w) (hm : s.mayServe q r = true) (hs : (s.core core).stopped = false) (hwps : (s.core core).wps = [])
    (hwf : (s.core core).memWf = true)
    (hc : s.poolCheck core (off / 64 * 64 + (maskSpan m).1) (maskSpan m).2 win r.who .w = none) :
    ∃ t, exec (.homeServe q) s = .next t ∧ s.served t q [.storeAck w.core j none] ∧ t.mem = s.mem ∧ s.threadsKept t ∧
      (∀ c, c ≠ core → t.core c = s.core c) ∧
      ∀ a, t.poolByte core a = if a / 64 = off / 64 ∧ m.getLsbD (a % 64) = true then el 8 d (a % 64) else s.poolByte core a := by
  obtain ⟨t, hexec, hagree⟩ := exec_homeServe_pool hp hm (servePool_store (s := s.taking q) (ea := ea) hop hj hw hs hwps hc) rfl
  have ⟨_, hmem, hhomes, hchan⟩ := hagree
  refine ⟨t, hexec, ⟨hhomes, hchan⟩, hmem, fun c y => ?_, fun c hne => ?_, fun a => ?_⟩
  · rw [State.ctx, core_of_agrees hagree]
    exact ctx_onCore_of_ctxs (s := s) (f := fun k => k.poolWrite (off / 64 * 64) d m) (ctxs_poolWrite ..) c y
  · rw [core_of_agrees hagree, State.core_send, State.core_onCore, if_neg hne]
    rfl
  · rw [State.poolByte, core_of_agrees hagree, State.core_send, State.core_onCore_self]
    exact rdByte_poolWrite hwf off d m a

/-- A memory stop performs a store: the acknowledgement waits for the replicas, and who waits for a mailbox is answered. -/
theorem serve_store_glob (q : Nat) (va : Word) (d : Line) (m : BitVec 64) (b : Bool) (j : Nat) (s : State) (r : Req) (l : Line) (u : State)
    (hp : r.place = .glob va) (hop : r.op = .store d m b j) (hm : s.mayServe q r = true)
    (hg : (s.taking q).gStore r.who va d m b = .done l u) :
    exec (.homeServe q) s = .next ((s.taking q).holdAcks (u.ackStore r j none).mailWake) := by
  refine exec_homeServe hm ?_
  simp only [State.serve, hp, State.serveGlob, hop, hg, Served.acked, Option.map_some]

section
variable {s : State} {q core off : Nat} {win : Bool} {ea : Word} {w : Who} {r : Req}

theorem serve_lds (h : SyncAtPort s q core off win ea w r) (hop : r.op = .lds) (hfull : (s.core core).full off = true) :
    ∃ t, exec (.homeServe q) s = .next t ∧ s.served t q [syncReply r w ((s.core core).poolLine off)] ∧
      (t.core core).full off = false ∧ (t.core core).pool = (s.core core).pool ∧ t.mem = s.mem ∧ s.threadsKept t := by
  have hdo : (s.taking q).syncDo r.who core off r.op = _ := hop ▸ syncDo_lds (s := s.taking q) h.wps r.who off
  obtain ⟨t, hexec, hserved, hcore, hmem, hkept⟩ := h.satisfied_onCore (by rw [hop]; rfl) (by rw [hop]; exact hfull) hdo rfl rfl
  refine ⟨t, hexec, hserved, ?_, ?_, hmem, hkept⟩
  · rw [hcore, full_setFull]
  · rw [hcore]
    rfl

theorem serve_ldf (h : SyncAtPort s q core off win ea w r) (hop : r.op = .ldf) (hfull : (s.core core).full off = true) :
    ∃ t, exec (.homeServe q) s = .next t ∧ s.served t q [syncReply r w ((s.core core).poolLine off)] ∧ t.cores = s.cores := by
  have hdo : (s.taking q).syncDo r.who core off r.op = _ := hop ▸ syncDo_ldf (s := s.taking q) h.wps r.who off
  obtain ⟨t, hexec, hserved, hcores, -⟩ := h.satisfied (cs := s.cores) (by rw [hop]; rfl) (by rw [hop]; exact hfull) hdo h.waiters
  exact ⟨t, hexec, hserved, hcores⟩

theorem serve_sts (h : SyncAtPort s q core off win ea w r) (hwf : (s.core core).memWf = true) (ho : off % 8 = 0) (x : Word)
    (hop : r.op = .sts x) (hfull : (s.core core).full off = false) :
    ∃ t, exec (.homeServe q) s = .next t ∧ s.served t q [syncReply r w 0] ∧ (t.core core).full off = true ∧
      (∀ n < 8, t.poolByte core (off + n) = x.extractLsb' (8 * n) 8) ∧
      (∀ a, ¬ (off ≤ a ∧ a < off + 8) → t.poolByte core a = s.poolByte core a) := by
  have hdo : (s.taking q).syncDo r.who core off r.op = _ := hop ▸ syncDo_sts (s := s.taking q) h.wps r.who off x
  obtain ⟨t, hexec, hserved, hcore, -⟩ := h.satisfied_onCore (by rw [hop]; rfl) (by rw [hop, syncReady, hfull]; rfl) hdo
    (waiters_poolWrite ..) (ctxs_poolWrite ..)
  have hbyte (a : Nat) : t.poolByte core a = if off ≤ a ∧ a < off + 8 then x.extractLsb' (8 * (a - off)) 8 else s.poolByte core a := by
    rw [State.poolByte, hcore]
    exact rdByte_poolWrite_word hwf ho x a
  refine ⟨t, hexec, hserved, ?_, fun n hn => ?_, fun a ha => ?_⟩
  · rw [hcore, Core.putFull, full_setFull]
  · rw [hbyte, if_pos (by omega), Nat.add_sub_cancel_left]
  · rw [hbyte, if_neg ha]

theorem serve_feset (h : SyncAtPort s q core off win ea w r) (hop : r.op = .feset) :
    ∃ t, exec (.homeServe q) s = .next t ∧ s.served t q [syncReply r w 0] ∧ (t.core core).full off = true ∧
      (t.core core).pool = (s.core core).pool := by
  have hdo : (s.taking q).syncDo r.who core off r.op = _ := hop ▸ syncDo_feset (s := s.taking q) h.wps r.who off
  obtain ⟨t, hexec, hserved, hcore, -⟩ := h.satisfied_onCore (by rw [hop]; rfl) (by rw [hop]; rfl) hdo rfl rfl
  refine ⟨t, hexec, hserved, ?_, ?_⟩
  · rw [hcore, full_setFull]
  · rw [hcore]
    rfl

theorem serve_feclr (h : SyncAtPort s q core off win ea w r) (hop : r.op = .feclr) :
    ∃ t, exec (.homeServe q) s = .next t ∧ s.served t q [syncReply r w 0] ∧ (t.core core).full off = false ∧
      (t.core core).pool = (s.core core).pool := by
  have hdo : (s.taking q).syncDo r.who core off r.op = _ := hop ▸ syncDo_feclr (s := s.taking q) h.wps r.who off
  obtain ⟨t, hexec, hserved, hcore, -⟩ := h.satisfied_onCore (by rw [hop]; rfl) (by rw [hop]; rfl) hdo rfl rfl
  refine ⟨t, hexec, hserved, ?_, ?_⟩
  · rw [hcore, full_setFull]
  · rw [hcore]
    rfl

/-- The bit is not as the access needs it. -/
theorem syncReady_of_not_as_needed {full : Bool} {op : ROp}
    (h : (op = .lds ∨ op = .ldf) ∧ full = false ∨ ∃ x, op = .sts x ∧ full = true) : op.usesFull = true ∧ syncReady full op = false := by
  obtain ⟨rfl | rfl, rfl⟩ | ⟨x, rfl, rfl⟩ := h
  all_goals exact ⟨rfl, rfl⟩

end

/-- Settles O38: a store from its buffer to its home, by each step's own rule; a synchronising access by what its port makes of it. -/
theorem storeSteps : Obligations.StoreSteps := by
  unfold Obligations.StoreSteps
  refine ⟨⟨drain_thread, drain_left, ?arrives, ?overtakes, serve_store_pool, serve_store_glob, fun s t h => holdAcks_of_length_le h,
    fun s t w sent hf hc => holdAcks_forwarded hf hc, ?acked, ?refused, fun i r s h => exec_refusedWithRetryResend h⟩, ?sync⟩
  case arrives =>
    intro i r s hm hh hd
    rw [exec_messageDeliver_req hm, hh, hd]
    rfl
  case overtakes =>
    intro i r s hm hd
    rw [exec_messageDeliver_req hm, hd, Bool.and_false]
    rfl
  case acked =>
    intro i core j s hm ht htag
    rw [exec_storeAcknowledge hm ht, storeAcked_none (s := s.unsend i) htag]
  case refused =>
    intro i core j f s hm ht e htag hg
    rw [exec_storeAcknowledge hm ht, storeAcked_refused (s := s.unsend i) f htag hg]
    rfl
  case sync =>
    intro q core off win ea w s r hp hw hm hs hwps hwait hpois hc ho hwf
    have h : SyncAtPort s q core off win ea w r := ⟨hp, hw, hm, hs, hwps, hwait, hpois, hc⟩
    refine ⟨serve_lds h, serve_ldf h, serve_sts h hwf ho, serve_feset h, serve_feclr h, fun hnot => ?_⟩
    obtain ⟨hop, hready⟩ := syncReady_of_not_as_needed hnot
    exact h.waits hop hready

end Sys2Proof.Machine
end

section
/-! Instructions whose effect is on the registers of the issuing context alone. -/
namespace Sys2Proof.Machine

section
variable {i : Instr} {s : State} {body : State → State}

/-- An instruction that executes normally and changes registers only: that change, and the thread goes on. -/
theorem issue_onRegs {t : State} (h : Clear i s = true) (hb : body s = t) (ht : ∃ f, t = s.onRegs f) : issue i body s = t.pass := by
  obtain ⟨f, rfl⟩ := ht
  exact issue_pass h hb rfl (by simp) (by simp) (by simp) (by simp)

theorem issue_wrG_raise {d : GReg} {v : Word} {fl : BitVec 6} (h : Clear i s = true) (hb : body s = (s.wrG d v).raise fl) :
    issue i body s = ((s.wrG d v).raise fl).pass := issue_onRegs h hb ⟨_, s.onRegs_onRegs ..⟩

theorem issue_wrP_raise {d : PReg} {v : Pred} {fl : BitVec 6} (h : Clear i s = true) (hb : body s = (s.wrP d v).raise fl) :
    issue i body s = ((s.wrP d v).raise fl).pass := issue_onRegs h hb ⟨_, s.onRegs_onRegs ..⟩

/-- Outside a pair an issue reads the registers of its context (R34). -/
theorem rd_of_clear (h : Clear i s = true) : s.rd = s.cx.regs := rd_of_view (clear_facts h).view

theorem mode_of_clear (h : Clear i s = true) (rm : Rm) : s.mode rm = modeIn s.cx.regs.frm rm := by
  rw [State.mode, rd_of_clear h]

theorem fg_of_clear (h : Clear i s = true) (f : Fmt) (a : GReg) : s.fg f a = ((s.cx.regs.getG a).setWidth (fmtBits' f)).toNat := by
  rw [State.fg, rd_of_clear h, BitVec.toNat_setWidth]

theorem fe_of_clear (h : Clear i s = true) (f : Fmt) (v : VReg) : s.fe f v = elems (fmtBits' f) (s.cx.regs.getV v) := by
  rw [State.fe, rd_of_clear h]

end

end Sys2Proof.Machine
end

section
/-! A register from its elements, and its elements from a number (R161). -/
namespace Sys2Proof.Machine
open Sys2Proof.Manual

@[simp] theorem length_upTo (n : Nat) : (upTo n).length = n := by
  induction n with
  | zero => rfl
  | succ n ih => simp [upTo, ih]

theorem length_elems (w : Nat) (l : Line) : (elems w l).length = 512 / w := by simp [elems]

/-- An element of a register that holds a number is a piece of the number. -/
theorem el_ofNat {w j : Nat} (v : Nat) (h : w * j + w ≤ 512) : el w (BitVec.ofNat 512 v) j = BitVec.ofNat w (v / 2 ^ (w * j)) := by
  refine BitVec.eq_of_getLsbD_eq fun i hi => ?_
  have hin : i + w * j < 512 := by omega
  simp only [el, elem, BitVec.toNat_ofNat, BitVec.getLsbD_ofNat, Nat.testBit_mod_two_pow, Nat.testBit_div_two_pow, hi, hin, decide_true,
    Bool.true_and]

/-- Packed elements lie below the place that follows the last of them. -/
theorem ofElems_lt (w : Nat) (l : List Nat) : ofElems w l < 2 ^ (w * l.length) := by
  induction l with
  | nil => simp [ofElems]
  | cons x t ih =>
    have hx : x % 2 ^ w < 2 ^ w := Nat.mod_lt _ (by positivity)
    calc x % 2 ^ w + 2 ^ w * ofElems w t < 2 ^ w * (ofElems w t + 1) := by rw [Nat.mul_succ]; omega
      _ ≤ 2 ^ w * 2 ^ (w * t.length) := Nat.mul_le_mul_left _ ih
      _ = 2 ^ (w * (x :: t).length) := by rw [List.length_cons, Nat.mul_succ, pow_add, Nat.mul_comm]

/-- Element j of packed elements, whatever lies above them. -/
theorem ofNat_ofElems_div {w : Nat} (l : List Nat) (above : Nat) {j : Nat} (hj : j < l.length) :
    BitVec.ofNat w ((ofElems w l + above * 2 ^ (w * l.length)) / 2 ^ (w * j)) = BitVec.ofNat w l[j] := by
  induction l generalizing j with
  | nil => simp at hj
  | cons x t ih =>
    have hsplit : ofElems w (x :: t) + above * 2 ^ (w * (x :: t).length) =
        x % 2 ^ w + 2 ^ w * (ofElems w t + above * 2 ^ (w * t.length)) := by
      rw [ofElems, List.length_cons, Nat.mul_succ, pow_add]
      ring
    rw [hsplit]
    cases j with
    | zero =>
      apply BitVec.eq_of_toNat_eq
      simp
    | succ j =>
      have hx : x % 2 ^ w < 2 ^ w := Nat.mod_lt _ (by positivity)
      rw [Nat.mul_succ, Nat.add_comm (w * j), pow_add, ← Nat.div_div_eq_div_mul, Nat.add_mul_div_left _ _ (by positivity),
        Nat.div_eq_of_lt hx, Nat.zero_add, ih (by simpa using hj), List.getElem_cons_succ]

/-- A piece of what lies above the low p bits of a number. -/
theorem add_mul_two_pow_div {body above p q : Nat} (hb : body < 2 ^ p) (hq : p ≤ q) :
    (body + above * 2 ^ p) / 2 ^ q = above / 2 ^ (q - p) := by
  rw [show q = p + (q - p) by omega, pow_add, ← Nat.div_div_eq_div_mul, Nat.add_mul_div_right _ _ (by positivity), Nat.div_eq_of_lt hb,
    Nat.zero_add, Nat.add_sub_cancel_left]

end Sys2Proof.Machine
end

section
/-! Quantisation, and the block with its exponent pair in a register (O5). -/
namespace Sys2Proof.Machine
open Sys2Proof.Manual

/-! ### The block that quantisation forms (R69) -/

theorem length_quantise (bx : Bx) (delta : Nat) (rnd : Nat → Rounding) (x : List Num) :
    (quantise bx delta rnd x).1.length = x.length := by simp [quantise]

theorem quantE0_lt (x : List Num) : quantE0 x < 256 := by
  unfold quantE0 clampE
  dsimp only
  split <;> omega

theorem quantise_e0_lt (bx : Bx) (delta : Nat) (rnd : Nat → Rounding) (x : List Num) : (quantise bx delta rnd x).2.1 < 256 :=
  quantE0_lt x

theorem quantise_e1_lt (bx : Bx) (delta : Nat) (rnd : Nat → Rounding) (x : List Num) : (quantise bx delta rnd x).2.2 < 256 := by
  have h := quantE0_lt x
  simp only [quantise]
  omega

/-! ### The register of a block (R68, R173) -/

/-- The register that VQNT writes: the codes, and for BX4 and BX8 the exponent pair above them. -/
def blockLine (bx : Bx) (codes : List Nat) (pair : Nat) : Line :=
  let body := ofElems (bxBits bx) codes
  BitVec.ofNat 512 (if bx = .bx16 then body else body + pair * 2 ^ (8 * pairByte bx))

theorem pairByte_lt {bx : Bx} (h : bx ≠ .bx16) : pairByte bx + 1 < 64 := by
  cases bx
  case bx4 => decide
  case bx8 => decide
  case bx16 => exact absurd rfl h

/-- The pair begins where 32 elements end. -/
theorem eight_mul_pairByte (bx : Bx) {codes : List Nat} (hlen : codes.length = 32) : 8 * pairByte bx = bxBits bx * codes.length := by
  rw [pairByte, hlen]
  ring

section
variable {bx : Bx} {codes : List Nat} {pair : Nat}

/-- The elements of a block lie at the register's low end, packed as R68 says. -/
theorem el_blockLine (hlen : codes.length = 32) {j : Nat} (hj : j < codes.length) :
    el (bxBits bx) (blockLine bx codes pair) j = BitVec.ofNat (bxBits bx) codes[j] := by
  have hfit : bxBits bx * j + bxBits bx ≤ 512 := by cases bx <;> simp only [bxBits] <;> omega
  rw [blockLine, el_ofNat _ hfit]
  split
  · simpa using ofNat_ofElems_div codes 0 hj
  · rw [eight_mul_pairByte bx hlen]
    exact ofNat_ofElems_div codes pair hj

/-- The bytes above the elements of a block of BX4 or BX8 are those of its exponent pair. -/
theorem el_blockLine_above (hlen : codes.length = 32) (hbx : bx ≠ .bx16) {j : Nat} (hlo : pairByte bx ≤ j) (hhi : j < 64) :
    el 8 (blockLine bx codes pair) j = BitVec.ofNat 8 (pair / 2 ^ (8 * (j - pairByte bx))) := by
  have hbody : ofElems (bxBits bx) codes < 2 ^ (8 * pairByte bx) := by
    rw [eight_mul_pairByte bx hlen]
    exact ofElems_lt _ _
  rw [blockLine, el_ofNat _ (by omega), if_neg hbx, add_mul_two_pow_div hbody (by omega), Nat.mul_sub]

end

section
variable {bx : Bx} {codes : List Nat} {e0 e1 : Nat}

theorem el_blockLine_e0 (hlen : codes.length = 32) (hbx : bx ≠ .bx16) :
    el 8 (blockLine bx codes (e0 + 256 * e1)) (pairByte bx) = BitVec.ofNat 8 e0 := by
  have hin := pairByte_lt hbx
  rw [el_blockLine_above hlen hbx le_rfl (by omega)]
  apply BitVec.eq_of_toNat_eq
  simp

theorem el_blockLine_e1 (hlen : codes.length = 32) (hbx : bx ≠ .bx16) (h0 : e0 < 256) :
    el 8 (blockLine bx codes (e0 + 256 * e1)) (pairByte bx + 1) = BitVec.ofNat 8 e1 := by
  rw [el_blockLine_above hlen hbx (by omega) (pairByte_lt hbx), Nat.add_sub_cancel_left]
  congr 1
  omega

theorem el_blockLine_zero (hlen : codes.length = 32) (hbx : bx ≠ .bx16) (h0 : e0 < 256) (h1 : e1 < 256) {j : Nat}
    (hlo : pairByte bx + 2 ≤ j) (hhi : j < 64) : el 8 (blockLine bx codes (e0 + 256 * e1)) j = 0 := by
  have hpow : 2 ^ 16 ≤ 2 ^ (8 * (j - pairByte bx)) := Nat.pow_le_pow_right (by omega) (by omega)
  rw [el_blockLine_above hlen hbx (by omega) hhi, Nat.div_eq_of_lt (by omega)]
  rfl

end

/-! ### VQNT (R174) -/

/-- The values that VQNT quantises: the elements of one register, or of two. -/
def quantInputs (f : Fmt) (r : Regs) (a : VReg) (b : Option VReg) : List Num :=
  (elems (fmtBits' f) (r.getV a) ++ (b.elim [] fun v => elems (fmtBits' f) (r.getV v))).map (toNum f)

/-- An FP32 view has 16 elements, and a second register stands beside the first; a narrow view has all 32. -/
theorem length_quantInputs {f : Fmt} (r : Regs) (a : VReg) {b : Option VReg} (hb : b.isSome = (f == .f32)) :
    (quantInputs f r a b).length = 32 := by
  cases b with
  | none =>
    have hw : fmtBits' f = 16 := by
      cases f
      case f32 => cases hb
      case f16 => rfl
      case bf16 => rfl
    simp [quantInputs, length_elems, hw]
  | some v =>
    have hw : fmtBits' f = 32 := by rw [beq_iff_eq.mp hb.symm, fmtBits']
    simp [quantInputs, length_elems, hw]

section
variable {h : Hdr} {rn : Bool} {f : Fmt} {bx : Bx} {d a : VReg} {b : Option VReg} {c : Option GReg} {s : State}

/-- VQNT writes the block and its flags, and the pair to gC when it is named. -/
theorem exec_vqnt (hc : Clear (.vqnt h rn f bx d a b c) s = true) :
    let q := quantise bx s.cx.regs.bxdelta.toNat (fun _ => roundRne) (quantInputs f s.cx.regs a b)
    let t := (s.onRegs fun r => r.setV d (blockLine bx (q.1.map (·.1)) (q.2.1 + 256 * q.2.2))).raise (allFlags q.1)
    exec (.vqnt h rn f bx d a b c) s = .next (c.elim t fun g => t.wrG g (BitVec.ofNat 64 (q.2.1 + 256 * q.2.2))).pass := by
  intro q t
  have hbody : doVqnt rn f bx d a b c s = c.elim t fun g => t.wrG g (BitVec.ofNat 64 (q.2.1 + 256 * q.2.2)) := by
    unfold doVqnt
    rw [rd_of_clear hc]
    simp only [fe_of_clear hc]
    cases b <;> cases c <;> rfl
  have ht : ∃ k, t = s.onRegs k := ⟨_, s.onRegs_onRegs ..⟩
  refine congrArg Host.Outcome.next (issue_onRegs hc hbody ?_)
  cases c with
  | none => exact ht
  | some g =>
    obtain ⟨k, hk⟩ := ht
    exact ⟨_, (congrArg (State.wrG · g _) hk).trans (s.onRegs_onRegs ..)⟩

end

end Sys2Proof.Machine

namespace Sys2Proof.Laws
open Sys2Proof.Machine Sys2Proof.Manual

/-- Settles O5: the register that VQNT writes holds the 32 codes, and above them the exponent pair, one byte each. -/
theorem quantise : Obligations.Quantise := by
  unfold Obligations.Quantise
  intro h rn f bx d a b c s hwf hc r w x q n
  have hb : b.isSome = (f == .f32) := by
    simp only [Instr.wf, Bool.and_eq_true, beq_iff_eq] at hwf
    exact hwf.1
  have hx : x.length = 32 := length_quantInputs r a hb
  have hcodes : (q.1.map (·.1)).length = 32 := by rw [List.length_map, length_quantise, hx]
  have he0 : q.2.1 < 256 := quantise_e0_lt ..
  have he1 : q.2.2 < 256 := quantise_e1_lt ..
  refine ⟨hx, blockLine bx (q.1.map (·.1)) (q.2.1 + 256 * q.2.2), fun j hj => ?_, fun hbx => ⟨?_, ?_, fun j hlo hhi => ?_⟩, ?_⟩
  · rw [el_blockLine hcodes (by simpa using hj), List.getElem_map]
  · exact el_blockLine_e0 hcodes hbx
  · exact el_blockLine_e1 hcodes hbx he0
  · exact el_blockLine_zero hcodes hbx he0 he1 hlo hhi
  · cases c <;> exact exec_vqnt hc

end Sys2Proof.Laws
end

section
/-! Scalar floating-point results, and the values that a format holds (O6). -/
namespace Sys2Proof.Machine
open Sys2Proof.Manual

/-! ### The scalar forms (R170) -/

theorem signedOf_eq_toInt (w n : Nat) : signedOf w n = (BitVec.ofNat w n).toInt := by
  rw [signedOf, BitVec.toInt_eq_toNat_cond, BitVec.toNat_ofNat]
  norm_cast

theorem sextW_eq_signExtend (w n : Nat) : sextW w n = (BitVec.ofNat w n).signExtend 64 := by
  rw [sextW, BitVec.signExtend, signedOf_eq_toInt]

section
variable {h : Hdr} {f : Fmt} {rm : Rm} {d a b c : GReg} {s : State}

theorem exec_fadd (hc : Clear (.fadd h f rm d a b) s = true) : exec (.fadd h f rm d a b) s =
    .next (s.putF d (fAdd f (modeIn s.cx.regs.frm rm) ((s.cx.regs.getG a).setWidth (fmtBits' f)).toNat
      ((s.cx.regs.getG b).setWidth (fmtBits' f)).toNat)).pass := by
  rw [← mode_of_clear hc, ← fg_of_clear hc, ← fg_of_clear hc]
  exact congrArg _ (issue_wrG_raise hc rfl)

theorem exec_fmul (hc : Clear (.fmul h f rm d a b) s = true) : exec (.fmul h f rm d a b) s =
    .next (s.putF d (fMul f (modeIn s.cx.regs.frm rm) ((s.cx.regs.getG a).setWidth (fmtBits' f)).toNat
      ((s.cx.regs.getG b).setWidth (fmtBits' f)).toNat)).pass := by
  rw [← mode_of_clear hc, ← fg_of_clear hc, ← fg_of_clear hc]
  exact congrArg _ (issue_wrG_raise hc rfl)

theorem exec_ffma (hc : Clear (.ffma h f rm d a b c) s = true) : exec (.ffma h f rm d a b c) s =
    .next (s.putF d (fFma f (modeIn s.cx.regs.frm rm) ((s.cx.regs.getG a).setWidth (fmtBits' f)).toNat
      ((s.cx.regs.getG b).setWidth (fmtBits' f)).toNat ((s.cx.regs.getG c).setWidth (fmtBits' f)).toNat)).pass := by
  rw [← mode_of_clear hc, ← fg_of_clear hc, ← fg_of_clear hc, ← fg_of_clear hc]
  exact congrArg _ (issue_wrG_raise hc rfl)

/-- A signed integer is sign-extended from its own width. -/
theorem exec_fcvt {t src : NFmt} (hc : Clear (.fcvt h rm t src d a) s = true) :
    let x := convert (modeIn s.cx.regs.frm rm) t src ((s.cx.regs.getG a).setWidth src.bits).toNat
    exec (.fcvt h rm t src d a) s =
      .next ((s.wrG d (if nfmtSigned t then (BitVec.ofNat t.bits x.1).signExtend 64 else BitVec.ofNat 64 x.1)).raise x.2).pass := by
  dsimp only
  rw [← mode_of_clear hc, ← rd_of_clear hc, BitVec.toNat_setWidth, ← sextW_eq_signExtend]
  exact congrArg _ (issue_wrG_raise hc rfl)

theorem exec_fcmp {k : FCond} {p : PReg} (hc : Clear (.fcmp h f k p a b) s = true) :
    let x := fCmp f k ((s.cx.regs.getG a).setWidth (fmtBits' f)).toNat ((s.cx.regs.getG b).setWidth (fmtBits' f)).toNat
    exec (.fcmp h f k p a b) s = .next ((s.wrP p (allOf x.1)).raise x.2).pass := by
  rw [← fg_of_clear hc, ← fg_of_clear hc]
  exact congrArg _ (issue_wrP_raise hc rfl)

end

/-- What the table of scalar forms lists is what the form writes, with its flags. -/
theorem exec_of_fScalar {i : Instr} {s : State} {d : GReg} {v : Word} {fl : BitVec 6} (hi : fScalar s.cx.regs i = some (d, v, fl))
    (hc : Clear i s = true) : exec i s = .next ((s.wrG d v).raise fl).pass := by
  unfold fScalar at hi
  split at hi <;> cases hi
  case h_1 => exact exec_fadd hc
  case h_2 => exact exec_fmul hc
  case h_3 => exact exec_ffma hc
  case h_4 => exact exec_fcvt hc

/-! ### Rounding of a value that the format holds (R58, R59, R61, R63) -/

/-- What nothing is cut off from is not raised, whatever the mode. -/
theorem roundsUp_exact (mode : RMode) (neg odd : Bool) : roundsUp mode neg odd (-1) false = false := by
  cases mode <;> rfl

theorem cutAt_zero (m : Nat) : cutAt m 0 false = (m, false, -1) := by simp [cutAt]

theorem bitLen_le {m k : Nat} (h : m < 2 ^ k) : bitLen m ≤ k := by
  unfold bitLen
  split
  · omega
  · exact Nat.log2_lt ‹_› |>.mpr h

theorem bitLen_add_two_pow {m k : Nat} (h : m < 2 ^ k) : bitLen (m + 2 ^ k) = k + 1 := by
  have hne : m + 2 ^ k ≠ 0 := by positivity
  have hlog : Nat.log2 (m + 2 ^ k) = k := (Nat.log2_eq_iff hne).mpr ⟨by omega, by rw [pow_succ]; omega⟩
  rw [bitLen, if_neg hne, hlog]

/-- A significand that ends at the last place of the format is delivered whole: below the implicit bit as a subnormal number or zero, from it
on as a normal number of the exponent that its last place gives. -/
theorem roundTo_of_last_place {f : Fmt} (mode : RMode) (neg : Bool) {m : Nat} {e : Int}
    (hlast : max (e + bitLen m - 1) (1 - fmtBias f) - fmtF f = e) (hm : m < 2 ^ (fmtF f + 1)) (hmax : e + fmtF f + fmtBias f < 2 ^ fmtE f - 1) :
    roundTo f mode neg m e =
      (if m < 2 ^ fmtF f then packF f neg 0 m else packF f neg (e + fmtF f + fmtBias f).toNat (m - 2 ^ fmtF f), 0) := by
  have hzero : (0 : Nat) < 2 ^ fmtF f := by positivity
  unfold roundTo
  dsimp only
  rw [hlast, sub_self, cutAt_zero]
  dsimp only
  rw [roundsUp_exact]
  simp only [Bool.not_false, Bool.and_true, decide_eq_true_eq, Bool.false_eq_true, if_false, hm.ne, ge_iff_le, not_le.mpr hmax, flagIf]
  split
  next h0 => rw [if_pos (by omega), h0]; rfl
  next => split <;> rfl

theorem roundTo_subnormal {f : Fmt} (mode : RMode) (neg : Bool) {m : Nat} (h : m < 2 ^ fmtF f) :
    roundTo f mode neg m (1 - fmtBias f - fmtF f) = (packF f neg 0 m, 0) := by
  have hb := bitLen_le h
  have hexp : (1 : Int) < 2 ^ fmtE f - 1 := by cases f <;> decide
  rw [roundTo_of_last_place mode neg (by omega) (by rw [pow_succ]; omega) (by omega), if_pos h]

theorem roundTo_normal {f : Fmt} (mode : RMode) (neg : Bool) {ex frac : Nat} (hpos : ex ≠ 0) (hmax : ex < 2 ^ fmtE f - 1)
    (h : frac < 2 ^ fmtF f) :
    roundTo f mode neg (frac + 2 ^ fmtF f) (ex - fmtBias f - fmtF f) = (packF f neg ex frac, 0) := by
  have hb := bitLen_add_two_pow h
  have hexp : (ex : Int) < 2 ^ fmtE f - 1 := by
    have : (ex : Int) + 1 < ((2 ^ fmtE f : Nat) : Int) := by omega
    push_cast at this
    omega
  rw [roundTo_of_last_place mode neg (by omega) (by rw [pow_succ]; omega) (by omega), if_neg (by omega),
    show ((ex : Int) - fmtBias f - fmtF f + fmtF f + fmtBias f).toNat = ex by omega, Nat.add_sub_cancel]

/-- An encoding is the packing of its sign, exponent and fraction (R58). -/
theorem packF_fields {f : Fmt} {n : Nat} (h : n < 2 ^ fmtBits' f) :
    packF f (n / 2 ^ (fmtF f + fmtE f) % 2 == 1) (n / 2 ^ fmtF f % 2 ^ fmtE f) (n % 2 ^ fmtF f) = n := by
  cases f <;>
  · simp only [fmtBits', fmtE, fmtF, packF, beq_iff_eq, Nat.reduceAdd, Nat.reducePow] at h ⊢
    split <;> omega

/-- A number of a format is delivered in it as it stands, in every mode, and raises no flag. -/
theorem putNum_toNum {f : Fmt} (mode : RMode) {n : Nat} (hn : n < 2 ^ fmtBits' f) (hnum : isNaN (toNum f n) = false) :
    putNum f mode (toNum f n) = (n, 0) := by
  have hpack := packF_fields hn
  have hfrac : n % 2 ^ fmtF f < 2 ^ fmtF f := Nat.mod_lt _ (by positivity)
  have hexp : n / 2 ^ fmtF f % 2 ^ fmtE f < 2 ^ fmtE f := Nat.mod_lt _ (by positivity)
  unfold toNum at hnum ⊢
  dsimp only at hnum ⊢
  split at hnum
  case isTrue htop =>
    rw [if_pos htop]
    split at hnum
    case isTrue h0 =>
      rw [htop, h0] at hpack
      rw [if_pos h0, putNum, infF, hpack]
    case isFalse => cases hnum
  case isFalse htop =>
    rw [if_neg htop]
    split
    case isTrue h0 => rw [putNum, roundTo_subnormal mode _ hfrac, ← h0, hpack]
    case isFalse hpos => rw [putNum, roundTo_normal mode _ hpos (by omega) hfrac, hpack]

/-- Settles O6: each scalar form by what its body writes; a value that the format holds, because its significand ends at the format's last
place, so that rounding cuts nothing off. -/
theorem floatResults : Obligations.FloatResults := by
  unfold Obligations.FloatResults
  exact ⟨⟨fun _ _ _ _ _ hi _ hc => exec_of_fScalar hi hc, fun _ _ _ _ _ _ _ hc => exec_fcmp hc⟩,
    fun _ mode _ hn hnum => putNum_toNum mode hn hnum⟩

end Sys2Proof.Machine
end

section
/-! Long results: what an issue that starts one leaves behind (R82, R83). -/
namespace Sys2Proof.Machine

section
variable {i : Instr} {s : State} {body : State → State}

/-- The value of a long result that waits to land. -/
def landsAs (s : State) (data : Line) (flags : BitVec 6) : Reply :=
  { dst := s.whoMe, tag := s.cx.nextTag, data := data, flags := flags, fault := none, lane := none }

theorem longValue_kept (s : State) {d : Dest} (hd : d.discarded = false) (data : Line) (flags : BitVec 6) :
    s.longValue (s.newPend d) data flags = s.onCx fun c =>
      { c with nextTag := s.cx.nextTag + 1, pend := c.pend ++ [s.newPend d], landing := c.landing ++ [landsAs s data flags] } := by
  have hwho : (s.addPend (s.newPend d)).whoMe = s.whoMe := by
    change { core := s.me.1, ctx := s.me.2, inc := (s.addPend (s.newPend d)).cx.inc : Who } = _
    rw [State.addPend, State.cx_onCx]
    rfl
  have hdest : (s.newPend d).dest.discarded = false := hd
  rw [State.longValue, hdest, Bool.false_and, if_neg Bool.false_ne_true, State.answerNow, hwho, State.addPend, State.onCx_onCx]
  rfl

theorem longValue_discarded (s : State) {d : Dest} (hd : d.discarded = true) (data : Line) (flags : BitVec 6) :
    s.longValue (s.newPend d) data flags = s.onCx fun c => { c with nextTag := s.cx.nextTag + 1 } := by
  have hdest : (s.newPend d).dest.discarded = true := hd
  rw [State.longValue, hdest]
  rfl

/-- An instruction that executes normally and whose result the core forms itself. -/
theorem ownLong_issue {d : Dest} {data : Line} {flags : BitVec 6} (h : Clear i s = true)
    (hb : body s = s.longValue (s.newPend d) data flags) : ownLong s (issue i body s) d data flags := by
  have f := clear_facts h
  cases hd : d.discarded with
  | true =>
    rw [longValue_discarded s hd] at hb
    rw [issue_pass h hb rfl (by simp) (by simp) (by simp) (by simp)]
    simp [ownLong, State.pass, hd, f.took, f.run]
  | false =>
    rw [longValue_kept s hd] at hb
    rw [issue_pass h hb rfl (by simp) (by simp) (by simp) (by simp)]
    simp [ownLong, State.pass, hd, f.took, f.run, landsAs, State.newPend]

end

end Sys2Proof.Machine
end

section
/-! The long results of vectors: VDIV and VSQRT (O4). -/
namespace Sys2Proof.Machine
open Sys2Proof.Manual

/-- The flags of the performed elements do not depend on what the destination held, nor on the order in which they are added up. -/
theorem laneMix_flags_append (w : Nat) (on : Nat → Bool) (old : Line) (j : Nat) (l : List (Nat × BitVec 6)) (x : Nat × BitVec 6) :
    (laneMix w on old j (l ++ [x])).2 = (laneMix w on old j l).2 ||| (if on (j + l.length) then x.2 else 0) := by
  induction l generalizing j with
  | nil => by_cases h : on j <;> simp [laneMix, h]
  | cons y t ih =>
    have hj : j + 1 + t.length = j + (y :: t).length := by simp only [List.length_cons]; omega
    rw [List.cons_append, laneMix, laneMix]
    by_cases h : on j
    · simp only [h, if_true, ih, hj, BitVec.or_assoc]
    · simp only [h, ih, hj]
      rfl

theorem laneMix_flags (w : Nat) (on : Nat → Bool) (old : Line) (res : Nat → Nat × BitVec 6) (n : Nat) :
    (laneMix w on old 0 ((upTo n).map res)).2 = flagsOf on (fun j => (res j).2) n := by
  induction n with
  | zero => rfl
  | succ n ih => rw [upTo, List.map_append, List.map_singleton, laneMix_flags_append, ih, List.length_map, length_upTo, Nat.zero_add, flagsOf]

theorem laneWrite_flags (w : Nat) (gm : Pred) (old : Line) (res : Nat → Nat × BitVec 6) :
    (laneWrite w gm old ((upTo (512 / w)).map res)).2 = flagsOf (sel w gm) (fun j => (res j).2) (512 / w) := laneMix_flags ..

theorem map2_elems (w : Nat) (f : Nat → Nat → Nat × BitVec 6) (x y : Line) :
    map2 f (elems w x) (elems w y) = (upTo (512 / w)).map fun j => f (elem w x j) (elem w y j) := by
  simp [map2, elems, List.zip_map']

theorem map_elems (w : Nat) (f : Nat → Nat × BitVec 6) (x : Line) :
    (elems w x).map f = (upTo (512 / w)).map fun j => f (elem w x j) := List.map_map

theorem getElem_upTo {n j : Nat} (h : j < (upTo n).length) : (upTo n)[j] = j := by
  induction n with
  | zero => simp [upTo] at h
  | succ n ih =>
    simp only [upTo, List.getElem_append]
    split
    · exact ih _
    next hj => simp only [length_upTo] at h hj ⊢; simp; omega

/-- A register packed from 512 / w results holds result j in element j. -/
theorem el_lineOf {w j : Nat} (res : Nat → Nat × BitVec 6) (hj : j < 512 / w) :
    el w (lineOf w (((upTo (512 / w)).map res).map (·.1))) j = BitVec.ofNat w (res j).1 := by
  have hfit : w * j + w ≤ 512 := by
    calc w * j + w = w * (j + 1) := by ring
      _ ≤ w * (512 / w) := Nat.mul_le_mul_left _ hj
      _ ≤ 512 := Nat.mul_div_le ..
  have hlen : j < (((upTo (512 / w)).map res).map (·.1)).length := by simpa using hj
  rw [lineOf, el_ofNat _ hfit]
  simpa [getElem_upTo] using ofNat_ofElems_div (w := w) _ 0 hlen

section
variable {h : Hdr} {i : Instr} {s : State} {w : Nat} {d : VReg} {res : Nat → Nat × BitVec 6} {body : State → State}

/-- An instruction whose results, all the elements of a view, land in the performed lanes. -/
theorem ownLong_longLanes (hc : Clear i s = true) (hb : body s = s.longLanes h w d ((upTo (512 / w)).map res)) :
    ∃ l : Line, (∀ j, j < 512 / w → el w l j = BitVec.ofNat w (res j).1) ∧
      ownLong s (issue i body s) (.v d (laneBytes (s.cx.regs.gmask h) 16)) l
        (flagsOf (sel w (s.cx.regs.gmask h)) (fun j => (res j).2) (512 / w)) := by
  refine ⟨_, fun j hj => el_lineOf res hj, ownLong_issue hc ?_⟩
  rw [hb, State.longLanes, rd_of_clear hc, laneWrite_flags]

end

/-- Settles O4: the elements are packed in order, and the flags are those of the performed elements. -/
theorem vectorLong : Obligations.VectorLong := by
  unfold Obligations.VectorLong
  intro i s w d res hi hc
  unfold vLong at hi
  split at hi <;> cases hi
  case h_1 h f rm a b =>
    have hb : doVdiv h f rm d a b s = s.longLanes h (fmtBits' f) d ((upTo (512 / fmtBits' f)).map fun j =>
        fDiv f (modeIn s.cx.regs.frm rm) (elem (fmtBits' f) (s.cx.regs.getV a) j) (elem (fmtBits' f) (s.cx.regs.getV b) j)) := by
      rw [doVdiv, fe_of_clear hc, fe_of_clear hc, mode_of_clear hc, map2_elems]
    obtain ⟨l, hl, ho⟩ := ownLong_longLanes hc hb
    exact ⟨_, l, rfl, hl, ho⟩
  case h_2 h f rm a =>
    have hb : doVsqrt h f rm d a s = s.longLanes h (fmtBits' f) d ((upTo (512 / fmtBits' f)).map fun j =>
        fSqrt f (modeIn s.cx.regs.frm rm) (elem (fmtBits' f) (s.cx.regs.getV a) j)) := by
      rw [doVsqrt, fe_of_clear hc, mode_of_clear hc, map_elems]
    obtain ⟨l, hl, ho⟩ := ownLong_longLanes hc hb
    exact ⟨_, l, rfl, hl, ho⟩

end Sys2Proof.Machine
end

section
/-! What goes on beside the threads: changes that touch no context, no memory and no trap. -/
namespace Sys2Proof.Machine

/-- The state has changed beside the threads only: every context, the memory, the issuing context and its trap are as they were. -/
structure Beside (s t : State) : Prop where
  threads : s.threadsKept t
  mem     : t.mem = s.mem
  me      : t.me = s.me
  took    : t.took = s.took

theorem Beside.refl (s : State) : Beside s s := ⟨fun _ _ => rfl, rfl, rfl, rfl⟩

theorem Beside.trans {s t u : State} (h : Beside s t) (h' : Beside t u) : Beside s u :=
  ⟨fun c y => (h'.threads c y).trans (h.threads c y), h'.mem.trans h.mem, h'.me.trans h.me, h'.took.trans h.took⟩

theorem Beside.cx {s t : State} (h : Beside s t) : t.cx = s.cx := by
  rw [State.cx, h.me]
  exact h.threads ..

theorem beside_onCore {s : State} {c : Nat} {f : Core → Core} (h : (f (s.core c)).ctxs = (s.core c).ctxs) : Beside s (s.onCore c f) :=
  ⟨fun d y => ctx_onCore_of_ctxs h d y, rfl, rfl, rfl⟩

theorem beside_send (s : State) (b : Body) : Beside s (s.send b) := ⟨fun _ _ => rfl, rfl, rfl, rfl⟩

theorem beside_sendAll (s : State) (l : List Body) : Beside s (s.sendAll l) := by
  rw [State.sendAll_eq]
  exact ⟨fun _ _ => rfl, rfl, rfl, rfl⟩

theorem beside_foldl {α : Type} {f : State → α → State} (h : ∀ s a, Beside s (f s a)) (l : List α) (s : State) : Beside s (l.foldl f s) :=
  foldl_keeps (p := Beside s) (fun _ _ hs => hs.trans (h _ _)) l s (Beside.refl s)

theorem beside_onLaunch (s : State) (l : Nat) (f : Launch → Launch) : Beside s (s.onLaunch l f) := by
  unfold State.onLaunch
  split
  · exact Beside.refl s
  · exact ⟨fun _ _ => rfl, rfl, rfl, rfl⟩

theorem beside_freeSlot (s : State) (core i : Nat) : Beside s (s.freeSlot core i) := by
  unfold State.freeSlot
  exact beside_onCore (by rfl)

/-- The slots that a thread held are free, or will be when their cards retire (R303). -/
theorem beside_freeSlotsOf (s : State) (w : Who) : Beside s (s.freeSlotsOf w) := by
  refine beside_foldl (fun s i => ?_) _ s
  split
  · exact beside_freeSlot ..
  · exact Beside.refl s

theorem beside_sendMerge (s : State) (core : Nat) (e : XEnt) (ask : Option (Asker × Nat)) : Beside s (s.sendMerge core e ask) := by
  unfold State.sendMerge
  split
  · exact Beside.refl s
  · exact (beside_onCore (by rfl)).trans (beside_send ..)

/-- Merging sends the contributions of experience entries; it changes no thread (R147). -/
theorem beside_mergeWhere (s : State) (core : Nat) (p : XEnt → Bool) (ask : Option (Asker × Nat)) :
    Beside s (s.mergeWhere core p ask).1 := by
  unfold State.mergeWhere
  dsimp only
  exact (beside_foldl (fun s e => beside_sendMerge s core e ask) _ s).trans (beside_onCore (by rfl))

theorem beside_ite {s t u : State} {p : Prop} [Decidable p] (ht : Beside s t) (hu : Beside s u) : Beside s (if p then t else u) := by
  split
  · exact ht
  · exact hu

/-! ### The end of a thread (R91, R96, R111) -/

theorem ctxs_addCopies (core : Nat) (a : Asker) (op : Nat × Stream → KOp) (l : List (Nat × Stream)) (k : Core) :
    (l.foldl (fun k p => k.addCopy core a (op p) 0) k).ctxs = k.ctxs :=
  foldl_keeps (p := fun q : Core => q.ctxs = k.ctxs) (f := fun k p => k.addCopy core a (op p) 0) (fun _ _ h => h) l k rfl

/-- The end of a thread leaves its groups and frees its context; all else goes on beside the threads. -/
theorem endThread_beside (s : State) (core x : Nat) (word : BitVec 32) :
    ∃ f : Core → Core, (∀ k, (f k).ctxs = (k.setCtx x (s.ctx core x).freed).ctxs) ∧
      Beside ((s.sendAll (leaveAll (s.who core x) (s.ctx core x))).onCore core f) (s.endThread core x word) := by
  unfold State.endThread
  extract_lets c w drops sent freed slots ended
  have hended : Beside freed ended := (beside_freeSlotsOf ..).trans (beside_onLaunch ..)
  clear_value ended
  refine ⟨_, ?ctxs, beside_ite (hended.trans ?last) hended⟩
  case ctxs => exact fun k => ctxs_addCopies ..
  case last =>
    refine Beside.trans ?_ (beside_mergeWhere ..)
    exact beside_onCore (by rfl)

theorem endThread_facts (s : State) (word : BitVec 32) :
    (s.endThread s.me.1 s.me.2 word).cx = s.cx.freed ∧ (s.endThread s.me.1 s.me.2 word).took = s.took ∧
      (s.endThread s.me.1 s.me.2 word).mem = s.mem := by
  obtain ⟨f, hf, h⟩ := endThread_beside s s.me.1 s.me.2 word
  rw [State.sendAll_eq] at h
  refine ⟨?_, h.took, h.mem⟩
  rw [h.cx]
  change (State.core _ s.me.1).ctx s.me.2 = _
  rw [State.core_onCore_self, Core.ctx, hf]
  exact Core.ctx_setCtx_self ..

end Sys2Proof.Machine
end

section
/-! Waiting, ending, the counter, and the special registers that software may write (O9). -/
namespace Sys2Proof.Machine

section
variable {i : Instr} {s : State} {body : State → State}

theorem me_readClock (s : State) (core : Nat) : (s.readClock core).me = s.me := rfl

/-- Reading the counter goes on beside the threads (R396). -/
theorem beside_readClock (s : State) (core : Nat) : Beside s (s.readClock core) :=
  ⟨fun c y => ctx_onCore_of_ctxs (s := s) (f := fun k => { k with clock := s.coreNow core }) rfl c y, rfl, rfl, rfl⟩

theorem clock_readClock (s : State) (core : Nat) : ((s.readClock core).core core).clock = s.coreNow core := by
  rw [State.readClock, State.core_used, State.core_onCore_self]

/-- An instruction that executes normally and acts beside the threads, or on registers besides. -/
theorem issue_beside {t : State} (h : Clear i s = true) (hb : body s = t) (ht : Beside s t) : issue i body s = t.pass :=
  issue_pass h hb ht.took (by rw [ht.cx]) (by rw [ht.cx]) (by rw [ht.cx]) (by rw [ht.cx])

end

theorem exec_doze {h : Hdr} {a : GReg} {s : State} (hc : Clear (.doze h a) s = true) :
    exec (.doze h a) s = .next (if (s.cx.regs.getG a).toNat ≤ s.coreNow s.me.1 then (s.readClock s.me.1).pass
      else (s.readClock s.me.1).onCx fun c => { c with run := .dozing (s.cx.regs.getG a).toNat, pc := c.npc }) := by
  have hr := beside_readClock s s.me.1
  have hb : doDoze a s = if (s.cx.regs.getG a).toNat ≤ s.coreNow s.me.1 then s.readClock s.me.1
      else (s.readClock s.me.1).onCx fun c => { c with run := .dozing (s.cx.regs.getG a).toNat, pc := c.npc } := by
    rw [doDoze, rd_of_clear hc]
  refine congrArg Host.Outcome.next ?_
  split
  next hle => exact issue_beside hc (hb.trans (if_pos hle)) hr
  next hgt =>
    refine issue_stays hc (hb.trans (if_neg hgt)) hr.took (.inr ?_) (.inr ?_) ?_
    · rw [State.cx_onCx, hr.cx]
    · rw [State.cx_onCx, hr.cx]
    · rw [State.cx_onCx]
      nofun

theorem exec_nowns {h : Hdr} {d : GReg} {s : State} (hc : Clear (.nowns h d) s = true) :
    exec (.nowns h d) s = .next ((s.readClock s.me.1).wrG d (BitVec.ofNat 64 (s.coreNow s.me.1))).pass := by
  have hr := (beside_readClock s s.me.1).cx
  exact congrArg Host.Outcome.next (issue_pass hc rfl rfl (by simp [hr]) (by simp [hr]) (by simp [hr]) (by simp [hr]))

theorem exec_exit {h : Hdr} {a : GReg} {s : State} (hc : Clear (.exit h a) s = true) (hf : s.cx.cap.any Capture.forming = false) :
    exec (.exit h a) s = .next (s.endThread s.me.1 s.me.2 (exitWord ((s.cx.regs.getG a).setWidth 32))) := by
  have hb : doExit a s = s.endThread s.me.1 s.me.2 (exitWord ((s.cx.regs.getG a).setWidth 32)) := by
    rw [doExit, hf, if_neg Bool.false_ne_true, rd_of_clear hc]
  obtain ⟨hcx, htook, -⟩ := endThread_facts s (exitWord ((s.cx.regs.getG a).setWidth 32))
  refine congrArg Host.Outcome.next (issue_stays hc hb htook (.inl ?_) (.inl ?_) ?_)
  · rw [hcx]
    rfl
  · rw [hcx]
    rfl
  · rw [hcx]
    nofun

theorem exec_mts {h : Hdr} {r : SReg} {a : GReg} {s : State} (hc : Clear (.mts h r a) s = true) :
    exec (.mts h r a) s = .next (s.onRegs fun q => q.mts r (s.cx.regs.getG a)).pass :=
  congrArg Host.Outcome.next (issue_onRegs hc (by rw [doMts, rd_of_clear hc]) ⟨_, rfl⟩)

/-- A core reads the master's counter plus a free number from -2 to 2, and never less than before (R396). -/
theorem coreNow_near (s : State) (core : Nat) : s.now ≤ s.coreNow core + 2 ∧
    (s.coreNow core ≤ s.now + 2 ∨ s.coreNow core = (s.core core).clock) := by
  have hfree : fld (Config.freeWord s.fresh) 2 0 % 5 < 5 := Nat.mod_lt _ (by decide)
  rw [State.coreNow]
  omega

theorem clock_le_coreNow (s : State) (core : Nat) : (s.core core).clock ≤ s.coreNow core := Nat.le_max_left ..

/-- Settles O9: by what each body does; a reading by its definition as a maximum. -/
theorem specialRegisters : Obligations.SpecialRegisters := by
  unfold Obligations.SpecialRegisters
  refine ⟨⟨?nop, ?yieldT, ?wait, fun _ _ _ hc => exec_doze hc, fun _ _ _ hc => exec_nowns hc, ?exit⟩, ?clock, ?mts⟩
  case nop => exact fun _ s hc => congrArg Host.Outcome.next (issue_beside hc rfl (Beside.refl s))
  case yieldT => exact fun _ s hc => congrArg Host.Outcome.next (issue_beside hc rfl (Beside.refl s))
  case wait => exact fun _ s hc => congrArg Host.Outcome.next (issue_beside hc rfl (Beside.refl s))
  case exit =>
    intro h a s hc hf
    obtain ⟨hcx, htook, hmem⟩ := endThread_facts s (exitWord ((s.cx.regs.getG a).setWidth 32))
    exact ⟨_, exec_exit hc hf, rfl, hcx, htook.trans (clear_facts hc).took, hmem⟩
  case clock =>
    intro s core
    obtain ⟨hlow, hhigh⟩ := coreNow_near s core
    exact ⟨clock_le_coreNow s core, hlow, hhigh, clock_readClock s core, rfl,
      (clock_readClock s core).symm.le.trans (clock_le_coreNow ..)⟩
  case mts =>
    intro h r a s hc
    rw [exec_mts hc]
    cases r <;> rfl

end Sys2Proof.Machine
end

section
/-! A thread's handles, and the group instructions on a settled handle (O12, R93 to R101, R112 to R115). -/
namespace Sys2Proof.Machine

/-! ### The table of handles (R93, R97, R98) -/

section
variable {s : State} {g : BitVec 32} {e : HEnt} (k : HEnt → State)

theorem withHandle_of_member (he : s.cx.hent g = some e) (hm : e.st = .member) : s.withHandle g k = k e := by
  rw [State.withHandle, he]
  exact if_pos hm

theorem withHandle_of_pending (he : s.cx.hent g = some e) (hm : e.st ≠ .member) :
    s.withHandle g k = s.park .group (.handle g) .again := by
  rw [State.withHandle, he]
  exact if_neg hm

theorem withHandle_of_absent (he : s.cx.hent g = none) : s.withHandle g k = s.trap GROUP_USE (g.setWidth 64) 1 := by
  rw [State.withHandle, he]

end

theorem handleIn_of_clear {i : Instr} {s : State} (h : Clear i s = true) (a : GReg) : s.handleIn a = (s.cx.regs.getG a).setWidth 32 := by
  rw [State.handleIn, rd_of_clear h]

/-- Changing an entry changes the table of handles only. -/
theorem onH_eq (c : Ctx) (g : BitVec 32) (f : HEnt → HEnt) : ∃ l, c.onH g f = { c with handles := l } := by
  unfold Ctx.onH
  split
  · exact ⟨_, rfl⟩
  · exact ⟨c.handles, rfl⟩

/-- Arriving at a barrier changes the table of handles only. -/
theorem cx_arriveAt (s : State) (g : BitVec 32) (rec' : Option Bool) : ∃ l, (s.arriveAt g rec').cx = { s.cx with handles := l } := by
  rw [State.arriveAt, State.cx_send, State.cx_onCx]
  exact onH_eq ..

/-! ### What starts a long result (R82, R83, R115) -/

@[simp] theorem cx_addPend (s : State) (p : Pend) : (s.addPend p).cx = { s.cx with nextTag := p.tag + 1, pend := s.cx.pend ++ [p] } := by
  rw [State.addPend, State.cx_onCx]

/-- A long result whose one request goes to no place in memory: it is entered, and the request is sent. -/
theorem long1_unit (s : State) (d : Dest) (op : ROp) :
    s.long1 d .unit op = (s.addPend { s.newPend d with reqs := [s.reqFor .unit op s.cx.nextTag] }).send
      (.req (s.reqFor .unit op s.cx.nextTag)) := rfl

/-- An instruction that executes normally and whose result one request asks for. -/
theorem farLong_issue {i : Instr} {s : State} {body : State → State} {d : Dest} {op : ROp} (h : Clear i s = true)
    (hb : body s = s.long1 d .unit op) : farLong s (issue i body s) d .unit op := by
  have f := clear_facts h
  rw [issue_pass h (hb.trans (long1_unit s d op)) rfl (by simp) (by simp) (by simp) (by simp)]
  refine ⟨by simp [State.pass], by simp [State.pass], rfl, f.took, by simp [State.pass, f.run], by simp [State.pass], rfl, ?_⟩
  exact ⟨{ s.newPend d with reqs := [s.reqFor .unit op s.cx.nextTag] }, by simp [State.pass], rfl, rfl, rfl, rfl⟩

/-! ### The group instructions -/

section
variable {h : Hdr} {d a : GReg} {e : HEnt} {s : State}

theorem exec_join (hc : Clear (.join h d a) s = true) (hg : (s.cx.regs.getG a).setWidth 32 ≠ (0 : BitVec 32))
    (he : s.cx.hent ((s.cx.regs.getG a).setWidth 32) = none) (hroom : (s.cx.handles.filter fun e => e.handle != 0).length < 8) :
    exec (.join h d a) s = .next (((s.onCx fun c => { c with
      nextTag := s.cx.nextTag + 1
      pend := c.pend ++ [s.newPend (.g d .d 0)]
      handles := c.handles.filter (fun e => e.handle != (s.cx.regs.getG a).setWidth 32) ++
        [{ handle := (s.cx.regs.getG a).setWidth 32, st := .joining, tag := s.cx.nextTag, arrived := false, waitFor := none }] }).send
      (.group s.whoMe s.cx.launch ((s.cx.regs.getG a).setWidth 32) true (some s.cx.nextTag))).pass) := by
  refine congrArg Host.Outcome.next (issue_pass hc ?_ rfl (by simp) (by simp) (by simp) (by simp))
  rw [doJoin, handleIn_of_clear hc]
  simp only [he, if_neg hg, if_neg (Nat.not_le.mpr hroom), State.addPend, State.onCx_onCx]
  rfl

theorem exec_leave (hc : Clear (.leave h a) s = true) (hg : (s.cx.regs.getG a).setWidth 32 ≠ (0 : BitVec 32))
    (he : s.cx.hent ((s.cx.regs.getG a).setWidth 32) = some e) (hm : e.st = .member) :
    exec (.leave h a) s = .next (((s.onCx fun c => { c with
      nextTag := s.cx.nextTag + 1
      pend := c.pend ++ [s.newPend .none]
      handles := c.handles.filter (fun x => x.handle != e.handle) ++ [{ e with st := .leaving, tag := s.cx.nextTag }] }).send
      (.group s.whoMe s.cx.launch ((s.cx.regs.getG a).setWidth 32) false (some s.cx.nextTag))).pass) := by
  refine congrArg Host.Outcome.next (issue_pass hc ?_ rfl (by simp) (by simp) (by simp) (by simp))
  rw [doLeave, handleIn_of_clear hc]
  simp only [if_neg hg, withHandle_of_member _ he hm, State.addPend, State.onCx_onCx]
  rfl

/-- An instruction that arrives at a barrier and parks until its release. -/
theorem issue_arriveAt_park {i : Instr} {body : State → State} {g : BitVec 32} {k : Cont} (hc : Clear i s = true)
    (hb : body s = (s.arriveAt g none).park .group (.barrier g) k) :
    issue i body s = (s.arriveAt g none).park .group (.barrier g) k := by
  obtain ⟨l, hl⟩ := cx_arriveAt s g none
  exact issue_park hc hb rfl (by rw [hl]) (by rw [hl])

theorem exec_gbar (hc : Clear (.gbar h a) s = true) (he : s.cx.hent ((s.cx.regs.getG a).setWidth 32) = some e) (hm : e.st = .member)
    (ha : e.arrived = false) : exec (.gbar h a) s = .next ((s.arriveAt ((s.cx.regs.getG a).setWidth 32) none).park .group
      (.barrier ((s.cx.regs.getG a).setWidth 32)) .finish) := by
  refine congrArg Host.Outcome.next (issue_arriveAt_park hc ?_)
  rw [doGbar, handleIn_of_clear hc]
  simp only [withHandle_of_member _ he hm, ha, Bool.false_eq_true, if_false]

theorem exec_garrive (hc : Clear (.garrive h a) s = true) (he : s.cx.hent ((s.cx.regs.getG a).setWidth 32) = some e)
    (hm : e.st = .member) (ha : e.arrived = false) :
    exec (.garrive h a) s = .next (s.arriveAt ((s.cx.regs.getG a).setWidth 32) (some false)).pass := by
  obtain ⟨l, hl⟩ := cx_arriveAt s ((s.cx.regs.getG a).setWidth 32) (some false)
  refine congrArg Host.Outcome.next (issue_pass hc ?_ rfl (by rw [hl]) (by rw [hl]) (by rw [hl]) (by rw [hl]))
  rw [doGarrive, handleIn_of_clear hc]
  simp only [withHandle_of_member _ he hm, ha, Bool.false_eq_true, if_false]

theorem exec_gwait {done : Bool} (hc : Clear (.gwait h a) s = true) (he : s.cx.hent ((s.cx.regs.getG a).setWidth 32) = some e)
    (hm : e.st = .member) (hw : e.waitFor = some done) :
    let t := s.onCx fun c => { c with handles := c.handles.filter (fun x => x.handle != e.handle) ++ [{ e with waitFor := none }] }
    exec (.gwait h a) s =
      .next (if done then t.pass else t.park .group (.barrier ((s.cx.regs.getG a).setWidth 32)) .finish) := by
  intro t
  have hb : doGwait a s = if done then t else t.park .group (.barrier ((s.cx.regs.getG a).setWidth 32)) .finish := by
    rw [doGwait, handleIn_of_clear hc]
    simp only [withHandle_of_member _ he hm, hw]
    rfl
  refine congrArg Host.Outcome.next ?_
  cases done with
  | true => exact issue_pass hc hb rfl (by simp [t]) (by simp [t]) (by simp [t]) (by simp [t])
  | false => exact issue_park hc hb rfl (by simp [t]) (by simp [t])

theorem exec_phase (hc : Clear (.phase h a) s = true) (he : s.cx.hent ((s.cx.regs.getG a).setWidth 32) = some e) (hm : e.st = .member)
    (ha : e.arrived = false) (hd : s.isDrained s.me.1 s.me.2 = true) :
    exec (.phase h a) s = .next ((s.arriveAt ((s.cx.regs.getG a).setWidth 32) none).park .group
      (.barrier ((s.cx.regs.getG a).setWidth 32)) (.phaseDone ((s.cx.regs.getG a).setWidth 32))) := by
  refine congrArg Host.Outcome.next (issue_arriveAt_park hc ?_)
  rw [doPhase, handleIn_of_clear hc]
  simp only [withHandle_of_member _ he hm, ha, Bool.false_eq_true, if_false, State.afterDrain, hd, if_true]
  rfl

/-- GINFO of handle 0: the launch's own figures, at once. -/
theorem issue_wrG {i : Instr} {body : State → State} {v : Word} (hc : Clear i s = true) (hb : body s = s.wrG d v) :
    issue i body s = (s.wrG d v).pass := issue_onRegs hc hb ⟨_, rfl⟩

theorem ginfoFar_of_member {g : BitVec 32} (rank : Bool) (he : s.cx.hent g = some e) (hm : e.st = .member) :
    s.ginfoFar d g rank = s.long1 (.g d .d 0) .unit (.ginfo g rank) := withHandle_of_member _ he hm

end

/-- Settles O12: each group instruction by its body, the entry of its handle found as settled. -/
theorem groups : Obligations.Groups := by
  unfold Obligations.Groups
  refine ⟨fun _ _ _ _ hc hg he hr => exec_join hc hg he hr, fun _ _ _ _ hc hg he hm => exec_leave hc hg he hm,
    fun _ _ _ _ hc he hm ha => exec_gbar hc he hm ha, fun _ _ _ _ hc he hm ha => exec_garrive hc he hm ha,
    fun _ _ _ _ _ hc he hm hw => exec_gwait hc he hm hw, fun _ _ _ _ hc he hm ha hd => exec_phase hc he hm ha hd, ?size, ?rank⟩
  case size =>
    intro h d a e s hc g
    have hb (hg : g ≠ 0) : doGinfoSize d a s = s.ginfoFar d g false := by rw [doGinfoSize, handleIn_of_clear hc, if_neg hg]
    refine ⟨fun hg => congrArg Host.Outcome.next (issue_wrG hc ?_), fun hg he hm => ⟨_, rfl, ?_⟩⟩
    · rw [doGinfoSize, handleIn_of_clear hc, if_pos hg]
    · exact farLong_issue hc ((hb hg).trans (ginfoFar_of_member _ he hm))
  case rank =>
    intro h d a e s hc g
    have hb (hg : g ≠ 0) : doGinfoRank d a s = s.ginfoFar d g true := by rw [doGinfoRank, handleIn_of_clear hc, if_neg hg]
    refine ⟨fun hg => congrArg Host.Outcome.next (issue_wrG hc ?_), fun hg he hm => ⟨_, rfl, ?_⟩⟩
    · rw [doGinfoRank, handleIn_of_clear hc, if_pos hg]
    · exact farLong_issue hc ((hb hg).trans (ginfoFar_of_member _ he hm))

end Sys2Proof.Machine
end

section
/-! Groups at their slices, and the release of a barrier (O45, R93 to R101, R112, R113). -/
namespace Sys2Proof.Machine

/-! ### The groups that a slice holds -/

theorem key_of_group {s : State} {l h : BitVec 32} {g : Group} (hg : s.group l h = some g) : g.launch = l ∧ g.handle = h := by
  have hp := List.find?_some hg
  simpa using hp

/-- A group is dropped when nobody is in it. -/
theorem dropped_iff (g : Group) : ((g.handle == 0 && g.size == 0) || (g.handle != 0 && g.members.isEmpty)) = decide (g.total = 0) := by
  unfold Group.total
  by_cases h : g.handle = 0
  · simp [h, beq_eq_decide]
  · have hb : (g.handle == 0) = false := beq_eq_false_iff_ne.mpr h
    rw [if_neg h, bne, hb, Bool.false_and, Bool.false_or, Bool.not_false, Bool.true_and]
    cases g.members <;> rfl

/-- A slice that holds the group holds it changed, or no longer where nobody is in it. -/
theorem group_setGroup {s : State} {l h : BitVec 32} {g : Group} (g' : Group) (hg : s.group l h = some g) (hl : g'.launch = l) (hh : g'.handle = h) :
    (s.setGroup g').group l h = if g'.total = 0 then none else some g' := by
  subst hl hh
  unfold State.setGroup State.group State.onSched
  dsimp only
  rw [dropped_iff]
  by_cases h0 : g'.total = 0
  · rw [if_pos (decide_eq_true h0), if_pos h0, List.find?_eq_none]
    intro x hx
    have hnot := (List.mem_filter.mp hx).2
    simp only [Bool.not_eq_true'] at hnot
    exact Bool.not_eq_true _ ▸ hnot
  · rw [if_neg (by simpa using h0), if_neg h0, List.find?_map]
    have hp : ((fun x : Group => x.launch == g'.launch && x.handle == g'.handle) ∘
        fun x => if (x.launch == g'.launch && x.handle == g'.handle) = true then g' else x) =
        fun x => x.launch == g'.launch && x.handle == g'.handle := by
      funext x
      by_cases hx : (x.launch == g'.launch && x.handle == g'.handle) = true
      · simp only [Function.comp, hx, if_true, beq_self_eq_true, Bool.and_self]
      · simp only [Function.comp, if_neg hx]
    have hkey := List.find?_some hg
    rw [hp]
    change Option.map _ (s.group g'.launch g'.handle) = _
    rw [hg, Option.map_some, if_pos hkey]

section
variable {s : State} {i tag : Nat} {w : Who} {l h : BitVec 32} {g : Group}

/-! ### JOIN and LEAVE (R93 to R95, R112) -/

theorem exec_groupRequestArrive_join (hm : s.message i (.group w l h true (some tag))) (hf : s.sliceFenced l h = false) :
    exec (.groupRequestArrive i) s = .next ((s.unsend i).joinAt w l h tag) := by
  obtain ⟨⟨born, body⟩, hm, rfl⟩ := hm
  change execGroupRequestArrive i s = _
  simp only [execGroupRequestArrive, hm, hf, Bool.false_eq_true, if_false, if_true, Option.getD_some]

theorem exec_groupRequestArrive_leave {t : Option Nat} (hm : s.message i (.group w l h false t)) (hf : s.sliceFenced l h = false)
    (hj : s.joinFirst w h = false) : exec (.groupRequestArrive i) s = .next ((s.unsend i).leaveAt w l h t) := by
  obtain ⟨⟨born, body⟩, hm, rfl⟩ := hm
  change execGroupRequestArrive i s = _
  simp only [execGroupRequestArrive, hm, hf, hj, Bool.false_eq_true, if_false]

/-- The group that the first JOIN makes. -/
def soleMember (w : Who) (l h : BitVec 32) : Group :=
  { launch := l, handle := h, members := [w], size := 0, arrived := [], count := 0, joins := [], leaves := [] }

theorem joinAt_new (hg : s.group l h = none) (hroom : s.sliceLoad (s.slice l h) < 256) :
    ∃ (t : State) (g : Group), s.joinAt w l h tag = t.send (wordTo w tag 0) ∧ t.chan = s.chan ∧ t.now = s.now ∧ t.cores = s.cores ∧
      t.group l h = some g ∧ g.members = [w] ∧ g.count = 0 := by
  refine ⟨s.onSched fun q => { q with groups := q.groups ++ [soleMember w l h] }, soleMember w l h, ?_, rfl, rfl, rfl, ?_, rfl, rfl⟩
  · simp only [State.joinAt, hg, if_neg (Nat.not_le.mpr hroom)]
    rfl
  · change List.find? _ (s.sched.groups ++ _) = _
    have hnone : s.sched.groups.find? (fun g => g.launch == l && g.handle == h) = none := hg
    simp [List.find?_append, hnone, soleMember]

theorem joinAt_full (hg : s.group l h = none) (hfull : 256 ≤ s.sliceLoad (s.slice l h)) :
    s.joinAt w l h tag = s.send (wordTo w tag (BitVec.allOnes 64)) := by
  simp only [State.joinAt, hg, if_pos hfull]

theorem joinAt_open (hg : s.group l h = some g) (h0 : g.count = 0) :
    s.joinAt w l h tag = (s.setGroup { g with members := g.members ++ [w] }).send (wordTo w tag (BitVec.ofNat 64 g.members.length)) := by
  simp only [State.joinAt, hg, if_pos h0]

theorem joinAt_held (hg : s.group l h = some g) (h0 : g.count ≠ 0) :
    s.joinAt w l h tag = s.setGroup { g with joins := g.joins ++ [(w, tag)] } := by
  simp only [State.joinAt, hg, if_neg h0]

theorem leaveAt_open (hg : s.group l h = some g) (h0 : g.count = 0) :
    s.leaveAt w l h (some tag) = (s.setGroup { g with members := g.members.filter (· != w), size := g.size - 1 }).send
      (.reply (ackTo w tag)) := by
  simp only [State.leaveAt, hg, if_pos h0]

/-- A group of a handle other than 0 counts its members. -/
theorem total_eq_zero_iff (hh : g.handle ≠ 0) : g.total = 0 ↔ g.members = [] := by
  rw [Group.total, if_neg hh, List.length_eq_zero_iff]

/-! ### Barriers (R95, R96, R99) -/

theorem exec_barrierArrival (hm : s.message i (.arrive w l h false)) (hf : s.sliceFenced l h = false) (hg : s.group l h = some g) :
    exec (.barrierArrival i) s =
      .next ((s.unsend i).settleGroup { g with arrived := g.arrived ++ [w], count := g.count + 1 }) := by
  obtain ⟨⟨born, body⟩, hm, rfl⟩ := hm
  have hg' : (s.unsend i).group l h = some g := hg
  change execBarrierArrival i s = _
  simp only [execBarrierArrival, hm, hf, State.arriveAtSlice, hg', Bool.false_and, Bool.false_eq_true, if_false]

theorem settleGroup_waits (hc : g.count ≠ g.total) : s.settleGroup g = s.setGroup g := by
  simp [State.settleGroup, hc]

theorem settleGroup_completes (hc : g.count = g.total) (h0 : g.count ≠ 0) : s.settleGroup g = s.completeGroup g := by
  simp [State.settleGroup, ← hc, h0]

/-- Held joins are applied in their order of arrival, and each is told its rank. -/
theorem applyJoins_eq (g : Group) (l : List (Who × Nat)) :
    applyJoins g l = ({ g with members := g.members ++ l.map fun p => p.1 },
      l.mapIdx fun k p => wordTo p.1 p.2 (BitVec.ofNat 64 (g.members.length + k))) := by
  induction l generalizing g with
  | nil => simp [applyJoins]
  | cons p l ih =>
    obtain ⟨w, tag⟩ := p
    rw [applyJoins, ih]
    simp [List.mapIdx_cons, Nat.add_comm, Nat.add_left_comm]

theorem completeGroup_eq (s : State) (g : Group) : s.completeGroup g = (s.setGroup g.next).sendAll g.tells := by
  unfold State.completeGroup
  simp only [applyJoins_eq]
  rfl

end

/-! ### The release of a barrier (R101, R113) -/

section
variable {s : State} {i : Nat} {w : Who} {h : BitVec 32}

theorem exec_groupRelease (hm : s.message i (.release w h)) (ht : s.inTime i = true) (hl : s.live w = true) :
    exec (.groupRelease i) s = .next (
      let t := (s.unsend i).onCtx w.core w.ctx fun c => c.released h
      if (s.ctx w.core w.ctx).inPhase h then t.phaseDone w.core (s.ctx w.core w.ctx) else t) := by
  obtain ⟨⟨born, body⟩, hm, rfl⟩ := hm
  have hfresh := isStale_of_inTime hm ht
  have hl' : (s.unsend i).live w = true := hl
  change execGroupRelease i s = _
  simp only [execGroupRelease, hm, hfresh, State.releaseTo, State.thread, hl', Bool.false_eq_true, if_false, if_true]
  rfl

theorem snap_sendMerge (s : State) (core : Nat) (e : XEnt) (ask : Option (Asker × Nat)) :
    ((s.sendMerge core e ask).core core).snap = (s.core core).snap := by
  unfold State.sendMerge
  split
  · rfl
  · rw [State.core_send, State.core_onCore_self]

/-- Merging the experience leaves the snapshot cache alone. -/
theorem snap_mergeWhere (s : State) (core : Nat) (p : XEnt → Bool) (ask : Option (Asker × Nat)) :
    ((s.mergeWhere core p ask).1.core core).snap = (s.core core).snap := by
  unfold State.mergeWhere
  rw [State.core_onCore_self]
  exact foldl_keeps (p := fun t : State => (t.core core).snap = (s.core core).snap) (f := fun s e => s.sendMerge core e ask)
    (fun t e ht => (snap_sendMerge t core e ask).trans ht) _ s rfl

theorem snap_snapEmpty (s : State) (core : Nat) : ((s.snapEmpty core).core core).snap = [] := by
  rw [State.snapEmpty, State.core_onCore_self]
  rfl

theorem snap_phaseDone (s : State) (core : Nat) (c : Ctx) : ((s.phaseDone core c).core core).snap = [] := by
  have hmerged : (((s.snapEmpty core).mergeWhere core (fun e => e.launch == c.launch.toNat) none).1.core core).snap = [] := by
    rw [snap_mergeWhere, snap_snapEmpty]
  unfold State.phaseDone
  dsimp only
  split
  · exact hmerged
  · exact hmerged

theorem handle_of_hent {c : Ctx} {e : HEnt} (he : c.hent h = some e) : e.handle = h := by
  unfold Ctx.hent at he
  split at he
  next x hx =>
    cases he
    simpa using List.find?_some hx
  next =>
    split at he
    next h0 => cases he; exact h0.symm
    next => cases he

theorem released_eq {c : Ctx} {e : HEnt} (he : c.hent h = some e) : c.released h = { c with
    handles := c.handles.filter (fun x => x.handle != h) ++
      [{ e with arrived := false, waitFor := if e.waitFor = some false then some true else e.waitFor }] } := by
  rw [Ctx.released, Ctx.onH, he]
  simp only [Ctx.setH, handle_of_hent he]

end

/-- Settles O45: each request by what its slice makes of it, each release by what it changes in its thread's table and core. -/
theorem groupSteps : Obligations.GroupSteps := by
  unfold Obligations.GroupSteps
  refine ⟨?joins, ?leaves, ?arrivals, ?phase, ?release⟩
  case joins =>
    intro i w l h tag s hm hh hf
    have hexec := exec_groupRequestArrive_join hm hf
    refine ⟨fun hg hroom => ?_, fun hg hfull => ?_, fun g hg h0 => ?_, fun g hg h0 hne => ?_⟩
    · obtain ⟨t, g, ht, hchan, hnow, hcores, hgroup, hmem, hcount⟩ := joinAt_new (s := s.unsend i) (w := w) (tag := tag) hg hroom
      refine ⟨_, g, hexec.trans (congrArg _ ht), ?_, hgroup, hmem, hcount, hcores⟩
      rw [State.sent, State.send_chan, hchan, hnow]
      rfl
    · rw [hexec, joinAt_full (s := s.unsend i) hg hfull]
    · obtain ⟨hgl, hgh⟩ := key_of_group hg
      refine ⟨_, hexec.trans (congrArg _ (joinAt_open (s := s.unsend i) hg h0)), rfl, ?_⟩
      refine (group_setGroup (s := s.unsend i) { g with members := g.members ++ [w] } hg hgl hgh).trans (if_neg (mt (total_eq_zero_iff ?_).mp ?_))
      · exact hgh.trans_ne hh
      · exact List.append_ne_nil_of_right_ne_nil _ (List.cons_ne_nil w [])
    · obtain ⟨hgl, hgh⟩ := key_of_group hg
      refine ⟨_, hexec.trans (congrArg _ (joinAt_held (s := s.unsend i) hg h0)), ?_, ?_⟩
      · exact (List.append_nil _).symm
      · refine (group_setGroup (s := s.unsend i) { g with joins := g.joins ++ [(w, tag)] } hg hgl hgh).trans
          (if_neg (mt (total_eq_zero_iff ?_).mp hne))
        exact hgh.trans_ne hh
  case leaves =>
    intro i w l h tag g s hm hh hf hj hg h0 rest
    obtain ⟨hgl, hgh⟩ := key_of_group hg
    refine ⟨_, (exec_groupRequestArrive_leave hm hf hj).trans (congrArg _ (leaveAt_open (s := s.unsend i) hg h0)), rfl, ?_⟩
    refine (group_setGroup (s := s.unsend i) { g with members := rest, size := g.size - 1 } hg hgl hgh).trans
      (if_congr (total_eq_zero_iff ?_) rfl rfl)
    exact hgh.trans_ne hh
  case arrivals =>
    intro i w l h g s hm hf hg a
    obtain ⟨hgl, hgh⟩ := key_of_group hg
    have hexec := exec_barrierArrival hm hf hg
    refine ⟨fun hc h0 => ?_, fun hc h0 => ?_⟩
    · refine ⟨_, hexec.trans (congrArg _ (settleGroup_waits hc)), (List.append_nil _).symm, ?_⟩
      exact (group_setGroup (s := s.unsend i) a hg hgl hgh).trans (if_neg h0)
    · refine ⟨_, hexec.trans (congrArg _ ((settleGroup_completes hc (Nat.succ_ne_zero _)).trans (completeGroup_eq ..))), ?_, ?_⟩
      · rw [State.sendAll_eq]
        rfl
      · rw [State.sendAll_eq]
        exact (group_setGroup (s := s.unsend i) a.next hg hgl hgh).trans (if_neg h0)
  case phase =>
    intro i w h s hm ht hl hp
    refine ⟨_, exec_groupRelease hm ht hl, ?_⟩
    simp only [hp, if_true, snap_phaseDone]
  case release =>
    intro i w h e s hm ht hl he hp
    have he' : ((s.unsend i).ctx w.core w.ctx).hent h = some e := he
    rw [exec_groupRelease hm ht hl, hp, if_neg Bool.false_ne_true, State.onCtx, State.onCtx, released_eq he']

end Sys2Proof.Machine
end

section
/-! Loads at their homes (O39): what a read of memory leaves unchanged, and the answers (R193, R204). -/
namespace Sys2Proof.Machine

/-! ### A read forwards no write (R231) -/

theorem fwds_putLine (s : State) (t : BitVec 16) (pa : Nat) (d : Line) (m : BitVec 64) : (s.putLine t pa d m).mem.fwds = s.mem.fwds := by
  unfold State.putLine
  split
  · rfl
  · obtain ⟨st, l, hu⟩ := undoLog_eq s pa
    rw [hu]
    unfold State.writePhys
    dsimp only
    split <;> rfl

theorem fwds_readPhys (s : State) (t : BitVec 16) (pa : Nat) : (s.readPhys t pa).2.mem.fwds = s.mem.fwds := by
  unfold State.readPhys
  dsimp only
  split <;> rfl

theorem fwds_walk (s : State) (va n table : Nat) : (s.walk va n table).2.mem.fwds = s.mem.fwds := by
  induction n generalizing s table with
  | zero => rfl
  | succ n ih =>
    unfold State.walk
    dsimp only
    split
    · rfl
    · split
      · rfl
      · split
        · exact fwds_readPhys ..
        · split
          · split <;> exact fwds_readPhys ..
          · split
            · exact fwds_readPhys ..
            · exact (ih ..).trans (fwds_readPhys ..)

theorem fwds_walkIt (s : State) (stop : Nat) (tenant : BitVec 16) (sup : Bool) (need : XNeed) (va : Nat) :
    (State.leafFor.walkIt stop tenant sup need va s).2.mem.fwds = s.mem.fwds := by
  unfold State.leafFor.walkIt
  split
  · rfl
  next root _ =>
    have hwalk := fwds_walk s va 5 (root.toNat / 4096)
    split
    next hw => rwa [hw] at hwalk
    next hw => rwa [hw] at hwalk
    next p level addr u hw =>
      rw [hw] at hwalk
      dsimp only
      generalize (if permOk p sup need then p ||| 0x40 ||| (if need = .store then 0x80 else 0) else p) = p'
      split
      · exact hwalk
      · exact (fwds_putLine ..).trans hwalk

theorem fwds_leafFor (s : State) (stop : Nat) (tenant : BitVec 16) (sup : Bool) (need : XNeed) (va : Nat) :
    (s.leafFor stop tenant sup need va).2.mem.fwds = s.mem.fwds := by
  unfold State.leafFor
  split
  · split
    · rfl
    · exact fwds_walkIt ..
  · exact fwds_walkIt ..

theorem fwds_translate (s : State) (a : Asker) (need : XNeed) (va : Word) : (s.translate a need va).2.mem.fwds = s.mem.fwds := by
  have hleaf := fwds_leafFor s (homeStop va) a.tenant a.sup need (fld va 56 0)
  unfold State.translate
  dsimp only
  split
  next h => rwa [h] at hleaf
  next h =>
    rw [h] at hleaf
    repeat' split
    all_goals exact hleaf

theorem fwds_logStop (s : State) (n : Nat) (a : Asker) (va : Word) (mb : BitVec 6) (kind : BitVec 8) :
    (s.logStop n a va mb kind).mem.fwds = s.mem.fwds := rfl

theorem fwds_gCheck0 (s : State) (a : Asker) (need : XNeed) (bset rd : Bool) (va : Word) (mask : BitVec 64) :
    (s.gCheck0 a need bset rd va mask).2.mem.fwds = s.mem.fwds := by
  have hx := fwds_translate s a need va
  unfold State.gCheck0
  split
  next h => rwa [h] at hx
  next h => rwa [h] at hx
  next h =>
    rw [h] at hx
    dsimp only
    generalize (if bset then _ else _ : Bool) = pass
    repeat' split
    all_goals exact hx

theorem mem_consumePoison (s : State) (a : Asker) : (s.consumePoison a).mem = s.mem := by
  unfold State.consumePoison
  split
  · rfl
  · split <;> rfl

theorem fwds_gCheck (s : State) (a : Asker) (need : XNeed) (bset rd : Bool) (va : Word) (mask : BitVec 64) :
    (s.gCheck a need bset rd va mask).2.mem.fwds = s.mem.fwds := by
  have hc := fwds_gCheck0 s a need bset rd va mask
  unfold State.gCheck
  split
  next h => rwa [h] at hc
  next h =>
    rw [h] at hc
    dsimp only
    split
    · rwa [mem_consumePoison]
    · exact hc
  next h => rwa [h] at hc

theorem fwds_readXl (s : State) (t : BitVec 16) (x : Xl) : (s.readXl t x).2.mem.fwds = s.mem.fwds := by
  unfold State.readXl
  split
  · exact fwds_readPhys ..
  · rfl

theorem fwds_ringWrite (s : State) (key : Nat) (l : List Byte) : (s.ringWrite key l).mem.fwds = s.mem.fwds := by
  unfold State.ringWrite
  dsimp only
  split <;> rfl

theorem mem_startStop (s : State) (scope core : Nat) (edge : Bool) (extra : Option Nat) :
    (s.startStop scope core edge extra).mem = s.mem := by
  unfold State.startStop
  split <;> rfl

theorem fwds_fire (s : State) (l : Tab Watch) (glob : Bool) (unit die : Nat) (a : Asker) (addr n acc : Nat) (val : Nat → Word) :
    (s.fire l glob unit die a addr n acc val).mem.fwds = s.mem.fwds := by
  induction l generalizing s with
  | nil => rfl
  | cons p l ih =>
    obtain ⟨i, w⟩ := p
    rw [State.fire]
    refine (ih _).trans ?_
    split
    · rw [mem_startStop]
      exact fwds_ringWrite ..
    · rfl

theorem fwds_fireGlob (s : State) (a : Asker) (va : Word) (n pa acc : Nat) : (s.fireGlob a va n pa acc).mem.fwds = s.mem.fwds := by
  unfold State.fireGlob
  dsimp only
  split
  · rfl
  · exact fwds_fire ..

/-- A load at a memory stop forwards nothing to replicas. -/
theorem fwds_gLoad {s u : State} {a : Asker} {need : XNeed} {va : Word} {n : Nat} {l : Line} (h : s.gLoad a need va n = .done l u) :
    u.mem.fwds = s.mem.fwds := by
  have hc := fwds_gCheck s a need false true va (byteMask (fld va 5 0) n)
  unfold State.gLoad at h
  dsimp only at h
  split at h
  next => cases h
  next hok =>
    rw [hok] at hc
    cases h
    exact (fwds_fireGlob ..).trans ((fwds_readXl ..).trans hc)

/-! ### The home answers (R193, R204) -/

theorem mem_reply (s : State) (r : Req) (l : Line) (f : BitVec 6) (e : Option RFault) : (s.reply r l f e).mem = s.mem := by
  obtain ⟨c, h⟩ := reply_eq s r l f e
  rw [h]

section
variable {q : Nat} {s : State} {r : Req}

/-- A load that a memory stop performs is answered. -/
theorem serve_load_glob {va : Word} {n : Nat} {ln : Bool} {l : Line} {u : State} (hp : r.place = .glob va) (hop : r.op = .load n ln)
    (hm : s.mayServe q r = true) (hg : (s.taking q).gLoad r.who .load va n = .done l u) :
    exec (.homeServe q) s = .next (u.reply r l 0 none) := by
  have hserve : (s.taking q).serve r = some (u.reply r l 0 none) := by
    simp only [State.serve, hp, State.serveGlob, hop, hg, Served.answer]
  rw [exec_homeServe hm hserve, holdAcks_of_length_le]
  rw [mem_reply, fwds_gLoad hg]

/-- A load that a pool port accepts is answered with its line. -/
theorem serve_load_pool {core off n : Nat} {win ln : Bool} {ea : Word} {w : Who} (hp : r.place = .pool core off win ea)
    (hop : r.op = .load n ln) (hw : r.who.agent = .thread w) (hm : s.mayServe q r = true) (hs : (s.core core).stopped = false)
    (hwps : (s.core core).wps = []) (hc : s.poolCheck core off n win r.who .r = none) (hok : (s.core core).poisoned off n = false) :
    exec (.homeServe q) s = .next ((s.taking q).send (.reply
      { dst := w, tag := r.tag, data := (s.core core).poolLine off, flags := 0, fault := none, lane := r.lane })) := by
  have hload : (s.taking q).pLoad r.who core off n win ea = .done ((s.core core).poolLine off) (s.taking q) := by
    have hc' : (s.taking q).poolCheck core off n win r.who .r = none := hc
    have hok' : ((s.taking q).core core).poisoned off n = false := hok
    rw [State.pLoad, hc', hok', firePool_of_no_wps (s := s.taking q) hwps]
    rfl
  have hs' : ((s.taking q).core core).stopped = false := hs
  have hth : r.who.thread? = some w := by rw [Asker.thread?, hw]
  have hserve : (s.taking q).serve r = some ((s.taking q).reply r ((s.core core).poolLine off) 0 none) := by
    simp only [State.serve, hp, State.servePool, hs', Bool.false_eq_true, if_false, hop, hload, Served.answer, Option.map_some,
      State.outsideWrite]
  rw [exec_homeServe hm hserve, holdAcks_of_length_le (by rw [mem_reply]), State.reply, hth]

/-- A request waits behind one for the same home that can be served. -/
theorem serve_behind {p : Req} (hq : s.homes[q]? = some r) (hp : p ∈ s.homes.take q) (hsame : p.sameHome r = true)
    (hserve : ({ s with homes := [] }.serve p).isSome = true) : exec (.homeServe q) s = .next s := by
  have hnot : s.firstServable q = false := by
    rw [State.firstServable, hq]
    simp only [Bool.and_eq_false_iff, List.all_eq_false]
    exact .inl ⟨p, hp, by simp [hsame, Option.isNone_eq_false_iff.mpr hserve]⟩
  change Host.Outcome.next (s.serveHome q) = _
  simp only [State.serveHome, hq, hnot, Bool.false_eq_true, if_false]

end

/-! ### The answer comes to its thread (R206) -/

/-- A reply that no prefetch waits for answers its thread's park, or waits to land. -/
theorem exec_messageDeliver_reply {i : Nat} {r : Reply} {s : State} (hm : s.message i (.reply r)) (ht : s.inTime i = true)
    (hl : s.live r.dst = true) (hp : ∀ p ∈ (s.core r.dst.core).prefs, p.1 ≠ r.dst.ctx ∨ p.2.1 ≠ r.tag) :
    exec (.messageDeliver i) s = .next (((s.unsend i).replyLog r.dst.core).onCtx r.dst.core r.dst.ctx fun c =>
      if (match c.run with | .parked _ (.reply t) _ _ => t == r.tag | _ => false) then { c with answer := some r }
      else { c with landing := c.landing ++ [r] }) := by
  obtain ⟨⟨born, body⟩, hm, rfl⟩ := hm
  have hfresh := isStale_of_inTime hm ht
  have hnone : (s.core r.dst.core).prefs.find? (fun p => p.1 == r.dst.ctx && p.2.1 == r.tag) = none := by
    rw [List.find?_eq_none]
    intro p hmem
    simpa [imp_iff_not_or] using hp p hmem
  have hl' : (s.unsend i).live r.dst = true := hl
  have hnone' : ((s.unsend i).core r.dst.core).prefs.find? (fun p => p.1 == r.dst.ctx && p.2.1 == r.tag) = none := hnone
  change Host.Outcome.next (s.deliverMsg i) = _
  simp only [State.deliverMsg, hm, hfresh, State.deliverReply, hl', hnone', Bool.false_eq_true, if_false, if_true]
  have hctx : ((s.unsend i).replyLog r.dst.core).ctx r.dst.core r.dst.ctx = ((s.unsend i).core r.dst.core).ctx r.dst.ctx := by
    rw [State.ctx, core_of_agrees (agrees_replyLog ..)]
  rw [State.onCtx, hctx]
  congr 2
  cases (((s.unsend i).core r.dst.core).ctx r.dst.ctx).run with
  | parked kind cond k limited =>
    cases cond with
    | reply t => simp only [beq_iff_eq]
    | _ => rfl
  | _ => rfl

end Sys2Proof.Machine
end

section
/-! The landing of a long result, and the turn that reads it (O39, R83 to R86, R193, R352). -/
namespace Sys2Proof.Machine

/-! ### One result outstanding, changed -/

/-- The results outstanding, with the one of a tag replaced. -/
def replacePend (l : List Pend) (tag : Nat) (p : Pend) : List Pend := l.map fun q => if q.tag = tag then p else q

theorem replacePend_replacePend (l : List Pend) {tag : Nat} {p : Pend} (hp : p.tag = tag) (q : Pend) :
    replacePend (replacePend l tag p) tag q = replacePend l tag q := by
  simp only [replacePend, List.map_map]
  congr 1
  funext x
  by_cases hx : x.tag = tag
  · simp [hx, hp]
  · simp [hx]

theorem find?_replacePend {l : List Pend} {tag : Nat} {old p : Pend} (h : l.find? (fun q => q.tag == tag) = some old) (hp : p.tag = tag) :
    (replacePend l tag p).find? (fun q => q.tag == tag) = some p := by
  have hsame : (fun q : Pend => q.tag == tag) ∘ (fun q => if q.tag = tag then p else q) = fun q => q.tag == tag := by
    funext x
    by_cases hx : x.tag = tag
    · simp [hx, hp]
    · simp [hx]
  have hold : old.tag = tag := by simpa using List.find?_some h
  rw [replacePend, List.find?_map, hsame, h, Option.map_some, if_pos hold]

/-! ### The answers of a result (R83, R200, R352) -/

section
variable {s : State} {core : Nat} {c : Ctx} {r : Reply} {p : Pend}

/-- A result that has taken an answer, and waits for n more. -/
def Pend.answered (p : Pend) (r : Reply) (n : Nat) : Pend := { p with left := n, flags := p.flags ||| r.flags }

/-- The result that has come, whole. -/
def Pend.arrived (p : Pend) (r : Reply) : Pend :=
  { p.answered r (p.left - 1) with got := shapeLine p.shape (mergeLine (gotBytes p r) p.fwd p.fmask), landed := true }

/-- A core's snapshot cache takes the line that a load brings, where there is one for it (R193). -/
def State.fillLine (s : State) (core : Nat) (tenant : BitVec 16) (key : Option Nat) (d : Line) : State :=
  match key with
  | some l => s.onCore core fun k => k.snapPlace tenant l d
  | none => s

theorem not_known (hk : ∀ q ∈ c.replay, q.tag ≠ r.tag) : (c.replay.any fun q => q.tag == r.tag) = false := by
  simpa using hk

/-- A failed answer leaves a record. -/
theorem landIn_fault {f : RFault} (hp : c.pend.find? (fun q => q.tag == r.tag) = some p) (hk : ∀ q ∈ c.replay, q.tag ≠ r.tag)
    (hf : r.fault = some f) :
    s.landIn core c r = ({ c with
      pend := replacePend c.pend r.tag (p.answered r (p.left - 1)), replay := c.replay ++ [{ tag := r.tag, fault := f, due := true }] }, s) := by
  unfold State.landIn
  simp only [hp, not_known hk, hf]
  rfl

/-- An answer with more to come is kept. -/
theorem landIn_more (hp : c.pend.find? (fun q => q.tag == r.tag) = some p) (hf : r.fault = none) (hl : 2 ≤ p.left) :
    s.landIn core c r = ({ c with
      pend := replacePend c.pend r.tag { p.answered r (p.left - 1) with got := gotBytes p r } }, s) := by
  have hleft : (p.left - 1 != 0) = true := by simp; omega
  unfold State.landIn
  simp only [hp, hf, hleft, Bool.true_or, if_true]
  rfl

/-- The last answer: the result has landed, its line fills the snapshot cache, its acquire empties it. -/
theorem landIn_last (hp : c.pend.find? (fun q => q.tag == r.tag) = some p) (hk : ∀ q ∈ c.replay, q.tag ≠ r.tag) (hf : r.fault = none)
    (hl : p.left = 1) (hx : p.xs = 0xFFFF) :
    s.landIn core c r =
      let t := s.fillLine core c.tenant p.fillKey (gotBytes p r)
      let q := replacePend c.pend r.tag (p.arrived r)
      if p.acq then ({ c with pend := q.map fun q => { q with fill := false } }, t.snapEmpty core) else ({ c with pend := q }, t) := by
  have htag : p.tag = r.tag := by simpa using List.find?_some hp
  have htwice := replacePend_replacePend c.pend (tag := r.tag) (p := { p.answered r (p.left - 1) with got := gotBytes p r }) htag (p.arrived r)
  have hleft : (p.left - 1 != 0) = false := by simp [hl]
  unfold State.landIn
  simp only [hp, not_known hk, hf, hleft, Bool.or_self, Bool.false_eq_true, if_false, if_true, Option.isNone_none]
  rw [if_pos hx, ← htwice]
  rfl

end

theorem snapFind_snapPlace (k : Core) (t : BitVec 16) (line : Nat) (d : Line) : (k.snapPlace t line d).snapFind t line = some d := by
  have hgone (l : List SnapLine) (hl : ∀ x ∈ l, x ∈ k.snap.filter fun l => !(l.tenant == t && l.line == line)) :
      l.find? (fun l => l.tenant == t && l.line == line) = none := by
    rw [List.find?_eq_none]
    intro x hx
    have hnot := (List.mem_filter.mp (hl x hx)).2
    simp only [Bool.not_eq_true'] at hnot
    exact Bool.not_eq_true _ ▸ hnot
  unfold Core.snapPlace Core.snapFind
  dsimp only
  rw [List.find?_append, hgone]
  · simp
  · intro x hx
    split at hx
    · exact hx
    · exact List.mem_of_mem_drop hx

theorem fillLine_elsewhere (s : State) (core : Nat) (t : BitVec 16) (key : Option Nat) (d : Line) :
    (s.fillLine core t key d).mem = s.mem ∧ (s.fillLine core t key d).chan = s.chan ∧ (s.fillLine core t key d).homes = s.homes := by
  cases key <;> exact ⟨rfl, rfl, rfl⟩

theorem snapFind_fillLine (s : State) (core : Nat) (t : BitVec 16) (l : Nat) (d : Line) :
    ((s.fillLine core t (some l) d).core core).snapFind t l = some d := by
  rw [State.fillLine, State.core_onCore_self, snapFind_snapPlace]

/-! ### LONG_RESULT_LAND -/

section
variable {s : State} {core x i : Nat} {r : Reply} {p : Pend}

theorem exec_longResultLand {c : Ctx} {t : State} (hs : (s.core core).stopped = false) (hr : (s.ctx core x).landing[i]? = some r)
    (hland : s.landIn core { s.ctx core x with landing := dropAt (s.ctx core x).landing i } r = (c, t)) :
    exec (.longResultLand core x i) s = .next (t.setCtx core x c) := by
  change Host.Outcome.next (s.landAt core x i) = _
  simp only [State.landAt, hs, hr, Bool.false_eq_true, if_false, hland]

theorem core_setCtx (s : State) (core x : Nat) (c : Ctx) : (s.setCtx core x c).core core = (s.core core).setCtx x c := by
  rw [State.setCtx, State.core_onCore_self]

/-- Where a result with an acquire has landed, no line asked for before it fills the cache (R193, R197). -/
theorem find?_unfilled {l : List Pend} {tag : Nat} {q : Pend} (h : l.find? (fun q => q.tag == tag) = some q) :
    (l.map fun q => { q with fill := false }).find? (fun q => q.tag == tag) = some { q with fill := false } := by
  rw [List.find?_map]
  exact congrArg _ h

/-- The last answer lands: the registers wait for the next turn, the line fills the cache, an acquire empties it. -/
theorem exec_longResultLand_last (hs : (s.core core).stopped = false) (hr : (s.ctx core x).landing[i]? = some r)
    (hp : (s.ctx core x).pend.find? (fun q => q.tag == r.tag) = some p) (hk : ∀ q ∈ (s.ctx core x).replay, q.tag ≠ r.tag)
    (hf : r.fault = none) (hl : p.left = 1) (hx : p.xs = 0xFFFF) :
    ∃ t, exec (.longResultLand core x i) s = .next t ∧ t.mem = s.mem ∧ t.chan = s.chan ∧ t.homes = s.homes ∧
      (t.ctx core x).regs = (s.ctx core x).regs ∧ (t.ctx core x).pc = (s.ctx core x).pc ∧
      (t.ctx core x).landing = dropAt (s.ctx core x).landing i ∧
      (∃ q, (t.ctx core x).pend.find? (fun q => q.tag == r.tag) = some q ∧ q.landed = true ∧
        q.got = shapeLine p.shape (mergeLine (gotBytes p r) p.fwd p.fmask) ∧ q.dest = p.dest ∧ q.flags = p.flags ||| r.flags) ∧
      (p.acq = true → (t.core core).snap = []) ∧
      (p.acq = false → ∀ l, p.fillKey = some l → (t.core core).snapFind (s.ctx core x).tenant l = some (gotBytes p r)) := by
  have htag : p.tag = r.tag := by simpa using List.find?_some hp
  have hland := landIn_last (s := s) (core := core) (c := { s.ctx core x with landing := dropAt (s.ctx core x).landing i }) hp hk hf hl hx
  have hfound := find?_replacePend (p := p.arrived r) hp htag
  obtain ⟨hmem, hchan, hhomes⟩ := fillLine_elsewhere s core (s.ctx core x).tenant p.fillKey (gotBytes p r)
  cases ha : p.acq with
  | true =>
    simp only [ha, if_true] at hland
    refine ⟨_, exec_longResultLand hs hr hland, hmem, hchan, hhomes, ?_⟩
    rw [State.ctx_setCtx_self]
    refine ⟨rfl, rfl, rfl, ⟨_, find?_unfilled hfound, rfl, rfl, rfl, rfl⟩, fun _ => ?_, nofun⟩
    rw [core_setCtx]
    exact snap_snapEmpty ..
  | false =>
    simp only [ha, Bool.false_eq_true, if_false] at hland
    refine ⟨_, exec_longResultLand hs hr hland, hmem, hchan, hhomes, ?_⟩
    rw [State.ctx_setCtx_self]
    refine ⟨rfl, rfl, rfl, ⟨_, hfound, rfl, rfl, rfl, rfl⟩, nofun, fun _ l hkey => ?_⟩
    rw [core_setCtx, hkey]
    exact snapFind_fillLine ..

end

/-! ### The turn (R83) -/

/-- What a landed result writes. -/
theorem settle_of_one {c : Ctx} {p : Pend} (hp : c.pend.filter Pend.landed = [p]) (hd : p.dest.pushes = none)
    (hh : ∀ h ∈ c.handles, h.tag ≠ p.tag) :
    c.settle = { c with regs := (c.regs.putDest p.dest p.got).raise p.flags, pend := c.pend.filter fun q => q.tag != p.tag } := by
  have hnone : c.handles.find? (fun h => h.tag == p.tag && h.st != .member) = none := by
    rw [List.find?_eq_none]
    intro h hmem
    simp [hh h hmem]
  have hland : c.landHandle p.tag (word64 p.got 0) = c := by rw [Ctx.landHandle, hnone]
  rw [Ctx.settle, hp, List.foldl_cons, List.foldl_nil, Ctx.settle1]
  simp only [hland, hd]

theorem tget_map_keyed {α : Type} (f : Nat → α → α) (t : Tab α) (k : Nat) : tget (t.map fun q => (q.1, f q.1 q.2)) k =
    (tget t k).map (f k) := by
  induction t with
  | nil => rfl
  | cons p t ih =>
    simp only [List.map_cons, tget]
    split
    next h => rw [h, Option.map_some]
    next => exact ih

/-- What a turn's start makes of a context whose results have settled: a park whose condition has come about is over, a doze may end. -/
def Ctx.looks (s : State) (core x : Nat) (c : Ctx) : Ctx :=
  match c.run with
  | .parked _ cond _ _ => { c with due := s.condMet core x cond }
  | .dozing _ => c.woken (s.coreNow core)
  | _ => c

theorem woken_eq (c : Ctx) (now : Nat) : ∃ r, c.woken now = { c with run := r } := by
  unfold Ctx.woken
  split
  · split
    · exact ⟨_, rfl⟩
    · exact ⟨c.run, rfl⟩
  · exact ⟨c.run, rfl⟩

theorem looks_eq (s : State) (core x : Nat) (c : Ctx) : (c.looks s core x).regs = c.regs ∧ (c.looks s core x).pend = c.pend := by
  unfold Ctx.looks
  split
  · exact ⟨rfl, rfl⟩
  · obtain ⟨r, hr⟩ := woken_eq c (s.coreNow core)
    rw [hr]
    exact ⟨rfl, rfl⟩
  · exact ⟨rfl, rfl⟩

/-- At the start of its core's turn a context reads what has landed. -/
theorem ctx_turnStart {s : State} {core x : Nat} {c : Ctx} (h : tget (s.core core).ctxs x = some c) :
    ∃ u, (s.turnStart core).ctx core x = c.settle.looks u core x := by
  unfold State.turnStart
  extract_lets u t
  have hu : tget (u.core core).ctxs x = some c.settle := by
    rw [State.core_onCore_self]
    exact (tget_map_values Ctx.settle _ x).trans (congrArg _ h)
  have ht : t.ctx core x = c.settle.looks u core x := by
    rw [State.ctx, State.core_onCore_self, Core.ctx, tgetD]
    exact congrArg (·.getD Ctx.reset) ((tget_map_keyed (Ctx.looks u core) _ x).trans (congrArg _ hu))
  refine ⟨u, ?_⟩
  split
  · exact ((beside_readClock ..).threads ..).trans ht
  · exact ht

/-- Settles O39: a load at its home, its answer at its thread, its landing, and the turn that reads it, each by its own step. -/
theorem answersLand : Obligations.AnswersLand := by
  unfold Obligations.AnswersLand
  refine ⟨?pool, ?glob, ?behind, fun _ _ _ hm ht hl hp => exec_messageDeliver_reply hm ht hl hp, ?lands,
    fun _ _ hp hd hh => settle_of_one hp hd hh, ?turn⟩
  case pool => exact fun _ _ _ _ _ _ _ _ _ _ hp hop hw hm hs hwps hc hok => serve_load_pool hp hop hw hm hs hwps hc hok
  case glob => exact fun _ _ _ _ _ _ _ _ hp hop hm hg => serve_load_glob hp hop hm hg
  case behind => exact fun _ _ _ _ hq hp hsame hserve => serve_behind hq hp hsame hserve
  case lands =>
    intro core x i s r p c hs hr hp hk done
    refine ⟨fun f hf => ?_, fun hf => ⟨fun hl => ?_, fun hl hx => exec_longResultLand_last hs hr hp hk hf hl hx⟩⟩
    · exact exec_longResultLand hs hr (landIn_fault (c := { c with landing := dropAt c.landing i }) hp hk hf)
    · exact exec_longResultLand hs hr (landIn_more (c := { c with landing := dropAt c.landing i }) hp hf hl)
  case turn =>
    intro s core x c h
    obtain ⟨u, hu⟩ := ctx_turnStart h
    rw [hu]
    exact looks_eq ..

end Sys2Proof.Machine
end

section
/-! Fields of a word as bits of it, and a trap that an instruction takes after it has changed something (O13, R290, R349). -/
namespace Sys2Proof.Machine
open Sys2Proof.Manual (el)

/-! ### Fields (R40) -/

theorem fld_eq_extractLsb' {n : Nat} (w : BitVec n) (hi lo : Nat) : fld w hi lo = (w.extractLsb' lo (hi + 1 - lo)).toNat := by
  rw [fld, BitVec.extractLsb'_toNat, Nat.shiftRight_eq_div_pow]

theorem fld_low {n : Nat} (w : BitVec n) (hi : Nat) : fld w hi 0 = w.toNat % 2 ^ (hi + 1) := by simp [fld]

/-- The high bits of a word are zero where the word is small. -/
theorem fld_high_eq_zero (w : Word) {lo : Nat} (h : lo ≤ 64) : fld w 63 lo = 0 ↔ w.toNat < 2 ^ lo := by
  have hlt : w.toNat / 2 ^ lo < 2 ^ (63 + 1 - lo) := by
    rw [Nat.div_lt_iff_lt_mul (Nat.two_pow_pos lo), ← Nat.pow_add, Nat.sub_add_cancel h]
    exact w.isLt
  rw [fld, Nat.mod_eq_of_lt hlt, Nat.div_eq_zero_iff_lt (Nat.two_pow_pos lo)]

/-- The two forms of the check of R181 agree. -/
theorem eaClean_eq_inMode (am : Mode) (a : Word) : eaClean am a = Manual.inMode am a := by
  have hhigh (lo : Nat) (h : lo ≤ 64) : (fld a 63 lo == 0) = decide (a.toNat < 2 ^ lo) := by
    rw [Bool.eq_iff_iff, beq_iff_eq, decide_eq_true_eq, fld_high_eq_zero a h]
  cases am with
  | g => rfl
  | l | c | x => exact hhigh _ (by decide)

theorem el_eq_extractLsb' (w : Nat) (l : Line) (j : Nat) : el w l j = l.extractLsb' (w * j) w := by
  refine BitVec.eq_of_toNat_eq ?_
  simp [el, elem, BitVec.extractLsb'_toNat, Nat.shiftRight_eq_div_pow]

theorem upTo_eq_range (n : Nat) : upTo n = List.range n := by
  induction n with
  | zero => rfl
  | succ n ih => rw [upTo, ih, List.range_succ]

/-! ### A trap after a change (R349, R350) -/

/-- What is put back of the streams is nothing, where none of them has moved on. -/
theorem repop_of_next_le {l old m : Tab Stream} (h : ∀ v q o, tget l v = some q → tget old v = some o → q.next ≤ o.next) :
    m.foldl (fun t p => Ctx.repop.unpopIn old t p.1) l = l := by
  have hself : ∀ v, Ctx.repop.unpopIn old l v = l := by
    intro v
    unfold Ctx.repop.unpopIn
    split
    next q o hq ho => rw [if_pos (by simp [h v q o hq ho])]
    next => rfl
  induction m with
  | nil => rfl
  | cons p m ih => rw [List.foldl_cons, hself, ih]

/-- A trap stands after the strips are put back, where the registers and the view are still those of the issue. -/
theorem traps_unpop_of_next_le {u t : State} {old : Ctx} {cause : BitVec 8} {addr : Word} {info : Nat} (h : traps u t cause addr info)
    (hm : t.me = u.me) (hr : u.cx.regs = old.regs) (hw : u.cx.view = old.view)
    (hl : ∀ v q o, tget u.cx.streams v = some q → tget old.streams v = some o → q.next ≤ o.next) :
    traps u (t.unpop old) cause addr info := by
  unfold State.unpop
  split
  · exact h
  · obtain ⟨hcx, hctx, hmem, hchan, hhomes, hsched, hcore⟩ := h
    refine ⟨?_, ?_, hmem, hchan, hhomes, hsched, ?_⟩
    · rw [State.cx_onCx, hcx]
      simp [Ctx.repop, repop_of_next_le hl, ← hr, ← hw]
    · intro c x hne
      rw [State.ctx_onCx_ne _ _ (by rw [hm]; exact hne)]
      exact hctx c x hne
    · intro c
      simp only [State.onCx, State.onCtx, State.setCtx, State.core_onCore]
      split
      next hc => subst hc; exact hcore _
      next => exact hcore _

/-- An instruction that passes its checks, changes records of its thread or its core, and traps. -/
theorem issue_traps_changed {i : Instr} {s u : State} {body : State → State} {cause : BitVec 8} {addr : Word} {info : Nat}
    {l : Tab Stream} {r : Tab RFault} (h : Clear i s = true) (hh : s.cx.hnd = false) (hv : s.cx.regs.trapvec ≠ 0)
    (hb : body s = u.trapInfo cause addr info) (hcx : u.cx = { s.cx with streams := l, dropRec := r })
    (hl : ∀ v q o, tget l v = some q → tget s.cx.streams v = some o → q.next ≤ o.next) : traps u (issue i body s) cause addr info := by
  have f := clear_facts h
  obtain ⟨ht, htk, htme⟩ := trapInfo_facts (s := u) (by rw [hcx]; exact f.half) (by rw [hcx]; exact hh) (by rw [hcx]; exact hv) cause addr info
  have hst := f.streams
  rw [noStream_append, Bool.and_eq_true] at hst
  have hu : ((u.trapInfo cause addr info).unpop s.cx).took = (u.trapInfo cause addr info).took := by
    unfold State.unpop; split <;> rfl
  have hi : issue i body s = ((u.trapInfo cause addr info).unpop s.cx).finish := by
    unfold issue
    rw [clear_verdict h]
    simp only [State.perform, State.popAll, hst.1, if_true, hb, htk]
  rw [hi, finish_trap (by rw [hu]; intro he; rw [he] at htk; cases htk)]
  exact traps_unpop_of_next_le ht htme (by rw [hcx]) (by rw [hcx]) (by rw [hcx]; exact hl)

/-- An instruction that passes its checks, changes records of its core, and traps. -/
theorem issue_traps_onMine {i : Instr} {s : State} {g : Core → Core} {body : State → State} {cause : BitVec 8} {addr : Word} {info : Nat}
    (h : Clear i s = true) (hh : s.cx.hnd = false) (hv : s.cx.regs.trapvec ≠ 0) (hb : body s = (s.onMine g).trapInfo cause addr info)
    (hg : (g s.mine).ctxs = s.mine.ctxs) : traps (s.onMine g) (issue i body s) cause addr info :=
  issue_traps_changed (l := s.cx.streams) (r := s.cx.dropRec) h hh hv hb (State.cx_onMine s g hg) fun v q o hq ho => by
    rw [Option.some.inj (hq.symm.trans ho)]

end Sys2Proof.Machine
end

section
/-! Group instructions on a handle that is not settled, and their misuse (O13, R97, R98). -/
namespace Sys2Proof.Machine
open Sys2Proof.Manual (groupHandle groupMisuse)

/-- The table always knows handle 0 (R93). -/
theorem ne_zero_of_hent_none {c : Ctx} {g : BitVec 32} (h : c.hent g = none) : g ≠ 0 := by
  rintro rfl
  unfold Ctx.hent at h
  split at h
  next => simp at h
  next => simp at h

section
variable {h : Hdr} {d a : GReg} {g : BitVec 32} {s : State} {n : Nat} {e : HEnt}

/-- A group instruction on a handle whose JOIN or LEAVE is pending parks (R97). -/
theorem exec_group_of_pending {i : Instr} (hi : groupHandle i = some a) (hc : Clear i s = true) (hin : s.handleIn a = g)
    (he : s.cx.hent g = some e) (hm : e.st ≠ .member) (hg : g ≠ 0) : exec i s = .next (s.park .group (.handle g) .again) := by
  have hpark {body : State → State} (hb : body s = s.park .group (.handle g) .again) :
      issue i body s = s.park .group (.handle g) .again := issue_park hc hb rfl rfl rfl
  have hw (k : HEnt → State) := withHandle_of_pending k he hm
  unfold groupHandle at hi
  split at hi <;> cases hi
  case h_1 => exact congrArg _ (hpark (by simp only [doJoin, hin, he, if_neg hg, if_neg hm]))
  case h_2 => exact congrArg _ (hpark (by simp only [doLeave, hin, if_neg hg, hw]))
  case h_3 => exact congrArg _ (hpark (by simp only [doGbar, hin, hw]))
  case h_4 => exact congrArg _ (hpark (by simp only [doGarrive, hin, hw]))
  case h_5 => exact congrArg _ (hpark (by simp only [doGwait, hin, hw]))
  case h_6 => exact congrArg _ (hpark (by simp only [doPhase, hin, hw]))
  case h_7 => exact congrArg _ (hpark (by simp only [doGinfoSize, State.ginfoFar, hin, if_neg hg, hw]))
  case h_8 => exact congrArg _ (hpark (by simp only [doGinfoRank, State.ginfoFar, hin, if_neg hg, hw]))

theorem doJoin_of_misuse (hin : s.handleIn a = g) (hn : groupMisuse s.cx (.join h d a) g = some n) :
    doJoin d a s = s.trap GROUP_USE (g.setWidth 64) n := by
  simp only [doJoin, hin]
  cases he : s.cx.hent g with
  | none =>
    simp only [groupMisuse, he, Option.ite_none_right_eq_some, Option.some.injEq] at hn
    rw [if_neg (ne_zero_of_hent_none he), if_pos hn.1, hn.2]
  | some e =>
    simp only [groupMisuse, he] at hn
    by_cases hg : g = 0
    · rw [if_pos hg] at hn ⊢
      cases hn; rfl
    · simp only [if_neg hg, Option.ite_none_right_eq_some, Option.some.injEq] at hn ⊢
      rw [if_pos hn.1, hn.2]

theorem doLeave_of_misuse (hin : s.handleIn a = g) (hn : groupMisuse s.cx (.leave h a) g = some n) :
    doLeave a s = s.trap GROUP_USE (g.setWidth 64) n := by
  simp only [doLeave, hin]
  cases he : s.cx.hent g with
  | none =>
    have hg := ne_zero_of_hent_none he
    simp only [groupMisuse, he, if_neg hg, Option.some.injEq] at hn
    rw [if_neg hg, withHandle_of_absent _ he, hn]
  | some e =>
    simp only [groupMisuse, he, Option.ite_none_right_eq_some, Option.some.injEq] at hn
    rw [if_pos hn.1, hn.2]

/-- An instruction that needs a settled handle, on a settled one that it refuses or on none of the thread's (R98). -/
theorem withHandle_of_misuse {k : HEnt → State} (habs : s.cx.hent g = none → n = 1)
    (hk : ∀ e, s.cx.hent g = some e → e.st = .member ∧ k e = s.trap GROUP_USE (g.setWidth 64) n) :
    s.withHandle g k = s.trap GROUP_USE (g.setWidth 64) n := by
  cases he : s.cx.hent g with
  | none => rw [withHandle_of_absent _ he, habs he]
  | some e =>
    obtain ⟨hm, hke⟩ := hk e he
    rw [withHandle_of_member _ he hm, hke]

/-- An arrival at a barrier where the thread has arrived already, or on a handle that is not its own (R98). -/
theorem arrival_of_misuse {k : HEnt → State} (hn : groupMisuse s.cx (.gbar h a) g = some n) :
    (s.withHandle g fun e => if e.arrived then s.trap GROUP_USE (g.setWidth 64) 4 else k e) = s.trap GROUP_USE (g.setWidth 64) n := by
  refine withHandle_of_misuse (fun he => ?_) fun e he => ?_
  · simp only [groupMisuse, he, if_neg (ne_zero_of_hent_none he), Option.some.injEq] at hn
    exact hn.symm
  · simp only [groupMisuse, he, Option.ite_none_right_eq_some, Bool.and_eq_true, decide_eq_true_eq, Option.some.injEq] at hn
    obtain ⟨⟨hm, ha⟩, rfl⟩ := hn
    exact ⟨hm, if_pos ha⟩

theorem doGwait_of_misuse (hin : s.handleIn a = g) (hn : groupMisuse s.cx (.gwait h a) g = some n) :
    doGwait a s = s.trap GROUP_USE (g.setWidth 64) n := by
  simp only [doGwait, hin]
  refine withHandle_of_misuse (fun he => ?_) fun e he => ?_
  · simp only [groupMisuse, he, if_neg (ne_zero_of_hent_none he), Option.some.injEq] at hn
    exact hn.symm
  · simp only [groupMisuse, he, Option.ite_none_right_eq_some, Bool.and_eq_true, decide_eq_true_eq, Option.isNone_iff_eq_none,
      Option.some.injEq] at hn
    obtain ⟨⟨hm, hw⟩, rfl⟩ := hn
    exact ⟨hm, by rw [hw]⟩

/-- The three arrivals refuse the same entries (R98). -/
theorem groupMisuse_garrive (c : Ctx) : groupMisuse c (.garrive h a) g = groupMisuse c (.gbar h a) g := by
  unfold groupMisuse
  cases c.hent g <;> rfl

theorem groupMisuse_phase (c : Ctx) : groupMisuse c (.phase h a) g = groupMisuse c (.gbar h a) g := by
  unfold groupMisuse
  cases c.hent g <;> rfl

theorem groupMisuse_ginfoRank (c : Ctx) : groupMisuse c (.ginfoRank h d a) g = groupMisuse c (.ginfoSize h d a) g := by
  unfold groupMisuse
  cases c.hent g <;> rfl

/-- GINFO refuses only a handle that the thread does not have (R98). -/
theorem ginfo_of_misuse (hn : groupMisuse s.cx (.ginfoSize h d a) g = some n) :
    g ≠ 0 ∧ ∀ r rank, s.ginfoFar r g rank = s.trap GROUP_USE (g.setWidth 64) n := by
  cases he : s.cx.hent g with
  | some e => simp [groupMisuse, he] at hn
  | none =>
    have hg := ne_zero_of_hent_none he
    simp only [groupMisuse, he, if_neg hg, Option.some.injEq] at hn
    exact ⟨hg, fun r rank => by rw [State.ginfoFar, withHandle_of_absent _ he, hn]⟩

/-- A group instruction that its thread's table refuses takes GROUP_USE with the subcode (R98). -/
theorem group_traps_of_misuse {i : Instr} (hi : groupHandle i = some a) (hc : Clear i s = true) (hh : s.cx.hnd = false)
    (hv : s.cx.regs.trapvec ≠ 0) (hin : s.handleIn a = g) (hn : groupMisuse s.cx i g = some n) :
    ∃ u, exec i s = .next u ∧ traps s u GROUP_USE (g.setWidth 64) n := by
  have htrap {body : State → State} (hb : body s = s.trap GROUP_USE (g.setWidth 64) n) :
      traps s (issue i body s) GROUP_USE (g.setWidth 64) n := issue_traps hc hh hv hb
  unfold groupHandle at hi
  split at hi <;> cases hi
  case h_1 => exact ⟨_, rfl, htrap (doJoin_of_misuse hin hn)⟩
  case h_2 => exact ⟨_, rfl, htrap (doLeave_of_misuse hin hn)⟩
  case h_3 => exact ⟨_, rfl, htrap (by simpa only [doGbar, hin] using arrival_of_misuse hn)⟩
  case h_4 => exact ⟨_, rfl, htrap (by simpa only [doGarrive, hin] using arrival_of_misuse (groupMisuse_garrive _ ▸ hn))⟩
  case h_5 => exact ⟨_, rfl, htrap (doGwait_of_misuse hin hn)⟩
  case h_6 => exact ⟨_, rfl, htrap (by simpa only [doPhase, hin] using arrival_of_misuse (groupMisuse_phase _ ▸ hn))⟩
  case h_7 =>
    obtain ⟨hg, hfar⟩ := ginfo_of_misuse hn
    exact ⟨_, rfl, htrap (by simp only [doGinfoSize, hin, if_neg hg, hfar])⟩
  case h_8 =>
    obtain ⟨hg, hfar⟩ := ginfo_of_misuse (groupMisuse_ginfoRank _ ▸ hn)
    exact ⟨_, rfl, htrap (by simp only [doGinfoRank, hin, if_neg hg, hfar])⟩
end
end Sys2Proof.Machine
end

section
/-! The checks of a volume instruction on an entry that the core holds (O13, R246, R247, R249, R260). -/
namespace Sys2Proof.Machine
open Sys2Proof.Manual (volumeForm blockAlign)

section
variable {i : Instr} {s : State} {tid : BitVec 8} {a : GReg} {v : VolCopy}

/-- An entry that the core holds is used as it is, after the check of R246. -/
theorem withVol_of_held (k : Line → State → State)
    (hf : s.mine.vols.find? (fun v => v.launch == s.cx.launch.toNat && v.tid == tid) = some v) :
    s.withVol tid k = if volOk v.entry then k v.entry s else s.trap VOL_ENTRY 0 tid.toNat := by
  simp only [State.withVol, hf]

/-- A volume instruction other than a push checks its entry and its coordinate word. -/
theorem voxel_body (hi : volumeForm i = some (tid, a)) (hb : blockAlign i = none) :
    ∃ body k, exec i s = .next (issue i body s) ∧ body s = s.withVoxel tid a k := by
  unfold volumeForm at hi
  split at hi <;> cases hi
  case h_1 => exact ⟨_, _, rfl, by rw [doCld, State.voxelRead]⟩
  case h_2 => exact ⟨_, _, rfl, by rw [doCst, State.voxelWrite]⟩
  case h_3 => exact ⟨_, _, rfl, by rw [doCvld, State.voxelRead]⟩
  case h_4 => exact ⟨_, _, rfl, by rw [doCvst, State.voxelWrite]⟩
  case h_9 | h_10 => cases hb
  all_goals exact ⟨_, _, rfl, rfl⟩

/-- A push checks its entry and the alignment of its block pointer. -/
theorem push_body {n : Nat} (hi : volumeForm i = some (tid, a)) (hb : blockAlign i = some n) :
    ∃ body what low, exec i s = .next (issue i body s) ∧ body s = s.pushBlock tid a what low ∧ n = 2 ^ (low + 1) := by
  unfold volumeForm at hi
  split at hi <;> cases hi
  case h_9 | h_10 => cases hb; exact ⟨_, _, _, rfl, rfl, rfl⟩
  all_goals cases hb

/-- The checks of a volume instruction on a held entry: the entry, then the coordinate word or the block pointer. -/
theorem volume_traps (hi : volumeForm i = some (tid, a)) (hc : Clear i s = true)
    (hf : s.mine.vols.find? (fun v => v.launch == s.cx.launch.toNat && v.tid == tid) = some v)
    (hh : s.cx.hnd = false) (hv : s.cx.regs.trapvec ≠ 0) :
    (volOk v.entry = false → ∃ t, exec i s = .next t ∧ traps s t VOL_ENTRY 0 tid.toNat) ∧
    (volOk v.entry = true → blockAlign i = none → (s.cx.regs.getG a).getLsbD 63 = true →
      ∃ t, exec i s = .next t ∧ traps s t BAD_ADDR (s.cx.regs.getG a) 0) ∧
    (∀ n, volOk v.entry = true → blockAlign i = some n → ((s.cx.regs.getG a).getLsbD 57 = true ∨ (s.cx.regs.getG a).toNat % n ≠ 0) →
      ∃ t, exec i s = .next t ∧ traps s t BAD_ADDR (s.cx.regs.getG a) 0) := by
  have hrd := rd_of_clear hc
  cases hb : blockAlign i with
  | none =>
    obtain ⟨body, k, he, hbody⟩ := voxel_body (s := s) hi hb
    simp only [State.withVoxel, withVol_of_held _ hf, hrd] at hbody
    refine ⟨fun ho => ⟨_, he, issue_traps hc hh hv ?_⟩, fun ho _ h63 => ⟨_, he, issue_traps hc hh hv ?_⟩, fun n _ hn => by cases hn⟩
    · simp [hbody, ho, State.trap]
    · simp [hbody, ho, h63, State.trap]
  | some m =>
    obtain ⟨body, what, low, he, hbody, rfl⟩ := push_body (s := s) hi hb
    simp only [State.pushBlock, withVol_of_held _ hf, hrd, fld_low] at hbody
    refine ⟨fun ho => ⟨_, he, issue_traps hc hh hv ?_⟩, (fun _ hn => by cases hn), fun n ho hn hbad => ⟨_, he, issue_traps hc hh hv ?_⟩⟩
    · simp [hbody, ho, State.trap]
    · cases hn
      have hbad' : ((s.cx.regs.getG a).getLsbD 57 || (s.cx.regs.getG a).toNat % 2 ^ (low + 1) != 0) = true := by simpa using hbad
      rw [hbody, if_pos ho, if_pos hbad']; rfl
end
end Sys2Proof.Machine
end

section
/-! What the slot instructions, the tile instructions and CARD refuse (O13, R322, R324, R325). -/
namespace Sys2Proof.Machine
open Sys2Proof.Manual (el slotMisuse inMode)

section
variable {i : Instr} {s : State}

theorem doOclaim_of_misuse {d a : GReg} (hc : Clear i s = true)
    (hn : ¬ (1 ≤ (s.cx.regs.getG a).toNat ∧ (s.cx.regs.getG a).toNat ≤ 32)) : doOclaim d a s = s.trap TILE_USE 0 1 := by
  have hbad : (fld (s.cx.regs.getG a) 63 6 != 0 || decide (fld (s.cx.regs.getG a) 5 0 < 1) ||
      decide (fld (s.cx.regs.getG a) 5 0 > 32)) = true := by
    have hhigh := fld_high_eq_zero (s.cx.regs.getG a) (lo := 6) (by decide)
    rw [fld_low]
    simp only [Bool.or_eq_true, bne_iff_ne, ne_eq, hhigh, decide_eq_true_eq]
    omega
  rw [doOclaim, rd_of_clear hc]
  exact if_pos hbad

theorem doOrel_of_misuse {a : GReg} (hc : Clear i s = true)
    (hn : ((List.range 32).any fun i => (s.cx.regs.getG a).getLsbD i && !s.holdsSlot i) = true) : doOrel a s = s.trap TILE_USE 0 2 := by
  rw [doOrel, rd_of_clear hc, upTo_eq_range]
  exact if_pos hn

theorem doOfill_of_misuse {d : OReg} {a : VReg} {b : GReg} (hc : Clear i s = true)
    (hn : 16 < (s.cx.regs.getG b).toNat ∨ s.holdsSlot d.toNat = false) : doOfill d a b s = s.trap TILE_USE 0 3 := by
  rw [doOfill, rd_of_clear hc]
  exact if_pos (by simpa using hn)

/-- A slot instruction that is refused takes TILE_USE with its subcode (R324, R325). -/
theorem slot_traps_of_misuse {n : Nat} (hc : Clear i s = true) (hh : s.cx.hnd = false) (hv : s.cx.regs.trapvec ≠ 0)
    (hn : slotMisuse s i = some n) : ∃ t, exec i s = .next t ∧ traps s t TILE_USE 0 n := by
  unfold slotMisuse at hn
  split at hn
  case h_1 =>
    simp only [Option.ite_none_left_eq_some, Option.some.injEq] at hn
    obtain ⟨hbad, rfl⟩ := hn
    exact ⟨_, rfl, issue_traps hc hh hv (doOclaim_of_misuse hc hbad)⟩
  case h_2 =>
    simp only [Option.ite_none_right_eq_some, Option.some.injEq] at hn
    obtain ⟨hbad, rfl⟩ := hn
    exact ⟨_, rfl, issue_traps hc hh hv (doOrel_of_misuse hc hbad)⟩
  case h_3 =>
    simp only [Option.ite_none_right_eq_some, Option.some.injEq] at hn
    obtain ⟨hbad, rfl⟩ := hn
    exact ⟨_, rfl, issue_traps hc hh hv (doOfill_of_misuse hc hbad)⟩
  case h_4 => cases hn

/-- The specifier of a tile (R43). -/
theorem aSpec_word (d : AReg) : (aSpec d).setWidth 64 = 0x80 + d.setWidth 64 := by
  revert d; decide

theorem withTile_of_busy {d : AReg} (k : State) (hb : s.tileBusy s.me.1 d.toNat = true) :
    s.withTile d k = s.trap ACC_BUSY (0x80 + d.setWidth 64) := by
  rw [State.withTile, if_pos hb, aSpec_word]

theorem doAld_of_busy {am : Mode} {f : TFmt} {d : AReg} {a : GReg} (hc : Clear i s = true) (hm : inMode am (s.cx.regs.getG a) = true)
    (hal : (s.cx.regs.getG a).toNat % 64 = 0) (hb : s.tileBusy s.me.1 d.toNat = true) :
    doAld am f d a s = s.trap ACC_BUSY (0x80 + d.setWidth 64) := by
  rw [doAld, rd_of_clear hc]
  simp only [State.withUnits, eaClean_eq_inMode, hm, hal, List.find?_cons, List.find?_nil, Bool.not_true, bne_self_eq_false,
    withTile_of_busy _ hb]

/-! ### Cards (R298, R299, R322) -/

theorem lvlNo_eq (l : Lvl) : lvlNo l = match l with | .L1 => 1 | .L2 => 2 | .L3 => 3 | .L4 => 4 | .L5 => 5 := by cases l <;> rfl

theorem doCard_of_bad {lvl : Lvl} {a : VReg} {n : Nat} (hc : Clear i s = true)
    (hn : badCard (s.cx.regs.getV a) (lvlNo lvl) s.holdsSlot (partAcc s.cx.part) = some n) : doCard lvl a s = s.trap BAD_CARD 0 n := by
  rw [doCard, rd_of_clear hc]
  simp only [hn]
end

section
variable (card : Line)

/-- A byte of a 32-bit word of a card is a byte of the card. -/
theorem byte_word32 (n : Nat) {j : Nat} (hj : j < 4) : (word32 card n).toNat / 256 ^ j % 256 = (el 8 card (4 * n + j)).toNat := by
  have hpow : (256 : Nat) ^ j = 2 ^ (8 * j) := by rw [Nat.pow_mul]
  rw [hpow, show (256 : Nat) = 2 ^ 8 from rfl, ← Nat.shiftRight_eq_div_pow, ← BitVec.extractLsb'_toNat, el_eq_extractLsb', word32]
  refine congrArg BitVec.toNat (BitVec.eq_of_getLsbD_eq fun k hk => ?_)
  have hlt : 8 * j + k < 32 := by omega
  have hidx : 32 * n + (8 * j + k) = 8 * (4 * n + j) + k := by omega
  simp only [BitVec.getLsbD_extractLsb', hk, hlt, hidx, decide_true, Bool.true_and]

theorem cardOp_eq : cardOp card = (el 8 card 0).toNat := by
  simpa [cardOp, cardW] using byte_word32 card 0 (j := 0) (by decide)

theorem cardLevel_eq : cardLevel card = (card.extractLsb' 8 3).toNat := by
  rw [cardLevel, fld_eq_extractLsb', word32]
  exact congrArg BitVec.toNat (BitVec.extractLsb'_extractLsb'_of_le (by decide))

theorem cardMbox_eq : cardMbox card = el 64 card 6 := (el_eq_extractLsb' 64 card 6).symm
theorem cardSL_eq : cardSL card = card.getLsbD 15 := by simp [cardSL, word32]
theorem cardAR_eq : cardAR card = card.getLsbD 14 := by simp [cardAR, word32]
theorem word32_eq_el (j : Nat) : word32 card j = el 32 card j := (el_eq_extractLsb' 32 card j).symm

/-- An operand's byte of a card. -/
theorem cardTid_eq {j : Nat} (hj : j < 4) : cardTid card j = (el 8 card (4 + j)).toNat := byte_word32 card 1 hj

variable {card} {lvl acc : Nat} {held : Nat → Bool}

/-- The first check of a card: its opcode (R322). -/
theorem badCard_eq_one : badCard card lvl held acc = some 1 ↔ ¬ (1 ≤ (el 8 card 0).toNat ∧ (el 8 card 0).toNat ≤ 0x0E) := by
  rw [← cardOp_eq]
  by_cases hop : (decide (cardOp card < 1) || decide (cardOp card > 0x0E)) = true
  · rw [badCard, if_pos hop]
    simp only [Bool.or_eq_true, decide_eq_true_eq] at hop
    simp only [true_iff]
    omega
  · rw [badCard, if_neg hop]
    simp only [Bool.or_eq_true, decide_eq_true_eq] at hop
    refine iff_of_false ?_ (by omega)
    split_ifs <;> simp

/-- The second: its level (R322). -/
theorem badCard_eq_two : badCard card lvl held acc = some 2 ↔
    (1 ≤ (el 8 card 0).toNat ∧ (el 8 card 0).toNat ≤ 0x0E) ∧ (card.extractLsb' 8 3).toNat ≠ lvl := by
  rw [← cardOp_eq, ← cardLevel_eq]
  by_cases hop : (decide (cardOp card < 1) || decide (cardOp card > 0x0E)) = true
  · rw [badCard, if_pos hop]
    simp only [Bool.or_eq_true, decide_eq_true_eq] at hop
    exact iff_of_false (by simp) (by omega)
  · rw [badCard, if_neg hop]
    simp only [Bool.or_eq_true, decide_eq_true_eq] at hop
    by_cases hl : cardLevel card ≠ lvl
    · rw [if_pos hl]
      exact iff_of_true rfl ⟨by omega, hl⟩
    · rw [if_neg hl]
      refine iff_of_false ?_ fun h => hl h.2
      split_ifs <;> simp

/-- What a card that passes all the checks keeps (R322). -/
theorem card_sound_of_badCard_eq_none (h : badCard card lvl held acc = none) :
    (1 ≤ (el 8 card 0).toNat ∧ (el 8 card 0).toNat ≤ 0x0E) ∧ (card.extractLsb' 8 3).toNat = lvl ∧
    el 32 card 14 = 0 ∧ el 32 card 15 = 0 ∧
    ((el 8 card 0).toNat ≠ 0x0E → el 64 card 6 ≠ 0 ∧ (el 64 card 6).getLsbD 57 = false ∧ (el 64 card 6).toNat % 16 = 0) ∧
    ((card.getLsbD 15 ∨ card.getLsbD 14) → lvl = 1) ∧ ((0x0B ≤ (el 8 card 0).toNat ∧ (el 8 card 0).toNat ≤ 0x0D) → lvl = 5) ∧
    (card.getLsbD 15 → held (el 8 card 4).toNat ∧ held (el 8 card 5).toNat) ∧ (card.getLsbD 14 → (el 8 card 7).toNat < acc) := by
  rw [← cardOp_eq, ← cardLevel_eq, ← cardSL_eq, ← cardAR_eq, ← cardMbox_eq, ← word32_eq_el, ← word32_eq_el,
    ← cardTid_eq card (j := 0) (by decide), ← cardTid_eq card (j := 1) (by decide), ← cardTid_eq card (j := 3) (by decide)]
  unfold badCard at h
  simp only [ite_eq_iff, reduceCtorEq, and_false, false_or, and_true] at h
  obtain ⟨hop, hlvl, hzero, hmbox, -, hlevels, hslots⟩ := h
  simp only [Bool.or_eq_true, not_or, decide_eq_true_eq, bne_iff_ne, ne_eq, not_not] at hop hlvl hzero
  simp only [Bool.or_eq_true, Bool.and_eq_true, Bool.not_eq_true', beq_eq_false_iff_ne, beq_iff_eq, bne_iff_ne, ne_eq, fld_low,
    decide_eq_true_eq, Bool.and_eq_false_iff, not_or, not_and, not_not] at hmbox hlevels hslots
  obtain ⟨⟨⟨⟨⟨hw14, hw15⟩, -⟩, -⟩, -⟩, -⟩ := hzero
  obtain ⟨⟨⟨⟨hslar, hl5⟩, -⟩, -⟩, -⟩ := hlevels
  obtain ⟨hheld, htile⟩ := hslots
  refine ⟨by omega, hlvl, hw14, hw15, fun hf => ?_, hslar, hl5, fun hsl => ?_, fun har => Nat.lt_of_not_le (htile har)⟩
  · obtain ⟨⟨hal, h57⟩, hne⟩ := hmbox hf
    exact ⟨hne, Bool.eq_false_of_not_eq_true h57, hal⟩
  · obtain ⟨hA, hB⟩ := hheld hsl
    exact ⟨Bool.eq_true_of_not_eq_false hA, Bool.eq_true_of_not_eq_false hB⟩
end
end Sys2Proof.Machine
end

section
/-! What the copy unit's instructions refuse at issue (O13, R268, R274, R275, R280, R281, R284). -/
namespace Sys2Proof.Machine
open Sys2Proof.Manual (transferMisuse placeSound dealSound bufferOf bufferSound streamOf gatherSound inMode)

section
variable {i : Instr} {s : State} {n : Nat}

/-! ### CPY (R268) -/

theorem ckBits_dst_eq_false {k : CKind} {a : Word} :
    ckBits true k a = false ↔ (k = .cb ∧ 8 ≤ a.toNat) ∨ (k = .o ∧ 2 ^ 16 ≤ a.toNat) := by
  have hhigh (lo : Nat) (h : lo ≤ 64) : (fld a 63 lo == 0) = false ↔ 2 ^ lo ≤ a.toNat := by
    rw [beq_eq_false_iff_ne, ne_eq, fld_high_eq_zero a h, Nat.not_lt]
  cases k with
  | l | c | x | g => simp [ckBits]
  | o => simpa [ckBits] using hhigh 16 (by decide)
  | cb => simpa [ckBits] using hhigh 3 (by decide)

theorem ckBits_src_eq_false {k : CKind} {a : Word} : ckBits false k a = false ↔ k = .cb ∨ (k = .o ∧ 2 ^ 16 ≤ a.toNat) := by
  have hhigh : (fld a 63 16 == 0) = false ↔ 2 ^ 16 ≤ a.toNat := by
    rw [beq_eq_false_iff_ne, ne_eq, fld_high_eq_zero a (by decide), Nat.not_lt]
  cases k with
  | l | c | x | g => simp [ckBits]
  | o => simpa [ckBits] using hhigh
  | cb => simp [ckBits]

/-- A buffer as a destination has no address to check. -/
theorem placeBad_cb (a : Word) (stage : Nat) : s.placeBad .cb a n stage = none := rfl

/-- A place that is sound passes the checks of its address. -/
theorem placeBad_of_sound {dst : Bool} {k : CKind} {a : Word} (h : placeSound s dst k a n = true) :
    s.placeBad k a n 4 = none ∧ s.placeBad k a n 5 = none ∧ s.placeBad k a n 6 = none := by
  have hmode {m : Mode} (hm : inMode m a = true) : eaClean m a = true := by rw [eaClean_eq_inMode, hm]
  cases k <;> simp only [placeSound, Bool.and_eq_true, beq_iff_eq] at h
  case l =>
    obtain ⟨⟨hm, hal⟩, hr⟩ := h
    simp [State.placeBad, ckMode, hmode (m := .l) hm, hal, hr]
  case c =>
    obtain ⟨hm, hal⟩ := h
    simp [State.placeBad, ckMode, hmode (m := .c) hm, hal]
  case x =>
    obtain ⟨hm, hal⟩ := h
    simp [State.placeBad, ckMode, hmode (m := .x) hm, hal]
  case g =>
    obtain ⟨hm, hal⟩ := h
    simp [State.placeBad, ckMode, hmode (m := .g) hm, hal]
  case o =>
    obtain ⟨⟨hm, hal⟩, -⟩ := h
    simp [State.placeBad, ckMode, hal]
  case cb => exact ⟨rfl, rfl, rfl⟩

theorem doCpy_of_misuse {h : Hdr} {dk sk : CKind} {d : HReg} {a b c : GReg} (hc : Clear i s = true)
    (hn : transferMisuse s (.cpy h dk sk d a b c) = some n) : doCpy dk sk d a b c s = s.trap XFER_USE 0 n := by
  rw [doCpy, rd_of_clear hc]
  simp only [transferMisuse, fld_low] at hn ⊢
  generalize s.cx.regs.getG a = da at *
  generalize s.cx.regs.getG b = sa at *
  generalize (s.cx.regs.getG c).toNat = len at *
  split at hn
  next hbad =>
    cases hn
    exact if_pos (by simpa [or_assoc] using hbad)
  next hlen =>
    rw [if_neg (by simpa [and_assoc] using hlen)]
    split at hn
    next hbad =>
      cases hn
      refine if_pos ?_
      simp only [Bool.or_eq_true, Bool.not_eq_true', ckBits_dst_eq_false, ckBits_src_eq_false]
      tauto
    next hbits =>
      rw [if_neg (by simp only [Bool.or_eq_true, Bool.not_eq_true', ckBits_dst_eq_false, ckBits_src_eq_false]; tauto)]
      split at hn
      next hbad =>
        cases hn
        exact if_pos (by simpa using hbad)
      next hfit =>
        rw [if_neg (by simpa using hfit)]
        simp only [Option.ite_none_right_eq_some, Option.some.injEq] at hn
        obtain ⟨⟨rfl, hsrc, hrole⟩, rfl⟩ := hn
        obtain ⟨h4, h5, h6⟩ := placeBad_of_sound hsrc
        simp only [placeBad_cb, h4, h5, h6, firstBad]
        have hda : da.toNat < 8 := Nat.lt_of_not_le fun h8 => hbits (.inr (.inl ⟨rfl, h8⟩))
        have hmod : da.toNat % 2 ^ (2 + 1) = da.toNat := Nat.mod_eq_of_lt hda
        rw [hmod]
        exact if_pos (by simpa using hrole)

/-! ### DEAL (R274) -/

/-- Targets that are all distinct, as the model tells it and as R274 does. -/
theorem distinct_of_nodup_dealTargets {die : Bool} {pat : Word} (hd : (dealTargets die pat).Nodup) :
    ((List.range (fld pat 63 48)).all fun i => (List.range (fld pat 63 48)).all fun j => i == j ||
      (fld pat 31 16 + i * fld pat 47 32) % dealSize die != (fld pat 31 16 + j * fld pat 47 32) % dealSize die) = true := by
  rw [dealTargets, upTo_eq_range] at hd
  have hinj := List.inj_on_of_nodup_map hd
  simp only [List.all_eq_true, Bool.or_eq_true, beq_iff_eq, bne_iff_ne]
  intro i hi j hj
  exact or_iff_not_imp_right.mpr fun he => hinj hi hj (not_not.mp he)

theorem fld_63_48 (w : Word) : fld w 63 48 = w.toNat / 2 ^ 48 := Nat.mod_eq_of_lt (by omega)

theorem dealSound_of_checks {die : Bool} {src pat : Word} {total : Nat} (h57 : ¬ src.getLsbD 57 = true) (hal : src.toNat % 64 = 0)
    (hblk : 64 ≤ pat.toNat % 2 ^ 16 ∧ pat.toNat % 2 ^ 16 ≤ 32768 ∧ pat.toNat % 2 ^ 16 % 64 = 0) (htot : total ≠ 0)
    (hdvd : total % (pat.toNat % 2 ^ 16) = 0) (hmin : 1 ≤ fld pat 63 48) (hmax : fld pat 63 48 ≤ dealSize die)
    (hfirst : fld pat 31 16 < dealSize die) (hnodup : (dealTargets die pat).Nodup) : dealSound die src pat total = true := by
  have hdist := distinct_of_nodup_dealTargets hnodup
  obtain ⟨hb1, hb2, hb3⟩ := hblk
  rw [fld_63_48] at hmin hmax hdist
  simp only [dealSound, Bool.and_eq_true, decide_eq_true_eq, Bool.not_eq_true', beq_iff_eq, bne_iff_ne]
  exact ⟨⟨⟨⟨⟨⟨⟨⟨⟨⟨Bool.eq_false_of_not_eq_true h57, hal⟩, hb1⟩, hb2⟩, hb3⟩, htot⟩, hdvd⟩, hmin⟩, hmax⟩, hfirst⟩,
    hdist⟩

theorem doDeal_of_misuse {h : Hdr} {die : Bool} {d : KReg} {a b c : GReg} {total : BitVec 32} (hc : Clear i s = true)
    (hn : transferMisuse s (.deal h die d a b c total) = some n) : doDeal die d a b c total s = s.trap XFER_USE 0 n := by
  rw [doDeal, rd_of_clear hc]
  simp only [transferMisuse] at hn ⊢
  generalize s.cx.regs.getG a = src at *
  generalize s.cx.regs.getG b = pat at *
  have hblk : fld pat 15 0 = pat.toNat % 2 ^ 16 := fld_low pat 15
  split at hn
  next => cases hn
  next hsrc =>
    obtain ⟨h57, hal⟩ : ¬ src.getLsbD 57 = true ∧ src.toNat % 64 = 0 := by simpa using hsrc
    rw [if_neg h57, if_neg (by simp [hal]), hblk]
    split at hn
    next hbad =>
      cases hn
      exact if_pos (by simpa [or_assoc] using hbad)
    next hlen =>
      rw [if_neg (by simpa [and_assoc] using hlen)]
      split at hn
      next => cases hn
      next hsound =>
        cases hn
        refine if_pos ?_
        simp only [Bool.or_eq_true, decide_eq_true_eq, Bool.not_eq_true', decide_eq_false_iff_not]
        by_contra hg
        simp only [not_or, not_not] at hg hlen
        obtain ⟨⟨⟨hmin, hmax⟩, hfirst⟩, hnodup⟩ := hg
        obtain ⟨hb1, hb2, hb3, htot, hdvd⟩ := hlen
        exact hsound (dealSound_of_checks h57 hal ⟨Nat.le_of_not_lt hb1, Nat.le_of_not_lt hb2, hb3⟩
          (fun h0 => htot (BitVec.eq_of_toNat_eq h0)) hdvd (Nat.le_of_not_lt hmin) (Nat.le_of_not_lt hmax) (Nat.lt_of_not_le hfirst) hnodup)

/-! ### Streams (R275) -/

theorem newStream_eq_streamOf (wr : Bool) (n2 n1 n0 : BitVec 10) (tid : BitVec 8) (start pitch : Word) :
    newStream wr n2 n1 n0 tid start pitch = streamOf wr n2 n1 n0 tid start pitch := by
  rw [newStream, streamOf, BitVec.setWidth_eq_extractLsb' (by decide)]

theorem doSarm_of_misuse {h : Hdr} {wr : Bool} {n2 n1 n0 : BitVec 10} {tid : BitVec 8} {d : VReg} {b c : GReg} (hc : Clear i s = true)
    (hn : transferMisuse s (.sarm h wr n2 n1 n0 tid d b c) = some n) : doSarm wr n2 n1 n0 tid d b c s = s.trap XFER_USE 0 n := by
  rw [doSarm, rd_of_clear hc]
  simp only [transferMisuse, newStream_eq_streamOf] at hn ⊢
  generalize hst : streamOf wr n2 n1 n0 tid (s.cx.regs.getG b) (s.cx.regs.getG c) = st at *
  have hstart : st.start = s.cx.regs.getG b := by rw [← hst]; rfl
  split at hn
  next => cases hn
  next hal =>
    simp only [not_or, not_not, hstart] at hal
    obtain ⟨h0, h1, h2⟩ := hal
    rw [if_neg (by simp [h0]), if_neg (by simp [h1, h2])]
    simp only [Option.ite_none_right_eq_some, Option.some.injEq] at hn
    obtain ⟨hbad, rfl⟩ := hn
    exact if_pos (by simpa [or_assoc, partStrm] using hbad)

/-! ### Circular buffers (R280, R281) -/

theorem cbufOf_eq_bufferOf (x y : Word) : cbufOf x y = bufferOf x y := by
  simp only [cbufOf, bufferOf, fld_eq_extractLsb', Nat.reduceAdd, Nat.reduceSub]

theorem role_bufferOf_lt (x y : Word) : (bufferOf x y).role < 4 := (y.extractLsb' 18 2).isLt

theorem doCbset_of_misuse {h : Hdr} {d : CbReg} {a b : GReg} (hc : Clear i s = true)
    (hn : transferMisuse s (.cbset h d a b) = some n) : doCbset d a b s = s.trap XFER_USE 0 n := by
  rw [doCbset, rd_of_clear hc]
  simp only [transferMisuse, cbufOf_eq_bufferOf, Option.ite_none_left_eq_some, Option.some.injEq, not_or, not_not] at hn ⊢
  obtain ⟨⟨hal, hbad⟩, rfl⟩ := hn
  rw [if_neg (by simp [hal])]
  refine if_pos ?_
  by_contra hg
  refine hbad ?_
  simp only [Bool.or_eq_true, Bool.and_eq_true, Bool.not_eq_true', bne_iff_ne, beq_iff_eq, decide_eq_true_eq, ne_eq,
    not_or, not_and, not_not, Bool.not_eq_false, Bool.not_eq_true, fld_high_eq_zero _ (show 29 ≤ 64 by decide),
    fld_high_eq_zero _ (show 36 ≤ 64 by decide)] at hg
  simp only [bufferSound, Bool.or_eq_true, Bool.and_eq_true, Bool.not_eq_true', bne_iff_ne, beq_iff_eq, decide_eq_true_eq, ne_eq]
  obtain ⟨⟨⟨⟨⟨hx, hy⟩, hcore⟩, hpart⟩, hreach⟩, hcopy⟩ := hg
  have hrole := role_bufferOf_lt (s.cx.regs.getG a) (s.cx.regs.getG b)
  refine ⟨⟨⟨⟨⟨⟨hx, hy⟩, hal⟩, hcore⟩, ?_⟩, ?_⟩, hcopy⟩
  · exact or_iff_not_imp_left.mpr fun h2 => hpart (Nat.le_of_not_lt h2)
  · exact or_iff_not_imp_left.mpr fun h3 => hreach (by omega)

/-- A buffer instruction that the buffer's role does not allow (R281). -/
theorem withCb_of_role {cb : CbReg} {roles : List Nat} {k : CBuf → State} (h : (s.mine.cb cb.toNat).role ∉ roles) :
    s.withCb cb roles k = s.trap XFER_USE 0 6 := by
  rw [State.withCb]
  exact if_pos (by simpa using h)

/-- A buffer instruction that its role allows, on a buffer whose partner is there. -/
theorem withCb_of_sound {cb : CbReg} {roles : List Nat} {k : CBuf → State} (h : (s.mine.cb cb.toNat).role ∈ roles)
    (hl : (s.mine.cb cb.toNat).lost = false) : s.withCb cb roles k = k (s.mine.cb cb.toNat) := by
  rw [State.withCb]
  simp only [List.contains_eq_mem, h, hl, decide_true, Bool.not_true, Bool.false_eq_true, if_false]

/-- CBCMT and CBREL: a role that does not allow them, or no stage to give back. -/
theorem withCb_of_misuse {cb : CbReg} {roles : List Nat} {k : CBuf → State}
    (h : (s.mine.cb cb.toNat).role ∉ roles ∨ ((s.mine.cb cb.toNat).lost = false ∧ k (s.mine.cb cb.toNat) = s.trap XFER_USE 0 6)) :
    s.withCb cb roles k = s.trap XFER_USE 0 6 := by
  by_cases hr : (s.mine.cb cb.toNat).role ∈ roles
  · obtain hnot | ⟨hl, hk⟩ := h
    · exact absurd hr hnot
    · rw [withCb_of_sound hr hl, hk]
  · exact withCb_of_role hr

theorem mem_readRoles {r : Nat} : r ∈ [0, 1, 2] ↔ r ≤ 2 := by
  simp only [List.mem_cons, List.not_mem_nil, or_false]; omega

/-! ### GET and PUT (R284) -/

theorem gather_of_misuse {put i64 : Bool} {pm lm : Mode} {cmb : BitVec 2} {tid : BitVec 8} {d : KReg} {a b c : GReg} (hc : Clear i s = true)
    (hs : gatherSound i64 pm lm (s.cx.regs.getG a) (s.cx.regs.getG b) 0 = true) (hn : 65536 < (s.cx.regs.getG c).toNat) :
    s.gather put i64 pm lm cmb tid d a b c = s.trap XFER_USE 0 1 := by
  simp only [gatherSound, Bool.and_eq_true, beq_iff_eq] at hs
  obtain ⟨⟨⟨⟨hlm, hpm⟩, hla⟩, hra⟩, -⟩ := hs
  rw [State.gather, rd_of_clear hc]
  simp only [eaClean_eq_inMode, hlm, hpm, hla, hra, bne_self_eq_false, Bool.not_true, Bool.false_eq_true, if_false, gt_iff_lt, hn, if_true]

/-- An instruction of the copy unit that is refused at issue takes XFER_USE with its subcode. -/
theorem transfer_traps_of_misuse (hc : Clear i s = true) (hh : s.cx.hnd = false) (hv : s.cx.regs.trapvec ≠ 0)
    (hn : transferMisuse s i = some n) : ∃ t, exec i s = .next t ∧ traps s t XFER_USE 0 n := by
  have htrap {body : State → State} (hb : body s = s.trap XFER_USE 0 n) : traps s (issue i body s) XFER_USE 0 n := issue_traps hc hh hv hb
  unfold transferMisuse at hn
  split at hn
  case h_1 h dk sk d a b c => exact ⟨_, rfl, htrap (doCpy_of_misuse (h := h) hc hn)⟩
  case h_2 h die d a b c total => exact ⟨_, rfl, htrap (doDeal_of_misuse (h := h) hc hn)⟩
  case h_3 h wr n2 n1 n0 tid d b c => exact ⟨_, rfl, htrap (doSarm_of_misuse (h := h) hc hn)⟩
  case h_4 h d a b => exact ⟨_, rfl, htrap (doCbset_of_misuse (h := h) hc hn)⟩
  case h_5 =>
    simp only [Option.ite_none_left_eq_some, Option.some.injEq] at hn
    obtain ⟨hr, rfl⟩ := hn
    exact ⟨_, rfl, htrap (by rw [doCbrsv, State.cbrsvGo, withCb_of_role hr])⟩
  case h_6 =>
    simp only [Option.ite_none_right_eq_some, Option.some.injEq] at hn
    obtain ⟨hbad, rfl⟩ := hn
    exact ⟨_, rfl, htrap (withCb_of_misuse (hbad.imp_right fun h => ⟨h.1, if_pos h.2⟩))⟩
  case h_7 =>
    simp only [Option.ite_none_left_eq_some, Option.some.injEq] at hn
    obtain ⟨hr, rfl⟩ := hn
    exact ⟨_, rfl, htrap (by rw [doCbacq, State.cbacqGo, withCb_of_role (mem_readRoles.not.mpr hr)])⟩
  case h_8 =>
    simp only [Option.ite_none_right_eq_some, Option.some.injEq] at hn
    obtain ⟨hbad, rfl⟩ := hn
    exact ⟨_, rfl, htrap (withCb_of_misuse
      (hbad.imp (fun hr => mem_readRoles.not.mpr (Nat.not_le.mpr hr)) fun h => ⟨h.1, if_pos h.2⟩))⟩
  case h_9 | h_10 =>
    simp only [Option.ite_none_right_eq_some, Option.some.injEq] at hn
    obtain ⟨⟨hs, hbig⟩, rfl⟩ := hn
    exact ⟨_, rfl, htrap (gather_of_misuse hc hs hbig)⟩
  case h_11 => cases hn

end
end Sys2Proof.Machine
end

section
/-! The fault records that CPYW, SDROP and GPWAIT report and clear (O13, R272, R278, R289, R290), and the misuse traps of all units. -/
namespace Sys2Proof.Machine
open Sys2Proof.Manual (satisfied groupHandle groupMisuse volumeForm blockAlign transferMisuse slotMisuse inMode el)

section
variable {s : State} {f : RFault} {h : Hdr}

/-! ### Specifiers (R43) -/

theorem hSpec_toNat (a : HReg) : (hSpec a).toNat = 0xB0 + a.toNat := by revert a; decide
theorem vSpec_toNat (a : VReg) : (vSpec a).toNat = 0x40 + a.toNat := by revert a; decide
theorem kSpec_toNat (a : KReg) : (kSpec a).toNat = 0xC8 + a.toNat := by revert a; decide

/-! ### The reports -/

theorem handleFault_eq (a : HReg) : s.handleFault a f =
    (s.setHandle a { s.mine.handle a with fault := none }).trapInfo XFER_FAULT f.addr ((0xB0 + a.toNat) + f.kind.toNat * 256) := by
  rw [← hSpec_toNat]
  rfl

theorem cpyw_reports {a : HReg} {b : GReg} (hc : Clear (.cpyw h a b) s = true) (hh : s.cx.hnd = false) (hv : s.cx.regs.trapvec ≠ 0)
    (hf : (s.mine.handle a).fault = some f)
    (hr : (s.mine.handle a).busy = false ∨ (s.mine.handle a).bits &&& s.cx.regs.getG b = s.cx.regs.getG b) :
    ∃ t, exec (.cpyw h a b) s = .next t ∧ traps (s.setHandle a { s.mine.handle a with fault := none }) t XFER_FAULT f.addr
      ((0xB0 + a.toNat) + f.kind.toNat * 256) := by
  refine ⟨_, rfl, issue_traps_onMine hc hh hv ?_ rfl⟩
  have hlook : ((s.mine.handle a).bits &&& s.cx.regs.getG b == s.cx.regs.getG b || !(s.mine.handle a).busy) = true := by
    simpa [or_comm] using hr
  rw [doCpyw, rd_of_clear hc, State.cpywGo]
  simp only [hf]
  rw [if_pos hlook, handleFault_eq]
  rfl

theorem gpwait_reports {sub : Bool} {d : GReg} {a : KReg} {b : GReg} (hc : Clear (.gpwait h sub d a b) s = true) (hh : s.cx.hnd = false)
    (hv : s.cx.regs.trapvec ≠ 0) (hf : (s.mine.counter a).fault = some f)
    (hr : satisfied (s.mine.counter a).n ((s.cx.regs.getG b).setWidth 32) = true) :
    ∃ t, exec (.gpwait h sub d a b) s = .next t ∧ traps (s.setCounter a { s.mine.counter a with fault := none }) t XFER_FAULT f.addr
      ((0xC8 + a.toNat) + f.kind.toNat * 256) := by
  refine ⟨_, rfl, issue_traps_onMine hc hh hv ?_ rfl⟩
  have hreach : (!reached (s.mine.counter a).n ((s.cx.regs.getG b).setWidth 32)) = false := by
    rw [Bool.not_eq_false']
    exact hr
  rw [doGpwait, rd_of_clear hc, State.gpwaitGo]
  simp only [hreach, hf, Bool.false_eq_true, if_false]
  rw [State.xferFault, kSpec_toNat]
  rfl

/-- A record that an earlier SDROP's drain has left (R290). -/
theorem sdrop_reports_record {a : VReg} (hc : Clear (.sdrop h a) s = true) (hh : s.cx.hnd = false) (hv : s.cx.regs.trapvec ≠ 0)
    (hf : tget s.cx.dropRec a.toNat = some f) :
    ∃ t, exec (.sdrop h a) s = .next t ∧ traps (s.onCx fun c => { c with dropRec := tdel c.dropRec a.toNat }) t XFER_FAULT f.addr
      ((0x40 + a.toNat) + f.kind.toNat * 256) := by
  refine ⟨_, rfl, issue_traps_changed hc hh hv ?_ (State.cx_onCx ..) fun v q o hq ho => by rw [Option.some.inj (hq.symm.trans ho)]⟩
  rw [doSdrop]
  simp only [hf]
  rw [State.xferFault, vSpec_toNat]

/-- A strip of the write stream that the copy unit has refused (R290). -/
theorem sdrop_reports_strip {a : VReg} {st : Stream} (hc : Clear (.sdrop h a) s = true) (hh : s.cx.hnd = false)
    (hv : s.cx.regs.trapvec ≠ 0) (hd : tget s.cx.dropRec a.toNat = none) (hs : tget s.cx.streams a.toNat = some st) (hw : st.wr = true)
    (hn : st.n0 * st.n1 * st.n2 ≠ 0) (hf : st.fault = some f) :
    ∃ t, exec (.sdrop h a) s = .next t ∧
      traps (s.onCx fun c => { c with streams := tset c.streams a.toNat { st with fault := none } }) t XFER_FAULT f.addr
        ((0x40 + a.toNat) + f.kind.toNat * 256) := by
  refine ⟨_, rfl, issue_traps_changed hc hh hv ?_ (State.cx_onCx ..) fun v q o hq ho => ?_⟩
  · have htot : (st.wr && st.total != 0) = true := by simp only [hw, Bool.true_and, bne_iff_ne]; exact hn
    rw [doSdrop]
    simp only [hd, hs, hf, htot]
    rw [State.xferFault, vSpec_toNat]
  · rw [tget_tset] at hq
    split at hq
    next hva =>
      rw [hva, hs] at ho
      cases hq
      cases ho
      exact Nat.le_refl _
    next => rw [Option.some.inj (hq.symm.trans ho)]
end

/-- Settles O13: each instruction's body refuses where the rules do, and a body that traps before or after it has changed a record leaves
the trap of that state. -/
theorem unitMisuse : Obligations.UnitMisuse := by
  unfold Obligations.UnitMisuse
  refine ⟨?groups, fun i s tid a v hi hc hf hh hv => volume_traps hi hc hf hh hv, ⟨fun i s n hn hc hh hv => transfer_traps_of_misuse hc hh hv hn,
    fun _ _ _ _ _ hc hh hv hf hr => cpyw_reports hc hh hv hf hr, ?sdrop, fun _ _ _ _ _ _ _ hc hh hv hf hr => gpwait_reports hc hh hv hf hr⟩,
    ?tiles, ⟨?card, ?checks⟩⟩
  case groups =>
    intro i s a hi hc g
    have hin : s.handleIn a = g := handleIn_of_clear hc a
    exact ⟨fun e he hm hg => exec_group_of_pending hi hc hin he hm hg, fun hh hv n hn => group_traps_of_misuse hi hc hh hv hin hn⟩
  case sdrop =>
    intro h a s f hc hh hv
    exact ⟨fun hf => sdrop_reports_record hc hh hv hf, fun st hd hs hw hn hf => sdrop_reports_strip hc hh hv hd hs hw hn hf⟩
  case tiles =>
    intro i s hc hh hv
    refine ⟨fun n hn => slot_traps_of_misuse hc hh hv hn, ?_, ?_⟩
    · rintro h d rfl hb
      exact ⟨_, rfl, issue_traps hc hh hv (withTile_of_busy _ hb)⟩
    · rintro h am f d a rfl hm hal hb
      exact ⟨_, rfl, issue_traps hc hh hv (doAld_of_busy hc hm hal hb)⟩
  case card =>
    intro h lvl a s n hc hh hv hn
    exact ⟨_, rfl, issue_traps hc hh hv (doCard_of_bad hc (by rw [lvlNo_eq]; exact hn))⟩
  case checks =>
    intro card lvl held acc op level mbox ar sl
    exact ⟨badCard_eq_one, badCard_eq_two, card_sound_of_badCard_eq_none⟩

end Sys2Proof.Machine
end

section
/-! Short results of the integer and address classes, and the divider (O1, R116, R120 to R126, R129 to R131, R172, R371). -/
namespace Sys2Proof.Machine
open Sys2Proof.Manual

/-! ### Words of several fields -/

theorem getLsbD_lowMask {k : Nat} (hk : k ≤ 64) (i : Nat) : (BitVec.ofNat 64 (2 ^ k - 1)).getLsbD i = decide (i < k) := by
  rw [BitVec.getLsbD_ofNat, Nat.testBit_two_pow_sub_one, ← Bool.decide_and]
  exact decide_eq_decide.mpr (by omega)

/-- The mask of an address without its band (R40, R180). -/
theorem getLsbD_vaMask (i : Nat) : (0x01FFFFFFFFFFFFFF#64).getLsbD i = decide (i < 57) := getLsbD_lowMask (k := 57) (by decide) i

/-- The bits above an address from one word, and the address from another. -/
theorem band_or_va (x y : Word) :
    (x &&& 0xFE00000000000000#64) ||| (y &&& 0x01FFFFFFFFFFFFFF#64) = x.extractLsb' 57 7 ++ y.setWidth 57 := by
  have hband (i : Nat) (hi : i < 64) : (0xFE00000000000000#64).getLsbD i = !decide (i < 57) := by
    rw [show 0xFE00000000000000#64 = ~~~0x01FFFFFFFFFFFFFF#64 by decide, BitVec.getLsbD_not, getLsbD_vaMask, decide_eq_true hi, Bool.true_and]
  refine BitVec.eq_of_getLsbD_eq fun i hi => ?_
  rw [BitVec.getLsbD_or, BitVec.getLsbD_and, BitVec.getLsbD_and, getLsbD_vaMask, hband i hi, BitVec.getLsbD_append]
  by_cases h : i < 57
  · simp [h]
  · simp [h, show i - 57 < 7 by omega, show 57 + (i - 57) = i by omega]

theorem toNat_append_eq_add {m n : Nat} (x : BitVec m) (y : BitVec n) : (x ++ y).toNat = x.toNat * 2 ^ n + y.toNat := by
  rw [BitVec.toNat_append, ← Nat.shiftLeft_add_eq_or_of_lt y.isLt, Nat.shiftLeft_eq]

/-! ### The values of the address instructions and of the constants (R126, R129 to R131) -/

theorem leaValue_eq_append (p : Word) (imm : BitVec 48) : leaValue p imm = p.extractLsb' 57 7 ++ (p.setWidth 57 + imm.signExtend 57) := by
  have himm : (imm.signExtend 64).setWidth 57 = imm.signExtend 57 := by
    refine BitVec.eq_of_getLsbD_eq fun i hi => ?_
    rw [BitVec.getLsbD_setWidth, BitVec.getLsbD_signExtend, BitVec.getLsbD_signExtend]
    simp [hi, show i < 64 by omega]
  rw [leaValue, band_or_va, BitVec.setWidth_add _ _ (by decide), himm]

theorem mkptrValue_eq_append (p band : Word) : mkptrValue p band = band.setWidth 6 ++ 0#1 ++ p.setWidth 57 := by
  refine BitVec.eq_of_getLsbD_eq fun i hi => ?_
  rw [mkptrValue, BitVec.getLsbD_or, BitVec.getLsbD_and, getLsbD_vaMask, BitVec.getLsbD_append, BitVec.getLsbD_append]
  obtain h | rfl | h : i < 57 ∨ i = 57 ∨ 58 ≤ i := by omega
  · simp [h, show i < 58 by omega]
  · simp
  · simp [hi, show ¬ i < 57 by omega, show ¬ i < 58 by omega, show i - 57 ≠ 0 by omega, show i - 57 - 1 = i - 58 by omega,
      show i - 58 < 6 by omega, BitVec.getLsbD_eq_getElem (show i - 58 < 64 by omega)]

theorem caddrValue_eq_append (x y off : Word) : caddrValue x y off = 0#35 ++ y.setWidth 6 ++ x.setWidth 7 ++ off.setWidth 16 := by
  refine BitVec.eq_of_toNat_eq ?_
  simp only [caddrValue, fld_low, toNat_append_eq_add, BitVec.toNat_ofNat, BitVec.toNat_setWidth]
  omega

theorem liHi_value_eq_append (imm : BitVec 16) (w : Word) :
    (imm.setWidth 64 <<< 48) ||| (w &&& 0x0000FFFFFFFFFFFF#64) = imm ++ w.setWidth 48 := by
  have hmask (i : Nat) : (0x0000FFFFFFFFFFFF#64).getLsbD i = decide (i < 48) := getLsbD_lowMask (k := 48) (by decide) i
  refine BitVec.eq_of_getLsbD_eq fun i hi => ?_
  rw [BitVec.getLsbD_or, BitVec.getLsbD_and, hmask, BitVec.getLsbD_append]
  by_cases h : i < 48
  · simp [h]
  · simp [h, hi]

/-! ### The values of the integer instructions (R120, R123, R125, R172) -/

section
variable (wd : Wd)

theorem sel_value (b : Bool) (x y : Word) :
    sextW (wdWidth wd) (if b then x else y).toNat = wide wd (fun _ x y => if b then x else y) x y := by
  rw [sextW_wide]
  cases b <;> cases wd <;> rfl

/-- The position and the length of a field, from registers. -/
theorem bfx_value (sx : Bool) (x p l : Word) : aluValue wd (fun w x _ => rBfx sx w x (fld p 5 0) (fld l 6 0)) x 0 =
    wide wd (resBfx (p.setWidth 6).toNat (l.setWidth 7).toNat sx) x 0 := by
  rw [alu_bfx, fld_low, fld_low, BitVec.toNat_setWidth, BitVec.toNat_setWidth]

theorem bfi_value (x old p l : Word) : aluValue wd (fun w x old => rBfi w old x (fld p 5 0) (fld l 6 0)) x old =
    wide wd (resBfi (p.setWidth 6).toNat (l.setWidth 7).toNat) x old := by
  rw [alu_bfi, fld_low, fld_low, BitVec.toNat_setWidth, BitVec.toNat_setWidth]

end

theorem li_w_value (imm : BitVec 48) : sextW 32 imm.toNat = (imm.setWidth 32).signExtend 64 := by
  rw [sextW_eq, BitVec.ofNat_toNat]

theorem elem_eq_toNat (w : Nat) (l : Line) (j : Nat) : elem w l j = (l.extractLsb' (w * j) w).toNat := by
  rw [BitVec.extractLsb'_toNat, Nat.shiftRight_eq_div_pow, elem]

theorem vext_value (u : Bool) (w : Nat) (l : Line) (j : Nat) : (if u then BitVec.ofNat 64 (elem w l j) else sextW w (elem w l j)) =
    if u then (l.extractLsb' (w * j) w).setWidth 64 else (l.extractLsb' (w * j) w).signExtend 64 := by
  rw [sextW_eq, elem_eq_toNat, BitVec.ofNat_toNat, BitVec.ofNat_toNat, BitVec.setWidth_eq]

theorem setp_value (wd : Wd) (c : Cond) (x y : Word) :
    predOf (condHolds (wdWidth wd) c (x.toNat % 2 ^ wdWidth wd) (y.toNat % 2 ^ wdWidth wd)) = allOf (holdsAt wd c x y) :=
  congrArg allOf (condHolds_wide wd x y c)

/-! ### What the tables list is what the instructions write -/

section
variable {i : Instr} {s : State} {body : State → State}

/-- An instruction that writes a value to a g register is one that writes what a table lists, where the two values agree. -/
theorem exec_wrG {d e : GReg} {v w x : Word} (hc : Clear i s = true) (he : exec i s = .next (issue i body s)) (hb : body s = s.wrG e x)
    (hx : x = w) (hv : some (e, w) = some (d, v)) : exec i s = .next (s.wrG d v).pass := by
  cases hv
  subst hx
  exact he.trans (congrArg _ (issue_onRegs hc hb ⟨_, rfl⟩))

theorem exec_wrP {d e : PReg} {v w x : Pred} (hc : Clear i s = true) (he : exec i s = .next (issue i body s)) (hb : body s = s.wrP e x)
    (hx : x = w) (hv : some (e, w) = some (d, v)) : exec i s = .next (s.wrP d v).pass := by
  cases hv
  subst hx
  exact he.trans (congrArg _ (issue_onRegs hc hb ⟨_, rfl⟩))

theorem exec_aluLong {f : Nat → Nat → Nat → Nat} {wd : Wd} {d e : GReg} {v w x y : Word} (hc : Clear i s = true)
    (he : exec i s = .next (issue i body s)) (hb : body s = s.aluLong wd f e x y) (hf : aluValue wd f x y = w)
    (hv : some (e, w) = some (d, v)) : ∃ t, exec i s = .next t ∧ ownLong s t (.g d .d 0) (v.setWidth 512) 0 := by
  cases hv
  subst hf
  exact ⟨_, he, ownLong_issue hc hb⟩

theorem exec_of_gValue {d : GReg} {v : Word} (hv : gValue s.cx.regs s i = some (d, v)) (hc : Clear i s = true) :
    exec i s = .next (s.wrG d v).pass := by
  rw [← rd_of_clear hc] at hv
  cases i with
  | add | addImm => exact exec_wrG hc rfl rfl (alu_add ..) hv
  | sub | subImm => exact exec_wrG hc rfl rfl (alu_sub ..) hv
  | mul | mulImm => exact exec_wrG hc rfl rfl (alu_mul ..) hv
  | mulh | mulhImm => exact exec_wrG hc rfl rfl (alu_mulh ..) hv
  | mulhu | mulhuImm => exact exec_wrG hc rfl rfl (alu_mulhu ..) hv
  | andd | andImm => exact exec_wrG hc rfl rfl (alu_and ..) hv
  | orr | orImm => exact exec_wrG hc rfl rfl (alu_or ..) hv
  | xor | xorImm => exact exec_wrG hc rfl rfl (alu_xor ..) hv
  | andn | andnImm => exact exec_wrG hc rfl rfl (alu_andn ..) hv
  | shl | shlImm => exact exec_wrG hc rfl rfl (alu_shl ..) hv
  | shr | shrImm => exact exec_wrG hc rfl rfl (alu_shr ..) hv
  | sra | sraImm => exact exec_wrG hc rfl rfl (alu_sra ..) hv
  | rol | rolImm => exact exec_wrG hc rfl rfl (alu_rol ..) hv
  | min | minImm => exact exec_wrG hc rfl rfl (alu_min ..) hv
  | max | maxImm => exact exec_wrG hc rfl rfl (alu_max ..) hv
  | minu | minuImm => exact exec_wrG hc rfl rfl (alu_minu ..) hv
  | maxu | maxuImm => exact exec_wrG hc rfl rfl (alu_maxu ..) hv
  | sel => exact exec_wrG hc rfl rfl (sel_value ..) hv
  | clz => exact exec_wrG hc rfl rfl (alu_clz ..) hv
  | ctz => exact exec_wrG hc rfl rfl (alu_ctz ..) hv
  | popc => exact exec_wrG hc rfl rfl (alu_popc ..) hv
  | brev => exact exec_wrG hc rfl rfl (alu_brev ..) hv
  | bfx => exact exec_wrG hc rfl rfl (bfx_value ..) hv
  | bfxImm => exact exec_wrG hc rfl rfl (alu_bfx ..) hv
  | bfi => exact exec_wrG hc rfl rfl (bfi_value ..) hv
  | bfiImm => exact exec_wrG hc rfl rfl (alu_bfi ..) hv
  | mov h f =>
    cases f with
    | gg => exact exec_wrG hc rfl rfl (sextW_wide ..) hv
    | gp => exact exec_wrG hc rfl rfl rfl hv
    | pg | pp => cases hv
  | li h wd =>
    cases wd with
    | d => exact exec_wrG hc rfl rfl rfl hv
    | w => exact exec_wrG hc rfl rfl (li_w_value ..) hv
  | liHi => exact exec_wrG hc rfl rfl (liHi_value_eq_append ..) hv
  | lea => exact exec_wrG hc rfl rfl (leaValue_eq_append ..) hv
  | mkptr => exact exec_wrG hc rfl rfl (mkptrValue_eq_append ..) hv
  | caddr => exact exec_wrG hc rfl rfl (caddrValue_eq_append ..) hv
  | vext => exact exec_wrG hc rfl rfl (vext_value ..) hv
  | getband | mfs | csrr => exact exec_wrG hc rfl rfl rfl hv
  | _ => cases hv

theorem exec_of_pValue {d : PReg} {v : Pred} (hv : pValue s.cx.regs i = some (d, v)) (hc : Clear i s = true) :
    exec i s = .next (s.wrP d v).pass := by
  rw [← rd_of_clear hc] at hv
  cases i with
  | setp | setpImm => exact exec_wrP hc rfl rfl (setp_value ..) hv
  | plog => exact exec_wrP hc rfl rfl (plog_eq ..) hv
  | mov h f =>
    cases f with
    | pg | pp => exact exec_wrP hc rfl rfl rfl hv
    | gg | gp => cases hv
  | _ => cases hv

theorem exec_of_dividerValue {d : GReg} {v : Word} (hv : dividerValue s.cx.regs i = some (d, v)) (hc : Clear i s = true) :
    ∃ t, exec i s = .next t ∧ ownLong s t (.g d .d 0) (v.setWidth 512) 0 := by
  rw [← rd_of_clear hc] at hv
  cases i with
  | div | divImm => exact exec_aluLong hc rfl rfl (alu_div ..) hv
  | divu | divuImm => exact exec_aluLong hc rfl rfl (alu_divu ..) hv
  | rem | remImm => exact exec_aluLong hc rfl rfl (alu_rem ..) hv
  | remu | remuImm => exact exec_aluLong hc rfl rfl (alu_remu ..) hv
  | _ => cases hv

end

/-- Settles O1: the meaning of each instruction computes the value of its table, and a register write is all that it does. -/
theorem scalarResults : Obligations.ScalarResults := by
  unfold Obligations.ScalarResults
  exact ⟨fun _ _ _ _ => exec_of_gValue, fun _ _ _ _ => exec_of_pValue, fun _ _ _ _ => exec_of_dividerValue⟩

end Sys2Proof.Machine
end

section
/-! Address checks of the memory forms, and CHKPTR (O18, R132, R180 to R183, R187). -/
namespace Sys2Proof.Machine
open Sys2Proof.Manual (addressTrap operandOf ldN)

/-! ### The effective address as a number (R180) -/

/-- The sum of base, index and displacement, before it is cut to a word. -/
def addrSum (base idx : Word) (disp : BitVec 16) : Int := base.toNat + idx.toNat + disp.toInt

/-- The effective address in a mode: in .g within bits 56 to 0, the band of the base kept. -/
def effAddr (am : Mode) (base idx : Word) (disp : BitVec 16) : Nat :=
  if am = .g then base.toNat / 2 ^ 58 * 2 ^ 58 + (addrSum base idx disp % 2 ^ 57).toNat else (addrSum base idx disp % 2 ^ 64).toNat

section
variable {am : Mode} {base idx : Word} {disp : BitVec 16}

theorem toNat_sum : (base + idx + disp64 disp).toNat = (addrSum base idx disp % 2 ^ 64).toNat := by
  have hsum : base + idx + disp64 disp = BitVec.ofInt 64 (addrSum base idx disp) := by
    simp [addrSum, BitVec.ofInt_add, disp64, BitVec.signExtend]
  rw [hsum, BitVec.toNat_ofInt]
  rfl

theorem eaOf_of_bad_base (hm : am = .g) (hb : base.getLsbD 57 = true) : eaOf am base idx disp = none := by
  subst hm
  exact if_pos hb

theorem exists_eaOf_toNat_eq (h : ¬ (am = .g ∧ base.getLsbD 57 = true)) :
    ∃ ea, eaOf am base idx disp = some ea ∧ ea.toNat = effAddr am base idx disp := by
  cases am with
  | l | c | x => exact ⟨_, rfl, toNat_sum⟩
  | g =>
    have hb : ¬ base.getLsbD 57 = true := fun hb => h ⟨rfl, hb⟩
    refine ⟨_, if_neg hb, ?_⟩
    have heven : base.toNat / 2 ^ 57 % 2 = 0 := by
      rw [BitVec.getLsbD, Nat.testBit_eq_decide_div_mod_eq] at hb
      simpa using hb
    rw [band_or_va, toNat_append_eq_add, BitVec.extractLsb'_toNat, Nat.shiftRight_eq_div_pow, BitVec.toNat_setWidth, toNat_sum, effAddr,
      if_pos rfl]
    have := base.isLt
    omega

end

/-- The bits of an effective address that R181 wants to be zero. -/
def topBits (am : Mode) (ea : Nat) : Nat :=
  match am with
  | .l => ea / 2 ^ 16
  | .c => ea / 2 ^ 26
  | .x => ea / 2 ^ 29
  | .g => ea / 2 ^ 57 % 2

theorem eaClean_eq (am : Mode) (ea : Word) : eaClean am ea = decide (topBits am ea.toNat = 0) := by
  rw [eaClean_eq_inMode]
  cases am with
  | l | c | x => exact decide_eq_decide.mpr (Nat.div_eq_zero_iff_lt (by decide)).symm
  | g =>
    change (!ea.getLsbD 57) = decide (ea.toNat / 2 ^ 57 % 2 = 0)
    rw [BitVec.getLsbD, Nat.testBit_eq_decide_div_mod_eq, ← decide_not]
    exact decide_eq_decide.mpr (by omega)

/-! ### The checks of an access (R180 to R182) -/

section
variable {am : Mode} {base idx : Word} {disp : BitVec 16} {n : Nat}

/-- The trap of an address by its number: a base with bit 57 set, then the bits that must be zero, then the alignment. -/
theorem addressTrap_eq : addressTrap am base idx disp n =
    if am = .g ∧ base.getLsbD 57 = true then some (BAD_ADDR, base)
    else if topBits am (effAddr am base idx disp) ≠ 0 then some (BAD_ADDR, BitVec.ofNat 64 (effAddr am base idx disp))
    else if effAddr am base idx disp % n ≠ 0 then some (MISALIGN, BitVec.ofNat 64 (effAddr am base idx disp)) else none := by
  cases am <;> rfl

theorem withAddr_of_eaOf {s : State} {k : Word → State} {ea : Word} (he : eaOf am base idx disp = some ea) :
    s.withAddr am base idx disp n k =
      if topBits am ea.toNat ≠ 0 then s.trap BAD_ADDR ea else if ea.toNat % n ≠ 0 then s.trap MISALIGN ea else k ea := by
  simp only [State.withAddr, he, eaClean_eq, Bool.not_eq_true', decide_eq_false_iff_not, bne_iff_ne, ne_eq]

theorem withAddr_of_addressTrap {s : State} {k : Word → State} {cause : BitVec 8} {a : Word}
    (h : addressTrap am base idx disp n = some (cause, a)) : s.withAddr am base idx disp n k = s.trap cause a := by
  rw [addressTrap_eq] at h
  by_cases hb : am = .g ∧ base.getLsbD 57 = true
  · rw [if_pos hb] at h
    cases h
    simp only [State.withAddr, eaOf_of_bad_base hb.1 hb.2]
  · obtain ⟨ea, he, hn⟩ := exists_eaOf_toNat_eq (idx := idx) (disp := disp) hb
    rw [if_neg hb, ← hn, BitVec.ofNat_toNat, BitVec.setWidth_eq] at h
    rw [withAddr_of_eaOf he]
    split at h
    next htop => cases h; rw [if_pos htop]
    next htop =>
      rw [if_neg htop]
      split at h
      next hal => cases h; rw [if_pos hal]
      next => cases h

theorem withAddr_of_soundAt {s : State} {k : Word → State} {ea : Word} (h : soundAt am base idx disp n = some ea) :
    s.withAddr am base idx disp n k = k ea := by
  unfold soundAt at h
  split at h
  next e he =>
    rw [eaClean_eq] at h
    obtain ⟨hs, hea⟩ := Option.ite_none_right_eq_some.mp h
    cases hea
    rw [Bool.and_eq_true, decide_eq_true_eq, beq_iff_eq] at hs
    rw [withAddr_of_eaOf he, if_neg (not_not.mpr hs.1), if_neg (not_not.mpr hs.2)]
  next => cases h

end

/-! ### What a .l access does that its port refuses (R183, R187) -/

section
variable {s : State} {am : Mode} {ea : Word} {n : Nat} {cause : BitVec 8}

theorem localGate_of_refused {k : State} (hm : am = .l) (hr : s.localRefusal s.me.1 (ea.toNat % 2 ^ 16) n = some cause) :
    s.localGate am ea n k = s.trap cause ea := by
  simp only [State.localGate, hm, if_true, fld_low, hr]

theorem storeAt_of_refused {data : Line} {mask : BitVec 64} {bset : Bool} (hm : am = .l)
    (hr : s.localRefusal s.me.1 (ea.toNat % 2 ^ 16) n = some cause) : s.storeAt am ea n data mask bset = s.trap cause ea := by
  simp only [State.storeAt, hm, if_true, fld_low, hr]

theorem loadAt_of_refused {d : Dest} {nc acq : Bool} {xs : BitVec 16} (hm : am = .l) (h0 : s.cx.half = 0) (hh : s.cx.hnd = false)
    (hv : s.cx.regs.trapvec ≠ 0) (hr : s.localRefusal s.me.1 (ea.toNat % 2 ^ 16) n = some cause) :
    s.loadAt am ea n d nc acq xs = s.trap cause ea := by
  have hl : s.loadLocal ea n d xs = s.trap cause ea := by simp only [State.loadLocal, fld_low, hr]
  have htook : (s.trap cause ea).took.isNone = false := by
    obtain ⟨-, htk, -⟩ := trapInfo_facts h0 hh hv cause ea 0
    rw [← Option.not_isSome, State.trap, htk]
    rfl
  simp only [State.loadAt, hm, if_true, hl, htook, Bool.and_false, Bool.false_eq_true, if_false]

end

/-! ### The memory forms -/

theorem ldBytes_eq_ldN (sz : LdSz) : ldBytes sz = ldN sz := by cases sz <;> rfl

/-- An instruction with a memory operand checks its address; what comes after asks the port, where the access is a .l one. -/
theorem addressed_body {i : Instr} {s : State} {am : Mode} {base idx : Word} {disp : BitVec 16} {n : Nat}
    (hi : operandOf s.rd i = some (am, base, idx, disp, n)) (h0 : s.cx.half = 0) (hh : s.cx.hnd = false) (hv : s.cx.regs.trapvec ≠ 0) :
    ∃ body k, exec i s = .next (issue i body s) ∧ body s = s.withAddr am base idx disp n k ∧
      ∀ ea cause, am = .l → (∀ h d m, i ≠ .pref h d m) → s.localRefusal s.me.1 (ea.toNat % 2 ^ 16) n = some cause →
        k ea = s.trap cause ea := by
  cases i with
  | ld h sz | ldacq h sz =>
    cases hi
    rw [← ldBytes_eq_ldN]
    exact ⟨_, _, rfl, rfl, fun _ _ hm _ hr => loadAt_of_refused hm h0 hh hv hr⟩
  | vld => cases hi; exact ⟨_, _, rfl, rfl, fun _ _ hm _ hr => loadAt_of_refused hm h0 hh hv hr⟩
  | st h sz =>
    cases hi
    rw [← stBytes_eq_stN]
    exact ⟨_, _, rfl, rfl, fun _ _ hm _ hr => storeAt_of_refused hm hr⟩
  | vst => cases hi; exact ⟨_, _, rfl, rfl, fun _ _ hm _ hr => storeAt_of_refused hm hr⟩
  | strel h sz =>
    cases hi
    rw [← stBytes_eq_stN]
    exact ⟨_, _, rfl, rfl, fun _ _ hm _ hr => localGate_of_refused hm hr⟩
  | lds | sts | ldf | feset | feclr => cases hi; exact ⟨_, _, rfl, rfl, fun _ _ hm _ hr => localGate_of_refused hm hr⟩
  | atom h wd => cases wd <;> cases hi <;> exact ⟨_, _, rfl, rfl, fun _ _ hm _ hr => localGate_of_refused hm hr⟩
  | pref h d m =>
    obtain ⟨hd, hop⟩ := Option.ite_none_left_eq_some.mp hi
    cases hop
    have hn : ¬ min (s.rd.getG d).toNat 16 = 0 := by
      have hpos : (s.rd.getG d).toNat ≠ 0 := fun h0 => hd (BitVec.eq_of_toNat_eq h0)
      omega
    exact ⟨_, _, rfl, if_neg hn, fun _ _ _ hp _ => absurd rfl (hp h d m)⟩
  | _ => cases hi

/-! ### CHKPTR (R132) -/

/-- An instruction that executes normally, enters a long result and sends its one request into the channels. -/
theorem farLong_issue_of_sent {i : Instr} {s : State} {body : State → State} {d : Dest} {place : Place} {op : ROp} (h : Clear i s = true)
    (hb : body s = (s.addPend { s.newPend d with reqs := [s.reqFor place op s.cx.nextTag] }).send (.req (s.reqFor place op s.cx.nextTag))) :
    farLong s (issue i body s) d place op := by
  have f := clear_facts h
  rw [issue_pass h hb rfl (by simp) (by simp) (by simp) (by simp)]
  refine ⟨by simp [State.pass], by simp [State.pass], rfl, f.took, by simp [State.pass, f.run], by simp [State.pass], rfl, ?_⟩
  exact ⟨{ s.newPend d with reqs := [s.reqFor place op s.cx.nextTag] }, by simp [State.pass], rfl, rfl, rfl, rfl⟩

theorem long1_glob (s : State) (d : Dest) (va : Word) (op : ROp) :
    s.long1 d (.glob va) op = (s.addPend { s.newPend d with reqs := [s.reqFor (.glob va) op s.cx.nextTag] }).send
      (.req (s.reqFor (.glob va) op s.cx.nextTag)) := rfl

/-- The probe of a pointer goes to the home of its granule; the core answers for one that has bit 57 set. -/
theorem exec_chkptr {h : Hdr} {d a : GReg} {s : State} (hc : Clear (.chkptr h d a) s = true) :
    ∃ t, exec (.chkptr h d a) s = .next t ∧
      if (s.cx.regs.getG a).getLsbD 57 then ownLong s t (.g d .d 0) (BitVec.ofNat 512 (2 ^ 13)) 0
      else farLong s t (.g d .d 0) (.glob (s.cx.regs.getG a)) .probe := by
  have hbody : doChkptr d a s = if (s.cx.regs.getG a).getLsbD 57 then s.longValue (s.newPend (.g d .d 0)) (BitVec.ofNat 512 (2 ^ 13)) 0
      else s.long1 (.g d .d 0) (.glob (s.cx.regs.getG a)) .probe := by rw [doChkptr, rd_of_clear hc]
  refine ⟨_, rfl, ?_⟩
  split
  next hp => exact ownLong_issue hc (hbody.trans (if_pos hp))
  next hp => exact farLong_issue_of_sent hc ((hbody.trans (if_neg hp)).trans (long1_glob ..))

/-! ### The obligation -/

/-- Settles O18: a memory form traps where its address check or its own port does; CHKPTR sends a probe, or answers itself. -/
theorem addresses : Obligations.Addresses := by
  unfold Obligations.Addresses
  refine ⟨?traps, fun _ _ _ _ hc => exec_chkptr hc⟩
  case traps =>
    intro i s am base idx disp n hi hc hh hv
    rw [← rd_of_clear hc] at hi
    obtain ⟨body, k, he, hb, hk⟩ := addressed_body hi (clear_facts hc).half hh hv
    refine ⟨fun cause a ht => ⟨_, he, issue_traps hc hh hv ?_⟩, fun ea cause hs hm hp hr => ⟨_, he, issue_traps hc hh hv ?_⟩⟩
    · exact hb.trans (withAddr_of_addressTrap ht)
    · exact hb.trans ((withAddr_of_soundAt hs).trans (hk ea cause hm hp hr))

end Sys2Proof.Machine
end

section
/-! A slot's words, what the three readers make of them (O14, R140, R141, R155). -/
namespace Sys2Proof.Machine

/-! ### The words and fields of a slot -/

/-- Field i of word 1 as a piece of the line that brings the slot. -/
theorem xf_word64_one (l : Line) {i : Nat} (hi : i < 4) : xf (word64 l 1) i = (l.extractLsb' (64 + 16 * i) 16).toNat := by
  have hw : 16 * i + 15 + 1 - 16 * i = 16 := by omega
  rw [xf, fld_eq_extractLsb', hw, word64]
  refine congrArg BitVec.toNat (BitVec.eq_of_getLsbD_eq fun j hj => ?_)
  simp only [BitVec.getLsbD_extractLsb', hj, show 16 * i + j < 64 by omega, decide_true, Bool.true_and]
  congr 1
  omega

/-- Word 1 is zero where its four fields are. -/
theorem word_eq_zero_iff_xf (w : Word) : w = 0 ↔ ∀ i < 4, xf w i = 0 := by
  refine ⟨fun h i _ => by simp [h, xf, fld], fun h => BitVec.eq_of_toNat_eq ?_⟩
  have h0 := h 0 (by decide)
  have h1 := h 1 (by decide)
  have h2 := h 2 (by decide)
  have h3 := h 3 (by decide)
  simp only [xf, fld] at h0 h1 h2 h3
  have := w.isLt
  simp only [BitVec.ofNat_eq_ofNat, BitVec.toNat_ofNat]
  omega

/-- A slot is of one of the three kinds as its word 0 says; the other values are those of a free slot (R140). -/
theorem slotKind_eq_iff (w0 : Word) {k : Nat} (hpos : 0 < k) (hle : k ≤ 3) : slotKind w0 = k ↔ (w0.extractLsb' 0 8).toNat = k := by
  rw [slotKind, show fld w0 7 0 = (w0.extractLsb' 0 8).toNat from fld_eq_extractLsb' ..]
  split <;> omega

/-- The line of a slot's two words, word 0 lowest. -/
theorem slotLine_eq_append (w0 w1 : Word) : ((w1.setWidth 512 <<< 64) ||| w0.setWidth 512 : Line) = w1.setWidth 448 ++ w0 := by
  refine BitVec.eq_of_getLsbD_eq fun i hi => ?_
  rw [BitVec.getLsbD_append, BitVec.getLsbD_or, BitVec.getLsbD_shiftLeft, BitVec.getLsbD_setWidth, BitVec.getLsbD_setWidth,
    BitVec.getLsbD_setWidth]
  by_cases h : i < 64
  · simp [h, hi]
  · have hlo : w0.getLsbD i = false := BitVec.getLsbD_of_ge _ _ (by omega)
    simp [h, hi, hlo, show i - 64 < 512 by omega, show i - 64 < 448 by omega]

/-! ### The predictions (R155) -/

section
variable (w0 w1 : Word)

theorem xselValue_iff : xselValue w0 w1 = true ↔ slotKind w0 = 1 ∧ (xf w1 0 > xf w1 1 ∨ xf w1 0 = xf w1 1 ∧ xf w1 2 % 2 = 1) := by
  simp [xselValue]

theorem getLsbD_shapeLine_xsel (l : Line) : (shapeLine .xsel l).getLsbD 0 = xselValue (word64 l 0) (word64 l 1) := by
  rw [shapeLine]
  cases xselValue (word64 l 0) (word64 l 1) <;> simp

/-- The unroll factor is the largest of the four that the average trip allows. -/
theorem xunrValue_greatest :
    let m := if slotKind w0 = 3 then max 512 (xf w1 1) else 512
    xunrValue w0 w1 ∈ [1, 2, 4, 8] ∧ 512 * xunrValue w0 w1 ≤ m ∧ ∀ g ∈ [1, 2, 4, 8], 512 * g ≤ m → g ≤ xunrValue w0 w1 := by
  intro m
  have hm : 512 ≤ m := by
    simp only [m]
    split <;> omega
  have hv : xunrValue w0 w1 = if 4096 ≤ m then 8 else if 2048 ≤ m then 4 else if 1024 ≤ m then 2 else 1 := rfl
  clear_value m
  generalize xunrValue w0 w1 = x at hv ⊢
  split_ifs at hv
  all_goals
    subst hv
    refine ⟨by decide, by omega, fun g hg hle => ?_⟩
    simp only [List.mem_cons, List.not_mem_nil, or_false] at hg
    omega

theorem xpfdValue_of_nothing (h : slotKind w0 ≠ 2 ∨ w1 = 0) : xpfdValue w0 w1 = 1 := by
  rw [xpfdValue]
  exact if_pos (by simpa using h)

/-- The distance is that of the fullest bucket, the lowest of equals. -/
theorem xpfdValue_of_fullest (hk : slotKind w0 = 2) (hw : w1 ≠ 0) :
    ∃ i < 4, (∀ j < 4, xf w1 j ≤ xf w1 i) ∧ (∀ j < i, xf w1 j < xf w1 i) ∧ xpfdValue w0 w1 = [0, 1, 4, 8][i]! := by
  have hnot : ¬ (slotKind w0 != 2 || w1 == 0) = true := by simpa [hk] using hw
  rw [xpfdValue, if_neg hnot]
  simp only [Bool.and_eq_true, decide_eq_true_eq]
  split_ifs
  · exact ⟨0, by decide, fun j hj => by interval_cases j <;> omega, fun j hj => by omega, rfl⟩
  · exact ⟨1, by decide, fun j hj => by interval_cases j <;> omega, fun j hj => by interval_cases j; omega, rfl⟩
  · exact ⟨2, by decide, fun j hj => by interval_cases j <;> omega, fun j hj => by interval_cases j <;> omega, rfl⟩
  · exact ⟨3, by decide, fun j hj => by interval_cases j <;> omega, fun j hj => by interval_cases j <;> omega, rfl⟩

end

end Sys2Proof.Machine
end

section
/-! Reads and reports of experience slots (O14, R142 to R155). -/
namespace Sys2Proof.Machine
open Sys2Proof.Manual (slotRead)

/-! ### The experience cache works beside the threads -/

theorem beside_xAlloc (s : State) (core launch slot : Nat) (held : List XHeld) (answer : Option (Asker × Nat)) :
    Beside s (s.xAlloc core launch slot held answer) := by
  unfold State.xAlloc
  refine Beside.trans ?evict ((beside_onCore (by rfl)).trans (beside_send ..))
  split
  · exact beside_sendMerge ..
  · exact Beside.refl s

theorem ctxs_ite_mismatch (k : Core) (b : Bool) : (if b then k.mismatch 1 else k).ctxs = k.ctxs := by cases b <;> rfl

theorem beside_xTake (s : State) (core : Nat) (part : Word) (launch : Nat) (slot : BitVec 16) (h : XHeld) :
    Beside s (s.xTake core part launch slot h) := by
  unfold State.xTake
  refine beside_ite (Beside.refl s) (beside_ite (beside_onCore (by rfl)) ?_)
  split
  · exact beside_onCore (ctxs_ite_mismatch ..)
  · exact beside_xAlloc ..

/-- A report goes to the core's experience cache, and in a pair to its record of reports; it changes no thread (R142, R151). -/
theorem beside_xReport (s : State) (core : Nat) (part : Word) (launch : Nat) (slot : BitVec 16) (h : XHeld) :
    Beside s (s.xReport core part launch slot h) := by
  unfold State.xReport
  have htake := beside_xTake s core part launch slot h
  exact beside_ite (htake.trans ⟨fun _ _ => rfl, rfl, rfl, rfl⟩) htake

/-! ### A read enters a long result -/

/-- Of the threads, only the issuing one has changed, and only in its long results. -/
structure EntersLong (s t : State) : Prop where
  me   : t.me = s.me
  took : t.took = s.took
  cx   : ∃ tag pend landing, t.cx = { s.cx with nextTag := tag, pend := pend, landing := landing }

section
variable {s t u : State}

theorem Beside.entersLong (h : Beside s t) : EntersLong s t := ⟨h.me, h.took, _, _, _, h.cx⟩

theorem EntersLong.trans (h : EntersLong s t) (h' : EntersLong t u) : EntersLong s u := by
  obtain ⟨_, _, _, hcx⟩ := h.cx
  obtain ⟨_, _, _, hcx'⟩ := h'.cx
  exact ⟨h'.me.trans h.me, h'.took.trans h.took, _, _, _, by rw [hcx', hcx]⟩

theorem entersLong_onCx {tag : Nat} {pend : List Pend} {landing : List Reply}
    {f : Ctx → Ctx} (hf : f s.cx = { s.cx with nextTag := tag, pend := pend, landing := landing }) : EntersLong s (s.onCx f) :=
  ⟨rfl, rfl, _, _, _, (s.cx_onCx f).trans hf⟩

theorem entersLong_addPend (s : State) (p : Pend) : EntersLong s (s.addPend p) := entersLong_onCx rfl

theorem entersLong_longValue (s : State) (p : Pend) (data : Line) (flags : BitVec 6) : EntersLong s (s.longValue p data flags) := by
  unfold State.longValue
  split
  · exact entersLong_onCx rfl
  · exact (entersLong_addPend s p).trans (entersLong_onCx rfl)

/-- An instruction that executes normally and enters a long result, or none: that, and the thread goes on. -/
theorem issue_entersLong {i : Instr} {body : State → State} (hc : Clear i s = true) (hb : body s = t) (h : EntersLong s t) :
    issue i body s = t.pass := by
  obtain ⟨_, _, _, hcx⟩ := h.cx
  exact issue_pass hc hb h.took (by rw [hcx]) (by rw [hcx]) (by rw [hcx]) (by rw [hcx])

end

/-! ### The read of a slot (R152) -/

/-- The long result that a slot's read enters, before its requests are known. -/
def State.slotPend (s : State) (d : Dest) (sh : Shape) : Pend := { s.newPend d with shape := sh }

/-- The request of a slot's words at its home. -/
def State.slotReq (s : State) (n : Nat) : Req :=
  s.reqFor (.glob (s.slotVa s.cx.launch.toNat n)) (.xread s.me.1 s.cx.launch.toNat n none true) s.cx.nextTag

section
variable {s : State} {n : Nat} {d : Dest} {sh : Shape} {e : XEnt}

theorem readX_of_absent (h : n = 0xFFFF ∨ s.slotCount s.cx.launch.toNat ≤ n) : s.readX n d sh = s.longValue (s.slotPend d sh) 0 0 := by
  rw [State.readX]
  exact if_pos (by simpa using h)

theorem not_absent (hn : n ≠ 0xFFFF) (hlt : n < s.slotCount s.cx.launch.toNat) :
    ¬ (n = 0xFFFF || n ≥ s.slotCount s.cx.launch.toNat) = true := by
  simpa [hn] using hlt

theorem readX_of_view {v : Word} (hn : n ≠ 0xFFFF) (hlt : n < s.slotCount s.cx.launch.toNat)
    (he : xFind s.mine.xcache s.cx.launch.toNat n = some e) (hv : e.view = some v) : s.readX n d sh =
      (s.onMine fun k => { k with xcache := xFront k.xcache e }).longValue (s.slotPend d sh) (v.setWidth 448 ++ e.w0) 0 := by
  simp only [State.readX, if_neg (not_absent hn hlt), he, hv, slotLine_eq_append]
  rfl

theorem readX_of_unfilled (hn : n ≠ 0xFFFF) (hlt : n < s.slotCount s.cx.launch.toNat)
    (he : xFind s.mine.xcache s.cx.launch.toNat n = some e) (hv : e.view = none) : s.readX n d sh =
      s.startLong { s.slotPend d sh with reqs := [s.slotReq n] } := by
  simp only [State.readX, if_neg (not_absent hn hlt), he, hv]
  rfl

theorem readX_of_no_entry (hn : n ≠ 0xFFFF) (hlt : n < s.slotCount s.cx.launch.toNat)
    (he : xFind s.mine.xcache s.cx.launch.toNat n = none) : s.readX n d sh =
      (s.addPend { s.slotPend d sh with reqs := [s.slotReq n] }).xAlloc s.me.1 s.cx.launch.toNat n []
        (some (s.asker, s.cx.nextTag)) := by
  simp only [State.readX, if_neg (not_absent hn hlt), he]
  rfl

/-- A slot's request goes to its home, through the channels. -/
theorem startLong_slotReq (p : Pend) :
    s.startLong { p with reqs := [s.slotReq n] } = (s.addPend { p with reqs := [s.slotReq n] }).send (.req (s.slotReq n)) := rfl

theorem entersLong_readX (s : State) (n : Nat) (d : Dest) (sh : Shape) : EntersLong s (s.readX n d sh) := by
  by_cases habs : n = 0xFFFF ∨ s.slotCount s.cx.launch.toNat ≤ n
  · rw [readX_of_absent habs]
    exact entersLong_longValue ..
  · obtain ⟨hn, hlt⟩ := not_or.mp habs
    rw [Nat.not_le] at hlt
    cases he : xFind s.mine.xcache s.cx.launch.toNat n with
    | none =>
      rw [readX_of_no_entry hn hlt he]
      exact (entersLong_addPend ..).trans (beside_xAlloc ..).entersLong
    | some e =>
      cases hv : e.view with
      | none =>
        rw [readX_of_unfilled hn hlt he hv, startLong_slotReq]
        exact (entersLong_addPend ..).trans (beside_send ..).entersLong
      | some v =>
        rw [readX_of_view hn hlt he hv]
        exact (beside_onCore (by rfl)).entersLong.trans (entersLong_longValue ..)

end

/-! ### The report that follows a read (R142, R155) -/

/-- A state with the issuing thread's report, where it makes one. -/
def State.withReport (s t : State) (rep : Option (BitVec 16 × XHeld)) : State :=
  rep.elim t fun p => t.xReport s.me.1 s.cx.part s.cx.launch.toNat p.1 p.2

section
variable {i : Instr} {s t : State}

theorem pcNow_of_half (h : s.cx.half = 0) : s.pcNow = s.cx.pc := by simp [State.pcNow, h]

theorem EntersLong.withReport (h : EntersLong s t) (rep : Option (BitVec 16 × XHeld)) : EntersLong s (s.withReport t rep) := by
  cases rep with
  | none => exact h
  | some p => exact h.trans (beside_xReport ..).entersLong

/-- A report made when a long result has been entered is the one of the issue. -/
theorem reportX_eq_withReport (hc : Clear i s = true) (h : EntersLong s t) (b : Option GReg) (x : BitVec 16) (kind : Nat) (f : Word → XRep) :
    t.reportX b x kind f =
      s.withReport t (b.map fun g => (x, { rep := f (s.cx.regs.getG g), pc := s.cx.pc, kind := some kind })) := by
  have c := clear_facts hc
  obtain ⟨_, _, _, hcx⟩ := h.cx
  cases b with
  | none => rfl
  | some g =>
    have hrd : t.rd = s.cx.regs := by rw [State.rd, hcx, c.view]; rfl
    have hpc : t.pcNow = s.cx.pc := by rw [pcNow_of_half (by rw [hcx]; exact c.half), hcx]
    rw [State.reportX, hrd, hpc, h.me, hcx]
    rfl

/-- An instruction of the table reads its slot, then makes its report. -/
theorem slotRead_body {n : Nat} {d : Dest} {sh : Shape} {rep : Option (BitVec 16 × XHeld)} (hi : slotRead s.cx i = some (n, d, sh, rep))
    (hc : Clear i s = true) :
    ∃ body, exec i s = .next (issue i body s) ∧ body s = s.withReport (s.readX n d sh) rep := by
  have hrd := rd_of_clear hc
  unfold slotRead at hi
  split at hi <;> cases hi
  case h_1 => exact ⟨_, rfl, by rw [doXrd, hrd, fld_low]; rfl⟩
  case h_2 => exact ⟨_, rfl, reportX_eq_withReport hc (entersLong_readX ..) ..⟩
  case h_3 =>
    refine ⟨_, rfl, (reportX_eq_withReport hc (entersLong_readX ..) ..).trans ?_⟩
    simp only [fld_low]
  case h_4 =>
    refine ⟨_, rfl, (reportX_eq_withReport hc (entersLong_readX ..) ..).trans ?_⟩
    rw [hrd]

theorem exec_of_slotRead {n : Nat} {d : Dest} {sh : Shape} {rep : Option (BitVec 16 × XHeld)} (hi : slotRead s.cx i = some (n, d, sh, rep))
    (hc : Clear i s = true) : exec i s = .next (s.withReport (s.readX n d sh) rep).pass := by
  obtain ⟨body, he, hb⟩ := slotRead_body hi hc
  rw [he, issue_entersLong hc hb ((entersLong_readX ..).withReport rep)]

theorem exec_xnote {h : Hdr} {a : GReg} {x : BitVec 16} (hc : Clear (.xnote h a x) s = true) :
    exec (.xnote h a x) s = .next (s.xReport s.me.1 s.cx.part s.cx.launch.toNat x
      { rep := .latency (s.cx.regs.getG a).toNat, pc := s.cx.pc, kind := none }).pass := by
  have hbody : doXnote a x s = s.xReport s.me.1 s.cx.part s.cx.launch.toNat x
      { rep := .latency (s.cx.regs.getG a).toNat, pc := s.cx.pc, kind := none } := by
    rw [doXnote, rd_of_clear hc, pcNow_of_half (clear_facts hc).half]
  exact congrArg _ (issue_beside hc hbody (beside_xReport ..))

/-- XFLUSH sends the merges of the launch's entries; its long result lands at once where there are none. -/
theorem exec_xflush {h : Hdr} (hc : Clear (.xflush h) s = true) :
    let m := s.mergeWhere s.me.1 (fun e => e.launch == s.cx.launch.toNat) (some (s.asker, s.cx.nextTag))
    exec (.xflush h) s = .next (if m.2 = 0 then m.1.longValue (s.newPend .none) 0 0
      else m.1.addPend { s.newPend .none with left := m.2 }).pass := by
  intro m
  have hm : EntersLong s m.1 := (beside_mergeWhere ..).entersLong
  refine congrArg _ (issue_entersLong hc rfl ?_)
  change EntersLong s (if m.2 = 0 then m.1.longValue (s.newPend .none) 0 0 else m.1.addPend { s.newPend .none with left := m.2 })
  split
  · exact hm.trans (entersLong_longValue ..)
  · exact hm.trans (entersLong_addPend ..)

end

/-! ### The obligation -/

/-- Settles O14: a reader's body reads its slot and then reports, and neither stops the thread; a prediction is computed from the fields of
the slot's words. -/
theorem experience : Obligations.Experience := by
  unfold Obligations.Experience
  refine ⟨⟨?reads, fun _ _ _ _ hc => exec_xnote hc, fun _ _ hc => exec_xflush hc⟩, ?words⟩
  case reads =>
    intro i s n d sh rep hi hc
    refine ⟨s.readX n d sh, ?_, readX_of_absent, fun hn hlt => ⟨fun e v => readX_of_view hn hlt, fun e => readX_of_unfilled hn hlt,
      readX_of_no_entry hn hlt⟩⟩
    rw [exec_of_slotRead hi hc]
    cases rep <;> rfl
  case words =>
    intro l cap w0 b kind
    have hb : ∀ i < 4, xf (word64 l 1) i = b i := fun i hi => xf_word64_one l hi
    have hkind : ∀ k, 0 < k → k ≤ 3 → (slotKind (word64 l 0) = k ↔ kind = k) := fun k => slotKind_eq_iff (word64 l 0)
    have hzero : word64 l 1 = 0 ↔ ∀ i < 4, b i = 0 := by
      rw [word_eq_zero_iff_xf]
      exact forall₂_congr fun i hi => by rw [hb i hi]
    refine ⟨rfl, ?xsel, ?xunr, ?xpfd⟩
    case xsel =>
      rw [getLsbD_shapeLine_xsel, xselValue_iff, hkind 1 (by decide) (by decide), hb 0 (by decide), hb 1 (by decide), hb 2 (by decide)]
    case xunr =>
      have hgreatest := xunrValue_greatest (word64 l 0) (word64 l 1)
      simp only [hkind 3 (by decide) (by decide), hb 1 (by decide)] at hgreatest
      obtain ⟨hmem, hfits, hlargest⟩ := hgreatest
      exact ⟨_, hmem, rfl, hfits, hlargest⟩
    case xpfd =>
      have hload : slotKind (word64 l 0) = 2 ↔ kind = 2 := hkind 2 (by decide) (by decide)
      refine ⟨xpfdValue (word64 l 0) (word64 l 1), rfl, fun hno => xpfdValue_of_nothing _ _ (hno.imp (mt hload.mp) hzero.mpr),
        fun hk hsome => ?_⟩
      have hw : word64 l 1 ≠ 0 := fun h => by
        obtain ⟨i, hi, hne⟩ := hsome
        exact hne (hzero.mp h i hi)
      obtain ⟨i, hi, hmax, hfirst, hval⟩ := xpfdValue_of_fullest _ _ (hload.mpr hk) hw
      refine ⟨i, hi, fun j hj => ?_, fun j hj => ?_, hval⟩
      · rw [← hb j hj, ← hb i hi]
        exact hmax j hj
      · rw [← hb j (hj.trans hi), ← hb i hi]
        exact hfirst j hj

end Sys2Proof.Machine
end

section
/-! The registers that lane-guarded results and the sixteen results of a narrower format make (O2, R161, R162, R168). -/
namespace Sys2Proof.Machine
open Sys2Proof.Manual

/-! ### Lists indexed by element -/

theorem elem_lt (w : Nat) (l : Line) (j : Nat) : elem w l j < 2 ^ w := Nat.mod_lt _ (by positivity)

theorem toNat_el (w : Nat) (l : Line) (j : Nat) : (el w l j).toNat = elem w l j := Nat.mod_eq_of_lt (elem_lt w l j)

theorem getElem?_elems (w : Nat) (l : Line) (j : Nat) : (elems w l)[j]? = if j < 512 / w then some (elem w l j) else none := by
  by_cases h : j < 512 / w <;> simp [elems, upTo_eq_range, h]

theorem mapIdx_map_upTo {α β : Type} (f : Nat → α → β) (g : Nat → α) (n : Nat) :
    ((upTo n).map g).mapIdx f = (upTo n).map fun j => f j (g j) :=
  List.ext_getElem (by simp) fun j _ _ => by simp [getElem_upTo]

theorem take_drop_map_upTo {α : Type} (f : Nat → α) {n k m : Nat} (h : k + m ≤ n) :
    (((upTo n).map f).drop k).take m = (upTo m).map fun j => f (k + j) :=
  List.ext_getElem (by simp; omega) fun j _ _ => by simp [getElem_upTo]

/-! ### Elements on and off -/

theorem laneMix_value (w : Nat) (on : Nat → Bool) (old : Line) (res : Nat → Nat × BitVec 6) (j n : Nat) :
    (laneMix w on old j ((List.range' j n).map res)).1 =
      ofElems w ((List.range' j n).map fun i => if on i then (res i).1 else elem w old i) := by
  induction n generalizing j with
  | zero => rfl
  | succ n ih =>
    rw [List.range'_succ, List.map_cons, List.map_cons, ofElems, ← ih (j + 1), laneMix]
    cases on j with
    | true => rfl
    | false => exact congrArg (· + _) (Nat.mod_eq_of_lt (elem_lt w old j)).symm

/-- Results mixed into a register: the new element where it is on, the old one where it is not. -/
theorem el_laneMix {w j : Nat} (on : Nat → Bool) (old : Line) (res : Nat → Nat × BitVec 6) (hj : j < 512 / w) :
    el w (BitVec.ofNat 512 (laneMix w on old 0 ((upTo (512 / w)).map res)).1) j =
      if on j then BitVec.ofNat w (res j).1 else el w old j := by
  have hmix := el_lineOf (fun i => (if on i then (res i).1 else elem w old i, (0 : BitVec 6))) hj
  rw [List.map_map] at hmix
  rw [upTo_eq_range, List.range_eq_range', laneMix_value, ← List.range_eq_range', ← upTo_eq_range]
  refine hmix.trans ?_
  cases on j <;> rfl

/-- Two results that write the same element and raise the same flags. -/
def SameResult (w : Nat) (x y : Nat × BitVec 6) : Prop := BitVec.ofNat w x.1 = BitVec.ofNat w y.1 ∧ x.2 = y.2

/-- The flags of the elements that are on: what the others would raise is of no account. -/
theorem flagsOf_congr {on on' : Nat → Bool} {f g : Nat → BitVec 6} {n : Nat} (ho : ∀ j < n, on j = on' j)
    (hf : ∀ j < n, on' j = true → f j = g j) : flagsOf on f n = flagsOf on' g n := by
  induction n with
  | zero => rfl
  | succ n ih =>
    have hlt := Nat.lt_succ_self n
    rw [flagsOf, flagsOf, ih (fun j hj => ho j (hj.trans hlt)) (fun j hj => hf j (hj.trans hlt)), ho n hlt]
    cases hn : on' n with
    | true => rw [hf n hlt hn]
    | false => rfl

/-- The performed elements of a whole result are written to d and their flags raised, and nothing else happens (R162). -/
def LanesWritten (s : State) (h : Hdr) (w : Nat) (d : VReg) (res : Nat → Nat × BitVec 6) (t : State) : Prop :=
  ∃ l : Line, lanesInto w (s.rd.gmask h) (s.rd.getV d) res l ∧
    t = (s.onRegs fun r => r.setV d l).raise (flagsOf (sel w (s.rd.gmask h)) (fun j => (res j).2) (512 / w))

theorem lanesWritten_putLanes {s : State} {h : Hdr} {w : Nat} {d : VReg} {out res : Nat → Nat × BitVec 6}
    (hr : ∀ j < 512 / w, SameResult w (out j) (res j)) : LanesWritten s h w d res (s.putLanes h w d ((upTo (512 / w)).map out)) := by
  refine ⟨(laneWrite w (s.rd.gmask h) (s.rd.getV d) ((upTo (512 / w)).map out)).1, fun j hj => ?_, ?_⟩
  · rw [← (hr j hj).1]
    exact el_laneMix (sel w (s.rd.gmask h)) _ out hj
  · rw [← flagsOf_congr (fun _ _ => rfl) fun j hj _ => (hr j hj).2, ← laneWrite_flags w (s.rd.gmask h) (s.rd.getV d) out]
    rfl

/-! ### Sixteen results placed by part -/

theorem flagsOf_add (on : Nat → Bool) (f : Nat → BitVec 6) (m n : Nat) :
    flagsOf on f (m + n) = flagsOf on f m ||| flagsOf (fun j => on (m + j)) (fun j => f (m + j)) n := by
  induction n with
  | zero => simp [flagsOf]
  | succ n ih => rw [← Nat.add_assoc, flagsOf, ih, flagsOf, BitVec.or_assoc]

theorem flagsOf_off {on : Nat → Bool} (f : Nat → BitVec 6) {n : Nat} (h : ∀ j < n, on j = false) : flagsOf on f n = 0#6 := by
  induction n with
  | zero => rfl
  | succ n ih =>
    rw [flagsOf, ih fun j hj => h j (hj.trans (Nat.lt_succ_self n)), h n (Nat.lt_succ_self n), BitVec.zero_or]
    rfl

/-- Guard bit i governs result i, at element 16 × part + i (R162). -/
def partOn (part : Nat) (gm : Pred) (j : Nat) : Bool := decide (j / 16 = part) && gm.getLsbD (j % 16)

theorem partOn_elsewhere {part j : Nat} (gm : Pred) (h : j / 16 ≠ part) : partOn part gm j = false := by
  rw [partOn, decide_eq_false h, Bool.false_and]

/-- Of the elements of a view, those of one part raise the flags of sixteen results. -/
theorem flagsOf_partOn {part n : Nat} (gm : Pred) (f : Nat → BitVec 6) (h : 16 * part + 16 ≤ n) :
    flagsOf (partOn part gm) (fun j => f (j % 16)) n = flagsOf gm.getLsbD f 16 := by
  obtain ⟨above, rfl⟩ : ∃ above, n = 16 * part + 16 + above := ⟨n - (16 * part + 16), by omega⟩
  have hbelow : flagsOf (partOn part gm) (fun j => f (j % 16)) (16 * part) = 0#6 := flagsOf_off _ fun j hj => partOn_elsewhere gm (by omega)
  have habove : flagsOf (fun j => partOn part gm (16 * part + 16 + j)) (fun j => f ((16 * part + 16 + j) % 16)) above = 0#6 :=
    flagsOf_off _ fun j _ => partOn_elsewhere gm (by omega)
  rw [flagsOf_add, flagsOf_add, hbelow, habove, BitVec.zero_or, BitVec.or_zero]
  refine flagsOf_congr (fun j hj => ?_) fun j hj _ => by rw [Nat.mul_add_mod, Nat.mod_eq_of_lt hj]
  rw [partOn, Nat.mul_add_mod, Nat.mod_eq_of_lt hj, decide_eq_true (by omega), Bool.true_and]

section
variable {w part : Nat} (gm : Pred) (old : Line) (res : Nat → Nat × BitVec 6)

/-- Placing sixteen results by part is mixing the results of a whole view of which one part is on. -/
theorem partWrite_eq_laneMix :
    let x := laneMix w (partOn part gm) old 0 ((upTo (512 / w)).map fun j => if j / 16 = part then res (j % 16) else (0, 0))
    partWrite w part gm old ((upTo 16).map res) = (BitVec.ofNat 512 x.1, x.2) := by
  have hall : (upTo (512 / w)).map (fun j => if j / 16 = part then (((upTo 16).map res)[j % 16]?).getD (0, 0) else (0, 0)) =
      (upTo (512 / w)).map fun j => if j / 16 = part then res (j % 16) else (0, 0) := by simp [upTo_eq_range, Nat.mod_lt]
  rw [partWrite, hall]
  rfl

theorem partInto_partWrite : partInto w part gm old res (partWrite w part gm old ((upTo 16).map res)).1 := by
  intro j hj
  rw [partWrite_eq_laneMix, el_laneMix _ _ _ hj]
  by_cases hp : j / 16 = part <;> simp [partOn, hp]

theorem partWrite_flags (hfit : 16 * part + 16 ≤ 512 / w) :
    (partWrite w part gm old ((upTo 16).map res)).2 = flagsOf gm.getLsbD (fun j => (res j).2) 16 := by
  rw [partWrite_eq_laneMix, laneMix_flags, ← flagsOf_partOn gm _ hfit]
  exact flagsOf_congr (fun _ _ => rfl) fun j _ hj => by rw [if_pos (of_decide_eq_true (Bool.and_eq_true_iff.mp hj).1)]

end

/-- Sixteen results are written to a part of d and their flags raised, and nothing else happens (R162, R168). -/
def PartWritten (s : State) (h : Hdr) (w : Nat) (d : VReg) (part : Nat) (res : Nat → Nat × BitVec 6) (t : State) : Prop :=
  ∃ l : Line, partInto w part (s.rd.gmask h) (s.rd.getV d) res l ∧
    t = (s.onRegs fun r => r.setV d l).raise (flagsOf (fun j => (s.rd.gmask h).getLsbD j) (fun j => (res j).2) 16)

theorem partWritten_partWrite {s : State} {h : Hdr} {w : Nat} {d : VReg} {part : Nat} {res : Nat → Nat × BitVec 6}
    (hfit : 16 * part + 16 ≤ 512 / w) :
    let x := partWrite w part (s.rd.gmask h) (s.rd.getV d) ((upTo 16).map res)
    PartWritten s h w d part res ((s.onRegs fun r => r.setV d x.1).raise x.2) :=
  ⟨_, partInto_partWrite _ _ _, congrArg _ (partWrite_flags _ _ _ hfit)⟩

end Sys2Proof.Machine
end

section
/-! The elements of the class 0x6 results are those of the tables (O2, R172). -/
namespace Sys2Proof.Machine
open Sys2Proof.Manual

/-! ### Two operands (R172) -/

theorem ofNat_toNat_self {w : Nat} (x : BitVec w) : BitVec.ofNat w x.toNat = x := by rw [BitVec.ofNat_toNat, BitVec.setWidth_eq]

section
variable {w : Nat} (a b : BitVec w)

theorem ofNat_rAdd : BitVec.ofNat w (rAdd w a.toNat b.toNat) = resAdd w a b := by
  apply BitVec.eq_of_toNat_eq
  simp [rAdd, resAdd]

theorem ofNat_rSub : BitVec.ofNat w (rSub w a.toNat b.toNat) = resSub w a b := by
  have hb := b.isLt
  apply BitVec.eq_of_toNat_eq
  rw [rSub, resSub, BitVec.toNat_ofNat, BitVec.toNat_sub, Nat.mod_mod]
  congr 1
  omega

theorem ofNat_rMul : BitVec.ofNat w (rMul w a.toNat b.toNat) = resMul w a b := by
  rw [rMul, resMul, ofNat_modPow, signedOf_toNat, signedOf_toNat, BitVec.ofInt_mul, BitVec.ofInt_toInt, BitVec.ofInt_toInt]

theorem ofNat_rAndd : BitVec.ofNat w (rAndd w a.toNat b.toNat) = resAnd w a b := by
  rw [rAndd, resAnd, ← BitVec.toNat_and, ofNat_toNat_self]

theorem ofNat_rOrr : BitVec.ofNat w (rOrr w a.toNat b.toNat) = resOr w a b := by
  rw [rOrr, resOr, ← BitVec.toNat_or, ofNat_toNat_self]

theorem ofNat_rXor : BitVec.ofNat w (rXor w a.toNat b.toNat) = resXor w a b := by
  rw [rXor, resXor, ← BitVec.toNat_xor, ofNat_toNat_self]

theorem ofNat_rShl : BitVec.ofNat w (rShl w a.toNat b.toNat) = resShl w a b := by
  rw [rShl, resShl, ← Nat.shiftLeft_eq, ← BitVec.toNat_shiftLeft, ofNat_toNat_self]

theorem ofNat_rShr : BitVec.ofNat w (rShr w a.toNat b.toNat) = resShr w a b := by
  rw [rShr, resShr, ← Nat.shiftRight_eq_div_pow, ← BitVec.toNat_ushiftRight, ofNat_toNat_self]

theorem ofNat_rSra : BitVec.ofNat w (rSra w a.toNat b.toNat) = resSra w a b := by
  rw [rSra, resSra, ofNat_modPow, signedOf_toNat, BitVec.sshiftRight, Int.shiftRight_eq_div_pow]
  norm_cast

theorem ofNat_rMin : BitVec.ofNat w (rMin w a.toNat b.toNat) = resMin w a b := by
  rw [rMin, resMin, signedOf_toNat, signedOf_toNat, apply_ite (BitVec.ofNat w), ofNat_toNat_self,
    ofNat_toNat_self]

theorem ofNat_rMax : BitVec.ofNat w (rMax w a.toNat b.toNat) = resMax w a b := by
  rw [rMax, resMax, signedOf_toNat, signedOf_toNat, apply_ite (BitVec.ofNat w), ofNat_toNat_self,
    ofNat_toNat_self]

theorem ofNat_rMinu : BitVec.ofNat w (rMinu w a.toNat b.toNat) = resMinu w a b := by
  rw [rMinu, resMinu]
  split
  next h => exact (congrArg (BitVec.ofNat w) (Nat.min_eq_left (BitVec.le_def.mp h))).trans (ofNat_toNat_self _)
  next h => exact (congrArg (BitVec.ofNat w) (Nat.min_eq_right (Nat.le_of_not_le (mt BitVec.le_def.mpr h)))).trans (ofNat_toNat_self _)

theorem ofNat_rMaxu : BitVec.ofNat w (rMaxu w a.toNat b.toNat) = resMaxu w a b := by
  rw [rMaxu, resMaxu]
  split
  next h => exact (congrArg (BitVec.ofNat w) (Nat.max_eq_left (BitVec.le_def.mp h))).trans (ofNat_toNat_self _)
  next h => exact (congrArg (BitVec.ofNat w) (Nat.max_eq_right (Nat.le_of_not_le (mt BitVec.le_def.mpr h)))).trans (ofNat_toNat_self _)

end

/-- An operation on numbers that agrees with one on bit vectors gives its element (R172). -/
theorem sameResult_int2 {w : Nat} {op : Nat → Nat → Nat → Nat} {f : (w : Nat) → BitVec w → BitVec w → BitVec w}
    (hop : ∀ a b : BitVec w, BitVec.ofNat w (op w a.toNat b.toNat) = f w a b) (x y : Line) (j : Nat) :
    SameResult w (noFlag (op w (elem w x j) (elem w y j))) (int2 w f x y j) := by
  refine ⟨?_, rfl⟩
  rw [← toNat_el, ← toNat_el]
  refine (hop _ _).trans ?_
  rw [int2, quiet, ofNat_toNat_self]

/-- A number and the bit vector of that value are one result, which raises no flag. -/
theorem sameResult_quiet {w n : Nat} {x : BitVec w} (h : BitVec.ofNat w n = x) : SameResult w (noFlag n) (quiet x) := by
  refine ⟨?_, rfl⟩
  rw [quiet, ofNat_toNat_self]
  exact h

/-! ### Selected elements (R172) -/

theorem prefixOf_eq (w : Nat) (p : Pred) (j : Nat) : prefixOf w p j = prefixCount w p j := by
  induction j with
  | zero => rfl
  | succ j ih => rw [prefixOf, prefixCount, ih]; rfl

theorem prefixCount_le (w : Nat) (p : Pred) (j : Nat) : prefixCount w p j ≤ j := by
  induction j with
  | zero => exact le_rfl
  | succ j ih =>
    rw [prefixCount]
    split <;> omega

/-- Where every selector is set, the count of those before an element is its number. -/
theorem prefixCount_all {w : Nat} {p : Pred} {n : Nat} (h : ∀ j < n, sel w p j = true) : prefixCount w p n = n := by
  induction n with
  | zero => rfl
  | succ n ih => rw [prefixCount, ih fun j hj => h j (hj.trans (Nat.lt_succ_self n)), h n (Nat.lt_succ_self n)]; rfl

/-- The nth of the selected elements. -/
theorem getElem?_filter_sel (w : Nat) (p : Pred) (j k n : Nat) : ((List.range' j k).filter (sel w p))[n]? = nthSet w p j k n := by
  induction k generalizing j n with
  | zero => rfl
  | succ k ih =>
    rw [List.range'_succ]
    by_cases hs : sel w p j = true
    · rw [List.filter_cons_of_pos hs]
      cases n with
      | zero => exact (if_pos hs).symm
      | succ n => exact (ih (j + 1) n).trans (if_pos hs).symm
    · rw [List.filter_cons_of_neg hs, ih]
      exact (if_neg hs).symm

/-- The elements that VCMPRS packs. -/
theorem packed_eq (w : Nat) (p : Pred) (l : Line) :
    (((elems w l).zipIdx.filter fun x => selBit w p x.2).map (·.1)) = ((List.range (512 / w)).filter (sel w p)).map (elem w l) := by
  have hzip : (elems w l).zipIdx = (List.range (512 / w)).map fun j => (elem w l j, j) := by
    rw [elems, upTo_eq_range]
    exact List.ext_getElem (by simp) fun j _ _ => by simp
  rw [hzip, List.filter_map, List.map_map]
  rfl

theorem setAt_eq_set {α : Type} (l : List α) (j : Nat) (v : α) : setAt l j v = l.set j v := by
  induction l generalizing j with
  | nil => rfl
  | cons x t ih =>
    cases j with
    | zero => rfl
    | succ j => exact congrArg (x :: ·) (ih j)

theorem set_map_upTo {α : Type} (f : Nat → α) (n k : Nat) (v : α) :
    ((upTo n).map f).set k v = (upTo n).map fun j => if j = k then v else f j :=
  List.ext_getElem (by simp) fun j _ _ => by simp [List.getElem_set, getElem_upTo, eq_comm]

end Sys2Proof.Machine
end

section
/-! Lane-guarded instructions, and conversions to a narrower format (O2, R161, R162, R166 to R168, R172, R174). -/
namespace Sys2Proof.Machine
open Sys2Proof.Manual

/-! ### Widths (R161, R168) -/

/-- Formats of different widths that VCVT converts between: the wide one has 32 bits, the narrow one 8 or 16. -/
theorem vcvtOk_bits {t src : NFmt} : vcvtOk t src = true → t.bits ≠ src.bits →
    max t.bits src.bits = 32 ∧ (min t.bits src.bits = 8 ∨ min t.bits src.bits = 16) := by
  cases t <;> cases src <;> decide

/-- A part of VCVT lies within the register of the narrow format. -/
theorem vcvtPart_fits {t src : NFmt} {part : BitVec 2} (hok : vcvtOk t src = true) (hp : vcvtPart t src part = true)
    (hne : t.bits ≠ src.bits) : max t.bits src.bits = 32 ∧ 16 * part.toNat + 16 ≤ 512 / min t.bits src.bits := by
  obtain ⟨hmax, hmin⟩ := vcvtOk_bits hok hne
  have hlt : part.toNat < 32 / min t.bits src.bits := by
    rw [vcvtPart, if_neg (by simpa using hne)] at hp
    exact of_decide_eq_true hp
  refine ⟨hmax, ?_⟩
  obtain h | h := hmin <;> rw [h] at hlt ⊢ <;> omega

theorem fmtBits_narrow {f : Fmt} (h : f ≠ .f32) : fmtBits' f = 16 := by
  cases f with
  | f32 => exact absurd rfl h
  | f16 | bf16 => rfl

/-- The elements of a view lie in sixteen lanes. -/
def SixteenLanes (w : Nat) : Prop := 0 < 32 / w ∧ 512 / w = 16 * (32 / w)

theorem sixteenLanes_fmt (f : Fmt) : SixteenLanes (fmtBits' f) := by
  unfold SixteenLanes
  cases f <;> decide

theorem sixteenLanes_view (vw : View) : SixteenLanes (viewW vw) := by
  unfold SixteenLanes
  cases vw <;> decide

theorem SixteenLanes.lane_lt {w j : Nat} (hw : SixteenLanes w) (h : j < 512 / w) : j / (32 / w) < 16 := by
  rw [hw.2] at h
  exact Nat.div_lt_of_lt_mul (by rwa [Nat.mul_comm])

/-! ### The results of the bodies -/

section
variable {s : State} {h : Hdr} {w u : Nat} {d e : VReg} {out res val : Nat → Nat × BitVec 6} {l : List (Nat × BitVec 6)}

/-- An instruction that puts the elements that a table lists, where the two agree. -/
theorem lanesWritten_of_table (hv : some (u, e, val) = some (w, d, res)) (hl : l = (upTo (512 / u)).map out)
    (hr : ∀ j < 512 / u, SameResult u (out j) (val j)) : LanesWritten s h w d res (s.putLanes h u e l) := by
  cases hv
  subst hl
  exact lanesWritten_putLanes hr

/-- Elements that the table computes in the same way. -/
theorem sameResult_rfl {w n : Nat} (f : Nat → Nat × BitVec 6) : ∀ j < n, SameResult w (f j) (f j) := fun _ _ => ⟨rfl, rfl⟩

theorem lanesWritten_vf1 {f : Fmt} {a : VReg} {op : Nat → Nat × BitVec 6}
    (hv : some (fmtBits' f, e, fun j => op (elem (fmtBits' f) (s.rd.getV a) j)) = some (w, d, res)) :
    LanesWritten s h w d res (s.vf1 h f e a op) := lanesWritten_of_table hv (map_elems ..) (sameResult_rfl _)

theorem lanesWritten_vf2 {f : Fmt} {a b : VReg} {op : Nat → Nat → Nat × BitVec 6}
    (hv : some (fmtBits' f, e, fun j => op (elem (fmtBits' f) (s.rd.getV a) j) (elem (fmtBits' f) (s.rd.getV b) j)) = some (w, d, res)) :
    LanesWritten s h w d res (s.vf2 h f e a b op) := lanesWritten_of_table hv (map2_elems ..) (sameResult_rfl _)

theorem map3_elems (w : Nat) (f : Nat → Nat → Nat → Nat × BitVec 6) (x y z : Line) :
    map3 f (elems w x) (elems w y) (elems w z) = (upTo (512 / w)).map fun j => f (elem w x j) (elem w y j) (elem w z j) := by
  simp [map3, elems, List.zip_map']

theorem lanesWritten_vf3 {f : Fmt} {a b c : VReg} {op : Nat → Nat → Nat → Nat × BitVec 6}
    (hv : some (fmtBits' f, e, fun j => op (elem (fmtBits' f) (s.rd.getV a) j) (elem (fmtBits' f) (s.rd.getV b) j)
      (elem (fmtBits' f) (s.rd.getV c) j)) = some (w, d, res)) :
    LanesWritten s h w d res (s.vf3 h f e a b c op) := lanesWritten_of_table hv (map3_elems ..) (sameResult_rfl _)

theorem lanesWritten_vi2 {vw : View} {a b : VReg} {op : Nat → Nat → Nat → Nat} {f : (w : Nat) → BitVec w → BitVec w → BitVec w}
    (hop : ∀ a b : BitVec (viewW vw), BitVec.ofNat (viewW vw) (op (viewW vw) a.toNat b.toNat) = f (viewW vw) a b)
    (hv : some (viewW vw, e, int2 (viewW vw) f (s.rd.getV a) (s.rd.getV b)) = some (w, d, res)) :
    LanesWritten s h w d res (s.vi2 h vw e a b op) :=
  lanesWritten_of_table hv (map2_elems ..) fun j _ => sameResult_int2 hop _ _ j

/-- A conversion between formats of one width, or to a wider one (R168). -/
theorem lanesWritten_vcvt {rm : Rm} {part : BitVec 2} {t src : NFmt} {a : VReg} (hwf : Instr.wf (.vcvt h rm part t src e a) = true)
    (hv : vLanes s.rd (.vcvt h rm part t src e a) = some (w, d, res)) : LanesWritten s h w d res (doVcvt h rm part t src e a s) := by
  obtain ⟨hok, hp⟩ := Bool.and_eq_true_iff.mp hwf
  rw [vLanes] at hv
  split at hv
  next hle =>
    rw [doVcvt]
    obtain heq | hlt := hle.eq_or_lt
    · rw [if_pos heq.symm]
      refine lanesWritten_of_table (out := fun j => convert (s.mode rm) t src (elem src.bits (s.rd.getV a) j)) hv ?_ fun j _ => ?_
      · rw [map_elems, heq]
      · rw [if_pos heq]
        exact ⟨rfl, rfl⟩
    · rw [if_neg hlt.ne', if_neg hlt.not_gt]
      obtain ⟨hmax, hfit⟩ := vcvtPart_fits hok hp hlt.ne'
      rw [max_eq_left hle] at hmax
      rw [min_eq_right hle] at hfit
      refine lanesWritten_of_table (out := fun j => convert (s.mode rm) t src (elem src.bits (s.rd.getV a) (16 * part.toNat + j))) hv ?_
        fun j _ => ?_
      · rw [hmax, elems, take_drop_map_upTo _ hfit, List.map_map]
        rfl
      · rw [if_neg hlt.ne]
        exact ⟨rfl, rfl⟩
  · cases hv

/-- Element i of a block, dequantised to a format: through FP32, which is exact and raises nothing there (R174). -/
def dequantised (r : Regs) (rm : Rm) (f : Fmt) (bx : Bx) (a : VReg) (c : Option GReg) (i : Nat) : Nat × BitVec 6 :=
  let pair := pairOf bx (r.getV a) (c.map fun g => ((r.getG g).setWidth 16).toNat)
  let x := putNum f (modeIn r.frm rm) (bxValue bx pair.1 pair.2 (elem (bxBits bx) (r.getV a) i))
  (x.1, if f = .f32 then 0 else x.2)

theorem doVdqnt_eq (rm : Rm) (part : BitVec 2) (f : Fmt) (bx : Bx) (a : VReg) (c : Option GReg) : doVdqnt h rm part f bx e a c s =
    s.putLanes h (fmtBits' f) e (if f = .f32 then (((upTo 32).map (dequantised s.rd rm f bx a c)).drop (16 * part.toNat)).take 16
      else (upTo 32).map (dequantised s.rd rm f bx a c)) := by
  simp only [doVdqnt, blockVals, List.map_map]
  rfl

theorem lanesWritten_vdqnt {rm : Rm} {part : BitVec 2} {f : Fmt} {bx : Bx} {a : VReg} {c : Option GReg}
    (hwf : Instr.wf (.vdqnt h rm part f bx e a c) = true) (hv : vLanes s.rd (.vdqnt h rm part f bx e a c) = some (w, d, res)) :
    LanesWritten s h w d res (doVdqnt h rm part f bx e a c s) := by
  have hpart : part.toNat ≤ 1 := by
    simp only [Instr.wf, Bool.and_eq_true, Bool.or_eq_true, beq_iff_eq] at hwf
    obtain ⟨rfl | ⟨-, rfl⟩, -⟩ := hwf <;> decide
  rw [doVdqnt_eq]
  by_cases hf : f = .f32
  · rw [if_pos hf, take_drop_map_upTo _ (by omega)]
    refine lanesWritten_of_table (out := fun j => dequantised s.rd rm f bx a c (16 * part.toNat + j)) hv (by rw [hf]; rfl) fun j _ => ?_
    rw [if_pos hf]
    exact ⟨rfl, rfl⟩
  · rw [if_neg hf]
    refine lanesWritten_of_table (out := dequantised s.rd rm f bx a c) hv (by rw [fmtBits_narrow hf]) fun j _ => ?_
    rw [if_neg hf]
    exact ⟨rfl, rfl⟩

/-! ### Lanes moved and selected (R172) -/

theorem lanesWritten_vsel {vw : View} {a b : VReg} {c : PReg} (hv : vLanes s.rd (.vsel h vw e a b c) = some (w, d, res)) :
    LanesWritten s h w d res (doVsel h vw e a b c s) := by
  refine lanesWritten_of_table hv (by rw [State.ve, State.ve, elems, elems, List.zip_map', mapIdx_map_upTo]) fun j _ => ?_
  refine sameResult_quiet ?_
  exact apply_ite (BitVec.ofNat (viewW vw)) ..

theorem lanesWritten_vshuf {vw : View} {a b : VReg} (hv : vLanes s.rd (.vshuf h vw e a b) = some (w, d, res)) :
    LanesWritten s h w d res (doVshuf h vw e a b s) := by
  refine lanesWritten_of_table hv (map_elems ..) fun j _ => sameResult_quiet ?_
  rw [State.ve, getElem?_elems]
  split <;> rfl

theorem lanesWritten_vbcast {vw : View} {a : GReg} (hv : vLanes s.rd (.vbcast h vw e a) = some (w, d, res)) :
    LanesWritten s h w d res (doVbcast h vw e a s) := by
  refine lanesWritten_of_table (out := fun _ => noFlag ((s.rd.getG a).toNat % 2 ^ viewW vw)) hv (by simp) fun j _ => sameResult_quiet ?_
  rw [← BitVec.toNat_setWidth, ofNat_toNat_self]

theorem lanesWritten_vins {vw : View} {a b : GReg} (hv : vLanes s.rd (.vins h vw e a b) = some (w, d, res)) :
    LanesWritten s h w d res (doVins h vw e a b s) := by
  refine lanesWritten_of_table (out := fun j => noFlag (if j = (s.rd.getG b).toNat % (512 / viewW vw) then (s.rd.getG a).toNat % 2 ^ viewW vw
    else elem (viewW vw) (s.rd.getV e) j)) hv ?_ fun j _ => sameResult_quiet ?_
  · rw [State.ve, elems, setAt_eq_set, set_map_upTo, List.map_map]
    rfl
  rw [← BitVec.toNat_setWidth, apply_ite (BitVec.ofNat (viewW vw)), ofNat_toNat_self]
  rfl

theorem lanesWritten_vcmprs {vw : View} {a : VReg} {c : PReg} (hv : vLanes s.rd (.vcmprs h vw e a c) = some (w, d, res)) :
    LanesWritten s h w d res (doVcmprs h vw e a c s) := by
  refine lanesWritten_of_table hv rfl fun j _ => sameResult_quiet ?_
  rw [State.ve, packed_eq, List.getElem?_map, List.range_eq_range', getElem?_filter_sel]
  cases nthSet (viewW vw) (s.rd.getP c) 0 (512 / viewW vw) j <;> rfl

theorem lanesWritten_vexpnd {vw : View} {a : VReg} {c : PReg} (hv : vLanes s.rd (.vexpnd h vw e a c) = some (w, d, res)) :
    LanesWritten s h w d res (doVexpnd h vw e a c s) := by
  refine lanesWritten_of_table hv rfl fun j hj => sameResult_quiet ?_
  rw [State.ve, prefixOf_eq, getElem?_elems, if_pos ((prefixCount_le ..).trans_lt hj)]
  exact apply_ite (BitVec.ofNat (viewW vw)) ..

theorem lanesWritten_viota {vw : View} {c : Option PReg} (hv : vLanes s.rd (.viota h vw e c) = some (w, d, res)) :
    LanesWritten s h w d res (doViota h vw e c s) := by
  refine lanesWritten_of_table hv rfl fun j hj => sameResult_quiet ?_
  rw [prefixOf_eq]
  cases c with
  | some p => rfl
  | none =>
    refine congrArg _ (prefixCount_all fun i hi => ?_)
    exact (BitVec.getLsbD_allOnes (v := 16)).trans (decide_eq_true ((sixteenLanes_view vw).lane_lt (hi.trans hj)))

end

/-! ### The instructions of the tables -/

/-- What an instruction of the table of lane-guarded results does once its checks have passed. -/
theorem body_of_vLanes {i : Instr} {s : State} {w : Nat} {d : VReg} {res : Nat → Nat × BitVec 6} (hv : vLanes s.rd i = some (w, d, res))
    (hwf : i.wf = true) : LanesWritten s (usesOf i).h w d res (body i s) := by
  cases i with
  | vabs | vneg | vrcp | vrsq | vexp2 | vlog2 => exact lanesWritten_vf1 hv
  | vadd | vsub | vmul | vmin | vmax => exact lanesWritten_vf2 hv
  | vfma | vfms | vfnma => exact lanesWritten_vf3 hv
  | vcvt => exact lanesWritten_vcvt hwf hv
  | vdqnt => exact lanesWritten_vdqnt hwf hv
  | viadd => exact lanesWritten_vi2 ofNat_rAdd hv
  | visub => exact lanesWritten_vi2 ofNat_rSub hv
  | vimul => exact lanesWritten_vi2 ofNat_rMul hv
  | vand => exact lanesWritten_vi2 ofNat_rAndd hv
  | vor => exact lanesWritten_vi2 ofNat_rOrr hv
  | vxor => exact lanesWritten_vi2 ofNat_rXor hv
  | vshl => exact lanesWritten_vi2 ofNat_rShl hv
  | vshr => exact lanesWritten_vi2 ofNat_rShr hv
  | vsra => exact lanesWritten_vi2 ofNat_rSra hv
  | vimin h u =>
    cases u with
    | true => exact lanesWritten_vi2 ofNat_rMinu hv
    | false => exact lanesWritten_vi2 ofNat_rMin hv
  | vimax h u =>
    cases u with
    | true => exact lanesWritten_vi2 ofNat_rMaxu hv
    | false => exact lanesWritten_vi2 ofNat_rMax hv
  | vsel => exact lanesWritten_vsel hv
  | vshuf => exact lanesWritten_vshuf hv
  | vbcast => exact lanesWritten_vbcast hv
  | vins => exact lanesWritten_vins hv
  | vcmprs => exact lanesWritten_vcmprs hv
  | vexpnd => exact lanesWritten_vexpnd hv
  | viota => exact lanesWritten_viota hv
  | _ => cases hv

/-- What a conversion to a narrower format does once its checks have passed. -/
theorem body_of_vNarrow {i : Instr} {s : State} {w part : Nat} {d : VReg} {res : Nat → Nat × BitVec 6}
    (hv : vNarrow s.rd i = some (w, d, part, res)) (hwf : i.wf = true) : PartWritten s (usesOf i).h w d part res (body i s) := by
  cases i with
  | vcvt h rm p t src e a =>
    obtain ⟨hok, hp⟩ := Bool.and_eq_true_iff.mp hwf
    rw [vNarrow] at hv
    split at hv
    next hlt =>
      cases hv
      obtain ⟨hmax, hfit⟩ := vcvtPart_fits hok hp hlt.ne
      rw [max_eq_right hlt.le] at hmax
      rw [min_eq_left hlt.le] at hfit
      have hsrc : (elems src.bits (s.rd.getV a)).map (convert (s.mode rm) t src) =
          (upTo 16).map fun i => convert (modeIn s.rd.frm rm) t src (elem src.bits (s.rd.getV a) i) := by rw [map_elems, hmax]; rfl
      change PartWritten s h t.bits d p.toNat _ (doVcvt h rm p t src d a s)
      rw [doVcvt, if_neg hlt.ne, if_pos hlt, hsrc]
      exact partWritten_partWrite hfit
    · cases hv
  | vsrnd h p f e a b c =>
    cases hv
    have hp : p.toNat ≤ 1 := of_decide_eq_true (Bool.and_eq_true_iff.mp hwf).2
    change PartWritten s h 16 d p.toNat _ (doVsrnd h p f d a b c s)
    rw [doVsrnd, elems, mapIdx_map_upTo, show 512 / 32 = 16 from rfl]
    exact partWritten_partWrite (by omega)
  | _ => cases hv

/-- An instruction that writes a v register at once performs, when it is issued, the body that a reissue performs. -/
theorem exec_of_destV {i : Instr} {r : State} (h : (destV r i).isSome) (s : State) : exec i s = .next (issue i (body i) s) := by
  cases i with
  | vadd | vsub | vmul | vfma | vfms | vfnma | vmin | vmax | vabs | vneg | vrcp | vrsq | vexp2 | vlog2 | vcvt | vred | vdot => rfl
  | viadd | visub | vimul | vand | vor | vxor | vshl | vshr | vsra | vimin | vimax => rfl
  | vsel | vshuf | vbcast | vins | vcmprs | vexpnd | viota => rfl
  | vdqnt | vsrnd | vbxdot => rfl
  | _ => cases h

theorem destV_of_vLanes {i : Instr} {s : State} (h : (vLanes s.cx.regs i).isSome) : (destV s i).isSome := by
  obtain ⟨x, hx⟩ := Option.isSome_iff_exists.mp h
  rw [destV, hx]
  rfl

theorem destV_of_vNarrow {i : Instr} {s : State} (h : (vNarrow s.cx.regs i).isSome) : (destV s i).isSome := by
  obtain ⟨x, hx⟩ := Option.isSome_iff_exists.mp h
  rw [destV, hx]
  cases vLanes s.cx.regs i <;> rfl

theorem destV_of_vSum {i : Instr} {s : State} (h : (vSum s.cx.regs i).isSome) : (destV s i).isSome := by
  obtain ⟨x, hx⟩ := Option.isSome_iff_exists.mp h
  rw [destV, hx]
  cases vLanes s.cx.regs i <;> cases vNarrow s.cx.regs i <;> rfl

/-- A v register and flags, written by an instruction that executes normally. -/
theorem exec_setV_raise {i : Instr} {s : State} {d : VReg} {l : Line} {fl : BitVec 6} (hd : (destV s i).isSome) (hc : Clear i s = true)
    (hb : body i s = (s.onRegs fun r => r.setV d l).raise fl) : exec i s = .next ((s.onRegs fun r => r.setV d l).raise fl).pass :=
  (exec_of_destV hd s).trans (congrArg _ (issue_onRegs hc hb ⟨_, s.onRegs_onRegs ..⟩))

/-- Settles O2: every body writes the results of its table, element by element, and that is all that it does. -/
theorem vectorElements : Obligations.VectorElements := by
  unfold Obligations.VectorElements
  refine ⟨fun i s w d res hv hwf hc => ?_, fun i s w d part res hv hwf hc => ?_⟩
  · have hrd := rd_of_clear hc
    obtain ⟨l, hl, hb⟩ := body_of_vLanes (hrd ▸ hv) hwf
    rw [hrd] at hl hb
    exact ⟨l, hl, exec_setV_raise (destV_of_vLanes (by rw [hv]; rfl)) hc hb⟩
  · have hrd := rd_of_clear hc
    obtain ⟨l, hl, hb⟩ := body_of_vNarrow (hrd ▸ hv) hwf
    rw [hrd] at hl hb
    exact ⟨l, hl, exec_setV_raise (destV_of_vNarrow (by rw [hv]; rfl)) hc hb⟩

end Sys2Proof.Machine
end

section
/-! Comparisons of elements, and sums over the lanes (O3, R75, R169, R171, R172, R174). -/
namespace Sys2Proof.Machine
open Sys2Proof.Manual

/-! ### Predicates of lanes (R169) -/

theorem testBit_ofElems_one {l : List Nat} {i : Nat} (h : i < l.length) : (ofElems 1 l).testBit i = decide (l[i] % 2 = 1) := by
  have hpiece := congrArg BitVec.toNat (ofNat_ofElems_div (w := 1) l 0 h)
  rw [Nat.zero_mul, Nat.add_zero, Nat.one_mul, BitVec.toNat_ofNat, BitVec.toNat_ofNat] at hpiece
  rw [Nat.testBit_eq_decide_div_mod_eq]
  exact decide_eq_decide.mpr (by rw [← hpiece])

theorem getLsbD_lanesAnd (w : Nat) (res : List Bool) {i : Nat} (hi : i < 16) :
    (lanesAnd w res).getLsbD i = ((res.drop (i * (32 / w))).take (32 / w)).all id := by
  have hlen : i < ((upTo 16).map fun i => if ((res.drop (i * (32 / w))).take (32 / w)).all id then 1 else 0).length := by simpa using hi
  rw [lanesAnd, BitVec.getLsbD_ofNat, decide_eq_true hi, Bool.true_and, testBit_ofElems_one hlen, List.getElem_map, getElem_upTo]
  cases ((res.drop (i * (32 / w))).take (32 / w)).all id <;> rfl

theorem predInto_lanesAnd {w : Nat} (hw : SixteenLanes w) (ans : Nat → Bool) : predInto w ans (lanesAnd w ((upTo (512 / w)).map ans)) := by
  obtain ⟨hpos, hcount⟩ := hw
  intro i hi
  have hfit : i * (32 / w) + 32 / w ≤ 512 / w := by
    rw [hcount, ← Nat.succ_mul]
    exact Nat.mul_le_mul_right _ hi
  rw [getLsbD_lanesAnd w _ hi, take_drop_map_upTo _ hfit, List.all_eq_true, List.forall_mem_map]
  constructor
  · rintro hall j - rfl
    have hj := hall (j % (32 / w)) (mem_upTo.mpr (Nat.mod_lt _ hpos))
    rwa [Nat.div_add_mod'] at hj
  · intro hall j hj
    rw [mem_upTo] at hj
    refine hall _ (by omega) ?_
    rw [Nat.mul_comm, Nat.mul_add_div hpos, Nat.div_eq_of_lt hj, Nat.add_zero]

/-- The flags of a list of results are those of all its elements. -/
theorem foldl_flags {α : Type} (g : Nat → α × BitVec 6) (n : Nat) :
    ((upTo n).map g).foldl (fun acc x => acc ||| x.2) 0 = flagsOf (fun _ => true) (fun j => (g j).2) n := by
  induction n with
  | zero => rfl
  | succ n ih => rw [upTo, List.map_append, List.foldl_append, ih]; rfl

theorem map_zip_elems {α : Type} (w : Nat) (f : Nat × Nat → α) (x y : Line) :
    ((elems w x).zip (elems w y)).map f = (upTo (512 / w)).map fun j => f (elem w x j, elem w y j) := by
  rw [elems, elems, List.zip_map', List.map_map]
  rfl

theorem flagsOf_zero (on : Nat → Bool) (n : Nat) : flagsOf on (fun _ => 0) n = 0 := by
  induction n with
  | zero => rfl
  | succ n ih => rw [flagsOf, ih, ite_self, BitVec.or_self]

theorem wrP_raise_zero (s : State) (d : PReg) (p : Pred) : (s.wrP d p).raise 0 = s.wrP d p := by
  have hregs (r : Regs) : r.raise 0 = r := by simp [Regs.raise]
  rw [State.raise, State.wrP, State.onRegs_onRegs]
  exact congrArg s.onRegs (funext fun r => hregs _)

section
variable {h : Hdr} {d : PReg} {a b : VReg} {s : State}

theorem exec_vcmp {f : Fmt} {c : FCond} (hc : Clear (.vcmp h f c d a b) s = true) :
    let ans := fun j => fCmp f c (elem (fmtBits' f) (s.cx.regs.getV a) j) (elem (fmtBits' f) (s.cx.regs.getV b) j)
    exec (.vcmp h f c d a b) s = .next ((s.wrP d (lanesAnd (fmtBits' f) ((upTo (512 / fmtBits' f)).map fun j => (ans j).1))).raise
      (flagsOf (fun _ => true) (fun j => (ans j).2) (512 / fmtBits' f))).pass := by
  intro ans
  refine congrArg Host.Outcome.next (issue_wrP_raise hc ?_)
  rw [doVcmp, fe_of_clear hc, fe_of_clear hc, map_zip_elems, ← foldl_flags, List.map_map]
  rfl

/-- The answers on integers raise no flag. -/
theorem exec_vicmp {vw : View} {c : Cond} (hc : Clear (.vicmp h vw c d a b) s = true) :
    let ans := fun j => holds c (el (viewW vw) (s.cx.regs.getV a) j) (el (viewW vw) (s.cx.regs.getV b) j)
    exec (.vicmp h vw c d a b) s = .next ((s.wrP d (lanesAnd (viewW vw) ((upTo (512 / viewW vw)).map ans))).raise 0).pass := by
  intro ans
  refine congrArg Host.Outcome.next (issue_wrP_raise hc ?_)
  rw [wrP_raise_zero, doVicmp, State.ve, State.ve, rd_of_clear hc, map_zip_elems]
  congr 3
  funext j
  exact (congrArg₂ (condHolds (viewW vw) c) (toNat_el ..).symm (toNat_el ..).symm).trans (condHolds_eq ..)

end

/-! ### The low element (R171, R174) -/

theorem getLsbD_setElem_zero (w : Nat) (l : Line) (x : Nat) {i : Nat} (hi : i < 512) :
    (setElem w l 0 x).getLsbD i = if i < w then x.testBit i else l.getLsbD i := by
  rw [setElem, Nat.mul_zero, Nat.pow_zero, Nat.mul_one, Nat.mul_one, BitVec.getLsbD_or, BitVec.getLsbD_and, BitVec.getLsbD_not,
    BitVec.getLsbD_ofNat, BitVec.getLsbD_ofNat, Nat.testBit_two_pow_sub_one, Nat.testBit_mod_two_pow]
  by_cases hw : i < w <;> simp [hw, hi]

theorem lowInto_setElem {w : Nat} (hw : w ≤ 512) (l : Line) (x : Nat) : lowInto w l x (setElem w l 0 x) := by
  refine ⟨BitVec.eq_of_getLsbD_eq fun i hi => ?_, fun j hj hlt => BitVec.eq_of_getLsbD_eq fun i hi => ?_⟩
  · rw [el_eq_extractLsb', BitVec.getLsbD_extractLsb', Nat.mul_zero, Nat.zero_add, getLsbD_setElem_zero w l x (by omega), if_pos hi,
      BitVec.getLsbD_ofNat]
  · have hfit : w * j + w ≤ 512 := by
      calc w * j + w = w * (j + 1) := by ring
        _ ≤ w * (512 / w) := Nat.mul_le_mul_left _ hlt
        _ ≤ 512 := Nat.mul_div_le ..
    have hlow : w ≤ w * j := Nat.le_mul_of_pos_right _ hj
    rw [el_eq_extractLsb', el_eq_extractLsb', BitVec.getLsbD_extractLsb', BitVec.getLsbD_extractLsb',
      getLsbD_setElem_zero w l x (by omega), if_neg (by omega)]

/-! ### The pairwise tree (R74, R75) -/

/-- Two sums added, with the flags of both and of the addition. -/
def joinSums (add : Nat → Nat → Nat × BitVec 6) (x y : Nat × BitVec 6) : Nat × BitVec 6 := ((add x.1 y.1).1, (add x.1 y.1).2 ||| x.2 ||| y.2)

section
variable (add : Nat → Nat → Nat × BitVec 6)

theorem pairUp_append : ∀ l m : List Nat, Even l.length →
    pairUp add (l ++ m) = ((pairUp add l).1 ++ (pairUp add m).1, (pairUp add l).2 ||| (pairUp add m).2)
  | [], m, _ => by simp [pairUp]
  | [_], _, h => absurd h (by simp)
  | a :: b :: t, m, h => by
    have ih := pairUp_append t m (by simpa [Nat.even_add_one] using h)
    simp only [List.cons_append, pairUp, ih, BitVec.or_assoc]

theorem length_pairUp : ∀ l : List Nat, Even l.length → (pairUp add l).1.length = l.length / 2
  | [], _ => rfl
  | [_], h => absurd h (by simp)
  | a :: b :: t, h => by
    have ih := length_pairUp t (by simpa [Nat.even_add_one] using h)
    simp only [pairUp, List.length_cons, ih]
    omega

theorem pairwise_step {n : Nat} {l : List Nat} (h : 1 < l.length) :
    pairwise add (n + 1) l = ((pairwise add n (pairUp add l).1).1, (pairUp add l).2 ||| (pairwise add n (pairUp add l).1).2) :=
  if_neg (Nat.not_le_of_lt h)

theorem pairwise_single (n : Nat) {l : List Nat} (h : l.length = 1) : pairwise add n l = (l.headD 0, 0) := by
  cases n with
  | zero => rfl
  | succ n => exact if_pos h.le

/-- The tree over two halves joins the trees over each (R75). -/
theorem pairwise_append {k n : Nat} {l m : List Nat} (hk : k ≤ n) (hl : l.length = 2 ^ k) (hm : m.length = 2 ^ k) :
    pairwise add (n + 1) (l ++ m) = joinSums add (pairwise add n l) (pairwise add n m) := by
  induction k generalizing n l m with
  | zero =>
    obtain ⟨a, rfl⟩ := List.length_eq_one_iff.mp hl
    obtain ⟨b, rfl⟩ := List.length_eq_one_iff.mp hm
    rw [pairwise_step add (by simp), pairwise_single add n rfl, pairwise_single add n rfl]
    simp [pairUp, joinSums, pairwise_single]
  | succ k ih =>
    obtain ⟨n, rfl⟩ : ∃ p, n = p + 1 := ⟨n - 1, by omega⟩
    have heven : Even (2 ^ (k + 1)) := (Nat.even_pow' (Nat.succ_ne_zero k)).mpr even_two
    have hhalf : 2 ^ (k + 1) / 2 = 2 ^ k := by omega
    have hone : 1 < 2 ^ (k + 1) := Nat.one_lt_two_pow (Nat.succ_ne_zero k)
    rw [pairwise_step add (by rw [List.length_append]; omega), pairUp_append add l m (hl ▸ heven),
      ih (Nat.le_of_succ_le_succ hk) (by rw [length_pairUp add l (hl ▸ heven), hl, hhalf])
        (by rw [length_pairUp add m (hm ▸ heven), hm, hhalf]),
      pairwise_step add (l := l) (by omega), pairwise_step add (l := m) (by omega)]
    simp only [joinSums, Prod.mk.injEq, true_and]
    ac_rfl

/-- The tree over the leaves from j on. -/
theorem pairwise_leaves (f : Nat → Nat) {k n : Nat} (hk : k ≤ n) (j : Nat) :
    pairwise add n ((List.range' j (2 ^ k)).map f) = treeSum add f k j := by
  induction k generalizing n j with
  | zero => exact pairwise_single add n rfl
  | succ k ih =>
    obtain ⟨n, rfl⟩ : ∃ p, n = p + 1 := ⟨n - 1, by omega⟩
    have hk := Nat.le_of_succ_le_succ hk
    rw [pow_succ, Nat.mul_two, ← List.range'_append_1, List.map_append, pairwise_append add hk (by simp) (by simp), ih hk, ih hk]
    rfl

end

/-- The tree over the lanes of a view. -/
theorem pairwise_lanes (add : Nat → Nat → Nat × BitVec 6) (f : Fmt) (leaf : Nat → Nat) :
    pairwise add 6 ((upTo (512 / fmtBits' f)).map leaf) = treeSum add leaf (levelsOf f) 0 := by
  have hcount : 512 / fmtBits' f = 2 ^ levelsOf f := by cases f <;> rfl
  rw [hcount, upTo_eq_range, List.range_eq_range']
  exact pairwise_leaves add leaf (by cases f <;> decide) 0

/-- The lanes that take part, the others as −0 (R171). -/
theorem partaking_upTo (f : Fmt) (w : Nat) (gm : Pred) (g : Nat → Nat × BitVec 6) (n : Nat) : partaking f w gm ((upTo n).map g) =
    ((upTo n).map fun j => if sel w gm j then (g j).1 else zeroF f true, flagsOf (sel w gm) (fun j => (g j).2) n) := by
  have hflags : flagsOf (fun _ => true) (fun j => (if sel w gm j then g j else (zeroF f true, 0)).2) n = flagsOf (sel w gm) (fun j => (g j).2) n := by
    induction n with
    | zero => rfl
    | succ n ih =>
      rw [flagsOf, flagsOf, ih]
      cases sel w gm n <;> rfl
  have hlist : ((upTo n).map g).mapIdx (fun j x => if laneOn w gm j then x else (zeroF f true, 0)) =
      (upTo n).map fun j => if sel w gm j then g j else (zeroF f true, 0) := mapIdx_map_upTo ..
  rw [partaking, hlist, foldl_flags, hflags, List.map_map]
  refine congrArg (·, _) (List.map_congr_left fun j _ => ?_)
  exact apply_ite Prod.fst ..

/-! ### The sums (R171, R174) -/

/-- A sum's value, to the low element of d, with its flags. -/
def State.putLow (s : State) (w : Nat) (d : VReg) (x : Nat × BitVec 6) : State :=
  (s.onRegs fun r => r.setV d (setElem w (s.rd.getV d) 0 x.1)).raise x.2

theorem doVred_eq (h : Hdr) (f : Fmt) (rm : Rm) (d a : VReg) (s : State) : doVred h f rm d a s = s.putLow (fmtBits' f) d
    (treeSum (fAdd f (s.mode rm)) (fun j => if sel (fmtBits' f) (s.rd.gmask h) j then elem (fmtBits' f) (s.rd.getV a) j else zeroF f true)
      (levelsOf f) 0) := by
  rw [doVred, State.fe, map_elems, partaking_upTo, ← pairwise_lanes]
  rfl

theorem doVdot_eq (h : Hdr) (f : Fmt) (rm : Rm) (d a b : VReg) (s : State) :
    let on := sel (fmtBits' f) (s.rd.gmask h)
    let p := fun j => mulTo32 f (s.mode rm) (elem (fmtBits' f) (s.rd.getV a) j) (elem (fmtBits' f) (s.rd.getV b) j)
    let x := treeSum (fAdd .f32 (s.mode rm)) (fun j => if on j then (p j).1 else zeroF .f32 true) (levelsOf f) 0
    doVdot h f rm d a b s = s.putLow 32 d (x.1, flagsOf on (fun j => (p j).2) (512 / fmtBits' f) ||| x.2) := by
  intro on p x
  rw [doVdot, State.fe, State.fe, map2_elems, partaking_upTo]
  simp only [x, ← pairwise_lanes]
  rfl

theorem doVbxdot_eq (rm : Rm) (bx : Bx) (d a b : VReg) (c : Option GReg) (s : State) :
    let x := blockVals bx (s.rd.getV a) (c.map fun g => ((s.rd.getG g).setWidth 16).toNat)
    let y := blockVals bx (s.rd.getV b) (c.map fun g => ((s.rd.getG g).extractLsb' 16 16).toNat)
    doVbxdot rm bx d a b c s = s.putLow 32 d (accStep (s.mode rm) (elem 32 (s.rd.getV d) 0) (exactDot (x.zip y))) := by
  intro x y
  have hhigh (v : Word) : (v.extractLsb' 16 16).toNat = v.toNat / 65536 % 65536 := by rw [BitVec.extractLsb'_toNat, Nat.shiftRight_eq_div_pow]
  have hlow (v : Word) : (v.setWidth 16).toNat = v.toNat % 65536 := BitVec.toNat_setWidth ..
  simp only [x, y, hhigh, hlow, doVbxdot, Option.map_map]
  rfl

theorem width_of_vSum {r : Regs} {i : Instr} {d : VReg} {w : Nat} {x : Nat × BitVec 6} (hv : vSum r i = some (d, w, x)) : w ≤ 512 := by
  cases i with
  | vred h f => cases hv; cases f <;> decide
  | vdot | vbxdot => cases hv; decide
  | _ => cases hv

/-- What an instruction of the table of sums does once its checks have passed. -/
theorem body_of_vSum {i : Instr} {s : State} {d : VReg} {w : Nat} {x : Nat × BitVec 6} (hv : vSum s.rd i = some (d, w, x)) :
    body i s = s.putLow w d x := by
  cases i with
  | vred => cases hv; exact doVred_eq ..
  | vdot => cases hv; exact doVdot_eq ..
  | vbxdot h rm bx e a b c => cases hv; exact doVbxdot_eq rm bx d a b c s
  | _ => cases hv

/-- Settles O3: a predicate's bits are the lanes of the answers; a list summed level by level is the tree of its halves. A lane that does not
take part enters that tree as −0 and is added as R59 says (log entry 78). -/
theorem vectorReductions : Obligations.VectorReductions := by
  unfold Obligations.VectorReductions
  refine ⟨fun i s d w f hv hc => ?_, fun i s d w x hv hc => ?_⟩
  · cases i with
    | vcmp h f => cases hv; exact ⟨_, predInto_lanesAnd (sixteenLanes_fmt f) _, exec_vcmp hc⟩
    | vicmp h vw =>
      cases hv
      exact ⟨_, predInto_lanesAnd (sixteenLanes_view vw) _, (exec_vicmp hc).trans (by rw [flagsOf_zero])⟩
    | _ => cases hv
  · have hb : body i s = s.putLow w d x := body_of_vSum (by rw [rd_of_clear hc, hv])
    rw [State.putLow, rd_of_clear hc] at hb
    exact ⟨_, lowInto_setElem (width_of_vSum hv) _ x.1, exec_setV_raise (destV_of_vSum (by rw [hv]; rfl)) hc hb⟩

end Sys2Proof.Machine
end

section
/-! A capture that takes a conversion which is not well formed (O15, R168, R175). -/
namespace Sys2Proof.Machine
open Sys2Proof.Manual

/-- VCVT from signed bytes to FP16, a pair of formats that R168 does not list and Instr.wf does not accept. -/
def bytesToHalves : Instr := .vcvt ⟨false, 0, false⟩ .cur 0 .f16 .i8 4 5

/-- A capture of one instruction, which forms. -/
def formingCapture : Capture := { n := 1, s := 0, k := 1, code := [], next := 0 }

/-- A thread about to issue, whose capture forms and whose v5 holds 1 in byte 16 and 0 elsewhere. -/
def capturingState : State :=
  ((State.reset.place 0).onRegs fun r => r.setV 5 (1#512 <<< 128)).onCx fun c => { c with cap := some formingCapture }

/-- The body forms sixteen results, so that an element beyond them is cleared. -/
theorem element_after_bytesToHalves {t : State} (ht : exec bytesToHalves capturingState = .next t) : el 16 (t.cx.regs.getV 4) 16 = 0 := by
  have hissue : issue bytesToHalves (body bytesToHalves) capturingState = t := Host.Outcome.next.inj ht
  rw [← hissue]
  decide +kernel

/-- The table's elements: element j is the conversion of byte j. -/
def halfOfByte (r : Regs) (j : Nat) : Nat × BitVec 6 := convert (modeIn r.frm .cur) .f16 .i8 (elem 8 (r.getV 5) (16 * (0#2).toNat + j))

theorem vLanes_bytesToHalves (r : Regs) : vLanes r bytesToHalves = some (16, 4, halfOfByte r) := rfl

theorem halfOfByte_one : (halfOfByte capturingState.cx.regs 16).1 = 0x3C00 := by decide +kernel

/-- Refutes O15: the statement does not ask, as O2 does, that the captured instruction be well formed. VCVT from signed bytes to FP16 is no pair
of R168; the table lists 32 conversions for it, and the body, which forms sixteen results, clears the elements beyond them. In capturingState
element 16 is to be 1 and becomes 0. -/
theorem not_plankerRuns : ¬ Obligations.PlankerRuns := by
  unfold Obligations.PlankerRuns
  rintro ⟨-, hcapture, -⟩
  obtain ⟨t, q, hq, ht, hd, -, -⟩ := hcapture bytesToHalves capturingState formingCapture 16 4 _ (by decide +kernel) (by decide +kernel)
    (by decide) (by decide +kernel) (by decide +kernel) (by decide +kernel) (vLanes_bytesToHalves _)
  have hon : sel 16 (capturingState.cx.regs.gmask (usesOf bytesToHalves).h) 16 = true := by decide +kernel
  have helem := hq 16 (by decide)
  rw [if_pos hon, ← hd, element_after_bytesToHalves ht, halfOfByte_one] at helem
  exact absurd helem (by decide)

end Sys2Proof.Machine
end

section
/-! A release store of a line that a load of the same thread still waits to place in the snapshot cache (O23, O28, O32, R192, R193). The store
takes the place mark from the load, so that more of the thread has changed than its own new result: the statements say that the results
outstanding are those from before. -/
namespace Sys2Proof.Machine
open Sys2Proof.Manual

/-- A header with no marker under guard p0. -/
def plainHdr : Hdr := ⟨false, 0, false⟩

/-- The word at global address 0, by g0 alone. -/
def wordZero : MemOp := ⟨.g, 0, 0, 0, 0⟩

/-- A load of the word at address 0 into g0. -/
def discardedLoad : Instr := .ld plainHdr .d false 0xFFFF 0 wordZero

/-- A thread that has issued the load: no result is outstanding (R83), and the answer will place its line in the snapshot cache. -/
def placingThread : State := issue discardedLoad (body discardedLoad) (State.reset.place 0)

/-- Whether the oldest result of the issuing thread still places its line. -/
def State.oldestPlaces (s : State) : Option Bool := s.cx.pend.head?.map Pend.fill

theorem oldestPlaces_placingThread : placingThread.oldestPlaces = some true := by decide +kernel

/-- A result added behind those of the placing thread leaves the oldest as it is. -/
theorem oldestPlaces_of_append {t : State} {p : Pend} (h : t.cx.pend = placingThread.cx.pend ++ [p]) : t.oldestPlaces = some true := by
  have hne : placingThread.cx.pend ≠ [] := by decide +kernel
  rw [State.oldestPlaces, h, List.head?_append_of_ne_nil _ hne]
  exact oldestPlaces_placingThread

/-- What an instruction makes of the placing thread's mark is read off its issue. -/
theorem oldestPlaces_of_exec {i : Instr} {s t u : State} {b : Option Bool} (hu : exec i s = .next u) (hb : u.oldestPlaces = b)
    (ht : exec i s = .next t) : t.oldestPlaces = b := by
  rw [← Host.Outcome.next.inj (hu.symm.trans ht), hb]

/-- STREL to the word at address 0. -/
def releaseWord : Instr := .strel plainHdr .d 0 wordZero

/-- Refutes O23: a load into g0 leaves nothing outstanding (R83), so that STREL to its line executes normally; the store that leaves drops the
load's mark to place the line (R193, R210), and the list of the thread's results is no longer the one from before with a new one behind. -/
theorem not_drains : ¬ Obligations.Drains := by
  unfold Obligations.Drains
  rintro ⟨-, hstrel, -⟩
  obtain ⟨t, ht, -, -, -, -, -, -, -, -, p, hp, -⟩ := hstrel plainHdr .d 0 wordZero 0 0 placingThread (by decide +kernel) (by decide)
    (by decide +kernel) (by decide +kernel) (by decide +kernel)
  have hlost : t.oldestPlaces = some false := oldestPlaces_of_exec (u := issue releaseWord (doStrel .d 0 wordZero) placingThread) rfl (by decide +kernel) ht
  rw [oldestPlaces_of_append hp] at hlost
  exact absurd hlost (by decide)

/-- TDSET of entry 0 of a table at address 0. -/
def setEntry : Instr := .tdset plainHdr 0 0

/-- Refutes O28: the thread's launch has no tensor table, so that entry 0 stands at address 0; a load of that line into g0 waits to place it in
the snapshot cache, and the store of TDSET drops the mark (R193, R326): the results outstanding are not those from before. -/
theorem not_tilesAndSlots : ¬ Obligations.TilesAndSlots := by
  unfold Obligations.TilesAndSlots
  rintro ⟨⟨-, -, -, -, -, htdset, -⟩, -⟩
  obtain ⟨t, ht, -, -, -, -, -, -, -, p, hp, -⟩ := htdset plainHdr 0 0 0 placingThread (by decide +kernel) (by decide +kernel) (by decide +kernel)
  have hlost : t.oldestPlaces = some false := oldestPlaces_of_exec (u := issue setEntry (doTdset 0 0) placingThread) rfl (by decide +kernel) ht
  rw [oldestPlaces_of_append hp] at hlost
  exact absurd hlost (by decide)

/-- A store to the word at address 0 that was refused, and which the thread's handler has taken (R356, R357). -/
def takenRefusal : JEnt := { JEnt.reset with st := .refused, taken := true, am := .g, mask := 0xFF, inc := placingThread.cx.inc }

/-- The placing thread, whose core's journal holds the refused store in entry 0. -/
def resendingThread : State := placingThread.onMine fun k => { k with jnl := [(0, takenRefusal)] }

/-- JNLCLR.resend of entry 0. -/
def resendEntry : Instr := .jnlclrResend plainHdr 0

/-- Refutes O32: JNLCLR.resend is to change nothing of the thread but its PC; the store that it sends again drops the mark of a load that waits
to place the same line in the snapshot cache (R193, R373). -/
theorem not_systemRegisters : ¬ Obligations.SystemRegisters := by
  unfold Obligations.SystemRegisters
  rintro ⟨-, -, -, -, -, -, -, hresend, -⟩
  obtain ⟨t, ht, hcx, -⟩ := hresend plainHdr 0 resendingThread (by decide +kernel) (by decide +kernel) (by decide +kernel)
  have hlost : t.oldestPlaces = some false := oldestPlaces_of_exec (u := issue resendEntry (doJnlclrResend 0) resendingThread) rfl (by decide +kernel) ht
  have hkept : t.oldestPlaces = some true := by
    rw [State.oldestPlaces, hcx]
    decide +kernel
  rw [hkept] at hlost
  exact absurd hlost (by decide)

end Sys2Proof.Machine
end

section
/-! What an access finds in order: its address, its own port, the stores before it, and the way that its request takes (R180 to R183, R191,
R207, R214). -/
namespace Sys2Proof.Machine
open Sys2Proof.Manual

section
variable {s : State} {am : Mode} {ea : Word} {n : Nat}

/-- The place of an address in its line (R29). -/
theorem fld_5_0 (ea : Word) : fld ea 5 0 = ea.toNat % 64 := fld_low ea 5

/-- The pool byte that a .l address names (R181). -/
theorem fld_15_0 (ea : Word) : fld ea 15 0 = ea.toNat % 2 ^ 16 := fld_low ea 15

/-! ### Nothing to wait for -/

theorem afterClear_of_isClear {spans : List Span} {k : Cont} {now : State → State} (h : s.isClear s.me.1 s.me.2 spans = true) :
    s.afterClear spans k now = now s := if_pos h

theorem afterDrain_of_isDrained {k : Cont} {now : State → State} (h : s.isDrained s.me.1 s.me.2 = true) : s.afterDrain k now = now s := if_pos h

theorem localGate_of_gateOk {k : State} (h : s.gateOk am ea n = true) : s.localGate am ea n k = k := by
  simp only [State.gateOk, Bool.or_eq_true, decide_eq_true_eq, Option.isNone_iff_eq_none] at h
  unfold State.localGate
  by_cases hm : am = .l
  · rw [if_pos hm, h.resolve_left (not_not.mpr hm)]
  · rw [if_neg hm]

/-! ### Requests that go into the channels (R207) -/

/-- A request goes into the channels unless its place is the thread's own pool. -/
theorem sendReq_of_far {r : Req} (h : ∀ core off ea, r.place ≠ .pool core off false ea) : s.sendReq r = s.send (.req r) := by
  unfold State.sendReq
  split
  case h_7 => rfl
  all_goals exact absurd ‹_› (h _ _ _)

theorem sendReq_of_load {r : Req} {m : Nat} {line : Bool} (h : r.op = .load m line) : s.sendReq r = s.send (.req r) := by
  unfold State.sendReq
  split
  case h_7 => rfl
  all_goals simp_all

theorem placeOf_far {core : Nat} (h : am ≠ .l) (c off : Nat) (a : Word) : placeOf core am ea ≠ .pool c off false a := by
  cases am <;> simp_all [placeOf]

/-- A long result of one request that goes into the channels. -/
theorem startLong_of_sent {p : Pend} {r : Req} (hp : p.reqs = [r]) (hr : ∀ t : State, t.sendReq r = t.send (.req r)) :
    s.startLong p = (s.addPend p).send (.req r) := by
  rw [State.startLong, hp]
  exact hr _

/-- An instruction that executes normally, enters a long result and sends its one request into the channels. -/
theorem farLong_issue_of_pend {i : Instr} {body : State → State} {p : Pend} {place : Place} {op : ROp} (h : Clear i s = true)
    (hb : body s = (s.addPend p).send (.req (s.reqFor place op s.cx.nextTag))) (htag : p.tag = s.cx.nextTag) (hleft : p.left = 1)
    (hgot : p.got = 0) :
    farLong s (issue i body s) p.dest place op ∧ (issue i body s).cx.pend = s.cx.pend ++ [p] := by
  have f := clear_facts h
  rw [issue_pass h hb rfl (by simp) (by simp) (by simp) (by simp)]
  have hpend : ((s.addPend p).send (.req (s.reqFor place op s.cx.nextTag))).pass.cx.pend = s.cx.pend ++ [p] := by simp [State.pass]
  exact ⟨⟨by simp [State.pass], by simp [State.pass], rfl, f.took, by simp [State.pass, f.run], by simp [State.pass], rfl,
    p, hpend, rfl, htag, hleft, hgot⟩, hpend⟩

end

end Sys2Proof.Machine
end

section
/-! PGET, PPUT, PATOM and FBAR (O29, R192, R335 to R339). -/
namespace Sys2Proof.Machine
open Sys2Proof.Manual

section
variable {h : Hdr} {a b : GReg} {disp : BitVec 16} {ea : Word} {s : State}

/-! ### Who is meant (R335 to R337) -/

/-- The selector's peer is none exactly where it names this device as a member that the tenant may use. -/
theorem peerOf_eq_namedPeer {i : Instr} (hc : Clear i s = true) (b : GReg) : s.peerOf b = namedPeer s (s.cx.regs.getG b) := by
  have hself : s.selfPeer (peerSel (s.cx.regs.getG b)) = decide (
      (s.fgroup ((s.cx.regs.getG b).toNat % 2 ^ 8)).getLsbD 0 = true ∧
      (s.fgroup ((s.cx.regs.getG b).toNat % 2 ^ 8)).toNat / 2 ^ 32 % 2 ^ 16 = s.cx.tenant.toNat ∧
      (s.cx.regs.getG b).toNat / 2 ^ 8 % 2 ^ 12 ≤ (s.fgroup ((s.cx.regs.getG b).toNat % 2 ^ 8)).toNat / 2 ^ 20 % 2 ^ 12 ∧
      (s.fgroup ((s.cx.regs.getG b).toNat % 2 ^ 8)).toNat / 2 ^ 8 % 2 ^ 12 = (s.cx.regs.getG b).toNat / 2 ^ 8 % 2 ^ 12) := by
    simp only [State.selfPeer, State.peerOk, fgOk, fgSize, fgRank, peerSel, fld]
    rw [Bool.eq_iff_iff]
    simp [and_assoc]
  have hsel : peerSel (s.cx.regs.getG b) = ((s.cx.regs.getG b).toNat % 2 ^ 8, (s.cx.regs.getG b).toNat / 2 ^ 8 % 2 ^ 12) := by
    simp [peerSel, fld]
  rw [State.peerOf, rd_of_clear hc, hself, hsel]
  simp only [decide_eq_true_eq]
  rfl

theorem peerPlace_far (peer : Option (Nat × Nat)) (c off : Nat) (x : Word) : peerPlace peer ea ≠ .pool c off false x := by
  cases peer <;> simp [peerPlace]

/-! ### PGET (R192, R337, R338) -/

/-- A PGET asks the peer, or the home; the bytes of the thread's own stores stand on top. -/
theorem issue_pgetAt {i : Instr} {body : State → State} {n : Nat} {d : Dest} (hc : Clear i s = true) (hb : body s = s.pgetAt b ea n d) :
    let w := forward s.me.1 (peerSpan (namedPeer s (s.cx.regs.getG b)) ea n) s.cx.sb 0 0
    farLong s (issue i body s) d (peerPlace (namedPeer s (s.cx.regs.getG b)) ea) (.load n false) ∧
      ∃ p, (issue i body s).cx.pend = s.cx.pend ++ [p] ∧ p.fwd = w.1 ∧ p.fmask = w.2 := by
  intro w
  have hsent : s.pgetAt b ea n d = (s.addPend { s.newPend d with
      fwd := w.1, fmask := w.2, reqs := [s.reqFor (peerPlace (namedPeer s (s.cx.regs.getG b)) ea) (.load n false) s.cx.nextTag] }).send
      (.req (s.reqFor (peerPlace (namedPeer s (s.cx.regs.getG b)) ea) (.load n false) s.cx.nextTag)) := by
    rw [State.pgetAt, peerOf_eq_namedPeer hc]
    exact startLong_of_sent rfl fun t => sendReq_of_load rfl
  obtain ⟨hfar, hpend⟩ := farLong_issue_of_pend hc (hb.trans hsent) rfl rfl rfl
  exact ⟨hfar, _, hpend, rfl, rfl⟩

/-! ### PPUT (R337) -/

theorem pcNow_of_clear {i : Instr} (hc : Clear i s = true) : s.pcNow = s.cx.pc := pcNow_of_half (clear_facts hc).half

/-- A store outside .l for which there is room enters the thread's buffer. -/
theorem storeAt_of_room {i : Instr} {am : Mode} {n : Nat} {data : Line} {mask : BitVec 64} {bset : Bool} {peer : Option (Nat × Nat)}
    {sb : List SbEnt} (hc : Clear i s = true) (hm : am ≠ .l)
    (hsb : bufStore s.mine s.me.1 s.cx { s.entry am ea data mask bset with peer := peer } = some sb) :
    s.storeAt am ea n data mask bset peer = s.onCx fun c => { c with sb := sb } := by
  have hpc : s.pcNow = s.cx.pc := pcNow_of_clear hc
  rw [State.entry, ← hpc] at hsb
  rw [State.storeAt, if_neg hm]
  simp only [hsb]

/-- An instruction that executes normally and whose body is a store outside .l for which there is room. -/
theorem issue_storeAt_of_room {i : Instr} {body : State → State} {am : Mode} {n : Nat} {data : Line} {mask : BitVec 64} {bset : Bool}
    {peer : Option (Nat × Nat)} {sb : List SbEnt} (hc : Clear i s = true) (hm : am ≠ .l) (hb : body s = s.storeAt am ea n data mask bset peer)
    (hsb : bufStore s.mine s.me.1 s.cx { s.entry am ea data mask bset with peer := peer } = some sb) :
    issue i body s = (s.onCx fun c => { c with sb := sb }).pass :=
  issue_pass hc (hb.trans (storeAt_of_room hc hm hsb)) rfl (by simp) (by simp) (by simp) (by simp)

/-! ### PATOM (R337) -/

/-- An atomic at a peer, or at home, once the thread's own stores to its bytes have left. -/
theorem exec_patom {wd : Wd} {op : AtomOp} {d : GReg} (hc : Clear (.patom h wd op d a b disp) s = true)
    (hea : soundAt .g (s.cx.regs.getG a) 0 disp (wdWidth wd / 8) = some ea)
    (hclear : s.isClear s.me.1 s.me.2 [peerSpan (namedPeer s (s.cx.regs.getG b)) ea (wdWidth wd / 8)] = true) :
    ∃ t, exec (.patom h wd op d a b disp) s = .next t ∧
      farLong s t (.g d (atomSz wd) (ea.toNat % 64)) (peerPlace (namedPeer s (s.cx.regs.getG b)) ea)
        (.atom op wd (s.cx.regs.getG d) (s.cx.regs.getG (d + 1))) := by
  have hsent : doPatom wd op d a b disp s = (s.addPend { s.newPend (.g d (atomSz wd) (ea.toNat % 64)) with
      reqs := [s.reqFor (peerPlace (namedPeer s (s.cx.regs.getG b)) ea) (.atom op wd (s.cx.regs.getG d) (s.cx.regs.getG (d + 1))) s.cx.nextTag] }).send
      (.req (s.reqFor (peerPlace (namedPeer s (s.cx.regs.getG b)) ea) (.atom op wd (s.cx.regs.getG d) (s.cx.regs.getG (d + 1))) s.cx.nextTag)) := by
    unfold doPatom
    rw [rd_of_clear hc]
    dsimp only
    rw [withAddr_of_soundAt hea, peerOf_eq_namedPeer hc, afterClear_of_isClear hclear, fld_5_0]
    exact startLong_of_sent (by cases wd <;> rfl) fun t => sendReq_of_far (peerPlace_far _)
  exact ⟨_, rfl, (farLong_issue_of_pend hc hsent rfl rfl rfl).1⟩

/-! ### FBAR (R339) -/

/-- The barrier of a group after one more thread of this device has arrived under a count (R339). -/
def State.fbarJoined (s : State) (g n : Nat) : FBarrier :=
  { s.fbar g with
    count := n, local' := (s.fbar g).local' ++ [(s.whoMe, s.cx.nextTag)]
    ranks := if ((s.fbar g).local' ++ [(s.whoMe, s.cx.nextTag)]).length = n then (s.fbar g).ranks ++ [fgRank (s.fgroup g)] else (s.fbar g).ranks
    timer := if (s.fbar g).local'.isEmpty then { elapsed := 0, from' := some s.now, held := [] } else (s.fbar g).timer }

/-- The state in which the issuing thread has arrived at a group's barrier. -/
def State.fbarJoins (s : State) (g n : Nat) : State := (s.onCx fun c => { c with nextTag := s.cx.nextTag + 1 }).setFbar g (s.fbarJoined g n)

theorem cx_fbarJoins (s : State) (g n : Nat) : (s.fbarJoins g n).cx = { s.cx with nextTag := s.cx.nextTag + 1 } :=
  s.cx_onCx fun c => { c with nextTag := s.cx.nextTag + 1 }

theorem fbar_fbarJoins (s : State) (g n x : Nat) : (s.fbarJoins g n).fbar x = if x = g then s.fbarJoined g n else s.fbar x := tgetD_tset ..

/-- An arrival at the barrier of a group that the tenant may use, under the count that is its own, parks. -/
theorem fbarArrive_sound {g n : Nat} (hok : fgOk (s.fgroup g) s.cx.tenant = true) (hrank : fgRank (s.fgroup g) < fgSize (s.fgroup g))
    (hbad : s.fbarBad g n = false) : s.fbarArrive g n = (s.fbarJoins g n).park .group (.reply s.cx.nextTag) .fbarDone := by
  have hr : ¬ fgRank (s.fgroup g) ≥ fgSize (s.fgroup g) := by omega
  simp only [State.fbarArrive, hok, hr, hbad, Bool.not_true, decide_false, Bool.or_self, Bool.false_eq_true, if_false]
  rfl

theorem fbarBad_eq_false {g n : Nat} (h1 : 1 ≤ n) (h2 : n ≤ 2 ^ 24) (h : (s.fbar g).count = 0 ∨ (s.fbar g).count = n) : s.fbarBad g n = false := by
  simp only [State.fbarBad, Bool.or_eq_false_iff, Bool.and_eq_false_iff, beq_eq_false_iff_ne, bne_eq_false_iff_eq, decide_eq_false_iff_not]
  exact ⟨⟨by omega, by omega⟩, h⟩

theorem exec_fbar {g n : Nat} (hc : Clear (.fbar h a b) s = true) (hg : (s.cx.regs.getG a).toNat % 2 ^ 8 = g)
    (hn : (s.cx.regs.getG b).toNat % 2 ^ 32 = n) (hok : fgOk (s.fgroup g) s.cx.tenant = true)
    (hrank : fgRank (s.fgroup g) < fgSize (s.fgroup g)) (hbad : s.fbarBad g n = false) (hd : s.isDrained s.me.1 s.me.2 = true) :
    exec (.fbar h a b) s = .next ((s.fbarJoins g n).park .group (.reply s.cx.nextTag) .fbarDone) := by
  refine congrArg Host.Outcome.next (issue_park hc ?_ rfl (by rw [cx_fbarJoins]) (by rw [cx_fbarJoins]))
  rw [doFbar, rd_of_clear hc]
  simp only [fld_low]
  rw [hg, hn, hbad, if_neg Bool.false_ne_true, afterDrain_of_isDrained hd, fbarArrive_sound hok hrank hbad]

end

/-- Settles O29: each request by the place that its selector names; PPUT by the buffer; FBAR by the barrier that it joins. -/
theorem fabricAccess : Obligations.FabricAccess := by
  unfold Obligations.FabricAccess
  refine ⟨?pget, ?pput, ?patom, ?fbar⟩
  case pget =>
    intro h f a b disp ea s hc n d hea
    cases f with
    | g sz r =>
      have hea' : soundAt .g (s.cx.regs.getG a) 0 disp (ldBytes sz) = some ea := ldBytes_eq_ldN sz ▸ hea
      exact ⟨_, rfl, issue_pgetAt hc (by rw [doPget, rd_of_clear hc, withAddr_of_soundAt hea', ldBytes_eq_ldN, fld_5_0])⟩
    | v r => exact ⟨_, rfl, issue_pgetAt hc (by rw [doPget, rd_of_clear hc, withAddr_of_soundAt hea])⟩
  case pput =>
    intro h f a b disp ea s hc n off hea e sb hsb
    cases f with
    | g sz r =>
      have hea' : soundAt .g (s.cx.regs.getG a) 0 disp (stBytes sz) = some ea := stBytes_eq_stN sz ▸ hea
      exact congrArg Host.Outcome.next (issue_storeAt_of_room hc (by decide) (by
        rw [doPput, rd_of_clear hc, withAddr_of_soundAt hea', fld_5_0, peerOf_eq_namedPeer hc, stBytes_eq_stN]) hsb)
    | v r => exact congrArg Host.Outcome.next (issue_storeAt_of_room hc (by decide) (by
        rw [doPput, rd_of_clear hc, withAddr_of_soundAt hea, peerOf_eq_namedPeer hc]) hsb)
  case patom =>
    intro h wd op d a b disp ea s hc n hea peer hclear
    cases wd <;> exact exec_patom hc hea hclear
  case fbar =>
    intro h a b s hc g n w q hok hrank h1 h2 hcount hd
    refine ⟨_, exec_fbar hc rfl rfl hok hrank (fbarBad_eq_false h1 h2 hcount) hd, ?_⟩
    have hbar (x : Nat) : ((s.fbarJoins g n).park .group (.reply s.cx.nextTag) .fbarDone).fbar x = if x = g then s.fbarJoined g n else s.fbar x :=
      fbar_fbarJoins s g n x
    have hjoined := (hbar g).trans (if_pos rfl)
    have hlen : (q.local' ++ [(s.whoMe, s.cx.nextTag)]).length = q.local'.length + 1 := List.length_append
    refine ⟨?_, ?_, ?_, congrArg FBarrier.count hjoined, congrArg FBarrier.local' hjoined, ?_, fun x hx => (hbar x).trans (if_neg hx)⟩
    · rw [State.cx_park]
    · rw [State.cx_park, cx_fbarJoins]
    · rw [State.cx_park, cx_fbarJoins]
    · rw [← hlen]
      exact congrArg FBarrier.ranks hjoined

end Sys2Proof.Machine
end

section
/-! The bytes of a line: what a merge, a load and a mask of lanes make of them (R29, R38, R192, R195). -/
namespace Sys2Proof.Machine
open Sys2Proof.Manual

section
variable {k : Nat}

theorem getLsbD_el (l : Line) {k j : Nat} (hj : j < 8) : (el 8 l k).getLsbD j = l.getLsbD (8 * k + j) := by
  rw [el_eq_lineByte, lineByte, BitVec.getLsbD_extractLsb']
  simp [hj]

theorem el_or (a b : Line) (k : Nat) : el 8 (a ||| b) k = el 8 a k ||| el 8 b k := by
  simp only [el_eq_lineByte, lineByte, BitVec.extractLsb'_or]

theorem el_zero (k : Nat) : el 8 (0 : Line) k = 0 := by
  rw [el_eq_lineByte, lineByte]
  simp

theorem el_rdLine (m : List Host.Cell) (a : Nat) (hk : k < 64) : el 8 (rdLine m a) k = rdByte m (a + k) := by
  apply BitVec.eq_of_toNat_eq
  have h := fromByte_rdLine m a (show k + 1 ≤ 64 by omega)
  rw [toNat_el]
  simpa [fromByte, elem, rdN] using h

/-- n bytes of a line as a number. -/
theorem fromByte_eq_leNat (l : Line) (off : Nat) : ∀ n, fromByte l off n = leNat (fun k => el 8 l (off + k)) n
  | 0 => by simp [fromByte, leNat, Nat.mod_one]
  | n + 1 => by
    rw [leNat, ← fromByte_eq_leNat l off n, toNat_el, elem, fromByte, fromByte, Nat.mul_succ, Nat.pow_add, Nat.mod_mul, Nat.div_div_eq_div_mul,
      ← Nat.pow_add, ← Nat.mul_add, Nat.mul_comm (2 ^ _), two_pow_eight_mul n]

theorem leNat_congr {f g : Nat → Byte} : ∀ {n}, (∀ k < n, f k = g k) → leNat f n = leNat g n
  | 0, _ => rfl
  | n + 1, h => by rw [leNat, leNat, leNat_congr fun k hk => h k (by omega), h n (by omega)]

theorem leNat_lt (f : Nat → Byte) : ∀ n, leNat f n < 256 ^ n
  | 0 => by simp [leNat]
  | n + 1 => by
    have h := leNat_lt f n
    have hb := (f n).isLt
    rw [leNat, Nat.pow_succ]
    nlinarith

/-! ### Merges -/

/-- A run of c bits, the n-th of a mask, set or not. -/
theorem getLsbD_run {w c : Nat} (hc : 0 < c) (on : Bool) (n b : Nat) :
    (if on then BitVec.ofNat w (2 ^ c - 1) <<< (c * n) else 0 : BitVec w).getLsbD b = (decide (b < w ∧ b / c = n) && on) := by
  have hdiv : b / c = n ↔ c * n ≤ b ∧ b - c * n < c := by
    rw [Nat.div_eq_iff hc, Nat.mul_comm n c]
    omega
  cases on with
  | false => simp
  | true =>
    rw [if_pos rfl, BitVec.getLsbD_shiftLeft, BitVec.getLsbD_ofNat, Nat.testBit_two_pow_sub_one, Bool.eq_iff_iff]
    simp only [Bool.and_eq_true, Bool.not_eq_true', decide_eq_true_eq, decide_eq_false_iff_not, hdiv, and_true]
    omega

theorem getLsbD_spread (m : BitVec 64) (b : Nat) : ∀ n ≤ 64, (spread m n).getLsbD b = (decide (b < 8 * n) && m.getLsbD (b / 8))
  | 0, _ => by simp [spread]
  | n + 1, hn => by
    rw [spread, BitVec.getLsbD_or, getLsbD_spread m b n (by omega), show (0xFF#512) = BitVec.ofNat 512 (2 ^ 8 - 1) by rfl,
      getLsbD_run (by decide)]
    by_cases hb : b / 8 = n
    · subst hb
      simp [show ¬ b < 8 * (b / 8) by omega, show b < 512 by omega, show b < 8 * (b / 8 + 1) by omega]
    · simp [hb, show b < 8 * (n + 1) ↔ b < 8 * n by omega]

/-- A merge takes the bytes that the mask names from the new line (R192). -/
theorem el_mergeLine (old new : Line) (m : BitVec 64) (hk : k < 64) :
    el 8 (mergeLine old new m) k = if m.getLsbD k then el 8 new k else el 8 old k := by
  refine BitVec.eq_of_getLsbD_eq fun j hj => ?_
  have h1 : 8 * k + j < 512 := by omega
  have h2 : (8 * k + j) / 8 = k := by omega
  rw [getLsbD_el _ hj]
  simp only [mergeLine, BitVec.getLsbD_or, BitVec.getLsbD_and, BitVec.getLsbD_not, getLsbD_spread m _ 64 (le_refl _), h1, h2]
  cases m.getLsbD k <;> simp [getLsbD_el _ hj]

/-- The bytes of the lanes that a mask names (R38). -/
theorem getLsbD_laneBytes (p : BitVec 16) (k : Nat) : ∀ n ≤ 16, (laneBytes p n).getLsbD k = (decide (k < 4 * n) && p.getLsbD (k / 4))
  | 0, _ => by simp [laneBytes]
  | n + 1, hn => by
    rw [laneBytes, BitVec.getLsbD_or, getLsbD_laneBytes p k n (by omega), show (0xF#64) = BitVec.ofNat 64 (2 ^ 4 - 1) by rfl,
      getLsbD_run (by decide)]
    by_cases hb : k / 4 = n
    · subst hb
      simp [show ¬ k < 4 * (k / 4) by omega, show k < 64 by omega, show k < 4 * (k / 4 + 1) by omega]
    · simp [hb, show k < 4 * (n + 1) ↔ k < 4 * n by omega]

end

end Sys2Proof.Machine
end

section
/-! Loads from the local store (O19, R183, R191, R192, R195, R197, R200). -/
namespace Sys2Proof.Machine
open Sys2Proof.Manual

section
variable {s : State} {i : Instr} {ea : Word} {n : Nat}

/-! ### Sound addresses (R180 to R182) -/

theorem eaClean_of_soundAt {am : Mode} {base idx : Word} {disp : BitVec 16} (h : soundAt am base idx disp n = some ea) :
    eaClean am ea = true ∧ ea.toNat % n = 0 := by
  unfold soundAt at h
  split at h
  next e he =>
    obtain ⟨hs, hea⟩ := Option.ite_none_right_eq_some.mp h
    cases hea
    simpa [Bool.and_eq_true] using hs
  next => cases h

/-- An access whose address is sound goes on with it (R180 to R182). -/
theorem withOp_of_soundEa {m : MemOp} {k : Word → State} (hc : Clear i s = true) (h : s.soundEa m n = some ea) : s.withOp m n k = k ea := by
  rw [State.withOp, rd_of_clear hc]
  exact withAddr_of_soundAt h

/-- An access aligned to its size stays in its line (R29, R182). -/
theorem mod_add_le_of_aligned {a n : Nat} (hn : n ∣ 64) (ha : a % n = 0) : a % 64 + n ≤ 64 := by
  obtain ⟨q, hq⟩ := hn
  have hmod : a % 64 % n = 0 := by rw [Nat.mod_mod_of_dvd _ ⟨q, hq⟩, ha]
  obtain ⟨c, hc⟩ := Nat.dvd_of_mod_eq_zero hmod
  have hlt : a % 64 < 64 := Nat.mod_lt _ (by decide)
  rw [hc, hq] at hlt
  have hle : c + 1 ≤ q := Nat.lt_of_mul_lt_mul_left hlt
  calc a % 64 + n = n * (c + 1) := by rw [hc, Nat.mul_succ]
    _ ≤ n * q := Nat.mul_le_mul_left n hle
    _ = 64 := hq.symm

theorem ldN_dvd (sz : LdSz) : ldN sz ∣ 64 := by cases sz <;> decide

/-- An instruction that executes normally and changes of its thread no more than an access does: that, and the thread goes on. -/
theorem issue_of_access {t : State} {body : State → State} {r : Regs} {p : List Pend} {tag : Nat} {l : List Reply} {b : List SbEnt}
    (hc : Clear i s = true) (hb : body s = t) (ht : t.took = s.took)
    (hcx : t.cx = { s.cx with regs := r, pend := p, nextTag := tag, landing := l, sb := b }) : issue i body s = t.pass :=
  issue_pass hc hb ht (by rw [hcx]) (by rw [hcx]) (by rw [hcx]) (by rw [hcx])

/-! ### The port (R183, R187, R402) -/

/-- What a .l access needs of its port, in parts. -/
structure PortOk (s : State) (off n : Nat) (need : Need) : Prop where
  refusal : s.localRefusal s.me.1 off n = none
  check   : s.poolCheck s.me.1 off n false s.asker need = none
  clean   : s.mine.poisoned off n = false
  wps     : s.mine.wps = []

theorem portOk_of_localOk {off : Nat} {need : Need} (h : s.localOk off n need = true) : PortOk s off n need := by
  simp only [State.localOk, Bool.and_eq_true, Option.isNone_iff_eq_none, Bool.not_eq_true', List.isEmpty_iff] at h
  obtain ⟨⟨⟨h1, h2⟩, h3⟩, h4⟩ := h
  exact ⟨h1, h2, h3, h4⟩

theorem pLoad_of_portOk {off : Nat} (h : PortOk s off n .r) (a : Word) :
    s.pLoad s.asker s.me.1 off n false a = .done (s.mine.poolLine off) s := by
  have hclean : (s.core s.me.1).poisoned off n = false := h.clean
  rw [State.pLoad, h.check]
  simp only [hclean]
  rw [firePool_of_no_wps h.wps]
  rfl

/-! ### The bytes that the thread sees (R191, R192) -/

/-- The line of a pool with the thread's own stores that have not left in front. -/
def State.localLine (s : State) (off n : Nat) : Line :=
  let f := forward s.me.1 (.pool s.me.1 off n) s.cx.sb 0 0
  mergeLine (s.mine.poolLine off) f.1 f.2

theorem el_localLine {off k : Nat} (hk : off % 64 + k < 64) : el 8 (s.localLine off n) (off % 64 + k) = s.localByte off n k := by
  have haddr : off / 64 * 64 + (off % 64 + k) = off + k := by omega
  rw [State.localLine, el_mergeLine _ _ _ hk, Core.poolLine, el_rdLine _ _ hk, haddr, el_eq_lineByte]
  rfl

theorem loadLocal_of_portOk {d : Dest} {xs : BitVec 16} (hc : Clear i s = true) (h : PortOk s (ea.toNat % 2 ^ 16) n .r) :
    s.loadLocal ea n d xs = (s.onRegs fun r => r.putDest d (s.localLine (ea.toNat % 2 ^ 16) n)).reportLd xs s.cx.pc 8 := by
  have hpc : s.pcNow = s.cx.pc := pcNow_of_clear hc
  simp only [State.loadLocal, fld_15_0, h.refusal, pLoad_of_portOk h, hpc]
  rfl

/-! ### LD and LDACQ -/

/-- A value of the size's bytes, extended (R195). -/
theorem ldExtend_eq_loadedAs {sz : LdSz} {v : Nat} (h : v < 256 ^ ldN sz) : ldExtend sz v = loadedAs sz v := by
  cases sz with
  | b | h | w => exact sextW_eq _ _
  | d => rfl
  | bu | hu | wu => exact congrArg (BitVec.ofNat 64) (Nat.mod_eq_of_lt h)

/-- The register that a .l load of a size leaves. -/
theorem putDest_localLine {sz : LdSz} {d : GReg} (r : Regs) (hal : ea.toNat % ldN sz = 0) :
    r.putDest (gDest d sz ea) (s.localLine (ea.toNat % 2 ^ 16) (ldN sz)) =
      r.setG d (loadedAs sz (leNat (s.localByte (ea.toNat % 2 ^ 16) (ldN sz)) (ldN sz))) := by
  have hline := mod_add_le_of_aligned (ldN_dvd sz) hal
  have hmod : ea.toNat % 64 = ea.toNat % 2 ^ 16 % 64 := by omega
  have hbytes : fromByte (s.localLine (ea.toNat % 2 ^ 16) (ldN sz)) (fld ea 5 0) (ldBytes sz) =
      leNat (s.localByte (ea.toNat % 2 ^ 16) (ldN sz)) (ldN sz) := by
    rw [fld_5_0, hmod, ldBytes_eq_ldN, fromByte_eq_leNat]
    exact leNat_congr fun k hk => el_localLine (by omega)
  rw [gDest, Regs.putDest, hbytes, ldExtend_eq_loadedAs (leNat_lt _ _)]

theorem beside_reportLd (s : State) (xs : BitVec 16) (pc : Word) (lat : Nat) : Beside s (s.reportLd xs pc lat) := by
  unfold State.reportLd
  exact beside_ite (Beside.refl s) (beside_xReport ..)

/-- An instruction that executes normally, writes registers and reports a latency. -/
theorem issue_reportLd {body : State → State} {f : Regs → Regs} {xs : BitVec 16} {pc : Word} {lat : Nat} (hc : Clear i s = true)
    (hb : body s = (s.onRegs f).reportLd xs pc lat) : issue i body s = ((s.onRegs f).reportLd xs pc lat).pass := by
  have h := beside_reportLd (s.onRegs f) xs pc lat
  exact issue_of_access hc hb h.took (h.cx.trans (s.cx_onRegs f))

theorem exec_ld_local {h : Hdr} {sz : LdSz} {nc : Bool} {x : BitVec 16} {d : GReg} {m : MemOp} (hc : Clear (.ld h sz nc x d m) s = true)
    (hm : m.am = .l) (hea : s.soundEa m (ldN sz) = some ea) (hok : s.localOk (ea.toNat % 2 ^ 16) (ldN sz) .r = true) :
    exec (.ld h sz nc x d m) s = .next ((s.wrG d (loadedAs sz (leNat (s.localByte (ea.toNat % 2 ^ 16) (ldN sz)) (ldN sz)))).reportLd
      x s.cx.pc 8).pass := by
  have hal := (eaClean_of_soundAt hea).2
  have hb : doLd sz nc x d m s = (s.onRegs fun r => r.setG d (loadedAs sz (leNat (s.localByte (ea.toNat % 2 ^ 16) (ldN sz)) (ldN sz)))).reportLd
      x s.cx.pc 8 := by
    rw [doLd, ldBytes_eq_ldN, withOp_of_soundEa hc hea, State.loadAt, if_pos hm, loadLocal_of_portOk hc (portOk_of_localOk hok)]
    simp only [putDest_localLine _ hal]
    rfl
  exact congrArg _ (issue_reportLd hc hb)

/-- Emptying the snapshot cache changes of a thread only which results are placed in it. -/
theorem cx_snapEmpty (s : State) : ∃ kept, (s.snapEmpty s.me.1).cx = s.cx.keepFill kept := by
  refine ⟨fun _ => false, ?_⟩
  have hcx : (s.snapEmpty s.me.1).cx = (({ s.mine with snap := [], prefs := [] } : Core).unfill fun _ _ => true).ctx s.me.2 :=
    congrArg (Core.ctx · s.me.2) (s.core_onCore_self s.me.1 _)
  rw [hcx, ctx_unfill, unfill_eq_keepFill]
  rfl

theorem exec_ldacq_local {h : Hdr} {sz : LdSz} {d : GReg} {m : MemOp} (hc : Clear (.ldacq h sz d m) s = true)
    (hm : m.am = .l) (hea : s.soundEa m (ldN sz) = some ea) (hok : s.localOk (ea.toNat % 2 ^ 16) (ldN sz) .r = true) :
    exec (.ldacq h sz d m) s =
      .next ((s.wrG d (loadedAs sz (leNat (s.localByte (ea.toNat % 2 ^ 16) (ldN sz)) (ldN sz)))).snapEmpty s.me.1).pass := by
  have hal := (eaClean_of_soundAt hea).2
  have htook : s.took.isNone = true := by rw [(clear_facts hc).took]; rfl
  have hb : doLdacq sz d m s = (s.wrG d (loadedAs sz (leNat (s.localByte (ea.toNat % 2 ^ 16) (ldN sz)) (ldN sz)))).snapEmpty s.me.1 := by
    rw [doLdacq, ldBytes_eq_ldN, withOp_of_soundEa hc hea, State.loadAt, if_pos hm, loadLocal_of_portOk hc (portOk_of_localOk hok)]
    simp only [putDest_localLine _ hal, State.reportLd, if_true, Bool.true_and, State.onRegs_took, htook]
    rfl
  obtain ⟨kept, hcx⟩ := cx_snapEmpty (s.wrG d (loadedAs sz (leNat (s.localByte (ea.toNat % 2 ^ 16) (ldN sz)) (ldN sz))))
  rw [State.cx_wrG] at hcx
  exact congrArg _ (issue_of_access hc hb rfl hcx)

/-! ### VLD -/

theorem exec_vld_local {h : Hdr} {nc : Bool} {x : BitVec 16} {d : VReg} {m : MemOp} (hc : Clear (.vld h nc x d m) s = true)
    (hm : m.am = .l) (hea : s.soundEa m 64 = some ea) (hok : s.localOk (ea.toNat % 2 ^ 16) 64 .r = true) :
    ∃ l : Line, (∀ k < 64, el 8 l k =
        if Manual.laneOn s.cx.regs h (k / 4) then s.localByte (ea.toNat % 2 ^ 16) 64 k else el 8 (s.cx.regs.getV d) k) ∧
      exec (.vld h nc x d m) s = .next ((s.onRegs fun r => r.setV d l).reportLd x s.cx.pc 8).pass := by
  have hal := (eaClean_of_soundAt hea).2
  have hmod : ea.toNat % 2 ^ 16 % 64 = 0 := by omega
  have hb : doVld h nc x d m s = (s.onRegs fun r => r.setV d (mergeLine (s.cx.regs.getV d) (s.localLine (ea.toNat % 2 ^ 16) 64)
      (laneBytes (s.cx.regs.gmask h) 16))).reportLd x s.cx.pc 8 := by
    rw [doVld, withOp_of_soundEa hc hea, State.loadAt, if_pos hm, loadLocal_of_portOk hc (portOk_of_localOk hok), rd_of_clear hc]
    rfl
  refine ⟨_, fun k hk => ?_, congrArg _ (issue_reportLd hc hb)⟩
  have hbyte := el_localLine (s := s) (off := ea.toNat % 2 ^ 16) (n := 64) (k := k) (by omega)
  rw [hmod, Nat.zero_add] at hbyte
  rw [el_mergeLine _ _ _ hk, hbyte, getLsbD_laneBytes _ _ 16 (le_refl _), decide_eq_true hk, Bool.true_and]
  rfl

end

end Sys2Proof.Machine
end

section
/-! The lanes of VLDX and VSTX: their addresses, and what a .l VLDX reads (O19, O20, R200). -/
namespace Sys2Proof.Machine
open Sys2Proof.Manual

section
variable {s : State} {h : Hdr} {a : GReg} {b : VReg} {sc : BitVec 2} {disp : BitVec 16} {k : Nat}

/-! ### The addresses of the lanes -/

theorem foldlM_append_ok {α β ε : Type} {f : List β → α → Except ε (List β)} {g : α → β} :
    ∀ {l : List α} {acc : List β}, (∀ acc, ∀ x ∈ l, f acc x = .ok (acc ++ [g x])) → l.foldlM f acc = .ok (acc ++ l.map g)
  | [], acc, _ => by simp [pure, Except.pure]
  | x :: l, acc, h => by
    rw [List.foldlM_cons, h acc x (by simp)]
    change l.foldlM f (acc ++ [g x]) = _
    rw [foldlM_append_ok fun acc y hy => h acc y (by simp [hy])]
    simp

/-- The lanes that an instruction performs, in ascending order. -/
def lanesOf (r : Regs) (h : Hdr) : List Nat := (List.range 16).filter fun i => Manual.laneOn r h i

theorem mem_lanesOf {r : Regs} {i : Nat} : i ∈ lanesOf r h ↔ i < 16 ∧ Manual.laneOn r h i = true := by simp [lanesOf]

theorem lanesOf_nodup (r : Regs) (h : Hdr) : (lanesOf r h).Nodup := List.nodup_range.filter _

/-- Lanes whose addresses are all sound are performed in order (R200). -/
theorem laneAddrs_ok {cm : Bool} (hr : s.rd = s.cx.regs)
    (hok : ∀ i ∈ lanesOf s.cx.regs h, eaClean (if cm then .c else .l) (laneEa s.cx.regs a b sc disp i) = true ∧
      (laneEa s.cx.regs a b sc disp i).toNat % 4 = 0 ∧
      (cm = false → s.localRefusal s.me.1 (fld (laneEa s.cx.regs a b sc disp i) 15 0) 4 = none)) :
    s.laneAddrs h cm a b sc disp = .ok ((lanesOf s.cx.regs h).map fun i => (i, laneEa s.cx.regs a b sc disp i)) := by
  have hlanes : ((upTo 16).filter fun i => (s.cx.regs.gmask h).getLsbD i) = lanesOf s.cx.regs h := by rw [upTo_eq_range]; rfl
  unfold State.laneAddrs
  rw [hr, hlanes]
  refine foldlM_append_ok fun acc i hi => ?_
  obtain ⟨hclean, hal, hport⟩ := hok i hi
  have hea : s.cx.regs.getG a + scaled ((word32 (s.cx.regs.getV b) i).setWidth 64) sc + disp64 disp = laneEa s.cx.regs a b sc disp i := by
    have hpow : BitVec.twoPow 64 sc.toNat = BitVec.ofNat 64 (2 ^ sc.toNat) := by
      apply BitVec.eq_of_toNat_eq
      simp
    rw [scaled, BitVec.shiftLeft_eq_mul_twoPow, hpow]
    rfl
  rw [hea]
  cases cm with
  | true => simp_all
  | false => simp_all

/-! ### A word of a line at a lane's place -/

theorem testBit_fromByte (l : Line) (off n j : Nat) : (fromByte l off n).testBit j = (decide (j < 8 * n) && l.getLsbD (8 * off + j)) := by
  rw [fromByte, Nat.testBit_mod_two_pow, Nat.testBit_div_two_pow, BitVec.testBit_toNat, Nat.add_comm j]

/-- n bytes of a line at another place. -/
theorem el_atByte_fromByte (l : Line) {o off n : Nat} (hk : k < 64) :
    el 8 (atByte o (fromByte l off n)) k = if o ≤ k ∧ k < o + n then el 8 l (off + (k - o)) else 0 := by
  refine BitVec.eq_of_getLsbD_eq fun j hj => ?_
  have hin : 8 * k + j < 512 := by omega
  rw [getLsbD_el _ hj, atByte, BitVec.getLsbD_ofNat, Nat.testBit_mul_two_pow, testBit_fromByte]
  split
  next h =>
    have hlo : 8 * o ≤ 8 * k + j := by omega
    have hhi : 8 * k + j - 8 * o < 8 * n := by omega
    rw [getLsbD_el _ hj, show 8 * off + (8 * k + j - 8 * o) = 8 * (off + (k - o)) + j by omega]
    simp [hin, hlo, hhi]
  next h =>
    have hout : ¬ (8 * o ≤ 8 * k + j ∧ 8 * k + j - 8 * o < 8 * n) := by omega
    simp only [not_and] at hout
    by_cases hlo : 8 * o ≤ 8 * k + j
    · simp [hout hlo]
    · simp [hlo]

theorem el_laneWord {i : Nat} {ea : Word} (l : Line) (hk : k < 64) :
    el 8 (laneWord i ea l) k = if k / 4 = i then el 8 l (ea.toNat % 64 + k % 4) else 0 := by
  rw [laneWord, el_atByte_fromByte _ hk, fld_5_0]
  by_cases h : k / 4 = i
  · rw [if_pos h, if_pos (by omega), show k - 4 * i = k % 4 by omega]
  · rw [if_neg h, if_neg (by omega)]

/-! ### VLDX in .l -/

/-- What a .l VLDX reads: each lane's word, the thread's own stores in front (R192, R200). -/
theorem readLanes_of_portOk {ea : Nat → Word} : ∀ {is : List Nat}, is.Nodup →
    (∀ i ∈ is, (ea i).toNat < 2 ^ 16 ∧ (ea i).toNat % 4 = 0 ∧ PortOk s (ea i).toNat 4 .r) →
    ∃ l : Line, s.readLanes (is.map fun i => (i, ea i)) = .ok (l, s) ∧
      ∀ k < 64, el 8 l k = if k / 4 ∈ is then s.localByte (ea (k / 4)).toNat 4 (k % 4) else 0
  | [], _, _ => ⟨0, rfl, fun k _ => (el_zero k).trans (if_neg (List.not_mem_nil)).symm⟩
  | i :: is, hnd, hok => by
    obtain ⟨hi, hnd⟩ := List.nodup_cons.mp hnd
    obtain ⟨l, hl, hbytes⟩ := readLanes_of_portOk hnd fun j hj => hok j (by simp [hj])
    obtain ⟨hlt, hal, hport⟩ := hok i (by simp)
    have hoff : fld (ea i) 15 0 = (ea i).toNat := by rw [fld_15_0, Nat.mod_eq_of_lt hlt]
    have hread : s.readLanes ((i :: is).map fun i => (i, ea i)) = .ok (l ||| laneWord i (ea i) (s.localLine (ea i).toNat 4), s) := by
      rw [List.map_cons, State.readLanes]
      simp only [hoff, pLoad_of_portOk hport, hl]
      rfl
    refine ⟨_, hread, fun k hk => ?_⟩
    rw [el_or, hbytes k hk, el_laneWord _ hk]
    by_cases hki : k / 4 = i
    · subst hki
      rw [if_neg hi, if_pos rfl, if_pos (by simp), el_localLine (by omega)]
      simp
    · simp [hki]

theorem exec_vldx_local {d : VReg} (hc : Clear (.vldx h false d a b sc disp) s = true)
    (hok : ∀ i < 16, Manual.laneOn s.cx.regs h i = true → (laneEa s.cx.regs a b sc disp i).toNat < 2 ^ 16 ∧
      (laneEa s.cx.regs a b sc disp i).toNat % 4 = 0 ∧ s.localOk (laneEa s.cx.regs a b sc disp i).toNat 4 .r = true) :
    ∃ l : Line, (∀ k < 64, el 8 l k = if Manual.laneOn s.cx.regs h (k / 4)
        then s.localByte (laneEa s.cx.regs a b sc disp (k / 4)).toNat 4 (k % 4) else el 8 (s.cx.regs.getV d) k) ∧
      exec (.vldx h false d a b sc disp) s = .next (s.onRegs fun r => r.setV d l).pass := by
  have hlane (i : Nat) (hi : i ∈ lanesOf s.cx.regs h) : (laneEa s.cx.regs a b sc disp i).toNat < 2 ^ 16 ∧
      (laneEa s.cx.regs a b sc disp i).toNat % 4 = 0 ∧ PortOk s (laneEa s.cx.regs a b sc disp i).toNat 4 .r := by
    obtain ⟨h16, hon⟩ := mem_lanesOf.mp hi
    obtain ⟨hlt, hal, hport⟩ := hok i h16 hon
    exact ⟨hlt, hal, portOk_of_localOk hport⟩
  obtain ⟨l, hl, hbytes⟩ := readLanes_of_portOk (lanesOf_nodup s.cx.regs h) hlane
  have haddrs := laneAddrs_ok (cm := false) (rd_of_clear hc) fun i hi => by
    obtain ⟨hlt, hal, hport⟩ := hlane i hi
    exact ⟨by simpa [eaClean, fld_high_eq_zero] using hlt, hal, fun _ => by rw [fld_15_0, Nat.mod_eq_of_lt hlt]; exact hport.refusal⟩
  have hb : doVldx h false d a b sc disp s =
      s.onRegs fun r => r.setV d (mergeLine (s.cx.regs.getV d) l (laneBytes (s.cx.regs.gmask h) 16)) := by
    simp only [doVldx, haddrs, hl, rd_of_clear hc]
    rfl
  refine ⟨_, fun k hk => ?_, congrArg _ (issue_onRegs hc hb ⟨_, rfl⟩)⟩
  have hmem : k / 4 ∈ lanesOf s.cx.regs h ↔ Manual.laneOn s.cx.regs h (k / 4) = true := mem_lanesOf.trans ⟨And.right, fun h => ⟨by omega, h⟩⟩
  rw [el_mergeLine _ _ _ hk, getLsbD_laneBytes _ _ 16 (le_refl _), decide_eq_true hk, Bool.true_and, hbytes k hk]
  simp only [hmem]
  cases hon : Manual.laneOn s.cx.regs h (k / 4) <;> simp_all [Manual.laneOn]

end

end Sys2Proof.Machine
end

section
/-! Loads in .c, .x and .g, which are long results, and the settlement of O19 (R192, R193, R195, R197, R200, R207). -/
namespace Sys2Proof.Machine
open Sys2Proof.Manual

section
variable {s : State} {i : Instr} {ea : Word} {n : Nat} {am : Mode}

/-! ### Counted hits and misses -/

/-- The state after a load of a line that the snapshot cache may keep is counted. -/
def State.counted (s : State) (b : Bool) (n : Nat) : State := if b then s.onMine fun k => k.count n else s

variable (s) (b : Bool) (c : Nat)

theorem beside_counted : Beside s (s.counted b c) := beside_ite (beside_onCore rfl) (Beside.refl s)

@[simp] theorem cx_counted : (s.counted b c).cx = s.cx := (beside_counted s b c).cx
@[simp] theorem me_counted : (s.counted b c).me = s.me := (beside_counted s b c).me
@[simp] theorem mem_counted : (s.counted b c).mem = s.mem := (beside_counted s b c).mem
@[simp] theorem took_counted : (s.counted b c).took = s.took := (beside_counted s b c).took
@[simp] theorem chan_counted : (s.counted b c).chan = s.chan := by cases b <;> rfl
@[simp] theorem now_counted : (s.counted b c).now = s.now := by cases b <;> rfl

@[simp] theorem whoMe_counted : (s.counted b c).whoMe = s.whoMe := by
  change { core := _, ctx := _, inc := (s.counted b c).cx.inc : Who } = _
  rw [cx_counted, me_counted]
  rfl

@[simp] theorem asker_counted : (s.counted b c).asker = s.asker := by rw [State.asker, cx_counted, whoMe_counted]; rfl

variable {s b c}

/-! ### What a load begins -/

/-- A long result of which something is heard when the core itself forms its value. -/
theorem longValue_heard (s : State) {p : Pend} (h : (p.dest.discarded && decide (p.xs = 0xFFFF)) = false) (data : Line) (flags : BitVec 6) :
    s.longValue p data flags = s.onCx fun c => { c with
      nextTag := p.tag + 1, pend := c.pend ++ [p]
      landing := c.landing ++ [{ dst := s.whoMe, tag := p.tag, data := data, flags := flags, fault := none, lane := none }] } := by
  have hwho : (s.addPend p).whoMe = s.whoMe := by
    change { core := s.me.1, ctx := s.me.2, inc := (s.addPend p).cx.inc : Who } = _
    rw [State.addPend, State.cx_onCx]
    rfl
  rw [State.longValue, h, if_neg Bool.false_ne_true, State.answerNow, hwho, State.addPend, State.onCx_onCx]

/-- One of which nothing is. -/
theorem longValue_silent (s : State) {p : Pend} (h : (p.dest.discarded && decide (p.xs = 0xFFFF)) = true) (data : Line) (flags : BitVec 6) :
    s.longValue p data flags = s.onCx fun c => { c with nextTag := p.tag + 1 } := if_pos h

/-- The long result that a load enters, before its request is known. -/
def State.loadPend (s : State) (am : Mode) (ea : Word) (n : Nat) (d : Dest) (acq keeps : Bool) (xs : BitVec 16) : Pend :=
  let f := forward s.me.1 (spanOf s.me.1 am ea n) s.cx.sb 0 0
  { s.newPend d with xs := xs, acq := acq, fwd := f.1, fmask := f.2, fill := keeps }

/-- The load keeps its line in the snapshot cache (R193). -/
def State.loadKeeps (s : State) (am : Mode) (nc acq : Bool) : Bool := decide (am = .g) && !nc && !acq && !partPair s.cx.part

/-- The line of the snapshot cache that answers a load. -/
def State.loadHeld (s : State) (am : Mode) (ea : Word) (nc acq : Bool) : Option Line :=
  if s.loadKeeps am nc acq then s.mine.snapFind s.cx.tenant (fld ea 56 6) else none

/-- The thread's own stores cover the load (R192). -/
def State.loadWhole (s : State) (am : Mode) (ea : Word) (n : Nat) (nc acq : Bool) : Bool :=
  !nc && !acq && decide ((forward s.me.1 (spanOf s.me.1 am ea n) s.cx.sb 0 0).2 &&& byteMask (fld ea 5 0) n = byteMask (fld ea 5 0) n)

theorem loadAt_far (hm : am ≠ .l) (d : Dest) (nc acq : Bool) (xs : BitVec 16) :
    s.loadAt am ea n d nc acq xs =
      if (s.loadHeld am ea nc acq).isSome || s.loadWhole am ea n nc acq then
        (s.counted (s.loadKeeps am nc acq) 0x0D).longValue { s.loadPend am ea n d acq (s.loadKeeps am nc acq) xs with fill := false }
          ((s.loadHeld am ea nc acq).getD 0) 0
      else
        (s.counted (s.loadKeeps am nc acq) 0x0E).startLong { s.loadPend am ea n d acq (s.loadKeeps am nc acq) xs with
          reqs := [(s.counted (s.loadKeeps am nc acq) 0x0E).reqFor (placeOf s.me.1 am ea) (.load n (s.loadKeeps am nc acq)) s.cx.nextTag] } := by
  rw [State.loadAt, if_neg hm]
  rfl

/-- A load in .c, .x or .g begins as R192 to R195 say. -/
theorem issue_loadAt_far {body : State → State} {d : Dest} {nc acq : Bool} {xs : BitVec 16} (hc : Clear i s = true) (hm : am ≠ .l)
    (hb : body s = s.loadAt am ea n d nc acq xs) : loadStarts s (issue i body s) am ea n d nc acq xs := by
  have hf := clear_facts hc
  rw [loadAt_far hm] at hb
  unfold loadStarts
  intro f keeps held whole answered silent
  by_cases ha : answered = true
  · rw [if_pos (show ((s.loadHeld am ea nc acq).isSome || s.loadWhole am ea n nc acq) = true from ha)] at hb
    have hquiet : silent = (d.discarded && decide (xs = 0xFFFF)) := by
      change (answered && d.discarded && _) = _
      rw [ha, Bool.true_and]
    by_cases hs : silent = true
    · rw [longValue_silent _ (hquiet ▸ hs)] at hb
      rw [issue_entersLong hc hb ((beside_counted ..).entersLong.trans (entersLong_onCx rfl))]
      simp [State.pass, hf.took, hf.run, ha, hs]
    · rw [longValue_heard _ (hquiet ▸ Bool.not_eq_true _ ▸ hs)] at hb
      rw [issue_entersLong hc hb ((beside_counted ..).entersLong.trans (entersLong_onCx rfl))]
      simp [State.pass, hf.took, hf.run, ha, hs, State.loadPend, State.newPend]
      exact ⟨rfl, rfl, rfl⟩
  · rw [if_neg (show ¬ ((s.loadHeld am ea nc acq).isSome || s.loadWhole am ea n nc acq) = true from ha)] at hb
    have hs : silent = false := by
      change (answered && d.discarded && _) = _
      rw [eq_false_of_ne_true ha, Bool.false_and, Bool.false_and]
    rw [startLong_of_sent rfl fun t => sendReq_of_load rfl] at hb
    rw [issue_entersLong hc hb ((beside_counted ..).entersLong.trans ((entersLong_addPend ..).trans (beside_send ..).entersLong))]
    simp [State.pass, hf.took, hf.run, ha, hs, State.loadPend, State.newPend, State.reqFor, State.addPend]
    exact ⟨⟨now_counted s _ 0x0E, rfl⟩, rfl, rfl, rfl⟩

end

end Sys2Proof.Machine
end

section
/-! VLDX in .c, and the settlement of O19 (R200, R207). -/
namespace Sys2Proof.Machine
open Sys2Proof.Manual

section
variable {s : State} {h : Hdr} {d : VReg} {a : GReg} {b : VReg} {sc : BitVec 2} {disp : BitVec 16}

/-! ### Masks that cover a word -/

theorem and_eq_right_iff_getLsbD {w : Nat} (x y : BitVec w) : x &&& y = y ↔ ∀ j, y.getLsbD j = true → x.getLsbD j = true := by
  constructor
  · intro he j hj
    rw [← he, BitVec.getLsbD_and, Bool.and_eq_true] at hj
    exact hj.1
  · intro hall
    refine BitVec.eq_of_getLsbD_eq fun j _ => ?_
    rw [BitVec.getLsbD_and]
    cases hy : y.getLsbD j with
    | false => simp
    | true => rw [hall j hy]; rfl

/-- A mask names every byte of a run. -/
theorem and_byteMask_eq_iff (m : BitVec 64) {off n : Nat} (hn : off + n ≤ 64) :
    m &&& byteMask off n = byteMask off n ↔ ∀ j < n, m.getLsbD (off + j) = true := by
  rw [and_eq_right_iff_getLsbD]
  constructor
  · intro hall j hj
    exact hall _ (by rw [getLsbD_byteMask _ hn]; simp [hj])
  · intro hall j hj
    rw [getLsbD_byteMask _ hn, decide_eq_true_eq] at hj
    have hm := hall (j - off) (by omega)
    rwa [Nat.add_sub_cancel' hj.1] at hm

theorem getLsbD_nibble (m : BitVec 64) (q : Nat) {j : Nat} : ((m >>> q) &&& 0xF).getLsbD j = (decide (j < 4) && m.getLsbD (q + j)) := by
  have hf : (0xF : BitVec 64).getLsbD j = decide (j < 4) := by
    have hb := getLsbD_byteMask (off := 0) (n := 4) j (by decide)
    simpa [byteMask] using hb
  rw [BitVec.getLsbD_and, BitVec.getLsbD_ushiftRight, hf, Bool.and_comm]

theorem nibble_eq_iff (m : BitVec 64) (q : Nat) : (m >>> q) &&& 0xF = 0xF ↔ ∀ j < 4, m.getLsbD (q + j) = true := by
  have hb := and_byteMask_eq_iff (m >>> q) (off := 0) (n := 4) (by decide)
  simpa [byteMask] using hb

/-! ### What the thread's own stores supply to the lanes (R192, R200) -/

theorem getLsbD_forwardLanes (core : Nat) (sb : List SbEnt) (ea : Nat → Word) {k : Nat} (hk : k < 64) : ∀ is : List Nat,
    (forwardLanes core sb (is.map fun i => (i, ea i))).2.getLsbD k =
      (decide (k / 4 ∈ is) && (forward core (spanOf core .c (ea (k / 4)) 4) sb 0 0).2.getLsbD ((ea (k / 4)).toNat % 64 + k % 4))
  | [] => by simp [forwardLanes]
  | i :: is => by
    have hcons : (forwardLanes core sb ((i :: is).map fun i => (i, ea i))).2 = (forwardLanes core sb (is.map fun i => (i, ea i))).2 |||
        ((((forward core (spanOf core .c (ea i) 4) sb 0 0).2 >>> (fld (ea i) 5 0)) &&& 0xF) <<< (4 * i)) := rfl
    rw [hcons, BitVec.getLsbD_or, getLsbD_forwardLanes core sb ea hk is, BitVec.getLsbD_shiftLeft, getLsbD_nibble, fld_5_0]
    by_cases hi : k / 4 = i
    · subst hi
      have hlo : ¬ k < 4 * (k / 4) := by omega
      have hin : k - 4 * (k / 4) = k % 4 := by omega
      have hlt : k % 4 < 4 := Nat.mod_lt _ (by decide)
      simp only [hlo, hin, hlt, hk, List.mem_cons, true_or, decide_true, decide_false, Bool.not_false, Bool.true_and]
      cases (forward core (spanOf core .c (ea (k / 4)) 4) sb 0 0).2.getLsbD ((ea (k / 4)).toNat % 64 + k % 4) <;> simp
    · have hout : ¬ (4 * i ≤ k ∧ k - 4 * i < 4) := by omega
      simp only [List.mem_cons, hi, false_or]
      by_cases hlo : 4 * i ≤ k
      · simp [show ¬ k - 4 * i < 4 by omega]
      · simp [hlo]

/-- A lane is a hit exactly where the thread's own stores cover its word. -/
theorem lane_covered_iff (core : Nat) (sb : List SbEnt) (ea : Nat → Word) {is : List Nat} {i : Nat} (hi : i ∈ is) (h16 : i < 16)
    (hal : (ea i).toNat % 4 = 0) :
    ((forwardLanes core sb (is.map fun i => (i, ea i))).2 >>> (4 * i)) &&& 0xF = 0xF ↔
      (forward core (spanOf core .c (ea i) 4) sb 0 0).2 &&& byteMask ((ea i).toNat % 64) 4 = byteMask ((ea i).toNat % 64) 4 := by
  rw [nibble_eq_iff, and_byteMask_eq_iff _ (by omega)]
  refine forall₂_congr fun j hj => ?_
  rw [getLsbD_forwardLanes core sb ea (by omega), show (4 * i + j) / 4 = i by omega, show (4 * i + j) % 4 = j by omega, decide_eq_true hi,
    Bool.true_and]

/-! ### VLDX in .c -/

theorem foldl_sendReq_load (l : List Req) (hl : ∀ r ∈ l, ∃ m b, r.op = .load m b) (s : State) :
    l.foldl State.sendReq s = s.sendAll (l.map .req) := by
  induction l generalizing s with
  | nil => rfl
  | cons r l ih =>
    obtain ⟨m, b, hr⟩ := hl r (by simp)
    rw [List.foldl_cons, sendReq_of_load hr, ih (fun q hq => hl q (by simp [hq]))]
    rfl

/-- The long result of a .c VLDX, before its requests are known. -/
def State.lanesPend (s : State) (d : VReg) (h : Hdr) (a : GReg) (b : VReg) (sc : BitVec 2) (disp : BitVec 16) : Pend :=
  let f := forwardLanes s.me.1 s.cx.sb ((lanesOf s.cx.regs h).map fun i => (i, laneEa s.cx.regs a b sc disp i))
  { s.newPend (.v d (laneBytes (s.cx.regs.gmask h) 16)) with fwd := f.1, fmask := f.2 }

/-- The request of a lane. -/
def State.laneReq (s : State) (a : GReg) (b : VReg) (sc : BitVec 2) (disp : BitVec 16) (i : Nat) : Req :=
  { s.reqFor (placeOf s.me.1 .c (laneEa s.cx.regs a b sc disp i)) (.load 4 false) s.cx.nextTag with lane := some i }

/-- The lanes that the thread's own stores do not cover. -/
def State.lanesOut (s : State) (h : Hdr) (a : GReg) (b : VReg) (sc : BitVec 2) (disp : BitVec 16) : List Nat :=
  (lanesOf s.cx.regs h).filter fun i =>
    (forward s.me.1 (spanOf s.me.1 .c (laneEa s.cx.regs a b sc disp i) 4) s.cx.sb 0 0).2 &&&
      byteMask ((laneEa s.cx.regs a b sc disp i).toNat % 64) 4 != byteMask ((laneEa s.cx.regs a b sc disp i).toNat % 64) 4

/-- The long result with the requests of those lanes. -/
def State.lanesSent (s : State) (d : VReg) (h : Hdr) (a : GReg) (b : VReg) (sc : BitVec 2) (disp : BitVec 16) : Pend :=
  { s.lanesPend d h a b sc disp with
    left := (s.lanesOut h a b sc disp).length, reqs := (s.lanesOut h a b sc disp).map (s.laneReq a b sc disp) }

theorem doVldx_c (hc : Clear (.vldx h true d a b sc disp) s = true)
    (hok : ∀ i ∈ lanesOf s.cx.regs h, (laneEa s.cx.regs a b sc disp i).toNat < 2 ^ 26 ∧ (laneEa s.cx.regs a b sc disp i).toNat % 4 = 0) :
    doVldx h true d a b sc disp s =
      if (s.lanesOut h a b sc disp).isEmpty && !(lanesOf s.cx.regs h).isEmpty then s.longValue (s.lanesPend d h a b sc disp) 0 0
      else s.startLong (s.lanesSent d h a b sc disp) := by
  have haddrs := laneAddrs_ok (cm := true) (rd_of_clear hc) fun i hi => by
    obtain ⟨hlt, hal⟩ := hok i hi
    exact ⟨by simpa [eaClean, fld_high_eq_zero] using hlt, hal, fun hf => by cases hf⟩
  have hout : (((lanesOf s.cx.regs h).map fun i => (i, laneEa s.cx.regs a b sc disp i)).filter fun x =>
      (forwardLanes s.me.1 s.cx.sb ((lanesOf s.cx.regs h).map fun i => (i, laneEa s.cx.regs a b sc disp i))).2 >>> (4 * x.1) &&& 0xF != 0xF) =
      (s.lanesOut h a b sc disp).map fun i => (i, laneEa s.cx.regs a b sc disp i) := by
    rw [List.filter_map, State.lanesOut]
    refine congrArg _ (List.filter_congr fun i hi => ?_)
    have hcov := lane_covered_iff s.me.1 s.cx.sb (laneEa s.cx.regs a b sc disp) hi (mem_lanesOf.mp hi).1 (hok i hi).2
    exact congrArg not (decide_eq_decide.mpr hcov)
  simp only [doVldx, haddrs, rd_of_clear hc, if_true, hout, List.isEmpty_map, List.map_map, List.length_map]
  rfl

theorem exec_vldx_c (hc : Clear (.vldx h true d a b sc disp) s = true)
    (hok : ∀ i ∈ lanesOf s.cx.regs h, (laneEa s.cx.regs a b sc disp i).toNat < 2 ^ 26 ∧ (laneEa s.cx.regs a b sc disp i).toNat % 4 = 0) :
    ∃ t p, exec (.vldx h true d a b sc disp) s = .next t ∧ t.cx.regs = s.cx.regs ∧ t.cx.pc = s.cx.npc ∧ t.mem = s.mem ∧
      t.cx.pend = s.cx.pend ++ [p] ∧ p.dest = .v d (laneBytes (s.cx.regs.gmask h) 16) ∧ p.tag = s.cx.nextTag ∧
      (p.fwd, p.fmask) = forwardLanes s.me.1 s.cx.sb ((lanesOf s.cx.regs h).map fun i => (i, laneEa s.cx.regs a b sc disp i)) ∧
      (t.chan = s.chan ++ (s.lanesOut h a b sc disp).map fun i => { born := s.now, body := .req (s.laneReq a b sc disp i) }) ∧
      (s.lanesOut h a b sc disp ≠ [] → p.left = (s.lanesOut h a b sc disp).length ∧ t.cx.landing = s.cx.landing) ∧
      (s.lanesOut h a b sc disp = [] → lanesOf s.cx.regs h ≠ [] → p.left = 1 ∧ t.cx.landing = s.cx.landing ++
        [{ dst := s.whoMe, tag := s.cx.nextTag, data := 0, flags := 0, fault := none, lane := none }]) := by
  have hb := doVldx_c hc hok
  by_cases hhit : ((s.lanesOut h a b sc disp).isEmpty && !(lanesOf s.cx.regs h).isEmpty) = true
  · have hnone : s.lanesOut h a b sc disp = [] := by
      rw [Bool.and_eq_true] at hhit
      exact List.isEmpty_iff.mp hhit.1
    rw [if_pos hhit, longValue_heard _ (p := s.lanesPend d h a b sc disp) rfl] at hb
    refine ⟨_, s.lanesPend d h a b sc disp, congrArg Host.Outcome.next (issue_entersLong hc hb (entersLong_onCx rfl)), ?_⟩
    simp [State.pass, hnone, State.lanesPend, State.newPend]
  · have hsome : s.lanesOut h a b sc disp = [] → lanesOf s.cx.regs h = [] := fun he => by simpa [he] using hhit
    rw [if_neg hhit, State.startLong, foldl_sendReq_load _ (by simp [State.lanesSent, State.laneReq, State.reqFor])] at hb
    have henters := (entersLong_addPend s (s.lanesSent d h a b sc disp)).trans (beside_sendAll _ ((s.lanesSent d h a b sc disp).reqs.map .req)).entersLong
    refine ⟨_, s.lanesSent d h a b sc disp, congrArg Host.Outcome.next (issue_entersLong hc hb henters), ?_⟩
    have hsent := beside_sendAll (s.addPend (s.lanesSent d h a b sc disp)) ((s.lanesSent d h a b sc disp).reqs.map .req)
    have hchan : ((s.addPend (s.lanesSent d h a b sc disp)).sendAll ((s.lanesSent d h a b sc disp).reqs.map .req)).chan =
        s.chan ++ (s.lanesOut h a b sc disp).map fun i => { born := s.now, body := .req (s.laneReq a b sc disp i) } := by
      rw [State.sendAll_eq]
      change s.chan ++ (((s.lanesOut h a b sc disp).map (s.laneReq a b sc disp)).map Body.req).map _ = _
      rw [List.map_map, List.map_map]
      rfl
    have hmem : ((s.addPend (s.lanesSent d h a b sc disp)).sendAll ((s.lanesSent d h a b sc disp).reqs.map .req)).mem = s.mem := hsent.mem
    simp only [State.pass, State.cx_onCx, hsent.cx, cx_addPend, State.onCx_mem, State.onCx_chan, hmem, hchan, true_and]
    exact ⟨rfl, rfl, rfl, fun _ => ⟨rfl, trivial⟩, fun hn hne => absurd (hsome hn) hne⟩

end

/-- Settles O19: a .l load takes the bytes of the pool with the thread's own stores in front; any other load enters a long result whose
request is sent unless the snapshot cache or the thread's own stores answer it. -/
theorem loads : Obligations.Loads := by
  unfold Obligations.Loads
  refine ⟨⟨?_, ?_, ?_, ?_⟩, ?_, ?_, ?_, ?_⟩
  · intro h sz nc x d m ea s hc hm hea off hok
    exact exec_ld_local hc hm hea hok
  · intro h nc x d m ea s hc hm hea off hok
    exact exec_vld_local hc hm hea hok
  · intro h sz d m ea s hc hm hea off hok
    exact exec_ldacq_local hc hm hea hok
  · intro h d a b sc disp s hc ea hok
    exact exec_vldx_local hc hok
  · intro h sz nc x d m ea s hc hm hea
    have hb : doLd sz nc x d m s = s.loadAt m.am ea (ldN sz) (.g d sz (ea.toNat % 64)) nc false x := by
      rw [doLd, ldBytes_eq_ldN, withOp_of_soundEa hc hea, gDest, fld_5_0]
    exact ⟨_, rfl, issue_loadAt_far hc hm hb⟩
  · intro h nc x d m ea s hc hm hea
    have hb : doVld h nc x d m s = s.loadAt m.am ea 64 (.v d (laneBytes (s.cx.regs.gmask h) 16)) nc false x := by
      rw [doVld, withOp_of_soundEa hc hea, rd_of_clear hc]
    exact ⟨_, rfl, issue_loadAt_far hc hm hb⟩
  · intro h sz d m ea s hc hm hea
    have hb : doLdacq sz d m s = s.loadAt m.am ea (ldN sz) (.g d sz (ea.toNat % 64)) true true 0xFFFF := by
      rw [doLdacq, ldBytes_eq_ldN, withOp_of_soundEa hc hea, gDest, fld_5_0]
    exact ⟨_, rfl, issue_loadAt_far hc hm hb⟩
  · intro h d a b sc disp s hc ea lanes own out hok
    exact exec_vldx_c hc hok

end Sys2Proof.Machine
end

section
/-! Stores to the local store (O20, R183, R187, R191, R195, R197, R200). -/
namespace Sys2Proof.Machine
open Sys2Proof.Manual

section
variable {s t u : State} {i : Instr} {ea : Word} {off n lo m : Nat} {d : Line} {mask : BitVec 64}

/-! ### The bytes that a mask spans -/

theorem maskSpan_eq (mask : BitVec 64) : (maskSpan mask = (0, 0) ∧ ∀ i < 64, mask.getLsbD i = false) ∨
    ∃ lo hi, hi < 64 ∧ mask.getLsbD lo = true ∧ mask.getLsbD hi = true ∧ maskSpan mask = (lo, hi + 1 - lo) := by
  unfold maskSpan
  cases hlo : (upTo 64).find? fun i => mask.getLsbD i with
  | none => exact .inl ⟨rfl, fun i hi => by simpa using List.find?_eq_none.mp hlo i (mem_upTo.mpr hi)⟩
  | some lo =>
    have hbit := List.find?_some hlo
    cases hhi : (upTo 64).reverse.find? fun i => mask.getLsbD i with
    | none => exact absurd hbit (List.find?_eq_none.mp hhi lo (List.mem_reverse.mpr (List.mem_of_find?_eq_some hlo)))
    | some hi => exact .inr ⟨lo, hi, mem_upTo.mp (List.mem_reverse.mp (List.mem_of_find?_eq_some hhi)), hbit, List.find?_some hhi, rfl⟩

/-- A mask whose bits lie in a run spans a part of the run. -/
theorem maskSpan_within {o : Nat} (hbits : ∀ i < 64, mask.getLsbD i = true → o ≤ i ∧ i < o + n) (hne : o = 0 ∨ ∃ i < 64, mask.getLsbD i = true) :
    o ≤ (maskSpan mask).1 ∧ (maskSpan mask).1 + (maskSpan mask).2 ≤ o + n := by
  rcases maskSpan_eq mask with ⟨hz, hnone⟩ | ⟨lo, hi, hlt, hlo, hhi, hz⟩
  · obtain rfl := hne.resolve_right fun ⟨i, hi, hb⟩ => by simp [hnone i hi] at hb
    rw [hz]
    exact ⟨le_refl _, Nat.zero_le _⟩
  · have hlo64 : lo < 64 := BitVec.lt_of_getLsbD hlo
    have h1 := hbits lo hlo64 hlo
    have h2 := hbits hi hlt hhi
    rw [hz]
    constructor
    · exact h1.1
    · change lo + (hi + 1 - lo) ≤ o + n
      omega

theorem maskSpan_byteMask {o : Nat} (hn : 0 < n) (h : o + n ≤ 64) :
    o ≤ (maskSpan (byteMask o n)).1 ∧ (maskSpan (byteMask o n)).1 + (maskSpan (byteMask o n)).2 ≤ o + n := by
  refine maskSpan_within (fun i _ hb => ?_) (.inr ⟨o, by omega, ?_⟩)
  · rwa [getLsbD_byteMask _ h, decide_eq_true_eq] at hb
  · rw [getLsbD_byteMask _ h]
    simpa using hn

theorem maskSpan_le (mask : BitVec 64) : (maskSpan mask).1 + (maskSpan mask).2 ≤ 64 := by
  have h := (maskSpan_within (mask := mask) (o := 0) (n := 64) (fun i hi _ => ⟨Nat.zero_le i, by omega⟩) (.inl rfl)).2
  omega

/-! ### The port accepts parts of what it accepts (R183, R187) -/

theorem accBusy_mono {c : Nat} (h : s.accBusy c off n = false) (h1 : off ≤ lo) (h2 : lo + m ≤ off + n) : s.accBusy c lo m = false := by
  unfold State.accBusy at h ⊢
  simp only [List.any_eq_false, Bool.and_eq_true, decide_eq_true_eq, not_and] at h ⊢
  exact fun i hi hlo hhi => h i hi (by omega) (by omega)

theorem reachable_mono {k : Core} (h : k.reachable off n = true) (h2 : lo + m ≤ off + n) : k.reachable lo m = true := by
  unfold Core.reachable at h ⊢
  cases hp : k.part with
  | none => simp [hp] at h
  | some p =>
    simp only [hp, decide_eq_true_eq] at h ⊢
    omega

theorem localRefusal_eq_none {c : Nat} : s.localRefusal c off n = none ↔ (s.core c).reachable off n = true ∧ s.accBusy c off n = false := by
  unfold State.localRefusal
  cases (s.core c).reachable off n <;> cases s.accBusy c off n <;> simp

theorem poolCheck_own_eq_none {c : Nat} {a : Asker} {need : Need} : s.poolCheck c off n false a need = none ↔
    (decide (c ≥ Config.cores) || (s.core c).dead || s.fenced c) = false ∧ (s.core c).reachable off n = true ∧ s.accBusy c off n = false := by
  simp only [State.poolCheck, Bool.false_and, if_neg Bool.false_ne_true]
  generalize (decide (c ≥ Config.cores) || (s.core c).dead || s.fenced c) = gone
  cases gone <;> cases (s.core c).reachable off n <;> cases s.accBusy c off n <;> simp

/-- A .l store to these bytes is accepted, and nothing watches the pool. -/
structure Writable (s : State) (off n : Nat) : Prop where
  refusal : s.localRefusal s.me.1 off n = none
  check   : s.poolCheck s.me.1 off n false s.asker .w = none
  wps     : s.mine.wps = []

theorem writable_of_localOk (h : s.localOk off n .w = true) : Writable s off n :=
  have hp := portOk_of_localOk h
  ⟨hp.refusal, hp.check, hp.wps⟩

theorem Writable.mono (h : Writable s off n) (h1 : off ≤ lo) (h2 : lo + m ≤ off + n) : Writable s lo m := by
  obtain ⟨hreach, hfree⟩ := localRefusal_eq_none.mp h.refusal
  obtain ⟨hthere, -, -⟩ := poolCheck_own_eq_none.mp h.check
  exact ⟨localRefusal_eq_none.mpr ⟨reachable_mono hreach h2, accBusy_mono hfree h1 h2⟩,
    poolCheck_own_eq_none.mpr ⟨hthere, reachable_mono hreach h2, accBusy_mono hfree h1 h2⟩, h.wps⟩

/-! ### A write of the issuing core's pool -/

/-- The issuing core's pool with masked bytes of the line of off written. -/
def State.wrPool (s : State) (off : Nat) (d : Line) (mask : BitVec 64) : State := s.onMine fun k => k.poolWrite (off / 64 * 64) d mask

theorem poolByte_wrPool (hwf : s.mine.memWf = true) (c a : Nat) : (s.wrPool off d mask).poolByte c a =
    if c = s.me.1 ∧ a / 64 = off / 64 ∧ mask.getLsbD (a % 64) = true then el 8 d (a % 64) else s.poolByte c a := by
  have hwf' : (s.core s.me.1).memWf = true := hwf
  rw [State.poolByte, State.wrPool, State.onMine, State.core_onCore]
  by_cases hc : c = s.me.1
  · subst hc
    rw [if_pos rfl, rdByte_poolWrite hwf']
    simp [State.poolByte]
  · simp [hc, State.poolByte]

/-- Only the issuing core's pool, and what is poisoned in it, has changed. -/
structure PoolOnly (s t : State) : Prop where
  beside : Beside s t
  chan   : t.chan = s.chan
  units  : t.units = s.units
  rel    : t.rel = s.rel
  cores  : ∀ c, ∃ p pp, t.core c = { s.core c with pool := p, ppoison := pp }
  memWf  : s.mine.memWf = true → t.mine.memWf = true

theorem PoolOnly.refl (s : State) : PoolOnly s s := ⟨Beside.refl s, rfl, rfl, rfl, fun _ => ⟨_, _, rfl⟩, id⟩

theorem PoolOnly.trans (h : PoolOnly s t) (h' : PoolOnly t u) : PoolOnly s u := by
  refine ⟨h.beside.trans h'.beside, h'.chan.trans h.chan, h'.units.trans h.units, h'.rel.trans h.rel, fun c => ?_, fun hwf => h'.memWf (h.memWf hwf)⟩
  obtain ⟨p, pp, hc⟩ := h.cores c
  obtain ⟨p', pp', hc'⟩ := h'.cores c
  exact ⟨p', pp', by rw [hc', hc]⟩

theorem poolOnly_wrPool (s : State) (off : Nat) (d : Line) (mask : BitVec 64) : PoolOnly s (s.wrPool off d mask) := by
  refine ⟨beside_onCore (f := fun k => k.poolWrite (off / 64 * 64) d mask) (ctxs_poolWrite ..), rfl, rfl, rfl, fun c => ?_, fun hwf => ?_⟩
  · rw [State.wrPool, State.onMine, State.core_onCore]
    by_cases hc : c = s.me.1
    · obtain ⟨pp, hk⟩ := poolWrite_eq (s.core s.me.1) (off / 64 * 64) d mask
      exact ⟨_, pp, by rw [if_pos hc, hk, hc]⟩
    · exact ⟨_, _, by rw [if_neg hc]⟩
  · rw [State.wrPool, State.mine_onMine]
    exact memWf_poolWrite hwf ..

theorem PoolOnly.asker (h : PoolOnly s t) : t.asker = s.asker := by
  have hwho : t.whoMe = s.whoMe := by
    change { core := t.me.1, ctx := t.me.2, inc := t.cx.inc : Who } = { core := s.me.1, ctx := s.me.2, inc := s.cx.inc }
    rw [h.beside.cx, h.beside.me]
  rw [State.asker, State.asker, hwho, h.beside.cx]

theorem PoolOnly.writable (h : PoolOnly s t) (hw : Writable s off n) : Writable t off n := by
  obtain ⟨p, pp, hk⟩ := h.cores s.me.1
  have hbusy : t.accBusy s.me.1 off n = s.accBusy s.me.1 off n := by
    simp only [State.accBusy, State.tileBusy, State.l1Cards, State.unit, hk, h.units]
  have hfenced : t.fenced s.me.1 = s.fenced s.me.1 := by simp only [State.fenced, h.rel]
  have hreach : (t.core s.me.1).reachable off n = (s.core s.me.1).reachable off n := by simp only [Core.reachable, hk]
  refine ⟨?_, ?_, ?_⟩
  · rw [h.beside.me, localRefusal_eq_none, hreach, hbusy]
    exact localRefusal_eq_none.mp hw.refusal
  · rw [h.beside.me, poolCheck_own_eq_none, hreach, hbusy, hfenced, hk]
    exact poolCheck_own_eq_none.mp hw.check
  · rw [State.mine, h.beside.me, hk]
    exact hw.wps

/-! ### .l stores -/

/-- A store that the port accepts is performed. -/
theorem poolStore_of_writable (h : Writable s off n) (o : Nat) (ho : o / 64 = off / 64)
    (h1 : off % 64 ≤ (maskSpan mask).1) (h2 : (maskSpan mask).1 + (maskSpan mask).2 ≤ off % 64 + n) : s.poolStore o d mask = s.wrPool off d mask := by
  have hcheck := (h.mono (lo := o / 64 * 64 + (maskSpan mask).1) (m := (maskSpan mask).2) (by omega) (by omega)).check
  have hwps : ((s.wrPool o d mask).core s.me.1).wps = [] := by
    rw [State.wrPool, State.onMine, State.core_onCore_self, wps_poolWrite]
    exact h.wps
  have hst : s.pStore s.asker s.me.1 o false (BitVec.ofNat 64 o) d mask = .done 0 (s.wrPool o d mask) := by
    simp only [State.pStore, hcheck]
    exact congrArg (Served.done 0) (fireMask_of_no_wps hwps ..)
  rw [State.poolStore, hst, State.wrPool, State.wrPool, ho]

/-- .l stores that the port accepts are performed one after another. -/
theorem poolStores_of_writable {l : List (Nat × Line × BitVec 64)} {n : Nat × Line × BitVec 64 → Nat}
    (h : ∀ q ∈ l, Writable s q.1 (n q) ∧ q.1 % 64 ≤ (maskSpan q.2.2).1 ∧
      (maskSpan q.2.2).1 + (maskSpan q.2.2).2 ≤ q.1 % 64 + n q) :
    s.poolStores l = l.foldl (fun s q => s.wrPool q.1 q.2.1 q.2.2) s := by
  have hnone : (l.findSome? fun q => (s.localRefusal s.me.1 q.1 (maskSpan q.2.2).2).map fun c => (c, q.1)) = none := by
    rw [List.findSome?_eq_none_iff]
    intro q hq
    obtain ⟨hw, h1, h2⟩ := h q hq
    rw [(hw.mono (le_refl _) (by omega) : Writable s q.1 (maskSpan q.2.2).2).refusal]
    rfl
  rw [State.poolStores, hnone]
  clear hnone
  change l.foldl (fun s q => s.poolStore q.1 q.2.1 q.2.2) s = _
  induction l generalizing s with
  | nil => rfl
  | cons q l ih =>
    obtain ⟨hw, h1, h2⟩ := h q (by simp)
    rw [List.foldl_cons, List.foldl_cons, poolStore_of_writable hw _ rfl h1 h2]
    exact ih fun p hp => ⟨(poolOnly_wrPool ..).writable (h p (by simp [hp])).1, (h p (by simp [hp])).2⟩

end

end Sys2Proof.Machine
end

section
/-! The .l stores write their bytes and no others: the settlement of O20 (R191, R195, R197, R200). -/
namespace Sys2Proof.Machine
open Sys2Proof.Manual

section
variable {s : State} {h : Hdr} {m : MemOp} {ea : Word} {d : GReg} {v : VReg} {bset : Bool} {off n : Nat}

theorem stN_dvd (sz : StSz) : stN sz ∣ 64 := by cases sz <;> decide
theorem stN_pos (sz : StSz) : 0 < stN sz := by cases sz <;> decide

theorem pool_onCx (s : State) (f : Ctx → Ctx) (c : Nat) : ((s.onCx f).core c).pool = (s.core c).pool := by
  change ((s.setCore s.me.1 _).core c).pool = _
  rw [State.core_setCore]
  split
  next hc => rw [hc]; rfl
  next => rfl

/-- The line of an address is the address without its place in the line (R29). -/
theorem toNat_lineVa (ea : Word) : (lineVa ea).toNat = ea.toNat / 64 * 64 := by
  have hshift : lineVa ea = (ea >>> 6) <<< 6 := by
    refine BitVec.eq_of_getLsbD_eq fun j hj => ?_
    have hlow : (0x3F#64).getLsbD j = decide (j < 6) := by
      rw [show (0x3F#64) = BitVec.ofNat 64 (2 ^ 6 - 1) by rfl, BitVec.getLsbD_ofNat, Nat.testBit_two_pow_sub_one, decide_eq_true hj, Bool.true_and]
    rw [lineVa, BitVec.getLsbD_and, BitVec.getLsbD_not, hlow, BitVec.getLsbD_shiftLeft, BitVec.getLsbD_ushiftRight]
    by_cases h6 : j < 6
    · simp [h6]
    · simp [h6, hj, show 6 + (j - 6) = j by omega]
  have hlt := ea.isLt
  rw [hshift, BitVec.toNat_shiftLeft, BitVec.toNat_ushiftRight, Nat.shiftRight_eq_div_pow, Nat.shiftLeft_eq]
  omega

/-- A masked write of a pool line, and the thread goes on. -/
theorem poolWritten_wrPool {data : Line} {mask : BitVec 64} {byte : Nat → Byte} {wr : Nat → Bool} (htook : s.took = none)
    (hwf : s.mine.memWf = true) (hn : off % 64 + n ≤ 64)
    (hmask : ∀ j < 64, mask.getLsbD j = true ↔ off % 64 ≤ j ∧ j < off % 64 + n ∧ wr (j - off % 64) = true)
    (hdata : ∀ k < n, wr k = true → el 8 data (off % 64 + k) = byte k) : poolWritten s (s.wrPool off data mask).pass off n byte wr := by
  have hw := poolOnly_wrPool s off data mask
  have hbyte (c a : Nat) : (s.wrPool off data mask).pass.poolByte c a = (s.wrPool off data mask).poolByte c a := by
    rw [State.poolByte, State.pass, pool_onCx]
    rfl
  refine ⟨fun a => ?_, fun c a hc => ?_, ?_, fun c x hx => ?_, hw.beside.mem, hw.chan, hw.beside.took.trans htook⟩
  · rw [hbyte, poolByte_wrPool hwf]
    have hiff : (s.me.1 = s.me.1 ∧ a / 64 = off / 64 ∧ mask.getLsbD (a % 64) = true) ↔ off ≤ a ∧ a < off + n ∧ wr (a - off) = true := by
      rw [hmask _ (Nat.mod_lt _ (by decide))]
      constructor
      · rintro ⟨-, hline, hlo, hhi, hwr⟩
        refine ⟨by omega, by omega, ?_⟩
        rwa [show a - off = a % 64 - off % 64 by omega]
      · rintro ⟨hlo, hhi, hwr⟩
        refine ⟨rfl, by omega, by omega, by omega, ?_⟩
        rwa [show a % 64 - off % 64 = a - off by omega]
    by_cases hin : off ≤ a ∧ a < off + n ∧ wr (a - off) = true
    · rw [if_pos (hiff.mpr hin), if_pos hin, ← hdata (a - off) (by omega) hin.2.2]
      congr 1
      omega
    · rw [if_neg (mt hiff.mp hin), if_neg hin]
  · rw [hbyte, poolByte_wrPool hwf, if_neg fun h => hc h.1]
  · rw [State.pass, State.cx_onCx, hw.beside.cx]
  · rw [State.pass, State.ctx_onCx_ne _ _ (hw.beside.me ▸ hx)]
    exact hw.beside.threads c x

theorem el_dataAt (x : Word) {k : Nat} (hk : k < n) (hn : ea.toNat % 64 + n ≤ 64) : el 8 (dataAt x n ea) (ea.toNat % 64 + k) = byteOf x k := by
  rw [dataAt, fld_5_0, el_eq_lineByte, lineByte_atByte_word x (by omega) (by omega) hn, Nat.add_sub_cancel_left]
  rfl

/-- The same of a register's low bytes at their place in the line. -/
theorem poolWritten_dataAt (htook : s.took = none) (hwf : s.mine.memWf = true) (hline : ea.toNat % 64 + n ≤ 64) (x : Word) :
    poolWritten s (s.wrPool (ea.toNat % 2 ^ 16) (dataAt x n ea) (byteMask (ea.toNat % 64) n)).pass (ea.toNat % 2 ^ 16) n (byteOf x)
      fun _ => true := by
  have hmod : ea.toNat % 2 ^ 16 % 64 = ea.toNat % 64 := by omega
  refine poolWritten_wrPool htook hwf (hmod ▸ hline) (fun j hj => ?_) fun k hk _ => ?_
  · rw [getLsbD_byteMask _ hline, decide_eq_true_eq, hmod]
    simp
  · rw [hmod, el_dataAt _ hk hline]

theorem issue_wrPool {i : Instr} {body : State → State} {data : Line} {mask : BitVec 64} (hc : Clear i s = true)
    (hb : body s = s.wrPool off data mask) : issue i body s = (s.wrPool off data mask).pass :=
  issue_beside hc hb (poolOnly_wrPool ..).beside

/-- A .l store that waits for nothing is one write of the pool. -/
theorem storeAt_local {data : Line} {mask : BitVec 64} (hw : Writable s (ea.toNat % 2 ^ 16) n) (hclear : s.clearOf .l ea n = true)
    (h1 : ea.toNat % 2 ^ 16 % 64 ≤ (maskSpan mask).1) (h2 : (maskSpan mask).1 + (maskSpan mask).2 ≤ ea.toNat % 2 ^ 16 % 64 + n) :
    s.storeAt .l ea n data mask bset = s.wrPool (ea.toNat % 2 ^ 16) data mask := by
  rw [State.storeAt, if_pos rfl, fld_15_0]
  simp only [hw.refusal]
  rw [afterClear_of_isClear (by simpa only [State.clearOf, spanOf, poolOf, fld_15_0] using hclear)]
  exact poolStores_of_writable (n := fun _ => n) fun q hq => by obtain rfl := List.mem_singleton.mp hq; exact ⟨hw, h1, h2⟩

theorem exec_st_local {sz : StSz} (hc : Clear (.st h sz bset d m) s = true) (hwf : s.mine.memWf = true) (hm : m.am = .l)
    (hea : s.soundEa m (stN sz) = some ea) (hok : s.localOk (ea.toNat % 2 ^ 16) (stN sz) .w = true) (hclear : s.clearOf .l ea (stN sz) = true) :
    ∃ t, exec (.st h sz bset d m) s = .next t ∧
      poolWritten s t (ea.toNat % 2 ^ 16) (stN sz) (byteOf (s.cx.regs.getG d)) fun _ => true := by
  have hline := mod_add_le_of_aligned (stN_dvd sz) (eaClean_of_soundAt hea).2
  have hmod : ea.toNat % 2 ^ 16 % 64 = ea.toNat % 64 := by omega
  obtain ⟨h1, h2⟩ := maskSpan_byteMask (stN_pos sz) hline
  have hb : doSt sz bset d m s = s.wrPool (ea.toNat % 2 ^ 16) (dataAt (s.cx.regs.getG d) (stN sz) ea) (byteMask (ea.toNat % 64) (stN sz)) := by
    rw [doSt, stBytes_eq_stN, withOp_of_soundEa hc hea, hm, rd_of_clear hc, fld_5_0]
    exact storeAt_local (writable_of_localOk hok) hclear (hmod ▸ h1) (hmod ▸ h2)
  exact ⟨_, congrArg Host.Outcome.next (issue_wrPool hc hb), poolWritten_dataAt (clear_facts hc).took hwf hline _⟩

theorem exec_vst_local (hc : Clear (.vst h bset v m) s = true) (hwf : s.mine.memWf = true) (hm : m.am = .l)
    (hea : s.soundEa m 64 = some ea) (hok : s.localOk (ea.toNat % 2 ^ 16) 64 .w = true) (hclear : s.clearOf .l ea 64 = true) :
    ∃ t, exec (.vst h bset v m) s = .next t ∧
      poolWritten s t (ea.toNat % 2 ^ 16) 64 (el 8 (s.cx.regs.getV v)) fun k => Manual.laneOn s.cx.regs h (k / 4) := by
  have hal := (eaClean_of_soundAt hea).2
  have hmod : ea.toNat % 2 ^ 16 % 64 = 0 := by omega
  have hb : doVst h bset v m s = s.wrPool (ea.toNat % 2 ^ 16) (s.cx.regs.getV v) (laneBytes (s.cx.regs.gmask h) 16) := by
    have hspan := maskSpan_le (laneBytes (s.cx.regs.gmask h) 16)
    rw [doVst, withOp_of_soundEa hc hea, hm, rd_of_clear hc]
    exact storeAt_local (writable_of_localOk hok) hclear (by omega) (by omega)
  refine ⟨_, congrArg Host.Outcome.next (issue_wrPool hc hb), ?_⟩
  refine poolWritten_wrPool (clear_facts hc).took hwf (by omega) (fun j hj => ?_) fun k hk _ => ?_
  · rw [getLsbD_laneBytes _ _ 16 (le_refl _), hmod, Bool.and_eq_true, decide_eq_true_eq]
    simp [hj, Manual.laneOn]
  · rw [hmod, Nat.zero_add]

theorem exec_strel_local {sz : StSz} (hc : Clear (.strel h sz d m) s = true) (hwf : s.mine.memWf = true) (hm : m.am = .l)
    (hea : s.soundEa m (stN sz) = some ea) (hok : s.localOk (ea.toNat % 2 ^ 16) (stN sz) .w = true) (hdr : s.isDrained s.me.1 s.me.2 = true) :
    ∃ t, exec (.strel h sz d m) s = .next t ∧
      poolWritten s t (ea.toNat % 2 ^ 16) (stN sz) (byteOf (s.cx.regs.getG d)) fun _ => true := by
  have hline := mod_add_le_of_aligned (stN_dvd sz) (eaClean_of_soundAt hea).2
  have hmod : ea.toNat % 2 ^ 16 % 64 = ea.toNat % 64 := by omega
  obtain ⟨h1, h2⟩ := maskSpan_byteMask (stN_pos sz) hline
  have hw := writable_of_localOk hok
  have hgate : s.gateOk m.am ea (stN sz) = true := by
    rw [State.gateOk, fld_15_0, hw.refusal]
    simp
  have hb : doStrel sz d m s = s.wrPool (ea.toNat % 2 ^ 16) (dataAt (s.cx.regs.getG d) (stN sz) ea) (byteMask (ea.toNat % 64) (stN sz)) := by
    rw [doStrel, stBytes_eq_stN, withOp_of_soundEa hc hea, localGate_of_gateOk hgate, afterDrain_of_isDrained hdr, hm, rd_of_clear hc, fld_5_0]
    have hsame : fld (lineVa ea) 15 0 / 64 = ea.toNat % 2 ^ 16 / 64 := by
      rw [fld_15_0, toNat_lineVa]
      omega
    exact poolStore_of_writable hw _ hsame (hmod ▸ h1) (hmod ▸ h2)
  exact ⟨_, congrArg Host.Outcome.next (issue_wrPool hc hb), poolWritten_dataAt (clear_facts hc).took hwf hline _⟩

/-! ### VSTX -/

/-- The state with a word written for each lane, in order. -/
def State.wrLanes (s : State) (ea : Nat → Word) (src : Line) (is : List Nat) : State :=
  is.foldl (fun t i => t.wrPool (ea i).toNat (laneData i src (ea i)) (byteMask ((ea i).toNat % 64) 4)) s

theorem poolOnly_wrLanes (s : State) (ea : Nat → Word) (src : Line) (is : List Nat) : PoolOnly s (s.wrLanes ea src is) :=
  foldl_keeps (p := PoolOnly s) (fun _ _ ht => ht.trans (poolOnly_wrPool ..)) is s (PoolOnly.refl s)

theorem el_laneData (i : Nat) (src : Line) {ea : Word} {k : Nat} (hk : k < 4) (hal : ea.toNat % 4 = 0) :
    el 8 (laneData i src ea) (ea.toNat % 64 + k) = el 8 src (4 * i + k) := by
  rw [laneData, fld_5_0, el_atByte_fromByte _ (by omega), if_pos (by omega), Nat.add_sub_cancel_left]

theorem wrLanes_concat (s : State) (ea : Nat → Word) (src : Line) (is : List Nat) (i : Nat) : s.wrLanes ea src (is ++ [i]) =
    (s.wrLanes ea src is).wrPool (ea i).toNat (laneData i src (ea i)) (byteMask ((ea i).toNat % 64) 4) := List.foldl_concat ..

/-- What one more lane writes. -/
theorem poolByte_wrLanes_concat {ea : Nat → Word} {src : Line} {is : List Nat} {i : Nat} (hwf : s.mine.memWf = true) (hal : (ea i).toNat % 4 = 0)
    (c x : Nat) : (s.wrLanes ea src (is ++ [i])).poolByte c x =
      if c = s.me.1 ∧ (ea i).toNat ≤ x ∧ x < (ea i).toNat + 4 then el 8 src (4 * i + (x - (ea i).toNat)) else (s.wrLanes ea src is).poolByte c x := by
  have ht := poolOnly_wrLanes s ea src is
  have hline : (ea i).toNat % 64 + 4 ≤ 64 := by omega
  rw [wrLanes_concat, poolByte_wrPool (ht.memWf hwf), ht.beside.me, getLsbD_byteMask _ hline]
  simp only [decide_eq_true_eq]
  by_cases hx : c = s.me.1 ∧ (ea i).toNat ≤ x ∧ x < (ea i).toNat + 4
  · rw [if_pos hx, if_pos ⟨hx.1, by omega, by omega, by omega⟩, show x % 64 = (ea i).toNat % 64 + (x - (ea i).toNat) by omega,
      el_laneData i src (by omega) hal]
  · rw [if_neg hx, if_neg]
    rintro ⟨hc, h1, h2, h3⟩
    exact hx ⟨hc, by omega, by omega⟩

/-- Every lane's word is written, the last of the lanes at one address stands, and nothing else changes (R200). -/
theorem poolByte_wrLanes {ea : Nat → Word} {src : Line} (hwf : s.mine.memWf = true) (is : List Nat) (hord : is.Pairwise (· < ·))
    (hal : ∀ i ∈ is, (ea i).toNat % 4 = 0) :
    (∀ x, (∀ i ∈ is, ¬ ((ea i).toNat ≤ x ∧ x < (ea i).toNat + 4)) → (s.wrLanes ea src is).poolByte s.me.1 x = s.poolByte s.me.1 x) ∧
    (∀ c x, c ≠ s.me.1 → (s.wrLanes ea src is).poolByte c x = s.poolByte c x) ∧
    ∀ i ∈ is, (∀ j ∈ is, i < j → (ea j).toNat ≠ (ea i).toNat) → ∀ k < 4,
      (s.wrLanes ea src is).poolByte s.me.1 ((ea i).toNat + k) = el 8 src (4 * i + k) := by
  induction is using List.reverseRecOn with
  | nil => exact ⟨fun _ _ => rfl, fun _ _ _ => rfl, fun i hi => by simp at hi⟩
  | append_singleton is q ih =>
    obtain ⟨hord', -, hlast⟩ := List.pairwise_append.mp hord
    have hq := hal q (by simp)
    obtain ⟨hout, hother, hin⟩ := ih hord' fun i hi => hal i (by simp [hi])
    refine ⟨fun x hx => ?_, fun c x hc => ?_, fun i hi hover k hk => ?_⟩
    · rw [poolByte_wrLanes_concat hwf hq, if_neg fun h => hx q (by simp) h.2]
      exact hout x fun i hi => hx i (by simp [hi])
    · rw [poolByte_wrLanes_concat hwf hq, if_neg fun h => hc h.1]
      exact hother c x hc
    · rw [poolByte_wrLanes_concat hwf hq]
      rcases List.mem_append.mp hi with hi | hi
      · have hne := hover q (by simp) (hlast i hi q (by simp))
        have hali := hal i (by simp [hi])
        rw [if_neg (by omega)]
        exact hin i hi (fun j hj => hover j (by simp [hj])) k hk
      · obtain rfl := List.mem_singleton.mp hi
        rw [if_pos ⟨rfl, by omega, by omega⟩, Nat.add_sub_cancel_left]

theorem lanesOf_sorted (r : Regs) (h : Hdr) : (lanesOf r h).Pairwise (· < ·) := List.pairwise_lt_range.filter _

theorem doVstx_local {a : GReg} {b : VReg} {sc : BitVec 2} {disp : BitVec 16} (hc : Clear (.vstx h false v a b sc disp) s = true)
    (hok : ∀ i ∈ lanesOf s.cx.regs h, (laneEa s.cx.regs a b sc disp i).toNat < 2 ^ 16 ∧ (laneEa s.cx.regs a b sc disp i).toNat % 4 = 0 ∧
      s.localOk (laneEa s.cx.regs a b sc disp i).toNat 4 .w = true ∧ s.clearOf .l (laneEa s.cx.regs a b sc disp i) 4 = true) :
    doVstx h false v a b sc disp s = s.wrLanes (laneEa s.cx.regs a b sc disp) (s.cx.regs.getV v) (lanesOf s.cx.regs h) := by
  have hoff (i : Nat) (hi : i ∈ lanesOf s.cx.regs h) : fld (laneEa s.cx.regs a b sc disp i) 15 0 = (laneEa s.cx.regs a b sc disp i).toNat := by
    rw [fld_15_0, Nat.mod_eq_of_lt (hok i hi).1]
  have haddrs := laneAddrs_ok (cm := false) (rd_of_clear hc) fun i hi => by
    obtain ⟨hlt, hal, hport, -⟩ := hok i hi
    exact ⟨by simpa [eaClean, fld_high_eq_zero] using hlt, hal, fun _ => by rw [hoff i hi]; exact (portOk_of_localOk hport).refusal⟩
  have hclear : s.isClear s.me.1 s.me.2 ((lanesOf s.cx.regs h).map fun i => .pool s.me.1 (fld (laneEa s.cx.regs a b sc disp i) 15 0) 4) = true := by
    rw [State.isClear, List.all_map, List.all_eq_true]
    intro i hi
    have hone := (hok i hi).2.2.2
    rw [State.clearOf, State.isClear, List.all_cons, List.all_nil, Bool.and_true] at hone
    exact hone
  have hstores := poolStores_of_writable (s := s) (n := fun _ => 4)
    (l := (lanesOf s.cx.regs h).map fun i => (fld (laneEa s.cx.regs a b sc disp i) 15 0, laneData i (s.cx.regs.getV v) (laneEa s.cx.regs a b sc disp i),
      byteMask (fld (laneEa s.cx.regs a b sc disp i) 5 0) 4)) (by
    intro q hq
    obtain ⟨i, hi, rfl⟩ := List.mem_map.mp hq
    obtain ⟨hlt, hal, hport, -⟩ := hok i hi
    obtain ⟨h1, h2⟩ := maskSpan_byteMask (o := (laneEa s.cx.regs a b sc disp i).toNat % 64) (n := 4) (by decide) (by omega)
    rw [hoff i hi, fld_5_0]
    exact ⟨writable_of_localOk hport, h1, h2⟩)
  simp only [doVstx, haddrs, rd_of_clear hc, List.map_map, Function.comp_def, if_neg Bool.false_ne_true]
  rw [afterClear_of_isClear hclear, hstores, List.foldl_map, State.wrLanes]
  refine List.foldl_ext _ _ _ fun t i hi => ?_
  rw [hoff i hi, fld_5_0]

end

/-- Settles O20: a .l store that its port accepts and that waits for nothing is a masked write of one line of the pool; a VSTX is such a
write for each lane, in order. -/
theorem localStores : Obligations.LocalStores := by
  unfold Obligations.LocalStores
  refine ⟨?_, ?_, ?_, ?_⟩
  · intro h sz bset d m ea s hc hwf hm hea off hok hclear
    exact exec_st_local hc hwf hm hea hok hclear
  · intro h bset d m ea s hc hwf hm hea off hok hclear
    exact exec_vst_local hc hwf hm hea hok hclear
  · intro h sz d m ea s hc hwf hm hea off hok hdr
    exact exec_strel_local hc hwf hm hea hok hdr
  · intro h d a b sc disp s hc hwf ea lanes hok
    have hw := poolOnly_wrLanes s (laneEa s.cx.regs a b sc disp) (s.cx.regs.getV d) (lanesOf s.cx.regs h)
    obtain ⟨hout, hother, hin⟩ := poolByte_wrLanes (src := s.cx.regs.getV d) hwf _ (lanesOf_sorted s.cx.regs h) fun i hi => (hok i hi).2.1
    have hbyte (c x : Nat) : (s.wrLanes (laneEa s.cx.regs a b sc disp) (s.cx.regs.getV d) (lanesOf s.cx.regs h)).pass.poolByte c x =
        (s.wrLanes (laneEa s.cx.regs a b sc disp) (s.cx.regs.getV d) (lanesOf s.cx.regs h)).poolByte c x := congrArg (rdByte · x) (pool_onCx ..)
    refine ⟨_, congrArg Host.Outcome.next (issue_beside hc (doVstx_local hc hok) hw.beside), ?_, hw.beside.mem, hw.chan, ?_, ?_, ?_⟩
    · rw [State.pass, State.cx_onCx, hw.beside.cx]
    · exact fun x hx => (hbyte _ x).trans (hout x hx)
    · exact fun c x hx => (hbyte c x).trans (hother c x hx)
    · exact fun i hi hover k hk => (hbyte _ _).trans (hin i hi hover k hk)

end Sys2Proof.Machine
end

section
/-! What a buffered store supplies to the loads of its thread (R192, R205, R210), and the settlement of O21. -/
namespace Sys2Proof.Machine
open Sys2Proof.Manual

section
variable {core : Nat} {sp : Span} {e y : SbEnt} {l : Line} {m : BitVec 64} {k : Nat}

/-! ### One buffered store in front of a line -/

/-- The bytes of a span that a buffered store supplies. -/
def suppliedBy (core : Nat) (sp : Span) (e : SbEnt) : BitVec 64 := if peerHits e.peer sp then lineHits core e.am e.line e.mask sp else 0

/-- The line and the mask with the bytes of a store put in front. -/
def inFront (core : Nat) (sp : Span) (e : SbEnt) (p : Line × BitVec 64) : Line × BitVec 64 :=
  (mergeLine p.1 e.data (suppliedBy core sp e), p.2 ||| suppliedBy core sp e)

theorem mergeLine_zero (a b : Line) : mergeLine a b 0 = a := by
  refine BitVec.eq_of_getLsbD_eq fun j hj => ?_
  simp only [mergeLine, BitVec.getLsbD_or, BitVec.getLsbD_and, BitVec.getLsbD_not, getLsbD_spread _ _ 64 (le_refl _)]
  simp [hj]

theorem hits_eq (e : SbEnt) (core : Nat) (sp : Span) : e.hits core sp = (suppliedBy core sp e != 0) := by
  unfold SbEnt.hits suppliedBy
  cases peerHits e.peer sp <;> simp

theorem forward_cons (e : SbEnt) (sb : List SbEnt) (l : Line) (m : BitVec 64) :
    forward core sp (e :: sb) l m = forward core sp sb (inFront core sp e (l, m)).1 (inFront core sp e (l, m)).2 := by
  rw [forward, hits_eq]
  by_cases h : suppliedBy core sp e = 0
  · have hm : m ||| 0 = m := BitVec.or_zero
    rw [inFront, h, mergeLine_zero, if_neg (by simp), hm]
  · have hpeer : peerHits e.peer sp = true := by
      by_contra hn
      exact h (if_neg hn)
    have hline : lineHits core e.am e.line e.mask sp = suppliedBy core sp e := (if_pos hpeer).symm
    rw [if_pos (bne_iff_ne.mpr h), hline]
    rfl

/-- The stores before the last are looked at first (R192). -/
theorem forward_concat (sb : List SbEnt) (e : SbEnt) (l : Line) (m : BitVec 64) :
    forward core sp (sb ++ [e]) l m = inFront core sp e (forward core sp sb l m) := by
  induction sb generalizing l m with
  | nil => rw [List.nil_append, forward_cons]; rfl
  | cons x sb ih => rw [List.cons_append, forward_cons, forward_cons, ih]

theorem el_inFront (p : Line × BitVec 64) (hk : k < 64) :
    el 8 (inFront core sp e p).1 k = if (suppliedBy core sp e).getLsbD k then el 8 e.data k else el 8 p.1 k := el_mergeLine _ _ _ hk

/-! ### Spilling changes nothing of it (R205) -/

theorem forward_spillOldest (n : Nat) (sb : List SbEnt) (l : Line) (m : BitVec 64) :
    forward core sp (spillOldest n sb) l m = forward core sp sb l m := by
  induction n, sb using spillOldest.induct generalizing l m with
  | case1 sb => rw [spillOldest]
  | case2 n hn => rw [spillOldest]; exact hn
  | case3 n e sb hs ih =>
    rw [spillOldest, if_pos hs, forward_cons, forward_cons, ih]
  | case4 n e sb hs ih =>
    rw [spillOldest, if_neg hs, forward_cons, forward_cons, ih]
    rfl

/-! ### A store that joins the youngest entry (R205) -/

theorem lineHits_eq_and (core : Nat) (am : Mode) (line : Word) (mask : BitVec 64) (sp : Span) :
    lineHits core am line mask sp = mask &&& lineHits core am line (BitVec.allOnes 64) sp := by
  cases sp with
  | glob | peer | pool =>
    simp only [lineHits, BitVec.allOnes_and]
    split
    · rfl
    · exact BitVec.and_zero.symm

/-- Entries of one location supply the same places (R210). -/
theorem lineHits_of_sameLine {mask : BitVec 64} (h : sameLine core y e.am e.line e.peer = true) (sp : Span) :
    lineHits core y.am y.line mask sp = lineHits core e.am e.line mask sp := by
  unfold sameLine at h
  rw [Bool.and_eq_true] at h
  obtain ⟨-, h⟩ := h
  split at h
  next hg =>
    rw [Bool.and_eq_true, beq_iff_eq, beq_iff_eq] at h
    rw [h.1, h.2]
  next hg =>
    rw [Bool.or_eq_true, decide_eq_true_eq, decide_eq_true_eq, not_or] at hg
    rw [beq_iff_eq] at h
    cases sp with
    | glob | peer => simp [lineHits, hg.1, hg.2]
    | pool => simp [lineHits, hg.1, hg.2, h]

/-- The entry that a store joins, with the store in it. -/
def SbEnt.joined (y e : SbEnt) : SbEnt := { y with mask := y.mask ||| e.mask, data := mergeLine y.data e.data e.mask, pc := e.pc }

theorem peer_of_sameLine (h : sameLine core y e.am e.line e.peer = true) : y.peer = e.peer := by
  unfold sameLine at h
  rw [Bool.and_eq_true, beq_iff_eq] at h
  exact h.1

theorem suppliedBy_joined (h : sameLine core y e.am e.line e.peer = true) :
    suppliedBy core sp (y.joined e) = suppliedBy core sp y ||| suppliedBy core sp e := by
  have hand (x y z : BitVec 64) : (x ||| y) &&& z = x &&& z ||| y &&& z := by
    refine BitVec.eq_of_getLsbD_eq fun j _ => ?_
    simp only [BitVec.getLsbD_and, BitVec.getLsbD_or, Bool.and_or_distrib_right]
  unfold suppliedBy
  rw [← lineHits_of_sameLine h, ← peer_of_sameLine h]
  change (if peerHits y.peer sp then lineHits core y.am y.line (y.mask ||| e.mask) sp else 0) = _
  split
  · rw [lineHits_eq_and, lineHits_eq_and core y.am y.line y.mask, lineHits_eq_and core y.am y.line e.mask, hand]
  · exact BitVec.or_zero.symm

/-- What a store supplies is part of what it wrote; where the entry that it joins supplies a byte and it does not, it did not write it. -/
theorem mask_of_suppliedBy (h : (suppliedBy core sp e).getLsbD k = true) : e.mask.getLsbD k = true := by
  unfold suppliedBy at h
  split at h
  next =>
    rw [lineHits_eq_and, BitVec.getLsbD_and, Bool.and_eq_true] at h
    exact h.1
  next => simp at h

theorem mask_of_not_suppliedBy (h : sameLine core y e.am e.line e.peer = true) (hy : (suppliedBy core sp y).getLsbD k = true)
    (he : (suppliedBy core sp e).getLsbD k = false) : e.mask.getLsbD k = false := by
  unfold suppliedBy at hy he
  rw [← lineHits_of_sameLine h, ← peer_of_sameLine h] at he
  split at hy
  next hp =>
    rw [if_pos hp] at he
    rw [lineHits_eq_and, BitVec.getLsbD_and, Bool.and_eq_true] at hy
    rw [lineHits_eq_and, BitVec.getLsbD_and, hy.2, Bool.and_true] at he
    exact he
  next => simp at hy

/-- Joining the youngest entry supplies the same bytes as standing behind it. -/
theorem inFront_joined (h : sameLine core y e.am e.line e.peer = true) (p : Line × BitVec 64) :
    (inFront core sp (y.joined e) p).2 = (inFront core sp e (inFront core sp y p)).2 ∧
    ∀ k < 64, el 8 (inFront core sp (y.joined e) p).1 k = el 8 (inFront core sp e (inFront core sp y p)).1 k := by
  refine ⟨?_, fun k hk => ?_⟩
  · change p.2 ||| suppliedBy core sp (y.joined e) = p.2 ||| suppliedBy core sp y ||| suppliedBy core sp e
    rw [suppliedBy_joined h, BitVec.or_assoc]
  · have hdata : el 8 (y.joined e).data k = if e.mask.getLsbD k then el 8 e.data k else el 8 y.data k := el_mergeLine _ _ _ hk
    rw [el_inFront _ hk, el_inFront _ hk, el_inFront _ hk, suppliedBy_joined h, BitVec.getLsbD_or, hdata]
    cases he : (suppliedBy core sp e).getLsbD k with
    | true => simp [mask_of_suppliedBy he]
    | false =>
      cases hy : (suppliedBy core sp y).getLsbD k with
      | true => simp [mask_of_not_suppliedBy h hy he]
      | false => simp

/-! ### The buffer after a store -/

/-- The two ways in which a store enters the buffer (R205). -/
theorem bufStore_cases {q : Core} {c : Ctx} {sb : List SbEnt} (h : bufStore q core c e = some sb) :
    (∃ init y, c.sb = init ++ [y] ∧ sameLine core y e.am e.line e.peer = true ∧ sb = init ++ [y.joined e]) ∨
    sb = c.sb ++ [e] ∨ ∃ n, sb = spillOldest n c.sb ++ [e] := by
  have htake (ht : bufStore.take q c e = some sb) : sb = c.sb ++ [e] ∨ ∃ n, sb = spillOldest n c.sb ++ [e] := by
    unfold bufStore.take at ht
    simp only at ht
    split at ht
    · exact .inl (Option.some.inj ht).symm
    · split at ht
      · exact .inr ⟨_, (Option.some.inj ht).symm⟩
      · cases ht
  unfold bufStore at h
  split at h
  next y hy =>
    split at h
    next hs =>
      rw [Bool.and_eq_true, Bool.and_eq_true] at hs
      refine .inl ⟨c.sb.dropLast, y, ?_, hs.1.1, (Option.some.inj h).symm⟩
      exact (List.dropLast_append_getLast? y hy).symm
    next => exact .inr (htake h)
  next => exact .inr (htake h)

/-- After a store has entered the buffer, a load of the thread sees its bytes, and every other byte as before (R192, R205, R210). -/
theorem forward_bufStore {q : Core} {c : Ctx} {sb : List SbEnt} (h : bufStore q core c e = some sb) (sp : Span) (l : Line) (m : BitVec 64) :
    (forward core sp sb l m).2 = (forward core sp c.sb l m).2 ||| suppliedBy core sp e ∧
    ∀ b < 64, el 8 (forward core sp sb l m).1 b =
      if (suppliedBy core sp e).getLsbD b then el 8 e.data b else el 8 (forward core sp c.sb l m).1 b := by
  have hfront : (forward core sp sb l m).2 = (inFront core sp e (forward core sp c.sb l m)).2 ∧
      ∀ b < 64, el 8 (forward core sp sb l m).1 b = el 8 (inFront core sp e (forward core sp c.sb l m)).1 b := by
    rcases bufStore_cases h with ⟨init, y, hsb, hs, rfl⟩ | rfl | ⟨n, rfl⟩
    · rw [hsb, forward_concat, forward_concat]
      exact inFront_joined hs _
    · rw [forward_concat]
      exact ⟨rfl, fun _ _ => rfl⟩
    · rw [forward_concat, forward_spillOldest]
      exact ⟨rfl, fun _ _ => rfl⟩
  exact ⟨hfront.1, fun b hb => (hfront.2 b hb).trans (el_inFront _ hb)⟩

end

end Sys2Proof.Machine
end

section
/-! Stores in .c, .x and .g enter the buffer: the settlement of O21 (R191, R195, R200, R205). -/
namespace Sys2Proof.Machine
open Sys2Proof.Manual

section
variable {s : State} {i : Instr} {e : SbEnt} {ea : Word}

/-! ### ST and VST -/

/-- ST and VST in .c, .x or .g at a sound address perform the store of their form. -/
theorem storeForm_body (h : storeForm s i = some (e, ea)) (hc : Clear i s = true) :
    ∃ body am n data mask bset, exec i s = .next (issue i body s) ∧ am ≠ .l ∧ e = s.entry am ea data mask bset ∧
      body s = s.storeAt am ea n data mask bset := by
  unfold storeForm at h
  split at h
  next _ sz bset d m =>
    split at h
    next ea' hea =>
      obtain ⟨hm, h⟩ := Option.ite_none_left_eq_some.mp h
      cases h
      refine ⟨_, _, stN sz, _, _, _, rfl, hm, rfl, ?_⟩
      rw [doSt, stBytes_eq_stN, withOp_of_soundEa hc hea, rd_of_clear hc, dataAt, fld_5_0]
    next => cases h
  next g bset d m =>
    split at h
    next ea' hea =>
      obtain ⟨hm, h⟩ := Option.ite_none_left_eq_some.mp h
      cases h
      refine ⟨_, _, 64, _, _, _, rfl, hm, rfl, ?_⟩
      rw [doVst, withOp_of_soundEa hc hea, rd_of_clear hc]
    next => cases h
  next => cases h

/-! ### VSTX in .c -/

theorem fromByte_word (l : Line) (i : Nat) : fromByte l (4 * i) 4 = (l.extractLsb' (32 * i) 32).toNat := by
  rw [fromByte, BitVec.extractLsb'_toNat, Nat.shiftRight_eq_div_pow, show 8 * (4 * i) = 32 * i by omega]

/-- The entry of a lane of VSTX. -/
def State.laneEntry (s : State) (src : Line) (ea : Word) (i : Nat) : SbEnt :=
  s.entry .c ea (atByte (ea.toNat % 64) (src.extractLsb' (32 * i) 32).toNat) (byteMask (ea.toNat % 64) 4) false

/-- A step of VSTX in .c. -/
def vstxStep (src : Line) (t : State) (x : Nat × Word) : State :=
  if t.took.isSome then t else t.storeAt .c x.2 4 (laneData x.1 src x.2) (byteMask (fld x.2 5 0) 4) false

theorem vstxStep_of_room {u : State} {src : Line} {j : Nat} {sb : List SbEnt} (htook : u.took = none) (hhalf : u.cx.half = 0)
    (hsb : bufStore u.mine u.me.1 u.cx (u.laneEntry src ea j) = some sb) :
    vstxStep src u (j, ea) = u.onCx fun c => { c with sb := sb } := by
  have hpc : u.pcNow = u.cx.pc := pcNow_of_half hhalf
  rw [State.laneEntry, State.entry, ← hpc] at hsb
  rw [vstxStep, htook, if_neg (by simp), State.storeAt, if_neg (by decide), laneData, fld_5_0, fromByte_word]
  simp only [hsb]

/-- Lanes whose stores all find room enter the buffer one after another (R200, R205). -/
theorem foldl_vstxStep {src : Line} {g : Nat → Word} : ∀ (is : List Nat) (u t : State), u.took = none → u.cx.half = 0 → u.cx.pc = s.cx.pc →
    u.buffers (is.map fun j => s.laneEntry src (g j) j) = some t →
    (is.map fun j => (j, g j)).foldl (vstxStep src) u = t ∧ t.took = none ∧ ∃ b, t.cx = { u.cx with sb := b }
  | [], u, t, htook, _, _, h => by
    cases h
    exact ⟨rfl, htook, u.cx.sb, rfl⟩
  | j :: is, u, t, htook, hhalf, hpc, h => by
    rw [List.map_cons, State.buffers] at h
    split at h
    next sb hsb =>
      have hent : s.laneEntry src (g j) j = u.laneEntry src (g j) j := by
        rw [State.laneEntry, State.laneEntry, State.entry, State.entry, hpc]
      rw [hent] at hsb
      obtain ⟨ht, htk, b, hcx⟩ := foldl_vstxStep is (u.onCx fun c => { c with sb := sb }) t htook (by simpa using hhalf) (by simpa using hpc) h
      refine ⟨?_, htk, b, by rw [hcx, State.cx_onCx]⟩
      rw [List.map_cons, List.foldl_cons, vstxStep_of_room htook hhalf hsb]
      exact ht
    next => cases h

theorem exec_vstx_buffers {h : Hdr} {d : VReg} {a : GReg} {b : VReg} {sc : BitVec 2} {disp : BitVec 16} {t : State}
    (hc : Clear (.vstx h true d a b sc disp) s = true)
    (hok : ∀ i ∈ lanesOf s.cx.regs h, (laneEa s.cx.regs a b sc disp i).toNat < 2 ^ 26 ∧ (laneEa s.cx.regs a b sc disp i).toNat % 4 = 0)
    (ht : s.buffers ((lanesOf s.cx.regs h).map fun i => s.laneEntry (s.cx.regs.getV d) (laneEa s.cx.regs a b sc disp i) i) = some t) :
    exec (.vstx h true d a b sc disp) s = .next t.pass := by
  have f := clear_facts hc
  have haddrs := laneAddrs_ok (cm := true) (rd_of_clear hc) fun i hi => by
    obtain ⟨hlt, hal⟩ := hok i hi
    exact ⟨by simpa [eaClean, fld_high_eq_zero] using hlt, hal, fun hf => by cases hf⟩
  obtain ⟨hfold, htook, sb, hcx⟩ := foldl_vstxStep _ s t f.took f.half rfl ht
  have hb : doVstx h true d a b sc disp s = t := by
    simp only [doVstx, haddrs, rd_of_clear hc, if_true]
    change (match (((lanesOf s.cx.regs h).map fun i => (i, laneEa s.cx.regs a b sc disp i)).foldl (vstxStep (s.cx.regs.getV d)) s).took with
      | some k => s.trap STORE_SPILL k.addr
      | none => ((lanesOf s.cx.regs h).map fun i => (i, laneEa s.cx.regs a b sc disp i)).foldl (vstxStep (s.cx.regs.getV d)) s) = t
    rw [hfold, htook]
  exact congrArg Host.Outcome.next (issue_of_access hc hb (htook.trans f.took.symm) hcx)

end

/-- Settles O21: a store outside .l is one entry of the thread's buffer, and an entry that has been made supplies its bytes to the thread's
loads in front of all that stood there before. -/
theorem storeBuffer : Obligations.StoreBuffer := by
  unfold Obligations.StoreBuffer
  refine ⟨⟨fun i s e ea hf hc => ?_, fun h d a b sc disp s hc hok t ht => exec_vstx_buffers hc hok ht⟩,
    fun k core c e sb sp l m h => forward_bufStore h sp l m⟩
  obtain ⟨body, am, n, data, mask, bset, hexec, hm, rfl, hb⟩ := storeForm_body hf hc
  refine ⟨fun sb hsb => hexec.trans (congrArg Host.Outcome.next (issue_storeAt_of_room hc hm hb hsb)), fun hfull hh hv => ⟨_, hexec, ?_⟩⟩
  refine issue_traps hc hh hv (hb.trans ?_)
  have hpc : s.pcNow = s.cx.pc := pcNow_of_clear hc
  rw [State.entry, ← hpc] at hfull
  rw [State.storeAt, if_neg hm]
  simp only [hfull]
  rfl

end Sys2Proof.Machine
end

section
/-! What a synchronising access at the thread's own port leaves of the threads (O22, R196, R198, R402). -/
namespace Sys2Proof.Machine
open Sys2Proof.Manual

section
variable {s t u : State} {i : Instr} {core off : Nat} {a : Asker}

/-! ### Ports leave the threads alone -/

/-- Every thread is as it was; memory may differ, since a watchpoint writes a trace record (R402). -/
structure ThreadsStay (s t : State) : Prop where
  threads : s.threadsKept t
  me      : t.me = s.me
  took    : t.took = s.took

theorem ThreadsStay.refl (s : State) : ThreadsStay s s := ⟨fun _ _ => rfl, rfl, rfl⟩

theorem ThreadsStay.trans (h : ThreadsStay s t) (h' : ThreadsStay t u) : ThreadsStay s u :=
  ⟨fun c y => (h'.threads c y).trans (h.threads c y), h'.me.trans h.me, h'.took.trans h.took⟩

theorem ThreadsStay.cx (h : ThreadsStay s t) : t.cx = s.cx := by
  rw [State.cx, h.me]
  exact h.threads ..

theorem Beside.threadsStay (h : Beside s t) : ThreadsStay s t := ⟨h.threads, h.me, h.took⟩

theorem threadsStay_ite {p : Prop} [Decidable p] (ht : ThreadsStay s t) (hu : ThreadsStay s u) : ThreadsStay s (if p then t else u) := by
  split
  · exact ht
  · exact hu

theorem threadsStay_setCore {k : Core} (h : k.ctxs = (s.core core).ctxs) : ThreadsStay s (s.setCore core k) :=
  (beside_onCore (f := fun _ => k) h).threadsStay

theorem threadsStay_ringWrite (s : State) (key : Nat) (l : List Byte) : ThreadsStay s (s.ringWrite key l) := by
  unfold State.ringWrite
  dsimp only
  split
  · exact ⟨fun _ _ => rfl, rfl, rfl⟩
  · exact ⟨fun _ _ => rfl, rfl, rfl⟩

theorem threadsStay_startStop (s : State) (scope core : Nat) (edge : Bool) (extra : Option Nat) :
    ThreadsStay s (s.startStop scope core edge extra) := by
  unfold State.startStop
  split
  · exact ThreadsStay.refl s
  · exact ⟨fun _ _ => rfl, rfl, rfl⟩

theorem threadsStay_fire (l : Tab Watch) (glob : Bool) (unit die : Nat) (a : Asker) (addr n acc : Nat) (val : Nat → Word) (s : State) :
    ThreadsStay s (s.fire l glob unit die a addr n acc val) := by
  induction l generalizing s with
  | nil => exact ThreadsStay.refl s
  | cons q l ih =>
    rw [State.fire]
    refine ThreadsStay.trans ?_ (ih _)
    split
    · exact (threadsStay_ringWrite ..).trans (threadsStay_startStop ..)
    · exact ThreadsStay.refl s

theorem threadsStay_firePool (s : State) (core : Nat) (a : Asker) (off n acc : Nat) : ThreadsStay s (s.firePool core a off n acc) := by
  unfold State.firePool
  split
  · exact ThreadsStay.refl s
  · exact threadsStay_fire ..

theorem threadsStay_logPort (s : State) (core : Nat) (a : Asker) (addr : Word) (kind : BitVec 8) : ThreadsStay s (s.logPort core a addr kind) := by
  unfold State.logPort
  split
  · exact ThreadsStay.refl s
  · exact threadsStay_setCore rfl

theorem threadsStay_consumePoison (s : State) (a : Asker) : ThreadsStay s (s.consumePoison a) := by
  unfold State.consumePoison
  split
  · exact ThreadsStay.refl s
  · split
    · exact ThreadsStay.refl s
    · exact ⟨fun _ _ => rfl, rfl, rfl⟩

theorem threadsStay_reply (s : State) (r : Req) (data : Line) (flags : BitVec 6) (fault : Option RFault) :
    ThreadsStay s (s.reply r data flags fault) := by
  unfold State.reply
  split
  · exact ThreadsStay.refl s
  · exact (beside_send ..).threadsStay

theorem ctxs_setFull (k : Core) (off : Nat) (full : Bool) : (k.setFull off full).ctxs = k.ctxs := rfl

theorem threadsStay_syncDo (s : State) (a : Asker) (core off : Nat) (op : ROp) : ThreadsStay s (s.syncDo a core off op).2 := by
  have hset (full : Bool) (acc : Nat) : ThreadsStay s ((s.setCore core ((s.core core).setFull off full)).firePool core a off 8 acc) :=
    (threadsStay_setCore (ctxs_setFull ..)).trans (threadsStay_firePool ..)
  cases op with
  | lds | feset | feclr => exact hset ..
  | ldf => exact threadsStay_firePool ..
  | sts x => exact (threadsStay_setCore (by rw [ctxs_setFull, ctxs_poolWrite])).trans (threadsStay_firePool ..)
  | _ => exact ThreadsStay.refl s

theorem threadsStay_scanWaiters (core off n : Nat) (s : State) : ThreadsStay s (s.scanWaiters core off n) := by
  induction n generalizing s with
  | zero => exact ThreadsStay.refl s
  | succ n ih =>
    unfold State.scanWaiters
    dsimp only
    split
    · exact ThreadsStay.refl s
    · split
      · exact ThreadsStay.refl s
      · refine ThreadsStay.trans ?_ (ih _)
        refine ThreadsStay.trans ?_ (threadsStay_reply ..)
        refine ThreadsStay.trans ?_ (threadsStay_syncDo ..)
        exact threadsStay_setCore rfl

/-- A synchronising access at a port leaves every thread as it was: what it answers is a message. -/
theorem threadsStay_pSync (s : State) (r : Req) (core off : Nat) (win : Bool) (addr : Word) : ThreadsStay s (s.pSync r core off win addr) := by
  unfold State.pSync
  split
  · exact (threadsStay_logPort ..).trans (threadsStay_reply ..)
  · refine threadsStay_ite ?_ (threadsStay_ite ?_ (threadsStay_ite ?_ ?_))
    · exact (threadsStay_logPort ..).trans ((threadsStay_consumePoison ..).trans (threadsStay_reply ..))
    · exact (threadsStay_syncDo ..).trans ((threadsStay_reply ..).trans (threadsStay_scanWaiters ..))
    · exact threadsStay_setCore rfl
    · exact (beside_send ..).threadsStay

end

end Sys2Proof.Machine
end

section
/-! LDS, STS, LDF, FESET, FECLR and ATOM: the settlement of O22 (R196, R198, R207). -/
namespace Sys2Proof.Machine
open Sys2Proof.Manual

section
variable {s : State} {i : Instr} {m : MemOp} {ea : Word} {op : ROp} {am : Mode} {n : Nat}

/-! ### What a change of the thread's own context leaves of its core -/

theorem core_onCx (s : State) (f : Ctx → Ctx) (c : Nat) : ∃ cs, (s.onCx f).core c = { s.core c with ctxs := cs } := by
  change ∃ cs, (s.onCore s.me.1 fun k => k.setCtx s.me.2 (f s.cx)).core c = _
  rw [State.core_onCore]
  by_cases hc : c = s.me.1
  · rw [if_pos hc, hc]
    exact ⟨_, rfl⟩
  · rw [if_neg hc]
    exact ⟨_, rfl⟩

/-- The stores that a thread waits for are those of its buffer and of its core's journal. -/
theorem clearOf_onCx {f : Ctx → Ctx} (hsb : (f s.cx).sb = s.cx.sb) (hinc : (f s.cx).inc = s.cx.inc) :
    (s.onCx f).clearOf am ea n = s.clearOf am ea n := by
  obtain ⟨cs, hk⟩ := core_onCx s f s.me.1
  have hcx : ((s.onCx f).core s.me.1).ctx s.me.2 = f s.cx := s.cx_onCx f
  have hfl (sp : Span) : ((s.onCx f).core s.me.1).inFlightHits s.me.1 s.me.2 s.cx.inc sp = (s.core s.me.1).inFlightHits s.me.1 s.me.2 s.cx.inc sp := by
    simp only [Core.inFlightHits, hk]
  simp only [State.clearOf, State.isClear, State.onCx_me, hcx, hsb, hinc, hfl]
  rfl

theorem poolCheck_onCx (f : Ctx → Ctx) (c off len : Nat) (win : Bool) (a : Asker) (need : Need) :
    (s.onCx f).poolCheck c off len win a need = s.poolCheck c off len win a need := by
  obtain ⟨cs, hk⟩ := core_onCx s f c
  have hunits : (s.onCx f).units = s.units := rfl
  have hrel : (s.onCx f).rel = s.rel := rfl
  simp only [State.poolCheck, State.fenced, State.accBusy, State.tileBusy, State.l1Cards, State.unit, Core.reachable, hk, hunits, hrel]
  rfl

theorem mine_onCx (s : State) (f : Ctx → Ctx) : ∃ cs, (s.onCx f).mine = { s.mine with ctxs := cs } := core_onCx s f s.me.1

theorem memWf_onCx (s : State) (f : Ctx → Ctx) : (s.onCx f).mine.memWf = s.mine.memWf := by
  obtain ⟨cs, hk⟩ := mine_onCx s f
  rw [hk]
  rfl

/-! ### LDS, STS and LDF -/

/-- A full-empty access at the thread's own pool goes to its port (R196). -/
theorem sendReq_sync_local {r : Req} {core off : Nat} (hop : r.op.usesFull = true) (hp : r.place = .pool core off false ea) (t : State) :
    t.sendReq r = t.pSync r core off false ea := by
  obtain ⟨who, place, op, tag, lane⟩ := r
  cases hp
  cases op with
  | lds | sts | ldf | feset | feclr => rfl
  | _ => cases hop

/-- The state in which a synchronising access has parked its thread. -/
def State.syncParked (s : State) (ea : Word) (d : Dest) : State :=
  (s.onCx fun c => { c with syncEa := ea, nextTag := s.cx.nextTag + 1 }).park .sync (.reply s.cx.nextTag) (.got d false) true

theorem syncAt_asks {d : Word → Dest} (hc : Clear i s = true) (hop : op.usesFull = true) (hea : s.soundEa m 8 = some ea)
    (hgate : s.gateOk m.am ea 8 = true) (hclear : s.clearOf m.am ea 8 = true) :
    s.syncAt m op d = if m.am = .l then (s.syncParked ea (d ea)).pSync (s.reqFor (placeOf s.me.1 m.am ea) op s.cx.nextTag) s.me.1 (ea.toNat % 2 ^ 16) false ea
      else (s.syncParked ea (d ea)).send (.req (s.reqFor (placeOf s.me.1 m.am ea) op s.cx.nextTag)) := by
  have hclear' : (s.onCx fun c => { c with syncEa := ea }).isClear s.me.1 s.me.2 [spanOf s.me.1 m.am ea 8] = true :=
    (clearOf_onCx (s := s) (f := fun c => { c with syncEa := ea }) rfl rfl).trans hclear
  have hask : s.syncAt m op d = (s.syncParked ea (d ea)).sendReq (s.reqFor (placeOf s.me.1 m.am ea) op s.cx.nextTag) := by
    rw [State.syncAt, withOp_of_soundEa hc hea, localGate_of_gateOk hgate]
    refine (afterClear_of_isClear hclear').trans ?_
    rw [State.sendSync, State.onCx_onCx, State.cx_onCx]
    rfl
  rw [hask]
  split
  next hm =>
    rw [sendReq_sync_local (r := s.reqFor (placeOf s.me.1 m.am ea) op s.cx.nextTag) (core := s.me.1) (off := ea.toNat % 2 ^ 16) hop]
    rw [hm, ← fld_15_0]
    rfl
  next hm => exact sendReq_of_far (placeOf_far hm)

/-- LDS, STS and LDF ask and park (R196). -/
theorem issue_syncAt {body : State → State} {d : Word → Dest} (hc : Clear i s = true) (hb : body s = s.syncAt m op d) (hop : op.usesFull = true)
    (hea : s.soundEa m 8 = some ea) (hgate : s.gateOk m.am ea 8 = true) (hclear : s.clearOf m.am ea 8 = true) :
    issue i body s = if m.am = .l then
        (s.syncParked ea (d ea)).pSync (s.reqFor (placeOf s.me.1 m.am ea) op s.cx.nextTag) s.me.1 (ea.toNat % 2 ^ 16) false ea
      else (s.syncParked ea (d ea)).send (.req (s.reqFor (placeOf s.me.1 m.am ea) op s.cx.nextTag)) := by
  have hstay : ThreadsStay (s.syncParked ea (d ea)) (s.syncAt m op d) := by
    rw [syncAt_asks hc hop hea hgate hclear]
    exact threadsStay_ite (threadsStay_pSync ..) (beside_send ..).threadsStay
  have hcx : (s.syncAt m op d).cx = { s.cx with
      syncEa := ea, nextTag := s.cx.nextTag + 1, run := .parked .sync (.reply s.cx.nextTag) (.got (d ea) false) true, syncTurns := 0, due := false } := by
    rw [hstay.cx, State.syncParked, State.park, State.onCx_onCx, State.cx_onCx]
  rw [← syncAt_asks hc hop hea hgate hclear]
  exact issue_stays hc hb hstay.took (.inr (by rw [hcx])) (.inr (by rw [hcx])) (by rw [hcx]; simp)

/-- LDS, STS and LDF perform the access of their form. -/
theorem syncForm_body {d : Word → Dest} (h : syncForm s.cx.regs i = some (m, op, d)) (hc : Clear i s = true) :
    ∃ body, exec i s = .next (issue i body s) ∧ body s = s.syncAt m op d ∧ op.usesFull = true := by
  have hdest (g : GReg) : gDest g .d = fun ea : Word => .g g .d (ea.toNat % 64) := by
    funext ea
    rw [gDest, fld_5_0]
  unfold syncForm at h
  split at h
  next _ g m' =>
    cases h
    exact ⟨_, rfl, by rw [doLds, hdest], rfl⟩
  next _ g m' =>
    cases h
    exact ⟨_, rfl, by rw [doSts, rd_of_clear hc], rfl⟩
  next _ g m' =>
    cases h
    exact ⟨_, rfl, by rw [doLdf, hdest], rfl⟩
  next => cases h

/-! ### FESET and FECLR -/

theorem feAt_asks (hc : Clear i s = true) (hea : s.soundEa m 8 = some ea) (hgate : s.gateOk m.am ea 8 = true)
    (hclear : s.clearOf m.am ea 8 = true) :
    s.feAt m op = (s.addPend { s.newPend .none with reqs := [s.reqFor (placeOf s.me.1 m.am ea) op s.cx.nextTag] }).sendReq
      (s.reqFor (placeOf s.me.1 m.am ea) op s.cx.nextTag) := by
  rw [State.feAt, withOp_of_soundEa hc hea, localGate_of_gateOk hgate, afterClear_of_isClear hclear]
  rfl

/-- FESET and FECLR ask and go on (R196). -/
theorem issue_feAt {body : State → State} (hc : Clear i s = true) (hb : body s = s.feAt m op) (hop : op.usesFull = true)
    (hea : s.soundEa m 8 = some ea) (hgate : s.gateOk m.am ea 8 = true) (hclear : s.clearOf m.am ea 8 = true) :
    (m.am ≠ .l → farLong s (issue i body s) .none (placeOf s.me.1 m.am ea) op) ∧
    (m.am = .l → issue i body s = ((s.addPend { s.newPend .none with reqs := [s.reqFor (placeOf s.me.1 m.am ea) op s.cx.nextTag] }).pSync
      (s.reqFor (placeOf s.me.1 m.am ea) op s.cx.nextTag) s.me.1 (ea.toNat % 2 ^ 16) false ea).pass) := by
  rw [feAt_asks hc hea hgate hclear] at hb
  refine ⟨fun hm => ?_, fun hm => ?_⟩
  · rw [sendReq_of_far (placeOf_far hm)] at hb
    exact (farLong_issue_of_pend hc hb rfl rfl rfl).1
  · rw [sendReq_sync_local (core := s.me.1) (off := ea.toNat % 2 ^ 16) hop (by rw [hm, ← fld_15_0]; rfl)] at hb
    have hstay := threadsStay_pSync (s.addPend { s.newPend .none with reqs := [s.reqFor (placeOf s.me.1 m.am ea) op s.cx.nextTag] })
      (s.reqFor (placeOf s.me.1 m.am ea) op s.cx.nextTag) s.me.1 (ea.toNat % 2 ^ 16) false ea
    exact issue_of_access hc hb hstay.took (hstay.cx.trans (cx_addPend ..))

/-! ### ATOM -/

section
variable {h : Hdr} {wd : Wd} {aop : AtomOp} {d a b : GReg} {disp : BitVec 16}

/-- The request of an ATOM. -/
def State.atomReq (s : State) (wd : Wd) (aop : AtomOp) (am : Mode) (d b : GReg) (ea : Word) : Req :=
  s.reqFor (placeOf s.me.1 am ea) (.atom aop wd (s.cx.regs.getG b) (s.cx.regs.getG d)) s.cx.nextTag

/-- The long result that an ATOM enters. -/
def State.atomPend (s : State) (wd : Wd) (aop : AtomOp) (am : Mode) (d b : GReg) (ea : Word) : Pend :=
  { s.newPend (gDest d (atomSz wd) ea) with reqs := [s.atomReq wd aop am d b ea] }

theorem doAtom_asks (hc : Clear (.atom h wd aop am d a b disp) s = true) (hea : soundAt am (s.cx.regs.getG a) 0 disp (wdWidth wd / 8) = some ea)
    (hgate : s.gateOk am ea (wdWidth wd / 8) = true) (hclear : s.clearOf am ea (wdWidth wd / 8) = true) :
    doAtom wd aop am d a b disp s = (s.addPend (s.atomPend wd aop am d b ea)).sendReq (s.atomReq wd aop am d b ea) := by
  unfold doAtom
  rw [rd_of_clear hc]
  refine (withAddr_of_soundAt hea).trans ?_
  rw [localGate_of_gateOk hgate]
  exact afterClear_of_isClear hclear

theorem exec_atom_far (hc : Clear (.atom h wd aop am d a b disp) s = true) (hea : soundAt am (s.cx.regs.getG a) 0 disp (wdWidth wd / 8) = some ea)
    (hgate : s.gateOk am ea (wdWidth wd / 8) = true) (hclear : s.clearOf am ea (wdWidth wd / 8) = true) (hm : am ≠ .l) :
    farLong s (issue (.atom h wd aop am d a b disp) (doAtom wd aop am d a b disp) s) (.g d (atomSz wd) (ea.toNat % 64)) (placeOf s.me.1 am ea)
      (.atom aop wd (s.cx.regs.getG b) (s.cx.regs.getG d)) := by
  have hb := doAtom_asks hc hea hgate hclear
  rw [sendReq_of_far (placeOf_far hm)] at hb
  rw [← fld_5_0]
  exact (farLong_issue_of_pend hc hb rfl rfl rfl).1

/-- What an ATOM writes: the operation's value of the word, its comparand and its operand (R198). -/
def State.atomNewAt (s : State) (wd : Wd) (aop : AtomOp) (d b : GReg) (off : Nat) : Nat :=
  atomNew aop (wdWidth wd) (leNat (fun k => s.poolByte s.me.1 (off + k)) (wdWidth wd / 8)) ((s.cx.regs.getG b).toNat % 2 ^ wdWidth wd)
    ((s.cx.regs.getG d).toNat % 2 ^ wdWidth wd)

theorem pAtom_of_portOk {off : Nat} {u : State} (hu : ∃ f, u = s.onCx f) (h : PortOk s off (wdWidth wd / 8) .sync) (hline : off % 64 + wdWidth wd / 8 ≤ 64) :
    u.pAtom s.asker s.me.1 off false ea aop wd (s.cx.regs.getG b) (s.cx.regs.getG d) =
      .done (s.mine.poolLine off) (u.wrPool off (atByte (off % 64) (s.atomNewAt wd aop d b off)) (byteMask (off % 64) (wdWidth wd / 8))) := by
  obtain ⟨f, rfl⟩ := hu
  obtain ⟨cs, hk⟩ := core_onCx s f s.me.1
  have hclean : ((s.onCx f).core s.me.1).poisoned off (wdWidth wd / 8) = false := by
    rw [hk]
    exact h.clean
  have hline' : ((s.onCx f).core s.me.1).poolLine off = s.mine.poolLine off := by rw [hk]; rfl
  have hval : fromByte (s.mine.poolLine off) (off % 64) (wdWidth wd / 8) = leNat (fun k => s.poolByte s.me.1 (off + k)) (wdWidth wd / 8) := by
    have haddr : off / 64 * 64 + off % 64 = off := by omega
    rw [Core.poolLine, fromByte_rdLine _ _ hline, haddr, ← leNat_rdByte]
    rfl
  have hwps : ∀ dt mk, ((((s.onCx f).onCore s.me.1 fun k => k.poolWrite (off / 64 * 64) dt mk)).core s.me.1).wps = [] := by
    intro dt mk
    rw [State.core_onCore_self, wps_poolWrite, hk]
    exact h.wps
  simp only [State.pAtom, poolCheck_onCx, h.check, hclean, hline', hval, firePool_of_no_wps (hwps _ _)]
  rfl

/-- The state after an ATOM at the thread's own port. -/
def State.atomDone (s : State) (wd : Wd) (aop : AtomOp) (d b : GReg) (ea : Word) : State :=
  ((s.addPend (s.atomPend wd aop .l d b ea)).wrPool ea.toNat (atByte (ea.toNat % 64) (s.atomNewAt wd aop d b ea.toNat))
    (byteMask (ea.toNat % 64) (wdWidth wd / 8))).send
      (.reply { dst := s.whoMe, tag := s.cx.nextTag, data := s.mine.poolLine ea.toNat, flags := 0, fault := none, lane := none })

theorem byteOf_ofNat (v : Nat) {k : Nat} (hk : k < 8) : BitVec.ofNat 8 (v / 2 ^ (8 * k)) = byteOf (BitVec.ofNat 64 v) k := by
  refine BitVec.eq_of_getLsbD_eq fun j hj => ?_
  rw [byteOf, BitVec.getLsbD_extractLsb', BitVec.getLsbD_ofNat, BitVec.getLsbD_ofNat, Nat.testBit_div_two_pow, Nat.add_comm j]
  simp [hj, show 8 * k + j < 64 by omega]

theorem wd_bytes (wd : Wd) : wdWidth wd / 8 ∣ 64 ∧ wdWidth wd / 8 ≤ 8 := by cases wd <;> decide

theorem doAtom_local (hc : Clear (.atom h wd aop .l d a b disp) s = true)
    (hea : soundAt .l (s.cx.regs.getG a) 0 disp (wdWidth wd / 8) = some ea) (hclear : s.clearOf .l ea (wdWidth wd / 8) = true)
    (hok : PortOk s ea.toNat (wdWidth wd / 8) .sync) : doAtom wd aop .l d a b disp s = s.atomDone wd aop d b ea := by
  obtain ⟨hclean, hal⟩ := eaClean_of_soundAt hea
  have hlt : ea.toNat < 2 ^ 16 := by simpa [eaClean, fld_high_eq_zero] using hclean
  have hoff : fld ea 15 0 = ea.toNat := by rw [fld_15_0, Nat.mod_eq_of_lt hlt]
  have hgate : s.gateOk .l ea (wdWidth wd / 8) = true := by
    rw [State.gateOk, hoff, hok.refusal]
    rfl
  have hatom := pAtom_of_portOk (ea := ea) (aop := aop) (d := d) (b := b) (u := s.addPend (s.atomPend wd aop .l d b ea)) ⟨_, rfl⟩ hok
    (mod_add_le_of_aligned (wd_bytes wd).1 hal)
  have hreq : s.atomReq wd aop .l d b ea =
      s.reqFor (.pool s.me.1 ea.toNat false ea) (.atom aop wd (s.cx.regs.getG b) (s.cx.regs.getG d)) s.cx.nextTag := by
    rw [State.atomReq, placeOf, poolOf, hoff]
  have hsend (u : State) : u.sendReq (s.atomReq wd aop .l d b ea) =
      match u.pAtom s.asker s.me.1 ea.toNat false ea aop wd (s.cx.regs.getG b) (s.cx.regs.getG d) with
      | .done l t => t.reply (s.atomReq wd aop .l d b ea) l 0 none
      | .fail f t => t.reply (s.atomReq wd aop .l d b ea) 0 0 (some f)
      | _ => u := by
    rw [hreq]
    rfl
  rw [doAtom_asks hc hea hgate hclear, hsend, hatom]
  rfl

/-- An ATOM in .l reads, writes and answers at once (R198). -/
theorem exec_atom_local (hc : Clear (.atom h wd aop .l d a b disp) s = true)
    (hea : soundAt .l (s.cx.regs.getG a) 0 disp (wdWidth wd / 8) = some ea) (hclear : s.clearOf .l ea (wdWidth wd / 8) = true)
    (hok : s.localOk ea.toNat (wdWidth wd / 8) .sync = true) (hwf : s.mine.memWf = true) :
    let t := issue (.atom h wd aop .l d a b disp) (doAtom wd aop .l d a b disp) s
    let byte := fun k => s.poolByte s.me.1 (ea.toNat + k)
    t.cx.regs = s.cx.regs ∧ t.cx.pc = s.cx.npc ∧ t.mem = s.mem ∧
    (∀ x, t.poolByte s.me.1 x = if ea.toNat ≤ x ∧ x < ea.toNat + wdWidth wd / 8
      then byteOf (BitVec.ofNat 64 (s.atomNewAt wd aop d b ea.toNat)) (x - ea.toNat) else s.poolByte s.me.1 x) ∧
    (∀ c x, c ≠ s.me.1 → t.poolByte c x = s.poolByte c x) ∧
    (∃ p, t.cx.pend = s.cx.pend ++ [p] ∧ p.dest = .g d (atomSz wd) (ea.toNat % 64) ∧ p.tag = s.cx.nextTag ∧ p.left = 1 ∧ p.got = 0) ∧
    ∃ l : Line, (∀ k < wdWidth wd / 8, el 8 l (ea.toNat % 64 + k) = byte k) ∧ t.chan = s.chan ++ [{ born := s.now, body := .reply {
      dst := s.whoMe, tag := s.cx.nextTag, data := l, flags := 0, fault := none, lane := none } }] := by
  intro t byte
  have hline := mod_add_le_of_aligned (wd_bytes wd).1 (eaClean_of_soundAt hea).2
  have h8 := (wd_bytes wd).2
  have hb := doAtom_local hc hea hclear (portOk_of_localOk hok)
  have hdone : Beside (s.addPend (s.atomPend wd aop .l d b ea)) (s.atomDone wd aop d b ea) :=
    (poolOnly_wrPool ..).beside.trans (beside_send ..)
  have hcx : (s.atomDone wd aop d b ea).cx = { s.cx with nextTag := s.cx.nextTag + 1, pend := s.cx.pend ++ [s.atomPend wd aop .l d b ea] } :=
    hdone.cx.trans (cx_addPend ..)
  have ht : t = (s.atomDone wd aop d b ea).pass := issue_of_access hc hb hdone.took hcx
  have hwf' : (s.addPend (s.atomPend wd aop .l d b ea)).mine.memWf = true := (memWf_onCx ..).trans hwf
  have hbyte (c x : Nat) : t.poolByte c x =
      if c = s.me.1 ∧ ea.toNat ≤ x ∧ x < ea.toNat + wdWidth wd / 8 then byteOf (BitVec.ofNat 64 (s.atomNewAt wd aop d b ea.toNat)) (x - ea.toNat)
      else s.poolByte c x := by
    have hpool : t.poolByte c x = ((s.addPend (s.atomPend wd aop .l d b ea)).wrPool ea.toNat (atByte (ea.toNat % 64) (s.atomNewAt wd aop d b ea.toNat))
        (byteMask (ea.toNat % 64) (wdWidth wd / 8))).poolByte c x := by
      rw [ht]
      exact congrArg (rdByte · x) (pool_onCx ..)
    have hold : (s.addPend (s.atomPend wd aop .l d b ea)).poolByte c x = s.poolByte c x := congrArg (rdByte · x) (pool_onCx ..)
    have hme : (s.addPend (s.atomPend wd aop .l d b ea)).me.1 = s.me.1 := rfl
    rw [hpool, poolByte_wrPool hwf', hold, hme, getLsbD_byteMask _ hline]
    simp only [decide_eq_true_eq]
    by_cases hin : c = s.me.1 ∧ ea.toNat ≤ x ∧ x < ea.toNat + wdWidth wd / 8
    · rw [if_pos hin, if_pos ⟨hin.1, by omega, by omega, by omega⟩, el_eq_lineByte, lineByte_atByte _ (by omega) (by omega),
        show x % 64 - ea.toNat % 64 = x - ea.toNat by omega, byteOf_ofNat _ (by omega)]
    · rw [if_neg hin, if_neg]
      rintro ⟨h1, h2, h3, h4⟩
      exact hin ⟨h1, by omega, by omega⟩
  have hval (k : Nat) (hk : k < wdWidth wd / 8) : el 8 (s.mine.poolLine ea.toNat) (ea.toNat % 64 + k) = byte k := by
    have haddr : ea.toNat / 64 * 64 + (ea.toNat % 64 + k) = ea.toNat + k := by omega
    rw [Core.poolLine, el_rdLine _ _ (by omega), haddr]
    rfl
  refine ⟨?_, ?_, ?_, fun x => ?_, fun c x hcne => ?_, ⟨s.atomPend wd aop .l d b ea, ?_, ?_, rfl, rfl, rfl⟩, s.mine.poolLine ea.toNat, hval, ?_⟩
  · rw [ht, State.pass, State.cx_onCx, hcx]
  · rw [ht, State.pass, State.cx_onCx, hcx]
  · rw [ht]
    exact hdone.mem
  · rw [hbyte]
    simp
  · rw [hbyte, if_neg fun h => hcne h.1]
  · rw [ht, State.pass, State.cx_onCx, hcx]
  · rw [← fld_5_0]
    rfl
  · rw [ht]
    rfl

end

end

/-- Settles O22: a synchronising access sends one request, or its own port answers it at once; LDS, STS and LDF have parked by then, the
others have entered a long result. -/
theorem synchronising : Obligations.Synchronising := by
  unfold Obligations.Synchronising
  refine ⟨fun i s m op d ea hform hc hea hgate hclear => ?_, fun i s m op ea hi hc hea hgate hclear => ?_, ?_⟩
  · obtain ⟨body, hexec, hb, hop⟩ := syncForm_body hform hc
    rw [hexec, issue_syncAt hc hb hop hea hgate hclear]
    simp only [State.syncParked, State.reqFor]
  · obtain ⟨h, ⟨rfl, rfl⟩ | ⟨rfl, rfl⟩⟩ := hi
    · exact ⟨_, rfl, issue_feAt hc rfl rfl hea hgate hclear⟩
    · exact ⟨_, rfl, issue_feAt hc rfl rfl hea hgate hclear⟩
  · intro h wd op am d a b disp ea s hc n hea hgate hclear dest
    cases wd with
    | w =>
      refine ⟨_, rfl, exec_atom_far hc hea hgate hclear, ?_⟩
      rintro rfl hok hwf
      exact exec_atom_local hc hea hclear hok hwf
    | d =>
      refine ⟨_, rfl, exec_atom_far hc hea hgate hclear, ?_⟩
      rintro rfl hok hwf
      exact exec_atom_local hc hea hclear hok hwf

end Sys2Proof.Machine
end

section
/-! The steps of an engine's operation: it opens its buffer, its stores leave one by one, it reports (O46, R205, R208, R220, R221). -/
namespace Sys2Proof.Machine
open Sys2Proof.Manual

section
variable {s : State} {a : Asker} {tag : Nat} {lane : Option Nat} {k : EX → Except Stalled EX} {fin : State → Option RFault → State} {b : EBuf}

/-- A step that opens its buffer: it reports where no store passed into it, and else its stores wait there. -/
theorem engineStep_opens {y : EX} (hnone : s.ebuf a.agent = none) (hpage : s.pageWait a tag lane = false)
    (hk : k ((s.setEbuf (EBuf.open' a.agent tag lane)).engine a tag lane) = .ok y) (hb : y.s.ebuf a.agent = some b) :
    s.engineStep a tag lane k fin = if b.ents.isEmpty then fin ((y.s.unhold a tag lane).dropEbuf a.agent) y.f
      else (y.s.unhold a tag lane).setEbuf { b with fault := y.f } := by
  have hb' : (y.s.unhold a tag lane).ebuf a.agent = some b := hb
  simp only [State.engineStep, hnone, State.engineRead, hpage, if_neg Bool.false_ne_true]
  rw [State.engine] at hk
  simp only [hk, hb']

section
variable (hb : s.ebuf a.agent = some b) (htag : b.tag = tag) (hlane : b.lane = lane)
include hb htag hlane

theorem engineStep_of_buffer : s.engineStep a tag lane k fin =
    if b.ents.isEmpty then (if s.mem.fwds.isEmpty then fin (s.dropEbuf a.agent) b.fault else s) else s.engineDrain a b := by
  simp only [State.engineStep, hb, htag, hlane, bne_self_eq_false, Bool.or_self, if_neg Bool.false_ne_true]

/-- A step whose stores have all been acknowledged reports. -/
theorem engineStep_reports (hents : b.ents = []) (hfwds : s.mem.fwds = []) :
    s.engineStep a tag lane k fin = fin (s.dropEbuf a.agent) b.fault := by
  rw [engineStep_of_buffer hb htag hlane, hents, hfwds]
  rfl

variable {e : EEnt} {rest : List EEnt} (hents : b.ents = e :: rest) (hpage : s.pageWait a tag lane = false)
include hents hpage

/-- One store of the buffer is made at its home. -/
theorem engineStep_drains : s.engineStep a tag lane k fin =
    match EX.get (s.engine a tag lane) (s.eStore e.who e.pl e.data e.mask) with
    | .ok (_, x) => (x.s.unhold a tag lane).setEbuf { b with ents := rest, fault := b.fault.or x.f }
    | .error (some f) => s.holdFor a tag lane f
    | .error none => s := by
  rw [engineStep_of_buffer hb htag hlane, hents, List.isEmpty_cons, if_neg Bool.false_ne_true]
  simp only [State.engineDrain, hents, htag, hlane, State.engineRead, hpage, if_neg Bool.false_ne_true]
  rw [State.engine]
  cases EX.get { s := s, a := a, tag := tag, lane := lane, f := none, pois := false } (s.eStore e.who e.pl e.data e.mask) with
  | ok p => rfl
  | error f =>
    cases f with
    | none => rfl
    | some f => rfl

theorem engineStep_drains_done {l : Line} {u : State} (hst : s.eStore e.who e.pl e.data e.mask = .done l u) :
    s.engineStep a tag lane k fin = (u.unhold a tag lane).setEbuf { b with ents := rest } := by
  rw [engineStep_drains hb htag hlane hents hpage, hst]
  change (u.unhold a tag lane).setEbuf { b with ents := rest, fault := b.fault.or none } = _
  rw [Option.or_none]

theorem engineStep_drains_fail {f : RFault} {u : State} (hst : s.eStore e.who e.pl e.data e.mask = .fail f u) (hf : f.absent = false) :
    s.engineStep a tag lane k fin = (u.unhold a tag lane).setEbuf { b with ents := rest, fault := b.fault.or (some f) } := by
  have hget : EX.get (s.engine a tag lane) (.fail f u) = .ok (none, { s.engine a tag lane with s := u, f := some f, pois := decide (f.kind = 5) }) := by
    simp [EX.get, hf, State.engine]
  rw [engineStep_drains hb htag hlane hents hpage, hst, hget]

theorem engineStep_drains_absent {f : RFault} {u : State} (hst : s.eStore e.who e.pl e.data e.mask = .fail f u) (hf : f.absent = true)
    (hheld : s.heldFor a tag lane = none) : s.engineStep a tag lane k fin = s.holdFor a tag lane f := by
  have hget : EX.get (s.engine a tag lane) (.fail f u) = .error (some f) := by
    simp [EX.get, hf, State.engine, hheld]
  rw [engineStep_drains hb htag hlane hents hpage, hst, hget]

theorem engineStep_drains_wait (hst : s.eStore e.who e.pl e.data e.mask = .wait) : s.engineStep a tag lane k fin = s := by
  rw [engineStep_drains hb htag hlane hents hpage, hst]
  rfl

end
end

end Sys2Proof.Machine
end

section
/-! What the copy unit's operations perform and report (O46, R269 to R271, R274, R285, R290). -/
namespace Sys2Proof.Machine
open Sys2Proof.Manual

section
variable {s : State} {core chunk : Nat} {o : COp} {e : Instr} {lane : Option Nat}

/-! ### The reports -/

/-- A chunk has been handled: its fault, its bit, and the end of the copy with its last chunk (R269, R290). -/
def State.reportChunk (u : State) (core op chunk n : Nat) (h : HReg) (done : Word) (old f : Option RFault) : State :=
  let done := done ||| (1#64 <<< chunk)
  let u := u.onCore core fun k => k.handleRec h (if old.isNone then f else none)
  let u := u.onCopy core op fun o => { o with done := done, fault := o.fault.or f }
  let u := if f.isNone then u.onCore core fun k => k.onHandle h fun x => { x with bits := x.bits ||| (1#64 <<< chunk) } else u
  u.copyOver core op (chunksOf n) h done

/-- A stage has been filled (R270, R290). -/
def State.reportStage (u : State) (core op : Nat) (h : HReg) (a : Word) (n size stages : Nat) (bad : Word) (old f : Option RFault) : State :=
  let u := u.onCore core fun k => (k.onCb (fld a 2 0) fun q =>
    { q with free := q.free - 1, filled := q.filled + 1, pidx := (q.pidx + 1) % q.count }).handleRec h (if old.isNone then f else none)
  let last := (stages + 1) * size
  let hit := (upTo (chunksOf n)).filter fun c => decide (512 * c < last) && decide (stages * size < 512 * (c + 1))
  let bad := if f.isSome then hit.foldl (fun m c => m ||| (1#64 <<< c)) bad else bad
  let full : Word := BitVec.ofNat 64 (2 ^ chunksWithin n last - 1) &&& ~~~bad
  let u := u.onCopy core op fun o => { o with done := bad, stages := stages + 1, fault := o.fault.or f }
  let u := u.onCore core fun k => k.onHandle h fun x => { x with bits := x.bits ||| full }
  if last ≥ n then (u.onCore core fun k => k.onHandle h fun x => { x with busy := false }).endCopy core op else u

/-- A deal or a gather is over: its counter rises (R274, R285, R290). -/
def State.reportCounter (u : State) (core op : Nat) (r : KReg) (f : Option RFault) : State :=
  (u.onCore core fun q => q.raiseCounter r f).endCopy core op

/-- What a step of an operation reports, size being that of a stage. -/
def COp.report (o : COp) (core chunk size : Nat) (u : State) (f : Option RFault) : State :=
  match o.op with
  | .cpy .cb _ h a _ n => u.reportStage core o.id h a n size o.stages o.done o.fault f
  | .cpy _ _ h _ _ n => u.reportChunk core o.id chunk n h o.done o.fault f
  | .deal _ r .. | .gather _ _ _ _ _ _ r .. => u.reportCounter core o.id r f
  | _ => u

/-- A ready step of an operation opens its buffer, drains it or reports. -/
theorem exec_transfer (hcopy : (s.core core).copy o.id = some o) (hby : o.doneBy core chunk e lane) (hready : s.opReady core chunk o = true) :
    exec e s = .next (s.engineStep o.who o.id lane (o.work core chunk ((s.core core).cb (cbOf o)))
      (o.report core chunk ((s.core core).cb (cbOf o)).size)) := by
  obtain ⟨id, who, ocore, op, entry, done, fault, stages⟩ := o
  rw [State.opReady, Bool.and_eq_true] at hready
  obtain ⟨hon, hready⟩ := hready
  cases op with
  | cpy dk sk h a b n =>
    cases dk with
    | cb =>
      obtain ⟨rfl, rfl⟩ := hby
      refine congrArg Host.Outcome.next ?_
      have hstage : ¬ (((s.core core).cb (fld a 2 0)).free = 0 || ((s.core core).cb (fld a 2 0)).lost ||
          ((s.core core).cb (fld a 2 0)).size = 0 || !s.engineOn core) = true := by
        simp_all [cbOf]
      unfold State.stageStep
      simp only [hcopy, if_neg hstage]
      rfl
    | l | c | x | g | o =>
      obtain ⟨rfl, rfl⟩ := hby
      refine congrArg Host.Outcome.next ?_
      unfold State.chunkStep
      simp only [hcopy]
      rw [if_neg (by simp_all)]
      rfl
  | deal die r a pat off total =>
    obtain ⟨rfl, rfl, hlt⟩ := hby
    refine congrArg Host.Outcome.next ?_
    have hmod : (id * 8192 + core) % 8192 = core := by omega
    have hdiv : (id * 8192 + core) / 8192 = id := by omega
    rw [hmod, hdiv]
    unfold State.dealStep
    simp only [hcopy, hon]
    rfl
  | gather put i64 pm lm cmb tid r a b n =>
    obtain ⟨rfl, rfl⟩ := hby
    refine congrArg Host.Outcome.next ?_
    unfold State.gatherStep
    simp only [hcopy, hon]
    rfl
  | _ => exact hby.elim

/-! ### What a report changes of its core -/

/-- A core with its entered operations replaced. -/
def Core.withCopies (k : Core) (l : List COp) : Core := { k with copies := l }

section
variable (k : Core) (h : HReg) (r : KReg) (n op : Nat) (f : Option RFault) (g : Handle → Handle) (q : CBuf → CBuf) (l : List COp)

@[simp] theorem handle_onHandle : (k.onHandle h g).handle h = g (k.handle h) := tgetD_tset_self ..
@[simp] theorem handle_handleRec : (k.handleRec h f).handle h = { k.handle h with fault := (k.handle h).fault.or f } := handle_onHandle ..
@[simp] theorem handle_onCb : (k.onCb n q).handle h = k.handle h := rfl
@[simp] theorem handle_withCopies : (k.withCopies l).handle h = k.handle h := rfl
@[simp] theorem cb_onCb : (k.onCb n q).cb n = q (k.cb n) := tgetD_tset_self ..
@[simp] theorem cb_onHandle : (k.onHandle h g).cb n = k.cb n := rfl
@[simp] theorem cb_handleRec : (k.handleRec h f).cb n = k.cb n := rfl
@[simp] theorem cb_withCopies : (k.withCopies l).cb n = k.cb n := rfl
@[simp] theorem pool_onHandle : (k.onHandle h g).pool = k.pool := rfl
@[simp] theorem pool_handleRec : (k.handleRec h f).pool = k.pool := rfl
@[simp] theorem pool_onCb : (k.onCb n q).pool = k.pool := rfl
@[simp] theorem pool_withCopies : (k.withCopies l).pool = k.pool := rfl
@[simp] theorem pool_raiseCounter : (k.raiseCounter r f).pool = k.pool := rfl
@[simp] theorem counter_withCopies : (k.withCopies l).counter r = k.counter r := rfl
@[simp] theorem counter_raiseCounter :
    (k.raiseCounter r f).counter r = { n := (k.counter r).n + 1, fault := (k.counter r).fault.or f } := tgetD_tset_self ..

/-- An operation that is over is no longer entered. -/
@[simp] theorem copy_withCopies_filter : (k.withCopies (l.filter fun o => o.id != op)).copy op = none := by
  rw [Core.copy, Core.withCopies, List.find?_eq_none]
  intro o ho
  simpa using (List.mem_filter.mp ho).2

end

theorem onCopy_eq (u : State) (core op : Nat) (f : COp → COp) :
    u.onCopy core op f = u.onCore core fun k => k.withCopies (k.copies.map fun o => if o.id = op then f o else o) := rfl

theorem endCopy_eq (u : State) (core op : Nat) :
    u.endCopy core op = u.onCore core fun k => k.withCopies (k.copies.filter fun o => o.id != op) := rfl

/-- The handle of a copy whose last chunk has been handled is BUSY no more, and the copy is over. -/
theorem copyOver_eq (u : State) (core op chunks : Nat) (h : HReg) (done : Word) : u.copyOver core op chunks h done =
    if done.toNat % 2 ^ chunks = 2 ^ chunks - 1 then (u.onCore core fun k => k.onHandle h fun x => { x with busy := false }).endCopy core op
    else u := by
  have hdone : fld done 63 0 = done.toNat := by rw [fld_low, Nat.mod_eq_of_lt done.isLt]
  rw [State.copyOver, hdone]

variable (u : State) (f : Option RFault)

theorem reported_counter {r : KReg} (hop : (∃ die a pat off total, o.op = .deal die r a pat off total) ∨
    ∃ put i64 pm lm cmb tid a b n, o.op = .gather put i64 pm lm cmb tid r a b n) : u.reported (u.reportCounter core o.id r f) core chunk o f := by
  unfold State.reported
  rcases hop with ⟨die, a, pat, off, total, hop⟩ | ⟨put, i64, pm, lm, cmb, tid, a, b, n, hop⟩
  · simp [hop, State.reportCounter, endCopy_eq]
  · simp [hop, State.reportCounter, endCopy_eq]

theorem reported_chunk {dk sk : CKind} {h : HReg} {a b : Word} {n : Nat} (hop : o.op = .cpy dk sk h a b n) (hdk : dk ≠ .cb) :
    u.reported (u.reportChunk core o.id chunk n h o.done o.fault f) core chunk o f := by
  have hmatch : let t := u.reportChunk core o.id chunk n h o.done o.fault f
      t.mem = u.mem ∧ (t.core core).pool = (u.core core).pool ∧
      ((t.core core).handle h).fault = ((u.core core).handle h).fault.or (if o.fault.isNone then f else none) ∧
      ((t.core core).handle h).bits = (if f = none then ((u.core core).handle h).bits ||| (1#64 <<< chunk) else ((u.core core).handle h).bits) ∧
      ((o.done ||| (1#64 <<< chunk)).toNat % 2 ^ chunksOf n = 2 ^ chunksOf n - 1 →
        ((t.core core).handle h).busy = false ∧ (t.core core).copy o.id = none) := by
    simp only [State.reportChunk, copyOver_eq]
    by_cases hover : (o.done ||| (1#64 <<< chunk)).toNat % 2 ^ chunksOf n = 2 ^ chunksOf n - 1
    · simp only [hover, forall_const]
      cases f <;> simp [onCopy_eq, endCopy_eq]
    · simp only [hover, false_implies, and_true]
      cases f <;> simp [onCopy_eq]
  unfold State.reported
  rw [hop]
  cases dk with
  | cb => exact absurd rfl hdk
  | l | c | x | g | o => exact hmatch

theorem reported_stage {sk : CKind} {h : HReg} {a b : Word} {n : Nat} (hop : o.op = .cpy .cb sk h a b n) :
    u.reported (u.reportStage core o.id h a n ((u.core core).cb (fld a 2 0)).size o.stages o.done o.fault f) core chunk o f := by
  unfold State.reported
  rw [hop]
  simp only [State.reportStage]
  by_cases hlast : n ≤ (o.stages + 1) * ((u.core core).cb (fld a 2 0)).size
  · cases f <;> simp [hlast, onCopy_eq, endCopy_eq, chunksWithin]
  · cases f <;> simp [hlast, onCopy_eq, chunksWithin]

/-- The step of an operation reports what R269, R270, R274 and R285 say. -/
theorem reported_report {size : Nat} (hsize : size = ((u.core core).cb (cbOf o)).size) : u.reported (o.report core chunk size u f) core chunk o f := by
  unfold COp.report
  unfold cbOf at hsize
  cases hop : o.op with
  | cpy dk sk h a b n =>
    rw [hop] at hsize
    cases dk with
    | cb => exact hsize ▸ reported_stage u f hop
    | l | c | x | g | o => exact reported_chunk u f hop (by decide)
  | deal die r a pat off total => exact reported_counter u f (.inl ⟨_, _, _, _, _, hop⟩)
  | gather put i64 pm lm cmb tid r a b n => exact reported_counter u f (.inr ⟨_, _, _, _, _, _, _, _, _, hop⟩)
  | _ =>
    unfold State.reported
    rw [hop]
    exact ⟨rfl, rfl, trivial⟩

end

end Sys2Proof.Machine
end

section
/-! A copy of 64 bytes within a pool, performed in its three steps; strips and notices: the settlement of O46 (R269, R276, R281, R282). -/
namespace Sys2Proof.Machine
open Sys2Proof.Manual

section
variable {s t u : State} {core op : Nat} {who : Asker} {lane : Option Nat} {b : EBuf}

/-! ### Buffers and holds of a step -/

@[simp] theorem ebuf_setEbuf (s : State) (b : EBuf) : (s.setEbuf b).ebuf b.own = some b := by simp [State.ebuf, State.setEbuf]

theorem pageWait_unhold (s : State) (a : Asker) (tag : Nat) (lane : Option Nat) : (s.unhold a tag lane).pageWait a tag lane = false := by
  have hnone : (s.unhold a tag lane).heldFor a tag lane = none := by
    rw [State.heldFor, State.unhold, List.find?_eq_none]
    intro h hh hp
    have hq := (List.mem_filter.mp hh).2
    rw [hp] at hq
    cases hq
  rw [State.pageWait, hnone]
  rfl

/-- The first store of a step takes an entry of its buffer (R205). -/
theorem eBuf_first {g : Agent} (hb : s.ebuf g = some b) (hents : b.ents = []) (hroom : s.bufUsed g < 32) (a : Asker) (pl : Place) (d : Line)
    (m : BitVec 64) : s.eBuf g a pl d m = .done 0 (s.setEbuf { b with ents := [{ who := a, pl := pl, data := d, mask := m }] }) := by
  simp only [State.eBuf, hb, hents, List.getLast?_nil, if_pos hroom]

/-! ### What an engine sees of a core -/

/-- For a core's engines the states differ at most in the pool, and in what is poisoned in it. -/
structure SeenAlike (s t : State) (core : Nat) : Prop where
  mem   : t.mem = s.mem
  rel   : t.rel = s.rel
  dbg   : t.dbg = s.dbg
  units : t.units = s.units
  core  : ∃ p pp, t.core core = { s.core core with pool := p, ppoison := pp }

theorem SeenAlike.trans (h : SeenAlike s t core) (h' : SeenAlike t u core) : SeenAlike s u core := by
  obtain ⟨p, pp, hk⟩ := h.core
  obtain ⟨p', pp', hk'⟩ := h'.core
  exact ⟨h'.mem.trans h.mem, h'.rel.trans h.rel, h'.dbg.trans h.dbg, h'.units.trans h.units, p', pp', by rw [hk', hk]⟩

theorem seenAlike_setEbuf (s : State) (b : EBuf) : SeenAlike s (s.setEbuf b) core :=
  ⟨rfl, rfl, rfl, rfl, (s.core core).pool, (s.core core).ppoison, rfl⟩

theorem seenAlike_unhold (s : State) (a : Asker) (tag : Nat) (lane : Option Nat) : SeenAlike s (s.unhold a tag lane) core :=
  ⟨rfl, rfl, rfl, rfl, (s.core core).pool, (s.core core).ppoison, rfl⟩

theorem seenAlike_poolWrite (s : State) (line : Nat) (d : Line) (m : BitVec 64) : SeenAlike s (s.onCore core fun k => k.poolWrite line d m) core := by
  obtain ⟨pp, hk⟩ := poolWrite_eq (s.core core) line d m
  exact ⟨rfl, rfl, rfl, rfl, _, pp, (s.core_onCore_self core _).trans hk⟩

theorem SeenAlike.engineOn (h : SeenAlike s t core) : t.engineOn core = s.engineOn core := by
  obtain ⟨p, pp, hk⟩ := h.core
  simp only [State.engineOn, State.fenced, hk, h.rel, h.dbg]

theorem SeenAlike.copy (h : SeenAlike s t core) : (t.core core).copy op = (s.core core).copy op := by
  obtain ⟨p, pp, hk⟩ := h.core
  rw [hk]
  rfl

theorem SeenAlike.handle (h : SeenAlike s t core) (x : HReg) : (t.core core).handle x = (s.core core).handle x := by
  obtain ⟨p, pp, hk⟩ := h.core
  rw [hk]
  rfl

theorem SeenAlike.wps (h : SeenAlike s t core) : (t.core core).wps = (s.core core).wps := by
  obtain ⟨p, pp, hk⟩ := h.core
  rw [hk]

theorem SeenAlike.poolCheck (h : SeenAlike s t core) (off n : Nat) (win : Bool) (a : Asker) (need : Need) :
    t.poolCheck core off n win a need = s.poolCheck core off n win a need := by
  obtain ⟨p, pp, hk⟩ := h.core
  simp only [State.poolCheck, State.fenced, State.accBusy, State.tileBusy, State.l1Cards, State.unit, Core.reachable, hk, h.rel, h.units]
  rfl

/-! ### A copy of one unit -/

theorem copyUnits_one {z : EX} {src : Nat → State → Served} {dst : Nat → Line → State → Served} (bad : Nat → State → State) {off : Nat}
    {l l' : Line} (hsrc : src off z.s = .done l t) (hdst : dst off l t = .done l' u) :
    z.copyUnits core src dst bad 1 off = .ok { z with s := u, pois := false } := by
  rw [EX.copyUnits, hsrc]
  change (do
    let (_, y) ← EX.get { z with s := t, pois := false } (dst off l t)
    y.copyUnits core src dst bad 0 (off + 64)) = _
  rw [hdst]
  rfl

theorem enginePlace_own {ea : Word} (h : ea.toNat < 2 ^ 16) : enginePlace core .l (modeAdd .l ea 0) = .pool core ea.toNat true ea := by
  have hclean : eaClean .l ea = true := by simpa [eaClean, fld_high_eq_zero] using h
  have hadd : modeAdd .l ea 0 = ea := by simp [modeAdd]
  rw [hadd, enginePlace, placeOf]
  simp only [hclean, if_true, poolOf, fld_15_0, Nat.mod_eq_of_lt h]

theorem maskSpan_allBytes : maskSpan allBytes = (0, 64) := by decide +kernel

/-! ### The three steps of a 64-byte copy (R269) -/

section
variable {h : HReg} {x y : Word}

/-- The operation of a copy of 64 bytes within a pool, as it is entered. -/
def copy64 (core op : Nat) (who : Asker) (h : HReg) (x y : Word) : COp :=
  { id := op, who := who, core := core, op := .cpy .l .l h x y 64, entry := 0, done := 0, fault := none, stages := 0 }

/-- The store that the copy makes. -/
def copy64Ent (s : State) (core : Nat) (who : Asker) (x y : Word) : EEnt :=
  { who := who, pl := .pool core x.toNat true x, data := (s.core core).poolLine y.toNat, mask := allBytes }

/-- The engine's buffer with that store. -/
def copy64Buf (s : State) (core op : Nat) (who : Asker) (x y : Word) : EBuf :=
  { EBuf.open' who.agent op (some 0) with ents := [copy64Ent s core who x y] }

theorem exec_copy64 (hcopy : (s.core core).copy op = some (copy64 core op who h x y)) (hon : s.engineOn core = true) :
    exec (.chunkComplete core op 0) s = .next (s.engineStep who op (some 0) ((copy64 core op who h x y).work core 0 ((s.core core).cb 0))
      ((copy64 core op who h x y).report core 0 ((s.core core).cb 0).size)) := by
  refine exec_transfer (o := copy64 core op who h x y) (chunk := 0) hcopy ⟨rfl, rfl⟩ ?_
  rw [State.opReady, hon]
  change (true && (decide (0 < chunksOf 64) && !(0 : Word).getLsbD 0)) = true
  decide

/-- The loads and stores of the copy. -/
theorem work_copy64 (hnone : s.ebuf who.agent = none) (hroom : s.bufUsed who.agent < 32) (hwps : (s.core core).wps = [])
    (hclean : (s.core core).poisoned y.toNat 64 = false) (hx : x.toNat < 2 ^ 16) (hy : y.toNat < 2 ^ 16)
    (hread : s.poolCheck core y.toNat 64 true who .r = none) (q : CBuf) :
    (copy64 core op who h x y).work core 0 q ((s.setEbuf (EBuf.open' who.agent op (some 0))).engine who op (some 0)) =
      .ok { (s.setEbuf (EBuf.open' who.agent op (some 0))).engine who op (some 0) with
        s := (s.setEbuf (EBuf.open' who.agent op (some 0))).setEbuf (copy64Buf s core op who x y) } := by
  have hload : (s.setEbuf (EBuf.open' who.agent op (some 0))).kindLoad who core .l y 0 =
      .done ((s.core core).poolLine y.toNat) (s.setEbuf (EBuf.open' who.agent op (some 0))) := by
    change (s.setEbuf (EBuf.open' who.agent op (some 0))).eLoad who (enginePlace core .l (modeAdd .l y 0)) 64 = _
    rw [enginePlace_own hy]
    change (s.setEbuf (EBuf.open' who.agent op (some 0))).pLoad who core y.toNat 64 true y = _
    have hcheck : (s.setEbuf (EBuf.open' who.agent op (some 0))).poolCheck core y.toNat 64 true who .r = none := hread
    have hclean' : ((s.setEbuf (EBuf.open' who.agent op (some 0))).core core).poisoned y.toNat 64 = false := hclean
    have hwps' : ((s.setEbuf (EBuf.open' who.agent op (some 0))).core core).wps = [] := hwps
    simp only [State.pLoad, hcheck, hclean', firePool_of_no_wps hwps', if_neg Bool.false_ne_true]
    rfl
  have hstore : (s.setEbuf (EBuf.open' who.agent op (some 0))).kindStore who core .l x 0 ((s.core core).poolLine y.toNat) =
      .done 0 ((s.setEbuf (EBuf.open' who.agent op (some 0))).setEbuf (copy64Buf s core op who x y)) := by
    change (s.setEbuf (EBuf.open' who.agent op (some 0))).eBuf who.agent who (enginePlace core .l (modeAdd .l x 0)) _ allBytes = _
    have hopen : (s.setEbuf (EBuf.open' who.agent op (some 0))).ebuf who.agent = some (EBuf.open' who.agent op (some 0)) := ebuf_setEbuf ..
    have hused : (s.setEbuf (EBuf.open' who.agent op (some 0))).bufUsed who.agent < 32 := by
      unfold State.bufUsed at hroom ⊢
      rw [hnone] at hroom
      rw [hopen]
      exact hroom
    rw [enginePlace_own hx, eBuf_first hopen rfl hused]
    rfl
  exact copyUnits_one (src := fun off t => t.kindLoad who core .l y off) (dst := fun off l t => t.kindStore who core .l x off l)
    (fun off t => t.kindPoison who core .l x off) hload hstore

/-! Each step, and what the engine sees after it. -/

/-- The state when the copy's store waits in the buffer. -/
def State.copy64Opened (s : State) (core op : Nat) (who : Asker) (x y : Word) : State :=
  (((s.setEbuf (EBuf.open' who.agent op (some 0))).setEbuf (copy64Buf s core op who x y)).unhold who op (some 0)).setEbuf (copy64Buf s core op who x y)

theorem copy64_opens (hnone : s.ebuf who.agent = none) (hroom : s.bufUsed who.agent < 32) (hpage : s.pageWait who op (some 0) = false)
    (hwps : (s.core core).wps = []) (hclean : (s.core core).poisoned y.toNat 64 = false) (hx : x.toNat < 2 ^ 16) (hy : y.toNat < 2 ^ 16)
    (hread : s.poolCheck core y.toNat 64 true who .r = none) (q : CBuf) (fin : State → Option RFault → State) :
    s.engineStep who op (some 0) ((copy64 core op who h x y).work core 0 q) fin = s.copy64Opened core op who x y :=
  (engineStep_opens hnone hpage (work_copy64 hnone hroom hwps hclean hx hy hread q) (ebuf_setEbuf ..)).trans rfl

theorem seenAlike_copy64Opened (s : State) (core op : Nat) (who : Asker) (x y : Word) : SeenAlike s (s.copy64Opened core op who x y) core :=
  (seenAlike_setEbuf ..).trans ((seenAlike_setEbuf ..).trans ((seenAlike_unhold ..).trans (seenAlike_setEbuf ..)))

/-- The state when the copy's store has been made. -/
def State.copy64Stored (s : State) (core op : Nat) (who : Asker) (x y : Word) : State :=
  (((s.copy64Opened core op who x y).onCore core fun k =>
    k.poolWrite (x.toNat / 64 * 64) ((s.core core).poolLine y.toNat) allBytes).unhold who op (some 0)).setEbuf
      { copy64Buf s core op who x y with ents := [] }

theorem copy64_drains (hwps : (s.core core).wps = []) (hal : x.toNat % 64 = 0) (hwrite : s.poolCheck core x.toNat 64 true who .w = none)
    (k : EX → Except Stalled EX) (fin : State → Option RFault → State) :
    (s.copy64Opened core op who x y).engineStep who op (some 0) k fin = s.copy64Stored core op who x y := by
  have hcheck : (s.copy64Opened core op who x y).poolCheck core (x.toNat / 64 * 64 + 0) 64 true who .w = none := by
    rw [(seenAlike_copy64Opened ..).poolCheck, show x.toNat / 64 * 64 + 0 = x.toNat by omega, hwrite]
  have hwps' : (((s.copy64Opened core op who x y).onCore core fun k =>
      k.poolWrite (x.toNat / 64 * 64) ((s.core core).poolLine y.toNat) allBytes).core core).wps = [] := by
    rw [State.core_onCore_self, wps_poolWrite]
    exact hwps
  have hstore : (s.copy64Opened core op who x y).eStore who (.pool core x.toNat true x) ((s.core core).poolLine y.toNat) allBytes =
      .done 0 ((s.copy64Opened core op who x y).onCore core fun k =>
        k.poolWrite (x.toNat / 64 * 64) ((s.core core).poolLine y.toNat) allBytes) := by
    change (s.copy64Opened core op who x y).pStore who core x.toNat true x _ allBytes = _
    simp only [State.pStore, maskSpan_allBytes, hcheck]
    exact congrArg (Served.done 0) (fireMask_of_no_wps hwps' ..)
  have hbuf : (s.copy64Opened core op who x y).ebuf who.agent = some (copy64Buf s core op who x y) := ebuf_setEbuf _ (copy64Buf s core op who x y)
  have hpage : (s.copy64Opened core op who x y).pageWait who op (some 0) = false :=
    pageWait_unhold ((s.setEbuf (EBuf.open' who.agent op (some 0))).setEbuf (copy64Buf s core op who x y)) who op (some 0)
  exact engineStep_drains_done (e := copy64Ent s core who x y) hbuf rfl rfl rfl hpage hstore

theorem core_copy64Stored (s : State) (core op : Nat) (who : Asker) (x y : Word) : (s.copy64Stored core op who x y).core core =
    (s.core core).poolWrite (x.toNat / 64 * 64) ((s.core core).poolLine y.toNat) allBytes :=
  (s.copy64Opened core op who x y).core_onCore_self core fun k => k.poolWrite (x.toNat / 64 * 64) ((s.core core).poolLine y.toNat) allBytes

theorem seenAlike_copy64Stored (s : State) (core op : Nat) (who : Asker) (x y : Word) : SeenAlike s (s.copy64Stored core op who x y) core :=
  (seenAlike_copy64Opened s core op who x y).trans ((seenAlike_poolWrite ..).trans ((seenAlike_unhold ..).trans (seenAlike_setEbuf ..)))

theorem copy64_reports (hfwds : s.mem.fwds = []) (k : EX → Except Stalled EX) (fin : State → Option RFault → State) :
    (s.copy64Stored core op who x y).engineStep who op (some 0) k fin = fin ((s.copy64Stored core op who x y).dropEbuf who.agent) none := by
  have hbuf : (s.copy64Stored core op who x y).ebuf who.agent = some { copy64Buf s core op who x y with ents := [] } :=
    ebuf_setEbuf _ { copy64Buf s core op who x y with ents := [] }
  have hquiet : (s.copy64Stored core op who x y).mem.fwds = [] := hfwds
  exact engineStep_reports hbuf rfl rfl rfl hquiet

theorem getLsbD_allBytes {k : Nat} (hk : k < 64) : allBytes.getLsbD k = true := by
  rw [allBytes, BitVec.getLsbD_ofNat, Nat.testBit_two_pow_sub_one]
  simp [hk]

/-- The bytes of the copy are at the destination, and nothing else has changed in the pool. -/
theorem poolByte_copy64Stored (hwf : (s.core core).memWf = true) (hx : x.toNat % 64 = 0) (hy : y.toNat % 64 = 0) (n : Nat) :
    (s.copy64Stored core op who x y).poolByte core n =
      if x.toNat ≤ n ∧ n < x.toNat + 64 then s.poolByte core (y.toNat + (n - x.toNat)) else s.poolByte core n := by
  have hpool : (s.copy64Stored core op who x y).poolByte core n =
      rdByte ((s.core core).poolWrite (x.toNat / 64 * 64) ((s.core core).poolLine y.toNat) allBytes).pool n :=
    congrArg (fun k : Core => rdByte k.pool n) (core_copy64Stored ..)
  rw [hpool, rdByte_poolWrite hwf, getLsbD_allBytes (Nat.mod_lt _ (by decide))]
  by_cases hin : x.toNat ≤ n ∧ n < x.toNat + 64
  · have haddr : y.toNat / 64 * 64 + n % 64 = y.toNat + (n - x.toNat) := by omega
    rw [if_pos hin, if_pos ⟨by omega, rfl⟩, Core.poolLine, el_rdLine _ _ (Nat.mod_lt _ (by decide)), haddr]
    rfl
  · rw [if_neg hin, if_neg fun h => hin (by omega)]
    rfl

/-- A copy of one line within a pool: the store waits in the engine's buffer, is made, and the handle reports it (R205, R208, R220, R269). -/
theorem copy64_in_three_steps (hcopy : (s.core core).copy op = some (copy64 core op who h x y)) (hon : s.engineOn core = true)
    (hnone : s.ebuf who.agent = none) (hroom : s.bufUsed who.agent < 32) (hfwds : s.mem.fwds = []) (hpage : s.pageWait who op (some 0) = false)
    (hwf : (s.core core).memWf = true) (hwps : (s.core core).wps = []) (hclean : (s.core core).poisoned y.toNat 64 = false)
    (hx : x.toNat < 2 ^ 16) (hxal : x.toNat % 64 = 0) (hy : y.toNat < 2 ^ 16) (hyal : y.toNat % 64 = 0)
    (hread : s.poolCheck core y.toNat 64 true who .r = none) (hwrite : s.poolCheck core x.toNat 64 true who .w = none) :
    ∃ t u v, exec (.chunkComplete core op 0) s = .next t ∧ exec (.chunkComplete core op 0) t = .next u ∧
      exec (.chunkComplete core op 0) u = .next v ∧ (∀ n, t.poolByte core n = s.poolByte core n) ∧
      ((v.core core).handle h).busy = false ∧ ((v.core core).handle h).bits = ((s.core core).handle h).bits ||| 1 ∧
      ∀ n, v.poolByte core n = if x.toNat ≤ n ∧ n < x.toNat + 64 then s.poolByte core (y.toNat + (n - x.toNat)) else s.poolByte core n := by
  have ht := seenAlike_copy64Opened s core op who x y
  have hu := seenAlike_copy64Stored s core op who x y
  have hlast : ((0 : Word) ||| (1#64 <<< 0)).toNat % 2 ^ chunksOf 64 = 2 ^ chunksOf 64 - 1 := by decide
  have hrep := reported_chunk (core := core) (chunk := 0) (o := copy64 core op who h x y) ((s.copy64Stored core op who x y).dropEbuf who.agent) none rfl
    (by decide)
  obtain ⟨-, hpool, -, hbits, hover⟩ := hrep
  refine ⟨s.copy64Opened core op who x y, s.copy64Stored core op who x y,
    ((s.copy64Stored core op who x y).dropEbuf who.agent).reportChunk core op 0 64 h 0 none none, ?_, ?_, ?_, fun _ => rfl, (hover hlast).1, ?_, fun n => ?_⟩
  · rw [exec_copy64 hcopy hon, copy64_opens hnone hroom hpage hwps hclean hx hy hread]
  · rw [exec_copy64 (ht.copy.trans hcopy) (ht.engineOn.trans hon), copy64_drains hwps hxal hwrite]
  · rw [exec_copy64 (hu.copy.trans hcopy) (hu.engineOn.trans hon), copy64_reports hfwds]
    rfl
  · rw [← hu.handle]
    exact hbits
  · rw [← poolByte_copy64Stored (op := op) (who := who) hwf hxal hyal]
    exact congrArg (rdByte · n) hpool

end
end

end Sys2Proof.Machine
end

section
/-! Strips and notices, and the settlement of O46 (R276, R282). -/
namespace Sys2Proof.Machine
open Sys2Proof.Manual

section
variable {s : State} {core : Nat}

/-! ### STREAM_STRIP_LOAD (R276) -/

/-- A strip that a read stream wants is loaded and stands behind the strips ahead. -/
theorem exec_strip {x v : Nat} {st : Stream} {l : Option Line} {y : EX} (hst : tget (s.ctx core x).streams v = some st) (hwants : st.wants = true)
    (hrun : (s.ctx core x).run ≠ .free) (hon : s.engineOn core = true)
    (hpage : s.pageWait ((askerOf (s.ctx core x) (s.who core x)).engine (.copy core)) (streamTag x v) none = false)
    (hload : (s.engine ((askerOf (s.ctx core x) (s.who core x)).engine (.copy core)) (streamTag x v) none).load
      (enginePlace core st.mode (modeAdd st.mode st.base (st.off (st.next + st.ahead.length)))) 64 = .ok (l, y)) :
    exec (.streamStripLoad core x v) s =
      .next ((y.s.unhold ((askerOf (s.ctx core x) (s.who core x)).engine (.copy core)) (streamTag x v) none).onCtx core x fun c =>
        { c with streams := tset c.streams v { st with ahead := st.ahead ++ [(l.getD 0, y.f)] } }) := by
  have hstep : ¬ (!st.wants || decide ((s.ctx core x).run = .free) || !s.engineOn core) = true := by simp [hwants, hrun, hon]
  refine congrArg Host.Outcome.next ?_
  rw [State.engine] at hload
  simp only [State.stripStep, hst, if_neg hstep, hpage, if_neg Bool.false_ne_true, hload]

/-! ### FILL_NOTICE and STAGE_FREE_NOTICE (R282) -/

/-- A notice reaches the buffer of a core that is not fenced and that holds the role. -/
theorem notice_of_role {cb role : Nat} {f : CBuf → CBuf} (hf : s.fenced core = false) (hset : ((s.core core).cb cb).set = true)
    (hrole : ((s.core core).cb cb).role = role) : s.notice core cb role f = s.onCore core fun k => k.onCb cb f := by
  have hin : (((s.core core).cb cb).set && ((s.core core).cb cb).role == role) = true := by simp [hset, hrole]
  simp only [State.notice, hf, if_neg Bool.false_ne_true, hin, if_true]

end

/-- Settles O46: a step of an operation is its work on an open buffer, the stores of that buffer one by one, and its report. -/
theorem transfersStep : Obligations.TransfersStep := by
  unfold Obligations.TransfersStep
  refine ⟨?_, ?_, ?_, ?_, ?_, ?_, ?_⟩
  · intro core chunk o e lane y b s hcopy hby hready hnone hpage hwork hb
    have hstep := engineStep_opens (fin := o.report core chunk ((s.core core).cb (cbOf o)).size) hnone hpage hwork hb
    rw [exec_transfer hcopy hby hready, hstep]
    refine ⟨fun hents => ?_, fun hents hcbs => ?_⟩
    · rw [if_neg (by simpa using hents)]
    · rw [if_pos (by simpa using hents)]
      exact ⟨_, rfl, reported_report _ _ (congrArg (fun t => (tgetD t (cbOf o) CBuf.reset).size) hcbs.symm)⟩
  · intro core chunk o e lane b x rest s hcopy hby hready hb htag hlane hents hpage
    rw [exec_transfer hcopy hby hready]
    exact ⟨fun l u hst => congrArg _ (engineStep_drains_done hb htag hlane hents hpage hst),
      fun f u hst hf => congrArg _ (engineStep_drains_fail hb htag hlane hents hpage hst hf),
      fun f u hst hf hheld => congrArg _ (engineStep_drains_absent hb htag hlane hents hpage hst hf hheld),
      fun hst => congrArg _ (engineStep_drains_wait hb htag hlane hents hpage hst)⟩
  · intro core chunk o e lane b s hcopy hby hready hb htag hlane hents hfwds
    rw [exec_transfer hcopy hby hready, engineStep_reports hb htag hlane hents hfwds]
    exact ⟨_, rfl, reported_report _ _ rfl⟩
  · intro core op h a b who s hcopy hon hnone hroom hfwds hpage hwf hwps hclean ha haal hb hbal hread hwrite
    exact copy64_in_three_steps hcopy hon hnone hroom hfwds hpage hwf hwps hclean ha haal hb hbal hread hwrite
  · intro core x v st l y s hst hwants hrun hon a hpage hload
    refine ⟨_, _, exec_strip hst hwants hrun hon hpage hload, rfl, ?_, rfl⟩
    rw [State.onCtx, State.ctx_setCtx_self]
    exact tget_tset_self ..
  · rintro i core cb s ⟨⟨born, body⟩, hm, rfl⟩ hrun hf hset hrole
    refine congrArg Host.Outcome.next ?_
    simp only [hm, hrun, if_neg Bool.false_ne_true]
    exact notice_of_role hf hset hrole
  · rintro i core cb s ⟨⟨born, body⟩, hm, rfl⟩ hrun hf hset hrole
    refine congrArg Host.Outcome.next ?_
    simp only [hm, hrun, if_neg Bool.false_ne_true]
    exact notice_of_role hf hset hrole

end Sys2Proof.Machine
end

section
/-! Kicks that go out at once, and instructions that end in an acquire (R219, R222, R313). -/
namespace Sys2Proof.Machine

section
variable {i : Instr} {s : State} {body : State → State} {op : KOp}

/-- A change of the core that leaves its contexts and its journal leaves what the thread waits for before a kick. -/
theorem maySend_onMine {g : Core → Core} (hctxs : (g s.mine).ctxs = s.mine.ctxs) (hjnl : (g s.mine).jnl = s.mine.jnl) :
    (s.onMine g).maySend = s.maySend := by
  have hmine : (s.onMine g).core s.me.1 = g s.mine := s.mine_onMine g
  simp only [State.maySend, State.isDrained, State.onMine_me, hmine, State.cx_onMine s g hctxs, Core.ctx, Core.inFlight, hctxs, hjnl]
  rfl

/-- A kick that takes no sequence number goes out at once where everything stored and every earlier kick has been acknowledged. -/
theorem kick_of_maySend (hs : s.maySend = true) (hop : ∀ lvl card, op ≠ .card lvl card) (d : Dest) (bits : Word) :
    s.kick op d bits = s.long1 d .unit (.kick op) := by
  refine (if_pos hs).trans ?_
  cases op with
  | card lvl card => exact absurd rfl (hop lvl card)
  | _ => rfl

/-- An instruction that executes normally and kicks an engine at once. -/
theorem farLong_of_kick {d : Dest} {bits : Word} (hc : Clear i s = true) (hs : s.maySend = true) (hop : ∀ lvl card, op ≠ .card lvl card)
    (hb : body s = s.kick op d bits) : farLong s (issue i body s) d .unit (.kick op) :=
  farLong_issue hc (hb.trans (kick_of_maySend hs hop d bits))

/-- An instruction that changes the core's shared parts and then asks for a long result: of those parts it makes that change alone. -/
theorem farLong_of_long1_onMine {d : Dest} {rop : ROp} {g : Core → Core} (hc : Clear i s = true) (hg : (g s.mine).ctxs = s.mine.ctxs)
    (hb : body s = (s.onMine g).long1 d .unit rop) :
    farLong s (issue i body s) d .unit rop ∧ ∃ cs, (issue i body s).mine = { g s.mine with ctxs := cs } := by
  have f := clear_facts hc
  have hcx : (s.onMine g).cx = s.cx := State.cx_onMine s g hg
  have hwho : (s.onMine g).whoMe = s.whoMe := congrArg (fun c : Ctx => ({ core := s.me.1, ctx := s.me.2, inc := c.inc } : Who)) hcx
  have hreq : (s.onMine g).reqFor .unit rop s.cx.nextTag = s.reqFor .unit rop s.cx.nextTag := by
    simp only [State.reqFor, State.asker, hwho, hcx]
  rw [long1_unit, hcx, hreq] at hb
  generalize hp : ({ (s.onMine g).newPend d with reqs := [s.reqFor .unit rop s.cx.nextTag] } : Pend) = p at hb
  have htag : p.tag = s.cx.nextTag := by rw [← hp]; exact congrArg Ctx.nextTag hcx
  rw [issue_pass hc hb rfl (by simp [hcx]) (by simp [hcx]) (by simp [hcx]) (by simp [hcx])]
  refine ⟨⟨by simp [State.pass, hcx], by simp [State.pass, hcx], rfl, f.took, by simp [State.pass, hcx, f.run], by simp [State.pass, hcx], rfl,
    p, by simp [State.pass, hcx], by rw [← hp]; rfl, htag, by rw [← hp]; rfl, by rw [← hp]; rfl⟩, ?_⟩
  obtain ⟨cs, hpend⟩ := mine_onCx (s.onMine g) fun c => { c with nextTag := p.tag + 1, pend := c.pend ++ [p] }
  obtain ⟨cs', hpass⟩ := mine_onCx (((s.onMine g).addPend p).send (.req (s.reqFor .unit rop s.cx.nextTag))) fun c => { c with pc := c.npc }
  refine ⟨cs', hpass.trans ?_⟩
  rw [State.mine_send, State.addPend, hpend, State.mine_onMine]

/-- An instruction that executes normally and ends in an acquire, having written its own registers and the core's shared parts at most. -/
theorem issue_acquire {t : State} {r : Regs} (hc : Clear i s = true) (hb : body s = t.acquire) (hme : t.me = s.me) (ht : t.took = s.took)
    (hcx : t.cx = { s.cx with regs := r }) : issue i body s = (t.snapEmpty s.me.1).pass := by
  obtain ⟨kept, hsnap⟩ := cx_snapEmpty t
  rw [hcx] at hsnap
  rw [← hme]
  exact issue_of_access hc hb ht hsnap

end

end Sys2Proof.Machine
end

section
/-! The copy unit's instructions with sound operands (O25, R268, R269, R272 to R274, R284, R289). -/
namespace Sys2Proof.Machine
open Sys2Proof.Manual (placeSound copySound dealSound gatherSound satisfied)

section
variable {i : Instr} {s : State} {h : Hdr}

/-! ### CPY (R268, R269) -/

/-- A sound place passes the checks that its kind alone makes. -/
theorem kind_checks_of_placeSound {dst : Bool} {k : CKind} {a : Word} {n : Nat} (hs : placeSound s dst k a n = true) :
    ckBits dst k a = true ∧ (k = .o → fld a 10 0 + n ≤ 1088) ∧
      (k = .cb → n % (s.mine.cb (fld a 2 0)).size = 0 ∧ (s.mine.cb (fld a 2 0)).role = 0) := by
  have hhigh (lo : Nat) (hlo : lo ≤ 64) : (fld a 63 lo == 0) = true ↔ a.toNat < 2 ^ lo := by
    rw [beq_iff_eq, fld_high_eq_zero a hlo]
  cases k with
  | l | c | x | g => exact ⟨rfl, nofun, nofun⟩
  | o =>
    simp only [placeSound, Bool.and_eq_true, decide_eq_true_eq] at hs
    obtain ⟨⟨hbits, -⟩, hfit⟩ := hs
    exact ⟨(hhigh 16 (by decide)).mpr hbits, fun _ => by rwa [fld_low], nofun⟩
  | cb =>
    simp only [placeSound, Bool.and_eq_true, decide_eq_true_eq, beq_iff_eq] at hs
    obtain ⟨⟨⟨rfl, hlt⟩, hdvd⟩, hrole⟩ := hs
    have hnum : fld a 2 0 = a.toNat := (fld_low a 2).trans (Nat.mod_eq_of_lt hlt)
    exact ⟨(hhigh 3 (by decide)).mpr hlt, nofun, fun _ => by rw [hnum]; exact ⟨hdvd, hrole⟩⟩

/-- CPY with sound operands passes every check of R268. -/
theorem doCpy_of_sound {dk sk : CKind} {d : HReg} {a b c : GReg} (hc : Clear i s = true)
    (hs : copySound s dk sk (s.cx.regs.getG a) (s.cx.regs.getG b) (s.cx.regs.getG c) = true) :
    doCpy dk sk d a b c s = s.cpyGo dk sk d (s.cx.regs.getG a) (s.cx.regs.getG b) (s.cx.regs.getG c).toNat := by
  rw [doCpy, rd_of_clear hc]
  generalize s.cx.regs.getG a = da at *
  generalize s.cx.regs.getG b = sa at *
  simp only [copySound, Bool.and_eq_true, decide_eq_true_eq, beq_iff_eq] at hs
  generalize (s.cx.regs.getG c).toNat = n at *
  obtain ⟨⟨⟨⟨hmin, hmax⟩, hmod⟩, hdst⟩, hsrc⟩ := hs
  obtain ⟨hdbits, hdo, hdcb⟩ := kind_checks_of_placeSound hdst
  obtain ⟨hsbits, hso, -⟩ := kind_checks_of_placeSound hsrc
  obtain ⟨hd4, hd5, hd6⟩ := placeBad_of_sound hdst
  obtain ⟨hs4, hs5, hs6⟩ := placeBad_of_sound hsrc
  rw [if_neg (by simpa [hmin, hmax, hmod] using fun hk => (hdcb hk).1), if_neg (by simp [hdbits, hsbits]), if_neg (by simpa using ⟨hdo, hso⟩)]
  simp only [hd4, hd5, hd6, hs4, hs5, hs6, firstBad]
  exact if_neg (by simpa using fun hk => (hdcb hk).2)

/-- A handle's bitmap is clear for the chunks of a copy, and set above them (R269). -/
theorem getLsbD_chunkBits {n j : Nat} (hn : n ≤ 32768) (hj : j < 64) :
    (~~~(BitVec.ofNat 64 (2 ^ chunksOf n - 1))).getLsbD j = decide ((n + 511) / 512 ≤ j) := by
  have hk : chunksOf n ≤ 64 := by unfold chunksOf; omega
  rw [BitVec.getLsbD_not, getLsbD_lowMask hk, decide_eq_true hj, Bool.true_and, ← decide_not]
  exact decide_eq_decide.mpr Nat.not_lt

/-- A handle right after CPY has taken it for n bytes (R269). -/
def takenHandle (n : Nat) : Handle := { bits := ~~~(BitVec.ofNat 64 (2 ^ chunksOf n - 1)), busy := true, fault := none }

theorem cpyGo_of_busy {dk sk : CKind} {d : HReg} {da sa : Word} {n : Nat} (hbusy : (s.mine.handle d).busy = true) :
    s.cpyGo dk sk d da sa n = s.park .sync (.idle d) (.cpy dk sk d da sa n) := by
  rw [State.cpyGo, if_pos hbusy]

/-- CPY on a handle that is idle takes the handle and goes to the copy unit. -/
theorem cpyGo_of_idle {dk sk : CKind} {d : HReg} {da sa : Word} {n : Nat} (hbusy : (s.mine.handle d).busy = false)
    (hfault : (s.mine.handle d).fault = none) (hs : s.maySend = true) :
    s.cpyGo dk sk d da sa n =
      (s.onMine fun k => k.onHandle d fun _ => takenHandle n).long1 .none .unit (.kick (.cpy dk sk d da sa n)) := by
  unfold State.cpyGo
  simp only [hbusy, hfault, Bool.false_eq_true, if_false]
  exact kick_of_maySend ((maySend_onMine (by rfl) (by rfl)).trans hs) (by rintro _ _ ⟨⟩) ..

/-! ### CPYW and CPYT (R272, R273) -/

theorem exec_cpyw {a : HReg} {b : GReg} (hc : Clear (.cpyw h a b) s = true) (hf : (s.mine.handle a).fault = none) :
    exec (.cpyw h a b) s = .next (if (s.mine.handle a).bits &&& s.cx.regs.getG b = s.cx.regs.getG b then (s.snapEmpty s.me.1).pass
      else s.park .sync (.mask a (s.cx.regs.getG b)) (.cpyw a)) := by
  refine congrArg Host.Outcome.next ?_
  have hgo : doCpyw a b s = if (s.mine.handle a).bits &&& s.cx.regs.getG b = s.cx.regs.getG b then s.acquire
      else s.park .sync (.mask a (s.cx.regs.getG b)) (.cpyw a) := by
    rw [doCpyw, rd_of_clear hc, State.cpywGo]
    simp only [hf, beq_iff_eq]
  split
  next hm => exact issue_acquire hc (hgo.trans (if_pos hm)) rfl rfl rfl
  next hm => exact issue_park hc (hgo.trans (if_neg hm)) rfl rfl rfl

theorem exec_cpyt {d b : GReg} {a : HReg} (hc : Clear (.cpyt h d a b) s = true) (hf : (s.mine.handle a).fault = none) :
    exec (.cpyt h d a b) s = .next (if (s.mine.handle a).bits &&& s.cx.regs.getG b = s.cx.regs.getG b
      then ((s.wrG d (s.cx.regs.getG b)).snapEmpty s.me.1).pass
      else (s.wrG d ((s.mine.handle a).bits &&& s.cx.regs.getG b)).pass) := by
  refine congrArg Host.Outcome.next ?_
  have hgo : doCpyt d a b s = if (s.mine.handle a).bits &&& s.cx.regs.getG b = s.cx.regs.getG b
      then (s.wrG d ((s.mine.handle a).bits &&& s.cx.regs.getG b)).acquire
      else s.wrG d ((s.mine.handle a).bits &&& s.cx.regs.getG b) := by
    rw [doCpyt, rd_of_clear hc]
    simp only [hf]
  split
  next hm =>
    rw [if_pos hm, hm] at hgo
    exact issue_acquire hc hgo rfl rfl (State.cx_wrG ..)
  next hm => exact issue_wrG hc (hgo.trans (if_neg hm))

/-! ### DEAL (R274) -/

/-- Targets that differ pairwise, as R274 and the model tell it. -/
theorem nodup_dealTargets_of_distinct {die : Bool} {pat : Word}
    (hd : ((List.range (fld pat 63 48)).all fun i => (List.range (fld pat 63 48)).all fun j => i == j ||
      (fld pat 31 16 + i * fld pat 47 32) % dealSize die != (fld pat 31 16 + j * fld pat 47 32) % dealSize die) = true) :
    (dealTargets die pat).Nodup := by
  rw [dealTargets, upTo_eq_range]
  simp only [List.all_eq_true, Bool.or_eq_true, beq_iff_eq, bne_iff_ne] at hd
  exact List.Nodup.map_on (fun i hi j hj he => (hd i hi j hj).resolve_right (not_not.mpr he)) List.nodup_range

/-- DEAL with sound operands passes every check of R274 and kicks. -/
theorem doDeal_of_sound {die : Bool} {d : KReg} {a b c : GReg} {total : BitVec 32} (hc : Clear i s = true)
    (hs : dealSound die (s.cx.regs.getG a) (s.cx.regs.getG b) total.toNat = true) :
    doDeal die d a b c total s = s.kick (.deal die d (s.cx.regs.getG a) (s.cx.regs.getG b) (s.cx.regs.getG c) total.toNat) := by
  rw [doDeal, rd_of_clear hc]
  generalize s.cx.regs.getG a = src at *
  generalize s.cx.regs.getG b = pat at *
  have hblk : fld pat 15 0 = pat.toNat % 2 ^ 16 := fld_low pat 15
  simp only [dealSound, Bool.and_eq_true, decide_eq_true_eq, Bool.not_eq_true', beq_iff_eq, bne_iff_ne] at hs
  obtain ⟨⟨⟨⟨⟨⟨⟨⟨⟨⟨h57, hal⟩, hb1⟩, hb2⟩, hb3⟩, htot⟩, hdvd⟩, hmin⟩, hmax⟩, hfirst⟩, hdist⟩ := hs
  rw [← fld_63_48] at hmin hmax hdist
  have hnodup : (dealTargets die pat).Nodup := nodup_dealTargets_of_distinct hdist
  generalize pat.toNat % 2 ^ 16 = blk at hblk hb1 hb2 hb3 hdvd
  have hzero : ¬ total = 0 := fun h0 => htot (by rw [h0]; rfl)
  rw [hblk, if_neg (by rw [h57]; exact Bool.false_ne_true), if_neg (by simp [hal]), if_neg (by simpa [hb3, hdvd] using ⟨⟨hb1, hb2⟩, hzero⟩)]
  exact if_neg (by simpa using ⟨⟨⟨Nat.pos_iff_ne_zero.mp hmin, hmax⟩, hfirst⟩, hnodup⟩)

/-! ### GET and PUT (R284) -/

theorem gather_of_sound {put i64 : Bool} {pm lm : Mode} {cmb : BitVec 2} {tid : BitVec 8} {d : KReg} {a b c : GReg} (hc : Clear i s = true)
    (hs : gatherSound i64 pm lm (s.cx.regs.getG a) (s.cx.regs.getG b) (s.cx.regs.getG c) = true) :
    s.gather put i64 pm lm cmb tid d a b c =
      s.kick (.gather put i64 pm lm cmb tid d (s.cx.regs.getG a) (s.cx.regs.getG b) (s.cx.regs.getG c).toNat) := by
  simp only [gatherSound, Bool.and_eq_true, beq_iff_eq, decide_eq_true_eq] at hs
  obtain ⟨⟨⟨⟨hlm, hpm⟩, hla⟩, hra⟩, hn⟩ := hs
  rw [State.gather, rd_of_clear hc]
  simp only [eaClean_eq_inMode, hlm, hpm, hla, hra, bne_self_eq_false, Bool.not_true, Bool.false_eq_true, if_false, gt_iff_lt, Nat.not_lt.mpr hn]

/-! ### GPWAIT (R289) -/

theorem gpwaitGo_of_unreached {sub : Bool} {d : GReg} {a : KReg} {target : BitVec 32} (hr : satisfied (s.mine.counter a).n target = false) :
    s.gpwaitGo sub d a target = s.park .sync (.counter a target) (.gpwait sub d a target) :=
  if_pos (by rw [Bool.not_eq_true']; exact hr)

theorem onMine_onCounter (s : State) (a : KReg) (f : Counter → Counter) :
    (s.onMine fun q => q.onCounter a f) = s.setCounter a (f (s.mine.counter a)) := rfl

theorem cx_setCounter (s : State) (a : KReg) (x : Counter) : (s.setCounter a x).cx = s.cx := State.cx_onMine _ _ (by rfl)

theorem gpwaitGo_of_reached {sub : Bool} {d : GReg} {a : KReg} {target : BitVec 32} (hr : satisfied (s.mine.counter a).n target = true)
    (hf : (s.mine.counter a).fault = none) :
    s.gpwaitGo sub d a target = (if sub
      then (s.wrG d ((s.mine.counter a).n.setWidth 64)).setCounter a { s.mine.counter a with n := (s.mine.counter a).n - target }
      else s.wrG d ((s.mine.counter a).n.setWidth 64)).acquire := by
  have hreach : ¬ (!reached (s.mine.counter a).n target) = true := by
    rw [Bool.not_eq_true', Bool.not_eq_false]
    exact hr
  have hcounter : (s.wrG d ((s.mine.counter a).n.setWidth 64)).mine.counter a = s.mine.counter a := by
    obtain ⟨cs, hmine⟩ := mine_onCx s fun c => { c with regs := c.regs.setG d ((s.mine.counter a).n.setWidth 64) }
    exact (congrArg (Core.counter · a) hmine :)
  have hgo : s.gpwaitGo sub d a target = (if sub
      then (s.wrG d ((s.mine.counter a).n.setWidth 64)).onMine fun q => q.onCounter a fun y => { y with n := y.n - target }
      else s.wrG d ((s.mine.counter a).n.setWidth 64)).acquire := by
    unfold State.gpwaitGo
    simp only [if_neg hreach, hf]
  rw [hgo, onMine_onCounter, hcounter]

theorem exec_gpwait_reached {sub : Bool} {d b : GReg} {a : KReg} (hc : Clear (.gpwait h sub d a b) s = true)
    (hr : satisfied (s.mine.counter a).n ((s.cx.regs.getG b).setWidth 32) = true) (hf : (s.mine.counter a).fault = none) :
    exec (.gpwait h sub d a b) s = .next ((if sub
      then (s.wrG d ((s.mine.counter a).n.setWidth 64)).setCounter a
        { s.mine.counter a with n := (s.mine.counter a).n - (s.cx.regs.getG b).setWidth 32 }
      else s.wrG d ((s.mine.counter a).n.setWidth 64)).snapEmpty s.me.1).pass := by
  refine congrArg Host.Outcome.next ?_
  have hbody : doGpwait sub d a b s = s.gpwaitGo sub d a ((s.cx.regs.getG b).setWidth 32) := by rw [doGpwait, rd_of_clear hc]
  refine issue_acquire (r := s.cx.regs.setG d ((s.mine.counter a).n.setWidth 64)) hc (hbody.trans (gpwaitGo_of_reached hr hf)) ?me ?took ?cx
  all_goals cases sub
  case cx.false => exact State.cx_wrG ..
  case cx.true => exact (cx_setCounter ..).trans (State.cx_wrG ..)
  all_goals rfl

end

/-- Settles O25: sound operands pass every check, and what is left is the park, the acquire or the kick. -/
theorem copyUnit : Obligations.CopyUnit := by
  unfold Obligations.CopyUnit
  refine ⟨?cpy, fun h a b s hc => exec_cpyw hc, fun h d a b s hc => exec_cpyt hc, ?deal, ?get, ?put, ?gpwait⟩
  case cpy =>
    intro h dk sk d a b c s hc r hs n x
    have hgo := doCpy_of_sound (d := d) hc hs
    refine ⟨fun hbusy => congrArg Host.Outcome.next (issue_park hc (hgo.trans (cpyGo_of_busy hbusy)) rfl rfl rfl), fun hbusy hf hsend => ?_⟩
    obtain ⟨hfar, cs, hmine⟩ := farLong_of_long1_onMine hc (by rfl) (hgo.trans (cpyGo_of_idle hbusy hf hsend))
    have hhandle : (State.mine (issue (.cpy h dk sk d a b c) (doCpy dk sk d a b c) s)).handle d = takenHandle n := by
      rw [hmine]
      exact handle_onHandle s.mine d fun _ => takenHandle n
    have hn : n ≤ 32768 := by
      simp only [copySound, Bool.and_eq_true, decide_eq_true_eq] at hs
      obtain ⟨⟨⟨⟨-, hmax⟩, -⟩, -⟩, -⟩ := hs
      exact hmax
    refine ⟨_, rfl, hfar, ?_⟩
    rw [hhandle]
    exact ⟨rfl, rfl, fun j hj => getLsbD_chunkBits hn hj⟩
  case deal => exact fun h die d a b c total s hc hs hsend => ⟨_, rfl, farLong_of_kick hc hsend (by rintro _ _ ⟨⟩) (doDeal_of_sound hc hs)⟩
  case get => exact fun h i64 pm lm tid d a b c s hc hs hsend => ⟨_, rfl, farLong_of_kick hc hsend (by rintro _ _ ⟨⟩) (gather_of_sound hc hs)⟩
  case put =>
    exact fun h i64 pm lm cmb tid d a b c s hc hs hsend => ⟨_, rfl, farLong_of_kick hc hsend (by rintro _ _ ⟨⟩) (gather_of_sound hc hs)⟩
  case gpwait =>
    intro h sub d a b s hc target x
    refine ⟨fun hr => congrArg Host.Outcome.next (issue_park hc ?_ rfl rfl rfl), fun hr hf => exec_gpwait_reached hc hr hf⟩
    rw [doGpwait, rd_of_clear hc]
    exact gpwaitGo_of_unreached hr

end Sys2Proof.Machine
end

section
/-! The scheduler's instructions (O34, R385 to R394). -/
namespace Sys2Proof.Machine
open Sys2Proof.Manual (schedRequest schedKick pointerOk)

section
variable {i : Instr} {s : State} {p : Word} {n : Nat}

/-! ### Pointers (R390) -/

theorem withPtr_of_ok (hp : pointerOk p n = true) (k : State) : s.withPtr p n k = k := by
  simp only [pointerOk, Bool.and_eq_true, Bool.not_eq_true', beq_iff_eq] at hp
  obtain ⟨h57, hal⟩ := hp
  rw [State.withPtr, if_neg (by rw [h57]; exact Bool.false_ne_true), if_neg (by simp [hal])]

theorem withPtr_of_bad (hp : pointerOk p n = false) (k : State) :
    s.withPtr p n k = s.trap (if p.getLsbD 57 then BAD_ADDR else MISALIGN) p := by
  unfold State.withPtr
  cases h57 : p.getLsbD 57 with
  | true => rfl
  | false =>
    rw [pointerOk, h57, Bool.not_false, Bool.true_and] at hp
    rw [if_neg Bool.false_ne_true, if_neg Bool.false_ne_true, if_pos (by rw [bne, hp]; rfl)]

/-! ### Requests and kicks -/

/-- An instruction that only asks the scheduler has the request as its whole body (R385 to R394). -/
theorem body_of_schedRequest {d : GReg} {op : ROp} (hi : schedRequest s.cx.regs i = some (d, op)) (hc : Clear i s = true) :
    ∃ body, exec i s = .next (issue i body s) ∧ body s = s.long1 (.g d .d 0) .unit op := by
  have hrd := rd_of_clear hc
  unfold schedRequest at hi
  split at hi
  case h_5 h d a b =>
    simp only [Option.ite_none_left_eq_some] at hi
    obtain ⟨hp, hi⟩ := hi
    cases hi
    refine ⟨_, rfl, ?_⟩
    rw [doGrabSet, hrd]
    exact withPtr_of_ok (by simpa [pointerOk] using hp) _
  case h_10 => cases hi
  all_goals
    cases hi
    refine ⟨_, rfl, ?_⟩
    rw [← hrd]
    rfl

/-- An instruction that has the scheduler read memory kicks it, once its pointer has been checked (R386, R390, R392); a card it is not. -/
theorem body_of_schedKick {d : GReg} {op : KOp} {q : Option (Word × Nat)} (hi : schedKick s.cx.regs i = some (d, op, q))
    (hc : Clear i s = true) :
    (∀ lvl card, op ≠ .card lvl card) ∧ ∃ body, exec i s = .next (issue i body s) ∧
      body s = q.elim (s.kick op (.g d .d 0)) fun p => s.withPtr p.1 p.2 (s.kick op (.g d .d 0)) := by
  have hrd := rd_of_clear hc
  unfold schedKick at hi
  split at hi
  case h_5 => cases hi
  all_goals
    cases hi
    refine ⟨fun _ _ => KOp.noConfusion, _, rfl, ?_⟩
    rw [← hrd]
    rfl

end

/-- Settles O34: each instruction's body is its request, or its kick behind the check of its pointer. -/
theorem schedulerRequests : Obligations.SchedulerRequests := by
  unfold Obligations.SchedulerRequests
  refine ⟨?asks, ?kicks, ?refuses⟩
  case asks =>
    intro i s d op hi hc
    obtain ⟨body, hexec, hb⟩ := body_of_schedRequest hi hc
    exact ⟨_, hexec, farLong_issue hc hb⟩
  case kicks =>
    intro i s d op q hi hc hq hsend
    obtain ⟨hop, body, hexec, hb⟩ := body_of_schedKick hi hc
    refine ⟨_, hexec, farLong_of_kick (bits := 0) hc hsend hop (hb.trans ?_)⟩
    cases q with
    | none => rfl
    | some q => exact withPtr_of_ok (hq q rfl) _
  case refuses =>
    intro i s d op p n hi hc hh hv hp
    obtain ⟨-, body, hexec, hb⟩ := body_of_schedKick hi hc
    exact ⟨_, hexec, issue_traps hc hh hv (hb.trans (withPtr_of_bad hp _))⟩

end Sys2Proof.Machine
end

section
/-! Walks and invalidations of translations (O41, R229, R230, R254, R263). -/
namespace Sys2Proof.Machine

section
variable {s : State} {i : Nat}

/-! ### Walks -/

/-- What a walker's service of a message comes to: of a walk that fails, nothing that it performed stays (R263). -/
def State.walkOutcome (s : State) (i : Nat) : Served → Served
  | .fail f t => .fail f (t.walkUndone (s.unsend i))
  | v => v

theorem exec_clbWalk {r : Req} {what : Nat} {tid : BitVec 8} {e : Line} {c : Word} {ch : Int} {n : Nat} {sb : List SbEnt}
    {dead : Bool} (hm : s.message i (.req r)) (hop : r.op = .walk what tid e c ch n sb dead) :
    exec (.clbWalk i) s = .next (((s.walkOutcome i ((s.unsend i).serveWalk r)).answer r).getD s) := by
  obtain ⟨⟨born, body⟩, hm, rfl⟩ := hm
  have hwalk : (s.chan[i]?).any (fun m => m.body.isWalk) = true := by simp only [hm, Option.any_some, Body.isWalk, hop]
  have hfar : r.op.toHome = false := by rw [hop]; rfl
  refine congrArg Host.Outcome.next ((if_pos hwalk).trans ?_)
  simp only [State.clbWalk, hm, hfar, if_neg Bool.false_ne_true]
  cases (s.unsend i).serveWalk r <;> rfl

/-! ### Invalidations -/

theorem exec_tlbInvalidate {n : Nat} {w : Who} {tag scope : Nat} {va : Word} {ten : BitVec 16} (hm : s.message i (.inval n w tag scope va ten)) :
    exec (.tlbInvalidate i) s = .next (({ s.unsend i with
      mem := { s.mem with tlb := s.mem.tlb.filter fun e => !(e.stop == n && e.dropped scope (fld va 56 0) ten) } } : State).send
        (.reply (ackTo w tag))) := by
  obtain ⟨⟨born, body⟩, hm, rfl⟩ := hm
  change execTlbInvalidate i s = _
  simp only [execTlbInvalidate, hm]
  rfl

theorem dropped_page {e : TlbEnt} {va : Nat} {ten : BitVec 16} : e.dropped 0 va ten = true ↔
    e.tenant = ten ∧ (if pteN e.pte then e.vpn / 16 = va / 65536 else e.vpn = va / 2 ^ (12 + 9 * e.level)) := by
  simp only [TlbEnt.dropped, Bool.and_eq_true, beq_iff_eq]
  split <;> simp

theorem dropped_tenant {e : TlbEnt} {va : Nat} {ten : BitVec 16} : e.dropped 1 va ten = true ↔ e.tenant = ten := beq_iff_eq

/-- The entries that stay are those of other stops, and those that the scope does not name. -/
theorem mem_filter_dropped {l : List TlbEnt} {e : TlbEnt} {n scope va : Nat} {ten : BitVec 16} :
    e ∈ l.filter (fun e => !(e.stop == n && e.dropped scope va ten)) ↔ e ∈ l ∧ ¬ (e.stop = n ∧ e.dropped scope va ten = true) := by
  rw [List.mem_filter, Bool.not_eq_true', ← Bool.not_eq_true, Bool.and_eq_true, beq_iff_eq]

end

end Sys2Proof.Machine
end

section
/-! What waits for a page: stores held at their homes, and threads saved on a fault (O41, R204, R354, R362, R363). -/
namespace Sys2Proof.Machine

section
variable {s : State} {tenant page : Nat}

/-! ### Where no thread is saved for a page -/

theorem mem_of_tget {α : Type} {t : Tab α} {k : Nat} {v : α} (h : tget t k = some v) : (k, v) ∈ t := by
  induction t with
  | nil => cases h
  | cons p t ih =>
    obtain ⟨j, u⟩ := p
    rw [tget] at h
    split at h
    next hk =>
      cases h
      rw [hk]
      exact List.mem_cons_self
    next => exact List.mem_cons_of_mem _ (ih h)

theorem paged_core_eq_nil (h : ∀ p ∈ s.cores, p.2.paged = []) (core : Nat) : (s.core core).paged = [] := by
  rw [State.core, tgetD]
  cases hk : tget s.cores core with
  | none => rfl
  | some k => exact h _ (mem_of_tget hk)

theorem restorePaged_of_nil {core : Nat} (h : (s.core core).paged = []) : s.restorePaged core = s := by
  have hnone : (s.core core).restorable = none := by
    rw [Core.restorable, h]
    exact ite_self none
  simp only [State.restorePaged, hnone]

theorem foldl_restorePaged_of_nil (h : ∀ p ∈ s.cores, p.2.paged = []) (l : List Nat) : l.foldl State.restorePaged s = s :=
  foldl_keeps (p := (· = s)) (fun t core ht => by rw [ht, restorePaged_of_nil (paged_core_eq_nil h core)]) l s rfl

theorem ackStore_eq (s : State) (r : Req) (j : Nat) (f : Option RFault) : ∃ c, s.ackStore r j f = { s with chan := c } := by
  unfold State.ackStore
  split
  · exact ⟨s.chan, rfl⟩
  · split
    · exact ⟨s.chan, rfl⟩
    · exact ⟨_, rfl⟩

/-- The answer for a page that no thread waits for reaches the accesses held for it, and no more. -/
theorem pageMapped_of_none_saved {ok : Bool} {t : State} (hsaved : ∀ p ∈ s.cores, p.2.paged = [])
    (ht : ({ s with parked := [] } : State).heldStores tenant page ok s.parked.reverse = t) (hcores : t.cores = s.cores) :
    s.pageMapped tenant page ok = { t with parked := t.parked.reverse } := by
  have hanswer : (s.cores.map fun p => (p.1, { p.2 with paged := p.2.paged.map (answerPage tenant page ok) })) = s.cores := by
    refine (List.map_congr_left fun p hp => ?_).trans (List.map_id s.cores)
    rw [hsaved p hp, List.map_nil, ← hsaved p hp]
    rfl
  unfold State.pageMapped
  dsimp only
  rw [hanswer, ht]
  exact foldl_restorePaged_of_nil (s := { t with parked := t.parked.reverse }) (hcores ▸ hsaved) _

/-! ### The restore of a thread that expects nothing (R354, R363) -/

theorem beside_onSched (s : State) (f : Sched → Sched) : Beside s (s.onSched f) := ⟨fun _ _ => rfl, rfl, rfl, rfl⟩

theorem beside_rename (s : State) (old new : Who) : Beside s (s.rename old new) :=
by
  unfold State.rename
  exact (beside_onSched s _).trans (beside_onCore (by rfl))

theorem paged_rename (s : State) (old new : Who) (core : Nat) : ((s.rename old new).core core).paged = (s.core core).paged := by
  unfold State.rename
  rw [State.core_onCore]
  split
  next hcore => rw [hcore]; rfl
  next => rfl

theorem settle_of_no_pend {c : Ctx} (h : c.pend = []) : c.settle = c := by
  rw [Ctx.settle, h]
  rfl

theorem reown_of_no_pend {c : Ctx} (h : c.pend = []) (w : Who) : c.reown w = c := by
  rw [Ctx.reown, h, List.map_nil, ← h]

/-- A context with nothing to resend is only written back. -/
theorem replayAll_of_nothing {core x : Nat} (hpend : (s.ctx core x).pend = []) (hreplay : (s.ctx core x).replay = []) :
    s.replayAll core x = s.setCtx core x (s.ctx core x) := by
  have hsame : { s.ctx core x with replay := [], pend := [] } = s.ctx core x := by
    rw [← hpend, ← hreplay]
  simp only [State.replayAll, hreplay, hpend, List.filterMap_nil, List.map_nil, List.flatten_nil, List.foldl_nil, hsame]

/-- A restored thread has its registers and its PC, a new incarnation, and runs; all else is as it was. -/
structure Restored (s t : State) (core x : Nat) (c : Ctx) : Prop where
  ctx    : ∃ run, run ≠ .free ∧ t.ctx core x = { c with inc := (s.ctx core x).inc + 1, run := run, reuse := 0, pageFault := false }
  others : ∀ y, y ≠ x → t.ctx core y = s.ctx core y
  paged  : (t.core core).paged = (s.core core).paged
  mem    : t.mem = s.mem

/-- The state in which a thread that is restored goes on: dozing until its time, parked, or ready. -/
theorem restored_run_ne_free (run : Run) (now : Nat) :
    (match run with | .dozing t => if t ≤ now then Run.ready else .dozing t | .parked k p q l => .parked k p q l | _ => .ready) ≠ .free := by
  cases run with
  | dozing t =>
    dsimp only
    split <;> exact nofun
  | _ => exact nofun

theorem restore_of_settled {core x old : Nat} {c : Ctx} (hpend : c.pend = []) (hreplay : c.replay = []) :
    Restored s (s.restore core x old c) core x c := by
  unfold State.restore
  extract_lets new named run owned kept placed
  have hrun : run ≠ .free := restored_run_ne_free c.run (named.coreNow core)
  have hnamed : Beside s named := beside_rename ..
  have hpaged : (named.core core).paged = (s.core core).paged := paged_rename ..
  have hkept : kept = { c with inc := new.inc, run := run, reuse := 0, pageFault := false } := by
    simp only [kept, owned, settle_of_no_pend hpend, reown_of_no_pend hpend]
  clear_value run named kept
  have hcore : placed.core core = { (named.core core).setCtx x kept with
      capHold := if kept.cap.isSome then tset (named.core core).capHold (x % 8) x else (named.core core).capHold } := State.core_onCore_self ..
  have hctx : placed.ctx core x = kept := by
    rw [State.ctx, hcore]
    exact Core.ctx_setCtx_self ..
  rw [replayAll_of_nothing (by rw [hctx, hkept]; exact hpend) (by rw [hctx, hkept]; exact hreplay), hctx]
  refine ⟨⟨run, hrun, by rw [State.ctx_setCtx_self, hkept]⟩, fun y hy => ?_, ?_, hnamed.mem⟩
  · rw [State.ctx_setCtx, if_neg fun hxy => hy hxy.2, ← hnamed.threads core y, State.ctx, hcore]
    exact (Core.ctx_setCtx ..).trans (if_neg hy)
  · rw [State.setCtx, State.core_onCore_self, hcore]
    exact hpaged

/-- Writing the restored context back leaves the restore as it is. -/
theorem Restored.rewritten {t : State} {core x : Nat} {c : Ctx} (h : Restored s t core x c) : Restored s (t.onCtx core x fun c => c) core x c := by
  obtain ⟨⟨run, hrun, hctx⟩, hothers, hpaged, hmem⟩ := h
  refine ⟨⟨run, hrun, (State.ctx_setCtx_self ..).trans hctx⟩, fun y hy => ?_, ?_, hmem⟩
  · exact ((State.ctx_setCtx ..).trans (if_neg fun hxy => hy hxy.2)).trans (hothers y hy)
  · rw [State.onCtx, State.setCtx, State.core_onCore_self]
    exact hpaged

/-- A thread whose one page has been mapped, and which expects no message, is restored into the first free context. -/
theorem restorePaged_of_mapped {core old a x : Nat} {c : Ctx} (hpaged : (s.core core).paged = [(old, c, [(a, some true)])])
    (hexp : c.expects = false) (hcap : c.cap = none) (hreplay : c.replay = []) (hpend : c.pend = []) (hfree : (s.core core).freeCtx = some x)
    (hheld : (s.core core).held = false) (hstopped : (s.core core).stopped = false) :
    Restored (s.onCore core fun k => { k with paged := [] }) (s.restorePaged core) core x c := by
  have hready : (s.core core).restorable = some 0 := by
    simp [Core.restorable, hheld, hstopped, hpaged, hexp]
  have hall : { c with replay := [] } = c := by rw [← hreplay]
  have hgo : s.restorePaged core = ((s.onCore core fun k => { k with paged := [] }).restore core x old c).onCtx core x fun c => c := by
    have hfits : ¬ (c.cap.isSome && (tget (s.core core).capHold (x % 8)).isSome) = true := by simp [hcap]
    have hdrop : (s.onCore core fun k => { k with paged := dropAt k.paged 0 }) = s.onCore core fun k => { k with paged := [] } := by
      simp only [State.onCore, hpaged, dropAt]
    have hmapped : (some true == some false) = false := rfl
    simp only [State.restorePaged, hready, hfree, hpaged, List.getElem?_cons_zero, if_neg hfits, hreplay, declineRecs, List.filter_nil,
      List.map_nil, List.find?_cons, List.find?_nil, hmapped, Bool.false_and, hall, hdrop]
    rfl
  rw [hgo]
  exact (restore_of_settled hpend hreplay).rewritten

end

end Sys2Proof.Machine
end

section
/-! The answer for a page: the store that goes to its home again, the thread that is restored, and the settlement of O41 (R354, R358). -/
namespace Sys2Proof.Machine

section
variable {s : State} {tenant page : Nat}

/-- What a store held for a page is refused with, when the page is declined (R358). -/
def Req.unmapped (r : Req) : RFault := { kind := 1, absent := false, addr := match r.place with | .glob va => va | _ => 0 }

theorem heldStores_of_store {ok : Bool} {h : Held} {d : Line} {m : BitVec 64} {b : Bool} {j : Nat} (hop : h.req.op = .store d m b j)
    (hpage : h.page = page) (hten : h.req.who.tenant.toNat = tenant) :
    s.heldStores tenant page ok [h] =
      if ok then { s with homes := h.req :: s.homes } else s.ackStore h.req j (some h.req.unmapped) := by
  simp only [State.heldStores, hop, hpage, hten, decide_true, Bool.and_self, if_true]
  rfl

/-- The only store held, of a page that has been mapped, comes first to its home; of a page declined it is refused as UNMAPPED (R354, R358). -/
theorem pageMapped_of_held_store {ok : Bool} {h : Held} {d : Line} {m : BitVec 64} {b : Bool} {j : Nat} (hsaved : ∀ p ∈ s.cores, p.2.paged = [])
    (hparked : s.parked = [h]) (hop : h.req.op = .store d m b j) (hpage : h.page = page) (hten : h.req.who.tenant.toNat = tenant) :
    s.pageMapped tenant page ok = if ok then { s with parked := [], homes := h.req :: s.homes }
      else ({ s with parked := [] } : State).ackStore h.req j (some h.req.unmapped) := by
  have hheld : ({ s with parked := [] } : State).heldStores tenant page ok s.parked.reverse =
      if ok then { s with parked := [], homes := h.req :: s.homes }
      else ({ s with parked := [] } : State).ackStore h.req j (some h.req.unmapped) := by
    rw [hparked]
    exact heldStores_of_store hop hpage hten
  cases ok with
  | true => exact pageMapped_of_none_saved hsaved hheld rfl
  | false =>
    rw [if_neg Bool.false_ne_true] at hheld ⊢
    obtain ⟨c, hack⟩ := ackStore_eq ({ s with parked := [] } : State) h.req j (some h.req.unmapped)
    rw [pageMapped_of_none_saved hsaved hheld (by rw [hack]), hack]
    rfl

/-- The only thread saved on its core is restored, where the page that it waits for is mapped. -/
theorem pageMapped_restores {core old a x : Nat} {k : Core} {c : Ctx} (hparked : s.parked = []) (hcores : s.cores = [(core, k)])
    (hpaged : k.paged = [(old, c, [(a, none)])]) (hexp : c.expects = false) (hcap : c.cap = none) (hreplay : c.replay = [])
    (hpend : c.pend = []) (hten : c.tenant.toNat = tenant) (hpage : fld (BitVec.ofNat 64 a) 56 12 = page) (hfree : k.freeCtx = some x)
    (hheld : k.held = false) (hstopped : k.stopped = false) :
    ∃ u : State, (∀ y, u.ctx core y = k.ctx y) ∧ (u.core core).paged = [] ∧ u.mem = s.mem ∧
      Restored u (s.pageMapped tenant page true) core x c := by
  let k' : Core := { k with paged := [(old, c, [(a, some true)])] }
  let u : State := { s with parked := [], cores := [(core, k')] }
  have hcore : u.core core = k' := congrArg (Option.getD · Core.reset) (if_pos rfl)
  have hgo : s.pageMapped tenant page true = u.restorePaged core := by
    simp only [State.pageMapped, hparked, hcores, hpaged, answerPage, hten, hpage, if_true, List.map_cons, List.map_nil, List.reverse_nil,
      State.heldStores, List.foldl_cons, List.foldl_nil]
    rfl
  rw [hgo]
  refine ⟨u.onCore core fun k => { k with paged := [] }, fun y => ?_, ?_, rfl, restorePaged_of_mapped (by rw [hcore]) hexp hcap hreplay
    hpend (by rw [hcore]; exact hfree) (by rw [hcore]; exact hheld) (by rw [hcore]; exact hstopped)⟩
  · rw [ctx_onCore_of_ctxs (by rfl), State.ctx, hcore]
    rfl
  · rw [State.core_onCore_self]

end

/-- Settles O41: a walk by its outcome, an invalidation by what its filter keeps, an answer by what is held or saved for its page. -/
theorem pagesAnswered : Obligations.PagesAnswered := by
  unfold Obligations.PagesAnswered
  refine ⟨?walk, ?inval, ?held, ?saved⟩
  case walk =>
    intro i r what tid e c ch n sb dead s hm hop
    have hexec := exec_clbWalk hm hop
    refine ⟨fun l t hs => ?_, fun f t hs => ⟨t.walkUndone (s.unsend i), ?_, rfl, rfl, rfl, rfl, rfl⟩, fun hs => ?_⟩
    all_goals
      rw [hexec, hs]
      rfl
  case inval =>
    intro i n w tag scope va ten s hm
    refine ⟨_, exec_tlbInvalidate hm, rfl, rfl, rfl, fun e =>
      mem_filter_dropped.trans (and_congr_right fun _ => not_congr (and_congr_right fun _ => ?_))⟩
    match scope with
    | 0 => exact dropped_page
    | 1 => exact dropped_tenant
    | _ + 2 => exact iff_of_true rfl trivial
  case held =>
    rintro tenant page ok s r j h d m b hsaved hparked rfl hop hpage hten
    exact congrArg Host.Outcome.next (pageMapped_of_held_store hsaved hparked hop hpage hten)
  case saved =>
    intro core k old c a x tenant page s hparked hcores hpaged hexp hcap hreplay hpend hten hpage hfree hheld hstopped
    obtain ⟨u, hctx, hnone, hmem, ⟨run, hrun, hx⟩, hothers, hp, hm⟩ :=
      pageMapped_restores hparked hcores hpaged hexp hcap hreplay hpend hten hpage hfree hheld hstopped
    refine ⟨_, rfl, ?_⟩
    rw [hx, hctx x]
    exact ⟨rfl, rfl, rfl, rfl, hrun, rfl, hp.trans hnone, hm.trans hmem, fun y hy => (hothers y hy).trans (hctx y)⟩

end Sys2Proof.Machine
end

section
/-! A kick is taken up by its engine (O47, R219, R220, R269, R274, R278, R291, R322, R384, R390). -/
namespace Sys2Proof.Machine

section
variable {s : State} {i : Nat} {r : Req} {w : Who}

/-- What a thread that asked is told. -/
def replyTo (w : Who) (r : Req) (data : Line) : Body :=
  .reply { dst := w, tag := r.tag, data := data, flags := 0, fault := none, lane := r.lane }

theorem reply_of_thread (hw : r.who.agent = .thread w) (data : Line) : s.reply r data 0 none = s.send (replyTo w r data) := by
  simp only [State.reply, Asker.thread?, hw, replyTo]

theorem unit_onUnit_self (s : State) (lvl n : Nat) (f : LUnit → LUnit) : (s.onUnit lvl n f).unit lvl n = f (s.unit lvl n) :=
  tgetD_tset_self ..

theorem unit_send (s : State) (b : Body) (lvl n : Nat) : (s.send b).unit lvl n = s.unit lvl n := rfl

theorem pushCard_of_room {lvl unit origin : Nat} {card : Line} {who : Asker} {parent : Option (Nat × Nat × Nat × Nat)} {part : Bool}
    {pairs : Option Nat} (h : (s.unit lvl unit).queue.length < queueCap lvl) :
    s.pushCard lvl unit card who origin parent part pairs = some (s.onUnit lvl unit fun q =>
      { q with queue := q.queue ++ [newCard q.next card who origin parent part pairs], next := q.next + 1 }) :=
  if_neg (Nat.not_le.mpr h)

theorem pushCard_of_full {lvl unit origin : Nat} {card : Line} {who : Asker} {parent : Option (Nat × Nat × Nat × Nat)} {part : Bool}
    {pairs : Option Nat} (h : queueCap lvl ≤ (s.unit lvl unit).queue.length) : s.pushCard lvl unit card who origin parent part pairs = none :=
  if_pos h

/-- Message i is the kick k of a live engine by thread w. -/
structure Kicks (s : State) (i : Nat) (r : Req) (w : Who) (k : KOp) : Prop where
  message : s.message i (.req r)
  op      : r.op = .kick k
  who     : r.who.agent = .thread w
  runs    : s.kickStopped w.core k = false

/-- A card joins the queue of its unit, where there is room. -/
theorem kickAccept_card_of_room {lvl : Lvl} {card : Line} (h : Kicks s i r w (.card lvl card))
    (hroom : (s.unit (lvlNo lvl) (unitOf (lvlNo lvl) w.core)).queue.length < queueCap (lvlNo lvl)) :
    s.kickAccept i = ((s.unsend i).onUnit (lvlNo lvl) (unitOf (lvlNo lvl) w.core) fun q =>
      { q with queue := q.queue ++ [newCard q.next card r.who w.core none false none], next := q.next + 1 }).send (replyTo w r 0) := by
  obtain ⟨⟨⟨born, body⟩, hm, rfl⟩, hop, hw, hruns⟩ := h
  have hpush := pushCard_of_room (s := s.unsend i) (card := card) (who := r.who) (origin := w.core) (parent := none) (part := false)
    (pairs := none) hroom
  simp only [State.kickAccept, hm, hop, Asker.thread?, hw, hruns, if_neg Bool.false_ne_true, hpush]
  exact reply_of_thread hw 0

theorem kickAccept_card_of_full {lvl : Lvl} {card : Line} (h : Kicks s i r w (.card lvl card))
    (hfull : queueCap (lvlNo lvl) ≤ (s.unit (lvlNo lvl) (unitOf (lvlNo lvl) w.core)).queue.length) : s.kickAccept i = s := by
  obtain ⟨⟨⟨born, body⟩, hm, rfl⟩, hop, hw, hruns⟩ := h
  have hpush := pushCard_of_full (s := s.unsend i) (card := card) (who := r.who) (origin := w.core) (parent := none) (part := false)
    (pairs := none) hfull
  simp only [State.kickAccept, hm, hop, Asker.thread?, hw, hruns, if_neg Bool.false_ne_true, hpush]

/-- The engine with whose rights a copy or a deal of a core works (R269, R274). -/
def KOp.engineOf (core : Nat) : KOp → Option Agent
  | .cpy .. => some (.copy core)
  | .deal die .. => some (if die then .die (dieOf core) else .cluster (clusterOf core))
  | _ => none

/-- An operation as a core's copy unit enters it, none of it performed. -/
def State.newCopy (s : State) (core : Nat) (a : Asker) (k : KOp) : COp :=
  { id := (s.core core).nextOp, who := a, core := core, op := k, entry := 0, done := 0, fault := none, stages := 0 }

theorem copies_addCopy (s : State) (core : Nat) (a : Asker) (k : KOp) :
    ((s.addCopy core a k 0).core core).copies = (s.core core).copies ++ [s.newCopy core a k] :=
  congrArg Core.copies (State.core_onCore_self ..)

/-- A copy or a deal is entered among the operations of its core's copy unit. -/
theorem kickAccept_entered {k : KOp} {a : Agent} (h : Kicks s i r w k) (ha : k.engineOf w.core = some a) :
    s.kickAccept i = ((s.unsend i).addCopy w.core (r.who.engine a) k 0).send (replyTo w r 0) := by
  obtain ⟨⟨⟨born, body⟩, hm, rfl⟩, hop, hw, hruns⟩ := h
  rw [← reply_of_thread hw 0]
  cases k with
  | cpy | deal =>
    cases ha
    simp only [State.kickAccept, hm, hop, Asker.thread?, hw, hruns, if_neg Bool.false_ne_true]
  | _ => cases ha

/-- A SDROP of a stream with nothing to store is acknowledged. -/
theorem kickAccept_sdrop_of_nothing {v : VReg} {st : Stream} (h : Kicks s i r w (.sdrop v st)) (hst : st.ready = false ∨ st.out = []) :
    s.kickAccept i = (s.unsend i).send (replyTo w r 0) := by
  obtain ⟨⟨⟨born, body⟩, hm, rfl⟩, hop, hw, hruns⟩ := h
  have hnothing : (if st.ready then st.out else []) = [] := by
    obtain hready | hout := hst
    · rw [hready]; rfl
    · rw [hout]; exact ite_self []
  simp only [State.kickAccept, hm, hop, Asker.thread?, hw, hruns, if_neg Bool.false_ne_true, hnothing]
  exact reply_of_thread hw 0

theorem ofNat_fromByte_line (d : Line) : BitVec.ofNat 512 (fromByte d 0 64) = d := by
  have hbits : 8 * 64 = 512 := rfl
  rw [fromByte, Nat.mul_zero, Nat.pow_zero, Nat.div_one, hbits, BitVec.toNat_mod_cancel, BitVec.ofNat_toNat, BitVec.setWidth_eq]

/-- A launch's descriptor has been read: the scheduler's answer is the acknowledgement. -/
theorem kickAccept_launch {a : Word} {d : Line} {u : State} (h : Kicks s i r w (.launch a))
    (hload : (s.unsend i).gLoad (r.who.engine .package) .load a 64 = .done d u) (hal : fld a 5 0 = 0) :
    s.kickAccept i = (u.accept (u.issuer r.who) d).2.send (replyTo w r ((u.accept (u.issuer r.who) d).1.setWidth 512)) := by
  obtain ⟨⟨⟨born, body⟩, hm, rfl⟩, hop, hw, hruns⟩ := h
  simp only [State.kickAccept, hm, hop, Asker.thread?, hw, hruns, if_neg Bool.false_ne_true, State.schedKick, State.schedRead, hload, hal,
    ofNat_fromByte_line]
  exact reply_of_thread hw _

end

end Sys2Proof.Machine
end

section
/-! The access that an engine holds for a page is made again (O47, R290, R320, R354). -/
namespace Sys2Proof.Machine

section
variable {s : State} {i c : Nat} {h : Held}

/-- The access that is held is an engine's, and its page has been answered. -/
structure Retries (s : State) (i : Nat) (h : Held) : Prop where
  held     : s.parked[i]? = some h
  engine   : h.req.op = .pref
  answered : h.answer.isSome = true

theorem Retries.ready (hr : Retries s i h) : (h.answer.isNone || h.req.op != .pref) = false := by
  obtain ⟨-, hop, hans⟩ := hr
  cases hh : h.answer with
  | none => rw [hh] at hans; cases hans
  | some ok => simp [hop]

/-- The core whose copy unit makes an access of an operation: a deal's goes by the engine of its cluster or die, and names its core. -/
def Held.ofCore (h : Held) (c : Nat) : Prop := h.req.who.agent = .copy c ∨ h.req.lane = some c ∧ ∀ d, h.req.who.agent ≠ .copy d

/-! ### Operations of the copy unit -/

/-- The step of an operation, by its kind and the lane of the access held. -/
def State.opStep (s : State) (core op : Nat) (k : KOp) (lane : Option Nat) : State :=
  match k, lane with
  | .cpy .cb .., _ => s.stageStep core op
  | .cpy .., some chunk => s.chunkStep core op chunk
  | .deal .., _ => s.dealStep core op
  | .gather .., _ => s.gatherStep core op
  | .sdrop .., _ => s.dropStep core op
  | _, _ => s

/-- The step of an operation is the one that performs its next part. -/
theorem exec_eq_opStep {o : COp} {e : Instr} {lane : Option Nat} (hby : o.doneBy c (lane.getD 0) e lane) :
    exec e s = .next (s.opStep c o.id o.op lane) := by
  obtain ⟨id, who, core, op, entry, done, fault, stages⟩ := o
  cases op with
  | cpy dk sk h a b n =>
    cases dk with
    | cb =>
      obtain ⟨rfl, rfl⟩ := hby
      rfl
    | l | c | x | g | o =>
      obtain ⟨rfl, hlane⟩ := hby
      rw [hlane]
      rfl
  | deal die r a pat off total =>
    obtain ⟨rfl, rfl, hlt⟩ := hby
    have hmod : (id * 8192 + c) % 8192 = c := by omega
    have hdiv : (id * 8192 + c) / 8192 = id := by omega
    change Host.Outcome.next (s.dealStep ((id * 8192 + c) % 8192) ((id * 8192 + c) / 8192)) = _
    rw [hmod, hdiv]
    rfl
  | gather put i64 pm lm cmb tid r a b n =>
    obtain ⟨rfl, rfl⟩ := hby
    rfl
  | _ => exact hby.elim

/-- An access under an operation's tag: its operation's step is performed; the hold is dropped where the operation is over. -/
theorem engineRetry_of_opTag (hr : Retries s i h) (htag : h.req.tag < 2 ^ 20) (hat : h.ofCore c) :
    s.engineRetry i = ((s.core c).copy h.req.tag).elim (s.unhold h.req.who h.req.tag h.req.lane)
      fun o => s.opStep c h.req.tag o.op h.req.lane := by
  have hready := hr.ready
  have h31 : ¬ h.req.tag ≥ 2 ^ 31 := by omega
  have h30 : ¬ h.req.tag ≥ 2 ^ 30 := by omega
  have h20 : ¬ h.req.tag ≥ 2 ^ 20 := by omega
  unfold State.engineRetry
  simp only [hr.held, hready, if_neg Bool.false_ne_true, if_neg h31, if_neg h30, if_neg h20]
  obtain hagent | ⟨hlane, hagent⟩ := hat
  · simp only [hagent]
    cases (s.core c).copy h.req.tag <;> rfl
  · cases ha : h.req.who.agent with
    | copy d => exact absurd ha (hagent d)
    | _ =>
      simp only [hlane]
      cases (s.core c).copy h.req.tag <;> rfl

/-! ### Streams -/

theorem exec_drain_stream {x v : Nat} (hx : x < 32) (hv : 24 ≤ v) (hv' : v < 32) :
    exec (.drain c (32 + 8 * x + (v - 24))) s = .next (s.streamDrain c x v) := by
  refine congrArg Host.Outcome.next ?_
  have hlow : ¬ 32 + 8 * x + (v - 24) < 32 := by omega
  have hhigh : 32 + 8 * x + (v - 24) < 288 := by omega
  have hctx : (32 + 8 * x + (v - 24) - 32) / 8 = x := by omega
  have hreg : 24 + (32 + 8 * x + (v - 24) - 32) % 8 = v := by omega
  rw [State.drainAny, if_neg hlow, if_pos hhigh, hctx, hreg]

/-- An access under a stream's tag: a strip of the stream is stored, or loaded. -/
theorem engineRetry_of_stream {x v : Nat} {st : Stream} (hr : Retries s i h) (htag : h.req.tag = streamTag x v) (hx : x < 32) (hv : v < 32)
    (hagent : h.req.who.agent = .copy c) (hst : tget (s.ctx c x).streams v = some st) :
    s.engineRetry i = if st.wr then s.streamDrain c x v else s.stripStep c x v := by
  have hready := hr.ready
  have h31 : ¬ h.req.tag ≥ 2 ^ 31 := by rw [htag, streamTag]; omega
  have h30 : ¬ h.req.tag ≥ 2 ^ 30 := by rw [htag, streamTag]; omega
  have h20 : h.req.tag ≥ 2 ^ 20 := by rw [htag, streamTag]; omega
  have hctx : (h.req.tag - 2 ^ 20) / 32 = x := by rw [htag, streamTag]; omega
  have hreg : (h.req.tag - 2 ^ 20) % 32 = v := by rw [htag, streamTag]; omega
  unfold State.engineRetry
  simp only [hr.held, hready, if_neg Bool.false_ne_true, if_neg h31, if_neg h30, if_pos h20, hagent, Agent.core?, hctx, hreg, hst]

/-! ### Kicks -/

/-- Message m is the kick of a core to which the access held belongs. -/
def Held.ofKick (h : Held) (c : Nat) (m : Msg) : Bool :=
  match m.body with
  | .req r => m.body.isKick && some r.tag == h.req.lane &&
    (match r.who.thread? with | some w => w.core == c && kickTag w == h.req.tag | none => false)
  | _ => false

/-- An access under a kick's tag: the kick is taken up. -/
theorem engineRetry_of_kick {n : Nat} (hr : Retries s i h) (hlow : 2 ^ 30 ≤ h.req.tag) (hhigh : h.req.tag < 2 ^ 31)
    (hagent : h.req.who.agent = .copy c) (hfind : s.chan.findIdx? (h.ofKick c) = some n) : s.engineRetry i = s.kickAccept n := by
  have hready := hr.ready
  have h31 : ¬ h.req.tag ≥ 2 ^ 31 := by omega
  unfold State.engineRetry
  simp only [hr.held, hready, if_neg Bool.false_ne_true, if_neg h31, if_pos hlow, hagent, Agent.core?]
  split
  next m hm => rw [Option.some.inj (hm.symm.trans hfind)]
  next hm => cases hm.symm.trans hfind

/-! ### Cards -/

/-- The next step of the card at place n of a unit's queue. -/
def State.cardNext (s : State) (lvl unit n : Nat) (r : CardRec) : State :=
  if !r.accepted then s.cardAccept lvl unit n
  else if lvl = 1 then s.cardRun unit
  else if isCollective r.card then s.collRun
  else if !s.unitOn lvl unit then s else if lvl = 4 && unit > 0 then s.peerRun unit else s.decompose lvl unit

/-- An access under a card's tag: the card's next step is performed. -/
theorem engineRetry_of_card {lvl : Lvl} {u n : Nat} {r : CardRec} (hr : Retries s i h) (hagent : h.req.who.agent = unitAgent (lvlNo lvl) u)
    (hu : lvl = .L4 ∨ lvl = .L5 → u = 0) (htag : 2 ^ 31 ≤ h.req.tag)
    (hfind : (s.unit (lvlNo lvl) u).queue.findIdx? (fun r => cardTag r.id == h.req.tag) = some n)
    (hn : (s.unit (lvlNo lvl) u).queue[n]? = some r) : s.engineRetry i = s.cardNext (lvlNo lvl) u n r := by
  have hready := hr.ready
  unfold State.engineRetry
  simp only [hr.held, hready, if_neg Bool.false_ne_true, if_pos htag]
  cases lvl with
  | L1 | L2 | L3 =>
    simp only [lvlNo] at hagent hfind hn
    simp only [hagent, unitAgent, hfind, hn]
    rfl
  | L4 =>
    cases hu (.inl rfl)
    simp only [lvlNo] at hagent hfind hn
    simp only [hagent, unitAgent, if_true, hfind, hn]
    rfl
  | L5 =>
    cases hu (.inr rfl)
    simp only [lvlNo] at hagent hfind hn
    simp only [hagent, unitAgent, hfind, hn]
    rfl

theorem cardNext_of_waiting {lvl : Lvl} {u n : Nat} {r : CardRec} (ha : r.accepted = false) :
    exec (.cardAccept lvl u n) s = .next (s.cardNext (lvlNo lvl) u n r) :=
  congrArg Host.Outcome.next (if_pos (by rw [ha]; rfl)).symm

theorem cardNext_of_sequencer {u n : Nat} {r : CardRec} (ha : r.accepted = true) (hu : u < 8192) :
    exec (.cardRun u) s = .next (s.cardNext (lvlNo .L1) u n r) := by
  refine congrArg Host.Outcome.next ?_
  rw [if_pos hu, State.cardNext, ha]
  rfl

theorem one_lt_lvlNo {lvl : Lvl} (h : lvl ≠ .L1) : 2 ≤ lvlNo lvl := by
  cases lvl with
  | L1 => exact absurd rfl h
  | _ => decide

theorem cardNext_of_split {lvl : Lvl} {u n : Nat} {r : CardRec} (ha : r.accepted = true) (hl : lvl ≠ .L1) (hcoll : isCollective r.card = false) :
    exec (.cardDecompose lvl u) s = .next (s.cardNext (lvlNo lvl) u n r) := by
  have hlvl := one_lt_lvlNo hl
  have hnot : ¬ lvlNo lvl = 1 := by omega
  refine congrArg Host.Outcome.next ?_
  rw [State.cardNext, ha, hcoll, Bool.not_true, if_neg Bool.false_ne_true, if_neg hnot, if_neg Bool.false_ne_true]
  simp [hlvl]

theorem cardNext_of_collective {lvl : Lvl} {u n : Nat} {r : CardRec} (ha : r.accepted = true) (hl : lvl ≠ .L1)
    (hcoll : isCollective r.card = true) :
    exec (.cardRun 8192) s = .next (s.cardNext (lvlNo lvl) u n r) := by
  have hlvl := one_lt_lvlNo hl
  have hnot : ¬ lvlNo lvl = 1 := by omega
  refine congrArg Host.Outcome.next ?_
  rw [State.cardNext, ha, hcoll, Bool.not_true, if_neg Bool.false_ne_true, if_neg hnot, if_pos rfl]
  rfl

end

/-- Settles O47: a kick's effect by the engine that it is for, and the retry by what the held access belongs to. -/
theorem kicksAccepted : Obligations.KicksAccepted := by
  unfold Obligations.KicksAccepted
  refine ⟨?accept, ?retry⟩
  case accept =>
    intro i r w k s hm hop hw hruns ack
    have hkick {k' : KOp} (hk : k = k') : Kicks s i r w k' := by subst hk; exact ⟨hm, hop, hw, hruns⟩
    refine ⟨?card, ?cpy, ?deal, ?sdrop, ?launch⟩
    case card =>
      intro lvl card hk u
      refine ⟨fun hroom => ⟨_, newCard (s.unit (lvlNo lvl) u).next card r.who w.core none false none,
        congrArg Host.Outcome.next (kickAccept_card_of_room (hkick hk) hroom), rfl, ?_, rfl, rfl, rfl, rfl, rfl, rfl, rfl, rfl, rfl⟩,
        fun hfull => congrArg Host.Outcome.next (kickAccept_card_of_full (hkick hk) hfull)⟩
      rw [unit_send, unit_onUnit_self]
      rfl
    case cpy =>
      rintro dk sk h a b n rfl
      exact ⟨_, s.newCopy w.core (r.who.engine (.copy w.core)) (.cpy dk sk h a b n),
        congrArg Host.Outcome.next (kickAccept_entered (hkick rfl) rfl), rfl, copies_addCopy .., rfl, rfl, rfl, rfl⟩
    case deal =>
      rintro die c a pat off total rfl
      exact ⟨_, s.newCopy w.core (r.who.engine (if die then .die (dieOf w.core) else .cluster (clusterOf w.core))) (.deal die c a pat off total),
        congrArg Host.Outcome.next (kickAccept_entered (hkick rfl) rfl), rfl, copies_addCopy .., rfl, rfl, rfl⟩
    case sdrop => exact fun v st hk hst => congrArg Host.Outcome.next (kickAccept_sdrop_of_nothing (hkick hk) hst)
    case launch => exact fun a d u hk hload hal => congrArg Host.Outcome.next (kickAccept_launch (hkick hk) hload hal)
  case retry =>
    intro i h s hp hpref hans tag
    have hr : Retries s i h := ⟨hp, hpref, hans⟩
    refine ⟨?op, ?ended, ?stream, ?kick, ?card⟩
    case op =>
      intro c o e htag hat hcopy hid hby
      refine ⟨_, rfl, ?_⟩
      rw [engineRetry_of_opTag hr htag hat, hcopy, Option.elim_some, exec_eq_opStep hby, hid]
    case ended =>
      intro c htag hagent hcopy
      have hgo := engineRetry_of_opTag hr htag (.inl hagent)
      rw [hcopy, Option.elim_none] at hgo
      exact congrArg Host.Outcome.next hgo
    case stream =>
      intro c x v st htag hx hv hv' hagent hst
      refine ⟨_, congrArg Host.Outcome.next (engineRetry_of_stream hr htag hx hv' hagent hst), ?_⟩
      split
      · exact exec_drain_stream hx hv hv'
      · rfl
    case kick => exact fun c n hlow hhigh hagent hfind => ⟨_, congrArg Host.Outcome.next (engineRetry_of_kick hr hlow hhigh hagent hfind), rfl⟩
    case card =>
      intro lvl u n r hagent hu htag hfind hn
      have hgo : exec (.engineAccessRetry i) s = .next (s.cardNext (lvlNo lvl) u n r) :=
        congrArg Host.Outcome.next (engineRetry_of_card hr hagent hu htag hfind hn)
      refine ⟨fun ha => ⟨_, hgo, cardNext_of_waiting ha⟩, ?_, fun ha hl hcoll => ⟨_, hgo, cardNext_of_split ha hl hcoll⟩,
        fun ha hl hcoll => ⟨_, hgo, cardNext_of_collective ha hl hcoll⟩⟩
      rintro ha rfl hlt
      exact ⟨_, hgo, cardNext_of_sequencer ha hlt⟩

end Sys2Proof.Machine
end

section
/-! A volume entry that the core holds, by its bits, and a voxel inside its bounds (O24, R246, R249, R250). -/
namespace Sys2Proof.Machine
open Sys2Proof.Manual

/-! ### Fields of a coordinate word and of an entry -/

/-- A field of a 64-bit word of a line as a piece of the line. -/
theorem fld_word64 (l : Line) (i : Nat) {hi lo : Nat} (h : hi < 64) :
    fld (word64 l i) hi lo = (l.extractLsb' (64 * i + lo) (hi + 1 - lo)).toNat := by
  rw [fld_eq_extractLsb', word64]
  refine congrArg BitVec.toNat (BitVec.eq_of_getLsbD_eq fun j hj => ?_)
  simp only [BitVec.getLsbD_extractLsb', hj, show lo + j < 64 by omega, decide_true, Bool.true_and, Nat.add_assoc]

theorem word64_eq_el (l : Line) (i : Nat) : word64 l i = el 64 l i := (el_eq_extractLsb' 64 l i).symm

theorem coordAt_eq_axis (w : Word) (i : Nat) : coordAt w i = axis w i := by
  have hw : 21 * i + 20 + 1 - 21 * i = 21 := by omega
  rw [coordAt, axis, fld_eq_extractLsb', hw, signedOf_toNat]

variable {e : Line} {c : Word}

theorem volExt_eq {i : Nat} (hi : i < 3) : volExt e i = (e.extractLsb' (128 + 21 * i) 21).toNat := by
  have hw : 21 * i + 20 + 1 - 21 * i = 21 := by omega
  rw [volExt, fld_word64 e 2 (by omega), hw]

theorem volEfmt_eq (e : Line) : volEfmt e = (e.extractLsb' 12 2).toNat := fld_word64 e 0 (by decide)

theorem volEs_eq_volBytes (e : Line) : volEs e = volBytes e := by
  rw [volEs, volEfmt_eq]
  rfl

theorem volC_eq_volChans (e : Line) : volC e = volChans e := congrArg (· + 1) (fld_word64 e 0 (by decide))

theorem volBg_eq_volBack (e : Line) : volBg e = volBack e := by
  rw [volBg, volBack, volEs_eq_volBytes, fld_word64 e 0 (by decide)]

/-- The two forms of the test of R250 agree. -/
theorem volIn_iff : volIn e c = true ↔ insideVol e c := by
  simp only [volIn, insideVol, upTo_eq_range, List.all_eq_true, List.mem_range, decide_eq_true_eq, volOff, coordAt_eq_axis, word64_eq_el]
  exact forall₂_congr fun i hi => by rw [volExt_eq hi]

theorem volIn_of_inside (h : insideVol e c) : volIn e c = true := volIn_iff.mpr h
theorem volIn_of_outside (h : ¬ insideVol e c) : volIn e c = false := Bool.eq_false_of_not_eq_true (mt volIn_iff.mp h)

/-! ### The background (R255, R256) -/

theorem volBytes_cases (e : Line) : volBytes e = 1 ∨ volBytes e = 2 ∨ volBytes e = 4 := by
  unfold volBytes
  split <;> simp

/-- CLD reads the background. -/
theorem voxelLine_background_one (e : Line) : voxelLine e 1 (List.replicate 1 (volBg e)) = (volBackG e).setWidth 512 := by
  rw [volBg_eq_volBack, volBackG, ← sextW_eq, ← volEfmt_eq]
  rfl

/-- CVLD reads the background in each element. -/
theorem el_voxelLine_background {j : Nat} (hj : j < 64 / volBytes e) :
    el (8 * volBytes e) (voxelLine e (64 / volBytes e) (List.replicate (64 / volBytes e) (volBg e))) j = BitVec.ofNat _ (volBack e) := by
  have hone : 64 / volBytes e ≠ 1 := by
    obtain h | h | h := volBytes_cases e <;> simp [h]
  have hn : 64 / volBytes e = 512 / (8 * volBytes e) := (Nat.mul_div_mul_left 64 (volBytes e) (by decide : 0 < 8)).symm
  have hlist : List.replicate (512 / (8 * volBytes e)) (volBack e) =
      ((upTo (512 / (8 * volBytes e))).map fun _ => (volBack e, (0 : BitVec 6))).map (·.1) := by
    simp [List.map_const']
  rw [voxelLine, if_neg hone, volEs_eq_volBytes, volBg_eq_volBack, hn, hlist]
  exact el_lineOf (fun _ => (volBack e, 0)) (hn ▸ hj)

end Sys2Proof.Machine
end

section
/-! The volume instructions on an entry that the core holds: the settlement of O24 (R246, R249, R250, R255 to R261). -/
namespace Sys2Proof.Machine
open Sys2Proof.Manual

section
variable {i : Instr} {s : State} {body : State → State} {tid : BitVec 8} {a b : GReg} {disp : BitVec 16} {e : Line} {d : Dest}

/-! ### The checks pass (R247, R249) -/

theorem withVol_of_heldVolume (k : Line → State → State) (he : heldVolume s tid = some e) : s.withVol tid k = k e s := by
  unfold heldVolume at he
  split at he
  next v hf =>
    rw [Option.ite_none_right_eq_some] at he
    obtain ⟨hok, hv⟩ := he
    cases hv
    rw [withVol_of_held k hf, if_pos hok]
  next => cases he

theorem withVoxel_of_heldVolume (k : Line → Word → State → State) (hc : Clear i s = true) (he : heldVolume s tid = some e)
    (h63 : (s.cx.regs.getG a).getLsbD 63 = false) : s.withVoxel tid a k = k e (s.cx.regs.getG a) s := by
  rw [State.withVoxel, withVol_of_heldVolume _ he, rd_of_clear hc]
  exact if_neg (ne_true_of_eq_false h63)

theorem channel_of_clear (hc : Clear i s = true) (b : GReg) (disp : BitVec 16) : s.channel b disp = channelOf s.cx.regs b disp := by
  rw [State.channel, rd_of_clear hc]
  rfl

/-! ### Long results: CLD, CVLD, CPROBE (R256, R257) -/

/-- A long result that the walker forms for a voxel inside the bounds, and the core itself for one outside. -/
theorem issue_volumeLong {c : Word} {op : ROp} {line : Line} (hc : Clear i s = true)
    (hb : body s = if volIn e c then s.long1 d .unit op else s.longValue (s.newPend d) line 0) :
    (insideVol e c → farLong s (issue i body s) d .unit op) ∧ (¬ insideVol e c → ownLong s (issue i body s) d line 0) := by
  constructor
  · intro hin
    rw [if_pos (volIn_of_inside hin)] at hb
    exact farLong_issue hc hb
  · intro hout
    rw [if_neg (by simp [volIn_of_outside hout])] at hb
    exact ownLong_issue hc hb

theorem voxelRead_of_heldVolume (n : Line → Nat) (hc : Clear i s = true) (he : heldVolume s tid = some e)
    (h63 : (s.cx.regs.getG a).getLsbD 63 = false) :
    s.voxelRead tid a b disp d n = if volIn e (s.cx.regs.getG a)
      then s.long1 d .unit (.walk 0 tid e (s.cx.regs.getG a) (channelOf s.cx.regs b disp) (n e) s.cx.sb false)
      else s.longValue (s.newPend d) (voxelLine e (n e) (List.replicate (n e) (volBg e))) 0 := by
  rw [State.voxelRead, withVoxel_of_heldVolume _ hc he h63, ← channel_of_clear hc]
  rfl

/-! ### Requests that park (R258 to R260) -/

/-- Parking and sending come to the same in either order. -/
theorem sendSync_walkReq (what : Nat) (c : Word) :
    s.sendSync d (s.walkReq what tid e c 0 0 0) false = asksWalker s what tid e c 0 (.got d false) := by
  rw [State.sendSync]
  exact sendReq_of_far (fun _ _ _ h => by cases h)

theorem issue_asksWalker {what : Nat} {c : Word} {ch : Int} {k : Cont} (hc : Clear i s = true) (hb : body s = asksWalker s what tid e c ch k) :
    issue i body s = asksWalker s what tid e c ch k :=
  issue_park hc hb rfl (by simp) (by simp)

/-- CST and CVST ask for the voxel's tile where the voxel and the channel exist. -/
theorem voxelWrite_of_inside (data : Line) (n : Line → Nat) (hc : Clear i s = true) (he : heldVolume s tid = some e)
    (h63 : (s.cx.regs.getG a).getLsbD 63 = false) (hin : insideVol e (s.cx.regs.getG a))
    (h0 : 0 ≤ channelOf s.cx.regs b disp) (hlt : channelOf s.cx.regs b disp < volChans e) :
    s.voxelWrite tid a b disp data n = asksWalker s 1 tid e (s.cx.regs.getG a) (channelOf s.cx.regs b disp)
      (.cst e (s.cx.regs.getG a) (channelOf s.cx.regs b disp) data (n e)) := by
  rw [State.voxelWrite, withVoxel_of_heldVolume _ hc he h63, channel_of_clear hc]
  exact if_neg (by simp [volIn_of_inside hin, volC_eq_volChans, h0, hlt])

theorem voxelWrite_of_outside (data : Line) (n : Line → Nat) (hc : Clear i s = true) (he : heldVolume s tid = some e)
    (h63 : (s.cx.regs.getG a).getLsbD 63 = false)
    (hout : ¬ (insideVol e (s.cx.regs.getG a) ∧ 0 ≤ channelOf s.cx.regs b disp ∧ channelOf s.cx.regs b disp < volChans e)) :
    s.voxelWrite tid a b disp data n = s.trap VOL_BOUNDS (s.cx.regs.getG a) := by
  rw [State.voxelWrite, withVoxel_of_heldVolume _ hc he h63, channel_of_clear hc]
  refine if_pos ?_
  by_contra hpass
  simp only [Bool.or_eq_true, Bool.not_eq_true', decide_eq_true_eq, not_or, Bool.not_eq_false, ge_iff_le, not_lt, not_le,
    volC_eq_volChans] at hpass
  obtain ⟨⟨hin, h0⟩, hlt⟩ := hpass
  exact hout ⟨volIn_iff.mp hin, h0, hlt⟩

/-- CST and CVST, by the body that they share. -/
theorem exec_voxelWrite {data : Line} {n : Nat} {m : Line → Nat} (hc : Clear i s = true) (hexec : exec i s = .next (issue i body s))
    (hb : body s = s.voxelWrite tid a b disp data m) (hm : m e = n) (he : heldVolume s tid = some e)
    (h63 : (s.cx.regs.getG a).getLsbD 63 = false) :
    let c := s.cx.regs.getG a
    let ch := channelOf s.cx.regs b disp
    (insideVol e c ∧ 0 ≤ ch ∧ ch < volChans e → exec i s = .next (asksWalker s 1 tid e c ch (.cst e c ch data n))) ∧
    (¬ (insideVol e c ∧ 0 ≤ ch ∧ ch < volChans e) → s.cx.hnd = false → s.cx.regs.trapvec ≠ 0 →
      ∃ t, exec i s = .next t ∧ traps s t VOL_BOUNDS c 0) := by
  subst hm
  refine ⟨fun ⟨hin, h0, hlt⟩ => hexec.trans (congrArg _ ?_), fun hout hh hv => ⟨_, hexec, ?_⟩⟩
  · exact issue_asksWalker hc (hb.trans (voxelWrite_of_inside data m hc he h63 hin h0 hlt))
  · exact issue_traps hc hh hv (hb.trans (voxelWrite_of_outside data m hc he h63 hout))

/-- CTILE.find and CTILE.detach ask for a tile inside the bounds, and give 0 outside. -/
theorem issue_tileQuery {g : GReg} {c : Word} {what : Nat} (hc : Clear i s = true)
    (hb : body s = if volIn e c then s.sendSync (.g g .d 0) (s.walkReq what tid e c 0 0 0) false else s.wrG g 0) :
    (insideVol e c → issue i body s = asksWalker s what tid e c 0 (.got (.g g .d 0) false)) ∧
    (¬ insideVol e c → issue i body s = (s.wrG g 0).pass) := by
  constructor
  · intro hin
    rw [if_pos (volIn_of_inside hin), sendSync_walkReq] at hb
    exact issue_asksWalker hc hb
  · intro hout
    rw [if_neg (by simp [volIn_of_outside hout])] at hb
    exact issue_wrG hc hb

/-- A push of a block whose pointer is sound. -/
theorem issue_pushBlock {what low : Nat} (hc : Clear i s = true) (hb : body s = s.pushBlock tid a what low)
    (he : heldVolume s tid = some e) (h57 : (s.cx.regs.getG a).getLsbD 57 = false) (hal : (s.cx.regs.getG a).toNat % 2 ^ (low + 1) = 0) :
    issue i body s = asksWalker s what tid e (s.cx.regs.getG a) 0 (.got .none false) := by
  refine issue_asksWalker hc (hb.trans ?_)
  rw [State.pushBlock, withVol_of_heldVolume _ he, rd_of_clear hc, ← sendSync_walkReq]
  exact if_neg (ne_true_of_eq_false (by rw [h57, fld_low, hal]; rfl))

/-! ### CCLR and CLBINV (R259, R261) -/

theorem doCclr_of_inside (hc : Clear i s = true) (he : heldVolume s tid = some e) (h63 : (s.cx.regs.getG a).getLsbD 63 = false)
    (hin : insideVol e (s.cx.regs.getG a)) :
    doCclr tid a s = asksWalker s 8 tid e (s.cx.regs.getG a) 0 (.cclr (s.walkReq 7 tid e (s.cx.regs.getG a) 0 0 0)) := by
  rw [doCclr, withVoxel_of_heldVolume _ hc he h63]
  exact if_neg (by simp [volIn_of_inside hin])

theorem doCclr_of_outside (hc : Clear i s = true) (he : heldVolume s tid = some e) (h63 : (s.cx.regs.getG a).getLsbD 63 = false)
    (hout : ¬ insideVol e (s.cx.regs.getG a)) : doCclr tid a s = s := by
  rw [doCclr, withVoxel_of_heldVolume _ hc he h63]
  exact if_pos (by simp [volIn_of_outside hout])

/-- CLBINV tells every core of the launch. -/
theorem doClbinv_of_heldVolume (he : heldVolume s tid = some e) :
    doClbinv tid s = if (s.coresOf s.cx.launch).isEmpty then s.longValue (s.newPend .none) 0 0
      else (s.addPend { s.newPend .none with left := (s.coresOf s.cx.launch).length }).sendAll
        ((s.coresOf s.cx.launch).map fun c => .clbinv c s.whoMe s.cx.nextTag s.cx.launch.toNat tid false) :=
  withVol_of_heldVolume _ he

end

/-- Settles O24: on an entry that the core holds every check passes, and the test of R250 decides between the walker and the answer of
the core itself. -/
theorem volumes : Obligations.Volumes := by
  unfold Obligations.Volumes
  refine ⟨?cld, ?cvld, ?store, ?cprobe, ?cclr, ?find, ?detach, ?ptile, ?pnode, ?clbinv⟩
  case cld =>
    intro h tid d a b disp e s hc he c h63
    refine ⟨_, rfl, issue_volumeLong hc ?_⟩
    rw [doCld, voxelRead_of_heldVolume _ hc he h63, voxelLine_background_one]
  case cvld =>
    intro h tid d a b disp e s hc he c n h63
    have hb : doCvld tid d a b disp s = _ :=
      voxelRead_of_heldVolume (d := .v d (BitVec.allOnes 64)) (fun e => 64 / volEs e) hc he h63
    obtain ⟨hin, hout⟩ := issue_volumeLong hc hb
    rw [volEs_eq_volBytes] at hin hout
    exact ⟨_, rfl, hin, fun ho => ⟨_, fun j hj => el_voxelLine_background hj, hout ho⟩⟩
  case store =>
    intro i s tid a b disp e data n hi hc he c ch h63
    obtain ⟨h, d, rfl, rfl, rfl⟩ | ⟨h, d, rfl, rfl, rfl⟩ := hi
    · exact exec_voxelWrite (body := doCst tid d a b disp) (m := fun _ => 1) hc rfl (by rw [doCst, rd_of_clear hc]) rfl he h63
    · exact exec_voxelWrite (body := doCvst tid d a b disp) (m := fun e => 64 / volEs e) hc rfl (by rw [doCvst, rd_of_clear hc])
        (by rw [volEs_eq_volBytes]) he h63
  case cprobe =>
    intro h tid d a e s hc he c h63
    exact ⟨_, rfl, issue_volumeLong hc (withVoxel_of_heldVolume _ hc he h63)⟩
  case cclr =>
    intro h tid a e s hc he c h63
    refine ⟨fun hout => congrArg Host.Outcome.next ?_, fun hin => congrArg Host.Outcome.next ?_⟩
    · exact issue_pass hc (doCclr_of_outside hc he h63 hout) rfl rfl rfl rfl rfl
    · exact issue_asksWalker hc (doCclr_of_inside hc he h63 hin)
  case find =>
    intro h tid d a e s hc he c h63
    obtain ⟨hin, hout⟩ := issue_tileQuery (body := doCtileFind tid d a) hc (withVoxel_of_heldVolume _ hc he h63)
    exact ⟨fun h => congrArg _ (hin h), fun h => congrArg _ (hout h)⟩
  case detach =>
    intro h tid d a e s hc he c h63
    obtain ⟨hin, hout⟩ := issue_tileQuery (body := doCtileDetach tid d a) hc (withVoxel_of_heldVolume _ hc he h63)
    exact ⟨fun h => congrArg _ (hin h), fun h => congrArg _ (hout h)⟩
  case ptile => exact fun h tid a e s hc he h57 hal => congrArg _ (issue_pushBlock (body := doCtilePtile tid a) hc rfl he h57 hal)
  case pnode => exact fun h tid a e s hc he h57 hal => congrArg _ (issue_pushBlock (body := doCtilePnode tid a) hc rfl he h57 hal)
  case clbinv =>
    intro h tid e s hc he cs
    have hb := doClbinv_of_heldVolume he
    refine congrArg Host.Outcome.next ?_
    split
    next hnone =>
      rw [longValue_kept s rfl]
      exact issue_pass hc ((hb.trans (if_pos hnone)).trans (longValue_kept s rfl ..)) rfl (by simp) (by simp) (by simp) (by simp)
    next hsome => exact issue_pass hc (hb.trans (if_neg hsome)) (State.took_sendAll ..) (by simp) (by simp) (by simp) (by simp)

end Sys2Proof.Machine
end

section
/-! SUPPORT. The canonical form of the byte stores: what it is for a state, for a core and for what a step's parts answer, and the rules
of the operations on the parts of the state. -/
namespace Sys2Proof.Machine
open Host (Cell)

/-- The two invariants of StepKeepsMemory and StepKeepsPools, which every part of a step keeps by one and the same argument. -/
inductive Stores | memory | pools

/-- The canonical form of a core's pool and operand memory. -/
def CoreCells : Stores → List Cell → List Cell → Prop
  | .memory, _, _ => True
  | .pools, pool, opmem => cellsOk pool = true ∧ cellsOk opmem = true

/-- The canonical form of physical memory, or of the pools, their saved copies and the peers' memory. -/
def StateCells : Stores → List Cell → Tab Core → Option Checkpt → Tab Core → Tab (List Cell) → Prop
  | .memory, bytes, _, _, _, _ => cellsOk bytes = true
  | .pools, _, cores, saved, points, peers =>
    poolsWf cores = true ∧ (∀ c, saved = some c → poolsWf c.cores = true) ∧ poolsWf points = true ∧ (peers.all fun q => cellsOk q.2) = true

def Core.Canon (σ : Stores) (k : Core) : Prop := CoreCells σ k.pool k.opmem
def State.Canon (σ : Stores) (s : State) : Prop := StateCells σ s.mem.bytes s.cores s.rel.saved s.rel.points s.fabric.peerMem

/-- The state after a request at a home, where there is one. -/
def Served.Canon (σ : Stores) : Served → Prop
  | .done _ s | .fail _ s | .hold s => s.Canon σ
  | .wait => True

theorem canon_memory {s : State} : s.Canon .memory ↔ s.mem.wf = true := Iff.rfl

theorem canon_pools {s : State} : s.Canon .pools ↔ s.poolsOk = true := by
  unfold State.poolsOk
  cases hs : s.rel.saved <;> simp [State.Canon, StateCells, hs, and_assoc]

variable {σ : Stores} {s t : State} {k : Core}

/-! ### Results that carry a state -/

theorem canon_snd {α : Type} {x : α × State} {a : α} (e : x = (a, t)) (h : x.2.Canon σ) : t.Canon σ := by subst e; exact h
theorem canon_done {r : Served} {l : Line} (e : r = .done l t) (h : r.Canon σ) : t.Canon σ := by subst e; exact h
theorem canon_fail {r : Served} {f : RFault} (e : r = .fail f t) (h : r.Canon σ) : t.Canon σ := by subst e; exact h
theorem canon_hold {r : Served} (e : r = .hold t) (h : r.Canon σ) : t.Canon σ := by subst e; exact h

theorem canon_ite {c : Prop} [Decidable c] (hs : s.Canon σ) (ht : t.Canon σ) : (if c then s else t).Canon σ := by split <;> assumption

theorem canonCore_ite {c : Prop} [Decidable c] {k j : Core} (hk : k.Canon σ) (hj : j.Canon σ) : (if c then k else j).Canon σ := by split <;>
    assumption

theorem canon_foldl {α : Type} {f : State → α → State} {l : List α} (h : s.Canon σ) (hf : ∀ t a, t.Canon σ → (f t a).Canon σ) :
    (l.foldl f s).Canon σ := foldl_keeps (p := (·.Canon σ)) hf l s h

theorem canonCore_foldl {α : Type} {f : Core → α → Core} {l : List α} (h : k.Canon σ) (hf : ∀ k a, k.Canon σ → (f k a).Canon σ) :
    (l.foldl f k).Canon σ := foldl_keeps (p := (·.Canon σ)) hf l k h

/-- The context that a step acts on is no store. -/
theorem canon_acting {m : Nat × Nat} {k : Option Taken} (h : s.Canon σ) : ({ s with me := m, took := k } : State).Canon σ := h

theorem canon_fresh {n : Nat} (h : s.Canon σ) : ({ s with fresh := n } : State).Canon σ := h

/-! ### Cores -/

theorem canonCore_of_memWf : k.memWf = true ↔ k.Canon .pools := memWf_parts

theorem canonCore_reset : Core.reset.Canon σ := by cases σ <;> trivial

theorem canonCore_tget {l : Tab Core} {c : Nat} (h : poolsWf l = true) (e : tget l c = some k) : k.memWf = true := by
  induction l with
  | nil => simp [tget] at e
  | cons q l ih =>
    simp only [poolsWf, List.all_cons, Bool.and_eq_true] at h
    simp only [tget] at e
    split at e
    · cases e; exact h.1
    · exact ih h.2 e

theorem canon_core {c : Nat} (h : s.Canon σ) : (s.core c).Canon σ := by
  cases σ with
  | memory => trivial
  | pools =>
    unfold State.core tgetD
    cases e : tget s.cores c with
    | none => exact canonCore_reset
    | some k => exact canonCore_of_memWf.mp (canonCore_tget h.1 e)

theorem canon_setCore {c : Nat} (h : s.Canon σ) (hk : k.Canon σ) : (s.setCore c k).Canon σ := by
  cases σ with
  | memory => exact h
  | pools => exact ⟨all_tset h.1 (canonCore_of_memWf.mpr hk), h.2⟩

theorem canon_onCore {c : Nat} {f : Core → Core} (h : s.Canon σ) (hf : ∀ k : Core, k.Canon σ → (f k).Canon σ) : (s.onCore c f).Canon σ :=
  canon_setCore h (hf _ (canon_core h))

theorem canon_onCore_same {c : Nat} {f : Core → Core} (h : s.Canon σ) (h1 : ∀ k, (f k).pool = k.pool) (h2 : ∀ k, (f k).opmem = k.opmem) :
    (s.onCore c f).Canon σ := canon_onCore h fun k hk => by rw [Core.Canon, h1, h2]; exact hk

theorem canon_onMine {f : Core → Core} (h : s.Canon σ) (hf : ∀ k : Core, k.Canon σ → (f k).Canon σ) : (s.onMine f).Canon σ :=
  canon_onCore h hf

theorem canon_onMine_same {f : Core → Core} (h : s.Canon σ) (h1 : ∀ k, (f k).pool = k.pool) (h2 : ∀ k, (f k).opmem = k.opmem) :
    (s.onMine f).Canon σ := canon_onCore_same h h1 h2


/-! ### The byte stores written -/

theorem canon_bytes {bytes : List Cell} (h : s.Canon σ) (hb : cellsOk s.mem.bytes = true → cellsOk bytes = true) :
    StateCells σ bytes s.cores s.rel.saved s.rel.points s.fabric.peerMem := by
  cases σ with
  | memory => exact hb h
  | pools => exact h

theorem canon_cores {cores : Tab Core} (h : s.Canon σ) (hc : σ = .pools → poolsWf s.cores = true → poolsWf cores = true) :
    StateCells σ s.mem.bytes cores s.rel.saved s.rel.points s.fabric.peerMem := by
  cases σ with
  | memory => exact h
  | pools => exact ⟨hc rfl h.1, h.2⟩

theorem canon_points {points : Tab Core} (h : s.Canon σ) (hc : σ = .pools → poolsWf s.rel.points = true → poolsWf points = true) :
    StateCells σ s.mem.bytes s.cores s.rel.saved points s.fabric.peerMem := by
  cases σ with
  | memory => exact h
  | pools =>
    obtain ⟨h1, h2, h3, h4⟩ := h
    exact ⟨h1, h2, hc rfl h3, h4⟩

theorem canonCore_pool {pool : List Cell} (h : k.Canon σ) (hb : cellsOk k.pool = true → cellsOk pool = true) : CoreCells σ pool k.opmem := by
  cases σ with
  | memory => trivial
  | pools => exact ⟨hb h.1, h.2⟩

theorem canonCore_opmem {opmem : List Cell} (h : k.Canon σ) (hb : cellsOk k.opmem = true → cellsOk opmem = true) : CoreCells σ k.pool opmem := by
  cases σ with
  | memory => trivial
  | pools => exact ⟨h.1, hb h.2⟩

theorem cellsOk_peer {l : Tab (List Cell)} (h : (l.all fun q => cellsOk q.2) = true) (n : Nat) : cellsOk (tgetD l n []) = true := by
  induction l with
  | nil => rfl
  | cons q l ih =>
    simp only [List.all_cons, Bool.and_eq_true] at h
    by_cases e : n = q.1
    · simpa [tgetD, tget, e] using h.1
    · simpa [tgetD, tget, e] using ih h.2

theorem canon_peerMem {n : Nat} {m : List Cell} (h : s.Canon σ)
    (hm : cellsOk (tgetD s.fabric.peerMem n []) = true → cellsOk m = true) :
    StateCells σ s.mem.bytes s.cores s.rel.saved s.rel.points (tset s.fabric.peerMem n m) := by
  cases σ with
  | memory => exact h
  | pools =>
    obtain ⟨h1, h2, h3, h4⟩ := h
    exact ⟨h1, h2, h3, all_tset h4 (hm (cellsOk_peer h4 n))⟩

theorem canon_writePhys {tenant pa data mask} (h : s.Canon σ) : (s.writePhys tenant pa data mask).Canon σ := by
  unfold State.writePhys
  dsimp only
  split
  · exact canon_bytes (s := s) h (cellsOk_wrMasked · _ _ _ _)
  · exact canon_bytes (s := s.used) h (cellsOk_wrMasked · _ _ _ _)

theorem canon_ringWrite {key l} (h : s.Canon σ) : (s.ringWrite key l).Canon σ := by
  unfold State.ringWrite
  dsimp only
  split
  · exact h
  · exact canon_bytes (s := s) h (cellsOk_wrBytes · _ _)

theorem canon_seriesWrite {die l} (h : s.Canon σ) : (s.seriesWrite die l).Canon σ := by
  unfold State.seriesWrite
  dsimp only
  split
  · exact h
  · exact canon_bytes (s := s) h (cellsOk_wrBytes · _ _)

theorem canon_mcheck {m inc} (h : s.Canon σ) : (s.mcheck m inc).Canon σ := by
  unfold State.mcheck State.tell
  dsimp only
  split
  · exact h
  · split
    · exact h
    · exact canon_bytes (s := s) h (cellsOk_wrBytes · _ _)

theorem canonCore_poolWrite {line data mask} (h : k.Canon σ) : (k.poolWrite line data mask).Canon σ := by
  unfold Core.poolWrite Core.heal
  split <;> exact canonCore_pool (k := k) h (cellsOk_wrMasked · _ _ _ _)

theorem canonCore_opPut {at' d} (h : k.Canon σ) : (k.opPut at' d).Canon σ := canonCore_opmem (k := k) h (cellsOk_wrMasked · _ _ _ _)

theorem canonCore_accPut {i l} (h : k.Canon σ) : (k.accPut i l).Canon σ :=
  canonCore_pool (k := k) h fun hb => foldl_keeps (p := fun m => cellsOk m = true) (fun _ _ hm => cellsOk_wrN hm _ _ _) _ _ hb

theorem canonCore_accMat {t m} (h : k.Canon σ) : (k.accMat t m).Canon σ := by
  refine canonCore_foldl h fun k q hk => ?_
  exact canonCore_pool (k := k) hk fun hb => foldl_keeps (p := fun m => cellsOk m = true) (fun _ _ hm => cellsOk_wrN hm _ _ _) _ _ hb

theorem canon_setPeerCells {n m} (h : s.Canon σ) (hm : cellsOk (tgetD s.fabric.peerMem n []) = true → cellsOk m = true) :
    (s.setPeerCells n m).Canon σ := canon_peerMem (s := s) h hm

theorem canon_replayPoint {c} (h : s.Canon σ) : (s.replayPoint c).Canon σ := by
  refine canon_points (s := s) h fun hp hw => ?_
  subst hp
  exact all_tset hw (canonCore_of_memWf.mpr (canon_core h))

end Sys2Proof.Machine
end

section
/-! SUPPORT. Canonical form: the operations of the state and of a core, and what the instructions do that touch no byte store. -/
namespace Sys2Proof.Machine
variable {σ : Stores} {s t : State} {k : Core}

theorem canon_doNop (hs : s.Canon σ) : (doNop s).Canon σ :=
  hs

theorem canonCore_setCtx {x c} (hk : k.Canon σ) : (k.setCtx x c).Canon σ :=
  hk

theorem canon_setCtx {c x t} (hs : s.Canon σ) : (s.setCtx c x t).Canon σ :=
  canon_onCore_same hs (fun _ => rfl) (fun _ => rfl)

theorem canon_onCtx {c x f} (hs : s.Canon σ) : (s.onCtx c x f).Canon σ :=
  canon_setCtx hs

theorem canon_onCx {f} (hs : s.Canon σ) : (s.onCx f).Canon σ :=
  canon_onCtx hs

theorem canon_onRegs {f} (hs : s.Canon σ) : (s.onRegs f).Canon σ :=
  canon_onCx hs

theorem canon_wrG {d v} (hs : s.Canon σ) : (s.wrG d v).Canon σ :=
  canon_onRegs hs

theorem canon_doMfs {d r} (hs : s.Canon σ) : (doMfs d r s).Canon σ :=
  canon_wrG hs

theorem canon_doMts {r a} (hs : s.Canon σ) : (doMts r a s).Canon σ :=
  canon_onRegs hs

theorem canon_alu {wd f d x y} (hs : s.Canon σ) : (s.alu wd f d x y).Canon σ :=
  canon_wrG hs

theorem canon_doAdd {wd d a b} (hs : s.Canon σ) : (doAdd wd d a b s).Canon σ :=
  canon_alu hs

theorem canon_doAddImm {wd d a imm} (hs : s.Canon σ) : (doAddImm wd d a imm s).Canon σ :=
  canon_alu hs

theorem canon_doSub {wd d a b} (hs : s.Canon σ) : (doSub wd d a b s).Canon σ :=
  canon_alu hs

theorem canon_doSubImm {wd d a imm} (hs : s.Canon σ) : (doSubImm wd d a imm s).Canon σ :=
  canon_alu hs

theorem canon_doMul {wd d a b} (hs : s.Canon σ) : (doMul wd d a b s).Canon σ :=
  canon_alu hs

theorem canon_doMulImm {wd d a imm} (hs : s.Canon σ) : (doMulImm wd d a imm s).Canon σ :=
  canon_alu hs

theorem canon_doMulh {wd d a b} (hs : s.Canon σ) : (doMulh wd d a b s).Canon σ :=
  canon_alu hs

theorem canon_doMulhImm {wd d a imm} (hs : s.Canon σ) : (doMulhImm wd d a imm s).Canon σ :=
  canon_alu hs

theorem canon_doMulhu {wd d a b} (hs : s.Canon σ) : (doMulhu wd d a b s).Canon σ :=
  canon_alu hs

theorem canon_doMulhuImm {wd d a imm} (hs : s.Canon σ) : (doMulhuImm wd d a imm s).Canon σ :=
  canon_alu hs

theorem canon_answerNow {tag data flags} (hs : s.Canon σ) : (s.answerNow tag data flags).Canon σ :=
  canon_onCx hs

theorem canon_addPend {p} (hs : s.Canon σ) : (s.addPend p).Canon σ :=
  canon_onCx hs

theorem canon_longValue {p data flags} (hs : s.Canon σ) : (s.longValue p data flags).Canon σ := by
  unfold State.longValue
  exact canon_ite (canon_onCx hs) (canon_answerNow (canon_addPend hs))

theorem canon_aluLong {wd f d x y} (hs : s.Canon σ) : (s.aluLong wd f d x y).Canon σ :=
  canon_longValue hs

theorem canon_doDiv {wd d a b} (hs : s.Canon σ) : (doDiv wd d a b s).Canon σ :=
  canon_aluLong hs

theorem canon_doDivImm {wd d a imm} (hs : s.Canon σ) : (doDivImm wd d a imm s).Canon σ :=
  canon_aluLong hs

theorem canon_doDivu {wd d a b} (hs : s.Canon σ) : (doDivu wd d a b s).Canon σ :=
  canon_aluLong hs

theorem canon_doDivuImm {wd d a imm} (hs : s.Canon σ) : (doDivuImm wd d a imm s).Canon σ :=
  canon_aluLong hs

theorem canon_doRem {wd d a b} (hs : s.Canon σ) : (doRem wd d a b s).Canon σ :=
  canon_aluLong hs

theorem canon_doRemImm {wd d a imm} (hs : s.Canon σ) : (doRemImm wd d a imm s).Canon σ :=
  canon_aluLong hs

theorem canon_doRemu {wd d a b} (hs : s.Canon σ) : (doRemu wd d a b s).Canon σ :=
  canon_aluLong hs

theorem canon_doRemuImm {wd d a imm} (hs : s.Canon σ) : (doRemuImm wd d a imm s).Canon σ :=
  canon_aluLong hs

theorem canon_doAndd {wd d a b} (hs : s.Canon σ) : (doAndd wd d a b s).Canon σ :=
  canon_alu hs

theorem canon_doAndImm {wd d a imm} (hs : s.Canon σ) : (doAndImm wd d a imm s).Canon σ :=
  canon_alu hs

theorem canon_doOrr {wd d a b} (hs : s.Canon σ) : (doOrr wd d a b s).Canon σ :=
  canon_alu hs

theorem canon_doOrImm {wd d a imm} (hs : s.Canon σ) : (doOrImm wd d a imm s).Canon σ :=
  canon_alu hs

theorem canon_doXor {wd d a b} (hs : s.Canon σ) : (doXor wd d a b s).Canon σ :=
  canon_alu hs

theorem canon_doXorImm {wd d a imm} (hs : s.Canon σ) : (doXorImm wd d a imm s).Canon σ :=
  canon_alu hs

theorem canon_doAndn {wd d a b} (hs : s.Canon σ) : (doAndn wd d a b s).Canon σ :=
  canon_alu hs

theorem canon_doAndnImm {wd d a imm} (hs : s.Canon σ) : (doAndnImm wd d a imm s).Canon σ :=
  canon_alu hs

theorem canon_doShl {wd d a b} (hs : s.Canon σ) : (doShl wd d a b s).Canon σ :=
  canon_alu hs

theorem canon_doShlImm {wd d a imm} (hs : s.Canon σ) : (doShlImm wd d a imm s).Canon σ :=
  canon_alu hs

theorem canon_doShr {wd d a b} (hs : s.Canon σ) : (doShr wd d a b s).Canon σ :=
  canon_alu hs

theorem canon_doShrImm {wd d a imm} (hs : s.Canon σ) : (doShrImm wd d a imm s).Canon σ :=
  canon_alu hs

theorem canon_doSra {wd d a b} (hs : s.Canon σ) : (doSra wd d a b s).Canon σ :=
  canon_alu hs

theorem canon_doSraImm {wd d a imm} (hs : s.Canon σ) : (doSraImm wd d a imm s).Canon σ :=
  canon_alu hs

theorem canon_doRol {wd d a b} (hs : s.Canon σ) : (doRol wd d a b s).Canon σ :=
  canon_alu hs

theorem canon_doRolImm {wd d a imm} (hs : s.Canon σ) : (doRolImm wd d a imm s).Canon σ :=
  canon_alu hs

theorem canon_doMin {wd d a b} (hs : s.Canon σ) : (doMin wd d a b s).Canon σ :=
  canon_alu hs

theorem canon_doMinImm {wd d a imm} (hs : s.Canon σ) : (doMinImm wd d a imm s).Canon σ :=
  canon_alu hs

theorem canon_doMax {wd d a b} (hs : s.Canon σ) : (doMax wd d a b s).Canon σ :=
  canon_alu hs

theorem canon_doMaxImm {wd d a imm} (hs : s.Canon σ) : (doMaxImm wd d a imm s).Canon σ :=
  canon_alu hs

theorem canon_doMinu {wd d a b} (hs : s.Canon σ) : (doMinu wd d a b s).Canon σ :=
  canon_alu hs

theorem canon_doMinuImm {wd d a imm} (hs : s.Canon σ) : (doMinuImm wd d a imm s).Canon σ :=
  canon_alu hs

theorem canon_doMaxu {wd d a b} (hs : s.Canon σ) : (doMaxu wd d a b s).Canon σ :=
  canon_alu hs

theorem canon_doMaxuImm {wd d a imm} (hs : s.Canon σ) : (doMaxuImm wd d a imm s).Canon σ :=
  canon_alu hs

theorem canon_wrP {d v} (hs : s.Canon σ) : (s.wrP d v).Canon σ :=
  canon_onRegs hs

theorem canon_compare {wd c d x y} (hs : s.Canon σ) : (s.compare wd c d x y).Canon σ :=
  canon_wrP hs

theorem canon_doSetp {wd c d a b} (hs : s.Canon σ) : (doSetp wd c d a b s).Canon σ :=
  canon_compare hs

theorem canon_doSetpImm {wd c d a imm} (hs : s.Canon σ) : (doSetpImm wd c d a imm s).Canon σ :=
  canon_compare hs

theorem canon_doSel {wd d a b c} (hs : s.Canon σ) : (doSel wd d a b c s).Canon σ :=
  canon_wrG hs

theorem canon_doClz {wd d a} (hs : s.Canon σ) : (doClz wd d a s).Canon σ :=
  canon_alu hs

theorem canon_doCtz {wd d a} (hs : s.Canon σ) : (doCtz wd d a s).Canon σ :=
  canon_alu hs

theorem canon_doPopc {wd d a} (hs : s.Canon σ) : (doPopc wd d a s).Canon σ :=
  canon_alu hs

theorem canon_doBrev {wd d a} (hs : s.Canon σ) : (doBrev wd d a s).Canon σ :=
  canon_alu hs

theorem canon_doBfx {wd sx d a b c} (hs : s.Canon σ) : (doBfx wd sx d a b c s).Canon σ :=
  canon_alu hs

theorem canon_doBfxImm {wd sx d a pos len} (hs : s.Canon σ) : (doBfxImm wd sx d a pos len s).Canon σ :=
  canon_alu hs

theorem canon_doBfi {wd d a b c} (hs : s.Canon σ) : (doBfi wd d a b c s).Canon σ :=
  canon_alu hs

theorem canon_doBfiImm {wd d a pos len} (hs : s.Canon σ) : (doBfiImm wd d a pos len s).Canon σ :=
  canon_alu hs

theorem canon_doMov {f} (hs : s.Canon σ) : (doMov f s).Canon σ := by
  unfold doMov
  split
  exacts [canon_wrG hs, canon_wrP hs, canon_wrG hs, canon_wrP hs]

theorem canon_doPlog {tt d a b} (hs : s.Canon σ) : (doPlog tt d a b s).Canon σ :=
  canon_wrP hs

theorem canon_doLi {wd d imm} (hs : s.Canon σ) : (doLi wd d imm s).Canon σ :=
  canon_wrG hs

theorem canon_doLiHi {d imm} (hs : s.Canon σ) : (doLiHi d imm s).Canon σ :=
  canon_wrG hs

theorem canon_doLea {d a imm} (hs : s.Canon σ) : (doLea d a imm s).Canon σ :=
  canon_wrG hs

theorem canon_doMkptr {d a b} (hs : s.Canon σ) : (doMkptr d a b s).Canon σ :=
  canon_wrG hs

theorem canon_doGetband {d a} (hs : s.Canon σ) : (doGetband d a s).Canon σ :=
  canon_wrG hs

theorem canon_doCaddr {d a b c} (hs : s.Canon σ) : (doCaddr d a b c s).Canon σ :=
  canon_wrG hs

theorem canon_logPort {core a addr kind} (hs : s.Canon σ) : (s.logPort core a addr kind).Canon σ := by
  unfold State.logPort
  exact canon_ite hs (canon_setCore hs (canon_core hs))

theorem canon_consumePoison {a} (hs : s.Canon σ) : (s.consumePoison a).Canon σ := by
  unfold State.consumePoison
  split
  exacts [hs, canon_ite hs hs]

theorem canon_startStop {scope core edge extra} (hs : s.Canon σ) : (s.startStop scope core edge extra).Canon σ := by
  unfold State.startStop
  exact canon_ite hs hs

theorem canon_traceBy {die a typ tag data} (hs : s.Canon σ) : (s.traceBy die a typ tag data).Canon σ :=
  canon_ringWrite hs

theorem canon_send {b} (hs : s.Canon σ) : (s.send b).Canon σ :=
  hs

theorem canon_reply {r data flags fault} (hs : s.Canon σ) : (s.reply r data flags fault).Canon σ := by
  unfold State.reply
  split
  exacts [hs, canon_send hs]

theorem canon_dropCapture {core x} (hs : s.Canon σ) : (s.dropCapture core x).Canon σ :=
  canon_onCore_same (canon_onCtx hs) (fun _ => rfl) (fun _ => rfl)

theorem canon_sendAll {l} (hs : s.Canon σ) : (s.sendAll l).Canon σ := by
  unfold State.sendAll
  exact canon_foldl hs (fun _ _ h => (canon_send h))

theorem canonCore_onResident {l f} (hk : k.Canon σ) : (k.onResident l f).Canon σ :=
  hk

theorem canonCore_addCopy {core a op e} (hk : k.Canon σ) : (k.addCopy core a op e).Canon σ :=
  hk

theorem canon_freeSlot {core i} (hs : s.Canon σ) : (s.freeSlot core i).Canon σ :=
  canon_onCore_same hs (fun _ => rfl) (fun _ => rfl)

theorem canon_freeSlotsOf {w} (hs : s.Canon σ) : (s.freeSlotsOf w).Canon σ := by
  unfold State.freeSlotsOf
  exact canon_foldl hs (fun _ _ h => (canon_ite (canon_freeSlot h) h))

theorem canon_onSched {f} (hs : s.Canon σ) : (s.onSched f).Canon σ :=
  hs

theorem canon_onLaunch {l f} (hs : s.Canon σ) : (s.onLaunch l f).Canon σ := by
  unfold State.onLaunch
  split
  exacts [hs, canon_onSched hs]

theorem canon_sendMerge {core e ask} (hs : s.Canon σ) : (s.sendMerge core e ask).Canon σ := by
  unfold State.sendMerge
  exact canon_ite hs (canon_send (canon_onCore_same hs (fun _ => rfl) (fun _ => rfl)))

theorem canon_mergeWhere {core p ask} (hs : s.Canon σ) : (s.mergeWhere core p ask).1.Canon σ := by
  unfold State.mergeWhere
  exact canon_onCore_same (canon_foldl hs (fun _ _ h => (canon_sendMerge h))) (fun _ => rfl) (fun _ => rfl)

theorem canon_endThread {core x word} (hs : s.Canon σ) : (s.endThread core x word).Canon σ := by
  unfold State.endThread
  dsimp only
  split
  · exact canon_mergeWhere (canon_onCore_same (canon_onLaunch (canon_freeSlotsOf (canon_onCore (canon_sendAll hs) fun _ hk =>
      canonCore_foldl (k := Core.onResident _ _ _) (canonCore_onResident (canonCore_setCtx hk)) fun _ _ hj => canonCore_addCopy hj))) (fun _ => rfl)
          fun _ => rfl)
  · exact canon_onLaunch (canon_freeSlotsOf (canon_onCore (canon_sendAll hs) fun _ hk =>
      canonCore_foldl (k := Core.onResident _ _ _) (canonCore_onResident (canonCore_setCtx hk)) fun _ _ hj => canonCore_addCopy hj))

theorem canon_deliver {core x t} (hs : s.Canon σ) : (s.deliver core x t).Canon σ := by
  unfold State.deliver
  exact canon_ite (canon_endThread (canon_ite (canon_dropCapture hs) hs)) (canon_setCtx (canon_ite (canon_dropCapture hs) hs))

theorem canon_trapInfo {cause addr info} (hs : s.Canon σ) : (s.trapInfo cause addr info).Canon σ := by
  unfold State.trapInfo
  exact canon_ite (canon_deliver hs) hs

theorem canon_trap {cause addr sub} (hs : s.Canon σ) : (s.trap cause addr sub).Canon σ :=
  canon_trapInfo hs

theorem canon_used (hs : s.Canon σ) : (s.used).Canon σ :=
  hs

theorem canon_readPhys {tenant pa} (hs : s.Canon σ) : (s.readPhys tenant pa).2.Canon σ := by
  unfold State.readPhys
  dsimp only
  split
  exacts [hs, canon_used hs]

theorem canon_onStop {n f} (hs : s.Canon σ) : (s.onStop n f).Canon σ :=
  hs

theorem canon_tell {o} (hs : s.Canon σ) : (s.tell o).Canon σ :=
  hs

theorem canon_undoLog {pa} (hs : s.Canon σ) : (s.undoLog pa).Canon σ := by
  unfold State.undoLog
  exact canon_ite hs (canon_ite (canon_tell (canon_onStop hs)) (canon_onStop hs))

theorem canon_putLine {tenant pa data mask} (hs : s.Canon σ) : (s.putLine tenant pa data mask).Canon σ := by
  unfold State.putLine
  exact canon_ite hs (canon_writePhys (canon_undoLog hs))

theorem canon_logStop {n a va mb kind} (hs : s.Canon σ) : (s.logStop n a va mb kind).Canon σ :=
  canon_onStop hs

theorem canon_readXl {tenant x} (hs : s.Canon σ) : (s.readXl tenant x).2.Canon σ := by
  unfold State.readXl
  split
  exacts [canon_readPhys hs, hs]

theorem canon_savePaged {core x pages} (hs : s.Canon σ) : (s.savePaged core x pages).Canon σ := by
  unfold State.savePaged
  exact canon_ite (canon_onCtx hs) (canon_onCore_same (canon_sendAll (canon_foldl hs (fun _ _ h => (canon_tell h)))) (fun _ => rfl) (fun _ => rfl))

theorem canon_fetchAbsent {core x pc} (hs : s.Canon σ) : (s.fetchAbsent core x pc).Canon σ :=
  canon_savePaged hs

theorem canon_parityStop {core x pc} (hs : s.Canon σ) : (s.parityStop core x pc).Canon σ :=
  canon_mcheck (canon_onCtx hs)

theorem canonCore_mismatch {n} (hk : k.Canon σ) : (k.mismatch n).Canon σ :=
  hk

theorem canon_xAlloc {core launch slot held answer} (hs : s.Canon σ) : (s.xAlloc core launch slot held answer).Canon σ := by
  unfold State.xAlloc
  dsimp only
  refine canon_send ?_
  refine canon_onCore_same ?_ (fun _ => rfl) (fun _ => rfl)
  split
  exacts [canon_sendMerge hs, hs]

theorem canon_xTake {core part launch slot h} (hs : s.Canon σ) : (s.xTake core part launch slot h).Canon σ := by
  unfold State.xTake
  split
  · exact hs
  · split
    · exact canon_onCore_same hs (fun _ => rfl) (fun _ => rfl)
    · split
      exacts [canon_onCore hs (fun _ h1 => (canonCore_ite (canonCore_mismatch h1) h1)), canon_xAlloc hs]

theorem canon_xReport {core part launch slot h} (hs : s.Canon σ) : (s.xReport core part launch slot h).Canon σ := by
  unfold State.xReport
  exact canon_ite (canon_xTake hs) (canon_xTake hs)

theorem canon_reportBr {x taken} (hs : s.Canon σ) : (s.reportBr x taken).Canon σ := by
  unfold State.reportBr
  exact canon_ite hs (canon_xReport hs)

theorem canon_traceCtx {c x typ tag data} (hs : s.Canon σ) : (s.traceCtx c x typ tag data).Canon σ :=
  canon_traceBy hs

theorem canon_brTrace {tag target} (hs : s.Canon σ) : (s.brTrace tag target).Canon σ := by
  unfold State.brTrace
  exact canon_ite (canon_traceCtx hs) hs

theorem canon_link (hs : s.Canon σ) : (s.link).Canon σ :=
  canon_wrG hs

theorem canon_reportX {b x kind f} (hs : s.Canon σ) : (s.reportX b x kind f).Canon σ := by
  unfold State.reportX
  split
  exacts [hs, canon_xReport hs]

theorem canon_doXnote {a x} (hs : s.Canon σ) : (doXnote a x s).Canon σ :=
  canon_xReport hs

theorem canon_doXflush (hs : s.Canon σ) : (doXflush s).Canon σ := by
  unfold doXflush
  exact canon_ite (canon_longValue (canon_onCore_same (canon_foldl hs (fun _ _ h => (canon_sendMerge h))) (fun _ => rfl) (fun _ => rfl)))
      (canon_addPend (canon_onCore_same (canon_foldl hs (fun _ _ h => (canon_sendMerge h))) (fun _ => rfl) (fun _ => rfl)))

theorem canon_withAddr {am base idx disp align k} (hs : s.Canon σ) (hk : ∀ (a : Word), State.Canon σ (k a)) :
    (s.withAddr am base idx disp align k).Canon σ := by
  unfold State.withAddr
  split
  exacts [canon_trap hs, canon_ite (canon_trap hs) (canon_ite (canon_trap hs) (hk _ ))]

theorem canon_withOp {m align k} (hs : s.Canon σ) (hk : ∀ (a : Word), State.Canon σ (k a)) : (s.withOp m align k).Canon σ :=
  canon_withAddr hs (fun _ => (hk _ ))

theorem canon_reportLd {xs pc lat} (hs : s.Canon σ) : (s.reportLd xs pc lat).Canon σ := by
  unfold State.reportLd
  exact canon_ite hs (canon_xReport hs)

theorem canon_loadFault {kind addr} (hs : s.Canon σ) : (s.loadFault kind addr).Canon σ :=
  canon_trapInfo hs

theorem canonCore_unfill {p} (hk : k.Canon σ) : (k.unfill p).Canon σ :=
  hk

theorem canon_snapEmpty {core} (hs : s.Canon σ) : (s.snapEmpty core).Canon σ :=
  canon_onCore_same hs (fun _ => rfl) (fun _ => rfl)

theorem canonCore_count {n by'} (hk : k.Canon σ) : (k.count n by').Canon σ :=
  hk

theorem canon_park {kind cond k limited} (hs : s.Canon σ) : (s.park kind cond k limited).Canon σ :=
  canon_onCx hs

theorem canon_afterClear {spans k now} (hs : s.Canon σ) (hnow : ∀ (t : State), t.Canon σ → (now t).Canon σ) : (s.afterClear spans k now).Canon σ := by
  unfold State.afterClear
  exact canon_ite (hnow _ hs) (canon_park (canon_onCx hs))

theorem canon_localGate {am ea n} {k : State} (hs : s.Canon σ) (hk : k.Canon σ) : (s.localGate am ea n k).Canon σ := by
  unfold State.localGate
  split
  exacts [canon_trap hs, hk]

theorem canon_afterDrain {k now} (hs : s.Canon σ) (hnow : ∀ (t : State), t.Canon σ → (now t).Canon σ) : (s.afterDrain k now).Canon σ := by
  unfold State.afterDrain
  exact canon_ite (hnow _ hs) (canon_park (canon_onCx hs))

theorem canonCore_snapDrop {tenant am line} (hk : k.Canon σ) : (k.snapDrop tenant am line).Canon σ := by
  unfold Core.snapDrop
  exact canonCore_ite (canonCore_unfill hk) hk

theorem canon_sendStore {core a w e j tag} (hs : s.Canon σ) : (s.sendStore core a w e j tag).Canon σ :=
  canon_send (canon_onCore hs (fun _ h => (canonCore_snapDrop h)))

theorem canon_prefLine {va} (hs : s.Canon σ) : (s.prefLine va).Canon σ := by
  unfold State.prefLine
  exact canon_ite hs (canon_send (canon_onMine_same (canon_onCx hs) (fun _ => rfl) (fun _ => rfl)))

theorem canon_doPref {d m} (hs : s.Canon σ) : (doPref d m s).Canon σ := by
  unfold doPref
  exact canon_ite hs (canon_withOp hs (fun a => (canon_ite hs (canon_foldl hs (fun _ _ h => (canon_prefLine h))))))

theorem canon_raise {f} (hs : s.Canon σ) : (s.raise f).Canon σ :=
  canon_onRegs hs

theorem canon_putLanes {h w d res} (hs : s.Canon σ) : (s.putLanes h w d res).Canon σ :=
  canon_raise (canon_onRegs hs)

theorem canon_vf2 {h f d a b op} (hs : s.Canon σ) : (s.vf2 h f d a b op).Canon σ :=
  canon_putLanes hs

theorem canon_doVadd {h f rm d a b} (hs : s.Canon σ) : (doVadd h f rm d a b s).Canon σ :=
  canon_vf2 hs

theorem canon_doVsub {h f rm d a b} (hs : s.Canon σ) : (doVsub h f rm d a b s).Canon σ :=
  canon_vf2 hs

theorem canon_doVmul {h f rm d a b} (hs : s.Canon σ) : (doVmul h f rm d a b s).Canon σ :=
  canon_vf2 hs

theorem canon_vf3 {h f d a b c op} (hs : s.Canon σ) : (s.vf3 h f d a b c op).Canon σ :=
  canon_putLanes hs

theorem canon_doVfma {h f rm d a b c} (hs : s.Canon σ) : (doVfma h f rm d a b c s).Canon σ :=
  canon_vf3 hs

theorem canon_doVfms {h f rm d a b c} (hs : s.Canon σ) : (doVfms h f rm d a b c s).Canon σ :=
  canon_vf3 hs

theorem canon_doVfnma {h f rm d a b c} (hs : s.Canon σ) : (doVfnma h f rm d a b c s).Canon σ :=
  canon_vf3 hs

theorem canon_doVmin {h f d a b} (hs : s.Canon σ) : (doVmin h f d a b s).Canon σ :=
  canon_vf2 hs

theorem canon_doVmax {h f d a b} (hs : s.Canon σ) : (doVmax h f d a b s).Canon σ :=
  canon_vf2 hs

theorem canon_vf1 {h f d a op} (hs : s.Canon σ) : (s.vf1 h f d a op).Canon σ :=
  canon_putLanes hs

theorem canon_doVabs {h f d a} (hs : s.Canon σ) : (doVabs h f d a s).Canon σ :=
  canon_vf1 hs

theorem canon_doVneg {h f d a} (hs : s.Canon σ) : (doVneg h f d a s).Canon σ :=
  canon_vf1 hs

theorem canon_doVrcp {h f rm d a} (hs : s.Canon σ) : (doVrcp h f rm d a s).Canon σ :=
  canon_vf1 hs

theorem canon_doVrsq {h f rm d a} (hs : s.Canon σ) : (doVrsq h f rm d a s).Canon σ :=
  canon_vf1 hs

theorem canon_doVexp2 {h f rm d a} (hs : s.Canon σ) : (doVexp2 h f rm d a s).Canon σ :=
  canon_vf1 hs

theorem canon_doVlog2 {h f rm d a} (hs : s.Canon σ) : (doVlog2 h f rm d a s).Canon σ :=
  canon_vf1 hs

theorem canon_longLanes {h w d res} (hs : s.Canon σ) : (s.longLanes h w d res).Canon σ :=
  canon_longValue hs

theorem canon_doVdiv {h f rm d a b} (hs : s.Canon σ) : (doVdiv h f rm d a b s).Canon σ :=
  canon_longLanes hs

theorem canon_doVsqrt {h f rm d a} (hs : s.Canon σ) : (doVsqrt h f rm d a s).Canon σ :=
  canon_longLanes hs

theorem canon_doVcvt {h rm part t src d a} (hs : s.Canon σ) : (doVcvt h rm part t src d a s).Canon σ := by
  unfold doVcvt
  exact canon_ite (canon_putLanes hs) (canon_ite (canon_raise (canon_onRegs hs)) (canon_putLanes hs))

theorem canon_doVcmp {f c d a b} (hs : s.Canon σ) : (doVcmp f c d a b s).Canon σ :=
  canon_raise (canon_wrP hs)

theorem canon_doVred {h f rm d a} (hs : s.Canon σ) : (doVred h f rm d a s).Canon σ :=
  canon_raise (canon_onRegs hs)

theorem canon_doVdot {h f rm d a b} (hs : s.Canon σ) : (doVdot h f rm d a b s).Canon σ :=
  canon_raise (canon_onRegs hs)

theorem canon_putF {d r} (hs : s.Canon σ) : (s.putF d r).Canon σ :=
  canon_raise (canon_wrG hs)

theorem canon_doFadd {f rm d a b} (hs : s.Canon σ) : (doFadd f rm d a b s).Canon σ :=
  canon_putF hs

theorem canon_doFmul {f rm d a b} (hs : s.Canon σ) : (doFmul f rm d a b s).Canon σ :=
  canon_putF hs

theorem canon_doFfma {f rm d a b c} (hs : s.Canon σ) : (doFfma f rm d a b c s).Canon σ :=
  canon_putF hs

theorem canon_doFcmp {f c d a b} (hs : s.Canon σ) : (doFcmp f c d a b s).Canon σ :=
  canon_raise (canon_wrP hs)

theorem canon_doFcvt {rm t src d a} (hs : s.Canon σ) : (doFcvt rm t src d a s).Canon σ :=
  canon_raise (canon_wrG hs)

theorem canon_vi2 {h vw d a b op} (hs : s.Canon σ) : (s.vi2 h vw d a b op).Canon σ :=
  canon_putLanes hs

theorem canon_doViadd {h vw d a b} (hs : s.Canon σ) : (doViadd h vw d a b s).Canon σ :=
  canon_vi2 hs

theorem canon_doVisub {h vw d a b} (hs : s.Canon σ) : (doVisub h vw d a b s).Canon σ :=
  canon_vi2 hs

theorem canon_doVimul {h vw d a b} (hs : s.Canon σ) : (doVimul h vw d a b s).Canon σ :=
  canon_vi2 hs

theorem canon_doVand {h vw d a b} (hs : s.Canon σ) : (doVand h vw d a b s).Canon σ :=
  canon_vi2 hs

theorem canon_doVor {h vw d a b} (hs : s.Canon σ) : (doVor h vw d a b s).Canon σ :=
  canon_vi2 hs

theorem canon_doVxor {h vw d a b} (hs : s.Canon σ) : (doVxor h vw d a b s).Canon σ :=
  canon_vi2 hs

theorem canon_doVshl {h vw d a b} (hs : s.Canon σ) : (doVshl h vw d a b s).Canon σ :=
  canon_vi2 hs

theorem canon_doVshr {h vw d a b} (hs : s.Canon σ) : (doVshr h vw d a b s).Canon σ :=
  canon_vi2 hs

theorem canon_doVsra {h vw d a b} (hs : s.Canon σ) : (doVsra h vw d a b s).Canon σ :=
  canon_vi2 hs

theorem canon_doVimin {h u vw d a b} (hs : s.Canon σ) : (doVimin h u vw d a b s).Canon σ :=
  canon_vi2 hs

theorem canon_doVimax {h u vw d a b} (hs : s.Canon σ) : (doVimax h u vw d a b s).Canon σ :=
  canon_vi2 hs

theorem canon_doVsel {h vw d a b c} (hs : s.Canon σ) : (doVsel h vw d a b c s).Canon σ :=
  canon_putLanes hs

theorem canon_doVshuf {h vw d a b} (hs : s.Canon σ) : (doVshuf h vw d a b s).Canon σ :=
  canon_putLanes hs

theorem canon_doVbcast {h vw d a} (hs : s.Canon σ) : (doVbcast h vw d a s).Canon σ :=
  canon_putLanes hs

theorem canon_doVins {h vw d a b} (hs : s.Canon σ) : (doVins h vw d a b s).Canon σ :=
  canon_putLanes hs

theorem canon_doVext {u vw d a b} (hs : s.Canon σ) : (doVext u vw d a b s).Canon σ :=
  canon_wrG hs

theorem canon_doVcmprs {h vw d a c} (hs : s.Canon σ) : (doVcmprs h vw d a c s).Canon σ :=
  canon_putLanes hs

theorem canon_doVexpnd {h vw d a c} (hs : s.Canon σ) : (doVexpnd h vw d a c s).Canon σ :=
  canon_putLanes hs

theorem canon_doViota {h vw d c} (hs : s.Canon σ) : (doViota h vw d c s).Canon σ :=
  canon_putLanes hs

theorem canon_doVicmp {vw c d a b} (hs : s.Canon σ) : (doVicmp vw c d a b s).Canon σ :=
  canon_wrP hs

theorem canon_doVqnt {_rn f bx d a b c} (hs : s.Canon σ) : (doVqnt _rn f bx d a b c s).Canon σ := by
  unfold doVqnt
  dsimp only
  split
  exacts [canon_wrG (canon_raise (canon_onRegs hs)), canon_raise (canon_onRegs hs)]

theorem canon_doVdqnt {h rm part f bx d a c} (hs : s.Canon σ) : (doVdqnt h rm part f bx d a c s).Canon σ :=
  canon_putLanes hs

theorem canon_doVsrnd {h part f d a b c} (hs : s.Canon σ) : (doVsrnd h part f d a b c s).Canon σ :=
  canon_raise (canon_onRegs hs)

theorem canon_dropInside {cls} (hs : s.Canon σ) : (s.dropInside cls).Canon σ :=
  hs

theorem canon_groupRefused {w handle} (hs : s.Canon σ) : (s.groupRefused w handle).Canon σ := by
  unfold State.groupRefused
  split
  exacts [canon_ite (canon_loadFault (canon_onCx hs)) hs, hs]

theorem canon_dropGroup {cls g} (hs : s.Canon σ) : (s.dropGroup cls g).Canon σ := by
  unfold State.dropGroup
  exact canon_foldl (canon_sendAll (canon_onSched hs)) (fun _ _ h => (canon_ite (canon_groupRefused h) h))

theorem canon_reportLost {cls lvl unit r} (hs : s.Canon σ) : (s.reportLost cls lvl unit r).Canon σ := by
  unfold State.reportLost
  split
  exacts [canon_ite hs (canon_send hs), hs]

theorem canon_dropUnits {cls} (hs : s.Canon σ) : (s.dropUnits cls).Canon σ := by
  unfold State.dropUnits
  exact canon_foldl hs (fun _ _ h => (canon_foldl h (fun _ _ h1 => (canon_reportLost h1))))

theorem canon_snapsEmpty (hs : s.Canon σ) : (s.snapsEmpty).Canon σ := by
  unfold State.snapsEmpty
  exact canon_foldl hs (fun _ _ h => (canon_snapEmpty h))

theorem canon_nextInterval (hs : s.Canon σ) : (s.nextInterval).Canon σ :=
  hs

theorem canonCore_onHandle {h f} (hk : k.Canon σ) : (k.onHandle h f).Canon σ :=
  hk

theorem canon_undone {r} (hs : s.Canon σ) : (s.undone r).Canon σ := by
  unfold State.undone
  split
  exacts [canon_onMine_same hs (fun _ => rfl) (fun _ => rfl), hs]

theorem canon_over (hs : s.Canon σ) : (s.over).Canon σ := by
  unfold State.over
  exact canon_ite (canon_onCx hs) hs

theorem canon_refuse {r} (hs : s.Canon σ) : (s.refuse r).Canon σ := by
  unfold State.refuse
  split
  exacts [hs, hs, canon_park hs, canon_trapInfo (canon_ite (canon_onCx hs) (canon_ite (canon_onCx hs) hs)), canon_trapInfo
      (canon_onMine_same hs (fun _ => rfl) (fun _ => rfl)), canon_savePaged hs]

theorem canon_ownPort {l} {k : State} (hs : s.Canon σ) (hk : k.Canon σ) : (s.ownPort l k).Canon σ := by
  unfold State.ownPort
  split
  exacts [canon_trap hs, hk]

theorem canon_syncFault {f} (hs : s.Canon σ) : (s.syncFault f).Canon σ := by
  unfold State.syncFault
  exact canon_ite (canon_savePaged hs) (canon_loadFault hs)

theorem canon_acquire (hs : s.Canon σ) : (s.acquire).Canon σ :=
  canon_snapEmpty hs

theorem canon_arriveAt {gh rec'} (hs : s.Canon σ) : (s.arriveAt gh rec').Canon σ :=
  canon_send (canon_onCx hs)

theorem canon_phaseArrive {gh} (hs : s.Canon σ) : (s.phaseArrive gh).Canon σ :=
  canon_park (canon_arriveAt hs)

theorem canon_setFbar {g b} (hs : s.Canon σ) : (s.setFbar g b).Canon σ :=
  hs

theorem canon_fbarArrive {g n} (hs : s.Canon σ) : (s.fbarArrive g n).Canon σ := by
  unfold State.fbarArrive
  exact canon_ite (canon_trap hs) (canon_ite (canon_trap hs) (canon_park (canon_setFbar (canon_onCx hs))))

theorem canon_xferFault {spec f} (hs : s.Canon σ) : (s.xferFault spec f).Canon σ :=
  canon_trapInfo hs

theorem canon_handleFault {h f} (hs : s.Canon σ) : (s.handleFault h f).Canon σ :=
  canon_xferFault (canon_onMine_same hs (fun _ => rfl) (fun _ => rfl))

theorem canon_afterKicks {k now} (hs : s.Canon σ) (hnow : ∀ (t : State), t.Canon σ → (now t).Canon σ) : (s.afterKicks k now).Canon σ := by
  unfold State.afterKicks
  exact canon_ite (hnow _ hs) (canon_park (canon_onCx hs))

theorem canon_cpywGo {h m} (hs : s.Canon σ) : (s.cpywGo h m).Canon σ := by
  unfold State.cpywGo
  dsimp only
  split
  exacts [canon_ite (canon_handleFault hs) (canon_park hs), canon_ite (canon_acquire hs) (canon_park hs)]

theorem canonCore_onCounter {r f} (hk : k.Canon σ) : (k.onCounter r f).Canon σ :=
  hk

theorem canon_gpwaitGo {sub d k target} (hs : s.Canon σ) : (s.gpwaitGo sub d k target).Canon σ := by
  unfold State.gpwaitGo
  dsimp only
  split
  · exact canon_park hs
  · split
    exacts [canon_xferFault (canon_onMine_same hs (fun _ => rfl) (fun _ => rfl)), canon_acquire
        (canon_ite (canon_onMine_same (canon_wrG hs) (fun _ => rfl) (fun _ => rfl)) (canon_wrG hs))]

theorem canon_withCb {cb roles k} (hs : s.Canon σ) (hk : ∀ (a : CBuf), State.Canon σ (k a)) : (s.withCb cb roles k).Canon σ := by
  unfold State.withCb
  exact canon_ite (canon_trap hs) (canon_ite (canon_loadFault hs) (hk _ ))

theorem canonCore_onCb {n f} (hk : k.Canon σ) : (k.onCb n f).Canon σ :=
  hk

theorem canon_cbrsvGo {d cb} (hs : s.Canon σ) : (s.cbrsvGo d cb).Canon σ := by
  unfold State.cbrsvGo
  exact canon_withCb hs (fun a => (canon_ite (canon_park hs) (canon_wrG (canon_onMine_same hs (fun _ => rfl) (fun _ => rfl)))))

theorem canon_cbcmtGo {cb} (hs : s.Canon σ) : (s.cbcmtGo cb).Canon σ := by
  unfold State.cbcmtGo
  exact canon_withCb hs (fun a => (canon_ite (canon_trap hs) (canon_ite (canon_send (canon_onMine_same hs (fun _ => rfl) (fun _ => rfl)))
      (canon_onMine_same hs (fun _ => rfl) (fun _ => rfl)))))

theorem canon_cbacqGo {d cb} (hs : s.Canon σ) : (s.cbacqGo d cb).Canon σ := by
  unfold State.cbacqGo
  exact canon_withCb hs (fun a => (canon_ite (canon_park hs) (canon_acquire (canon_wrG (canon_onMine_same hs (fun _ => rfl) (fun _ => rfl))))))

theorem canon_oclaimGot {d id} (hs : s.Canon σ) : (s.oclaimGot d id).Canon σ := by
  unfold State.oclaimGot
  split
  exacts [canon_wrG (canon_onMine_same hs (fun _ => rfl) (fun _ => rfl)), hs]

theorem canon_ofillGo {slot data u} (hs : s.Canon σ) : (s.ofillGo slot data u).Canon σ := by
  unfold State.ofillGo
  exact canon_ite (canon_park hs) (canon_onMine hs (fun _ h => (canonCore_opPut h)))

theorem canon_withTile {a} {k : State} (hs : s.Canon σ) (hk : k.Canon σ) : (s.withTile a k).Canon σ := by
  unfold State.withTile
  exact canon_ite (canon_trap hs) hk

theorem canon_tlbinvGo {scope va tenant} (hs : s.Canon σ) : (s.tlbinvGo scope va tenant).Canon σ := by
  unfold State.tlbinvGo
  generalize upTo tlbUnits = l
  exact canon_sendAll (canon_addPend hs)

theorem canon_fenceiGo (hs : s.Canon σ) : (s.fenceiGo).Canon σ :=
  canon_onMine_same hs (fun _ => rfl) (fun _ => rfl)

theorem canonCore_snapPlace {tenant line data} (hk : k.Canon σ) : (k.snapPlace tenant line data).Canon σ :=
  hk

theorem canon_landIn {core c r} (hs : s.Canon σ) : (s.landIn core c r).2.Canon σ := by
  unfold State.landIn
  split
  · exact hs
  · dsimp only
    split
    · exact hs
    · split
      · exact hs
      · split
        · refine canon_snapEmpty ?_
          split
          · exact canon_onCore_same (canon_ite hs (canon_xReport hs)) (fun _ => rfl) fun _ => rfl
          · exact canon_ite hs (canon_xReport hs)
        · dsimp only
          split
          · exact canon_onCore_same (canon_ite hs (canon_xReport hs)) (fun _ => rfl) fun _ => rfl
          · exact canon_ite hs (canon_xReport hs)

theorem canon_repGo {n st k} (hs : s.Canon σ) : (s.repGo n st k).Canon σ := by
  unfold State.repGo
  exact canon_ite (canon_trap hs) (canon_ite hs (canon_ite (canon_park hs) (canon_onMine_same (canon_onCx hs) (fun _ => rfl) (fun _ => rfl))))

theorem canon_limitTrap {core x} (hs : s.Canon σ) : (s.limitTrap core x).Canon σ :=
  canon_trap (canon_onCx hs)

theorem canon_syncLimit {core x} (hs : s.Canon σ) : (s.syncLimit core x).Canon σ := by
  unfold State.syncLimit
  dsimp only
  split
  · exact hs
  · split
    exacts [canon_limitTrap (canon_setCtx hs), canon_send (canon_setCtx hs), hs]

theorem canon_parkAt {core x c} (hs : s.Canon σ) : (s.parkAt core x c).Canon σ :=
  canon_park (canon_onCx hs)

theorem canon_endTurn {core pos vec} (hs : s.Canon σ) : (s.endTurn core pos vec).Canon σ :=
  hs

theorem canonCore_turn {pos x n yields} (hk : k.Canon σ) : (k.turn pos x n yields).Canon σ := by
  unfold Core.turn
  exact canonCore_foldl (canonCore_ite (canonCore_count hk) (canonCore_count hk)) (fun _ _ h => (canonCore_count h))

theorem canon_haltCtx {core x edge} (hs : s.Canon σ) : (s.haltCtx core x edge).Canon σ := by
  unfold State.haltCtx
  exact canon_ite hs (canon_traceCtx (canon_setCtx hs))

theorem canon_breakpoint {core x} (hs : s.Canon σ) : (s.breakpoint core x).Canon σ := by
  unfold State.breakpoint
  split
  exacts [hs, canon_ite (canon_startStop (canon_haltCtx (canon_onCtx (canon_traceCtx (canon_onCtx hs)))))
      (canon_trap (canon_onCx (canon_acting (canon_onCtx hs))))]

theorem canon_prepare {core pos x w} (hs : s.Canon σ) : (s.prepare core pos x w).Canon σ :=
  canon_onCtx (canon_onCore hs (fun _ h => (canonCore_turn h)))

theorem canonCore_setCsr {r v} (hk : k.Canon σ) : (k.setCsr r v).Canon σ := by
  unfold Core.setCsr
  split
  exacts [hk, hk, hk, hk, hk, hk, canonCore_ite hk hk]

theorem canonCore_takeCsrs (hk : k.Canon σ) : (k.takeCsrs).Canon σ := by
  unfold Core.takeCsrs
  exact canonCore_foldl hk (fun _ _ h => (canonCore_setCsr h))

theorem canon_readClock {core} (hs : s.Canon σ) : (s.readClock core).Canon σ :=
  canon_used (canon_onCore_same hs (fun _ => rfl) (fun _ => rfl))

theorem canon_turnStart {core} (hs : s.Canon σ) : (s.turnStart core).Canon σ := by
  unfold State.turnStart
  exact canon_ite (canon_readClock (canon_onCore_same (canon_onCore hs (fun _ h => (canonCore_takeCsrs h))) (fun _ => rfl) (fun _ => rfl)))
      (canon_onCore_same (canon_onCore hs (fun _ h => (canonCore_takeCsrs h))) (fun _ => rfl) (fun _ => rfl))

theorem canon_nextCycle (hs : s.Canon σ) : (s.nextCycle).Canon σ := by
  unfold State.nextCycle
  exact canon_foldl hs (fun _ _ h => (canon_turnStart h))

theorem canon_drainCtx {core x} (hs : s.Canon σ) : (s.drainCtx core x).Canon σ := by
  unfold State.drainCtx
  dsimp only
  split
  · split
    exacts [canon_sendStore (canon_setCtx hs), hs]
  · exact hs

theorem canon_unhold {a tag lane} (hs : s.Canon σ) : (s.unhold a tag lane).Canon σ :=
  hs

theorem canon_holdFor {a tag lane f} (hs : s.Canon σ) : (s.holdFor a tag lane f).Canon σ :=
  canon_tell hs

theorem canon_drainLeft {core n} (hs : s.Canon σ) : (s.drainLeft core n).Canon σ := by
  unfold State.drainLeft
  split
  · split
    exacts [canon_sendStore (canon_onCore_same hs (fun _ => rfl) (fun _ => rfl)), hs]
  · exact hs

theorem canon_endCopy {core op} (hs : s.Canon σ) : (s.endCopy core op).Canon σ :=
  canon_onCore_same hs (fun _ => rfl) (fun _ => rfl)

theorem canon_onCopy {core op f} (hs : s.Canon σ) : (s.onCopy core op f).Canon σ :=
  canon_onCore_same hs (fun _ => rfl) (fun _ => rfl)

theorem canon_unsend {i} (hs : s.Canon σ) : (s.unsend i).Canon σ :=
  hs

theorem canon_strayAt {c} (hs : s.Canon σ) : (s.strayAt c).Canon σ :=
  canon_tell (canon_onCore_same hs (fun _ => rfl) (fun _ => rfl))

theorem canon_discard {i} (hs : s.Canon σ) : (s.discard i).Canon σ := by
  unfold State.discard
  split
  · split
    exacts [canon_ite (canon_strayAt (canon_unsend hs)) hs, hs]
  · exact hs

theorem canon_replyLog {core} (hs : s.Canon σ) : (s.replyLog core).Canon σ := by
  unfold State.replyLog
  exact canon_ite hs (canon_ite (canon_replayPoint hs) hs)

theorem canon_clbPoison {core launch tid} (hs : s.Canon σ) : (s.clbPoison core launch tid).Canon σ :=
  canon_onCore_same (f := fun k => k.dropVol launch tid) hs (fun _ => rfl) fun _ => rfl

theorem canon_ackStore {r j fault} (hs : s.Canon σ) : (s.ackStore r j fault).Canon σ := by
  unfold State.ackStore
  split
  exacts [hs, canon_ite hs (canon_send hs)]

theorem canon_readLead {tenant x} (hs : s.Canon σ) : (s.readLead tenant x).2.Canon σ := by
  unfold State.readLead
  split <;> exact canon_readXl hs

theorem canon_instPut {launch va w} (hs : s.Canon σ) : (s.instPut launch va w).Canon σ :=
  canon_onLaunch hs

theorem canon_newGraph {tenant flags} (hs : s.Canon σ) : (s.newGraph tenant flags).2.Canon σ := by
  unfold State.newGraph
  dsimp only
  split
  exacts [hs, canon_onSched hs]

theorem canon_onGraph {g f} (hs : s.Canon σ) : (s.onGraph g f).Canon σ :=
  canon_onSched hs

theorem canon_newEdge {tenant a b} (hs : s.Canon σ) : (s.newEdge tenant a b).2.Canon σ := by
  unfold State.newEdge
  dsimp only
  split
  · split
    · exact hs
    · split
      exacts [hs, canon_onGraph hs]
  · exact hs

theorem canon_dropGraph {tenant g} (hs : s.Canon σ) : (s.dropGraph tenant g).2.Canon σ := by
  unfold State.dropGraph
  split
  exacts [hs, canon_onSched hs]

theorem canon_grabTake {tenant a} (hs : s.Canon σ) : (s.grabTake tenant a).2.Canon σ := by
  unfold State.grabTake
  dsimp only
  split
  · exact hs
  · split
    exacts [hs, canon_onSched hs]

theorem canon_grabSet {tenant a cfg} (hs : s.Canon σ) : (s.grabSet tenant a cfg).2.Canon σ := by
  unfold State.grabSet
  dsimp only
  split
  · split
    exacts [hs, canon_onSched hs]
  · split
    exacts [hs, canon_onSched hs]

theorem canon_holdAcks (ht : t.Canon σ) : (s.holdAcks t).Canon σ := by
  unfold State.holdAcks
  exact canon_ite ht ht

theorem canon_dropEbuf {g} (hs : s.Canon σ) : (s.dropEbuf g).Canon σ :=
  hs

theorem canon_onUnit {lvl n f} (hs : s.Canon σ) : (s.onUnit lvl n f).Canon σ :=
  hs

theorem canon_onCard {lvl unit id f} (hs : s.Canon σ) : (s.onCard lvl unit id f).Canon σ :=
  canon_onUnit hs

theorem canon_setEbuf {b} (hs : s.Canon σ) : (s.setEbuf b).Canon σ :=
  hs

theorem canon_addCopy {core a op e} (hs : s.Canon σ) : (s.addCopy core a op e).Canon σ :=
  canon_onCore_same hs (fun _ => rfl) (fun _ => rfl)

theorem canonCore_raiseCounter {r f} (hk : k.Canon σ) : (k.raiseCounter r f).Canon σ :=
  canonCore_onCounter hk

theorem canon_enqueue {d tenant sup prio node} (hs : s.Canon σ) : (s.enqueue d tenant sup prio node).1.Canon σ :=
  canon_onSched hs

theorem canon_accept {q d} (hs : s.Canon σ) : (s.accept q d).2.Canon σ := by
  unfold State.accept
  dsimp only
  split
  · exact hs
  · split
    · exact hs
    · split
      exacts [hs, canon_onSched hs]

theorem canon_newNode {q g own d} (hs : s.Canon σ) : (s.newNode q g own d).2.Canon σ := by
  unfold State.newNode
  split
  · exact hs
  · dsimp only
    split
    · exact hs
    · split
      · exact hs
      · split
        · exact hs
        · split
          exacts [hs, canon_onSched (canon_onGraph hs)]

theorem canon_onInst {i f} (hs : s.Canon σ) : (s.onInst i f).Canon σ :=
  canon_onSched hs

theorem canon_queueNode {i v} (hs : s.Canon σ) : (s.queueNode i v).Canon σ := by
  unfold State.queueNode
  exact canon_ite (canon_onInst hs) (canon_enqueue (canon_onInst hs))

theorem canon_queueReady {i} (hs : s.Canon σ) : (s.queueReady i).Canon σ := by
  unfold State.queueReady
  split
  exacts [hs, canon_foldl hs (fun _ _ h => (canon_ite (canon_queueNode h) h))]

theorem canon_nodeEnded {i v status} (hs : s.Canon σ) : (s.nodeEnded i v status).Canon σ :=
  canon_onInst hs

theorem canon_eventDone {tenant i v} (hs : s.Canon σ) : (s.eventDone tenant i v).2.Canon σ := by
  unfold State.eventDone
  split
  · exact hs
  · split
    · exact hs
    · split
      · exact hs
      · split
        exacts [hs, canon_nodeEnded hs]

theorem canonCore_handleRec {h f} (hk : k.Canon σ) : (k.handleRec h f).Canon σ :=
  canonCore_onHandle hk

theorem canon_copyOver {core op chunks h done} (hs : s.Canon σ) : (s.copyOver core op chunks h done).Canon σ := by
  unfold State.copyOver
  exact canon_ite (canon_endCopy (canon_onCore_same hs (fun _ => rfl) (fun _ => rfl))) hs

theorem canon_dealPoison {a c o} (hs : s.Canon σ) : (s.dealPoison a c o).Canon σ := by
  unfold State.dealPoison
  exact canon_ite hs (canon_onCore_same hs (fun _ => rfl) (fun _ => rfl))

theorem canon_requeue (hs : s.Canon σ) : (s.requeue).Canon σ := by
  unfold State.requeue
  exact canon_foldl hs (fun _ _ h => (canon_queueReady h))

theorem canonCore_settle {launch} (hk : k.Canon σ) : (k.settle launch).Canon σ := by
  unfold Core.settle
  dsimp only
  split <;> exact hk

theorem canon_startOn {l core} (hs : s.Canon σ) : (s.startOn l core).Canon σ := by
  have hf : ∀ (b : Bool) (k : Core), k.Canon σ →
      ((if b then k.setPool (descW l.desc 1) l.tenant l.id else k).settle (BitVec.ofNat 32 l.id)).Canon σ :=
    fun b k hk => canonCore_settle (by split <;> exact hk)
  unfold State.startOn
  dsimp only
  generalize hu : (if partPair (descW l.desc 1) then _ else _ : State) = u
  have ht : u.Canon σ := hu ▸ canon_ite (canon_onCore (canon_onCore hs (hf _)) (hf _)) (canon_onCore hs (hf _))
  split
  · exact ht
  · exact canon_onLaunch (canon_snapEmpty (canon_setCtx ht))

theorem canon_threadStart {launch} (hs : s.Canon σ) : (s.threadStart launch).Canon σ := by
  unfold State.threadStart
  split
  exacts [canon_startOn hs, hs]

theorem canon_aging {launch} (hs : s.Canon σ) : (s.aging launch).Canon σ := by
  unfold State.aging
  split
  exacts [hs, canon_onSched (canon_onLaunch hs)]

theorem canon_charge (hs : s.Canon σ) : (s.charge).Canon σ :=
  canon_onSched hs

theorem canon_wake {core} (hs : s.Canon σ) : (s.wake core).Canon σ := by
  unfold State.wake
  split
  exacts [canon_ite (canon_onCore_same (canon_used hs) (fun _ => rfl) (fun _ => rfl)) hs, canon_ite
      (canon_onCore_same (canon_used hs) (fun _ => rfl) (fun _ => rfl)) hs, hs]

theorem canonCore_unsettle {launch} (hk : k.Canon σ) : (k.unsettle launch).Canon σ := by
  unfold Core.unsettle
  exact canonCore_ite hk hk

theorem canon_fillInstance {launch} (hs : s.Canon σ) : (s.fillInstance launch).Canon σ := by
  unfold State.fillInstance
  split
  · exact hs
  · split
    · exact hs
    · split
      exacts [canon_onLaunch hs, canon_ite (canon_tell (canon_onLaunch hs)) (canon_onLaunch hs)]

theorem canon_sealInstance {launch} (hs : s.Canon σ) : (s.sealInstance launch).Canon σ := by
  unfold State.sealInstance
  split
  · exact hs
  · split
    · exact hs
    · dsimp only
      split
      exacts [canon_onLaunch hs, canon_ite (canon_onLaunch hs) (canon_onLaunch hs)]

theorem canon_setGroup {g} (hs : s.Canon σ) : (s.setGroup g).Canon σ :=
  canon_onSched hs

theorem canon_joinAt {w launch handle tag} (hs : s.Canon σ) : (s.joinAt w launch handle tag).Canon σ := by
  unfold State.joinAt
  split
  exacts [canon_ite (canon_send hs) (canon_send (canon_onSched hs)), canon_ite (canon_send (canon_setGroup hs)) (canon_setGroup hs)]

theorem canon_completeGroup {g} (hs : s.Canon σ) : (s.completeGroup g).Canon σ :=
  canon_sendAll (canon_setGroup hs)

theorem canon_settleGroup {g} (hs : s.Canon σ) : (s.settleGroup g).Canon σ := by
  unfold State.settleGroup
  exact canon_ite (canon_completeGroup hs) (canon_setGroup hs)

theorem canon_leaveAt {w launch handle tag} (hs : s.Canon σ) : (s.leaveAt w launch handle tag).Canon σ := by
  unfold State.leaveAt
  split
  · split
    exacts [canon_send hs, hs]
  · split
    · dsimp only
      split
      exacts [canon_send (canon_setGroup hs), canon_setGroup hs]
    · exact canon_settleGroup hs

theorem canon_arriveAtSlice {w launch handle leave} (hs : s.Canon σ) : (s.arriveAtSlice w launch handle leave).Canon σ := by
  unfold State.arriveAtSlice
  split
  · exact canon_leaveAt hs
  · split
    exacts [hs, canon_settleGroup hs]

theorem canon_phaseDone {core c} (hs : s.Canon σ) : (s.phaseDone core c).Canon σ := by
  unfold State.phaseDone
  exact canon_ite (canon_replayPoint (canon_mergeWhere (canon_snapEmpty hs))) (canon_mergeWhere (canon_snapEmpty hs))

theorem canon_landFill {core launch slot id w} (hs : s.Canon σ) : (s.landFill core launch slot id w).Canon σ := by
  unfold State.landFill
  split
  · exact hs
  · split
    · split <;> exact canon_onCore_same hs (fun _ => rfl) (fun _ => rfl)
    · dsimp only
      split
      · split
        · exact canon_sendMerge (canon_onCore_same hs (fun _ => rfl) (fun _ => rfl))
        · split
          · split
            exacts [canon_send (canon_onCore_same hs (fun _ => rfl) (fun _ => rfl)), canon_onCore_same hs (fun _ => rfl) (fun _ => rfl)]
          · exact canon_onCore_same hs (fun _ => rfl) (fun _ => rfl)
      · split
        · exact canon_sendMerge (canon_onCore_same hs (fun _ => rfl) (fun _ => rfl))
        · split
          · split
            exacts [canon_send (canon_onCore_same hs (fun _ => rfl) (fun _ => rfl)), canon_onCore_same hs (fun _ => rfl) (fun _ => rfl)]
          · exact canon_onCore_same hs (fun _ => rfl) (fun _ => rfl)

theorem canon_landMerge {core launch slot id w1 n} (hs : s.Canon σ) : (s.landMerge core launch slot id w1 n).Canon σ := by
  unfold State.landMerge
  dsimp only
  split
  · exact canon_ite (canon_onCore_same hs (fun _ => rfl) (fun _ => rfl)) hs
  · split
    exacts [canon_ite (canon_onCore_same hs (fun _ => rfl) (fun _ => rfl)) hs, canon_onCore_same
        (canon_ite (canon_onCore_same hs (fun _ => rfl) (fun _ => rfl)) hs) (fun _ => rfl) (fun _ => rfl)]

theorem canon_notice {core cb role f} (hs : s.Canon σ) : (s.notice core cb role f).Canon σ := by
  unfold State.notice
  exact canon_ite hs (canon_ite (canon_onCore_same hs (fun _ => rfl) (fun _ => rfl)) (canon_strayAt hs))

theorem canonCore_clbFill {launch tid t p} (hk : k.Canon σ) : (k.clbFill launch tid t p).Canon σ :=
  hk

theorem canon_wordAns {w} (hs : s.Canon σ) : (wordAns w s).Canon σ :=
  hs

theorem canon_claimGrant {core} (hs : s.Canon σ) : (s.claimGrant core).Canon σ := by
  unfold State.claimGrant
  dsimp only
  split
  exacts [hs, canon_ite hs (canon_setCore hs (canon_core hs))]

theorem canon_cardSlots {core r} (hs : s.Canon σ) : (s.cardSlots core r).Canon σ := by
  unfold State.cardSlots
  generalize upTo 32 = l
  exact canon_foldl (canon_onCore_same hs (fun _ => rfl) fun _ => rfl) fun _ _ h => canon_ite (canon_onCore_same h (fun _ => rfl) fun _ => rfl) h

theorem canon_fbarRelease {g} (hs : s.Canon σ) : (s.fbarRelease g).Canon σ := by
  unfold State.fbarRelease
  exact canon_ite hs (canon_sendAll (canon_setFbar hs))

theorem canon_fbarTimeout {g} (hs : s.Canon σ) : (s.fbarTimeout g).Canon σ :=
  canon_sendAll (canon_setFbar hs)

theorem canon_collTimeout {g} (hs : s.Canon σ) : (s.collTimeout g).Canon σ := by
  unfold State.collTimeout
  split
  exacts [hs, canon_onCard (canon_dropEbuf (canon_used hs))]

theorem canon_fabricTimeout {g} (hs : s.Canon σ) : (s.fabricTimeout g).Canon σ := by
  unfold State.fabricTimeout
  exact canon_ite (canon_fbarTimeout hs) (canon_ite (canon_collTimeout hs) hs)

theorem canon_reach {core edge} (hs : s.Canon σ) : (s.reach core edge).Canon σ := by
  unfold State.reach
  exact canon_foldl (canon_onCore_same hs (fun _ => rfl) (fun _ => rfl)) (fun _ _ h => (canon_ite (canon_onCtx h) (canon_haltCtx h)))

theorem canon_onStopN {i f} (hs : s.Canon σ) : (s.onStopN i f).Canon σ :=
  hs

theorem canon_groupRecord {launch handle l} (hs : s.Canon σ) : (s.groupRecord launch handle l).Canon σ :=
  canon_ringWrite hs

theorem canon_groupRecords {d} (hs : s.Canon σ) : (s.groupRecords d).Canon σ := by
  unfold State.groupRecords
  exact canon_foldl (canon_foldl hs (fun _ _ h => (canon_groupRecord h))) (fun _ _ h => (canon_ite h (canon_groupRecord h)))

theorem canon_stopArrive {core} (hs : s.Canon σ) : (s.stopArrive core).Canon σ := by
  unfold State.stopArrive
  split
  · split
    exacts [canon_reach (canon_onStopN hs), hs]
  · split
    · exact hs
    · split
      exacts [canon_groupRecords (canon_onStopN hs), hs]

theorem canon_engLimit {core} (hs : s.Canon σ) : (s.engLimit core).Canon σ := by
  unfold State.engLimit
  split
  exacts [canon_ite hs hs, hs]

theorem canon_latchCore {core} (hs : s.Canon σ) : (s.latchCore core).Canon σ := by
  unfold State.latchCore
  dsimp only
  split
  · exact canon_fresh (canon_onCore_same hs (fun _ => rfl) fun _ => rfl)
  · exact canon_foldl (canon_fresh (canon_onCore_same hs (fun _ => rfl) fun _ => rfl)) fun _ _ h => canon_traceCtx h

theorem canon_coreSeries {core n time} (hs : s.Canon σ) : (s.coreSeries core n time).Canon σ := by
  unfold State.coreSeries
  exact canon_foldl hs (fun _ _ h => (canon_seriesWrite h))

theorem canon_unitSeries {cls idx die n time} (hs : s.Canon σ) : (s.unitSeries cls idx die n time).Canon σ :=
  canon_seriesWrite hs

theorem canon_allSeries {n time} (hs : s.Canon σ) : (s.allSeries n time).Canon σ := by
  have hu : ∀ (l : List Nat) (m : Nat) (f : Nat → Nat) (t : State), t.Canon σ → (l.foldl (fun s i => s.unitSeries m i (f i) n time) t).Canon σ :=
    fun _ _ _ _ h => canon_foldl h fun _ _ h => canon_unitSeries h
  unfold State.allSeries
  generalize upTo Config.cores = l1
  generalize upTo 512 = l2
  generalize upTo 16 = l3
  generalize upTo Config.stops = l4
  exact canon_unitSeries (canon_unitSeries (hu _ _ _ _ (hu _ _ (fun i => i / 4) _ (hu _ _ (fun i => i) _ (hu _ _ (fun i => i / 32) _
    (canon_foldl hs fun _ _ h => canon_coreSeries h))))))

end Sys2Proof.Machine
end

section
/-! SUPPORT. Canonical form: the operations whose proofs have a case of their own. -/
namespace Sys2Proof.Machine
open Host (Cell)
variable {σ : Stores} {s t : State} {k : Core}

theorem canon_fire {l glob unit die a addr n acc val} (hs : s.Canon σ) : (s.fire l glob unit die a addr n acc val).Canon σ := by
  induction l generalizing s with
  | nil => exact hs
  | cons q l ih =>
    simp only [State.fire]
    exact ih (canon_ite (canon_startStop (canon_traceBy hs)) hs)

theorem canon_firePool {core a off n acc} (hs : s.Canon σ) : (s.firePool core a off n acc).Canon σ := by
  unfold State.firePool
  exact canon_ite hs (canon_fire hs)

theorem canon_fireGlob {a va n pa acc} (hs : s.Canon σ) : (s.fireGlob a va n pa acc).Canon σ := by
  unfold State.fireGlob
  exact canon_ite hs (canon_fire hs)

theorem canon_syncDo {a core off op} (hs : s.Canon σ) : (s.syncDo a core off op).2.Canon σ := by
  cases op with
  | lds => exact canon_firePool (canon_setCore hs (canon_core hs))
  | ldf => exact canon_firePool hs
  | sts x => exact canon_firePool (canon_setCore hs (canonCore_poolWrite (canon_core hs)))
  | feset => exact canon_firePool (canon_setCore hs (canon_core hs))
  | feclr => exact canon_firePool (canon_setCore hs (canon_core hs))
  | _ => exact hs

theorem canon_scanWaiters {core off n} (hs : s.Canon σ) : (s.scanWaiters core off n).Canon σ := by
  induction n generalizing s with
  | zero => exact hs
  | succ n ih =>
    simp only [State.scanWaiters]
    split
    · exact hs
    · split
      · exact hs
      · exact ih (canon_reply (canon_syncDo (canon_setCore hs (canon_core hs))))

theorem canon_walk {va n table} (hs : s.Canon σ) : (s.walk va n table).2.Canon σ := by
  induction n generalizing s table with
  | zero => exact hs
  | succ n ih =>
    simp only [State.walk]
    split
    · exact hs
    · split
      · exact hs
      · have ht : (s.readPhys 0 ((table * 4096 + 8 * (va / 2 ^ (12 + 9 * n) % 512)) / 64 * 64)).2.Canon σ := canon_readPhys hs
        split
        · exact ht
        · split
          · split <;> exact ht
          · split
            · exact ht
            · exact ih ht

theorem canon_pStore_fireMask {a core off mask n} (hs : s.Canon σ) : (State.pStore.fireMask a core off s mask n).Canon σ := by
  induction n with
  | zero => exact hs
  | succ n ih =>
    simp only [State.pStore.fireMask]
    exact canon_ite ih (canon_firePool ih)

theorem canon_gStore_fireMask {a va pa mask n} (hs : s.Canon σ) : (State.gStore.fireMask a va s pa mask n).Canon σ := by
  induction n with
  | zero => exact hs
  | succ n ih =>
    simp only [State.gStore.fireMask]
    exact canon_ite ih (canon_fireGlob ih)

theorem canon_nackWaiters {cls l} (hs : s.Canon σ) : (s.nackWaiters cls l).Canon σ := by
  induction l generalizing s with
  | nil => exact hs
  | cons r l ih =>
    simp only [State.nackWaiters]
    exact ih (canon_ite hs (canon_reply hs))

/-- Every core of the table is replaced by one whose stores are canonical too. -/
theorem poolsWf_map {f : Nat × Core → Nat × Core} {l : Tab Core} (hf : ∀ q, q.2.memWf = true → (f q).2.memWf = true)
    (h : poolsWf l = true) : poolsWf (l.map f) = true := by
  simp only [poolsWf, List.all_map, List.all_eq_true] at h ⊢
  exact fun q hq => hf q (h q hq)

theorem canon_mapCores {f : Nat × Core → Nat × Core} (hs : s.Canon σ) (hf : ∀ q, q.2.memWf = true → (f q).2.memWf = true) :
    StateCells σ s.mem.bytes (s.cores.map f) s.rel.saved s.rel.points s.fabric.peerMem :=
  canon_cores hs fun _ => poolsWf_map hf

theorem canon_withdraw {w tag} (hs : s.Canon σ) : (s.withdraw w tag).Canon σ := canon_mapCores (s := s) hs fun _ h => h

theorem canon_framed (hs : s.Canon σ) (ht : t.Canon σ) : (s.framed t).Canon σ := by
  cases σ with
  | memory => exact ht
  | pools =>
    obtain ⟨h1, h2, h3, -⟩ := hs
    obtain ⟨-, -, -, h4⟩ := ht
    exact ⟨h1, h2, h3, h4⟩

theorem canon_writeFrame {tenant off data mask f} (hs : s.Canon σ) : (s.writeFrame tenant off data mask f).Canon σ := by
  unfold State.writeFrame
  split
  · exact canon_putLine hs
  · exact canon_peerMem (s := s) hs (cellsOk_wrMasked · _ _ _ _)

theorem canon_outsideWrite {r core} (hs : s.Canon σ) : (s.outsideWrite r core).Canon σ := by
  unfold State.outsideWrite
  cases r.op with
  | store => exact canon_ite hs (canon_replyLog hs)
  | atom => exact canon_ite hs (canon_replyLog hs)
  | sts => exact canon_ite hs (canon_replyLog hs)
  | ldf => exact canon_ite hs (canon_replyLog hs)
  | feset => exact canon_ite hs (canon_replyLog hs)
  | feclr => exact canon_ite hs (canon_replyLog hs)
  | _ => exact hs

theorem canon_doVbxdot {rm bx d a b c} (hs : s.Canon σ) : (doVbxdot rm bx d a b c s).Canon σ := by
  unfold doVbxdot
  dsimp only
  exact canon_raise (canon_onRegs hs)

end Sys2Proof.Machine
end

section
/-! SUPPORT. Canonical form: translations, loads and stores of the thread. -/
namespace Sys2Proof.Machine
variable {σ : Stores} {s t : State} {k : Core}

theorem canon_pAtom {a core off win addr op wd b cmp} (hs : s.Canon σ) : (s.pAtom a core off win addr op wd b cmp).Canon σ := by
  unfold State.pAtom
  dsimp only
  split
  · exact canon_logPort hs
  · split
    exacts [canon_consumePoison (canon_logPort hs), canon_firePool (canon_onCore hs (fun _ h => (canonCore_poolWrite h)))]

theorem canon_leafFor_walkIt {stop tenant sup need va} (hs : s.Canon σ) : (State.leafFor.walkIt stop tenant sup need va s).2.Canon σ := by
  unfold State.leafFor.walkIt
  split
  · exact hs
  · split
    exacts [canon_snd ‹_› (canon_walk hs), canon_snd ‹_› (canon_walk hs), canon_ite (canon_snd ‹_› (canon_walk hs))
        (canon_putLine (canon_snd ‹_› (canon_walk hs)))]

theorem canon_leafFor {stop tenant sup need va} (hs : s.Canon σ) : (s.leafFor stop tenant sup need va).2.Canon σ := by
  unfold State.leafFor
  split
  · split
    exacts [hs, canon_leafFor_walkIt hs]
  · exact canon_leafFor_walkIt hs

theorem canon_translate {a need va} (hs : s.Canon σ) : (s.translate a need va).2.Canon σ := by
  unfold State.translate
  dsimp only
  split
  · exact canon_snd ‹_› (canon_leafFor hs)
  next q level t e =>
    have ht : t.Canon σ := canon_snd e (canon_leafFor hs)
    (repeat' split) <;> exact ht

theorem canon_gCheck0 {a need bset rd va mask} (hs : s.Canon σ) : (s.gCheck0 a need bset rd va mask).2.Canon σ := by
  unfold State.gCheck0
  split
  · exact canon_snd ‹_› (canon_translate hs)
  · exact canon_logStop (canon_snd ‹_› (canon_translate hs))
  next x t e =>
    have ht : t.Canon σ := canon_snd e (canon_translate hs)
    dsimp only
    generalize (if bset then _ else _ : Bool) = pass
    split
    · exact canon_logStop ht
    · split
      · exact canon_logStop ht
      · split
        · exact canon_logStop ht
        · exact ht

theorem canon_gCheck {a need bset rd va mask} (hs : s.Canon σ) : (s.gCheck a need bset rd va mask).2.Canon σ := by
  unfold State.gCheck
  split
  exacts [canon_tell (canon_snd ‹_› (canon_gCheck0 hs)), canon_ite (canon_consumePoison (canon_snd ‹_› (canon_gCheck0 hs)))
      (canon_snd ‹_› (canon_gCheck0 hs)), canon_snd ‹_› (canon_gCheck0 hs)]

theorem canon_pLoad {a core off n win addr} (hs : s.Canon σ) : (s.pLoad a core off n win addr).Canon σ := by
  unfold State.pLoad
  split
  · exact canon_logPort hs
  · split
    exacts [canon_consumePoison (canon_logPort hs), canon_firePool hs]

theorem canon_loadLocal {ea n d xs} (hs : s.Canon σ) : (s.loadLocal ea n d xs).Canon σ := by
  unfold State.loadLocal
  dsimp only
  split
  · exact canon_trap hs
  · split
    exacts [canon_reportLd (canon_onRegs (canon_done ‹_› (canon_pLoad hs))), canon_loadFault (canon_fail ‹_› (canon_pLoad hs)), hs]

theorem canon_pStore {a core off win addr data mask} (hs : s.Canon σ) : (s.pStore a core off win addr data mask).Canon σ := by
  unfold State.pStore
  dsimp only
  split
  exacts [canon_logPort hs, canon_pStore_fireMask (canon_onCore hs (fun _ h => (canonCore_poolWrite h)))]

theorem canon_poolStore {off data mask} (hs : s.Canon σ) : (s.poolStore off data mask).Canon σ := by
  unfold State.poolStore
  split
  exacts [canon_done ‹_› (canon_pStore hs), canon_trap (canon_fail ‹_› (canon_pStore hs)), hs]

theorem canon_poolStores {l} (hs : s.Canon σ) : (s.poolStores l).Canon σ := by
  unfold State.poolStores
  split
  exacts [canon_trap hs, canon_foldl hs (fun _ _ h => (canon_poolStore h))]

theorem canon_storeAt {am ea n data mask bset peer} (hs : s.Canon σ) : (s.storeAt am ea n data mask bset peer).Canon σ := by
  unfold State.storeAt
  dsimp only
  split
  · split
    exacts [canon_trap hs, canon_afterClear hs (fun _ h => (canon_poolStores h))]
  · split
    exacts [canon_onCx hs, canon_trap hs]

theorem canon_doSt {sz bset d m} (hs : s.Canon σ) : (doSt sz bset d m s).Canon σ :=
  canon_withOp hs (fun _ => (canon_storeAt hs))

theorem canon_doVst {h bset d m} (hs : s.Canon σ) : (doVst h bset d m s).Canon σ :=
  canon_withOp hs (fun _ => (canon_storeAt hs))

theorem canon_releaseStore {e dropTid} (hs : s.Canon σ) : (s.releaseStore e dropTid).Canon σ := by
  unfold State.releaseStore
  dsimp only
  split
  · exact canon_poolStore hs
  · split
    · exact canon_park hs
    · split
      exacts [canon_onMine_same (canon_sendStore (canon_addPend hs)) (fun _ => rfl) (fun _ => rfl), canon_sendStore (canon_addPend hs)]

theorem canon_doStrel {sz d m} (hs : s.Canon σ) : (doStrel sz d m s).Canon σ :=
  canon_withOp hs (fun _ => (canon_localGate hs (canon_afterDrain hs (fun _ h => (canon_releaseStore h)))))

theorem canon_doVstx {h cm d a b sc disp} (hs : s.Canon σ) : (doVstx h cm d a b sc disp s).Canon σ := by
  unfold doVstx
  split
  · exact canon_trap hs
  · dsimp only
    split
    · split
      exacts [canon_trap hs, canon_foldl hs (fun _ _ h1 => (canon_ite h1 (canon_storeAt h1)))]
    · exact canon_afterClear hs (fun _ h1 => (canon_poolStores h1))

theorem canon_writeXl {tenant x data mask} (hs : s.Canon σ) : (s.writeXl tenant x data mask).Canon σ := by
  unfold State.writeXl
  dsimp only
  split
  · split
    exacts [hs, canon_ite (canon_writeFrame hs) (canon_writeFrame hs)]
  · exact canon_putLine hs

theorem canon_cancelWait {core x} (hs : s.Canon σ) : (s.cancelWait core x).Canon σ := by
  unfold State.cancelWait
  dsimp only
  split
  exacts [canon_ite (canon_setCtx (canon_withdraw hs)) hs, canon_ite (canon_setCtx (canon_onCore_same hs (fun _ => rfl) (fun _ => rfl))) hs, hs]

theorem canon_forwardOne {i} (hs : s.Canon σ) : (s.forwardOne i).Canon σ := by
  unfold State.forwardOne
  split
  · exact hs
  · split
    exacts [hs, canon_ite hs (canon_ite (canon_writeFrame hs) (canon_writeFrame hs))]

theorem canon_gProbe {a va} (hs : s.Canon σ) : (s.gProbe a va).2.Canon σ := by
  unfold State.gProbe
  split <;> exact canon_snd ‹_› (canon_translate hs)

theorem canon_ePoison {a pl} (hs : s.Canon σ) : (s.ePoison a pl).Canon σ := by
  unfold State.ePoison
  split
  · exact canon_ite hs (canon_onCore_same hs (fun _ => rfl) (fun _ => rfl))
  · split
    next x t e => exact canon_snd (t := t) e (canon_gCheck hs)
    next => exact hs
  · exact hs

theorem canon_poisonUnit {a r i} (hs : s.Canon σ) : (s.poisonUnit a r i).Canon σ := by
  unfold State.poisonUnit
  exact canon_ite hs (canon_foldl hs (fun _ _ h => (canon_ePoison h)))

theorem canon_kindPoison {a core k addr n} (hs : s.Canon σ) : (s.kindPoison a core k addr n).Canon σ := by
  unfold State.kindPoison
  split
  exacts [canon_ePoison hs, canon_ite hs (canon_onCore_same hs (fun _ => rfl) (fun _ => rfl))]

theorem canon_tickLatch (hs : s.Canon σ) : (s.tickLatch).Canon σ := by
  unfold State.tickLatch
  have hl : ∀ n time (t : State), t.Canon σ → (t.allSeries n time).Canon σ := fun _ _ _ h => canon_allSeries h
  generalize State.allSeries = f at hl ⊢
  split
  · exact hs
  · exact hl _ _ _ (canon_foldl hs fun _ _ h => canon_latchCore h)

end Sys2Proof.Machine
end

section
/-! SUPPORT. Canonical form: the issue of an instruction, and the instructions of groups, engines, debugging and system software. -/
namespace Sys2Proof.Machine
variable {σ : Stores} {s t : State} {k : Core}

theorem canon_finish (hs : s.Canon σ) : (s.finish).Canon σ := by
  unfold State.finish
  exact canon_ite (canon_onCx hs) hs

theorem canon_popAll {u} (hs : s.Canon σ) : (s.popAll u).Canon σ := by
  unfold State.popAll
  exact canon_ite hs (canon_onCx hs)

theorem canon_unpop {old} (hs : s.Canon σ) : (s.unpop old).Canon σ := by
  unfold State.unpop
  exact canon_ite hs (canon_onCx hs)

theorem canon_noteCapture {i} (hs : s.Canon σ) : (s.noteCapture i).Canon σ := by
  unfold State.noteCapture
  split
  exacts [canon_ite (canon_onCx hs) hs, hs]

theorem canon_pushAll {i r} (hs : s.Canon σ) : (s.pushAll i r).Canon σ := by
  unfold State.pushAll
  exact canon_ite hs (canon_onCx hs)

theorem canon_perform {i body} (hs : s.Canon σ) (hbody : ∀ (t : State), t.Canon σ → (body t).Canon σ) : (s.perform i body).Canon σ := by
  unfold State.perform
  exact canon_ite (canon_unpop (hbody _ (canon_popAll hs))) (canon_ite (canon_noteCapture (canon_pushAll (hbody _ (canon_popAll hs))))
      (canon_onCx (canon_noteCapture (canon_pushAll (hbody _ (canon_popAll hs))))))

theorem canon_issue {i body} (hbody : ∀ (t : State), t.Canon σ → (body t).Canon σ) (hs : s.Canon σ) : (issue i body s).Canon σ := by
  unfold issue
  split
  exacts [canon_finish (canon_perform hs (fun _ h1 => (hbody _ h1))), canon_finish (canon_noteCapture hs), canon_refuse hs]

theorem canon_doYieldT (hs : s.Canon σ) : (doYieldT s).Canon σ :=
  hs

theorem canon_doWait (hs : s.Canon σ) : (doWait s).Canon σ :=
  hs

theorem canon_doDoze {a} (hs : s.Canon σ) : (doDoze a s).Canon σ := by
  unfold doDoze
  exact canon_ite (canon_readClock hs) (canon_onCx (canon_readClock hs))

theorem canon_doNowns {d} (hs : s.Canon σ) : (doNowns d s).Canon σ :=
  canon_wrG (canon_readClock hs)

theorem canon_doExit {a} (hs : s.Canon σ) : (doExit a s).Canon σ := by
  unfold doExit
  exact canon_ite (canon_trap hs) (canon_endThread hs)

theorem canon_doJoin {d a} (hs : s.Canon σ) : (doJoin d a s).Canon σ := by
  unfold doJoin
  dsimp only
  split
  · exact canon_trap hs
  · split
    exacts [canon_ite (canon_trap hs) (canon_park hs), canon_ite (canon_trap hs) (canon_send (canon_onCx (canon_addPend hs)))]

theorem canon_withHandle {gh k} (hs : s.Canon σ) (hk : ∀ (a : HEnt), State.Canon σ (k a)) : (s.withHandle gh k).Canon σ := by
  unfold State.withHandle
  split
  exacts [canon_trap hs, canon_ite (hk _ ) (canon_park hs)]

theorem canon_doLeave {a} (hs : s.Canon σ) : (doLeave a s).Canon σ := by
  unfold doLeave
  exact canon_ite (canon_trap hs) (canon_withHandle hs (fun _ => (canon_send (canon_onCx (canon_addPend hs)))))

theorem canon_doGbar {a} (hs : s.Canon σ) : (doGbar a s).Canon σ := by
  unfold doGbar
  exact canon_withHandle hs (fun _ => (canon_ite (canon_trap hs) (canon_park (canon_arriveAt hs))))

theorem canon_doGarrive {a} (hs : s.Canon σ) : (doGarrive a s).Canon σ := by
  unfold doGarrive
  exact canon_withHandle hs (fun _ => (canon_ite (canon_trap hs) (canon_arriveAt hs)))

theorem canon_doGwait {a} (hs : s.Canon σ) : (doGwait a s).Canon σ := by
  unfold doGwait
  dsimp only
  refine canon_withHandle hs ?_
  intro a
  split
  exacts [canon_trap hs, canon_ite (canon_onCx hs) (canon_park (canon_onCx hs))]

theorem canon_doPhase {a} (hs : s.Canon σ) : (doPhase a s).Canon σ := by
  unfold doPhase
  exact canon_withHandle hs (fun _ => (canon_ite (canon_trap hs) (canon_afterDrain hs (fun _ h => (canon_phaseArrive h)))))

theorem canon_doRep {n1 st a} (hs : s.Canon σ) : (doRep n1 st a s).Canon σ :=
  canon_repGo hs

theorem canon_doRepwait (hs : s.Canon σ) : (doRepwait s).Canon σ := by
  unfold doRepwait
  exact canon_ite (canon_trap hs) (canon_ite (canon_park hs) hs)

theorem canon_doCpyw {a b} (hs : s.Canon σ) : (doCpyw a b s).Canon σ :=
  canon_cpywGo hs

theorem canon_doCpyt {d a b} (hs : s.Canon σ) : (doCpyt d a b s).Canon σ := by
  unfold doCpyt
  dsimp only
  split
  exacts [canon_handleFault hs, canon_ite (canon_acquire (canon_wrG hs)) (canon_wrG hs)]

theorem canon_doCbset {d a b} (hs : s.Canon σ) : (doCbset d a b s).Canon σ := by
  unfold doCbset
  exact canon_ite (canon_trap hs) (canon_ite (canon_trap hs) (canon_onMine_same hs (fun _ => rfl) (fun _ => rfl)))

theorem canon_doCbrsv {d a} (hs : s.Canon σ) : (doCbrsv d a s).Canon σ :=
  canon_cbrsvGo hs

theorem canon_doCbcmt {a} (hs : s.Canon σ) : (doCbcmt a s).Canon σ := by
  unfold doCbcmt
  exact canon_withCb hs (fun _ => (canon_ite (canon_trap hs) (canon_afterDrain hs (fun _ h => (canon_cbcmtGo h)))))

theorem canon_doCbacq {d a} (hs : s.Canon σ) : (doCbacq d a s).Canon σ :=
  canon_cbacqGo hs

theorem canon_doCbrel {a} (hs : s.Canon σ) : (doCbrel a s).Canon σ := by
  unfold doCbrel
  exact canon_withCb hs (fun _ => (canon_ite (canon_trap hs) (canon_ite (canon_send (canon_onMine_same hs (fun _ => rfl) (fun _ => rfl)))
      (canon_onMine_same hs (fun _ => rfl) (fun _ => rfl)))))

theorem canon_doGpwait {sub d a b} (hs : s.Canon σ) : (doGpwait sub d a b s).Canon σ :=
  canon_gpwaitGo hs

theorem canon_doOclaim {d a} (hs : s.Canon σ) : (doOclaim d a s).Canon σ := by
  unfold doOclaim
  exact canon_ite (canon_trap hs) (canon_park (canon_onMine_same hs (fun _ => rfl) (fun _ => rfl)))

theorem canon_doOrel {a} (hs : s.Canon σ) : (doOrel a s).Canon σ := by
  unfold doOrel
  exact canon_ite (canon_trap hs) (canon_foldl hs (fun _ _ h => (canon_ite (canon_freeSlot h) h)))

theorem canon_doOfill {d a b} (hs : s.Canon σ) : (doOfill d a b s).Canon σ := by
  unfold doOfill
  exact canon_ite (canon_trap hs) (canon_ofillGo hs)

theorem canon_doAclr {d} (hs : s.Canon σ) : (doAclr d s).Canon σ :=
  canon_withTile hs (canon_onMine hs (fun _ h => (canonCore_accPut h)))

theorem canon_withUnits {am l} {k : State} (hs : s.Canon σ) (hk : k.Canon σ) : (s.withUnits am l k).Canon σ := by
  unfold State.withUnits
  split
  · exact canon_trap hs
  · split
    exacts [canon_trap hs, hk]

theorem canon_doTdset {tid a} (hs : s.Canon σ) : (doTdset tid a s).Canon σ :=
  canon_afterDrain hs (fun _ h => (canon_releaseStore h))

theorem canon_doPput {h f a b disp} (hs : s.Canon σ) : (doPput h f a b disp s).Canon σ := by
  unfold doPput
  split <;> exact canon_withAddr hs (fun _ => (canon_storeAt hs))

theorem canon_doFbar {a b} (hs : s.Canon σ) : (doFbar a b s).Canon σ := by
  unfold doFbar
  exact canon_ite (canon_trap hs) (canon_afterDrain hs (fun _ h => (canon_fbarArrive h)))

theorem canon_doTrap {code} (hs : s.Canon σ) : (doTrap code s).Canon σ :=
  canon_trap hs

theorem canon_eretNext (hs : s.Canon σ) : (s.eretNext).Canon σ :=
  canon_onCx hs

theorem canon_doEretNext (hs : s.Canon σ) : (doEretNext s).Canon σ :=
  canon_eretNext hs

theorem canon_doCsrr {d r} (hs : s.Canon σ) : (doCsrr d r s).Canon σ :=
  canon_wrG hs

theorem canon_doCsrw {r a} (hs : s.Canon σ) : (doCsrw r a s).Canon σ :=
  canon_onMine_same hs (fun _ => rfl) (fun _ => rfl)

theorem canon_tlbinv {scope a b} (hs : s.Canon σ) : (s.tlbinv scope a b).Canon σ := by
  unfold State.tlbinv
  exact canon_afterDrain hs fun _ h => canon_tlbinvGo h

theorem canon_doTlbinvPage {a b} (hs : s.Canon σ) : (doTlbinvPage a b s).Canon σ :=
  canon_tlbinv hs

theorem canon_doTlbinvTenant {a b} (hs : s.Canon σ) : (doTlbinvTenant a b s).Canon σ :=
  canon_tlbinv hs

theorem canon_doTlbinvAll {a b} (hs : s.Canon σ) : (doTlbinvAll a b s).Canon σ :=
  canon_tlbinv hs

theorem canon_withJnl {a k} (hs : s.Canon σ) (hk : ∀ (a : ℕ) (a_1 : JEnt), State.Canon σ (k a a_1)) : (s.withJnl a k).Canon σ := by
  unfold State.withJnl
  exact canon_ite (canon_trap hs) (hk _ _ )

theorem canon_doJnlrd {word d a} (hs : s.Canon σ) : (doJnlrd word d a s).Canon σ :=
  canon_withJnl hs (fun _ _ => (canon_wrG hs))

theorem canon_doJnlclr {a} (hs : s.Canon σ) : (doJnlclr a s).Canon σ := by
  unfold doJnlclr
  exact canon_withJnl hs (fun _ _ => (canon_ite (canon_trap hs) (canon_onMine_same hs (fun _ => rfl) (fun _ => rfl))))

theorem canon_doJnlclrResend {a} (hs : s.Canon σ) : (doJnlclrResend a s).Canon σ := by
  unfold doJnlclrResend
  exact canon_withJnl hs (fun _ _ => (canon_ite (canon_trap hs) (canon_sendStore hs)))

theorem canon_doFencei (hs : s.Canon σ) : (doFencei s).Canon σ :=
  canon_afterDrain hs (fun _ h => (canon_fenceiGo h))

theorem canon_withPtr {p align} {k : State} (hs : s.Canon σ) (hk : k.Canon σ) : (s.withPtr p align k).Canon σ := by
  unfold State.withPtr
  exact canon_ite (canon_trap hs) (canon_ite (canon_trap hs) hk)

theorem canon_edge {typ id} (hs : s.Canon σ) : (s.edge typ id).Canon σ := by
  unfold State.edge
  exact canon_ite (canon_haltCtx (canon_onCx (canon_ite (canon_traceCtx hs) hs))) (canon_ite (canon_traceCtx hs) hs)

theorem canon_doRenter {id} (hs : s.Canon σ) : (doRenter id s).Canon σ :=
  canon_edge (canon_onCx hs)

theorem canon_doRleave (hs : s.Canon σ) : (doRleave s).Canon σ :=
  canon_edge (canon_onCx hs)

theorem canon_doTrace {tag a} (hs : s.Canon σ) : (doTrace tag a s).Canon σ :=
  canon_traceCtx hs

theorem canon_doBrk {code scope} (hs : s.Canon σ) : (doBrk code scope s).Canon σ := by
  unfold doBrk
  exact canon_ite (canon_trap hs) (canon_startStop (canon_haltCtx (canon_onCx (canon_traceCtx hs))))

theorem canon_withUnit {am ea k} (hs : s.Canon σ) (hk : ∀ (a : Place), State.Canon σ (k a)) : (s.withUnit am ea k).Canon σ := by
  unfold State.withUnit
  exact canon_ite (canon_trap hs) (canon_ite (canon_trap hs) (hk _ ))

theorem canon_doCntrd {lat n d} (hs : s.Canon σ) : (doCntrd lat n d s).Canon σ :=
  canon_used (canon_longValue hs)

theorem canon_clearFrame {tenant f} (hs : s.Canon σ) : (s.clearFrame tenant f).Canon σ := by
  unfold State.clearFrame
  exact canon_foldl hs (fun _ _ h => (canon_putLine h))

theorem canon_peerArrive {g rank} (hs : s.Canon σ) : (s.peerArrive g rank).Canon σ := by
  unfold State.peerArrive
  exact canon_ite hs (canon_setFbar hs)

theorem canon_probe {g rank held} (hs : s.Canon σ) : (s.probe g rank held).Canon σ := by
  unfold State.probe
  refine canon_tell ?_
  dsimp only
  split <;> exact canon_ite hs (canon_setFbar hs)

theorem canon_logFrame {f} (hs : s.Canon σ) : (s.logFrame f).Canon σ := by
  unfold State.logFrame
  exact canon_foldl hs (fun _ _ h => (canon_undoLog h))

theorem canon_flushPorts (hs : s.Canon σ) : (s.flushPorts).Canon σ := by
  unfold State.flushPorts
  exact canon_foldl hs (fun _ _ h => (canon_foldl h (fun _ _ h1 => (canon_tell h1))))

theorem canon_stepEng {core eng} (hs : s.Canon σ) : (s.stepEng core eng).Canon σ := by
  unfold State.stepEng
  exact canon_ite hs hs

theorem canon_arrayFault {core quadrant} (hs : s.Canon σ) : (s.arrayFault core quadrant).Canon σ := by
  unfold State.arrayFault
  split
  exacts [canon_ite hs (canon_onCard (canon_dropEbuf hs)), hs]

theorem canon_replay {core} (hs : s.Canon σ) : (s.replay core).Canon σ := by
  unfold State.replay
  exact canon_foldl hs (fun _ _ h => (canon_xTake h))

theorem canon_transient {unit kind} (hs : s.Canon σ) : (s.transient unit kind).Canon σ := by
  unfold State.transient
  exact canon_ite (canon_onCore_same hs (fun _ => rfl) (fun _ => rfl)) hs

theorem canon_pairCheck {core} (hs : s.Canon σ) : (s.pairCheck core).Canon σ :=
  canon_mcheck hs

theorem canon_setTick {k} (hs : s.Canon σ) : (s.setTick k).Canon σ := by
  unfold State.setTick
  exact canon_ite hs hs

theorem canon_tellRead {a data} (hs : s.Canon σ) : (s.tellRead a data).Canon σ := by
  unfold State.tellRead
  split <;> exact canon_tell hs

theorem canon_physFault {a kind addr} (hs : s.Canon σ) : (s.physFault a kind addr).Canon σ := by
  unfold State.physFault
  split <;> exact canon_tell hs

theorem canon_physRefuse {a addr pa kind} (hs : s.Canon σ) : (s.physRefuse a addr pa kind).Canon σ := by
  unfold State.physRefuse
  refine canon_physFault ?_
  split
  exacts [canon_logStop hs, hs]

theorem canon_onBoot {f} (hs : s.Canon σ) : (s.onBoot f).Canon σ :=
  hs

theorem canon_thermal {die temp} (hs : s.Canon σ) : (s.thermal die temp).Canon σ := by
  unfold State.thermal
  exact canon_ite (canon_tell (canon_startStop (canon_onBoot (canon_tell hs)))) (canon_onBoot (canon_tell hs))

theorem canon_startHart {hart} (hs : s.Canon σ) : (s.startHart hart).Canon σ := by
  unfold State.startHart
  exact canon_ite (canon_onBoot hs) hs

theorem canon_atHalf {h} (hs : s.Canon σ) : (s.atHalf h).Canon σ :=
  canon_onCx hs

theorem canon_refusePair {h v} (hs : s.Canon σ) : (s.refusePair h v).Canon σ := by
  unfold State.refusePair
  dsimp only
  split
  exacts [canon_deliver (canon_atHalf (canon_refuse (canon_atHalf hs))), canon_atHalf (canon_refuse (canon_atHalf hs))]

theorem canon_afterHalf {h k} {old : State} (hs : s.Canon σ) (hold : old.Canon σ) (hk : ∀ (t : State), t.Canon σ → (k t).Canon σ) :
    (s.afterHalf old h k).Canon σ := by
  unfold State.afterHalf
  split
  · exact hk _ hs
  · exact canon_deliver (canon_atHalf hold)
  · exact canon_park (canon_atHalf hold)
  · split
    · exact canon_atHalf hs
    · split
      exacts [canon_savePaged (canon_onCx (canon_atHalf hold)), hs]

theorem canon_finishPair {parkedIn} (hs : s.Canon σ) : (s.finishPair parkedIn).Canon σ :=
  canon_finish (canon_onCx hs)

theorem canon_dozeWake {core x} (hs : s.Canon σ) : (s.dozeWake core x).Canon σ := by
  unfold State.dozeWake
  split
  exacts [canon_onCtx (canon_readClock hs), hs]

theorem canon_reuseTurn {core x} (hs : s.Canon σ) : (s.reuseTurn core x).Canon σ :=
  canon_onCtx hs

theorem canon_cardRefetch {lvl unit} (hs : s.Canon σ) : (s.cardRefetch lvl unit).Canon σ := by
  unfold State.cardRefetch
  split
  exacts [hs, canon_onCard hs]

theorem canon_flitReplay {link ok} (hs : s.Canon σ) : (s.flitReplay link ok).Canon σ := by
  unfold State.flitReplay
  exact canon_ite hs (canon_mcheck hs)

theorem canon_replicaAck {set frame} (hs : s.Canon σ) : (s.replicaAck set frame).Canon σ := by
  unfold State.replicaAck
  split <;> exact hs

theorem canon_bootApply {c} (hs : s.Canon σ) : (s.bootApply c).Canon σ :=
  canon_onSched (canon_onBoot hs)

theorem canon_etherIn {port frame} (hs : s.Canon σ) : (s.etherIn port frame).Canon σ := by
  unfold State.etherIn
  exact canon_ite (canon_tell hs) (canon_onBoot (canon_used hs))

end Sys2Proof.Machine
end

section
/-! SUPPORT. Canonical form: synchronising accesses, loads of global memory, fetches and the entries that an instruction names. -/
namespace Sys2Proof.Machine
variable {σ : Stores} {s t : State} {k : Core}

theorem canon_pSync {r core off win addr} (hs : s.Canon σ) : (s.pSync r core off win addr).Canon σ := by
  unfold State.pSync
  split
  · exact canon_reply (canon_logPort hs)
  · refine canon_ite (canon_reply (canon_consumePoison (canon_logPort hs))) (canon_ite ?_ (canon_ite ?_ (canon_send hs)))
    · exact canon_scanWaiters (canon_reply (canon_syncDo hs))
    · exact canon_setCore hs (canon_core hs)

theorem canon_gLoad {a need va n} (hs : s.Canon σ) : (s.gLoad a need va n).Canon σ := by
  unfold State.gLoad
  dsimp only
  have hc := canon_gCheck (a := a) (need := need) (bset := false) (rd := true) (va := va) (mask := byteMask (fld va 5 0) n) hs
  split
  · next e => exact canon_snd e hc
  · next e => exact canon_fireGlob (canon_readXl (canon_snd e hc))

theorem canon_fetch {core x pc} (hs : s.Canon σ) : (s.fetch core x pc).2.Canon σ := by
  unfold State.fetch
  dsimp only
  split
  · exact hs
  · split
    · next e =>
      have ht := canon_done e (canon_gLoad hs)
      split
      · exact ht
      · split
        · exact ht
        · exact canon_onCore_same ht (fun _ => rfl) (fun _ => rfl)
    · next e => exact canon_fail e (canon_gLoad hs)
    · exact hs

theorem canon_enterAt {core x pc} (hs : s.Canon σ) : (s.enterAt core x pc).2.Canon σ := by
  unfold State.enterAt
  split
  · next e => exact canon_snd e (canon_fetch hs)
  · exact canon_fetch hs

theorem canon_branch {target eff sound} (hs : s.Canon σ) (heff : ∀ t : State, t.Canon σ → (eff t).Canon σ) :
    (s.branch target eff sound).Canon σ := by
  unfold State.branch
  refine canon_ite (canon_trap hs) ?_
  have he := canon_enterAt (core := s.me.1) (x := s.me.2) (pc := target) hs
  split
  · next e => exact canon_ite (canon_onCx (heff _ (canon_snd e he))) (canon_trapInfo (canon_snd e he))
  · next e => exact canon_trapInfo (canon_snd e he)
  · next e => exact canon_fetchAbsent (canon_snd e he)
  · next e => exact canon_parityStop (canon_snd e he)

/-- What a sequence of pool reads answers keeps the canonical form. -/
def CanonLanes (σ : Stores) : Except (RFault × State) (Line × State) → Prop
  | .ok (_, t) | .error (_, t) => t.Canon σ

theorem canon_readLanes {l : List (Nat × Word)} (hs : s.Canon σ) : CanonLanes σ (s.readLanes l) := by
  induction l generalizing s with
  | nil => exact hs
  | cons q l ih =>
    obtain ⟨i, ea⟩ := q
    unfold State.readLanes
    dsimp only
    split
    · next e =>
      have hr := ih (canon_done e (canon_pLoad hs))
      split
      · next e' => rw [e'] at hr; exact hr
      · next e' => rw [e'] at hr; exact hr
    · next e => exact canon_fail e (canon_pLoad hs)
    · exact hs

theorem canon_withVol {tid} {k : Line → State → State} (hs : s.Canon σ) (hk : ∀ e t, t.Canon σ → (k e t).Canon σ) :
    (s.withVol tid k).Canon σ := by
  unfold State.withVol
  dsimp only
  split
  · exact canon_ite (hk _ _ hs) (canon_trap hs)
  · split
    · exact canon_trap hs
    · split
      · next e =>
        refine canon_ite (hk _ _ ?_) (canon_trap ?_) <;>
          exact canon_onMine_same (canon_done e (canon_gLoad hs)) (fun _ => rfl) (fun _ => rfl)
      · next e =>
        have ht := canon_fail e (canon_gLoad hs)
        exact canon_ite (canon_savePaged ht) (canon_loadFault ht)
      · exact hs

theorem canon_withVoxel {tid a} {k : Line → Word → State → State} (hs : s.Canon σ)
    (hk : ∀ e c t, t.Canon σ → (k e c t).Canon σ) : (s.withVoxel tid a k).Canon σ := by
  unfold State.withVoxel
  exact canon_withVol hs fun e t ht => canon_ite (canon_trap ht) (hk _ _ _ ht)

end Sys2Proof.Machine
end

section
/-! SUPPORT. Canonical form: requests, long results and the instructions that send them. -/
namespace Sys2Proof.Machine
variable {σ : Stores} {s t : State} {k : Core}

theorem canon_sendReq {r} (hs : s.Canon σ) : (s.sendReq r).Canon σ := by
  unfold State.sendReq
  split
  · split
    exacts [canon_reply (canon_done ‹_› (canon_pAtom hs)), canon_reply (canon_fail ‹_› (canon_pAtom hs)), hs]
  · exact canon_pSync hs
  · exact canon_pSync hs
  · exact canon_pSync hs
  · exact canon_pSync hs
  · exact canon_pSync hs
  · exact canon_send hs

theorem canon_startLong {p} (hs : s.Canon σ) : (s.startLong p).Canon σ := by
  unfold State.startLong
  exact canon_foldl (canon_addPend hs) (fun _ _ h => (canon_sendReq h))

theorem canon_long1 {d place op} (hs : s.Canon σ) : (s.long1 d place op).Canon σ :=
  canon_startLong hs

theorem canon_doChkptr {d a} (hs : s.Canon σ) : (doChkptr d a s).Canon σ := by
  unfold doChkptr
  exact canon_ite (canon_longValue hs) (canon_long1 hs)

theorem canon_doBr {h x disp} (hs : s.Canon σ) : (doBr h x disp s).Canon σ := by
  unfold doBr
  exact canon_ite (canon_branch hs (fun _ h1 => (canon_reportBr h1))) (canon_reportBr hs)

theorem canon_branchReg {target eff} (hs : s.Canon σ) (heff : ∀ (t : State), t.Canon σ → (eff t).Canon σ) : (s.branchReg target eff).Canon σ :=
  canon_branch hs (fun _ h => (heff _ h))

theorem canon_doBri {a} (hs : s.Canon σ) : (doBri a s).Canon σ :=
  canon_branchReg hs (fun _ h1 => (canon_brTrace h1))

theorem canon_doCall {disp} (hs : s.Canon σ) : (doCall disp s).Canon σ :=
  canon_branch hs (fun _ h => (canon_brTrace (canon_link h)))

theorem canon_doCalli {a} (hs : s.Canon σ) : (doCalli a s).Canon σ :=
  canon_branchReg hs (fun _ h1 => (canon_brTrace (canon_link h1)))

theorem canon_doRet {a} (hs : s.Canon σ) : (doRet a s).Canon σ :=
  canon_branchReg hs (fun _ h1 => (canon_brTrace h1))

theorem canon_doLoop {a b x disp} (hs : s.Canon σ) : (doLoop a b x disp s).Canon σ := by
  unfold doLoop
  exact canon_ite (canon_ite (canon_wrG hs) (canon_xReport (canon_wrG hs))) (canon_branch hs (fun _ h => (canon_wrG h)))

theorem canon_readX {n d sh} (hs : s.Canon σ) : (s.readX n d sh).Canon σ := by
  unfold State.readX
  dsimp only
  split
  · exact canon_longValue hs
  · split
    · split
      exacts [canon_longValue (canon_onMine_same hs (fun _ => rfl) (fun _ => rfl)), canon_startLong hs]
    · exact canon_xAlloc (canon_addPend hs)

theorem canon_doXrd {hdr d a} (hs : s.Canon σ) : (doXrd hdr d a s).Canon σ :=
  canon_readX hs

theorem canon_doXsel {d b x} (hs : s.Canon σ) : (doXsel d b x s).Canon σ :=
  canon_reportX (canon_readX hs)

theorem canon_doXunr {d b x} (hs : s.Canon σ) : (doXunr d b x s).Canon σ :=
  canon_reportX (canon_readX hs)

theorem canon_doXpfd {d a b x} (hs : s.Canon σ) : (doXpfd d a b x s).Canon σ :=
  canon_reportX (canon_readX hs)

theorem canon_loadAt {am ea n d nc acq xs} (hs : s.Canon σ) : (s.loadAt am ea n d nc acq xs).Canon σ := by
  unfold State.loadAt
  exact canon_ite (canon_ite (canon_snapEmpty (canon_loadLocal hs)) (canon_loadLocal hs))
      (canon_ite (canon_longValue (canon_ite (canon_onMine_same hs (fun _ => rfl) (fun _ => rfl)) hs))
      (canon_startLong (canon_ite (canon_onMine_same hs (fun _ => rfl) (fun _ => rfl)) hs)))

theorem canon_doLd {sz nc x d m} (hs : s.Canon σ) : (doLd sz nc x d m s).Canon σ :=
  canon_withOp hs (fun _ => (canon_loadAt hs))

theorem canon_doVld {h nc x d m} (hs : s.Canon σ) : (doVld h nc x d m s).Canon σ :=
  canon_withOp hs (fun _ => (canon_loadAt hs))

theorem canon_sendSync {d r limited acq} (hs : s.Canon σ) : (s.sendSync d r limited acq).Canon σ :=
  canon_sendReq (canon_park (canon_onCx hs))

theorem canon_syncAt {m op d} (hs : s.Canon σ) : (s.syncAt m op d).Canon σ :=
  canon_withOp hs (fun _ => (canon_localGate hs (canon_afterClear (canon_onCx hs) (fun _ h => (canon_sendSync h)))))

theorem canon_doLds {d m} (hs : s.Canon σ) : (doLds d m s).Canon σ :=
  canon_syncAt hs

theorem canon_doSts {d m} (hs : s.Canon σ) : (doSts d m s).Canon σ :=
  canon_syncAt hs

theorem canon_doLdf {d m} (hs : s.Canon σ) : (doLdf d m s).Canon σ :=
  canon_syncAt hs

theorem canon_feAt {m op} (hs : s.Canon σ) : (s.feAt m op).Canon σ :=
  canon_withOp hs (fun _ => (canon_localGate hs (canon_afterClear hs (fun _ h => (canon_startLong h)))))

theorem canon_doFeset {m} (hs : s.Canon σ) : (doFeset m s).Canon σ :=
  canon_feAt hs

theorem canon_doFeclr {m} (hs : s.Canon σ) : (doFeclr m s).Canon σ :=
  canon_feAt hs

theorem canon_doLdacq {sz d m} (hs : s.Canon σ) : (doLdacq sz d m s).Canon σ :=
  canon_withOp hs (fun _ => (canon_loadAt hs))

theorem canon_doAtom {wd op am d a b disp} (hs : s.Canon σ) : (doAtom wd op am d a b disp s).Canon σ :=
  canon_withAddr hs (fun _ => (canon_localGate hs (canon_afterClear hs (fun _ h => (canon_startLong h)))))

theorem canon_voxelRead {tid a b disp d n} (hs : s.Canon σ) : (s.voxelRead tid a b disp d n).Canon σ := by
  unfold State.voxelRead
  exact canon_withVoxel hs (fun _ _ _ h => (canon_ite (canon_startLong h) (canon_longValue h)))

theorem canon_doCld {tid d a b disp} (hs : s.Canon σ) : (doCld tid d a b disp s).Canon σ :=
  canon_voxelRead hs

theorem canon_voxelWrite {tid a b disp data n} (hs : s.Canon σ) : (s.voxelWrite tid a b disp data n).Canon σ := by
  unfold State.voxelWrite
  exact canon_withVoxel hs (fun _ _ _ h => (canon_ite (canon_trap h) (canon_park (canon_send (canon_onCx h)))))

theorem canon_doCst {tid d a b disp} (hs : s.Canon σ) : (doCst tid d a b disp s).Canon σ :=
  canon_voxelWrite hs

theorem canon_doCvld {tid d a b disp} (hs : s.Canon σ) : (doCvld tid d a b disp s).Canon σ :=
  canon_voxelRead hs

theorem canon_doCvst {tid d a b disp} (hs : s.Canon σ) : (doCvst tid d a b disp s).Canon σ :=
  canon_voxelWrite hs

theorem canon_doCprobe {tid d a} (hs : s.Canon σ) : (doCprobe tid d a s).Canon σ := by
  unfold doCprobe
  exact canon_withVoxel hs (fun _ _ _ h => (canon_ite (canon_startLong h) (canon_longValue h)))

theorem canon_doCclr {tid a} (hs : s.Canon σ) : (doCclr tid a s).Canon σ := by
  unfold doCclr
  exact canon_withVoxel hs (fun _ _ _ h => (canon_ite h (canon_park (canon_send (canon_onCx h)))))

theorem canon_doCtileFind {tid d a} (hs : s.Canon σ) : (doCtileFind tid d a s).Canon σ := by
  unfold doCtileFind
  exact canon_withVoxel hs (fun _ _ _ h => (canon_ite (canon_sendSync h) (canon_wrG h)))

theorem canon_doCtileDetach {tid d a} (hs : s.Canon σ) : (doCtileDetach tid d a s).Canon σ := by
  unfold doCtileDetach
  exact canon_withVoxel hs (fun _ _ _ h => (canon_ite (canon_sendSync h) (canon_wrG h)))

theorem canon_pushBlock {tid a what low} (hs : s.Canon σ) : (s.pushBlock tid a what low).Canon σ := by
  unfold State.pushBlock
  exact canon_withVol hs (fun _ _ h => (canon_ite (canon_trap h) (canon_sendSync h)))

theorem canon_doCtilePtile {tid a} (hs : s.Canon σ) : (doCtilePtile tid a s).Canon σ :=
  canon_pushBlock hs

theorem canon_doCtilePnode {tid a} (hs : s.Canon σ) : (doCtilePnode tid a s).Canon σ :=
  canon_pushBlock hs

theorem canon_doClbinv {tid} (hs : s.Canon σ) : (doClbinv tid s).Canon σ := by
  unfold doClbinv
  exact canon_withVol hs (fun _ _ h => (canon_ite (canon_longValue h) (canon_sendAll (canon_addPend h))))

theorem canon_sendKick {d op} (hs : s.Canon σ) : (s.sendKick d op).Canon σ := by
  unfold State.sendKick
  split
  exacts [canon_long1 (canon_onMine_same hs (fun _ => rfl) (fun _ => rfl)), canon_long1 hs]

theorem canon_sarmSend {v st} (hs : s.Canon σ) : (s.sarmSend v st).Canon σ :=
  canon_sendKick (canon_onCx hs)

theorem canon_kick {op d bits} (hs : s.Canon σ) : (s.kick op d bits).Canon σ :=
  canon_afterKicks hs (fun _ h => (canon_sendKick h))

theorem canon_cpyGo {dk sk h a b n} (hs : s.Canon σ) : (s.cpyGo dk sk h a b n).Canon σ := by
  unfold State.cpyGo
  dsimp only
  split
  · exact canon_park hs
  · split
    exacts [canon_handleFault hs, canon_kick (canon_onMine_same hs (fun _ => rfl) (fun _ => rfl))]

theorem canon_eLoad {a pl n} (hs : s.Canon σ) : (s.eLoad a pl n).Canon σ := by
  unfold State.eLoad
  split
  exacts [canon_pLoad hs, canon_gLoad hs, trivial]

theorem canon_cclrGot {r found} (hs : s.Canon σ) : (s.cclrGot r found).Canon σ := by
  unfold State.cclrGot
  exact canon_ite hs (canon_afterDrain hs (fun _ h => (canon_sendSync h)))

theorem canon_fetchLine {core x} (hs : s.Canon σ) : (s.fetchLine core x).Canon σ := by
  unfold State.fetchLine
  dsimp only
  split
  · exact hs
  · split
    exacts [canon_snd ‹_› (canon_fetch (canon_acting hs)), canon_trapInfo (canon_snd ‹_› (canon_fetch (canon_acting hs))), canon_fetchAbsent
        (canon_snd ‹_› (canon_fetch (canon_acting hs))), canon_parityStop (canon_snd ‹_› (canon_fetch (canon_acting hs)))]

theorem canon_kindLoad {a core k addr n} (hs : s.Canon σ) : (s.kindLoad a core k addr n).Canon σ := by
  unfold State.kindLoad
  split
  · exact canon_eLoad hs
  · dsimp only
    split
    exacts [canon_consumePoison hs, hs]

theorem canon_wLoad {a va k} (hs : s.Canon σ) (hk : ∀ (a : Word) (t : State), t.Canon σ → (k a t).Canon σ) : (s.wLoad a va k).Canon σ := by
  unfold State.wLoad
  split
  exacts [hk _ _ (canon_done ‹_› (canon_gLoad hs)), canon_gLoad hs]

theorem canon_onPool {a va k} (hs : s.Canon σ) (hk : ∀ (t : State), t.Canon σ → (k t).Canon σ) : (s.onPool a va k).Canon σ := by
  unfold State.onPool
  split
  · split
    exacts [hk _ (canon_snd ‹_› (canon_translate hs)), canon_logStop (canon_snd ‹_› (canon_translate hs))]
  · exact canon_wLoad hs (fun _ _ h1 => (hk _ h1))

theorem canon_load16 {a va k} (hs : s.Canon σ) (hk : ∀ (a a_1 : Word) (t : State), t.Canon σ → (k a a_1 t).Canon σ) : (s.load16 a va k).Canon σ := by
  unfold State.load16
  split
  exacts [hk _ _ _ (canon_done ‹_› (canon_gLoad hs)), canon_gLoad hs]

theorem canon_elemLoad {core a sb va n k} (hs : s.Canon σ) (hk : ∀ (a : ℕ) (t : State), t.Canon σ → (k a t).Canon σ) :
    (s.elemLoad core a sb va n k).Canon σ := by
  unfold State.elemLoad
  dsimp only
  split
  · exact hk _ _ hs
  · split
    · exact hk _ _ hs
    · split
      exacts [hk _ _ (canon_ite (canon_done ‹_› (canon_gLoad hs)) (canon_onCore_same (canon_done ‹_› (canon_gLoad hs)) (fun _ => rfl)
          (fun _ => rfl))), canon_gLoad hs]

theorem canon_replayAll {core x} (hs : s.Canon σ) : (s.replayAll core x).Canon σ := by
  unfold State.replayAll
  exact canon_foldl (canon_setCtx hs) (fun _ _ h => (canon_sendReq h))

theorem canon_ginfoFar {d gh rank} (hs : s.Canon σ) : (s.ginfoFar d gh rank).Canon σ :=
  canon_withHandle hs (fun _ => (canon_long1 hs))

theorem canon_doGinfoSize {d a} (hs : s.Canon σ) : (doGinfoSize d a s).Canon σ := by
  unfold doGinfoSize
  exact canon_ite (canon_wrG hs) (canon_ginfoFar hs)

theorem canon_doGinfoRank {d a} (hs : s.Canon σ) : (doGinfoRank d a s).Canon σ := by
  unfold doGinfoRank
  exact canon_ite (canon_wrG hs) (canon_ginfoFar hs)

theorem canon_doCpy {dk sk h a b c} (hs : s.Canon σ) : (doCpy dk sk h a b c s).Canon σ := by
  unfold doCpy
  dsimp only
  split
  · exact canon_trap hs
  · split
    · exact canon_trap hs
    · split
      · exact canon_trap hs
      · split
        exacts [canon_trap hs, canon_ite (canon_trap hs) (canon_cpyGo hs)]

theorem canon_doDeal {die d a b c total} (hs : s.Canon σ) : (doDeal die d a b c total s).Canon σ := by
  unfold doDeal
  exact canon_ite (canon_trap hs) (canon_ite (canon_trap hs) (canon_ite (canon_trap hs) (canon_ite (canon_trap hs) (canon_kick hs))))

theorem canon_doSarm {wr n2 n1 n0 tid d b c} (hs : s.Canon σ) : (doSarm wr n2 n1 n0 tid d b c s).Canon σ := by
  unfold doSarm
  exact canon_ite (canon_trap hs) (canon_ite (canon_trap hs) (canon_ite (canon_trap hs) (canon_afterKicks hs (fun _ h => (canon_sarmSend h)))))

theorem canon_doSdrop {a} (hs : s.Canon σ) : (doSdrop a s).Canon σ := by
  unfold doSdrop
  split
  · exact canon_xferFault (canon_onCx hs)
  · exact hs
  · split
    exacts [canon_xferFault (canon_onCx hs), canon_ite (canon_sendKick (canon_onCx hs)) (canon_onRegs (canon_onCx hs))]

theorem canon_gather {put i64 pm lm cmb tid d a b c} (hs : s.Canon σ) : (s.gather put i64 pm lm cmb tid d a b c).Canon σ := by
  unfold State.gather
  exact canon_ite (canon_trap hs) (canon_ite (canon_trap hs) (canon_ite (canon_trap hs)
      (canon_ite (canon_trap hs) (canon_ite (canon_trap hs) (canon_kick hs)))))

theorem canon_doGet {i64 pm lm tid d a b c} (hs : s.Canon σ) : (doGet i64 pm lm tid d a b c s).Canon σ :=
  canon_gather hs

theorem canon_doPut {i64 pm lm cmb tid d a b c} (hs : s.Canon σ) : (doPut i64 pm lm cmb tid d a b c s).Canon σ :=
  canon_gather hs

theorem canon_doCard {lvl a} (hs : s.Canon σ) : (doCard lvl a s).Canon σ := by
  unfold doCard
  dsimp only
  split
  exacts [canon_trap hs, canon_kick hs]

theorem canon_doCwait {d a} (hs : s.Canon σ) : (doCwait d a s).Canon σ := by
  unfold doCwait
  exact canon_ite (canon_trap hs) (canon_ite (canon_trap hs) (canon_sendSync hs))

theorem canon_doTdget {tid d} (hs : s.Canon σ) : (doTdget tid d s).Canon σ :=
  canon_long1 hs

theorem canon_pgetAt {b ea n d} (hs : s.Canon σ) : (s.pgetAt b ea n d).Canon σ :=
  canon_startLong hs

theorem canon_doPget {h f a b disp} (hs : s.Canon σ) : (doPget h f a b disp s).Canon σ := by
  unfold doPget
  split <;> exact canon_withAddr hs (fun _ => (canon_pgetAt hs))

theorem canon_doPatom {wd op d a b disp} (hs : s.Canon σ) : (doPatom wd op d a b disp s).Canon σ :=
  canon_withAddr hs (fun _ => (canon_afterClear hs (fun _ h => (canon_startLong h))))

theorem canon_eretRetry (hs : s.Canon σ) : (s.eretRetry).Canon σ :=
  canon_onCx (canon_replayAll hs)

theorem canon_doEret (hs : s.Canon σ) : (doEret s).Canon σ :=
  canon_eretRetry hs

theorem canon_doLaunch {d a} (hs : s.Canon σ) : (doLaunch d a s).Canon σ :=
  canon_withPtr hs (canon_kick hs)

theorem canon_doGlaunch {d a b} (hs : s.Canon σ) : (doGlaunch d a b s).Canon σ :=
  canon_withPtr hs (canon_kick hs)

theorem canon_askSched {d op} (hs : s.Canon σ) : (s.askSched d op).Canon σ :=
  canon_long1 hs

theorem canon_doGnodeGraph {d a} (hs : s.Canon σ) : (doGnodeGraph d a s).Canon σ :=
  canon_askSched hs

theorem canon_doGnodeNode {d a b} (hs : s.Canon σ) : (doGnodeNode d a b s).Canon σ :=
  canon_withPtr hs (canon_kick hs)

theorem canon_doGnodeEdge {d a b} (hs : s.Canon σ) : (doGnodeEdge d a b s).Canon σ :=
  canon_askSched hs

theorem canon_doGnodeDrop {d a} (hs : s.Canon σ) : (doGnodeDrop d a s).Canon σ :=
  canon_askSched hs

theorem canon_doGdone {d a b} (hs : s.Canon σ) : (doGdone d a b s).Canon σ :=
  canon_kick hs

theorem canon_doGrabTake {d a} (hs : s.Canon σ) : (doGrabTake d a s).Canon σ :=
  canon_askSched hs

theorem canon_doGrabSet {d a b} (hs : s.Canon σ) : (doGrabSet d a b s).Canon σ :=
  canon_withPtr hs (canon_askSched hs)

theorem canon_doQstatLaunch {d a} (hs : s.Canon σ) : (doQstatLaunch d a s).Canon σ :=
  canon_askSched hs

theorem canon_doQstatQueue {d a} (hs : s.Canon σ) : (doQstatQueue d a s).Canon σ :=
  canon_askSched hs

theorem canon_doQstatRange {d a} (hs : s.Canon σ) : (doQstatRange d a s).Canon σ :=
  canon_askSched hs

theorem canon_doQstatInst {d a} (hs : s.Canon σ) : (doQstatInst d a s).Canon σ :=
  canon_askSched hs

theorem canon_doWpset {idx kind scope am a} (hs : s.Canon σ) : (doWpset idx kind scope am a s).Canon σ :=
  canon_withUnit hs (fun _ => (canon_long1 hs))

theorem canon_doWpclr {idx am a} (hs : s.Canon σ) : (doWpclr idx am a s).Canon σ :=
  canon_withUnit hs (fun _ => (canon_long1 hs))

end Sys2Proof.Machine
end

section
/-! SUPPORT. Canonical form: containment and reset, stores of engines, and the frames that a save writes. -/
namespace Sys2Proof.Machine
variable {σ : Stores} {s t : State} {k : Core}

theorem canon_lanes_ok {r : Except (RFault × State) (Line × State)} {l : Line} (e : r = .ok (l, t)) (h : CanonLanes σ r) : t.Canon σ := by
  subst e; exact h

theorem canon_lanes_error {r : Except (RFault × State) (Line × State)} {f : RFault} (e : r = .error (f, t)) (h : CanonLanes σ r) :
    t.Canon σ := by
  subst e; exact h

/-- What memory keeps beside its bytes is no store. -/
theorem canon_setMem {m : Memory} (h : s.Canon σ) (e : m.bytes = s.mem.bytes) : ({ s with mem := m } : State).Canon σ := by
  unfold State.Canon
  rw [e]
  exact h

theorem canon_doVldx {h cm d a b sc disp} (hs : s.Canon σ) : (doVldx h cm d a b sc disp s).Canon σ := by
  unfold doVldx
  split
  · exact canon_trap hs
  · refine canon_ite (canon_ite (canon_longValue hs) (canon_startLong hs)) ?_
    split
    · next e => exact canon_onRegs (canon_lanes_ok e (canon_readLanes hs))
    · next e => exact canon_loadFault (canon_lanes_error e (canon_readLanes hs))

theorem canon_containAll {cls} (hs : s.Canon σ) : (s.containAll cls).Canon σ := by
  unfold State.containAll
  refine canon_mcheck ?_
  refine canon_mapCores (s := State.dropUnits _ _) (canon_dropUnits ?_) fun q h => ?_
  · refine canon_foldl (canon_foldl (canon_foldl (canon_dropInside hs) ?_) ?_) ?_
    · exact fun _ _ => canon_nackWaiters
    · exact fun _ _ => canon_dropGroup
    · exact fun _ _ h => canon_foldl h fun _ _ => canon_sendAll
  · dsimp only
    split
    · exact canonCore_of_memWf.mpr canonCore_reset
    · exact h

theorem canon_contain {cluster} (hs : s.Canon σ) : (s.contain cluster).Canon σ := by
  unfold State.contain
  exact canon_ite hs (canon_containAll hs)

theorem canon_reset : State.reset.Canon σ := by
  cases σ with
  | memory => rfl
  | pools => exact canon_pools.mpr rfl

theorem canon_coldReset : s.coldReset.Canon σ := canon_reset

theorem canon_commit (hs : s.Canon σ) : s.commit.Canon σ := by
  unfold State.commit
  exact canon_ite hs (canon_ite canon_coldReset (canon_snapsEmpty (canon_nextInterval hs)))

theorem canon_seqEnd {old : State} {r : Served} (hs : old.Canon σ) (hr : r.Canon σ) : (s.seqEnd old r).Canon σ := by
  cases r with
  | done l t => exact hr
  | fail f t => exact canon_ite (canon_savePaged hr) (canon_loadFault hr)
  | hold t => exact canon_park hs
  | wait => exact canon_park hs

theorem canon_eLines {a at'} {k : List Line → State → Served} {n : Nat} {acc : List Line} (hs : s.Canon σ)
    (hk : ∀ l t, t.Canon σ → (k l t).Canon σ) : (s.eLines a at' k n acc).Canon σ := by
  induction n generalizing s acc with
  | zero => exact hk _ _ hs
  | succ n ih =>
    unfold State.eLines
    split
    · next e => exact ih (canon_done e (canon_eLoad hs))
    · exact canon_eLoad hs

theorem canon_answerWaits {n : Nat} (hs : s.Canon σ) : (s.answerWaits n).Canon σ := by
  induction n generalizing s with
  | zero => exact hs
  | succ n ih =>
    unfold State.answerWaits
    split
    · exact hs
    · split
      · exact hs
      · exact ih (canon_reply hs)

theorem canon_mailWake (hs : s.Canon σ) : s.mailWake.Canon σ := canon_answerWaits hs

theorem canonServed_mailWake {r : Served} (hr : r.Canon σ) : r.mailWake.Canon σ := by
  cases r with
  | done l t => exact canon_mailWake hr
  | _ => exact hr

theorem retag_bytes (m : Memory) (x : Xl) (mask : BitVec 64) (b : BitVec 6) : (m.retag x mask b).bytes = m.bytes := by
  unfold Memory.retag
  refine foldl_keeps (p := fun n : Memory => n.bytes = m.bytes) (fun n pa hn => ?_) _ _ rfl
  dsimp only
  split <;> split <;> exact hn

theorem canon_gStore {a va data mask bset} (hs : s.Canon σ) : (s.gStore a va data mask bset).Canon σ := by
  unfold State.gStore
  have hc := canon_gCheck (a := a) (need := .store) (bset := bset) (rd := false) (va := lineVa va) (mask := mask) hs
  split
  · next e => exact canon_snd e hc
  · next e =>
    dsimp only
    split
    · trivial
    · have hw := canon_snd e hc
      exact canon_gStore_fireMask (canon_ite (canon_setMem (canon_writeXl hw) (retag_bytes _ _ _ _)) (canon_writeXl hw))

theorem canon_eStore {a pl data mask} (hs : s.Canon σ) : (s.eStore a pl data mask).Canon σ := by
  unfold State.eStore
  split
  · exact canon_pStore hs
  · exact canonServed_mailWake (canon_gStore hs)
  · trivial

theorem canon_ePut {a at'} {k : State → Served} {l : List (Nat × Line × BitVec 64)} (hs : s.Canon σ)
    (hk : ∀ t, t.Canon σ → (k t).Canon σ) : (s.ePut a at' k l).Canon σ := by
  induction l generalizing s with
  | nil => exact hk _ hs
  | cons q l ih =>
    unfold State.ePut
    split
    · next e => exact ih (canon_done e (canon_eStore hs))
    · exact canon_eStore hs

theorem canon_astGo {am f act vr1 vc1 a dst bias} (hs : s.Canon σ) : (s.astGo am f act vr1 vc1 a dst bias).Canon σ := by
  unfold State.astGo
  exact canon_withTile hs (canon_seqEnd hs (canon_eLines hs fun _ _ h => canon_ePut h fun _ h => h))

theorem canon_aldGo {am f d src} (hs : s.Canon σ) : (s.aldGo am f d src).Canon σ := by
  unfold State.aldGo
  exact canon_withTile hs (canon_seqEnd hs (canon_eLines hs fun _ _ h => canon_onCore h fun _ => canonCore_accPut))

theorem canon_payload {va bytes len} {n : Nat} (hs : s.Canon σ) : (s.payload va bytes len n).Canon σ := by
  induction n generalizing s va bytes len with
  | zero => exact hs
  | succ n ih =>
    unfold State.payload
    exact canon_ite hs (ih (canon_storeAt hs))

theorem canon_cstGot {e c ch data n tile} (hs : s.Canon σ) : (s.cstGot e c ch data n tile).Canon σ := by
  unfold State.cstGot
  exact canon_ite (canon_trap hs) (canon_payload hs)

theorem canon_landAt {core x i} (hs : s.Canon σ) : (s.landAt core x i).Canon σ := by
  unfold State.landAt
  dsimp only
  split
  · exact hs
  · exact canon_setCtx (canon_landIn hs)

theorem canon_landAll {core x} {n : Nat} (hs : s.Canon σ) : (s.landAll core x n).Canon σ := by
  induction n generalizing s with
  | zero => exact hs
  | succ n ih => exact ih (canon_landAt hs)

theorem canon_finishWrite {core x} (hs : s.Canon σ) : (s.finishWrite core x).Canon σ := by
  unfold State.finishWrite
  dsimp only
  split
  · exact canon_ite (canon_setCtx hs) (canon_ite (canon_setCtx hs) (canon_acting (canon_onCtx (canon_cstGot (canon_acting hs)))))
  · exact hs

theorem canon_frameStore {a key va data} (hs : s.Canon σ) : (s.frameStore a key va data).Canon σ := by
  unfold State.frameStore
  have hc := canon_gCheck (a := a) (need := .store) (bset := false) (rd := false) (va := va) (mask := BitVec.ofNat 64 (2 ^ 64 - 1)) hs
  dsimp only
  split
  · next e => exact canon_snd e hc
  · next e =>
    split
    · trivial
    · exact canon_mailWake (canon_writeXl (canon_snd e hc))

theorem canon_frameOut {a key frame} {l : List (Nat × Line)} (hs : s.Canon σ) : (s.frameOut a key frame l).Canon σ := by
  induction l generalizing s with
  | nil => exact hs
  | cons q l ih =>
    unfold State.frameOut
    split
    · next e => exact ih (canon_done e (canon_frameStore hs))
    · exact canon_frameStore hs

theorem canon_saveTo {a core x frame} (hs : s.Canon σ) : (s.saveTo a core x frame).Canon σ := by
  unfold State.saveTo
  have hl := canon_onCtx (σ := σ) (c := core) (x := x) (f := fun c => { c.settle with streams := c.streams.map fun p => (p.1, p.2.unload) })
    (canon_finishWrite (core := core) (x := x) (canon_cancelWait (core := core) (x := x)
        (canon_landAll (core := core) (x := x) (n := (s.ctx core x).landing.length) hs)))
  dsimp only
  split
  · next e => exact canon_onCore (canon_done e (canon_frameOut hl)) fun _ h => h
  · next e => exact canon_framed hs (canon_fail e (canon_frameOut hl))
  · exact canon_frameOut hl

theorem canon_ctxsvGo {frame x} (hs : s.Canon σ) : (s.ctxsvGo frame x).Canon σ := by
  unfold State.ctxsvGo
  refine canon_ite (canon_trap hs) (canon_ite (canon_park hs) ?_)
  dsimp only
  split
  · next e => exact canon_longValue (canon_done e (canon_saveTo hs))
  · next e => exact canon_onCx (canon_addPend (canon_fail e (canon_saveTo hs)))
  · exact canon_park hs

end Sys2Proof.Machine
end

section
/-! SUPPORT. Canonical form: the end of a park, what waits at engines and launches, and what an instruction does. -/
namespace Sys2Proof.Machine
variable {σ : Stores} {s t : State} {k : Core}

theorem canon_go {cond ans c} (hs : s.Canon σ) : (s.go cond ans c).Canon σ := by
  unfold State.go
  split
  · exact hs
  · exact canon_over hs
  · exact canon_over (canon_ownPort hs (canon_startLong hs))
  · exact canon_ownPort hs (canon_sendSync hs)
  · split
    · exact hs
    · split
      exacts [canon_syncFault hs, canon_over (canon_ite (canon_acquire (canon_onRegs hs)) (canon_onRegs hs))]
  · exact canon_over (canon_poolStores hs)
  · exact canon_over (canon_releaseStore hs)
  · exact canon_phaseArrive hs
  · exact canon_over hs
  · exact canon_fbarArrive hs
  · split
    exacts [canon_trap hs, canon_over (canon_acquire hs)]
  · exact canon_over (canon_sendKick hs)
  · exact canon_over (canon_sarmSend hs)
  · exact canon_over (canon_cpyGo hs)
  · split
    exacts [canon_over (canon_cpywGo hs), canon_over hs]
  · exact canon_over (canon_gpwaitGo hs)
  · exact canon_over (canon_cbrsvGo hs)
  · exact canon_over (canon_cbcmtGo hs)
  · exact canon_over (canon_cbacqGo hs)
  · exact canon_over (canon_oclaimGot hs)
  · exact canon_over (canon_ofillGo hs)
  · exact canon_over (canon_astGo hs)
  · exact canon_over (canon_aldGo hs)
  · split
    · exact hs
    · split
      exacts [canon_syncFault hs, canon_over (canon_cstGot hs)]
  · split
    · exact hs
    · split
      exacts [canon_syncFault hs, canon_over (canon_cclrGot hs)]
  · exact canon_over (canon_tlbinvGo hs)
  · exact canon_over (canon_fenceiGo hs)
  · exact canon_over (canon_ctxsvGo hs)
  · exact canon_over (canon_repGo hs)

theorem canon_resume {core x} (hs : s.Canon σ) : (s.resume core x).Canon σ := by
  unfold State.resume
  split
  · dsimp only
    split
    · split
      · exact canon_over (canon_onMine_same (canon_onCx (canon_undone (canon_onCx hs))) (fun _ => rfl) (fun _ => rfl))
      · split
        exacts [canon_refuse (canon_onCx (canon_undone (canon_onCx hs))), canon_onCx (canon_undone (canon_onCx hs))]
    · exact canon_go (canon_onCx hs)
  · exact hs

theorem canon_tryResume {core x} (hs : s.Canon σ) : (s.tryResume core x).Canon σ := by
  unfold State.tryResume
  split
  exacts [canon_ite (canon_resume hs) hs, hs]

theorem canon_putSaved {w c} (hs : s.Canon σ) : (s.putSaved w c).Canon σ := by
  unfold State.putSaved
  split
  · dsimp only
    split
    · next e =>
      refine canon_done e (canon_frameOut ?_)
      exact canon_onCore_same hs (fun _ => rfl) (fun _ => rfl)
    · exact canon_onCore_same hs (fun _ => rfl) (fun _ => rfl)
  · exact canon_onCore_same hs (fun _ => rfl) (fun _ => rfl)

theorem canon_cancelBack {w tag} (hs : s.Canon σ) : (s.cancelBack w tag).Canon σ := by
  unfold State.cancelBack
  dsimp only
  split
  · exact canon_ite (canon_limitTrap hs) hs
  · split
    exacts [canon_ite (canon_putSaved hs) hs, canon_strayAt hs]

theorem canon_eBuf {g a pl data mask} (hs : s.Canon σ) : (s.eBuf g a pl data mask).Canon σ := by
  unfold State.eBuf
  split
  · exact canon_eStore hs
  · split
    · split
      · exact canon_setEbuf hs
      · split
        · exact canon_setEbuf hs
        · dsimp only
          split
          · exact trivial
          · split
            exacts [canon_setEbuf (canon_done ‹_› (canon_eStore hs)), canon_setEbuf (canon_hold ‹_› (canon_eStore hs)), canon_setEbuf
                (canon_fail ‹_› (canon_eStore hs)), trivial]
    · split
      exacts [canon_setEbuf hs, trivial]

theorem canon_onThread {w g} (hs : s.Canon σ) : (s.onThread w g).Canon σ := by
  unfold State.onThread
  split
  · exact canon_onCtx hs
  · split
    exacts [canon_putSaved hs, hs]

theorem canon_onStream {w v f} (hs : s.Canon σ) : (s.onStream w v f).Canon σ :=
  canon_onThread hs

theorem canon_mailbox {a va w0 w1} (hs : s.Canon σ) : (s.mailbox a va w0 w1).Canon σ := by
  unfold State.mailbox
  split
  · exact hs
  · dsimp only
    split
    exacts [canon_mailWake (canon_done ‹_› (canon_gStore hs)), hs]

theorem canon_kindStore {a core k addr n d} (hs : s.Canon σ) : (s.kindStore a core k addr n d).Canon σ := by
  unfold State.kindStore
  split
  · exact canon_eBuf hs
  · split
    exacts [trivial, canon_onCore hs (fun _ h => (canonCore_opPut h))]

theorem canon_dealStore {a c o l} (hs : s.Canon σ) : (s.dealStore a c o l).Canon σ := by
  unfold State.dealStore
  dsimp only
  split
  · exact canon_eBuf hs
  · split
    · exact canon_eBuf (canon_done ‹_› (canon_eBuf hs))
    · split
      exacts [canon_done ‹_› (canon_eBuf (canon_fail ‹_› (canon_eBuf hs))), canon_fail ‹_› (canon_eBuf (canon_fail ‹_› (canon_eBuf hs))), canon_eBuf
          (canon_fail ‹_› (canon_eBuf hs))]
    · exact canon_eBuf hs

theorem canon_reject {l} (hs : s.Canon σ) : (s.reject l).Canon σ := by
  unfold State.reject
  dsimp only
  split
  exacts [canon_requeue (canon_nodeEnded (canon_mailbox (canon_onSched (canon_onLaunch hs)))), canon_requeue
      (canon_mailbox (canon_onSched (canon_onLaunch hs)))]

theorem canon_startHead {level e} (hs : s.Canon σ) : (s.startHead level e).Canon σ := by
  unfold State.startHead
  dsimp only
  split
  exacts [canon_onSched hs, canon_ite (canon_reject (canon_onSched hs)) (canon_requeue (canon_onSched (canon_onLaunch (canon_onSched hs))))]

theorem canon_finishLaunch {l status} (hs : s.Canon σ) : (s.finishLaunch l status).Canon σ := by
  unfold State.finishLaunch
  dsimp only
  split
  exacts [canon_requeue (canon_nodeEnded (canon_mailbox (canon_onSched (canon_onLaunch hs)))), canon_requeue
      (canon_mailbox (canon_onSched (canon_onLaunch hs)))]

theorem canon_sendUp {core launch} (hs : s.Canon σ) : (s.sendUp core launch).Canon σ := by
  unfold State.sendUp
  split
  exacts [canon_ite hs (canon_ite (canon_finishLaunch (canon_ite (canon_onCore (canon_onCore hs (fun _ h => (canonCore_unsettle h)))
      (fun _ h => (canonCore_unsettle h))) (canon_onCore hs (fun _ h => (canonCore_unsettle h)))))
      (canon_send (canon_ite (canon_onCore (canon_onCore hs (fun _ h => (canonCore_unsettle h))) (fun _ h => (canonCore_unsettle h)))
      (canon_onCore hs (fun _ h => (canonCore_unsettle h)))))), hs]

theorem canon_doneMessage {core launch} (hs : s.Canon σ) : (s.doneMessage core launch).Canon σ := by
  unfold State.doneMessage
  exact canon_ite hs (canon_sendUp (canon_onCore_same hs (fun _ => rfl) (fun _ => rfl)))

theorem canon_hearStatus {launch core word} (hs : s.Canon σ) : (s.hearStatus launch core word).Canon σ := by
  unfold State.hearStatus
  split
  · exact hs
  · split
    exacts [hs, canon_sendUp (canon_onLaunch hs)]

theorem canon_releaseTo {w handle} (hs : s.Canon σ) : (s.releaseTo w handle).Canon σ := by
  unfold State.releaseTo
  split
  exacts [canon_strayAt hs, canon_ite (canon_phaseDone (canon_ite (canon_onCtx hs) (canon_putSaved hs)))
      (canon_ite (canon_onCtx hs) (canon_putSaved hs))]

theorem canon_wStore {a va data mask k} (hs : s.Canon σ) (hk : ∀ (t : State), t.Canon σ → (k t).Canon σ) : (s.wStore a va data mask k).Canon σ := by
  unfold State.wStore
  split
  exacts [hk _ (canon_done ‹_› (canonServed_mailWake (canon_gStore hs))), canonServed_mailWake (canon_gStore hs)]

theorem canon_cardRetire {lvl unit} (hs : s.Canon σ) : (s.cardRetire lvl unit).Canon σ := by
  unfold State.cardRetire
  split
  · exact hs
  · dsimp only
    split
    exacts [canon_send (canon_ite (canon_ite (canon_cardSlots (canon_onUnit hs)) (canon_onUnit hs))
        (canon_ite (canon_cardSlots (canon_onUnit hs)) (canon_onUnit hs))), canon_mailbox
        (canon_ite (canon_ite (canon_cardSlots (canon_onUnit hs)) (canon_onUnit hs))
        (canon_ite (canon_cardSlots (canon_onUnit hs)) (canon_onUnit hs)))]

theorem canon_doAst {am f act vr1 vc1 a b c} (hs : s.Canon σ) : (doAst am f act vr1 vc1 a b c s).Canon σ :=
  canon_withUnits hs (canon_withTile hs (canon_afterDrain hs (fun _ h => (canon_astGo h))))

theorem canon_doAld {am f d a} (hs : s.Canon σ) : (doAld am f d a s).Canon σ :=
  canon_withUnits hs (canon_withTile hs (canon_afterDrain hs (fun _ h => (canon_aldGo h))))

theorem canon_doCtxsv {a b} (hs : s.Canon σ) : (doCtxsv a b s).Canon σ := by
  unfold doCtxsv
  exact canon_ite (canon_trap hs) (canon_ite (canon_trap hs) (canon_ite (canon_trap hs) (canon_afterDrain hs (fun _ h => (canon_ctxsvGo h)))))

theorem canon_loadByte {tenant va b} (hs : s.Canon σ) : (s.loadByte tenant va b).Canon σ := by
  unfold State.loadByte
  split
  exacts [canon_mailWake (canon_writeXl (canon_snd ‹_› (canon_translate hs))), canon_snd ‹_› (canon_translate hs)]

theorem canon_areaOut {key pa l} (hs : s.Canon σ) : (s.areaOut key pa l).Canon σ := by
  unfold State.areaOut
  exact canon_mailWake (canon_foldl hs (fun _ _ h => (canon_writePhys h)))

theorem canon_areaSave {core pa} (hs : s.Canon σ) : (s.areaSave core pa).Canon σ := by
  unfold State.areaSave
  dsimp only
  refine canon_foldl (canon_fresh (canon_areaOut (canon_fresh (canon_areaOut (canon_areaOut (canon_areaOut hs)))))) fun t c ht => ?_
  split
  · exact canon_areaOut ht
  · exact ht

theorem canon_quiesce {core} (hs : s.Canon σ) : (s.quiesce core).Canon σ := by
  unfold State.quiesce
  exact canon_onCore (canon_foldl (canon_mergeWhere hs) (fun _ _ h => (canon_finishWrite h))) (fun _ h => (canonCore_takeCsrs h))

theorem canon_switchCore {p} (hs : s.Canon σ) : (s.switchCore p).Canon σ :=
  canon_areaSave (canon_onCore_same (canon_quiesce hs) (fun _ => rfl) (fun _ => rfl))

theorem canon_vote {core} (hs : s.Canon σ) : (s.vote core).Canon σ := by
  unfold State.vote
  exact canon_ite (canon_contain (canon_pairCheck (canon_used hs))) (canon_ite (canon_contain (canon_pairCheck (canon_used hs)))
      (canon_contain (canon_contain (canon_pairCheck (canon_onCore_same (canon_used hs) (fun _ => rfl) (fun _ => rfl))))))

theorem canon_pairMismatch {core} (hs : s.Canon σ) : (s.pairMismatch core).Canon σ := by
  unfold State.pairMismatch
  exact canon_ite hs (canon_ite (canon_transient (canon_replay hs)) (canon_vote (canon_replay hs)))

theorem canon_lasting {m} (hs : s.Canon σ) : (s.lasting m).Canon σ := by
  unfold State.lasting
  dsimp only
  split
  exacts [canon_ite (canon_onCtx (canon_mcheck hs)) hs, canon_onCore_same (canon_mcheck hs) (fun _ => rfl) (fun _ => rfl), canon_arrayFault
      (canon_mcheck hs), canon_ite (canon_mcheck hs) (canon_mcheck hs), canon_mcheck hs, canon_pairMismatch hs, canon_contain hs, hs]

theorem canon_body {i} (hs : s.Canon σ) : (body i s).Canon σ := by
  cases i with
  | nop => exact canon_doNop hs
  | mfs => exact canon_doMfs hs
  | mts => exact canon_doMts hs
  | add => exact canon_doAdd hs
  | addImm => exact canon_doAddImm hs
  | sub => exact canon_doSub hs
  | subImm => exact canon_doSubImm hs
  | mul => exact canon_doMul hs
  | mulImm => exact canon_doMulImm hs
  | mulh => exact canon_doMulh hs
  | mulhImm => exact canon_doMulhImm hs
  | mulhu => exact canon_doMulhu hs
  | mulhuImm => exact canon_doMulhuImm hs
  | div => exact canon_doDiv hs
  | divImm => exact canon_doDivImm hs
  | divu => exact canon_doDivu hs
  | divuImm => exact canon_doDivuImm hs
  | rem => exact canon_doRem hs
  | remImm => exact canon_doRemImm hs
  | remu => exact canon_doRemu hs
  | remuImm => exact canon_doRemuImm hs
  | andd => exact canon_doAndd hs
  | andImm => exact canon_doAndImm hs
  | orr => exact canon_doOrr hs
  | orImm => exact canon_doOrImm hs
  | xor => exact canon_doXor hs
  | xorImm => exact canon_doXorImm hs
  | andn => exact canon_doAndn hs
  | andnImm => exact canon_doAndnImm hs
  | shl => exact canon_doShl hs
  | shlImm => exact canon_doShlImm hs
  | shr => exact canon_doShr hs
  | shrImm => exact canon_doShrImm hs
  | sra => exact canon_doSra hs
  | sraImm => exact canon_doSraImm hs
  | rol => exact canon_doRol hs
  | rolImm => exact canon_doRolImm hs
  | min => exact canon_doMin hs
  | minImm => exact canon_doMinImm hs
  | max => exact canon_doMax hs
  | maxImm => exact canon_doMaxImm hs
  | minu => exact canon_doMinu hs
  | minuImm => exact canon_doMinuImm hs
  | maxu => exact canon_doMaxu hs
  | maxuImm => exact canon_doMaxuImm hs
  | setp => exact canon_doSetp hs
  | setpImm => exact canon_doSetpImm hs
  | sel => exact canon_doSel hs
  | clz => exact canon_doClz hs
  | ctz => exact canon_doCtz hs
  | popc => exact canon_doPopc hs
  | brev => exact canon_doBrev hs
  | bfx => exact canon_doBfx hs
  | bfxImm => exact canon_doBfxImm hs
  | bfi => exact canon_doBfi hs
  | bfiImm => exact canon_doBfiImm hs
  | mov => exact canon_doMov hs
  | plog => exact canon_doPlog hs
  | li => exact canon_doLi hs
  | liHi => exact canon_doLiHi hs
  | lea => exact canon_doLea hs
  | mkptr => exact canon_doMkptr hs
  | getband => exact canon_doGetband hs
  | caddr => exact canon_doCaddr hs
  | chkptr => exact canon_doChkptr hs
  | br => exact canon_doBr hs
  | bri => exact canon_doBri hs
  | call => exact canon_doCall hs
  | calli => exact canon_doCalli hs
  | ret => exact canon_doRet hs
  | loop => exact canon_doLoop hs
  | xrd => exact canon_doXrd hs
  | xsel => exact canon_doXsel hs
  | xunr => exact canon_doXunr hs
  | xpfd => exact canon_doXpfd hs
  | xnote => exact canon_doXnote hs
  | xflush => exact canon_doXflush hs
  | ld => exact canon_doLd hs
  | st => exact canon_doSt hs
  | vld => exact canon_doVld hs
  | vst => exact canon_doVst hs
  | lds => exact canon_doLds hs
  | sts => exact canon_doSts hs
  | ldf => exact canon_doLdf hs
  | feset => exact canon_doFeset hs
  | feclr => exact canon_doFeclr hs
  | ldacq => exact canon_doLdacq hs
  | strel => exact canon_doStrel hs
  | atom => exact canon_doAtom hs
  | pref => exact canon_doPref hs
  | vldx => exact canon_doVldx hs
  | vstx => exact canon_doVstx hs
  | cld => exact canon_doCld hs
  | cst => exact canon_doCst hs
  | cvld => exact canon_doCvld hs
  | cvst => exact canon_doCvst hs
  | cprobe => exact canon_doCprobe hs
  | cclr => exact canon_doCclr hs
  | ctileFind => exact canon_doCtileFind hs
  | ctileDetach => exact canon_doCtileDetach hs
  | ctilePtile => exact canon_doCtilePtile hs
  | ctilePnode => exact canon_doCtilePnode hs
  | clbinv => exact canon_doClbinv hs
  | vadd => exact canon_doVadd hs
  | vsub => exact canon_doVsub hs
  | vmul => exact canon_doVmul hs
  | vfma => exact canon_doVfma hs
  | vfms => exact canon_doVfms hs
  | vfnma => exact canon_doVfnma hs
  | vmin => exact canon_doVmin hs
  | vmax => exact canon_doVmax hs
  | vabs => exact canon_doVabs hs
  | vneg => exact canon_doVneg hs
  | vrcp => exact canon_doVrcp hs
  | vrsq => exact canon_doVrsq hs
  | vexp2 => exact canon_doVexp2 hs
  | vlog2 => exact canon_doVlog2 hs
  | vdiv => exact canon_doVdiv hs
  | vsqrt => exact canon_doVsqrt hs
  | vcvt => exact canon_doVcvt hs
  | vcmp => exact canon_doVcmp hs
  | vred => exact canon_doVred hs
  | vdot => exact canon_doVdot hs
  | fadd => exact canon_doFadd hs
  | fmul => exact canon_doFmul hs
  | ffma => exact canon_doFfma hs
  | fcmp => exact canon_doFcmp hs
  | fcvt => exact canon_doFcvt hs
  | viadd => exact canon_doViadd hs
  | visub => exact canon_doVisub hs
  | vimul => exact canon_doVimul hs
  | vand => exact canon_doVand hs
  | vor => exact canon_doVor hs
  | vxor => exact canon_doVxor hs
  | vshl => exact canon_doVshl hs
  | vshr => exact canon_doVshr hs
  | vsra => exact canon_doVsra hs
  | vimin => exact canon_doVimin hs
  | vimax => exact canon_doVimax hs
  | vsel => exact canon_doVsel hs
  | vshuf => exact canon_doVshuf hs
  | vbcast => exact canon_doVbcast hs
  | vins => exact canon_doVins hs
  | vext => exact canon_doVext hs
  | vcmprs => exact canon_doVcmprs hs
  | vexpnd => exact canon_doVexpnd hs
  | viota => exact canon_doViota hs
  | vicmp => exact canon_doVicmp hs
  | vqnt => exact canon_doVqnt (_rn := false) hs
  | vdqnt => exact canon_doVdqnt hs
  | vsrnd => exact canon_doVsrnd hs
  | vbxdot =>
    delta body
    exact canon_doVbxdot hs
  | _ => exact hs

end Sys2Proof.Machine
end

section
/-! SUPPORT. Canonical form: the copy unit's steps. -/
namespace Sys2Proof.Machine
open Host (Cell)
variable {σ : Stores} {s t : State} {k : Core}

/-! ### The results of engine steps, which may stall -/

/-- What a result that may be an error carries, whichever of the two it is. -/
def Meets {ε α : Type} (e : ε → Prop) (p : α → Prop) : Except ε α → Prop
  | .ok a => p a
  | .error x => e x

theorem meets_bind {ε α β : Type} {e : ε → Prop} {p : α → Prop} {q : β → Prop} {m : Except ε α} {f : α → Except ε β}
    (hm : Meets e p m) (hf : ∀ a, p a → Meets e q (f a)) : Meets e q (m >>= f) := by
  cases m with
  | ok a => exact hf a hm
  | error x => exact hm

theorem meets_pure {ε α : Type} {e : ε → Prop} {p : α → Prop} {a : α} (h : p a) : Meets e p (pure a) := h

theorem meets_ite {ε α : Type} {e : ε → Prop} {p : α → Prop} {c : Prop} [Decidable c] {m n : Except ε α}
    (hm : Meets e p m) (hn : Meets e p n) : Meets e p (if c then m else n) := by
  split
  · exact hm
  · exact hn

/-- An engine's step that goes on leaves the stores in canonical form. -/
def CanonEX (σ : Stores) {α : Type} (f : α → EX) : Except Stalled α → Prop := Meets (fun _ => True) fun a => (f a).s.Canon σ

theorem canonEX_bind {α β : Type} {f : α → EX} {g : β → EX} {m : Except Stalled α} {h : α → Except Stalled β}
    (hm : CanonEX σ f m) (hh : ∀ a, (f a).s.Canon σ → CanonEX σ g (h a)) : CanonEX σ g (m >>= h) := meets_bind hm hh

theorem canonEX_ite {α : Type} {f : α → EX} {c : Prop} [Decidable c] {m n : Except Stalled α} (hm : CanonEX σ f m) (hn : CanonEX σ f n) :
    CanonEX σ f (if c then m else n) := meets_ite hm hn

theorem canonEX_ok {α : Type} {f : α → EX} {a : α} {m : Except Stalled α} (e : m = .ok a) (h : CanonEX σ f m) : (f a).s.Canon σ := by
  subst e; exact h

variable {x : EX}

theorem canonEX_get {v : Served} (hv : v.Canon σ) : CanonEX σ Prod.snd (x.get v) := by
  cases v with
  | done l u => exact hv
  | hold u => exact hv
  | wait => trivial
  | fail f u =>
    unfold EX.get
    refine canonEX_ite hv ?_
    split
    · exact canonEX_ite hv trivial
    · trivial

theorem canonEX_load {pl n} (hx : x.s.Canon σ) : CanonEX σ Prod.snd (x.load pl n) := canonEX_get (canon_eLoad hx)

theorem canonEX_store {pl d m} (hx : x.s.Canon σ) : CanonEX σ Prod.snd (x.store pl d m) :=
  canonEX_bind (canonEX_get (canon_eBuf hx)) fun _ h => h

theorem canonEX_drain {pl d m} (hx : x.s.Canon σ) : CanonEX σ id (x.drain pl d m) :=
  canonEX_bind (canonEX_get (canon_eStore hx)) fun _ h => h

theorem canonEX_strips {core st} {l : List (Nat × Line × BitVec 64)} (hx : x.s.Canon σ) : CanonEX σ id (x.strips core st l) := by
  induction l generalizing x with
  | nil => exact hx
  | cons q l ih =>
    obtain ⟨off, d, m⟩ := q
    unfold EX.strips
    exact canonEX_ite (ih hx) (canonEX_bind (canonEX_drain hx) fun y h => ih h)

theorem canonEX_entry {launch tid ok} (hx : x.s.Canon σ) : CanonEX σ Prod.snd (x.entry launch tid ok) := by
  refine canonEX_bind (canonEX_load hx) fun q h => ?_
  obtain ⟨l, y⟩ := q
  cases l with
  | none => exact h
  | some e => exact canonEX_ite h h

theorem canonEX_copyUnits {core} {src : Nat → State → Served} {dst : Nat → Line → State → Served} {bad : Nat → State → State} {n off : Nat}
    (hx : x.s.Canon σ) (hsrc : ∀ i t, t.Canon σ → (src i t).Canon σ) (hdst : ∀ i l t, t.Canon σ → (dst i l t).Canon σ)
    (hbad : ∀ i t, t.Canon σ → (bad i t).Canon σ) : CanonEX σ id (x.copyUnits core src dst bad n off) := by
  induction n generalizing x off with
  | zero => exact hx
  | succ n ih =>
    refine canonEX_bind (canonEX_get (hsrc _ _ hx)) fun q h => ?_
    obtain ⟨l, y⟩ := q
    cases l with
    | none =>
      refine ih ?_
      split
      · exact hbad _ _ h
      · exact h
    | some l => exact canonEX_bind (canonEX_get (hdst _ _ _ h)) fun z hz => ih hz

theorem canonEX_readList {core m ea} {n : Nat} {acc : List (Option Line)} (hx : x.s.Canon σ) :
    CanonEX σ Prod.snd (x.readList core m ea n acc) := by
  induction n generalizing x acc with
  | zero => exact hx
  | succ n ih => exact canonEX_bind (canonEX_load hx) fun q h => ih h

theorem canonEX_storeBytes {core m ea bs} {l : List (Nat × Nat)} (hx : x.s.Canon σ) : CanonEX σ id (x.storeBytes core m ea bs l) := by
  induction l generalizing x with
  | nil => exact hx
  | cons q l ih =>
    unfold EX.storeBytes
    exact canonEX_ite (ih hx) (canonEX_bind (canonEX_store hx) fun y h => ih h)

theorem canonEX_loadBytes {core m ea} {l : List (Nat × Nat)} {acc : List (Option Nat)} (hx : x.s.Canon σ) :
    CanonEX σ Prod.snd (x.loadBytes core m ea l acc) := by
  induction l generalizing x acc with
  | nil => exact hx
  | cons q l ih => exact canonEX_bind (canonEX_load hx) fun y h => ih h

theorem canon_eComb {a pl n f} (hs : s.Canon σ) : (s.eComb a pl n f).Canon σ := by
  unfold State.eComb
  split
  · split
    · exact canon_logPort hs
    · split
      · exact canon_consumePoison (canon_logPort hs)
      · exact canon_firePool (canon_onCore hs fun _ => canonCore_poolWrite)
  · dsimp only
    split
    · next e => exact canon_snd e (canon_gCheck hs)
    · next e =>
      split
      · trivial
      · exact canon_mailWake (canon_fireGlob (canon_writeXl (canon_readLead (canon_snd e (canon_gCheck hs)))))
  · trivial

theorem canonEX_combRow {core m row f} {l : List (Option Num)} {off : Nat} (hx : x.s.Canon σ) : CanonEX σ id (x.combRow core m row f l off) := by
  induction l generalizing x off with
  | nil => exact hx
  | cons y l ih =>
    cases y with
    | none => exact ih hx
    | some y => exact canonEX_bind (canonEX_get (canon_eComb hx)) fun z h => ih h

theorem canonEX_gatherRow {core put i64 pm cmb e rows j idx} (hx : x.s.Canon σ) :
    CanonEX σ id (x.gatherRow core put i64 pm cmb e rows j idx) := by
  unfold EX.gatherRow
  refine canonEX_ite (canonEX_ite hx (canonEX_storeBytes hx)) (canonEX_ite hx (canonEX_ite hx ?_))
  refine canonEX_bind (canonEX_loadBytes hx) fun q h => ?_
  obtain ⟨bs, y⟩ := q
  dsimp only
  refine canonEX_ite (canonEX_combRow ?_) (canonEX_storeBytes ?_) <;>
  · split
    exacts [canon_foldl h fun _ _ => canon_ePoison, h]

theorem canonEX_gatherRows {core put i64 pm cmb e rows} {entry : Nat → Option Nat} {n j : Nat} (hx : x.s.Canon σ) :
    CanonEX σ id (x.gatherRows core put i64 pm cmb e rows entry n j) := by
  induction n generalizing x j with
  | zero => exact hx
  | succ n ih =>
    unfold EX.gatherRows
    split
    · exact ih hx
    · exact canonEX_bind (canonEX_gatherRow hx) fun y h => ih h

/-! ### Engine steps -/

theorem canon_engineRead {a tag lane} {step : EX → Except Stalled EX} {fin : State → Option RFault → State} (hs : s.Canon σ)
    (hk : ∀ x : EX, x.s.Canon σ → CanonEX σ id (step x)) (hf : ∀ t f, t.Canon σ → (fin t f).Canon σ) :
    (s.engineRead a tag lane step fin).Canon σ := by
  unfold State.engineRead
  refine canon_ite hs ?_
  split
  · next e => exact hf _ _ (canon_unhold (canonEX_ok e (hk _ hs)))
  · exact canon_holdFor hs
  · exact hs

theorem canon_engineDrain {a b} (hs : s.Canon σ) : (s.engineDrain a b).Canon σ := by
  unfold State.engineDrain
  split
  · exact hs
  · exact canon_engineRead hs (fun x h => canonEX_bind (canonEX_get (canon_eStore h)) fun _ h => h) fun _ _ => canon_setEbuf

theorem canon_engineStep {a tag lane} {step : EX → Except Stalled EX} {fin : State → Option RFault → State} (hs : s.Canon σ)
    (hk : ∀ x : EX, x.s.Canon σ → CanonEX σ id (step x)) (hf : ∀ t f, t.Canon σ → (fin t f).Canon σ) :
    (s.engineStep a tag lane step fin).Canon σ := by
  unfold State.engineStep
  split
  · exact canon_ite hs (canon_ite (canon_ite (hf _ _ (canon_dropEbuf hs)) hs) (canon_engineDrain hs))
  · refine canon_engineRead hs (fun x h => hk _ (canon_setEbuf h)) fun t f ht => ?_
    split
    · exact canon_ite (hf _ _ (canon_dropEbuf ht)) (canon_setEbuf ht)
    · exact hf _ _ ht

theorem canon_streamDrain {core x v} (hs : s.Canon σ) : (s.streamDrain core x v).Canon σ := by
  unfold State.streamDrain
  dsimp only
  split
  · exact hs
  · exact canon_ite hs (canon_engineRead hs (fun _ => canonEX_strips) fun _ _ => canon_onCtx)

theorem canon_dropStep {core op} (hs : s.Canon σ) : (s.dropStep core op).Canon σ := by
  unfold State.dropStep
  split
  · refine canon_ite hs ?_
    split
    · exact canon_endCopy hs
    · exact canon_engineRead hs (fun _ => canonEX_strips) fun _ _ => canon_onCopy
  · exact hs

theorem canon_stageStep {core op} (hs : s.Canon σ) : (s.stageStep core op).Canon σ := by
  unfold State.stageStep
  split
  · refine canon_ite hs (canon_engineStep hs ?_ ?_)
    · exact fun x h => canonEX_copyUnits h (fun _ _ => canon_kindLoad) (fun _ _ _ => canon_eBuf) fun _ _ => canon_ePoison
    · refine fun t f ht => canon_ite (canon_endCopy (canon_onCore ?_ fun _ => canonCore_onHandle)) ?_ <;>
        exact canon_onCore (canon_onCopy (canon_onCore ht fun _ h => canonCore_handleRec (canonCore_onCb h))) fun _ => canonCore_onHandle
  · exact hs

theorem canon_chunkStep {core op chunk} (hs : s.Canon σ) : (s.chunkStep core op chunk).Canon σ := by
  unfold State.chunkStep
  split
  · refine canon_ite hs (canon_engineStep hs ?_ ?_)
    · exact fun x h => canonEX_copyUnits h (fun _ _ => canon_kindLoad) (fun _ _ _ => canon_kindStore) fun _ _ => canon_kindPoison
    · refine fun t f ht => canon_copyOver (canon_ite (canon_onCore ?_ fun _ => canonCore_onHandle) ?_) <;>
        exact canon_onCopy (canon_onCore ht fun _ => canonCore_handleRec)
  · exact hs

theorem canon_dealStep {core op} (hs : s.Canon σ) : (s.dealStep core op).Canon σ := by
  unfold State.dealStep
  split
  · refine canon_ite hs (canon_engineStep hs ?_ ?_)
    · exact fun x h => canonEX_copyUnits h (fun _ _ => canon_eLoad) (fun _ _ _ => canon_dealStore) fun _ _ => canon_dealPoison
    · exact fun t f ht => canon_endCopy (canon_onCore ht fun _ => canonCore_raiseCounter)
  · exact hs

theorem canon_gatherStep {core op} (hs : s.Canon σ) : (s.gatherStep core op).Canon σ := by
  unfold State.gatherStep
  split
  · refine canon_ite hs (canon_engineStep hs ?_ ?_)
    · exact fun x h => canonEX_bind (canonEX_readList h) fun _ => canonEX_gatherRows
    · exact fun t f ht => canon_endCopy (canon_onCore ht fun _ => canonCore_raiseCounter)
  · exact hs

theorem canon_stripStep {core x v} (hs : s.Canon σ) : (s.stripStep core x v).Canon σ := by
  unfold State.stripStep
  dsimp only
  split
  · exact hs
  · refine canon_ite hs (canon_ite hs ?_)
    split
    · next e =>
      exact canon_onCtx (canon_unhold (canonEX_ok e (canonEX_load hs)))
    · exact canon_holdFor hs
    · exact hs

end Sys2Proof.Machine
end

section
/-! SUPPORT. Canonical form: the accesses of a card's step. -/
namespace Sys2Proof.Machine
open Host (Cell)
variable {σ : Stores} {s t : State} {k : Core}

/-! ### The results of a card's accesses -/

/-- The state that a failure of a card's access leaves. -/
def CErr.Canon (σ : Stores) : CErr → Prop
  | .final x _ | .idx x => x.s.Canon σ
  | .wait | .page _ => True

/-- A card's step leaves the stores in canonical form, whether it goes on or fails. -/
def CanonCX (σ : Stores) {α : Type} (f : α → CX) : Except CErr α → Prop := Meets (CErr.Canon σ) fun a => (f a).s.Canon σ

theorem canonCX_bind {α β : Type} {f : α → CX} {g : β → CX} {m : Except CErr α} {h : α → Except CErr β}
    (hm : CanonCX σ f m) (hh : ∀ a, (f a).s.Canon σ → CanonCX σ g (h a)) : CanonCX σ g (m >>= h) := meets_bind hm hh

theorem canonCX_ite {α : Type} {f : α → CX} {c : Prop} [Decidable c] {m n : Except CErr α} (hm : CanonCX σ f m) (hn : CanonCX σ f n) :
    CanonCX σ f (if c then m else n) := meets_ite hm hn

theorem canonCX_pure {α : Type} {f : α → CX} {a : α} (h : (f a).s.Canon σ) : CanonCX σ f (pure a) := h

theorem canonCX_foldlM {α β : Type} {f : β → CX} {h : β → α → Except CErr β} {l : List α} {b : β} (hb : (f b).s.Canon σ)
    (hh : ∀ b a, (f b).s.Canon σ → CanonCX σ f (h b a)) : CanonCX σ f (l.foldlM h b) := by
  induction l generalizing b with
  | nil => exact hb
  | cons a l ih => exact canonCX_bind (hh _ _ hb) fun b' hb' => ih hb'

variable {x : CX}

theorem canonCX_take {v : Served} (hx : x.s.Canon σ) (hv : v.Canon σ) : CanonCX σ Prod.snd (x.take v) := by
  cases v with
  | done l u => exact hv
  | hold u => exact hv
  | wait => trivial
  | fail f u =>
    unfold CX.take
    refine canonCX_ite hv ?_
    split
    · exact canonCX_ite hx trivial
    · trivial

theorem canonCX_load {pl n} (hx : x.s.Canon σ) : CanonCX σ Prod.snd (x.load pl n) := canonCX_take hx (canon_eLoad hx)

theorem canonCX_store {pl d m} (hx : x.s.Canon σ) : CanonCX σ id (x.store pl d m) :=
  canonCX_bind (canonCX_take hx (canon_eStore hx)) fun _ h => h

theorem canonCX_put {pl d m} (hx : x.s.Canon σ) : CanonCX σ id (x.put pl d m) :=
  canonCX_bind (canonCX_take hx (canon_eBuf hx)) fun _ h => h

theorem canonCX_lines {pl} {n : Nat} {acc : List Line} (hx : x.s.Canon σ) : CanonCX σ Prod.snd (x.lines pl n acc) := by
  induction n generalizing x acc with
  | zero => exact hx
  | succ n ih => exact canonCX_bind (canonCX_load hx) fun q h => ih h

theorem canonCX_bytes {core m ea} {l : List (Nat × Nat)} {acc : List Nat} (hx : x.s.Canon σ) :
    CanonCX σ Prod.snd (x.bytes core m ea l acc) := by
  induction l generalizing x acc with
  | nil => exact hx
  | cons q l ih => exact canonCX_bind (canonCX_load hx) fun q h => ih h

theorem canonCX_num {core m ea n} (hx : x.s.Canon σ) : CanonCX σ Prod.snd (x.num core m ea n) :=
  canonCX_bind (canonCX_bytes hx) fun _ h => h

theorem canonCX_entries {r} {n : Nat} {acc : List Line} (hx : x.s.Canon σ) : CanonCX σ Prod.snd (x.entries r n acc) := by
  induction n generalizing x acc with
  | zero => exact hx
  | succ n ih =>
    unfold CX.entries
    exact canonCX_ite (canonCX_bind (canonCX_load hx) fun q h => ih h) (ih hx)

/-! ### The operands of a unit -/

theorem canonCX_unit {r e b i n} (hx : x.s.Canon σ) : CanonCX σ Prod.snd (x.unit r e b i n) :=
  canonCX_bind (canonCX_lines hx) fun _ h => h

theorem canonCX_slotTile {core r i} (hx : x.s.Canon σ) : CanonCX σ Prod.snd (x.slotTile core r i) := by
  unfold CX.slotTile
  exact canonCX_ite (canon_consumePoison hx) hx

theorem canonCX_operand {core r o b i n} (hx : x.s.Canon σ) : CanonCX σ Prod.snd (x.operand core r o b i n) := by
  unfold CX.operand
  split
  · exact canonCX_bind (canonCX_slotTile hx) fun _ h => h
  · exact canonCX_unit hx

theorem canonCX_staged {r lvl unit q cl m n home} (hx : x.s.Canon σ) : CanonCX σ Prod.snd (x.staged r lvl unit q cl m n home) := by
  unfold CX.staged
  refine canonCX_ite (canonCX_lines hx) (canonCX_bind (canonCX_lines hx) fun p h => ?_)
  refine canonCX_bind (f := id) (canonCX_foldlM h fun y c hy => canonCX_foldlM hy fun z _ => canonCX_store) fun y hy => ?_
  exact canonCX_lines (canon_onCard hy)

theorem canonCX_kTiles {core r b m n kk} (hx : x.s.Canon σ) : CanonCX σ (fun q => q.2.2) (x.kTiles core r b m n kk) := by
  have hp : ∀ (q slot : Nat) (s : State) (p : Nat × Line), s.Canon σ → (s.onCore q fun kk => kk.opPut (slot * 2048 + 64 * p.1) p.2).Canon σ :=
    fun _ _ _ _ h => canon_onCore h fun _ => canonCore_opPut
  unfold CX.kTiles
  dsimp only
  split
  · exact canonCX_bind (canonCX_slotTile hx) fun q h => canonCX_bind (canonCX_slotTile h) fun _ h => h
  · split
    · refine canonCX_bind (canonCX_staged ?_) fun q h => canonCX_bind (canonCX_lines h) fun p h => canonCX_pure ?_
      · split <;> exact hx
      · dsimp only
        split <;> split
        exacts [canon_foldl (canon_foldl h (hp _ _)) (hp _ _), canon_foldl h (hp _ _), canon_foldl h (hp _ _), h]
    · refine canonCX_bind (canonCX_lines ?_) fun q h => canonCX_bind (canonCX_lines h) fun p h => canonCX_pure ?_
      · split <;> exact hx
      · dsimp only
        split <;> split
        exacts [canon_foldl (canon_foldl h (hp _ _)) (hp _ _), canon_foldl h (hp _ _), canon_foldl h (hp _ _), h]

theorem canonCX_kSteps {core r b m n zero} {left kk : Nat} {cur : Mat} {done : List Mat} (hx : x.s.Canon σ) :
    CanonCX σ Prod.snd (x.kSteps core r b m n zero left kk cur done) := by
  induction left generalizing x kk cur done with
  | zero => exact hx
  | succ left ih => exact canonCX_bind (canonCX_kTiles hx) fun _ h => canonCX_ite (ih h) (ih h)

theorem canonCX_start {core r b m n vr vc} (hx : x.s.Canon σ) : CanonCX σ Prod.snd (x.start core r b m n vr vc) := by
  unfold CX.start
  refine canonCX_ite hx ?_
  split
  · exact hx
  · exact canonCX_bind (canonCX_unit hx) fun _ h => h

theorem canonCX_gemm {core r b m n vr vc} (hx : x.s.Canon σ) : CanonCX σ Prod.snd (x.gemm core r b m n vr vc) :=
  canonCX_bind (canonCX_start hx) fun _ h =>
    canonCX_ite (canonCX_bind (canonCX_kSteps h) fun _ h => h) (canonCX_bind (canonCX_kSteps h) fun _ h => h)

theorem canonCX_spmmRows {r n vr vc idx val} {left p : Nat} {acc : Mat} (hx : x.s.Canon σ) :
    CanonCX σ Prod.snd (x.spmmRows r n vr vc idx val left p acc) := by
  induction left generalizing x p acc with
  | zero => exact hx
  | succ left ih =>
    unfold CX.spmmRows
    exact canonCX_ite (ih hx) (canonCX_ite hx (canonCX_bind (canonCX_bytes hx) fun q h => ih h))

theorem canonCX_stageFree {core r} (hx : x.s.Canon σ) : (x.stageFree core r).s.Canon σ :=
  canon_foldl hx fun _ _ h => canon_fresh (canon_foldl h fun _ _ h => canon_onCore h fun _ => canonCore_opPut)

theorem canonCX_spmm {core r b m n vr vc} (hx : x.s.Canon σ) : CanonCX σ Prod.snd (x.spmm core r b m n vr vc) := by
  refine canonCX_bind (canonCX_start hx) fun q h => ?_
  obtain ⟨st, y⟩ := q
  dsimp only
  refine canonCX_bind (canonCX_num ?_) fun q h => canonCX_bind (canonCX_num h) fun q h => canonCX_bind (canonCX_num h) fun q h =>
    canonCX_bind (canonCX_bytes h) fun q h => canonCX_bind (canonCX_bytes h) fun q h => canonCX_bind (canonCX_spmmRows h) fun _ h => h
  split
  · refine canonCX_stageFree ?_
    split <;> exact h
  · split <;> exact h

theorem canonCX_reduce {core r m n} {left kk : Nat} {acc : Mat} (hx : x.s.Canon σ) :
    CanonCX σ Prod.snd (x.reduce core r m n left kk acc) := by
  induction left generalizing x kk acc with
  | zero => exact hx
  | succ left ih => exact canonCX_bind (canonCX_operand hx) fun q h => ih h

theorem canonCX_value {core r b m n vr vc} (hx : x.s.Canon σ) : CanonCX σ Prod.snd (x.value core r b m n vr vc) := by
  unfold CX.value
  dsimp only
  split
  · exact canonCX_gemm hx
  · exact canonCX_gemm hx
  · exact canonCX_spmm hx
  · exact canonCX_bind (canonCX_start hx) fun q => canonCX_reduce
  · exact canonCX_bind (canonCX_operand hx) fun q h => canonCX_bind (canonCX_operand h) fun _ h => h
  · exact canonCX_bind (canonCX_operand hx) fun _ h => h
  · exact canonCX_bind (canonCX_operand hx) fun _ h => h

/-! ### A unit written -/

theorem canonCX_bias {r n vc} (hx : x.s.Canon σ) : CanonCX σ Prod.snd (x.bias r n vc) := by
  unfold CX.bias
  exact canonCX_ite hx (canonCX_bind (canonCX_bytes hx) fun _ h => h)

theorem canonCX_putTile {r b i j c0 old rows rnd} (hx : x.s.Canon σ) : CanonCX σ Prod.snd (x.putTile r b i j c0 old rows rnd) :=
  canonCX_bind (f := id) (canonCX_foldlM hx fun _ _ => canonCX_put) fun _ h => h

theorem canonCX_putUnit {r b i n c0 rnd ms} (hx : x.s.Canon σ) : CanonCX σ Prod.snd (x.putUnit r b i n c0 rnd ms) := by
  unfold CX.putUnit
  refine canonCX_ite (canonCX_ite (canonCX_bind (canonCX_lines hx) fun q h => ?_)
    (canonCX_bind (f := Prod.snd) (m := .ok ([], x)) hx fun q h => ?_)) ?_
  · exact canonCX_putTile h
  · exact canonCX_putTile h
  · exact canonCX_foldlM hx fun p t hp => canonCX_bind (canonCX_putTile hp) fun _ h => h

theorem canonCX_step {core r i} (hx : x.s.Canon σ) : CanonCX σ (fun q => q.2.2.2) (x.step core r i) := by
  unfold CX.step
  refine canonCX_bind (f := fun q => q.2.2) (canonCX_foldlM hx fun p q hp => ?_) fun q h => ?_
  · refine canonCX_bind (canonCX_value hp) fun q h => ?_
    obtain ⟨v, y⟩ := q
    dsimp only
    refine canonCX_bind (canonCX_bias ?_) fun _ h => h
    split
    · split
      · exact canon_onCore h fun _ => canonCore_accMat
      · exact h
    · exact h
  · exact canonCX_ite h (canonCX_bind (canonCX_putUnit h) fun _ h => h)

/-! ### GMS -/

theorem canonCX_gmsSums {r wb n xs} {left kk : Nat} {acc : List Nat} (hx : x.s.Canon σ) :
    CanonCX σ Prod.snd (x.gmsSums r wb n xs left kk acc) := by
  induction left generalizing x kk acc with
  | zero => exact hx
  | succ left ih => exact canonCX_bind (canonCX_lines hx) fun q h => ih h

theorem canonCX_combine {r e va} {l : List Nat} {nan : Bool} (hx : x.s.Canon σ) : CanonCX σ Prod.snd (x.combine r e va l nan) := by
  induction l generalizing x va nan with
  | nil => exact hx
  | cons y l ih => exact canonCX_bind (canonCX_take hx (canon_eComb hx)) fun q h => ih h

theorem canonCX_gmsUnits {r wb out xs} {left n : Nat} {nan : Bool} (hx : x.s.Canon σ) :
    CanonCX σ Prod.snd (x.gmsUnits r wb out xs left n nan) := by
  induction left generalizing x n nan with
  | zero => exact hx
  | succ left ih => exact canonCX_bind (canonCX_gmsSums hx) fun q h => canonCX_bind (canonCX_combine h) fun q h => ih h

theorem canonCX_gmsStep {r at'} (hx : x.s.Canon σ) : CanonCX σ Prod.snd (x.gmsStep r at') := by
  unfold CX.gmsStep
  refine canonCX_ite hx (canonCX_bind (canonCX_num hx) fun q h => canonCX_bind (canonCX_num h) fun q h => canonCX_bind (canonCX_num h) fun q h => ?_)
  refine canonCX_ite h (canonCX_ite h (canonCX_bind (canonCX_num h) fun q h => canonCX_bind (canonCX_num h) fun q h => canonCX_ite h ?_))
  exact canonCX_bind (canonCX_bytes h) fun q h => canonCX_bind (canonCX_gmsUnits h) fun _ h => h

/-! ### Collectives -/

theorem canonCX_leaf {r own rank i n} (hx : x.s.Canon σ) : CanonCX σ Prod.snd (x.leaf r own rank i n) := by
  unfold CX.leaf
  exact canonCX_ite (canonCX_lines hx) (canon_fresh hx)

theorem canonCX_leaves {r own i n} {left : Nat} {acc : List (List Line)} (hx : x.s.Canon σ) :
    CanonCX σ Prod.snd (x.leaves r own i n left acc) := by
  induction left generalizing x acc with
  | zero => exact hx
  | succ left ih => exact canonCX_bind (canonCX_leaf hx) fun q h => ih h

theorem canonCX_collStep {r p own at'} (hx : x.s.Canon σ) : CanonCX σ (fun q => q.2.2.2) (x.collStep r p own at') := by
  unfold CX.collStep
  dsimp only
  split
  · exact hx
  · split
    · refine canonCX_bind (canonCX_leaf hx) fun q h => ?_
      refine canonCX_ite (canonCX_bind (canonCX_lines h) fun q h => ?_) (canonCX_bind (f := Prod.snd) (m := .ok ([], q.2)) h fun q h => ?_) <;>
        exact canonCX_bind (f := id) (canonCX_foldlM h fun z q hz => canonCX_ite hz (canonCX_put hz)) fun _ h => h
    · exact canonCX_bind (canonCX_leaves hx) fun q h => canonCX_bind (canonCX_putUnit h) fun _ h => h

end Sys2Proof.Machine
end

section
/-! SUPPORT. Canonical form: cards, and the services of homes. -/
namespace Sys2Proof.Machine
open Host (Cell)
variable {σ : Stores} {s t : State} {k : Core}

/-! ### Cards -/

theorem canon_cardErr {lvl unit r lane} {bad : State → State} {e : CErr} (hs : s.Canon σ) (hb : ∀ t, t.Canon σ → (bad t).Canon σ)
    (he : e.Canon σ) : (s.cardErr lvl unit r lane bad e).Canon σ := by
  cases e with
  | wait => exact hs
  | page f => exact canon_holdFor hs
  | final x f => exact canon_onCard (canon_ite (hb _ (canon_dropEbuf (canon_unhold he))) (canon_dropEbuf (canon_unhold he)))
  | idx x => exact canon_onCard (canon_dropEbuf (canon_unhold he))

theorem canon_cardRead {lvl unit r lane} {bad : State → State} {step : CX → Except CErr State} (hs : s.Canon σ)
    (hb : ∀ t, t.Canon σ → (bad t).Canon σ) (hk : ∀ x : CX, x.s.Canon σ → Meets (CErr.Canon σ) (State.Canon σ) (step x)) :
    (s.cardRead lvl unit r lane bad step).Canon σ := by
  unfold State.cardRead
  refine canon_ite hs ?_
  have hr := hk { s := s, own := r.who.engine (unitAgent lvl unit), a := r.who.engine (unitAgent lvl unit), tag := cardTag r.id, lane := lane } hs
  split
  · next e => rw [e] at hr; exact canon_unhold hr
  · next e => rw [e] at hr; exact canon_cardErr hs hb hr

theorem canon_cardStep {lvl unit r lane} {bad : State → State} {step : CX → Except CErr (List Nat × CX)} {fin : List Nat → State → State}
    (hs : s.Canon σ) (hb : ∀ t, t.Canon σ → (bad t).Canon σ) (hk : ∀ x : CX, x.s.Canon σ → CanonCX σ Prod.snd (step x))
    (hf : ∀ n t, t.Canon σ → (fin n t).Canon σ) : (s.cardStep lvl unit r lane bad step fin).Canon σ := by
  unfold State.cardStep
  dsimp only
  split
  · refine canon_cardRead hs hb fun x hx => meets_bind (hk _ (canon_setEbuf hx)) fun q hq => meets_pure ?_
    split
    · exact canon_ite (hf _ _ (canon_dropEbuf hq)) (canon_setEbuf hq)
    · exact hf _ _ hq
  · refine canon_ite ?_ hs
    split
    · exact canon_ite (hf _ _ (canon_dropEbuf hs)) hs
    · exact canon_cardRead hs hb fun x hx => meets_bind (canonCX_take hx (canon_eStore hx)) fun q hq => canon_setEbuf hq

theorem canon_cardAccept {lvl unit i} (hs : s.Canon σ) : (s.cardAccept lvl unit i).Canon σ := by
  unfold State.cardAccept
  split
  · exact hs
  · refine canon_ite hs (canon_cardRead hs (fun _ h => h) fun x hx => ?_)
    refine meets_ite (meets_pure ?_) (meets_bind (canonCX_entries hx) fun q hq => meets_pure ?_)
    · exact canon_ite hx (canon_onCard hx)
    · exact canon_ite hq (canon_onCard hq)

theorem canon_unitStep {lvl unit core r} (hs : s.Canon σ) : (s.unitStep lvl unit core r).Canon σ := by
  unfold State.unitStep
  refine canon_ite (canon_cardStep hs (fun _ => canon_poisonUnit) (fun x hx => ?_) fun _ _ => canon_onCard)
    (canon_cardStep hs (fun _ => canon_poisonUnit) (fun x hx => ?_) fun _ _ => canon_onCard)
  · exact canonCX_bind (canonCX_gmsStep hx) fun _ h => h
  · exact canonCX_bind (canonCX_step hx) fun _ h => h

theorem canon_cardRun {core} (hs : s.Canon σ) : (s.cardRun core).Canon σ := by
  unfold State.cardRun
  split
  · exact hs
  · refine canon_ite hs (canon_ite (canon_unitStep hs) ?_)
    dsimp only
    split
    · exact canon_setCore hs (canon_core hs)
    · split
      · exact hs
      · exact canon_onCard (canon_setCore hs (canon_core hs))

theorem canon_collRun (hs : s.Canon σ) : s.collRun.Canon σ := by
  unfold State.collRun
  split
  · exact hs
  · refine canon_ite hs (canon_ite (canon_onCard (canon_used hs)) ?_)
    refine canon_cardStep (canon_ite (canon_used hs) hs) (fun _ h => h) (fun x hx => ?_) fun _ _ => canon_onCard
    exact canonCX_bind (canonCX_collStep hx) fun _ h => h

theorem canon_peerRun {unit} (hs : s.Canon σ) : (s.peerRun unit).Canon σ := by
  unfold State.peerRun
  split
  · exact hs
  · exact canon_ite hs (canon_ite (canon_onCard hs) (canon_ite (canon_onCard (canon_dropEbuf hs)) (canon_unitStep hs)))

theorem canon_gmsSplit {lvl unit r} (hs : s.Canon σ) : (s.gmsSplit lvl unit r).Canon σ := by
  unfold State.gmsSplit
  exact canon_cardRead hs (fun _ h => h) fun x hx => meets_bind (canonCX_num hx) fun q hq => canon_onCard hq

theorem canon_pushCard {lvl unit card who origin parent part pairs at'} (hs : s.Canon σ)
    (e : s.pushCard lvl unit card who origin parent part pairs at' = some t) : t.Canon σ := by
  unfold State.pushCard at e
  dsimp only at e
  split at e
  · cases e
  · cases e; exact canon_onUnit hs

theorem canon_issueChild {lvl unit r} (hs : s.Canon σ) : (s.issueChild lvl unit r).Canon σ := by
  unfold State.issueChild
  refine canon_ite (canon_onCard hs) ?_
  split
  · exact canon_onCard hs
  · dsimp only
    split
    · exact hs
    · next e => exact canon_onCard (canon_onUnit (canon_pushCard hs e))

theorem canon_decompose {lvl unit} (hs : s.Canon σ) : (s.decompose lvl unit).Canon σ := by
  unfold State.decompose
  dsimp only
  split
  · exact canon_unitStep hs
  · split
    · exact hs
    · exact canon_ite hs (canon_ite (canon_gmsSplit hs) (canon_ite (canon_onCard hs) (canon_issueChild hs)))

/-! ### Services -/

/-- A service that may not be possible leaves the stores in canonical form where it is. -/
def CanonOpt (σ : Stores) : Option State → Prop
  | some t => t.Canon σ
  | none => True

theorem canonOpt_some (h : t.Canon σ) : CanonOpt σ (some t) := h

theorem canonOpt_ite {c : Prop} [Decidable c] {o p : Option State} (ho : CanonOpt σ o) (hp : CanonOpt σ p) : CanonOpt σ (if c then o else p) := by
  split <;> assumption

theorem canonOpt_map {o : Option State} {f : State → State} (ho : CanonOpt σ o) (hf : ∀ t, t.Canon σ → (f t).Canon σ) :
    CanonOpt σ (o.map f) := by
  cases o with
  | none => trivial
  | some u => exact hf _ ho

theorem canon_getD {o : Option State} (ho : CanonOpt σ o) (hs : s.Canon σ) : (o.getD s).Canon σ := by
  cases o with
  | none => exact hs
  | some u => exact ho

theorem canonOpt_answer {r} {v : Served} (hv : v.Canon σ) : CanonOpt σ (v.answer r) := by
  cases v with
  | done l u => exact canon_reply hv
  | fail f u => exact canon_reply hv
  | hold u => exact hv
  | wait => trivial

theorem canonOpt_acked {r j} {v : Served} (hv : v.Canon σ) : CanonOpt σ (v.acked r j) := by
  cases v with
  | done l u => exact canon_ackStore hv
  | fail f u =>
    unfold Served.acked
    dsimp only
    split
    · exact hv
    · exact canon_ackStore hv
  | hold u => exact hv
  | wait => trivial

theorem canonOpt_servePool {r core off win ea} (hs : s.Canon σ) : CanonOpt σ (s.servePool r core off win ea) := by
  unfold State.servePool
  split
  · exact canon_send hs
  · cases r.op with
    | load n _ => exact canonOpt_answer (canon_pLoad hs)
    | store d m _ j => exact canonOpt_acked (canon_pStore hs)
    | atom op wd b cmp => exact canonOpt_answer (canon_pAtom hs)
    | wpset i kind scope =>  exact canon_reply (canon_onCore_same hs (fun _ => rfl) (fun _ => rfl))
    | wpclr i =>  exact canon_reply (canon_onCore_same hs (fun _ => rfl) (fun _ => rfl))
    | lds | sts | ldf | feset | feclr => exact canonOpt_some (canon_pSync hs)
    | _ => exact canonOpt_some hs

theorem canon_gPref {a va} (hs : s.Canon σ) : (s.gPref a va).Canon σ := by
  unfold State.gPref
  split
  · next e => exact canon_snd e (canon_gCheck0 hs)
  · next e => exact canon_fireGlob (canon_readXl (canon_snd e (canon_gCheck0 hs)))

theorem canon_gAtom {a va op wd b cmp} (hs : s.Canon σ) : (s.gAtom a va op wd b cmp).Canon σ := by
  unfold State.gAtom
  dsimp only
  split
  · next e => exact canon_snd e (canon_gCheck hs)
  · next e =>
    split
    · trivial
    · exact canon_fireGlob (canon_writeXl (canon_readLead (canon_snd e (canon_gCheck hs))))

theorem canon_readSlot {a va} (hs : s.Canon σ) : (s.readSlot a va).2.Canon σ := by
  unfold State.readSlot
  split
  · next e => exact canon_snd e (canon_gCheck0 hs)
  · next e => exact canon_readXl (canon_snd e (canon_gCheck0 hs))

theorem canon_serveMerge {a va n c0 c1 c2 c3 v} {o : Option Word} (hs : s.Canon σ)
    (e : s.serveMerge a va n c0 c1 c2 c3 v = some (o, t)) : t.Canon σ := by
  unfold State.serveMerge at e
  split at e
  · next er => cases e; exact canon_snd er (canon_readSlot hs)
  · next er =>
    dsimp only at e
    split at e
    · cases e
    · cases e; exact canon_fireGlob (canon_instPut (canon_snd er (canon_readSlot hs)))

theorem canonOpt_serveGlob {r va} (hs : s.Canon σ) : CanonOpt σ (s.serveGlob r va) := by
  unfold State.serveGlob
  dsimp only
  split
  · exact canonOpt_answer (canon_gLoad hs)
  · split
    · next e => exact canon_reply (canon_done e (canon_gPref hs))
    · next e => exact canon_reply (canon_fail e (canon_gPref hs))
    · exact hs
  · exact canonOpt_map (canonOpt_acked (canon_gStore hs)) fun _ => canon_mailWake
  · exact canonOpt_map (canonOpt_answer (canon_gAtom hs)) fun _ => canon_mailWake
  · split
    · next e => exact canonOpt_ite (canonOpt_some (canon_reply (canon_done e (canon_gLoad hs)))) trivial
    · next e => exact canon_reply (canon_fail e (canon_gLoad hs))
    · trivial
  · exact canon_reply (canon_gProbe hs)
  · cases e : s.serveMerge r.who va _ _ _ _ _ _ with
    | none => trivial
    | some p => exact canon_send (canon_mailWake (canon_serveMerge hs e))
  · refine canonOpt_some (canon_ite (canon_reply ?_) ?_) <;>
    · split
      exacts [canon_send (canon_readSlot hs), canon_readSlot hs]
  · exact canon_reply (canon_onStop hs)
  · exact canon_reply (canon_onStop hs)
  · exact hs

theorem canonOpt_servePeer {r g n va} (hs : s.Canon σ) : CanonOpt σ (s.servePeer r g n va) := by
  have hw : ∀ m, (s.setPeerCells (peerKey g n) (wrMasked (s.peerCells (peerKey g n)) (fld va 56 0 / 64 * 64) m (BitVec.allOnes 64) 64)).used.Canon σ
      :=
    fun m => canon_used (canon_setPeerCells hs (cellsOk_wrMasked · _ _ _ _))
  unfold State.servePeer
  dsimp only
  refine canonOpt_ite (canonOpt_serveGlob hs) (canonOpt_ite ?_ ?_)
  · split
    · exact canon_ackStore hs
    · exact canon_reply hs
  · split
    · exact canon_ackStore (hw _)
    · exact canon_reply (hw _)
    · exact canon_reply (hw _)
    · exact canon_ackStore (canon_setPeerCells (hw _) (cellsOk_wrMasked · _ _ _ _))
    · exact canon_reply (canon_setPeerCells (hw _) (cellsOk_wrN · _ _ _))
    · exact hw _

theorem canon_schedRead {a va n} {f : Nat → State → Word × State} (hs : s.Canon σ) (hf : ∀ x t, t.Canon σ → (f x t).2.Canon σ) :
    (s.schedRead a va n f).Canon σ := by
  unfold State.schedRead
  split
  · next e => exact hf _ _ (canon_done e (canon_gLoad hs))
  · exact canon_gLoad hs

theorem canon_schedServe {a op} {v : Served} (hs : s.Canon σ) (e : s.schedServe a op = some v) : v.Canon σ := by
  unfold State.schedServe at e
  split at e <;> cases e
  · exact canon_newGraph hs
  · exact canon_newEdge hs
  · exact canon_dropGraph hs
  · exact canon_grabTake hs
  · exact canon_schedRead hs fun _ _ => canon_grabSet
  · exact hs

theorem canonOpt_serveUnit {r} (hs : s.Canon σ) : CanonOpt σ (s.serveUnit r) := by
  unfold State.serveUnit
  split
  · exact canon_reply hs
  · exact canonOpt_answer (canon_saveTo hs)
  · split
    · next e => exact canonOpt_answer (canon_schedServe hs e)
    · exact hs

theorem canonOpt_serve {r} (hs : s.Canon σ) : CanonOpt σ (s.serve r) := by
  unfold State.serve
  split
  · exact canonOpt_map (canonOpt_servePool hs) fun _ => canon_outsideWrite
  · exact canonOpt_serveGlob hs
  · exact canonOpt_servePeer hs
  · exact canonOpt_serveUnit hs

theorem canon_serveHome {q} (hs : s.Canon σ) : (s.serveHome q).Canon σ := by
  unfold State.serveHome
  split
  · exact canon_forwardOne hs
  · next r e =>
    dsimp only
    split
    · have hr := canonOpt_serve (σ := σ) (s := { s with homes := dropAt s.homes q }) (r := r) hs
      cases e : ({ s with homes := dropAt s.homes q } : State).serve r with
      | none => exact hs
      | some u => rw [e] at hr; exact canon_holdAcks hr
    · exact hs

end Sys2Proof.Machine
end

section
/-! SUPPORT. Canonical form: reissues, drains and the halves of a pair. -/
namespace Sys2Proof.Machine
variable {σ : Stores} {s t : State} {k : Core}

theorem canon_reissue {core pos} (hs : s.Canon σ) : (s.reissue core pos).Canon σ := by
  unfold State.reissue
  split
  · exact hs
  · dsimp only
    split
    · exact hs
    · split
      · exact hs
      · split
        exacts [hs, canon_ite (canon_onCtx (canon_onCore_same (canon_ite (canon_body hs) hs) (fun _ => rfl) (fun _ => rfl)))
            (canon_dropCapture (canon_onCore_same (canon_ite (canon_body hs) hs) (fun _ => rfl) (fun _ => rfl)))]

theorem canon_drainAny {core x} (hs : s.Canon σ) : (s.drainAny core x).Canon σ := by
  unfold State.drainAny
  exact canon_ite (canon_drainCtx hs) (canon_ite (canon_streamDrain hs) (canon_ite (canon_drainLeft hs) (canon_dropStep hs)))

theorem canon_wAtom {a va op b cmp k} (hs : s.Canon σ) (hk : ∀ (a : Word) (t : State), t.Canon σ → (k a t).Canon σ) : (s.wAtom a va op b cmp k).Canon
    σ := by
  unfold State.wAtom
  split
  exacts [hk _ _ (canon_done ‹_› (canonServed_mailWake (canon_gAtom hs))), canonServed_mailWake (canon_gAtom hs)]

theorem canon_addCount {a tile n k} (hs : s.Canon σ) (hk : ∀ (t : State), t.Canon σ → (k t).Canon σ) : (s.addCount a tile n k).Canon σ :=
  canon_wAtom hs (fun _ _ h1 => (hk _ h1))

theorem canon_doHalf {h i v} (hs : s.Canon σ) : (s.doHalf h i v).Canon σ := by
  unfold State.doHalf
  dsimp only
  split
  exacts [canon_perform (canon_atHalf hs) (fun _ h1 => (canon_body h1)), canon_noteCapture (canon_atHalf hs)]

theorem canon_halfFlags {h i v} (hs : s.Canon σ) : (s.halfFlags h i v).1.Canon σ := by
  unfold State.halfFlags
  split
  exacts [canon_onRegs (canon_doHalf (canon_onRegs hs)), canon_doHalf hs]

end Sys2Proof.Machine
end

section
/-! SUPPORT. Canonical form: replies, kicks, instances and walks. -/
namespace Sys2Proof.Machine
open Host (Cell)
variable {σ : Stores} {s t : State} {k : Core}

/-! ### Replies, acknowledgements and kicks -/

theorem canon_deliverReply {r} (hs : s.Canon σ) : (s.deliverReply r).Canon σ := by
  unfold State.deliverReply
  dsimp only
  split
  · split
    · refine canon_onCore (canon_replyLog hs) fun k hk => ?_
      split
      · exact canonCore_snapPlace hk
      · exact hk
    · exact canon_setCtx (canon_replyLog hs)
  · split
    · split
      · split
        · exact canon_putSaved hs
        · exact canon_putSaved (canon_landIn hs)
      · exact canon_putSaved (canon_landIn hs)
    · exact canon_strayAt hs

theorem canon_deliverMsg {i} (hs : s.Canon σ) : (s.deliverMsg i).Canon σ := by
  unfold State.deliverMsg
  split
  · exact hs
  · refine canon_ite (canon_discard hs) ?_
    split
    · exact canon_ite hs hs
    · exact canon_deliverReply (canon_unsend hs)
    · exact canon_ite (canon_send (canon_withdraw (canon_unsend hs))) (canon_unsend hs)
    · exact canon_ite (canon_clbPoison (canon_unsend hs)) (canon_ite hs (canon_send (canon_unsend hs)))
    · exact hs

theorem canon_storeAcked {core j fault} (hs : s.Canon σ) : (s.storeAcked core j fault).Canon σ := by
  unfold State.storeAcked
  cases fault with
  | none =>
    dsimp only
    split
    · exact canon_deliverReply (canon_onCore_same hs (fun _ => rfl) (fun _ => rfl))
    · exact canon_onCore_same hs (fun _ => rfl) (fun _ => rfl)
  | some f =>
    dsimp only
    split
    · refine canon_deliverReply (canon_ite ?_ ?_) <;> exact canon_onCore_same hs (fun _ => rfl) (fun _ => rfl)
    · refine canon_ite ?_ ?_ <;> exact canon_onCore_same hs (fun _ => rfl) (fun _ => rfl)

theorem canon_endInst {i} {n : Nat} (hs : s.Canon σ) : (s.endInst i n).Canon σ := by
  induction n generalizing s i with
  | zero => exact hs
  | succ n ih =>
    unfold State.endInst
    split
    · exact hs
    · refine canon_ite hs ?_
      dsimp only
      split
      · exact canon_onInst (canon_mailbox hs)
      · exact ih (canon_queueReady (canon_onInst (canon_onInst (canon_mailbox hs))))

theorem canon_newInst {tenant g mbox} (hs : s.Canon σ) : (s.newInst tenant g mbox).2.Canon σ := by
  unfold State.newInst
  split
  · exact hs
  · dsimp only
    split
    · exact hs
    · split
      · exact canon_onSched hs
      · split
        · exact hs
        · exact canon_endInst (canon_queueReady (canon_onSched hs))

theorem canon_nodeComplete {i v} (hs : s.Canon σ) : (s.nodeComplete i v).Canon σ := by
  unfold State.nodeComplete
  split
  · exact hs
  · split
    · exact hs
    · exact canon_endInst (canon_queueReady (canon_onInst hs))

theorem canon_schedKick {a op} {v : Served} (hs : s.Canon σ) (e : s.schedKick a op = some v) : v.Canon σ := by
  unfold State.schedKick at e
  split at e <;> cases e
  · exact canon_schedRead hs fun _ _ => canon_accept
  · exact canon_schedRead hs fun _ _ => canon_newNode
  · exact canon_newInst hs
  · exact canon_eventDone hs

theorem canon_kickAccept {i} (hs : s.Canon σ) : (s.kickAccept i).Canon σ := by
  unfold State.kickAccept
  split
  · split
    · refine canon_ite hs ?_
      dsimp only
      split
      · split
        · next e => exact canon_reply (canon_pushCard (canon_unsend hs) e)
        · exact hs
      · exact canon_reply (canon_addCopy (canon_unsend hs))
      · exact canon_reply (canon_addCopy (canon_unsend hs))
      · refine canon_engineRead hs (fun x hx => canonEX_bind (canonEX_entry hx) fun q hq => ?_) fun _ _ h => canon_reply h
        obtain ⟨o, y⟩ := q
        cases o with
        | none => exact canon_onCore (canon_unsend hq) fun _ => canonCore_raiseCounter
        | some e => exact canon_addCopy (canon_unsend hq)
      · split
        · exact canon_reply (canon_unsend hs)
        · refine canon_engineRead hs (fun x hx => canonEX_bind (canonEX_entry hx) fun q hq => ?_) fun _ _ h => canon_reply h
          exact canon_onStream (canon_unsend hq)
      · split
        · exact canon_reply (canon_unsend hs)
        · refine canon_engineRead hs (fun _ => canonEX_strips) fun t f ht => ?_
          split
          · exact canon_onThread ht
          · exact ht
      · split
        · next e => exact canon_getD (canonOpt_answer (canon_schedKick (canon_unsend hs) e)) hs
        · exact hs
    · exact hs
  · exact hs

theorem canon_engineRetry {i} (hs : s.Canon σ) : (s.engineRetry i).Canon σ := by
  unfold State.engineRetry
  split
  · exact hs
  · refine canon_ite hs ?_
    dsimp only
    split
    · split
      · exact hs
      · split
        · exact canon_unhold hs
        · split
          · exact canon_ite (canon_cardAccept hs) (canon_ite (canon_cardRun hs) (canon_ite (canon_collRun hs)
              (canon_ite hs (canon_ite (canon_peerRun hs) (canon_decompose hs)))))
          · exact hs
    · split
      · split
        · exact hs
        · split
          · exact canon_kickAccept hs
          · exact canon_unhold hs
      · split
        · split
          · exact hs
          · split
            · exact canon_ite (canon_streamDrain hs) (canon_stripStep hs)
            · exact canon_unhold hs
        · split
          · exact hs
          · split
            · split
              · exact canon_stageStep hs
              · exact canon_chunkStep hs
              · exact canon_dealStep hs
              · exact canon_gatherStep hs
              · exact canon_dropStep hs
              · exact hs
            · exact canon_unhold hs

theorem canon_visit {level} {l : List Nat} (hs : s.Canon σ) : (s.visit level l).Canon σ := by
  induction l generalizing s with
  | nil => exact hs
  | cons t l ih =>
    unfold State.visit
    dsimp only
    split
    · split
      · exact canon_startHead (canon_onSched hs)
      · exact canon_onSched hs
    · exact ih (canon_onSched hs)

theorem canon_launchStart (hs : s.Canon σ) : s.launchStart.Canon σ := by
  unfold State.launchStart
  exact canon_ite hs (canon_visit (canon_used hs))

/-! ### Walks -/

theorem canonServed_ite {c : Prop} [Decidable c] {u v : Served} (hu : u.Canon σ) (hv : v.Canon σ) : (if c then u else v).Canon σ := by
  split <;> assumption

theorem canon_cas16 {a va head gen head' gen'} (hs : s.Canon σ) : (s.cas16 a va head gen head' gen').Canon σ := by
  unfold State.cas16
  dsimp only
  split
  · next e => exact canon_snd e (canon_gCheck hs)
  · next e =>
    split
    · trivial
    · refine canon_mailWake (canon_fireGlob (canon_ite (canon_writeXl ?_) ?_)) <;> exact canon_readLead (canon_snd e (canon_gCheck hs))

theorem canon_setPair {a va head gen head'} {c : State → Served} (hs : s.Canon σ) (hc : ∀ t, t.Canon σ → (c t).Canon σ) :
    (s.setPair a va head gen head' c).Canon σ := by
  unfold State.setPair
  split
  · next e => exact canonServed_ite (hc _ (canon_done e (canon_cas16 hs))) trivial
  · exact canon_cas16 hs

theorem canon_poolPop {a e list} {c : Word → State → Served} (hs : s.Canon σ) (hc : ∀ w t, t.Canon σ → (c w t).Canon σ) :
    (s.poolPop a e list c).Canon σ := by
  unfold State.poolPop
  exact canon_onPool hs fun t ht => canon_load16 ht fun _ _ t ht => canonServed_ite (hc _ _ ht)
    (canon_wLoad ht fun _ t ht => canon_setPair ht (hc _))

theorem canon_fillLines {a va data} {c : State → Served} {n : Nat} (hs : s.Canon σ) (hc : ∀ t, t.Canon σ → (c t).Canon σ) :
    (s.fillLines a va data c n).Canon σ := by
  induction n generalizing s va with
  | zero => exact hc _ hs
  | succ n ih => exact canon_wStore hs fun t ht => ih ht

theorem canon_newBlock {a e c leaf slot b} {f : State → Served} (hs : s.Canon σ) (hf : ∀ t, t.Canon σ → (f t).Canon σ) :
    (s.newBlock a e c leaf slot b f).Canon σ := by
  unfold State.newBlock
  exact canonServed_ite (canon_wStore hs fun t ht => canon_fillLines ht hf) (canon_fillLines hs hf)

theorem canon_poolPush {a e list b} {c : State → Served} (hs : s.Canon σ) (hc : ∀ t, t.Canon σ → (c t).Canon σ) :
    (s.poolPush a e list b c).Canon σ := by
  unfold State.poolPush
  exact canon_onPool hs fun t ht => canon_load16 ht fun _ _ t ht => canon_wStore ht fun t ht => canon_setPair ht hc

theorem canon_locate {a e c alloc} {f : Loc → State → Served} {n : Nat} {node : Word} (hs : s.Canon σ)
    (hf : ∀ l t, t.Canon σ → (f l t).Canon σ) : (s.locate a e c alloc f n node).Canon σ := by
  induction n generalizing s node with
  | zero => exact hf _ _ hs
  | succ n ih =>
    unfold State.locate
    refine canon_wLoad hs fun child t ht => canonServed_ite (ih ht) (canonServed_ite (hf _ _ ht) ?_)
    refine canon_poolPop ht fun b t ht => canonServed_ite (hf _ _ ht) (canon_newBlock ht fun t ht => ?_)
    exact canon_wAtom ht fun old t ht => canonServed_ite (ih ht) (canon_poolPush ht fun t ht => ih ht)

theorem canon_tileOf {core a tid e c alloc fill} {f : Loc → State → Served} (hs : s.Canon σ)
    (hf : ∀ l t, t.Canon σ → (f l t).Canon σ) : (s.tileOf core a tid e c alloc fill f).Canon σ := by
  unfold State.tileOf
  dsimp only
  split
  · exact hf _ _ (canon_onCore hs fun _ => canonCore_clbFill)
  · refine canon_locate hs fun l t ht => ?_
    split
    · exact hf _ _ (canon_ite (canon_onCore ht fun _ => canonCore_clbFill) ht)
    · exact hf _ _ ht

theorem canon_elemsFrom {core a sb e c tile} {acc : List Nat} {f : List Nat → State → Served} {n : Nat} {ch : Int} (hs : s.Canon σ)
    (hf : ∀ l t, t.Canon σ → (f l t).Canon σ) : (s.elemsFrom core a sb e c tile acc f n ch).Canon σ := by
  induction n generalizing s acc ch with
  | zero => exact hf _ _ hs
  | succ n ih =>
    unfold State.elemsFrom
    exact canonServed_ite (ih hs) (canon_elemLoad hs fun x t ht => ih ht)

theorem canon_bgStore {core a e va len} {c : State → Served} {n : Nat} (hs : s.Canon σ) (hc : ∀ t, t.Canon σ → (c t).Canon σ) :
    (s.bgStore core a e va len c n).Canon σ := by
  induction n generalizing s va len with
  | zero => exact hc _ hs
  | succ n ih =>
    unfold State.bgStore
    exact canonServed_ite (hc _ hs) (canon_wStore hs fun t ht => ih (canon_onCore ht fun _ => canonCore_snapDrop))

theorem canon_serveWalk {r} (hs : s.Canon σ) : (s.serveWalk r).Canon σ := by
  have hw : ∀ w (t : State), t.Canon σ → (wordAns w t).Canon σ := fun _ _ => canon_wordAns
  unfold State.serveWalk
  split
  · dsimp only
    split
    · refine canon_tileOf hs fun l t ht => ?_
      split
      · exact canon_wLoad ht fun _ t ht => canonServed_ite ht (canon_elemsFrom ht fun _ _ ht => ht)
      · exact ht
    · refine canon_tileOf hs fun l t ht => ?_
      split
      · exact canon_wAtom ht fun _ t ht => canonServed_ite (canon_addCount ht (hw _)) (hw _ _ ht)
      · exact hw _ _ ht
    · refine canon_tileOf hs fun l t ht => ?_
      split
      · exact canon_wLoad ht fun _ _ => hw _ _
      · exact hw _ _ ht
    · refine canon_locate hs fun l t ht => ?_
      split
      · exact hw _ _ ht
      · exact hw _ _ ht
    · refine canon_locate hs fun l t ht => ?_
      split
      · exact canon_wLoad ht fun _ t ht => canonServed_ite (hw _ _ ht) (canon_wLoad ht fun _ t ht => canon_wAtom ht fun _ _ => hw _ _)
      · exact hw _ _ ht
    · exact canon_poolPush hs (hw _)
    · exact canon_poolPush hs (hw _)
    · refine canon_tileOf hs fun l t ht => ?_
      split
      · exact hw _ _ ht
      · exact hw _ _ ht
    · refine canon_tileOf hs fun l t ht => ?_
      split
      · exact canon_bgStore ht fun t ht => canon_wAtom ht fun _ t ht => canonServed_ite (canon_addCount ht (hw _)) (hw _ _ ht)
      · exact hw _ _ ht
  · trivial

theorem canon_walkUndone (ht : t.Canon σ) (hs : s.Canon σ) : (t.walkUndone s).Canon σ := by
  cases σ with
  | memory => exact hs
  | pools => exact ht

theorem canon_clbWalk {i} (hs : s.Canon σ) : (s.clbWalk i).Canon σ := by
  unfold State.clbWalk
  split
  · refine canon_ite hs ?_
    split
    · next e => exact canon_getD (canonOpt_answer (canon_walkUndone (canon_fail e (canon_serveWalk (canon_unsend hs))) (canon_unsend hs))) hs
    · exact canon_getD (canonOpt_answer (canon_serveWalk (canon_unsend hs))) hs
  · exact hs

end Sys2Proof.Machine
end

section
/-! SUPPORT. Canonical form: frames, images, the debugger, pairs and checkpoints. -/
namespace Sys2Proof.Machine
open Host (Cell)
variable {σ : Stores} {s t : State} {k : Core}

/-! ### Frames, save areas and images -/

theorem canon_rename {old new} (hs : s.Canon σ) : (s.rename old new).Canon σ := by
  unfold State.rename
  dsimp only
  refine canon_onCore_same (canon_onSched hs) (fun k => ?_) (fun k => ?_)
  · rfl
  · rfl

theorem canon_restore {core x oldX c} (hs : s.Canon σ) : (s.restore core x oldX c).Canon σ := by
  unfold State.restore
  refine canon_replayAll (canon_onCore_same (canon_rename hs) (fun _ => rfl) (fun _ => rfl))

theorem canon_restorePaged {core} (hs : s.Canon σ) : (s.restorePaged core).Canon σ := by
  unfold State.restorePaged
  dsimp only
  split
  · split
    · exact hs
    · refine canon_ite hs ?_
      have hr : ∀ (f : Core → Core) x old c (g : Ctx → Ctx), (∀ k, (f k).pool = k.pool) → (∀ k, (f k).opmem = k.opmem) →
          (((s.onCore core f).restore core x old c).onCtx core x g).Canon σ :=
        fun f x old c g h1 h2 => canon_onCtx (canon_restore (canon_onCore_same hs h1 h2))
      split
      · exact canon_loadFault (canon_acting (hr _ _ _ _ _ (fun _ => rfl) (fun _ => rfl)))
      · exact hr _ _ _ _ _ (fun _ => rfl) (fun _ => rfl)
  · exact hs

theorem canon_frameLoad {a key va} (hs : s.Canon σ) : (s.frameLoad a key va).Canon σ := by
  unfold State.frameLoad
  split
  · next e => exact canon_snd e (canon_gCheck hs)
  · next e => exact canon_readXl (canon_snd e (canon_gCheck hs))

theorem canon_frameIn {a key frame} {c : List Line → State → Served} {n : Nat} {acc : List Line} (hs : s.Canon σ)
    (hc : ∀ l t, t.Canon σ → (c l t).Canon σ) : (s.frameIn a key frame c n acc).Canon σ := by
  induction n generalizing s acc with
  | zero => exact hc _ _ hs
  | succ n ih =>
    unfold State.frameIn
    split
    · next e => exact ih (canon_done e (canon_frameLoad hs))
    · exact canon_frameLoad hs

theorem canon_doCtxld {a b} (hs : s.Canon σ) : (doCtxld a b s).Canon σ := by
  unfold doCtxld
  refine canon_ite (canon_trap hs) (canon_ite (canon_trap hs) ?_)
  generalize e : State.frameIn _ _ _ _ _ _ _ = r
  have hr : r.Canon σ := by
    refine e ▸ canon_frameIn hs fun ls t ht => ?_
    refine canon_ite (canon_trap ht) (canon_ite (canon_trap ht) (canon_ite (canon_park ht) (canon_ite (canon_park ht) ?_)))
    exact canon_longValue (canon_onMine_same (canon_restore ht) (fun _ => rfl) (fun _ => rfl))
  cases r with
  | done l t => exact hr
  | fail f t => exact canon_ite (canon_savePaged hr) (canon_loadFault hr)
  | hold t => exact hs
  | wait => exact hs

theorem canon_heldStores {tenant page ok} {l : List Held} (hs : s.Canon σ) : (s.heldStores tenant page ok l).Canon σ := by
  induction l generalizing s with
  | nil => exact hs
  | cons h l ih =>
    unfold State.heldStores
    refine ih ?_
    split
    · split
      · split
        · exact hs
        · exact canon_ackStore hs
      · exact hs
    · exact hs

theorem canon_pageMapped {tenant page ok} (hs : s.Canon σ) : (s.pageMapped tenant page ok).Canon σ := by
  unfold State.pageMapped
  refine canon_foldl ?_ fun _ _ => canon_restorePaged
  exact canon_heldStores (canon_mapCores (s := s) hs fun _ h => h)

theorem canon_schedCommand {c} (hs : s.Canon σ) : (s.schedCommand c).Canon σ := by
  cases c with
  | launch d => exact canon_tell (canon_accept hs)
  | node g d => exact canon_tell (canon_newNode hs)
  | freeze t h l => exact hs

theorem canon_mapPage {va leaf} {n table : Nat} {fr fr' : List Nat} (hs : s.Canon σ)
    (e : State.mapPage va leaf n s table fr = some (t, fr')) : t.Canon σ := by
  induction n generalizing s table fr with
  | zero => cases e; exact hs
  | succ n ih =>
    unfold State.mapPage at e
    dsimp only at e
    split at e
    · cases e; exact canon_putLine (canon_readPhys hs)
    · split at e
      · exact ih (canon_readPhys hs) e
      · split at e
        · cases e
        · exact ih (canon_putLine (canon_clearFrame (canon_readPhys hs))) e

theorem canon_mapPages {tenant root} {l : List (Nat × Nat)} {fr fr' : List Nat} (hs : s.Canon σ)
    (e : State.mapPages tenant root l s fr = some (t, fr')) : t.Canon σ := by
  induction l generalizing s fr with
  | nil => cases e; exact hs
  | cons q l ih =>
    unfold State.mapPages at e
    split at e
    · cases e
    · split at e
      · cases e
      · next em => exact ih (canon_mapPage (canon_clearFrame hs) em) e

theorem canon_imageMap {tn im frames} (hs : s.Canon σ) (e : s.imageMap tn im frames = some t) : t.Canon σ := by
  unfold State.imageMap at e
  dsimp only at e
  split at e
  · cases e
  · split at e
    · cases e
    · split at e
      · obtain ⟨q, hq, rfl⟩ := Option.map_eq_some_iff.mp e
        exact canon_mapPages hs hq
      · cases e

theorem canon_loadBytes {tn va} {l : List Byte} (hs : s.Canon σ) : (s.loadBytes tn va l).Canon σ := by
  induction l generalizing s va with
  | nil => exact hs
  | cons b l ih => exact ih (canon_loadByte hs)

theorem canon_imageLoad {tenant im frames} (hs : s.Canon σ) : (s.imageLoad tenant im frames).Canon σ := by
  unfold State.imageLoad
  dsimp only
  split
  · exact canon_tell hs
  · next e => exact canon_foldl (canon_imageMap hs e) fun _ _ => canon_loadBytes

theorem canon_putFrame {f page} (hs : s.Canon σ) : (s.putFrame f page).Canon σ := by
  unfold State.putFrame
  split
  · have hl := canon_logFrame (σ := σ) (f := f.2) hs
    generalize s.logFrame f.2 = u at hl ⊢
    exact canon_bytes (s := u) hl (cellsOk_wrBytes · _ _)
  · unfold State.Canon
    dsimp only
    exact canon_peerMem hs (cellsOk_wrBytes · _ _)

theorem canon_copyFrame {src f} (hs : s.Canon σ) : (s.copyFrame src f).Canon σ := canon_putFrame hs

theorem canon_replicaChange {set add remove} (hs : s.Canon σ) : (s.replicaChange set add remove).Canon σ := by
  unfold State.replicaChange
  refine canon_ite hs (canon_setMem ?_ rfl)
  split
  · exact canon_foldl hs fun _ _ => canon_copyFrame
  · exact hs

theorem canon_areaIn {key pa n} (hs : s.Canon σ) : (s.areaIn key pa n).2.Canon σ := by
  unfold State.areaIn
  exact foldl_keeps (p := fun q : List Line × State => q.2.Canon σ) (fun _ _ h => canon_readPhys h) _ _ hs

theorem canon_areaCtx {core pa x} (hs : s.Canon σ) : (s.areaCtx core pa x).Canon σ := by
  unfold State.areaCtx
  dsimp only
  have hi := canon_areaIn (σ := σ) (key := (s.ctx core x).tenant) (pa := pa + areaFrame x) (n := 128) hs
  revert hi
  generalize s.areaIn _ _ 128 = q
  intro hi
  split
  · exact canon_setCtx hi
  · exact hs

/-- What a core makes of the lines of a saved area. -/
def Core.areaRead (k : Core) (pool slots : List Line) : Core :=
  { k with
    pool := (pool.mapIdx fun i l => (i, l)).foldl (fun m p => wrMasked m (64 * p.1) p.2 (BitVec.ofNat 64 (2 ^ 64 - 1)) 64) k.pool
    opmem := (slots.mapIdx fun i l => (i, l)).foldl (fun m p =>
      wrMasked m (p.1 / 17 * 2048 + p.1 % 17 * 64) p.2 (BitVec.ofNat 64 (2 ^ 64 - 1)) 64) k.opmem }

theorem canonCore_areaRead {pool slots} (hk : k.Canon σ) : (k.areaRead pool slots).Canon σ := by
  cases σ with
  | memory => trivial
  | pools =>
    exact ⟨foldl_keeps (p := fun m => cellsOk m = true) (fun _ _ h => cellsOk_wrMasked h _ _ _ _) _ _ hk.1,
      foldl_keeps (p := fun m => cellsOk m = true) (fun _ _ h => cellsOk_wrMasked h _ _ _ _) _ _ hk.2⟩

/-- A reload of a saved area, for any name of the way in which its lines are read. The equation is between functions, and the name is opaque:
the kernel unfolds a match before a function of the model, and would evaluate the reads. -/
theorem areaLoad_eq_of_read {read : State → BitVec 16 → Nat → Nat → List Line × State} (hr : State.areaIn = read) :
    State.areaLoad = fun s core pa =>
      let (pool, s) := read s 0 pa 1024
      let (slots, s) := read s 0 (pa + 0x10000) 544
      (upTo 32).foldl (fun s x => s.areaCtx core pa x) (s.onCore core fun k => k.areaRead pool slots) := by
  delta State.areaLoad Core.areaRead
  rw [hr]
/-- A reload of a saved area: its contexts are read over the core that took the lines of its pool and of its operand memory. -/
theorem areaLoad_of_read {core pa : Nat} {pool slots : List Line} {u v : State} {read : State → BitVec 16 → Nat → Nat → List Line × State}
    (hr : State.areaIn = read) (hp : read s 0 pa 1024 = (pool, u)) (hq : read u 0 (pa + 0x10000) 544 = (slots, v)) :
    s.areaLoad core pa = (upTo 32).foldl (fun s x => s.areaCtx core pa x) (v.onCore core fun k => k.areaRead pool slots) := by
  rw [areaLoad_eq_of_read hr]
  dsimp only
  rw [hp]
  dsimp only
  rw [hq]

theorem canon_areaLoad {core pa} (hs : s.Canon σ) : (s.areaLoad core pa).Canon σ := by
  obtain ⟨⟨pool, u⟩, hp⟩ : ∃ q, s.areaIn 0 pa 1024 = q := ⟨_, rfl⟩
  obtain ⟨⟨slots, v⟩, hq⟩ : ∃ q, u.areaIn 0 (pa + 0x10000) 544 = q := ⟨_, rfl⟩
  have hu : u.Canon σ := by
    have h := canon_areaIn (σ := σ) (key := 0) (pa := pa) (n := 1024) hs
    rw [hp] at h
    exact h
  have hv : v.Canon σ := by
    have h := canon_areaIn (σ := σ) (key := 0) (pa := pa + 0x10000) (n := 544) hu
    rw [hq] at h
    exact h
  rw [areaLoad_of_read rfl hp hq]
  exact canon_foldl (canon_onCore hv fun _ hk => canonCore_areaRead hk) fun _ _ => canon_areaCtx

theorem canon_resumeCore {p} (hs : s.Canon σ) : (s.resumeCore p).Canon σ := by
  unfold State.resumeCore
  exact canon_snapEmpty (canon_onCore_same (canon_areaLoad hs) (fun _ => rfl) (fun _ => rfl))

/-! ### The debugger -/

theorem canon_resumeStop {core} (hs : s.Canon σ) : (s.resumeStop core).Canon σ := by
  unfold State.resumeStop
  refine canon_ite ?_ (canon_flushPorts ?_) <;>
  · refine canon_mapCores (s := s) hs fun q h => ?_
    split <;> exact h

theorem canon_stepGroup {core handle} (hs : s.Canon σ) : (s.stepGroup core handle).Canon σ :=
  canon_mapCores (s := s) hs fun _ h => h

theorem canon_debugCmd {core v} (hs : s.Canon σ) : (s.debugCmd core v).Canon σ := by
  unfold State.debugCmd
  split
  · exact canon_startStop hs
  · exact canon_resumeStop hs
  · exact canon_stepEng (canon_onCtx hs)
  · exact canon_stepEng (canon_stepGroup hs)
  · exact hs

theorem canon_debugWrite {core off v} (hs : s.Canon σ) : (s.debugWrite core off v).Canon σ := by
  unfold State.debugWrite
  split
  · exact canon_onCore_same hs (fun _ => rfl) (fun _ => rfl)
  · exact canon_debugCmd hs
  · exact canon_onCore_same hs (fun _ => rfl) (fun _ => rfl)
  · exact canon_ite (canon_onCore_same hs (fun _ => rfl) (fun _ => rfl)) hs

theorem canon_windowWrite {off v} (hs : s.Canon σ) : (s.windowWrite off v).Canon σ := by
  unfold State.windowWrite
  exact canon_ite (canon_debugWrite hs) (canon_ite (canon_setTick hs) hs)

theorem canon_windowAccess {a wr off n data} (hs : s.Canon σ) : (s.windowAccess a wr off n data).Canon σ := by
  unfold State.windowAccess
  exact canon_ite (canon_windowWrite hs) (canon_used (canon_tellRead hs))

theorem canonOpt_physStore {a addr n data} (hs : s.Canon σ) : CanonOpt σ (s.physStore a addr n data) := by
  unfold State.physStore
  dsimp only
  split
  · exact canon_physRefuse hs
  · split
    · trivial
    · exact canon_mailWake (canon_putLine hs)

theorem canon_physLoad {a addr n} (hs : s.Canon σ) : (s.physLoad a addr n).Canon σ := by
  unfold State.physLoad
  dsimp only
  split
  · exact canon_physRefuse hs
  · exact canon_tellRead (canon_readPhys hs)

theorem canonOpt_physAccess {a wr n addr data} (hs : s.Canon σ) : CanonOpt σ (s.physAccess a wr n addr data) := by
  unfold State.physAccess
  refine canonOpt_ite hs (canonOpt_ite ?_ (canonOpt_ite (canonOpt_physStore hs) (canonOpt_some (canon_physLoad hs))))
  split
  · exact canon_windowAccess hs
  · exact canon_physFault hs

theorem canon_hostAccess {bar2 wr addr data} (hs : s.Canon σ) : (s.hostAccess bar2 wr addr data).Canon σ := by
  unfold State.hostAccess
  exact canon_ite (canon_getD (canonOpt_physAccess hs) hs) (canon_ite (canon_tell hs) (canon_used (canon_tell hs)))

theorem canon_control {r v} (hs : s.Canon σ) : (s.control r v).Canon σ := by
  cases r with
  | coreReg core n =>
    unfold State.control
    dsimp only
    split
    · exact canon_ite (canon_onCore hs fun _ => canonCore_setCsr) hs
    · exact hs
  | debug core off => exact canon_ite (canon_debugWrite hs) hs
  | fabricGroup g w => exact canon_ite hs (canon_ite hs (canon_ite hs hs))
  | tenantRoot n => exact canon_ite hs hs
  | tenantWeight n => exact canon_ite hs hs
  | tickExp => exact canon_setTick hs
  | rectangle c => exact canon_ite hs hs
  | _ => exact hs

/-! ### Pairs -/

theorem canon_pairGo {i j} (hs : s.Canon σ) : (pairGo i j s).Canon σ := by
  unfold pairGo
  split
  · exact canon_refusePair hs
  · refine canon_afterHalf (canon_halfFlags (canon_onCx hs)) hs fun t ht => ?_
    exact canon_afterHalf (canon_halfFlags (canon_onCx ht)) hs fun u hu => canon_finishPair (canon_raise (canon_onCx hu))

theorem canon_pairIssue {w1 w2} (hs : s.Canon σ) : (pairIssue w1 w2 s).Canon σ := by
  unfold pairIssue
  split
  · exact canon_pairGo hs
  · exact canon_refusePair hs
  · exact canon_refusePair hs

/-! ### Checkpoints -/

theorem canon_saved {c : Checkpt} (h : s.Canon σ) (hc : c.cores = s.cores) :
    StateCells σ s.mem.bytes s.cores (some c) s.rel.points s.fabric.peerMem := by
  cases σ with
  | memory => exact h
  | pools =>
    obtain ⟨h1, -, h3, h4⟩ := h
    refine ⟨h1, fun d hd => ?_, h3, h4⟩
    cases hd
    rw [hc]
    exact h1

theorem unwrite_bytes (m : Memory) (r : UndoRec) : (m.unwrite r).bytes = wrMasked m.bytes r.line r.old (BitVec.allOnes 64) 64 := rfl

theorem canon_closeInterval (hs : s.Canon σ) : s.closeInterval.Canon σ := by
  unfold State.closeInterval
  split
  · exact hs
  · have hq : (s.cores.foldl (fun s p => if p.2.stopped then s else s.quiesce p.1) s).Canon σ :=
      canon_foldl hs fun _ _ h => canon_ite h (canon_quiesce h)
    generalize s.cores.foldl _ s = u at hq ⊢
    exact canon_saved (s := u) hq rfl

theorem canon_rollBack (hs : s.Canon σ) : s.rollBack.Canon σ := by
  unfold State.rollBack
  refine canon_ite hs ?_
  split
  · exact hs
  · next c hc =>
    refine canon_snapsEmpty ?_
    cases σ with
    | memory =>
      have hu : ∀ (m : Memory) r, cellsOk m.bytes = true → cellsOk (m.unwrite r).bytes = true := fun m r h => by
        rw [unwrite_bytes]
        exact cellsOk_wrMasked h _ _ _ _
      exact foldl_keeps (p := fun m : Memory => cellsOk m.bytes = true) hu _ _ hs
    | pools =>
      obtain ⟨-, h2, h3, h4⟩ := hs
      exact ⟨h2 c hc, h2, h3, h4⟩

end Sys2Proof.Machine
end

section
/-! SUPPORT. Canonical form: the rows of the opcode table. -/
namespace Sys2Proof.Machine
open Host (Cell)
variable {σ : Stores} {s t : State} {k : Core}

/-! ### Rows of the opcode table -/

/-- A row's answer keeps the canonical form where it answers a state. -/
def CanonOut (σ : Stores) : Host.Outcome State Fault Refusal → Prop
  | .next t => t.Canon σ
  | .fault _ | .refused _ => True

/-! Rows that take a message. -/

theorem canonOut_storeAcknowledge {i} (hs : s.Canon σ) : CanonOut σ (execStoreAcknowledge i s) := by
  unfold execStoreAcknowledge
  dsimp only [CanonOut]
  split
  · exact canon_ite (canon_discard hs) (canon_storeAcked (canon_unsend hs))
  · exact hs

theorem canonOut_syncCancelReturn {i} (hs : s.Canon σ) : CanonOut σ (execSyncCancelReturn i s) := by
  unfold execSyncCancelReturn
  dsimp only [CanonOut]
  split
  · exact canon_ite (canon_discard hs) (canon_cancelBack (canon_unsend hs))
  · exact hs

theorem canonOut_refusedWithRetryResend {i} (hs : s.Canon σ) : CanonOut σ (execRefusedWithRetryResend i s) := by
  unfold execRefusedWithRetryResend
  dsimp only [CanonOut]
  split
  · exact canon_send (canon_unsend hs)
  · exact hs

theorem canonOut_tlbInvalidate {i} (hs : s.Canon σ) : CanonOut σ (execTlbInvalidate i s) := by
  unfold execTlbInvalidate
  dsimp only [CanonOut]
  split
  · exact canon_send (canon_setMem (canon_unsend hs) rfl)
  · exact hs

theorem canonOut_experienceFillLand {i} (hs : s.Canon σ) : CanonOut σ (execExperienceFillLand i s) := by
  unfold execExperienceFillLand
  dsimp only [CanonOut]
  split
  · exact canon_landFill (canon_unsend hs)
  · exact hs

theorem canonOut_mergeReply {i} (hs : s.Canon σ) : CanonOut σ (execMergeReply i s) := by
  unfold execMergeReply
  dsimp only [CanonOut]
  split
  · split
    · exact canon_deliverReply (canon_landMerge (canon_unsend hs))
    · exact canon_landMerge (canon_unsend hs)
  · exact hs

theorem canonOut_completionCombine {i} (hs : s.Canon σ) : CanonOut σ (execCompletionCombine i s) := by
  unfold execCompletionCombine
  dsimp only [CanonOut]
  split
  · exact canon_hearStatus (canon_unsend hs)
  · exact hs

theorem canonOut_groupRequestArrive {i} (hs : s.Canon σ) : CanonOut σ (execGroupRequestArrive i s) := by
  unfold execGroupRequestArrive
  dsimp only [CanonOut]
  split
  · refine canon_ite ?_ (canon_ite (canon_joinAt (canon_unsend hs)) (canon_ite hs (canon_leaveAt (canon_unsend hs))))
    split
    · exact canon_send (canon_unsend hs)
    · exact canon_unsend hs
  · exact hs

theorem canonOut_barrierArrival {i} (hs : s.Canon σ) : CanonOut σ (execBarrierArrival i s) := by
  unfold execBarrierArrival
  dsimp only [CanonOut]
  split
  · exact canon_ite (canon_groupRefused (canon_unsend hs)) (canon_ite hs (canon_arriveAtSlice (canon_unsend hs)))
  · exact hs

theorem canonOut_groupRelease {i} (hs : s.Canon σ) : CanonOut σ (execGroupRelease i s) := by
  unfold execGroupRelease
  dsimp only [CanonOut]
  split
  · exact canon_ite (canon_discard hs) (canon_releaseTo (canon_unsend hs))
  · exact hs

theorem canonOut_fillNotice {i} (hs : s.Canon σ) : CanonOut σ (execFillNotice i s) := by
  unfold execFillNotice
  dsimp only [CanonOut]
  split
  · exact canon_ite hs (canon_notice (canon_unsend hs))
  · exact hs

theorem canonOut_stageFreeNotice {i} (hs : s.Canon σ) : CanonOut σ (execStageFreeNotice i s) := by
  unfold execStageFreeNotice
  dsimp only [CanonOut]
  split
  · exact canon_ite hs (canon_notice (canon_unsend hs))
  · exact hs

theorem canonOut_childReport {i} (hs : s.Canon σ) : CanonOut σ (execChildReport i s) := by
  unfold execChildReport
  dsimp only [CanonOut]
  split
  · exact canon_ite hs (canon_onCard (canon_unsend hs))
  · exact hs

theorem canonOut_redfishPower {op} (hs : s.Canon σ) : CanonOut σ (execRedfishPower op s) := by
  unfold execRedfishPower
  dsimp only [CanonOut]
  split
  · exact canon_ite canon_coldReset hs
  · exact canon_onBoot canon_coldReset
  · exact canon_ite (canon_onBoot hs) canon_coldReset
  · exact hs

theorem canon_rate {n} (h : s.Canon σ) : ({ s with rate := n } : State).Canon σ := h

theorem canon_clk {n} (h : s.Canon σ) : ({ s with clk := n } : State).Canon σ := h

theorem canonOut_exec {i} (hs : s.Canon σ) : CanonOut σ (exec i s) := by
  cases i with
  | nop => exact canon_issue (fun _ => canon_doNop) hs
  | yieldT => exact canon_issue (fun _ => canon_doYieldT) hs
  | wait => exact canon_issue (fun _ => canon_doWait) hs
  | doze => exact canon_issue (fun _ => canon_doDoze) hs
  | nowns => exact canon_issue (fun _ => canon_doNowns) hs
  | exit => exact canon_issue (fun _ => canon_doExit) hs
  | join => exact canon_issue (fun _ => canon_doJoin) hs
  | leave => exact canon_issue (fun _ => canon_doLeave) hs
  | gbar => exact canon_issue (fun _ => canon_doGbar) hs
  | garrive => exact canon_issue (fun _ => canon_doGarrive) hs
  | gwait => exact canon_issue (fun _ => canon_doGwait) hs
  | phase => exact canon_issue (fun _ => canon_doPhase) hs
  | ginfoSize => exact canon_issue (fun _ => canon_doGinfoSize) hs
  | ginfoRank => exact canon_issue (fun _ => canon_doGinfoRank) hs
  | mfs => exact canon_issue (fun _ => canon_doMfs) hs
  | mts => exact canon_issue (fun _ => canon_doMts) hs
  | add => exact canon_issue (fun _ => canon_doAdd) hs
  | addImm => exact canon_issue (fun _ => canon_doAddImm) hs
  | sub => exact canon_issue (fun _ => canon_doSub) hs
  | subImm => exact canon_issue (fun _ => canon_doSubImm) hs
  | mul => exact canon_issue (fun _ => canon_doMul) hs
  | mulImm => exact canon_issue (fun _ => canon_doMulImm) hs
  | mulh => exact canon_issue (fun _ => canon_doMulh) hs
  | mulhImm => exact canon_issue (fun _ => canon_doMulhImm) hs
  | mulhu => exact canon_issue (fun _ => canon_doMulhu) hs
  | mulhuImm => exact canon_issue (fun _ => canon_doMulhuImm) hs
  | div => exact canon_issue (fun _ => canon_doDiv) hs
  | divImm => exact canon_issue (fun _ => canon_doDivImm) hs
  | divu => exact canon_issue (fun _ => canon_doDivu) hs
  | divuImm => exact canon_issue (fun _ => canon_doDivuImm) hs
  | rem => exact canon_issue (fun _ => canon_doRem) hs
  | remImm => exact canon_issue (fun _ => canon_doRemImm) hs
  | remu => exact canon_issue (fun _ => canon_doRemu) hs
  | remuImm => exact canon_issue (fun _ => canon_doRemuImm) hs
  | andd => exact canon_issue (fun _ => canon_doAndd) hs
  | andImm => exact canon_issue (fun _ => canon_doAndImm) hs
  | orr => exact canon_issue (fun _ => canon_doOrr) hs
  | orImm => exact canon_issue (fun _ => canon_doOrImm) hs
  | xor => exact canon_issue (fun _ => canon_doXor) hs
  | xorImm => exact canon_issue (fun _ => canon_doXorImm) hs
  | andn => exact canon_issue (fun _ => canon_doAndn) hs
  | andnImm => exact canon_issue (fun _ => canon_doAndnImm) hs
  | shl => exact canon_issue (fun _ => canon_doShl) hs
  | shlImm => exact canon_issue (fun _ => canon_doShlImm) hs
  | shr => exact canon_issue (fun _ => canon_doShr) hs
  | shrImm => exact canon_issue (fun _ => canon_doShrImm) hs
  | sra => exact canon_issue (fun _ => canon_doSra) hs
  | sraImm => exact canon_issue (fun _ => canon_doSraImm) hs
  | rol => exact canon_issue (fun _ => canon_doRol) hs
  | rolImm => exact canon_issue (fun _ => canon_doRolImm) hs
  | min => exact canon_issue (fun _ => canon_doMin) hs
  | minImm => exact canon_issue (fun _ => canon_doMinImm) hs
  | max => exact canon_issue (fun _ => canon_doMax) hs
  | maxImm => exact canon_issue (fun _ => canon_doMaxImm) hs
  | minu => exact canon_issue (fun _ => canon_doMinu) hs
  | minuImm => exact canon_issue (fun _ => canon_doMinuImm) hs
  | maxu => exact canon_issue (fun _ => canon_doMaxu) hs
  | maxuImm => exact canon_issue (fun _ => canon_doMaxuImm) hs
  | setp => exact canon_issue (fun _ => canon_doSetp) hs
  | setpImm => exact canon_issue (fun _ => canon_doSetpImm) hs
  | sel => exact canon_issue (fun _ => canon_doSel) hs
  | clz => exact canon_issue (fun _ => canon_doClz) hs
  | ctz => exact canon_issue (fun _ => canon_doCtz) hs
  | popc => exact canon_issue (fun _ => canon_doPopc) hs
  | brev => exact canon_issue (fun _ => canon_doBrev) hs
  | bfx => exact canon_issue (fun _ => canon_doBfx) hs
  | bfxImm => exact canon_issue (fun _ => canon_doBfxImm) hs
  | bfi => exact canon_issue (fun _ => canon_doBfi) hs
  | bfiImm => exact canon_issue (fun _ => canon_doBfiImm) hs
  | mov => exact canon_issue (fun _ => canon_doMov) hs
  | plog => exact canon_issue (fun _ => canon_doPlog) hs
  | li => exact canon_issue (fun _ => canon_doLi) hs
  | liHi => exact canon_issue (fun _ => canon_doLiHi) hs
  | lea => exact canon_issue (fun _ => canon_doLea) hs
  | mkptr => exact canon_issue (fun _ => canon_doMkptr) hs
  | getband => exact canon_issue (fun _ => canon_doGetband) hs
  | caddr => exact canon_issue (fun _ => canon_doCaddr) hs
  | chkptr => exact canon_issue (fun _ => canon_doChkptr) hs
  | br => exact canon_issue (fun _ => canon_doBr) hs
  | bri => exact canon_issue (fun _ => canon_doBri) hs
  | call => exact canon_issue (fun _ => canon_doCall) hs
  | calli => exact canon_issue (fun _ => canon_doCalli) hs
  | ret => exact canon_issue (fun _ => canon_doRet) hs
  | loop => exact canon_issue (fun _ => canon_doLoop) hs
  | xrd => exact canon_issue (fun _ => canon_doXrd) hs
  | xsel => exact canon_issue (fun _ => canon_doXsel) hs
  | xunr => exact canon_issue (fun _ => canon_doXunr) hs
  | xpfd => exact canon_issue (fun _ => canon_doXpfd) hs
  | xnote => exact canon_issue (fun _ => canon_doXnote) hs
  | xflush => exact canon_issue (fun _ => canon_doXflush) hs
  | vadd => exact canon_issue (fun _ => canon_doVadd) hs
  | vsub => exact canon_issue (fun _ => canon_doVsub) hs
  | vmul => exact canon_issue (fun _ => canon_doVmul) hs
  | vfma => exact canon_issue (fun _ => canon_doVfma) hs
  | vfms => exact canon_issue (fun _ => canon_doVfms) hs
  | vfnma => exact canon_issue (fun _ => canon_doVfnma) hs
  | vmin => exact canon_issue (fun _ => canon_doVmin) hs
  | vmax => exact canon_issue (fun _ => canon_doVmax) hs
  | vabs => exact canon_issue (fun _ => canon_doVabs) hs
  | vneg => exact canon_issue (fun _ => canon_doVneg) hs
  | vrcp => exact canon_issue (fun _ => canon_doVrcp) hs
  | vrsq => exact canon_issue (fun _ => canon_doVrsq) hs
  | vexp2 => exact canon_issue (fun _ => canon_doVexp2) hs
  | vlog2 => exact canon_issue (fun _ => canon_doVlog2) hs
  | vdiv => exact canon_issue (fun _ => canon_doVdiv) hs
  | vsqrt => exact canon_issue (fun _ => canon_doVsqrt) hs
  | vcvt => exact canon_issue (fun _ => canon_doVcvt) hs
  | vcmp => exact canon_issue (fun _ => canon_doVcmp) hs
  | vred => exact canon_issue (fun _ => canon_doVred) hs
  | vdot => exact canon_issue (fun _ => canon_doVdot) hs
  | fadd => exact canon_issue (fun _ => canon_doFadd) hs
  | fmul => exact canon_issue (fun _ => canon_doFmul) hs
  | ffma => exact canon_issue (fun _ => canon_doFfma) hs
  | fcmp => exact canon_issue (fun _ => canon_doFcmp) hs
  | fcvt => exact canon_issue (fun _ => canon_doFcvt) hs
  | rep => exact canon_issue (fun _ => canon_doRep) hs
  | repwait => exact canon_issue (fun _ => canon_doRepwait) hs
  | viadd => exact canon_issue (fun _ => canon_doViadd) hs
  | visub => exact canon_issue (fun _ => canon_doVisub) hs
  | vimul => exact canon_issue (fun _ => canon_doVimul) hs
  | vand => exact canon_issue (fun _ => canon_doVand) hs
  | vor => exact canon_issue (fun _ => canon_doVor) hs
  | vxor => exact canon_issue (fun _ => canon_doVxor) hs
  | vshl => exact canon_issue (fun _ => canon_doVshl) hs
  | vshr => exact canon_issue (fun _ => canon_doVshr) hs
  | vsra => exact canon_issue (fun _ => canon_doVsra) hs
  | vimin => exact canon_issue (fun _ => canon_doVimin) hs
  | vimax => exact canon_issue (fun _ => canon_doVimax) hs
  | vsel => exact canon_issue (fun _ => canon_doVsel) hs
  | vshuf => exact canon_issue (fun _ => canon_doVshuf) hs
  | vbcast => exact canon_issue (fun _ => canon_doVbcast) hs
  | vins => exact canon_issue (fun _ => canon_doVins) hs
  | vext => exact canon_issue (fun _ => canon_doVext) hs
  | vcmprs => exact canon_issue (fun _ => canon_doVcmprs) hs
  | vexpnd => exact canon_issue (fun _ => canon_doVexpnd) hs
  | viota => exact canon_issue (fun _ => canon_doViota) hs
  | vicmp => exact canon_issue (fun _ => canon_doVicmp) hs
  | vqnt => exact canon_issue (fun _ => canon_doVqnt (_rn := false)) hs
  | vdqnt => exact canon_issue (fun _ => canon_doVdqnt) hs
  | vsrnd => exact canon_issue (fun _ => canon_doVsrnd) hs
  | vbxdot => exact canon_issue (fun _ => canon_doVbxdot) hs
  | ld => exact canon_issue (fun _ => canon_doLd) hs
  | st => exact canon_issue (fun _ => canon_doSt) hs
  | vld => exact canon_issue (fun _ => canon_doVld) hs
  | vst => exact canon_issue (fun _ => canon_doVst) hs
  | lds => exact canon_issue (fun _ => canon_doLds) hs
  | sts => exact canon_issue (fun _ => canon_doSts) hs
  | ldf => exact canon_issue (fun _ => canon_doLdf) hs
  | feset => exact canon_issue (fun _ => canon_doFeset) hs
  | feclr => exact canon_issue (fun _ => canon_doFeclr) hs
  | ldacq => exact canon_issue (fun _ => canon_doLdacq) hs
  | strel => exact canon_issue (fun _ => canon_doStrel) hs
  | atom => exact canon_issue (fun _ => canon_doAtom) hs
  | pref => exact canon_issue (fun _ => canon_doPref) hs
  | vldx => exact canon_issue (fun _ => canon_doVldx) hs
  | vstx => exact canon_issue (fun _ => canon_doVstx) hs
  | cld => exact canon_issue (fun _ => canon_doCld) hs
  | cst => exact canon_issue (fun _ => canon_doCst) hs
  | cvld => exact canon_issue (fun _ => canon_doCvld) hs
  | cvst => exact canon_issue (fun _ => canon_doCvst) hs
  | cprobe => exact canon_issue (fun _ => canon_doCprobe) hs
  | cclr => exact canon_issue (fun _ => canon_doCclr) hs
  | ctileFind => exact canon_issue (fun _ => canon_doCtileFind) hs
  | ctileDetach => exact canon_issue (fun _ => canon_doCtileDetach) hs
  | ctilePtile => exact canon_issue (fun _ => canon_doCtilePtile) hs
  | ctilePnode => exact canon_issue (fun _ => canon_doCtilePnode) hs
  | clbinv => exact canon_issue (fun _ => canon_doClbinv) hs
  | cpy => exact canon_issue (fun _ => canon_doCpy) hs
  | cpyw => exact canon_issue (fun _ => canon_doCpyw) hs
  | cpyt => exact canon_issue (fun _ => canon_doCpyt) hs
  | deal => exact canon_issue (fun _ => canon_doDeal) hs
  | sarm => exact canon_issue (fun _ => canon_doSarm) hs
  | sdrop => exact canon_issue (fun _ => canon_doSdrop) hs
  | cbset => exact canon_issue (fun _ => canon_doCbset) hs
  | cbrsv => exact canon_issue (fun _ => canon_doCbrsv) hs
  | cbcmt => exact canon_issue (fun _ => canon_doCbcmt) hs
  | cbacq => exact canon_issue (fun _ => canon_doCbacq) hs
  | cbrel => exact canon_issue (fun _ => canon_doCbrel) hs
  | get => exact canon_issue (fun _ => canon_doGet) hs
  | put => exact canon_issue (fun _ => canon_doPut) hs
  | gpwait => exact canon_issue (fun _ => canon_doGpwait) hs
  | card => exact canon_issue (fun _ => canon_doCard) hs
  | cwait => exact canon_issue (fun _ => canon_doCwait) hs
  | oclaim => exact canon_issue (fun _ => canon_doOclaim) hs
  | orel => exact canon_issue (fun _ => canon_doOrel) hs
  | ofill => exact canon_issue (fun _ => canon_doOfill) hs
  | aclr => exact canon_issue (fun _ => canon_doAclr) hs
  | ast => exact canon_issue (fun _ => canon_doAst) hs
  | ald => exact canon_issue (fun _ => canon_doAld) hs
  | tdset => exact canon_issue (fun _ => canon_doTdset) hs
  | tdget => exact canon_issue (fun _ => canon_doTdget) hs
  | pget => exact canon_issue (fun _ => canon_doPget) hs
  | pput => exact canon_issue (fun _ => canon_doPput) hs
  | patom => exact canon_issue (fun _ => canon_doPatom) hs
  | fbar => exact canon_issue (fun _ => canon_doFbar) hs
  | trap => exact canon_issue (fun _ => canon_doTrap) hs
  | eret => exact canon_issue (fun _ => canon_doEret) hs
  | eretNext => exact canon_issue (fun _ => canon_doEretNext) hs
  | csrr => exact canon_issue (fun _ => canon_doCsrr) hs
  | csrw => exact canon_issue (fun _ => canon_doCsrw) hs
  | tlbinvPage => exact canon_issue (fun _ => canon_doTlbinvPage) hs
  | tlbinvTenant => exact canon_issue (fun _ => canon_doTlbinvTenant) hs
  | tlbinvAll => exact canon_issue (fun _ => canon_doTlbinvAll) hs
  | jnlrd => exact canon_issue (fun _ => canon_doJnlrd) hs
  | jnlclr => exact canon_issue (fun _ => canon_doJnlclr) hs
  | jnlclrResend => exact canon_issue (fun _ => canon_doJnlclrResend) hs
  | ctxsv => exact canon_issue (fun _ => canon_doCtxsv) hs
  | ctxld => exact canon_issue (fun _ => canon_doCtxld) hs
  | fencei => exact canon_issue (fun _ => canon_doFencei) hs
  | launch => exact canon_issue (fun _ => canon_doLaunch) hs
  | glaunch => exact canon_issue (fun _ => canon_doGlaunch) hs
  | gnodeGraph => exact canon_issue (fun _ => canon_doGnodeGraph) hs
  | gnodeNode => exact canon_issue (fun _ => canon_doGnodeNode) hs
  | gnodeEdge => exact canon_issue (fun _ => canon_doGnodeEdge) hs
  | gnodeDrop => exact canon_issue (fun _ => canon_doGnodeDrop) hs
  | gdone => exact canon_issue (fun _ => canon_doGdone) hs
  | grabTake => exact canon_issue (fun _ => canon_doGrabTake) hs
  | grabSet => exact canon_issue (fun _ => canon_doGrabSet) hs
  | qstatLaunch => exact canon_issue (fun _ => canon_doQstatLaunch) hs
  | qstatQueue => exact canon_issue (fun _ => canon_doQstatQueue) hs
  | qstatRange => exact canon_issue (fun _ => canon_doQstatRange) hs
  | qstatInst => exact canon_issue (fun _ => canon_doQstatInst) hs
  | renter => exact canon_issue (fun _ => canon_doRenter) hs
  | rleave => exact canon_issue (fun _ => canon_doRleave) hs
  | trace => exact canon_issue (fun _ => canon_doTrace) hs
  | brk => exact canon_issue (fun _ => canon_doBrk) hs
  | wpset => exact canon_issue (fun _ => canon_doWpset) hs
  | wpclr => exact canon_issue (fun _ => canon_doWpclr) hs
  | cntrd => exact canon_issue (fun _ => canon_doCntrd) hs
  | pageMappedRestore => exact canon_pageMapped hs
  | schedulerCommand => exact canon_schedCommand hs
  | imageLoad => exact canon_imageLoad hs
  | fabricBarrierArrive => exact canon_peerArrive hs
  | progressProbe => exact canon_probe hs
  | replicaSetChange => exact canon_replicaChange hs
  | gangSwitch => exact canon_foldl hs fun _ _ => canon_switchCore
  | gangResume => exact canon_foldl hs fun _ _ => canon_resumeCore
  | dcmdStop => exact canon_startStop hs
  | dcmdResume => exact canon_resumeStop hs
  | dcmdStepContext => exact canon_stepEng (canon_onCtx hs)
  | dcmdStepGroup => exact canon_stepEng (canon_stepGroup hs)
  | clockRateAdjust => exact canon_rate hs
  | clockStepForward => exact canon_clk hs
  | machineCheck => exact canon_ite (canon_lasting hs) (canon_transient hs)
  | attestationRequest => exact canon_used (canon_tell hs)
  | pcieHostAccess => exact canon_ite (canon_hostAccess hs) hs
  | thermalReport => exact canon_ite (canon_thermal hs) hs
  | plimitSet => exact canon_ite (canon_onSched hs) hs
  | controlRegisterWrite => exact canon_control hs
  | systemCoreAccess => exact canon_getD (canonOpt_physAccess hs) hs
  | hartStartRequest => exact canon_startHart hs
  | pairIssue => exact canon_pairIssue hs
  | fetchLine => exact canon_fetchLine hs
  | plankerReissue => exact canon_reissue hs
  | drain => exact canon_drainAny hs
  | messageDeliver => exact canon_deliverMsg hs
  | homeServe => exact canon_serveHome hs
  | longResultLand => exact canon_landAt hs
  | storeAcknowledge => exact canonOut_storeAcknowledge hs
  | dozeWake => exact canon_dozeWake hs
  | syncLimit => exact canon_syncLimit hs
  | syncCancelReturn => exact canonOut_syncCancelReturn hs
  | contextReuseDelay => exact canon_ite (canon_reuseTurn hs) hs
  | strayMessageDiscard => exact canon_discard hs
  | engineAccessRetry => exact canon_engineRetry hs
  | launchStart => exact canon_launchStart hs
  | threadStart => exact canon_threadStart hs
  | priorityAging => exact canon_aging hs
  | deficitCharge => exact canon_ite (canon_charge hs) hs
  | coreGate => exact canon_ite (canon_onCore_same hs (fun _ => rfl) (fun _ => rfl)) hs
  | coreWake => exact canon_wake hs
  | doneMessage => exact canon_doneMessage hs
  | completionCombine => exact canonOut_completionCombine hs
  | graphNodeComplete => exact canon_nodeComplete hs
  | instanceFill => exact canon_fillInstance hs
  | instanceSeal => exact canon_sealInstance hs
  | groupRequestArrive => exact canonOut_groupRequestArrive hs
  | barrierArrival => exact canonOut_barrierArrival hs
  | groupRelease => exact canonOut_groupRelease hs
  | experienceFillLand => exact canonOut_experienceFillLand hs
  | mergeReply => exact canonOut_mergeReply hs
  | engineKickAccept => exact canon_kickAccept hs
  | chunkComplete => exact canon_chunkStep hs
  | cbStageWrite => exact canon_stageStep hs
  | dealComplete => exact canon_dealStep hs
  | streamStripLoad => exact canon_stripStep hs
  | fillNotice => exact canonOut_fillNotice hs
  | stageFreeNotice => exact canonOut_stageFreeNotice hs
  | gatherComplete => exact canon_gatherStep hs
  | clbWalk => exact canon_ite (canon_clbWalk hs) hs
  | cardAccept => exact canon_cardAccept hs
  | cardDecompose => exact canon_ite hs (canon_ite (canon_peerRun hs) (canon_decompose hs))
  | cardParityRefetch => exact canon_cardRefetch hs
  | cardRun => exact canon_ite (canon_cardRun hs) (canon_collRun hs)
  | slotClaimGrant => exact canon_claimGrant hs
  | childReport => exact canonOut_childReport hs
  | cardRetire => exact canon_cardRetire hs
  | flitReplay => exact canon_flitReplay hs
  | fabricBarrierRelease => exact canon_fbarRelease hs
  | fabricTimeout => exact canon_fabricTimeout hs
  | replicaInvalidateAck => exact canon_replicaAck hs
  | tlbInvalidate => exact canonOut_tlbInvalidate hs
  | breakpointHit => exact canon_breakpoint hs
  | stopArrive => exact canon_stopArrive hs
  | preciseStopTimeout => exact canon_ite (canon_haltCtx hs) hs
  | engineStepLimit => exact canon_engLimit hs
  | tickLatch => exact canon_tickLatch hs
  | ptpEventMessage => exact canon_ite (canon_tell hs) hs
  | keepaliveResponse => exact canon_ite (canon_tell hs) hs
  | pairTimeout => exact canon_ite (canon_pairMismatch hs) hs
  | pairMismatch => exact canon_pairMismatch hs
  | checkpointClose => exact canon_closeInterval hs
  | commitRecord => exact canon_commit hs
  | rollback => exact canon_rollBack hs
  | containment => exact canon_contain hs
  | powerOn => exact canon_coldReset
  | bootImageFetch => exact canon_ite (canon_onBoot hs) hs
  | bootVerify => exact canon_ite (canon_ite (canon_bootApply hs) (canon_onBoot hs)) hs
  | bootRetryWait => exact canon_ite (canon_onBoot hs) hs
  | redfishPower => exact canonOut_redfishPower hs
  | redfishBootState => exact canon_tell hs
  | cxlPortDown => exact canon_ite (canon_setMem hs rfl) hs
  | ethernetFrameReceive => exact canon_ite (canon_etherIn hs) hs
  | machineCheckThreadEnd => exact canon_ite (canon_endThread hs) hs
  | refusedWithRetryResend => exact canonOut_refusedWithRetryResend hs

end Sys2Proof.Machine
end

section
/-! SUPPORT. Canonical form: turns and the step. -/
namespace Sys2Proof.Machine
open Host (Cell)
variable {σ : Stores} {s t : State} {k : Core}

/-! ### Turns -/

/-- What the next step starts from is in canonical form. -/
def Next.Canon (σ : Stores) : Next → Prop
  | .issue _ s _ _ _ | .pair _ _ s _ _ _ | .event _ s | .inner _ s | .done s => s.Canon σ
  | .off => True

theorem canonOpt_preTurn {core pos} (hs : s.Canon σ) : CanonOpt σ (s.preTurn core pos) := by
  unfold State.preTurn
  dsimp only
  split
  · exact canon_tryResume hs
  · split
    · exact canon_syncLimit hs
    · cases e : List.findSome? _ _ with
      | none => trivial
      | some u =>
        obtain ⟨q, -, hq⟩ := List.exists_of_findSome?_eq_some e
        obtain ⟨c, -, rfl⟩ := Option.map_eq_some_iff.mp hq
        exact canon_parkAt hs

theorem canonNext_issueOf {core pos x l} (hs : s.Canon σ) : (s.issueOf core pos x l).Canon σ := by
  have ht : ({ (s.onCore core fun k => k.turn pos (some x) 0) with me := (core, x), took := none } : State).Canon σ :=
    canon_acting (canon_onCore hs fun _ => canonCore_turn)
  unfold State.issueOf
  dsimp only
  split
  · exact canon_endTurn (canon_breakpoint ht)
  · split
    · exact canon_endTurn (canon_trap ht)
    · split
      · exact canon_prepare hs
      · split
        · exact canon_prepare hs
        · exact canon_endTurn (canon_trap (canon_prepare hs))

theorem canonNext_turnOf {core} (hs : s.Canon σ) : (s.turnOf core).Canon σ := by
  unfold State.turnOf
  dsimp only
  have hp := canonOpt_preTurn (σ := σ) (core := core) (pos := (s.cycle + (s.core core).phase) % 8) hs
  split
  · next e => rw [e] at hp; exact hp
  · split
    · exact canon_endTurn (canon_onCore hs fun _ => canonCore_turn)
    · split
      · exact canon_fetchLine hs
      · exact canonNext_issueOf hs

theorem canonNext_nextTurn (hs : s.Canon σ) : s.nextTurn.Canon σ := by
  unfold State.nextTurn
  split
  · exact canonNext_turnOf hs
  · exact canon_nextCycle hs

theorem canonNext_nextEvent {n : Next} (hs : s.Canon σ) (e : s.nextEvent = some n) : n.Canon σ := by
  unfold State.nextEvent at e
  split at e
  · cases e
  · obtain ⟨i, -, rfl⟩ := Option.map_eq_some_iff.mp e
    split
    · exact hs
    · exact hs

theorem canonNext_next (hs : s.Canon σ) : s.next.Canon σ := by
  unfold State.next
  split
  · split
    · exact canon_reissue hs
    · exact canon_contain hs
  · split
    · next e => exact canonNext_nextEvent hs e
    · split
      · trivial
      · split
        · exact canon_commit hs
        · dsimp only
          split
          · exact canonNext_nextTurn hs
          · split
            · exact canonNext_nextTurn (canon_used hs)
            · split
              · exact canon_used hs
              · exact canonNext_nextTurn (canon_used hs)

/-! ### The step -/

theorem canonOut_inner {e : Inner} (hs : s.Canon σ) : CanonOut σ (e.exec s) := by
  cases e with
  | drain c x => exact canonOut_exec (i := .drain c x) hs
  | messageDeliver i => exact canonOut_exec (i := .messageDeliver i) hs
  | homeServe q => exact canonOut_exec (i := .homeServe q) hs
  | longResultLand c x i => exact canonOut_exec (i := .longResultLand c x i) hs
  | storeAcknowledge i => exact canonOut_exec (i := .storeAcknowledge i) hs
  | syncCancelReturn i => exact canonOut_exec (i := .syncCancelReturn i) hs
  | strayMessageDiscard i => exact canonOut_exec (i := .strayMessageDiscard i) hs
  | engineAccessRetry i => exact canonOut_exec (i := .engineAccessRetry i) hs
  | launchStart => exact canonOut_exec (i := .launchStart) hs
  | threadStart l => exact canonOut_exec (i := .threadStart l) hs
  | priorityAging l => exact canonOut_exec (i := .priorityAging l) hs
  | deficitCharge => exact canonOut_exec (i := .deficitCharge) hs
  | coreGate c => exact canonOut_exec (i := .coreGate c) hs
  | coreWake c => exact canonOut_exec (i := .coreWake c) hs
  | doneMessage c l => exact canonOut_exec (i := .doneMessage c l) hs
  | completionCombine i => exact canonOut_exec (i := .completionCombine i) hs
  | graphNodeComplete i n => exact canonOut_exec (i := .graphNodeComplete i n) hs
  | instanceFill l => exact canonOut_exec (i := .instanceFill l) hs
  | instanceSeal l => exact canonOut_exec (i := .instanceSeal l) hs
  | groupRequestArrive i => exact canonOut_exec (i := .groupRequestArrive i) hs
  | barrierArrival i => exact canonOut_exec (i := .barrierArrival i) hs
  | groupRelease i => exact canonOut_exec (i := .groupRelease i) hs
  | experienceFillLand i => exact canonOut_exec (i := .experienceFillLand i) hs
  | mergeReply i => exact canonOut_exec (i := .mergeReply i) hs
  | engineKickAccept i => exact canonOut_exec (i := .engineKickAccept i) hs
  | chunkComplete c o n => exact canonOut_exec (i := .chunkComplete c o n) hs
  | cbStageWrite c o => exact canonOut_exec (i := .cbStageWrite c o) hs
  | dealComplete i => exact canonOut_exec (i := .dealComplete i) hs
  | streamStripLoad c x v => exact canonOut_exec (i := .streamStripLoad c x v) hs
  | fillNotice i => exact canonOut_exec (i := .fillNotice i) hs
  | stageFreeNotice i => exact canonOut_exec (i := .stageFreeNotice i) hs
  | gatherComplete c o => exact canonOut_exec (i := .gatherComplete c o) hs
  | clbWalk i => exact canonOut_exec (i := .clbWalk i) hs
  | cardAccept l u i => exact canonOut_exec (i := .cardAccept l u i) hs
  | cardDecompose l u => exact canonOut_exec (i := .cardDecompose l u) hs
  | cardRun c => exact canonOut_exec (i := .cardRun c) hs
  | slotClaimGrant c => exact canonOut_exec (i := .slotClaimGrant c) hs
  | childReport i => exact canonOut_exec (i := .childReport i) hs
  | cardRetire l u => exact canonOut_exec (i := .cardRetire l u) hs
  | fabricBarrierRelease g => exact canonOut_exec (i := .fabricBarrierRelease g) hs
  | fabricTimeout g => exact canonOut_exec (i := .fabricTimeout g) hs
  | tlbInvalidate i => exact canonOut_exec (i := .tlbInvalidate i) hs
  | stopArrive c => exact canonOut_exec (i := .stopArrive c) hs
  | preciseStopTimeout c x => exact canonOut_exec (i := .preciseStopTimeout c x) hs
  | engineStepLimit c => exact canonOut_exec (i := .engineStepLimit c) hs
  | tickLatch => exact canonOut_exec (i := .tickLatch) hs
  | refusedWithRetryResend i => exact canonOut_exec (i := .refusedWithRetryResend i) hs
  | containment c => exact canonOut_exec (i := .containment c) hs
  | restore c => exact canon_restorePaged hs

theorem canonOut_pair {w1 w2} (hs : s.Canon σ) : CanonOut σ (execPairIssue w1 w2 s) := canon_pairIssue hs

theorem canonOut_ended {o : Host.Outcome State Fault Refusal} {core pos vec} (h : CanonOut σ o) : CanonOut σ (ended o core pos vec) := by
  cases o with
  | next t => exact canon_endTurn h
  | fault f => trivial
  | refused r => trivial

theorem canonOut_step (hs : s.Canon σ) : CanonOut σ (step s) := by
  have hn := canonNext_next hs
  unfold step
  cases e : s.next with
  | issue i t core pos vec => exact canonOut_ended (canonOut_exec (e ▸ hn : (Next.issue i t core pos vec).Canon σ))
  | pair a b t core pos vec => exact canonOut_ended (canonOut_pair (e ▸ hn : (Next.pair a b t core pos vec).Canon σ))
  | event i t => exact canonOut_exec (e ▸ hn : (Next.event i t).Canon σ)
  | inner i t => exact canonOut_inner (e ▸ hn : (Next.inner i t).Canon σ)
  | done t => exact (e ▸ hn : (Next.done t).Canon σ)
  | off => trivial

theorem step_canon (hs : s.Canon σ) (e : step s = .next t) : t.Canon σ := by
  have h := canonOut_step hs
  rw [e] at h
  exact h

/-- Settles O55: a step keeps each part of physical memory's canonical form, since every byte is written by a store that keeps it. -/
theorem stepKeepsMemory : Obligations.StepKeepsMemory :=
  fun _ _ hs e => canon_memory.mp (step_canon (canon_memory.mpr hs) e)

/-- Settles O56: the same argument for the pools, the operand memories, their saved copies and the memory of peers. -/
theorem stepKeepsPools : Obligations.StepKeepsPools :=
  fun _ _ hs e => canon_pools.mp (step_canon (canon_pools.mpr hs) e)

/-- Settles O54, by evaluation of the reset state. -/
theorem resetMemory : Obligations.ResetMemory := ⟨rfl, rfl, fun _ => rfl, fun _ _ => rfl⟩

end Sys2Proof.Machine
end

section
/-! The time-out of the fabric barrier (O49, R340). -/
namespace Sys2Proof.Machine

/-- The time-out of the barrier of group `g` is reported to its local threads as a fault at address `g`. -/
theorem exec_fabricTimeout_barrier {g : Nat} {s : State} (hl : (s.fbar g).local' ≠ []) (hf : s.fbarFull g = false)
    (ht : s.timedOut g (s.fbar g).timer = true) : exec (.fabricTimeout g) s = .next ((s.setFbar g { FBarrier.fresh with
      ranks := (s.fbar g).ranks.filter fun r => r != fgRank (s.fgroup g) }).sendAll ((s.fbar g).local'.map fun p => .reply
        { ackTo p.1 p.2 with fault := some { kind := 0, absent := false, addr := BitVec.ofNat 64 g } })) := by
  change Host.Outcome.next (s.fabricTimeout g) = _
  simp [State.fabricTimeout, hl, hf, ht, State.fbarTimeout]

/-- The state after reset, but one thread of this device waits at the barrier of group 1, past that group's limit of 1 ms. -/
def lateBarrier : State := { State.reset with fabric := { State.reset.fabric with
  words1 := [(1, 1)]
  bars := [(1, { count := 1, local' := [({ core := 0, ctx := 0, inc := 0 }, 0)], ranks := []
                 timer := { elapsed := 1000001, from' := none, held := [] } })] } }

/-- Refutes O49: the time-out of a barrier carries its group as the fault's address, where the statement has address 0 for every group. The
barrier of group 1 in `lateBarrier` shows it. -/
theorem not_fabricSteps : ¬ Obligations.FabricSteps := by
  unfold Obligations.FabricSteps
  rintro ⟨-, -, -, -, -, htimeout, -⟩
  have hl : (lateBarrier.fbar 1).local' ≠ [] := by decide
  have hf : lateBarrier.fbarFull 1 = false := by decide
  have hsaid := htimeout 1 1 lateBarrier hl hf (by decide) (by decide) (by decide +kernel)
  rw [exec_fabricTimeout_barrier hl hf (by decide +kernel)] at hsaid
  have hchan := congrArg State.chan (Host.Outcome.next.inj hsaid)
  have haddr := congrArg (fun c => c.filterMap fun m => match m.body with | .reply r => r.fault.map RFault.addr | _ => none) hchan
  exact absurd haddr (by decide +kernel)

end Sys2Proof.Machine
end

section
/-! What FBAR, the journal instructions, CTXSV and CTXLD refuse (O30, R335, R339, R373, R374). -/
namespace Sys2Proof.Machine
open Sys2Proof.Manual

section
variable {i : Instr} {s : State} {body : State → State} {h : Hdr} {a b : GReg}

/-! ### FBAR (R335, R339) -/

theorem fbarBad_iff {g n : Nat} : s.fbarBad g n = true ↔ n = 0 ∨ 2 ^ 24 < n ∨ (s.fbar g).count ≠ 0 ∧ (s.fbar g).count ≠ n := by
  simp [State.fbarBad, or_assoc]

theorem fbarArrive_of_refused {g n : Nat} (hok : fgOk (s.fgroup g) s.cx.tenant = false) : s.fbarArrive g n = s.trap PEER_USE 0 1 := by
  rw [State.fbarArrive, hok]
  rfl

/-- FBAR looks at the count before it waits for its stores, and at the group when they have drained. -/
theorem doFbar_eq (hc : Clear (.fbar h a b) s = true) : doFbar a b s =
    let g := (s.cx.regs.getG a).toNat % 2 ^ 8
    let n := (s.cx.regs.getG b).toNat % 2 ^ 32
    if s.fbarBad g n then s.trap PEER_USE 0 2 else s.afterDrain (.fbarArrive g n) fun s => s.fbarArrive g n := by
  rw [doFbar, rd_of_clear hc, fld_low, fld_low]

/-! ### The journal (R373) -/

theorem mayUseEntry_eq (s : State) (e : JEnt) : (!s.cx.sup && !(e.ctx == s.me.2 && e.inc == s.cx.inc)) = !mayUseEntry s e := by
  rw [mayUseEntry, Bool.not_or]

/-- What a journal instruction does with an entry that the thread may use. -/
theorem withJnl_of_mayUse {k : Nat → JEnt → State} (hc : Clear i s = true)
    (hu : mayUseEntry s (s.mine.jent ((s.cx.regs.getG a).toNat % 64)) = true) :
    s.withJnl a k = k ((s.cx.regs.getG a).toNat % 64) (s.mine.jent ((s.cx.regs.getG a).toNat % 64)) := by
  simp only [State.withJnl, rd_of_clear hc, fld_5_0, mayUseEntry_eq, hu, Bool.not_true, Bool.false_eq_true, if_false]

theorem withJnl_of_refused {k : Nat → JEnt → State} (hc : Clear i s = true)
    (hu : mayUseEntry s (s.mine.jent ((s.cx.regs.getG a).toNat % 64)) = false) :
    s.withJnl a k = s.trap JNL_USE (BitVec.ofNat 64 ((s.cx.regs.getG a).toNat % 64)) 1 := by
  simp only [State.withJnl, rd_of_clear hc, fld_5_0, mayUseEntry_eq, hu, Bool.not_false, if_true]

/-- The body of a journal instruction that frees an entry or sends it again. -/
theorem doJnlclr_of_not_refused (hc : Clear i s = true) (hu : mayUseEntry s (s.mine.jent ((s.cx.regs.getG a).toNat % 64)) = true)
    (hst : (s.mine.jent ((s.cx.regs.getG a).toNat % 64)).st ≠ .refused) :
    doJnlclr a s = s.trap JNL_USE (BitVec.ofNat 64 ((s.cx.regs.getG a).toNat % 64)) 2 := by
  rw [doJnlclr, withJnl_of_mayUse hc hu, if_pos hst]

theorem doJnlclrResend_of_not_refused (hc : Clear i s = true) (hu : mayUseEntry s (s.mine.jent ((s.cx.regs.getG a).toNat % 64)) = true)
    (hst : (s.mine.jent ((s.cx.regs.getG a).toNat % 64)).st ≠ .refused) :
    doJnlclrResend a s = s.trap JNL_USE (BitVec.ofNat 64 ((s.cx.regs.getG a).toNat % 64)) 2 := by
  rw [doJnlclrResend, withJnl_of_mayUse hc hu, if_pos hst]

/-! ### Frames (R374) -/

theorem frameOk_iff {f : Word} : frameOk f = true ↔ f.getLsbD 57 = false ∧ f.toNat % 4096 = 0 := by
  simp [frameOk, fld_low]

theorem ctxExists_eq_false_iff {x : Nat} : s.ctxExists x = false ↔ partCtx s.cx.part ≤ x / 8 := by simp [State.ctxExists]

/-- The context that a CTXSV or CTXLD names. -/
theorem fld_4_0 (w : Word) : fld w 4 0 = w.toNat % 32 := fld_low w 4

end

/-- Settles O30: each check by the body's own case, the checks before it passing. -/
theorem systemMisuse : Obligations.SystemMisuse := by
  unfold Obligations.SystemMisuse
  refine ⟨?fbar, ?journal, ?ctxsv, ?ctxld⟩
  case fbar =>
    intro h a b s hc hh hv g n q bad
    refine ⟨fun hbad => ⟨_, rfl, issue_traps hc hh hv ?_⟩, fun hbad hok hd => ⟨_, rfl, issue_traps hc hh hv ?_⟩⟩
    · exact (doFbar_eq hc).trans (if_pos (fbarBad_iff.mpr hbad))
    · have hcount : s.fbarBad g n ≠ true := fun hb => hbad (fbarBad_iff.mp hb)
      exact (doFbar_eq hc).trans ((if_neg hcount).trans ((afterDrain_of_isDrained hd).trans (fbarArrive_of_refused hok)))
  case journal =>
    intro i s a hi hc hh hv j e
    obtain ⟨h, w, d, rfl⟩ | ⟨h, rfl⟩ | ⟨h, rfl⟩ := hi
    · exact ⟨fun hu => ⟨_, rfl, issue_traps hc hh hv (withJnl_of_refused hc hu)⟩, fun _ _ hn => absurd rfl (hn h w d)⟩
    · exact ⟨fun hu => ⟨_, rfl, issue_traps hc hh hv (withJnl_of_refused hc hu)⟩,
        fun hu hst _ => ⟨_, rfl, issue_traps hc hh hv (doJnlclr_of_not_refused hc hu hst)⟩⟩
    · exact ⟨fun hu => ⟨_, rfl, issue_traps hc hh hv (withJnl_of_refused hc hu)⟩,
        fun hu hst _ => ⟨_, rfl, issue_traps hc hh hv (doJnlclrResend_of_not_refused hc hu hst)⟩⟩
  case ctxsv =>
    intro h a b s hc hh hv frame x ok
    have hbody : doCtxsv a b s = if !frameOk frame then s.trap MISALIGN frame
        else if x = s.me.2 || !s.ctxExists x then s.trap CTX_USE frame 1
        else if (s.ctx s.me.1 x).run = .free then s.trap CTX_USE frame 2
        else s.afterDrain (.ctxsv frame x) fun s => s.ctxsvGo frame x := by
      rw [doCtxsv, rd_of_clear hc, fld_4_0]
    refine ⟨fun hok => ⟨_, rfl, issue_traps hc hh hv ?_⟩, fun hok hx => ⟨_, rfl, issue_traps hc hh hv ?_⟩,
      fun hok hx hlt hrun => ⟨_, rfl, issue_traps hc hh hv ?_⟩⟩
    · have hf : frameOk frame = false := by simpa using fun hf => hok (frameOk_iff.mp hf)
      rw [hbody, hf]
      rfl
    · have hbad : (decide (x = s.me.2) || !s.ctxExists x) = true := by simpa [ctxExists_eq_false_iff] using hx
      rw [hbody, frameOk_iff.mpr hok, if_neg (by decide), if_pos hbad]
      rfl
    · have hgood : ¬ (decide (x = s.me.2) || !s.ctxExists x) = true := by simpa [State.ctxExists] using ⟨hx, hlt⟩
      rw [hbody, frameOk_iff.mpr hok, if_neg (by decide), if_neg hgood, if_pos hrun]
      rfl
  case ctxld =>
    intro h a b s hc hh hv frame x hbit hal hrun
    refine ⟨_, rfl, issue_traps hc hh hv ?_⟩
    have hok : frameOk (s.cx.regs.getG a) = true := frameOk_iff.mpr ⟨hbit, hal⟩
    have hbad : (decide ((s.ctx s.me.1 x).run ≠ .free) || !s.ctxExists x) = true := by simp [hrun]
    rw [doCtxld, rd_of_clear hc, fld_4_0]
    dsimp only
    rw [hok, if_neg (by decide), if_pos hbad]
    rfl

end Sys2Proof.Machine
end

section
/-! TRAP, and the return from a trap (O31, R349, R353, R369, R370). -/
namespace Sys2Proof.Machine
open Sys2Proof.Manual

section
variable {s t : State} {i : Instr} {body : State → State} {h : Hdr}

/-! ### What a request at the thread's own port leaves alone -/

/-- Where a served access leaves every thread as it was. -/
def Served.threadsStay (s : State) : Served → Prop
  | .done _ t | .fail _ t | .hold t => ThreadsStay s t
  | .wait => True

theorem threadsStay_pAtom (s : State) (a : Asker) (core off : Nat) (win : Bool) (addr : Word) (op : AtomOp) (wd : Wd) (b cmp : Word) :
    (s.pAtom a core off win addr op wd b cmp).threadsStay s := by
  unfold State.pAtom
  dsimp only
  split
  · exact threadsStay_logPort ..
  · split
    · exact (threadsStay_logPort ..).trans (threadsStay_consumePoison ..)
    · exact (threadsStay_setCore (ctxs_poolWrite ..)).trans (threadsStay_firePool ..)

/-- A request that is sent leaves every thread as it was: what it answers is a message. -/
theorem threadsStay_sendReq (s : State) (r : Req) : ThreadsStay s (s.sendReq r) := by
  unfold State.sendReq
  split
  case h_1 core off ea op wd b cmp _ _ =>
    have hatom := threadsStay_pAtom s r.who core off false ea op wd b cmp
    revert hatom
    cases s.pAtom r.who core off false ea op wd b cmp with
    | done l t => exact fun ht => ht.trans (threadsStay_reply ..)
    | fail f t => exact fun ht => ht.trans (threadsStay_reply ..)
    | hold t => exact fun _ => ThreadsStay.refl s
    | wait => exact fun _ => ThreadsStay.refl s
  case h_7 => exact (beside_send ..).threadsStay
  all_goals exact threadsStay_pSync ..

theorem threadsStay_sendReqs (l : List Req) (s : State) : ThreadsStay s (l.foldl State.sendReq s) :=
  foldl_keeps (fun u r (hu : ThreadsStay s u) => hu.trans (threadsStay_sendReq u r)) l s (ThreadsStay.refl s)

/-! ### The issue of a return -/

theorem onCx_congr {f g : Ctx → Ctx} (h : f s.cx = g s.cx) : s.onCx f = s.onCx g :=
  congrArg (fun c => s.setCtx s.me.1 s.me.2 c) h

/-- The next PC of a thread that has set both is where it stands. -/
theorem finish_onCx {f : Ctx → Ctx} (h : ∀ c, (f c).npc = (f c).pc) : (s.onCx f).finish = s.onCx f := by
  unfold State.finish
  split
  · rw [State.onCx_onCx]
    exact onCx_congr ((congrArg (fun p => { f s.cx with pc := p }) (h s.cx)).trans rfl)
  · rfl

/-- An instruction that uses no vector register does what its body does, where that takes no trap. -/
theorem perform_of_no_vectors (hs : (usesOf i).vs = []) (hd : (usesOf i).dv = []) (hv : (usesOf i).vec = false)
    (ht : (body s).took = none) : s.perform i body = body s := by
  have hn : (body s).noteCapture i = body s := by
    unfold State.noteCapture
    split <;> simp [hv]
  have h0 : ∀ c : Ctx, noStream c [] = true := fun _ => rfl
  simp only [State.perform, State.popAll, State.pushAll, hs, hd, h0, if_true, ht, hn, Option.isSome_none, Bool.false_eq_true, if_false]

/-- ERET and ERET.next in a handler pass every check, where nothing is outstanding but records already reported. -/
theorem verdict_of_returns (hi : i = .eret h ∨ i = .eretNext h) (hr : s.returns i = true) : verdict s i = .go := by
  simp only [State.returns, alone, Bool.and_eq_true, decide_eq_true_eq, Option.isNone_iff_eq_none] at hr
  obtain ⟨⟨⟨⟨⟨⟨⟨⟨hrun, hhalf⟩, hview⟩, htook⟩, hhnd⟩, hcap⟩, hlong⟩, hdue⟩, hperf⟩ := hr
  have hdue' : ∀ r ∈ s.cx.replay, r.due = false := by simpa using hdue
  have hnofault : s.cx.replay.find? (fun p => p.due && !p.fault.absent) = none :=
    List.find?_eq_none.mpr fun r hr => by simp [hdue' r hr]
  have hnodue : s.cx.replay.any Replay.due = false := by simpa using hdue'
  have huse : usesOf i = { h := h, mark := true } := by obtain rfl | rfl := hi <;> rfl
  have hpriv : privOk s i = true := by obtain rfl | rfl := hi <;> exact hhnd
  have hstart : startsLong s.cx.regs s.cx i = false := by obtain rfl | rfl := hi <;> rfl
  have hallot : (usesOf i).allotted s.cx.part = true := by rw [huse]; rfl
  have hstream : streamCheck s.cx (usesOf i) = .ok := streamCheck_ok (by rw [huse]; rfl)
  have hdests : (usesOf i).dests = [] := by rw [huse]; rfl
  rw [huse] at hperf hallot hstream hdests
  unfold verdict
  simp [huse, hallot, hpriv, rd_of_view hview, hlong, hcap, hstart, hnofault, hnodue, hhnd, pendingCheck, pendingDest, hdests, capturing,
    hperf, hstream]

theorem took_of_returns (hr : s.returns i = true) : s.took = none := by
  simp only [State.returns, alone, Bool.and_eq_true, decide_eq_true_eq] at hr
  exact hr.1.1.1.1.1.2

/-- The issue of a return is its body: it sets both the PC and the next one. -/
theorem issue_return (hi : i = .eret h ∨ i = .eretNext h) (hr : s.returns i = true) (ht : t.took = none) {f : Ctx → Ctx}
    (hf : ∀ c, (f c).npc = (f c).pc) (hb : body s = t.onCx f) : issue i body s = t.onCx f := by
  have hperf : s.perform i body = t.onCx f := by
    rw [perform_of_no_vectors _ _ _ (by rw [hb]; exact ht), hb]
    all_goals obtain rfl | rfl := hi <;> rfl
  unfold issue
  rw [verdict_of_returns hi hr]
  exact (congrArg State.finish hperf).trans (finish_onCx hf)

/-! ### ERET: the records' requests are sent again (R353) -/

/-- The results outstanding of which a record stands are waited for anew. -/
def Ctx.awaitsAnew (c : Ctx) : Ctx := { c with
  replay := []
  pend := c.pend.map fun q => if c.replay.any (fun r => r.tag == q.tag) then { q with left := q.reqs.length, got := 0, xs := 0xFFFF } else q }

/-- The requests of the results that records stand of, in the records' order. -/
def Ctx.replayReqs (c : Ctx) : List Req := c.replay.flatMap fun r => (c.pend.find? fun q => q.tag == r.tag).elim [] Pend.reqs

theorem flatten_filterMap {α β γ : Type} (f : α → Option β) (g : β → List γ) (l : List α) :
    ((l.filterMap f).map g).flatten = l.flatMap fun a => (f a).elim [] g := by
  induction l with
  | nil => rfl
  | cons a l ih =>
    rw [List.filterMap_cons, List.flatMap_cons, ← ih]
    cases f a <;> rfl

theorem replayAll_eq (s : State) : s.replayAll s.me.1 s.me.2 = s.cx.replayReqs.foldl State.sendReq (s.onCx Ctx.awaitsAnew) :=
  congrArg (fun l => List.foldl State.sendReq (s.onCx Ctx.awaitsAnew) l) (flatten_filterMap ..)

/-- What ERET leaves of its thread. -/
def Ctx.returned (c : Ctx) : Ctx := { c with hnd := false, pc := c.trappc, npc := c.trappc, entry := false }

theorem doEret_eq (s : State) : doEret s = (s.cx.replayReqs.foldl State.sendReq (s.onCx Ctx.awaitsAnew)).onCx Ctx.returned :=
  congrArg (fun u => u.onCx Ctx.returned) (replayAll_eq s)

end

/-- Settles O31: TRAP by its trap; the two returns by the body that their issue is. -/
theorem trapsAndReturns : Obligations.TrapsAndReturns := by
  unfold Obligations.TrapsAndReturns
  refine ⟨fun h code s hc hh hv => ⟨_, rfl, issue_traps hc hh hv rfl⟩, ?eret, ?next⟩
  case eret =>
    intro h s hr
    refine congrArg Host.Outcome.next (issue_return (h := h) (Or.inl rfl) hr ?_ (fun _ => rfl) (doEret_eq s))
    rw [(threadsStay_sendReqs ..).took, State.onCx_took]
    exact took_of_returns hr
  case next =>
    intro h s hr
    refine congrArg Host.Outcome.next (issue_return (h := h) (Or.inr rfl) hr (took_of_returns hr) (fun _ => rfl) ?_)
    change s.eretNext = _
    unfold State.eretNext
    exact onCx_congr rfl

end Sys2Proof.Machine
end

section
/-! Regions, trace records, breaks, watchpoints and counters (O35, R398 to R418). -/
namespace Sys2Proof.Machine
open Sys2Proof.Manual

section
variable {s t u : State} {i : Instr} {body : State → State} {h : Hdr}

/-! ### What an instruction leaves so that its thread goes on -/

/-- Of what decides how an issue ends, nothing has changed: no trap, no park, no stream, no capture. -/
structure GoesOn (s t : State) : Prop where
  me      : t.me = s.me
  took    : t.took = s.took
  streams : t.cx.streams = s.cx.streams
  cap     : t.cx.cap = s.cx.cap
  half    : t.cx.half = s.cx.half
  run     : t.cx.run = s.cx.run

theorem GoesOn.trans (h : GoesOn s t) (h' : GoesOn t u) : GoesOn s u :=
  ⟨h'.me.trans h.me, h'.took.trans h.took, h'.streams.trans h.streams, h'.cap.trans h.cap, h'.half.trans h.half, h'.run.trans h.run⟩

theorem ThreadsStay.goesOn (h : ThreadsStay s t) : GoesOn s t := by
  have hcx := h.cx
  exact ⟨h.me, h.took, by rw [hcx], by rw [hcx], by rw [hcx], by rw [hcx]⟩

theorem goesOn_onCx {f : Ctx → Ctx} (hs : (f s.cx).streams = s.cx.streams) (hc : (f s.cx).cap = s.cx.cap) (hh : (f s.cx).half = s.cx.half)
    (hr : (f s.cx).run = s.cx.run) : GoesOn s (s.onCx f) :=
  ⟨rfl, rfl, by rw [State.cx_onCx, hs], by rw [State.cx_onCx, hc], by rw [State.cx_onCx, hh], by rw [State.cx_onCx, hr]⟩

theorem issue_goesOn (hc : Clear i s = true) (hb : body s = t) (h : GoesOn s t) : issue i body s = t.pass :=
  issue_pass hc hb h.took h.streams h.cap h.half h.run

/-! ### Trace records and halts leave the thread to go on -/

theorem threadsStay_traceCtx (s : State) (c x typ tag : Nat) (data : Word) : ThreadsStay s (s.traceCtx c x typ tag data) :=
  threadsStay_ringWrite ..

/-- The issuing context, halted. -/
theorem goesOn_haltCtx (s : State) (edge : Bool) : GoesOn s (s.haltCtx s.me.1 s.me.2 edge) := by
  unfold State.haltCtx
  dsimp only
  split
  · exact (ThreadsStay.refl s).goesOn
  · refine GoesOn.trans (t := s.onCx fun c => { c with
        halted := true, edge := edge, edgeWait := none, stepping := false
        skidReg := if c.skidReg.isNone then some (c.skid, edge) else c.skidReg }) (goesOn_onCx rfl rfl rfl rfl) ?_
    exact (threadsStay_traceCtx ..).goesOn

/-! ### Regions (R398, R406, R414) -/

/-- No precise stop waits and no region edge is traced. -/
theorem edge_eq_self {typ : Nat} {id : BitVec 16} (hd : s.mine.dctl.getLsbD 2 = false) (he : s.cx.edgeWait = none) : s.edge typ id = s := by
  simp only [State.edge, hd, he, Bool.false_eq_true, if_false, Option.isSome_none]

theorem goesOn_edge (s : State) (typ : Nat) (id : BitVec 16) : GoesOn s (s.edge typ id) := by
  have htrace : GoesOn s (if s.mine.dctl.getLsbD 2 then s.traceCtx s.me.1 s.me.2 typ id.toNat s.pcNow else s) :=
    (threadsStay_ite (threadsStay_traceCtx ..) (ThreadsStay.refl s)).goesOn
  unfold State.edge
  generalize (if s.mine.dctl.getLsbD 2 then s.traceCtx s.me.1 s.me.2 typ id.toNat s.pcNow else s) = u at htrace ⊢
  dsimp only
  split
  · exact htrace.trans ((goesOn_onCx rfl rfl rfl rfl).trans (goesOn_haltCtx ..))
  · exact htrace

theorem dropLast_cons_of_full {α : Type} {l : List α} {n : Nat} (hl : l.length = n + 1) (a : α) : a :: l.dropLast = (a :: l).take (n + 1) := by
  rw [List.take_succ_cons, List.dropLast_eq_take, hl, Nat.add_sub_cancel]

/-- RENTER pushes a region; the bottom of a full stack falls off and is counted (R398). -/
theorem renter_eq (c : Ctx) (id : BitVec 16) : c.renter id = { c with
    regions := (id :: c.regions).take (if c.regions.length = 16 then 16 else c.regions.length + 1)
    ovf := if c.regions.length = 16 ∧ c.ovf ≠ 0xFFFF then c.ovf + 1 else c.ovf } := by
  unfold Ctx.renter
  by_cases hl : c.regions.length = 16
  · have hall : (BitVec.allOnes 16 : BitVec 16) = 0xFFFF := rfl
    simp only [hl, if_true, true_and, dropLast_cons_of_full hl id, hall, ne_eq, ite_not]
  · simp [hl]

/-- RLEAVE pops a region, or counts down (R398). -/
theorem rleave_eq (c : Ctx) : c.rleave = (c.regions.headD 0, { c with
    regions := c.regions.drop 1, ovf := if c.regions = [] ∧ c.ovf ≠ 0 then c.ovf - 1 else c.ovf }) := by
  unfold Ctx.rleave
  split
  next top rest hr => simp [hr]
  next hr =>
    have hnil : c.regions.drop 1 = c.regions := by rw [hr]; rfl
    rw [hnil, hr, List.headD_nil, ite_and, if_pos rfl, ite_not]
    split
    next ho => rw [← ho, ← hr]
    next => rw [← hr]

theorem exec_renter {id : BitVec 16} (hc : Clear (.renter h id) s = true) :
    exec (.renter h id) s = .next ((s.onCx fun c => c.renter id).edge 2 id).pass := by
  have hr := renter_eq s.cx id
  exact congrArg Host.Outcome.next (issue_goesOn hc rfl
    ((goesOn_onCx (by rw [hr]) (by rw [hr]) (by rw [hr]) (by rw [hr])).trans (goesOn_edge ..)))

theorem exec_rleave (hc : Clear (.rleave h) s = true) :
    exec (.rleave h) s = .next ((s.onCx fun c => c.rleave.2).edge 3 (s.cx.regions.headD 0)).pass := by
  have hr := rleave_eq s.cx
  refine congrArg Host.Outcome.next (issue_goesOn hc ?_
    ((goesOn_onCx (by rw [hr]) (by rw [hr]) (by rw [hr]) (by rw [hr])).trans (goesOn_edge ..)))
  rw [doRleave, hr]

/-! ### BRK (R416) -/

theorem exec_brk_attached {code : BitVec 16} {scope : BitVec 2} (hc : Clear (.brk h code scope) s = true) (hd : s.mine.dctl.getLsbD 0 = true) :
    exec (.brk h code scope) s = .next ((((s.traceCtx s.me.1 s.me.2 5 code.toNat s.cx.pc).onCx fun c => { c with
      pc := c.npc, skid := 0 }).haltCtx s.me.1 s.me.2 false).startStop scope.toNat s.me.1 false none).pass := by
  have hb : doBrk code scope s = (((s.traceCtx s.me.1 s.me.2 5 code.toNat s.cx.pc).onCx fun c => { c with
      pc := c.npc, skid := 0 }).haltCtx s.me.1 s.me.2 false).startStop scope.toNat s.me.1 false none := by
    have hme := (threadsStay_traceCtx s s.me.1 s.me.2 5 code.toNat s.cx.pc).me
    rw [doBrk, hd, pcNow_of_clear hc, Bool.not_true, if_neg Bool.false_ne_true]
    dsimp only
    generalize s.traceCtx s.me.1 s.me.2 5 code.toNat s.cx.pc = u at hme
    rw [← hme]
    exact congrArg (fun m : Nat × Nat => ((u.onCx fun c => { c with pc := c.npc, skid := 0 }).haltCtx u.me.1 u.me.2 false).startStop
      scope.toNat m.1 false none) (goesOn_haltCtx (u.onCx fun c => { c with pc := c.npc, skid := 0 }) false).me
  have htrace := threadsStay_traceCtx s s.me.1 s.me.2 5 code.toNat s.cx.pc
  refine congrArg Host.Outcome.next (issue_goesOn hc hb (GoesOn.trans ?_ (threadsStay_startStop ..).goesOn))
  generalize s.traceCtx s.me.1 s.me.2 5 code.toNat s.cx.pc = u at htrace
  rw [← htrace.me]
  exact htrace.goesOn.trans ((goesOn_onCx rfl rfl rfl rfl).trans (goesOn_haltCtx ..))

/-! ### Watchpoints (R402, R417) -/

theorem long1_far {d : Dest} {place : Place} {op : ROp} (h : ∀ t : State, t.sendReq (s.reqFor place op s.cx.nextTag) =
    t.send (.req (s.reqFor place op s.cx.nextTag))) : s.long1 d place op =
    (s.addPend { s.newPend d with reqs := [s.reqFor place op s.cx.nextTag] }).send (.req (s.reqFor place op s.cx.nextTag)) :=
  startLong_of_sent rfl h

/-- An address that fits its mode and is aligned names the unit that serves its word. -/
theorem withUnit_sound {am : Mode} {ea : Word} {k : Place → State} (hm : inMode am ea = true) (hal : ea.toNat % 8 = 0) :
    s.withUnit am ea k = k (watchedUnit s am ea) := by
  have hbne : (ea.toNat % 8 != 0) = false := by simp [hal]
  cases am
  all_goals simp only [State.withUnit, eaClean_eq_inMode, hm, hbne, Bool.not_true, Bool.false_eq_true, if_false, watchedUnit, poolOf, fld_15_0]

theorem farLong_wpset {idx : BitVec 3} {kind scope : BitVec 2} {am : Mode} {a : GReg} (hc : Clear (.wpset h idx kind scope am a) s = true)
    (hm : inMode am (s.cx.regs.getG a) = true) (hal : (s.cx.regs.getG a).toNat % 8 = 0) :
    farLong s (issue (.wpset h idx kind scope am a) (doWpset idx kind scope am a) s) .none (watchedUnit s am (s.cx.regs.getG a))
      (.wpset idx.toNat kind.toNat scope.toNat) := by
  refine farLong_issue_of_sent hc ?_
  rw [doWpset, rd_of_clear hc, withUnit_sound hm hal]
  exact long1_far fun _ => by cases am <;> rfl

theorem farLong_wpclr {idx : BitVec 3} {am : Mode} {a : GReg} (hc : Clear (.wpclr h idx am a) s = true)
    (hm : inMode am (s.cx.regs.getG a) = true) (hal : (s.cx.regs.getG a).toNat % 8 = 0) :
    farLong s (issue (.wpclr h idx am a) (doWpclr idx am a) s) .none (watchedUnit s am (s.cx.regs.getG a)) (.wpclr idx.toNat) := by
  refine farLong_issue_of_sent hc ?_
  rw [doWpclr, rd_of_clear hc, withUnit_sound hm hal]
  exact long1_far fun _ => by cases am <;> rfl

/-! ### Counters (R412, R418) -/

theorem ownLong_cntrd {lat : Bool} {n : BitVec 8} {d : GReg} (hc : Clear (.cntrd h lat n d) s = true) :
    ownLong s (issue (.cntrd h lat n d) (doCntrd lat n d) s) (.g d .d 0) ((counterValue s lat n.toNat).setWidth 512) 0 := by
  have hlong := ownLong_issue (body := fun s => s.longValue (s.newPend (.g d .d 0)) ((s.counterNow lat n.toNat).setWidth 512) 0) hc rfl
  have henters := entersLong_longValue s (s.newPend (.g d .d 0)) ((s.counterNow lat n.toNat).setWidth 512) 0
  rw [issue_entersLong hc rfl henters] at hlong
  rw [issue_entersLong hc rfl (henters.trans ⟨rfl, rfl, _, _, _, rfl⟩)]
  exact hlong

end

/-- Settles O35: each instruction by what it leaves of its thread, which then goes on, traps or has asked. -/
theorem debugInstructions : Obligations.DebugInstructions := by
  unfold Obligations.DebugInstructions
  refine ⟨?renter, ?rleave, fun _ _ _ hd he => edge_eq_self hd he, ?trace, ?brkTrap, fun _ _ _ _ hc hd => exec_brk_attached hc hd,
    fun _ _ _ _ _ _ _ hc hm hal => ⟨_, rfl, farLong_wpset hc hm hal⟩, fun _ _ _ _ _ hc hm hal => ⟨_, rfl, farLong_wpclr hc hm hal⟩,
    fun _ _ _ _ _ hc => ⟨_, rfl, ownLong_cntrd hc⟩⟩
  case renter =>
    intro h id s hc
    simp only [exec_renter hc, renter_eq]
  case rleave =>
    intro h s hc t
    simp only [exec_rleave hc, rleave_eq]
    rfl
  case trace =>
    intro h tag a s hc
    refine congrArg Host.Outcome.next (issue_goesOn hc ?_ (threadsStay_traceCtx ..).goesOn)
    rw [doTrace, rd_of_clear hc]
  case brkTrap =>
    intro h code scope s hc hd hh hv
    refine ⟨_, rfl, issue_traps hc hh hv ?_⟩
    rw [doBrk, hd, pcNow_of_clear hc]
    rfl

end Sys2Proof.Machine
end

section
/-! The circular buffers' instructions (O27, R280, R281). -/
namespace Sys2Proof.Machine
open Sys2Proof.Manual

section
variable {s : State} {h : Hdr} {d : GReg} {cb : CbReg} {q : CBuf}

/-! ### The buffer of a core -/

theorem onMine_onCb (s : State) (cb : CbReg) (f : CBuf → CBuf) : (s.onMine fun k => k.onCb cb.toNat f) = s.setBuf cb (f (s.mine.cb cb.toNat)) := rfl

@[simp] theorem cx_setBuf (s : State) (cb : CbReg) (q : CBuf) : (s.setBuf cb q).cx = s.cx := State.cx_onMine _ _ (by rfl)

/-- A role that may do the operation, on a buffer whose partner is there. -/
theorem withCb_ok {roles : List Nat} {k : CBuf → State} (hr : (s.mine.cb cb.toNat).role ∈ roles) (hl : (s.mine.cb cb.toNat).lost = false) :
    s.withCb cb roles k = k (s.mine.cb cb.toNat) := by
  have hc : roles.contains (s.mine.cb cb.toNat).role = true := by simpa using hr
  simp only [State.withCb, hc, hl, Bool.not_true, Bool.false_eq_true, if_false]

theorem mem_producer {n : Nat} (h : n = 1 ∨ n = 3) : n ∈ [1, 3] := by simpa using h

theorem mem_consumer {n : Nat} (h : n ≤ 2) : n ∈ [0, 1, 2] := by
  simp only [List.mem_cons, List.not_mem_nil, or_false]
  omega

theorem issue_setBuf {i : Instr} {body : State → State} (hc : Clear i s = true) (hb : body s = s.setBuf cb q) :
    issue i body s = (s.setBuf cb q).pass := issue_of_access hc hb rfl (cx_setBuf ..)

/-- A buffer that is changed, with a notice to its partner where its role says so. -/
theorem issue_setBuf_tell {i : Instr} {body : State → State} {p : Prop} [Decidable p] {b : Body} (hc : Clear i s = true)
    (hb : body s = if p then (s.setBuf cb q).send b else s.setBuf cb q) :
    issue i body s = if p then ((s.setBuf cb q).send b).pass else (s.setBuf cb q).pass := by
  by_cases hp : p
  · rw [if_pos hp] at hb ⊢
    exact issue_of_access hc hb rfl (by rw [State.cx_send, cx_setBuf])
  · rw [if_neg hp] at hb ⊢
    exact issue_setBuf hc hb

/-! ### CBSET (R280) -/

theorem fld_high_bne {w : Word} {lo : Nat} (hlo : lo ≤ 64) (hw : w.toNat < 2 ^ lo) : (fld w 63 lo != 0) = false := by
  rw [bne_eq_false_iff_eq]
  exact (fld_high_eq_zero w hlo).mpr hw

theorem exec_cbset {a b : GReg} (hc : Clear (.cbset h cb a b) s = true)
    (hs : bufferSound s cb (s.cx.regs.getG a) (s.cx.regs.getG b) = true) :
    exec (.cbset h cb a b) s = .next (s.setBuf cb (bufferOf (s.cx.regs.getG a) (s.cx.regs.getG b))).pass := by
  refine congrArg Host.Outcome.next (issue_setBuf hc ?_)
  rw [doCbset, rd_of_clear hc, cbufOf_eq_bufferOf]
  have hrole := role_bufferOf_lt (s.cx.regs.getG a) (s.cx.regs.getG b)
  simp only [bufferSound, Bool.and_eq_true, Bool.or_eq_true, decide_eq_true_eq, beq_iff_eq, bne_iff_ne, Bool.not_eq_true'] at hs
  generalize bufferOf (s.cx.regs.getG a) (s.cx.regs.getG b) = q at hs hrole ⊢
  obtain ⟨⟨⟨⟨⟨⟨hx, hy⟩, hbase⟩, hcore⟩, hpartner⟩, hreach⟩, hcopy⟩ := hs
  have halign : (q.base % 64 != 0) = false := by simp [hbase]
  have hown : (q.core != if q.role = 3 then q.pcore else s.me.1) = false := by simp [← hcore]
  have hother : (decide (q.role ≥ 2) && q.pcore == s.me.1) = false := by
    obtain hp | hp := hpartner
    · simp [Nat.not_le.mpr hp]
    · simp [hp]
  have hin : (decide (q.role ≤ 2) && !s.mine.reachable q.base (q.count * q.size)) = false := by
    obtain hr | hr := hreach
    · simp [hr]
    · simp [hr]
  simp only [halign, fld_high_bne (by decide) hx, fld_high_bne (by decide) hy, hown, hother, hin, hcopy, Bool.or_self, Bool.false_eq_true, if_false]
  rfl

/-! ### A stage taken: CBRSV and CBACQ (R281) -/

theorem exec_cbrsv (hc : Clear (.cbrsv h d cb) s = true) (hq : s.mine.cb cb.toNat = q) (hr : q.role = 1 ∨ q.role = 3) (hl : q.lost = false) :
    exec (.cbrsv h d cb) s = .next (
      if q.free = 0 then s.park .sync (.cbFree cb) (.cbrsv d cb)
      else ((s.setBuf cb { q with free := q.free - 1, pidx := (q.pidx + 1) % q.count, reserved := q.reserved + 1 }).wrG d
        (BitVec.ofNat 64 (q.base + q.pidx * q.size + if q.role = 3 then q.core * 2 ^ 16 else 0))).pass) := by
  have hb : doCbrsv d cb s = if q.free = 0 then s.park .sync (.cbFree cb) (.cbrsv d cb)
      else (s.setBuf cb { q with free := q.free - 1, pidx := (q.pidx + 1) % q.count, reserved := q.reserved + 1 }).wrG d
        (BitVec.ofNat 64 (q.base + q.pidx * q.size + if q.role = 3 then q.core * 2 ^ 16 else 0)) := by
    have hoff : (if q.role = 3 then q.core * 65536 + q.stage q.pidx else q.stage q.pidx) =
        q.base + q.pidx * q.size + if q.role = 3 then q.core * 2 ^ 16 else 0 := by
      rw [CBuf.stage]
      split <;> omega
    rw [doCbrsv, State.cbrsvGo, withCb_ok (mem_producer (hq ▸ hr)) (hq ▸ hl), hq, ← hoff]
    simp only [onMine_onCb, hq]
  refine congrArg Host.Outcome.next ?_
  split
  next hf => exact issue_park hc (hb.trans (if_pos hf)) rfl rfl rfl
  next hf => exact issue_of_access hc (hb.trans (if_neg hf)) rfl (by rw [State.cx_wrG, cx_setBuf])

theorem exec_cbacq (hc : Clear (.cbacq h d cb) s = true) (hq : s.mine.cb cb.toNat = q) (hr : q.role ≤ 2) (hl : q.lost = false) :
    exec (.cbacq h d cb) s = .next (
      if q.filled = 0 then s.park .sync (.cbFilled cb) (.cbacq d cb)
      else (((s.setBuf cb { q with filled := q.filled - 1, cidx := (q.cidx + 1) % q.count, acquired := q.acquired + 1 }).wrG d
        (BitVec.ofNat 64 (q.base + q.cidx * q.size))).snapEmpty s.me.1).pass) := by
  have hb : doCbacq d cb s = if q.filled = 0 then s.park .sync (.cbFilled cb) (.cbacq d cb)
      else ((s.setBuf cb { q with filled := q.filled - 1, cidx := (q.cidx + 1) % q.count, acquired := q.acquired + 1 }).wrG d
        (BitVec.ofNat 64 (q.base + q.cidx * q.size))).acquire := by
    rw [doCbacq, State.cbacqGo, withCb_ok (mem_consumer (hq ▸ hr)) (hq ▸ hl), hq]
    simp only [onMine_onCb, hq, CBuf.stage]
  refine congrArg Host.Outcome.next ?_
  split
  next hf => exact issue_park hc (hb.trans (if_pos hf)) rfl rfl rfl
  next hf => exact issue_acquire hc (hb.trans (if_neg hf)) rfl rfl (by rw [State.cx_wrG, cx_setBuf])

/-! ### A stage passed on: CBCMT and CBREL (R281) -/

theorem exec_cbcmt (hc : Clear (.cbcmt h cb) s = true) (hq : s.mine.cb cb.toNat = q) (hr : q.role = 1 ∨ q.role = 3) (hl : q.lost = false)
    (hres : q.reserved ≠ 0) (hd : s.isDrained s.me.1 s.me.2 = true) :
    let t := s.setBuf cb { q with reserved := q.reserved - 1, filled := if q.role = 1 then q.filled + 1 else q.filled }
    exec (.cbcmt h cb) s = .next (if q.role = 3 then (t.send (.fill q.pcore q.pcb)).pass else t.pass) := by
  refine congrArg Host.Outcome.next (issue_setBuf_tell hc ?_)
  have hwith := fun k : CBuf → State => withCb_ok (k := k) (s := s) (cb := cb) (mem_producer (hq ▸ hr)) (hq ▸ hl)
  rw [doCbcmt, hwith, hq, if_neg hres, afterDrain_of_isDrained hd, State.cbcmtGo, hwith, hq, if_neg hres]
  simp only [onMine_onCb, hq]

theorem exec_cbrel (hc : Clear (.cbrel h cb) s = true) (hq : s.mine.cb cb.toNat = q) (hr : q.role ≤ 2) (hl : q.lost = false)
    (hacq : q.acquired ≠ 0) :
    let t := s.setBuf cb { q with acquired := q.acquired - 1, free := if q.role ≤ 1 then q.free + 1 else q.free }
    exec (.cbrel h cb) s = .next (if q.role = 2 then (t.send (.stageFree q.pcore q.pcb)).pass else t.pass) := by
  refine congrArg Host.Outcome.next (issue_setBuf_tell hc ?_)
  rw [doCbrel, withCb_ok (mem_consumer (hq ▸ hr)) (hq ▸ hl), hq, if_neg hacq]
  simp only [onMine_onCb, hq]

end

/-- Settles O27: each instruction by the buffer that its role may change. -/
theorem circularBuffers : Obligations.CircularBuffers := by
  unfold Obligations.CircularBuffers
  exact ⟨fun _ _ _ _ _ hc hs => exec_cbset hc hs, fun _ _ _ _ hc hr hl => exec_cbrsv hc rfl hr hl,
    fun _ _ _ hc hr hl hres hd => exec_cbcmt hc rfl hr hl hres hd, fun _ _ _ _ hc hr hl => exec_cbacq hc rfl hr hl,
    fun _ _ _ hc hr hl hacq => exec_cbrel hc rfl hr hl hacq⟩

end Sys2Proof.Machine
end

section
/-! Commands at the scheduler's port, and the completion of a graph's node (O42, R377, R379, R386, R391, R392). -/
namespace Sys2Proof.Machine
open Sys2Proof.Manual

section
variable {s : State} {d : Line} {g i v : Nat}

/-! ### Result words (R391) -/

theorem resWord_id (n : Nat) : resWord 0 n = BitVec.ofNat 64 n := congrArg (BitVec.ofNat 64) (by omega)

theorem resWord_refused (n : Nat) : resWord n 0 = BitVec.ofNat 64 (n * 2 ^ 56) := by rw [resWord, Nat.add_zero]

/-! ### A launch at the port (R377, R391) -/

theorem tenantFor_sys (d : Line) : sysIssuer.tenantFor d = descTenant d := rfl

theorem prioFor_sys (d : Line) : sysIssuer.prioFor d = descPrio d := rfl

theorem super_sys (d : Line) : (sysIssuer.sys && descSuper d) = descSuper d := rfl

/-- What system software asks for is asked for by the descriptor's own tenant, at its own priority. -/
theorem accept_sys (s : State) (d : Line) : s.accept sysIssuer d =
    if descBad sysIssuer false d then (resWord 2 0, s)
    else if s.xinstBad (descTenant d) d then (resWord 3 0, s)
    else if !s.sched.room (descPrio d) (descTenant d) then (resWord 1 0, s)
    else (resWord 0 s.sched.nextLaunch, (s.enqueue d (descTenant d) (descSuper d) (descPrio d) none).1) := by
  rw [State.accept]
  simp only [tenantFor_sys, prioFor_sys, super_sys]
  rfl

theorem exec_launch (s : State) (d : Line) : exec (.schedulerCommand (.launch d)) s =
    .next ((s.accept sysIssuer d).2.tell (.result (s.accept sysIssuer d).1)) := by
  change Host.Outcome.next (s.schedCommand (.launch d)) = _
  unfold State.schedCommand
  dsimp only

/-- The launch that joins the tail of its queue. -/
def State.newLaunch (s : State) (d : Line) (tenant : BitVec 16) (sup : Bool) (prio : Nat) (node : Option (Nat × Nat)) : Launch :=
  { id := s.sched.nextLaunch, desc := d, tenant := tenant, service := descService d, sup := sup, prio := prio, level := prio, st := .queued
    next := 0, ended := 0, cores := [], heard := [], status := 0, cause := 0, node := node, filled := descW d 3 == 0, inst := none, sealed' := false }

theorem launch_enqueue (s : State) (d : Line) (tenant : BitVec 16) (sup : Bool) (prio : Nat) (node : Option (Nat × Nat)) :
    (s.enqueue d tenant sup prio node).1.launch s.sched.nextLaunch = some (s.newLaunch d tenant sup prio node) := tget_tset_self ..

/-! ### A node at the port (R392) -/

theorem freeId_of_free {used : Nat → Bool} {lim fuel n : Nat} (h0 : 0 < n) (hn : n < lim) (hfree : used n = false) :
    freeId used lim (fuel + 1) n = some n := by
  have hin : (decide (n = 0) || decide (n ≥ lim)) = false := by
    rw [Bool.or_eq_false_iff, decide_eq_false_iff_not, decide_eq_false_iff_not]
    omega
  simp only [freeId, hin, hfree, Bool.false_eq_true, if_false]

theorem graphOf_of_find {x : Graph} (hx : s.sched.graphs.find? (fun y => y.id == g) = some x) : s.graphOf g x.tenant = some x := by
  obtain ⟨hg, as, bs, hl, has⟩ := List.find?_eq_some_iff_append.mp hx
  refine List.find?_eq_some_iff_append.mpr ⟨by simp [hg], as, bs, hl, fun a ha => ?_⟩
  simp [has a ha]

/-- Where the graphs are changed that bear an id, the first of them is the changed one. -/
theorem find_map_id {α : Type} {key : α → Nat} {f : α → α} {l : List α} {x : α} {k : Nat} (hf : key (f x) = key x)
    (h : l.find? (fun y => key y == k) = some x) : (l.map fun y => if key y = k then f y else y).find? (fun y => key y == k) = some (f x) := by
  obtain ⟨hk, as, bs, rfl, has⟩ := List.find?_eq_some_iff_append.mp h
  have hkey : key x = k := by simpa using hk
  refine List.find?_eq_some_iff_append.mpr ⟨by simp [hf, hkey], as, bs.map fun y => if key y = k then f y else y, ?_, has⟩
  have hid : as.map (fun y => if key y = k then f y else y) = as :=
    (List.map_congr_left fun a ha => if_neg (by simpa using has a ha)).trans (List.map_id as)
  rw [List.map_append, hid, List.map_cons, if_pos hkey]

/-- The node that joins its graph. -/
def State.newGNode (s : State) (d : Line) : GNode :=
  { id := s.sched.nextNode, desc := d, tenant := descTenant d, sup := descSuper d, prio := descPrio d, preds := 0, succs := [] }

theorem newNode_sys {x : Graph} (hx : s.sched.graphs.find? (fun y => y.id == g) = some x) (hd : descBad sysIssuer true d = false)
    (hb : s.xinstBad (descTenant d) d = false) (hl : x.nodes.length < 4096) (hc : s.sched.nodeCount < 65536) (h0 : 0 < s.sched.nextNode)
    (hn : s.sched.nextNode < 65536) (hfree : ∀ y ∈ s.sched.graphs, ∀ v ∈ y.nodes, v.id ≠ s.sched.nextNode) :
    s.newNode sysIssuer g x.tenant d = (resWord 0 s.sched.nextNode,
      (s.onGraph g fun x => { x with nodes := x.nodes ++ [s.newGNode d] }).onSched fun q => { q with nextNode := s.sched.nextNode + 1 }) := by
  have hb' : s.xinstBad (sysIssuer.tenantFor d) d = false := hb
  have hroom : (decide (x.nodes.length ≥ 4096) || decide (s.sched.nodeCount ≥ 65536)) = false := by
    rw [Bool.or_eq_false_iff, decide_eq_false_iff_not, decide_eq_false_iff_not]
    omega
  have hunused : (s.sched.graphs.any fun g => g.nodes.any fun v => v.id == s.sched.nextNode) = false := by
    simpa using hfree
  have hid := freeId_of_free (used := fun n => s.sched.graphs.any fun g => g.nodes.any fun v => v.id == n) (fuel := s.sched.nodeCount + 1) h0 hn hunused
  unfold State.newNode
  simp only [graphOf_of_find hx, hd, hb', hroom, hid, Bool.false_eq_true, if_false]
  rfl

/-- A node is asked for by the tenant of its graph; where the graph does not stand, by tenant 0. -/
def State.graphTenant (s : State) (g : Nat) : BitVec 16 := ((s.sched.graphs.find? fun x => x.id == g).map Graph.tenant).getD 0

theorem exec_node (s : State) (g : Nat) (d : Line) : exec (.schedulerCommand (.node g d)) s =
    .next ((s.newNode sysIssuer g (s.graphTenant g) d).2.tell (.result (s.newNode sysIssuer g (s.graphTenant g) d).1)) := by
  change Host.Outcome.next (s.schedCommand (.node g d)) = _
  unfold State.schedCommand State.graphTenant
  dsimp only
  cases s.sched.graphs.find? fun x => x.id == g <;> rfl

theorem newNode_of_no_graph {own : BitVec 16} (h : ∀ y ∈ s.sched.graphs, y.id ≠ g) : s.newNode sysIssuer g own d = (resWord 4 0, s) := by
  have hnone : s.graphOf g own = none := List.find?_eq_none.mpr fun y hy => by simp [h y hy]
  rw [State.newNode, hnone]

/-! ### A node's completion (R386) -/

/-- The state in which a node that a launch runs is complete, each of its successors waiting for one less. -/
def State.freesNode (s : State) (i : Nat) (n : INode) : State := s.onInst i fun x => { x with nodes := x.nodes.map fun m => m.freed n }

theorem inst_onInst {x : Inst} {f : Inst → Inst} (hx : s.inst i = some x) (hf : (f x).id = x.id) : (s.onInst i f).inst i = some (f x) :=
  find_map_id (key := Inst.id) hf hx

theorem nodeComplete_eq {x : Inst} {n : INode} (hx : s.inst i = some x) (hn : x.nodes.find? (fun n => n.node.id == v && n.st == .ended) = some n) :
    s.nodeComplete i v = ((s.freesNode i n).queueReady i).endInst i ((s.freesNode i n).sched.insts.length + 1) := by
  have hv : n.node.id = v := by
    have := List.find?_some hn
    simp only [Bool.and_eq_true, beq_iff_eq] at this
    exact this.1
  have hmap : (fun m : INode => { (if m.node.id = v then { m with st := .done } else m : INode) with
      left := (if m.node.id = v then { m with st := .done } else m : INode).left -
        (n.node.succs.filter (· == (if m.node.id = v then { m with st := .done } else m : INode).node.id)).length }) = fun m => m.freed n := by
    funext m
    rw [INode.freed, hv]
    split <;> rfl
  unfold State.nodeComplete
  simp only [hx, hn]
  unfold State.freesNode
  rw [← hmap]

/-- A run of a graph with a node that is not done does not end. -/
theorem endInst_of_open {x : Inst} {n : Nat} (hx : s.inst i = some x) (hopen : ∃ m ∈ x.nodes, m.st ≠ .done) : s.endInst i (n + 1) = s := by
  obtain ⟨m, hm, hst⟩ := hopen
  have hany : (x.nodes.any fun n => n.st != .done) = true := List.any_eq_true.mpr ⟨m, hm, by simpa using hst⟩
  unfold State.endInst
  simp only [hx, hany, Bool.or_true, if_true]

theorem inst_freesNode {x : Inst} {n : INode} (hx : s.inst i = some x) :
    (s.freesNode i n).inst i = some { x with nodes := x.nodes.map fun m => m.freed n } := inst_onInst hx rfl

/-- The nodes that wait for nothing once a node is complete. -/
def Inst.readied (x : Inst) (n : INode) : List INode :=
  x.nodes.filter fun m => decide ((m.freed n).left = 0) && decide ((m.freed n).st = .waiting)

theorem filter_freed (x : Inst) (n : INode) :
    (x.nodes.map fun m => m.freed n).filter (fun m => m.left == 0 && m.st == .waiting) = (x.readied n).map fun m => m.freed n := by
  rw [List.filter_map, Inst.readied]
  congr 1

theorem queueReady_none {x : Inst} {n : INode} (hx : s.inst i = some x) (hnow : x.readied n = []) :
    (s.freesNode i n).queueReady i = s.freesNode i n := by
  unfold State.queueReady
  simp only [inst_freesNode hx, filter_freed, hnow]
  rfl

/-- The state in which a node is queued as a launch of its own. -/
def State.queuesNode (s : State) (i : Nat) (v : GNode) : State :=
  s.onInst i fun x => { x with nodes := x.nodes.map fun n => if n.node.id = v.id then { n with st := .queued } else n }

theorem inst_enqueue (s : State) (d : Line) (tenant : BitVec 16) (sup : Bool) (prio : Nat) (node : Option (Nat × Nat)) (i : Nat) :
    (s.enqueue d tenant sup prio node).1.inst i = s.inst i := rfl

theorem queueReady_one {x : Inst} {n m : INode} (hx : s.inst i = some x) (hnow : x.readied n = [m]) (he : descEvent m.node.desc = false)
    (hroom : s.sched.room m.node.prio m.node.tenant = true) :
    (s.freesNode i n).queueReady i =
      (((s.freesNode i n).queuesNode i m.node).enqueue m.node.desc m.node.tenant m.node.sup m.node.prio (some (i, m.node.id))).1 := by
  have hroom' : (s.freesNode i n).sched.room m.node.prio m.node.tenant = true := hroom
  unfold State.queueReady
  simp only [inst_freesNode hx, filter_freed, hnow, List.map_cons, List.map_nil, List.foldr_cons, List.foldr_nil, byId, List.foldl_cons,
    List.foldl_nil]
  change (if (descEvent m.node.desc || (s.freesNode i n).sched.room m.node.prio m.node.tenant) then (s.freesNode i n).queueNode i m.node
    else s.freesNode i n) = _
  rw [hroom', Bool.or_true, if_pos rfl, State.queueNode, he]
  rfl

end

/-- Settles O42: a command by what is refused first; a completion by the nodes that it leaves waiting for nothing. -/
theorem schedulerSteps : Obligations.SchedulerSteps := by
  unfold Obligations.SchedulerSteps
  refine ⟨⟨?launch, ?badDesc, ?full, ?node, ?noGraph⟩, ?complete⟩
  case launch =>
    intro d s hd hx hroom id
    refine ⟨_, s.newLaunch d (descTenant d) (descSuper d) (descPrio d) none, exec_launch s d, ?_⟩
    rw [accept_sys, hd, if_neg Bool.false_ne_true, hx, if_neg Bool.false_ne_true, hroom, Bool.not_true, if_neg Bool.false_ne_true, resWord_id]
    exact ⟨rfl, launch_enqueue .., rfl, rfl, rfl, rfl, rfl, rfl, rfl, rfl, rfl, rfl, rfl⟩
  case badDesc =>
    intro d s hd
    rw [exec_launch, accept_sys, hd, if_pos rfl, resWord_refused]
    rfl
  case full =>
    intro d s hd hx hroom
    rw [exec_launch, accept_sys, hd, if_neg Bool.false_ne_true, hx, if_neg Bool.false_ne_true, hroom, Bool.not_false, if_pos rfl,
      resWord_refused, Nat.one_mul]
    rfl
  case node =>
    intro g d x s hg hd hx hl hc h0 hn hfree
    have hown : s.graphTenant g = x.tenant := by rw [State.graphTenant, hg]; rfl
    refine ⟨_, { x with nodes := x.nodes ++ [s.newGNode d] }, s.newGNode d, exec_node s g d, ?_⟩
    rw [hown, newNode_sys hg hd hx hl hc h0 hn hfree, resWord_id]
    exact ⟨rfl, find_map_id (key := Graph.id) (f := fun x => { x with nodes := x.nodes ++ [s.newGNode d] }) rfl hg, rfl, rfl, rfl, rfl, rfl, rfl⟩
  case noGraph =>
    intro g d s hg
    rw [exec_node, newNode_of_no_graph hg, resWord_refused]
    rfl
  case complete =>
    intro i v x n s hx hn now
    have hexec : exec (.graphNodeComplete i v) s = .next (((s.freesNode i n).queueReady i).endInst i ((s.freesNode i n).sched.insts.length + 1)) :=
      congrArg Host.Outcome.next (nodeComplete_eq hx hn)
    refine ⟨fun hnow hopen => ?_, fun m hnow he hroom => ?_⟩
    · obtain ⟨m, hm, hst⟩ := hopen
      rw [queueReady_none hx hnow, endInst_of_open (inst_freesNode hx) ⟨_, List.mem_map_of_mem hm, hst⟩] at hexec
      exact ⟨_, _, hexec, inst_freesNode hx, rfl, rfl, rfl, rfl, rfl⟩
    · have hnow' : x.readied n = [m] := hnow
      have hm : m ∈ x.nodes := (List.mem_filter.mp (show m ∈ x.readied n from hnow' ▸ List.mem_singleton_self m)).1
      have hq : ((s.freesNode i n).queuesNode i m.node).inst i = _ := inst_onInst (inst_freesNode hx) rfl
      rw [queueReady_one hx hnow he hroom, endInst_of_open ((inst_enqueue ..).trans hq)
        ⟨_, List.mem_map_of_mem (List.mem_map_of_mem hm), by rw [if_pos (show (m.freed n).node.id = m.node.id from rfl)]; exact NState.noConfusion⟩] at hexec
      exact ⟨_, _, hexec, launch_enqueue .., rfl, rfl, rfl, rfl, rfl, rfl⟩

end Sys2Proof.Machine
end

section
/-! Pushes of a write stream by an instruction that is not well-formed (O26, R276, R277). -/
namespace Sys2Proof.Machine
open Sys2Proof.Manual

/-- A conversion from 16 to 32 bits of part 3, which a register of 32 elements does not have: no encoding gives it (R168). -/
def partThree : Instr := .vcvt { s := false, g := 1, n := false } .rn 3 .i32 .i16 24 0

/-- An armed write stream of four strips. -/
def fourStrips : Stream :=
  { wr := true, ready := true, tid := 0, start := 0, p1 := 0, p2 := 0, n0 := 4, n1 := 1, n2 := 1, mode := .l, base := 0, next := 0, ahead := []
    last := 0, out := [], fault := none }

/-- The state after reset, but context 0 of core 0 is ready, its p1 has lane 0 alone, and v24, all ones, is an armed write stream. -/
def pushingState : State := { State.reset with cores := [(0, { Core.reset with ctxs := [(0, { Ctx.reset with
  run := .ready, part := 0x638, regs := (Regs.reset.setP 1 1).setV 24 (BitVec.allOnes 512), streams := [(24, fourStrips)] })] })] }

/-- What the instruction leaves of an element of v24. -/
def pushedElement (j : Nat) : Option (BitVec 32) :=
  match exec partThree pushingState with
  | .next t => some (el 32 (t.cx.regs.getV 24) j)
  | _ => none

/-- Refutes O26: the statement has no hypothesis that the instruction is well-formed. VCVT of a part that its source does not have finds no
elements, and leaves zeros where its guard keeps the lane; the statement has the old element there. -/
theorem not_streams : ¬ Obligations.Streams := by
  unfold Obligations.Streams
  rintro ⟨-, -, -, hpush⟩
  obtain ⟨t, q, hlanes, hexec, hq, -⟩ := hpush partThree pushingState 32 24 _ fourStrips (by decide +kernel) rfl (by decide +kernel)
    (by decide +kernel) rfl rfl (by decide)
  have hkept : el 32 q 1 = BitVec.allOnes 32 := (hlanes 1 (by decide)).trans (by decide +kernel)
  have hleft : pushedElement 1 = some 0 := by decide +kernel
  rw [pushedElement, hexec] at hleft
  dsimp only at hleft
  rw [hq, hkept] at hleft
  exact absurd hleft (by decide)

end Sys2Proof.Machine
end

section
/-! What a frame's lines meet on their way to memory and back (O33, R190, R229, R358, R374). -/
namespace Sys2Proof.Machine
open Sys2Proof.Manual

section
variable {s t u : State} {a : Asker} {va : Word} {pa : Nat}

/-! ### An address whose home has its entry -/

/-- An open line passes every check of its home, and none of them changes the state. -/
theorem gCheck_of_openLine {need : XNeed} {rd : Bool} (h : s.openLine a need va = some pa) (mask : BitVec 64)
    (hp : (rd && s.mem.poison.contains pa) = false) :
    ∃ x, s.gCheck a need false rd va mask = (.ok x, s) ∧ x.pa / 64 * 64 = pa ∧ pteREPL x.pte = false ∧ x.peer = 0 := by
  unfold State.openLine at h
  split at h
  next e he =>
    dsimp only at h
    split at h
    next hc =>
      simp only [Bool.and_eq_true, Bool.not_eq_true', beq_iff_eq] at hc
      obtain ⟨⟨⟨⟨⟨⟨⟨hperm, hd⟩, hunb⟩, hband⟩, hrepl⟩, hcchk⟩, hstop⟩, hport⟩ := hc
      have hpa : leafPa e.pte e.level (fld va 56 0) 0 / 64 * 64 = pa := Option.some.inj h
      have hleaf (f : Nat) : leafPa e.pte e.level (fld va 56 0) f = leafPa e.pte e.level (fld va 56 0) 0 := by
        simp only [leafPa, hrepl, Bool.false_eq_true, if_false]
      have htlb : s.leafFor (homeStop va) a.tenant a.sup need (fld va 56 0) = (.ok (e.pte, e.level), s) := by
        unfold State.leafFor
        simp only [he, hd, Bool.true_or, if_true]
      obtain ⟨st, hst⟩ := Option.isSome_iff_exists.mp hstop
      have htrans : s.translate a need va = (.ok { pa := leafPa e.pte e.level (fld va 56 0) 0, pte := e.pte, peer := 0 }, s) := by
        unfold State.translate
        simp only [htlb, hrepl, hcchk, hleaf, hst, hport, Bool.false_and, Bool.false_eq_true, if_false]
      have hpass : bandOk s.mem e.pte (leafPa e.pte e.level (fld va 56 0) 0 / 64 * 64) mask (bandOf va) = true := by
        rw [bandOk, hunb, if_pos rfl, hband]
        rfl
      have hclean : (rd && s.mem.poison.contains (leafPa e.pte e.level (fld va 56 0) 0 / 64 * 64) && (0 == 0)) = false := by
        rw [hpa, hp]
        rfl
      refine ⟨{ pa := leafPa e.pte e.level (fld va 56 0) 0, pte := e.pte, peer := 0 }, ?_, hpa, hrepl, rfl⟩
      unfold State.gCheck State.gCheck0
      simp only [htrans, hpass, hperm, hclean, Bool.not_true, Bool.false_eq_true, if_false]
    next => cases h
  next => cases h

/-! ### Lines read -/

theorem readPhys_of_unlocked {key : BitVec 16} (h : s.mem.locked key pa 4 = 0) : s.readPhys key pa = (rdLine s.mem.bytes pa, s) := by
  rw [State.readPhys, h]
  rfl

/-- A line that stands readable is what a frame's read of it gives. -/
theorem frameLoad_of_givesLine {l : Line} (h : s.givesLine a va l = true) : s.frameLoad a s.cx.tenant va = .done l s := by
  unfold State.givesLine at h
  split at h
  next pa ho =>
    simp only [Bool.and_eq_true, Bool.not_eq_true', beq_iff_eq] at h
    obtain ⟨⟨hpoison, hlock⟩, hline⟩ := h
    obtain ⟨x, hx, hpa, -, hpeer⟩ := gCheck_of_openLine (rd := true) ho (BitVec.ofNat 64 (2 ^ 64 - 1)) (by rw [hpoison]; rfl)
    unfold State.frameLoad
    simp only [hx, State.readXl, hpeer, if_true, hpa, readPhys_of_unlocked hlock, hline]
  next => cases h

/-- A frame whose lines all stand readable is read whole, from the lines read already on. -/
theorem frameIn_of_givesLines {frame : Word} {k : List Line → State → Served} (ls : List Line) : ∀ n acc, acc ++ ls.drop acc.length = ls →
    acc.length + n = ls.length →
    (∀ i < ls.length, ∃ l, ls[i]? = some l ∧ s.givesLine a (ptrAdd frame (64 * i)) l = true) →
    s.frameIn a s.cx.tenant frame k n acc = k ls s
  | 0, acc, hacc, hlen, _ => by
    rw [Nat.add_zero] at hlen
    rw [List.drop_of_length_le hlen.ge, List.append_nil] at hacc
    rw [State.frameIn, hacc]
  | n + 1, acc, hacc, hlen, hls => by
    obtain ⟨l, hl, hgives⟩ := hls acc.length (by omega)
    have hdrop : ls.drop acc.length = l :: ls.drop (acc.length + 1) := by
      obtain ⟨hlt, he⟩ := List.getElem?_eq_some_iff.mp hl
      rw [← he]
      exact List.drop_eq_getElem_cons hlt
    rw [State.frameIn, frameLoad_of_givesLine hgives]
    refine frameIn_of_givesLines ls n (acc ++ [l]) ?_ (by simp; omega) hls
    rw [List.length_append, List.length_singleton, List.append_assoc, List.singleton_append, ← hdrop, hacc]

/-! ### Lines written -/

/-- What the stores of a frame's lines leave of the state: every core, the issuing context and its trap, and what an open line needs; each
stop's log has grown by at most n lines. -/
structure FrameWritten (n : Nat) (s t : State) : Prop where
  cores : t.cores = s.cores
  me    : t.me = s.me
  took  : t.took = s.took
  tlb   : t.mem.tlb = s.mem.tlb
  down  : t.mem.cxlDown = s.mem.cxlDown
  log   : ∀ st, (t.mem.stop st).log.length ≤ (s.mem.stop st).log.length + n

theorem FrameWritten.refl (s : State) : FrameWritten 0 s s := ⟨rfl, rfl, rfl, rfl, rfl, fun _ => Nat.le_refl _⟩

theorem FrameWritten.trans {m n : Nat} (h : FrameWritten m s t) (h' : FrameWritten n t u) : FrameWritten (m + n) s u :=
  ⟨h'.cores.trans h.cores, h'.me.trans h.me, h'.took.trans h.took, h'.tlb.trans h.tlb, h'.down.trans h.down, fun st => by
    have h1 := h.log st
    have h2 := h'.log st
    omega⟩

theorem openLine_congr (htlb : t.mem.tlb = s.mem.tlb) (hdown : t.mem.cxlDown = s.mem.cxlDown) (need : XNeed) :
    t.openLine a need va = s.openLine a need va := by
  unfold State.openLine
  rw [htlb, hdown]

/-- A line that takes a store takes it after n others, where it had room for them. -/
theorem FrameWritten.takesLine {m n : Nat} (h : FrameWritten m s t) (hs : s.takesLine a va (m + n) = true) : t.takesLine a va n = true := by
  unfold State.takesLine at hs ⊢
  rw [openLine_congr h.tlb h.down]
  split at hs
  next pa ho =>
    have hlog := h.log ((physStop pa).getD 0)
    rw [decide_eq_true_eq] at hs ⊢
    omega
  next => cases hs

/-- The log takes at most one record for a line. -/
theorem frameWritten_undoLog (s : State) (pa : Nat) : FrameWritten 1 s (s.undoLog pa) := by
  have hstop : ∀ (st' : Stop) n, st'.log.length ≤ (s.mem.stop n).log.length + 1 → ∀ st,
      (((s.onStop n fun _ => st').mem).stop st).log.length ≤ (s.mem.stop st).log.length + 1 := fun st' n hle st => by
    by_cases hst : st = n
    · subst hst
      rw [show ((s.onStop st fun _ => st').mem).stop st = st' from tgetD_tset_self ..]
      exact hle
    · rw [show ((s.onStop n fun _ => st').mem).stop st = s.mem.stop st from tgetD_tset_ne _ _ _ hst]
      omega
  unfold State.undoLog
  dsimp only
  split
  · exact ⟨rfl, rfl, rfl, rfl, rfl, fun _ => Nat.le_succ _⟩
  · split
    · exact ⟨rfl, rfl, rfl, rfl, rfl, hstop _ _ (by simp)⟩
    · exact ⟨rfl, rfl, rfl, rfl, rfl, hstop _ _ (by simp)⟩

theorem frameWritten_writePhys (s : State) (key : BitVec 16) (pa : Nat) (d : Line) (m : BitVec 64) : FrameWritten 0 s (s.writePhys key pa d m) := by
  unfold State.writePhys
  dsimp only
  split
  · exact ⟨rfl, rfl, rfl, rfl, rfl, fun _ => Nat.le_refl _⟩
  · exact ⟨rfl, rfl, rfl, rfl, rfl, fun _ => Nat.le_refl _⟩

theorem frameWritten_putLine (s : State) (key : BitVec 16) (pa : Nat) (d : Line) (m : BitVec 64) : FrameWritten 1 s (s.putLine key pa d m) := by
  unfold State.putLine
  split
  · exact ⟨rfl, rfl, rfl, rfl, rfl, fun _ => Nat.le_succ _⟩
  · exact (frameWritten_undoLog ..).trans (frameWritten_writePhys ..)

theorem frameWritten_mailWake (s : State) : FrameWritten 0 s s.mailWake := by
  obtain ⟨h, c, e⟩ := mailWake_eq s
  rw [e]
  exact ⟨rfl, rfl, rfl, rfl, rfl, fun _ => Nat.le_refl _⟩

theorem frameStore_of_takesLine {n : Nat} (h : s.takesLine a va n = true) (hn : 0 < n) (key : BitVec 16) (d : Line) :
    ∃ t, s.frameStore a key va d = .done 0 t ∧ FrameWritten 1 s t := by
  unfold State.takesLine at h
  split at h
  next pa ho =>
    rw [decide_eq_true_eq] at h
    obtain ⟨x, hx, hpa, hrepl, -⟩ := gCheck_of_openLine (rd := false) ho (BitVec.ofNat 64 (2 ^ 64 - 1)) rfl
    have hroom : s.logRoom pa = true := by
      unfold State.logRoom
      rw [Bool.or_eq_true, decide_eq_true_eq]
      exact Or.inr (by omega)
    have hheld : s.replHeld x = false := by
      unfold State.replHeld
      rw [hrepl]
      rfl
    refine ⟨(s.putLine key pa d (BitVec.ofNat 64 (2 ^ 64 - 1))).mailWake, ?_, (frameWritten_putLine ..).trans (frameWritten_mailWake _)⟩
    unfold State.frameStore
    simp only [hx, hheld, hpa, hroom, State.writeXl, hrepl, Bool.not_true, Bool.or_self, Bool.false_eq_true, if_false]
  next => cases h

/-- The lines of a frame are stored, where each takes a store and there is room in the logs for all. -/
theorem frameOut_of_takesLines {frame : Word} {key : BitVec 16} : ∀ (l : List (Nat × Line)) (s : State),
    (∀ p ∈ l, s.takesLine a (ptrAdd frame p.1) l.length = true) → ∃ d t, s.frameOut a key frame l = .done d t ∧ FrameWritten l.length s t
  | [], s, _ => ⟨0, s, rfl, FrameWritten.refl s⟩
  | (off, x) :: l, s, h => by
    obtain ⟨t, ht, hwritten⟩ := frameStore_of_takesLine (h (off, x) List.mem_cons_self) (Nat.succ_pos _) key x
    obtain ⟨d, u, hu, hrest⟩ := frameOut_of_takesLines l t fun p hp =>
      hwritten.takesLine (by rw [Nat.add_comm]; exact h p (List.mem_cons_of_mem _ hp))
    refine ⟨d, u, ?_, by rw [List.length_cons, Nat.add_comm]; exact hwritten.trans hrest⟩
    rw [State.frameOut, ht]
    exact hu

end

end Sys2Proof.Machine
end

section
/-! What a save finishes of a thread before it writes its frame (O33, R363, R374). -/
namespace Sys2Proof.Machine
open Sys2Proof.Manual

section
variable {s t u : State} {a : Asker} {va : Word} {core x : Nat}

/-! ### The lines of a frame -/

theorem takesLine_mono {m n : Nat} (h : s.takesLine a va n = true) (hm : m ≤ n) : s.takesLine a va m = true := by
  unfold State.takesLine at h ⊢
  split at h
  next => rw [decide_eq_true_eq] at h ⊢; omega
  next => cases h

theorem mem_chunk {p : Nat × Line} : ∀ (n off : Nat) (l : List Byte), p ∈ frameLines.chunk off l n → ∃ k < n, p.1 = off + 64 * k
  | n + 1, off, l, h => by
    rw [frameLines.chunk, List.mem_cons] at h
    obtain rfl | h := h
    · exact ⟨0, Nat.succ_pos _, rfl⟩
    · obtain ⟨k, hk, he⟩ := mem_chunk n (off + 64) (l.drop 64) h
      exact ⟨k + 1, by omega, by omega⟩

theorem length_chunk : ∀ (n off : Nat) (l : List Byte), (frameLines.chunk off l n).length = n
  | 0, _, _ => rfl
  | n + 1, off, l => congrArg (· + 1) (length_chunk n (off + 64) (l.drop 64))

theorem length_padTo (n : Nat) (l : List Byte) : (padTo n l).length = n := by
  rw [padTo, List.length_take, List.length_append, List.length_replicate]
  omega

theorem length_spillBytes (e : SbEnt) : (spillBytes e).length = 80 := by
  rw [spillBytes, List.length_append, List.length_append, length_toBytes, length_toBytes, length_toBytes]

theorem length_flatten_const {α : Type} {n : Nat} : ∀ l : List (List α), (∀ x ∈ l, x.length = n) → l.flatten.length = n * l.length
  | [], _ => rfl
  | x :: l, h => by
    rw [List.flatten_cons, List.length_append, h x List.mem_cons_self, length_flatten_const l fun y hy => h y (List.mem_cons_of_mem _ hy),
      List.length_cons, Nat.mul_succ, Nat.add_comm]

/-- A frame has at most 2688 lines, one behind the other: two pages, and 80 bytes for each store that the buffer holds. -/
theorem frameLines_bound (core x : Nat) (c : Ctx) (held : BitVec 32) : (frameLines core x c held).length ≤ 2688 ∧
    ∀ p ∈ frameLines core x c held, ∃ k < 2688, p.1 = 64 * k := by
  have hspill : ((c.sb.take 2048).map spillBytes).flatten.length ≤ 80 * 2048 := by
    rw [length_flatten_const _ fun b hb => by
      obtain ⟨e, -, rfl⟩ := List.mem_map.mp hb
      exact length_spillBytes e, List.length_map, List.length_take]
    exact Nat.mul_le_mul_left _ (Nat.min_le_left _ _)
  unfold frameLines
  dsimp only
  generalize hbody : padTo 0x2000 (frameBytes core x c ++ toBytes 4 held.toNat) ++ ((c.sb.take 2048).map spillBytes).flatten = body
  have hlen : (body.length + 63) / 64 ≤ 2688 := by
    rw [← hbody, List.length_append, length_padTo]
    omega
  refine ⟨by rw [length_chunk]; exact hlen, fun p hp => ?_⟩
  obtain ⟨k, hk, he⟩ := mem_chunk _ _ _ hp
  exact ⟨k, by omega, by omega⟩

end

end Sys2Proof.Machine
end

section
/-! What a save finishes of a thread before it writes its frame (O33, R363, R374). -/
namespace Sys2Proof.Machine
open Sys2Proof.Manual

section
variable {s t u : State} {core x : Nat}

/-! ### Results that settle leave the thread's name and place -/

/-- The thread that a context holds, and its PC. -/
def Ctx.sameThread (c d : Ctx) : Prop := d.inc = c.inc ∧ d.pc = c.pc ∧ d.launch = c.launch

theorem sameThread_landHandle (c : Ctx) (tag : Nat) (w : Word) : c.sameThread (c.landHandle tag w) := by
  unfold Ctx.landHandle
  split
  · exact ⟨rfl, rfl, rfl⟩
  · split
    · exact ⟨rfl, rfl, rfl⟩
    · exact ⟨rfl, rfl, rfl⟩

theorem sameThread_pushStream (c : Ctx) (mask : BitVec 64) (v : VReg) : c.sameThread (pushStream c mask v) := by
  unfold pushStream
  split
  · exact ⟨rfl, rfl, rfl⟩
  · split
    · exact ⟨rfl, rfl, rfl⟩
    · exact ⟨rfl, rfl, rfl⟩

theorem sameThread_settle1 (c : Ctx) (p : Pend) : c.sameThread (c.settle1 p) := by
  have hland : c.sameThread { c.landHandle p.tag (word64 p.got 0) with
      regs := ((c.landHandle p.tag (word64 p.got 0)).regs.putDest p.dest p.got).raise p.flags
      pend := (c.landHandle p.tag (word64 p.got 0)).pend.filter fun q => q.tag != p.tag } := sameThread_landHandle ..
  unfold Ctx.settle1
  dsimp only
  split
  next v m _ =>
    obtain ⟨h1, h2, h3⟩ := hland
    obtain ⟨h1', h2', h3'⟩ := sameThread_pushStream { c.landHandle p.tag (word64 p.got 0) with
      regs := ((c.landHandle p.tag (word64 p.got 0)).regs.putDest p.dest p.got).raise p.flags
      pend := (c.landHandle p.tag (word64 p.got 0)).pend.filter fun q => q.tag != p.tag } m v
    exact ⟨h1'.trans h1, h2'.trans h2, h3'.trans h3⟩
  next => exact hland

theorem sameThread_settle (c : Ctx) : c.sameThread c.settle :=
  foldl_keeps (p := c.sameThread) (fun d p ⟨h1, h2, h3⟩ => by
    obtain ⟨h1', h2', h3'⟩ := sameThread_settle1 d p
    exact ⟨h1'.trans h1, h2'.trans h2, h3'.trans h3⟩) _ c ⟨rfl, rfl, rfl⟩

/-! ### Work for a context other than the issuer's -/

/-- The memory and the name of the context's thread are as they were, and the issuing thread but for its long results. -/
structure WorksFor (core x : Nat) (s t : State) : Prop where
  mem : t.mem = s.mem
  issuer : EntersLong s t
  inc : (t.ctx core x).inc = (s.ctx core x).inc

theorem WorksFor.refl (core x : Nat) (s : State) : WorksFor core x s s := ⟨rfl, (Beside.refl s).entersLong, rfl⟩

theorem WorksFor.trans (h : WorksFor core x s t) (h' : WorksFor core x t u) : WorksFor core x s u :=
  ⟨h'.mem.trans h.mem, h.issuer.trans h'.issuer, h'.inc.trans h.inc⟩

theorem Beside.worksFor (h : Beside s t) (core x : Nat) : WorksFor core x s t := ⟨h.mem, h.entersLong, congrArg Ctx.inc (h.threads ..)⟩

theorem worksFor_setCtx {c : Ctx} (hme : (core, x) ≠ s.me) (hc : c.inc = (s.ctx core x).inc) : WorksFor core x s (s.setCtx core x c) := by
  have hcx : (s.setCtx core x c).cx = s.cx := by
    change (s.setCtx core x c).ctx s.me.1 s.me.2 = s.cx
    rw [State.ctx_setCtx, if_neg fun ⟨h1, h2⟩ => hme (by rw [← h1, ← h2])]
    rfl
  exact ⟨rfl, ⟨rfl, rfl, _, _, _, hcx⟩, by rw [State.ctx_setCtx_self, hc]⟩

theorem worksFor_snapEmpty (hme : s.me.1 = core) : WorksFor core x s (s.snapEmpty core) := by
  obtain ⟨kept, hcx⟩ := cx_snapEmpty s
  rw [hme] at hcx
  refine ⟨rfl, ⟨rfl, rfl, _, _, _, hcx⟩, ?_⟩
  have hctx : (s.snapEmpty core).ctx core x = (({ s.core core with snap := [], prefs := [] } : Core).unfill fun _ _ => true).ctx x :=
    congrArg (Core.ctx · x) (s.core_onCore_self core _)
  rw [hctx, ctx_unfill]
  rfl

/-- An answer that lands changes the context in its results, and the core in its snapshot and experience. -/
theorem worksFor_landIn (hme : s.me.1 = core) (c : Ctx) (r : Reply) :
    (s.landIn core c r).1.inc = c.inc ∧ WorksFor core x s (s.landIn core c r).2 := by
  unfold State.landIn
  split
  · exact ⟨rfl, WorksFor.refl ..⟩
  next p _ =>
    extract_lets known p' c' q c'' reported placed
    split
    · exact ⟨by dsimp only; split <;> rfl, WorksFor.refl ..⟩
    · split
      · exact ⟨rfl, WorksFor.refl ..⟩
      · have hr : Beside s reported := beside_ite (Beside.refl s) (beside_xReport ..)
        have hp : Beside s placed := by
          unfold placed
          split
          · exact hr.trans (beside_onCore (by rfl))
          · exact hr
        clear_value placed
        split
        · exact ⟨rfl, (hp.worksFor core x).trans (worksFor_snapEmpty (hp.me ▸ hme))⟩
        · exact ⟨rfl, hp.worksFor core x⟩

theorem worksFor_landAt (hme : s.me.1 = core) (hx : s.me.2 ≠ x) (i : Nat) : WorksFor core x s (s.landAt core x i) := by
  unfold State.landAt
  dsimp only
  split
  · exact WorksFor.refl ..
  next r _ =>
    obtain ⟨hinc, hw⟩ := worksFor_landIn (x := x) hme { s.ctx core x with landing := dropAt (s.ctx core x).landing i } r
    refine hw.trans (worksFor_setCtx ?_ (hinc.trans hw.inc.symm))
    rw [hw.issuer.me]
    exact fun he => hx (congrArg Prod.snd he).symm

theorem worksFor_landAll (hme : s.me.1 = core) (hx : s.me.2 ≠ x) (n : Nat) : WorksFor core x s (s.landAll core x n) := by
  induction n generalizing s with
  | zero => exact WorksFor.refl ..
  | succ n ih =>
    have hw := worksFor_landAt hme hx 0
    exact hw.trans (ih (by rw [hw.issuer.me, hme]) (by rw [hw.issuer.me]; exact hx))

theorem beside_withdraw (s : State) (w : Who) (tag : Nat) : Beside s (s.withdraw w tag) := by
  refine ⟨fun c y => ?_, rfl, rfl, rfl⟩
  change (tgetD (s.cores.map fun p => (p.1, { p.2 with waiters := p.2.waiters.filter fun r => !r.isWait w tag })) c Core.reset).ctx y = _
  rw [tgetD, tget_map_values (fun k : Core => { k with waiters := k.waiters.filter fun r => !r.isWait w tag })]
  change _ = ((tget s.cores c).getD Core.reset).ctx y
  cases tget s.cores c <;> rfl

theorem worksFor_cancelWait (hx : (core, x) ≠ s.me) : WorksFor core x s (s.cancelWait core x) := by
  unfold State.cancelWait
  extract_lets c w ready
  split
  next tag _ _ _ =>
    split
    · have hb := beside_withdraw s w tag
      exact (hb.worksFor core x).trans (worksFor_setCtx (by rw [hb.me]; exact hx) (congrArg Ctx.inc (hb.threads core x)).symm)
    · exact WorksFor.refl ..
  next id _ _ _ =>
    split
    · have hb : Beside s (s.onCore core fun k => { k with claims := k.claims.filter fun q => q.id != id }) := beside_onCore (by rfl)
      exact (hb.worksFor core x).trans (worksFor_setCtx hx (congrArg Ctx.inc (hb.threads core x)).symm)
    · exact WorksFor.refl ..
  next => exact WorksFor.refl ..

end

end Sys2Proof.Machine
end

section
/-! CTXSV: a save of a thread, and the context free behind it (O33, R363, R374). -/
namespace Sys2Proof.Machine
open Sys2Proof.Manual

section
variable {s t u : State} {core x : Nat} {a : Asker} {frame : Word}

/-! ### A volume store that was answered -/

theorem took_endThread (s : State) (word : BitVec 32) (core x : Nat) : (s.endThread core x word).took = s.took := by
  obtain ⟨f, -, hb⟩ := endThread_beside s core x word
  rw [hb.took]
  exact State.took_sendAll ..

theorem took_deliver (s : State) (core x : Nat) (t : Taken) : (s.deliver core x t).took = s.took := by
  unfold State.deliver
  extract_lets u c
  have hu : u.took = s.took := by
    unfold u
    split <;> rfl
  clear_value u
  split
  · rw [took_endThread, hu]
  · exact hu

theorem took_trapInfo (s : State) (cause : BitVec 8) (addr : Word) (info : Nat) : (s.trapInfo cause addr info).took.isSome = true := by
  unfold State.trapInfo
  extract_lets t u
  split
  · rw [took_deliver]
    rfl
  · rfl

/-- Only the issuing thread has changed, and not its name. -/
structure OwnWork (s t : State) : Prop where
  mem    : t.mem = s.mem
  me     : t.me = s.me
  inc    : t.cx.inc = s.cx.inc
  others : ∀ c y, (c, y) ≠ s.me → t.ctx c y = s.ctx c y

theorem OwnWork.refl (s : State) : OwnWork s s := ⟨rfl, rfl, rfl, fun _ _ _ => rfl⟩

theorem OwnWork.trans (h : OwnWork s t) (h' : OwnWork t u) : OwnWork s u :=
  ⟨h'.mem.trans h.mem, h'.me.trans h.me, h'.inc.trans h.inc, fun c y hne => (h'.others c y (h.me ▸ hne)).trans (h.others c y hne)⟩

theorem ownWork_onCx {f : Ctx → Ctx} (hf : (f s.cx).inc = s.cx.inc) : OwnWork s (s.onCx f) :=
  ⟨rfl, rfl, by rw [State.cx_onCx, hf], fun _ _ hne => State.ctx_onCx_ne _ _ hne⟩

/-- A store of global memory traps, or enters the thread's buffer and changes nothing else. -/
theorem storeAt_glob_cases (ea : Word) (n : Nat) (data : Line) (mask : BitVec 64) (bset : Bool) :
    (s.storeAt .g ea n data mask bset).took.isSome = true ∨
      (s.storeAt .g ea n data mask bset).took = s.took ∧ OwnWork s (s.storeAt .g ea n data mask bset) := by
  unfold State.storeAt
  rw [if_neg (by decide)]
  dsimp only
  split
  · exact Or.inr ⟨rfl, ownWork_onCx rfl⟩
  · exact Or.inl (took_trapInfo ..)

theorem payload_of_took (va : Word) (bytes len n : Nat) (h : s.took.isSome = true) : s.payload va bytes len n = s := by
  cases n with
  | zero => rfl
  | succ n => rw [State.payload, h, Bool.or_true, if_pos rfl]

theorem payload_cases (va : Word) (bytes len n : Nat) :
    (s.payload va bytes len n).took.isSome = true ∨ OwnWork s (s.payload va bytes len n) := by
  induction n generalizing s va bytes len with
  | zero => exact Or.inr (OwnWork.refl s)
  | succ n ih =>
    unfold State.payload
    split
    · exact Or.inr (OwnWork.refl s)
    · dsimp only
      obtain htook | ⟨-, hown⟩ := storeAt_glob_cases (s := s) va (min len (64 - fld va 5 0))
        (atByte (fld va 5 0) (bytes % 256 ^ min len (64 - fld va 5 0))) (byteMask (fld va 5 0) (min len (64 - fld va 5 0))) false
      · rw [payload_of_took _ _ _ _ htook]
        exact Or.inl htook
      · exact (ih ..).imp_right hown.trans

theorem cstGot_cases (e : Line) (c : Word) (ch : Int) (data : Line) (n : Nat) (tile : Word) :
    (s.cstGot e c ch data n tile).took.isSome = true ∨ OwnWork s (s.cstGot e c ch data n tile) := by
  unfold State.cstGot
  split
  · exact Or.inl (took_trapInfo ..)
  · exact payload_cases ..

/-- A parked volume store that has been answered is finished, or is to be issued again. -/
theorem worksFor_finishWrite (hx : (core, x) ≠ s.me) : WorksFor core x s (s.finishWrite core x) := by
  unfold State.finishWrite
  extract_lets c again
  split
  next _ _ _ e v ch data n _ r _ _ =>
    extract_lets t done
    have hagain : WorksFor core x s (s.setCtx core x again) := worksFor_setCtx hx rfl
    split
    · exact hagain
    · split
      · exact hagain
      next htook =>
        have hown : OwnWork { s with me := (core, x), took := none } t := (cstGot_cases ..).resolve_left htook
        clear_value t
        have hcx : (t.onCtx core x fun c => { c with run := .ready, pc := c.npc, answer := none, cancelling := false }).ctx s.me.1 s.me.2 = s.cx := by
          rw [State.onCtx, State.ctx_setCtx, if_neg fun ⟨h1, h2⟩ => hx (by rw [← h1, ← h2])]
          exact hown.others s.me.1 s.me.2 fun he => hx he.symm
        have hinc : (t.ctx core x).inc = (s.ctx core x).inc := by
          have := hown.inc
          rw [State.cx, hown.me] at this
          exact this
        have hctx : done.ctx core x = { t.ctx core x with run := .ready, pc := (t.ctx core x).npc, answer := none, cancelling := false } :=
          State.ctx_setCtx_self ..
        exact ⟨hown.mem, ⟨rfl, rfl, _, _, _, hcx⟩, (congrArg Ctx.inc hctx).trans hinc⟩
  next => exact WorksFor.refl ..

/-! ### The save (R374) -/

/-- What a save takes a context to: its landed results in place, its read streams without the strips that wait. -/
def Ctx.settled (c : Ctx) : Ctx := { c.settle with streams := c.streams.map fun p => (p.1, p.2.unload) }

theorem worksFor_settled (hx : (core, x) ≠ s.me) : WorksFor core x s (s.onCtx core x Ctx.settled) :=
  worksFor_setCtx hx (sameThread_settle (s.ctx core x)).1

/-- The state in which a thread's answers have landed and its parked access is withdrawn or finished. -/
def State.finishes (s : State) (core x : Nat) : State :=
  (((s.landAll core x (s.ctx core x).landing.length).cancelWait core x).finishWrite core x).onCtx core x Ctx.settled

theorem worksFor_finishes (hme : s.me.1 = core) (hx : s.me.2 ≠ x) : WorksFor core x s (s.finishes core x) := by
  have hne {t : State} (hw : WorksFor core x s t) : (core, x) ≠ t.me := by
    rw [hw.issuer.me]
    exact fun he => hx (congrArg Prod.snd he).symm
  have hland := worksFor_landAll hme hx (s.ctx core x).landing.length
  have hcancel := hland.trans (worksFor_cancelWait (hne hland))
  have hfinish := hcancel.trans (worksFor_finishWrite (hne hcancel))
  exact hfinish.trans (worksFor_settled (hne hfinish))

/-- The lines that a save writes. -/
def State.savedLines (s : State) (core x : Nat) : List (Nat × Line) := frameLines core x (s.ctx core x) ((s.core core).heldSlots (s.who core x))

/-- What a save does to its core when the frame is written. -/
def Core.leaves (k : Core) (x : Nat) (c : Ctx) (w : Who) (frame : Word) (a : Asker) : Core :=
  { k.vacate x with
    frames := tset (k.vacate x).frames (saveKey x c.inc) c
    saves := if c.expects then (k.vacate x).saves ++ [{ who := w, frame := frame, writer := a }] else (k.vacate x).saves }

theorem saveTo_of_written {d : Line} (hu : s.finishes core x = u)
    (ht : u.frameOut a (u.ctx core x).tenant frame (u.savedLines core x) = .done d t) :
    s.saveTo a core x frame = .done d (t.onCore core fun k => k.leaves x (u.ctx core x) (u.who core x) frame a) := by
  unfold State.finishes at hu
  delta Ctx.settled at hu
  unfold State.saveTo
  dsimp only at hu ⊢
  rw [hu]
  unfold State.savedLines at ht
  rw [ht]
  rfl

/-- A frame that takes every line is written, and the context is free behind it. -/
theorem saveTo_of_takesLines (hme : s.me.1 = core) (hx : s.me.2 ≠ x)
    (hl : ∀ k < 2688, s.takesLine a (ptrAdd frame (64 * k)) 2688 = true) :
    ∃ d t, s.saveTo a core x frame = .done d t ∧ EntersLong s t ∧ (t.ctx core x).run = .free ∧
      (tget (t.core core).frames (saveKey x (s.ctx core x).inc)).isSome = true := by
  have hw := worksFor_finishes hme hx
  obtain ⟨u, hu⟩ : ∃ u, s.finishes core x = u := ⟨_, rfl⟩
  rw [hu] at hw
  obtain ⟨hlen, hoff⟩ : (u.savedLines core x).length ≤ 2688 ∧ ∀ p ∈ u.savedLines core x, ∃ k < 2688, p.1 = 64 * k := frameLines_bound ..
  obtain ⟨d, t, ht, hwritten⟩ := frameOut_of_takesLines (a := a) (frame := frame) (key := (u.ctx core x).tenant) (u.savedLines core x) u
    fun p hp => by
      obtain ⟨k, hk, he⟩ := hoff p hp
      have hopen := hl k hk
      rw [he]
      refine takesLine_mono (n := 2688) ?_ hlen
      unfold State.takesLine State.openLine at hopen ⊢
      rw [hw.mem]
      exact hopen
  have hcx : t.cx = u.cx := by
    rw [State.cx, hwritten.me, State.ctx, State.core, hwritten.cores]
    rfl
  obtain ⟨f, hf⟩ : ∃ f : Core → Core, (fun k : Core => k.leaves x (u.ctx core x) (u.who core x) frame a) = f := ⟨_, rfl⟩
  have hctxs : (f (t.core core)).ctxs = ((t.core core).setCtx x ((t.core core).ctx x).freed).ctxs := by rw [← hf]; rfl
  have hframes : (f (t.core core)).frames = tset (t.core core).frames (saveKey x (u.ctx core x).inc) (u.ctx core x) := by rw [← hf]; rfl
  have hsave : s.saveTo a core x frame = .done d (t.onCore core f) := by rw [← hf]; exact saveTo_of_written hu ht
  have htm : t.me = (core, s.me.2) := by rw [hwritten.me, hw.issuer.me, ← hme]
  have hcx' : (t.onCore core f).cx = t.cx := by
    change ((t.onCore core f).core t.me.1).ctx t.me.2 = (t.core t.me.1).ctx t.me.2
    rw [htm, State.core_onCore_self, Core.ctx, hctxs]
    exact (Core.ctx_setCtx _ _ _ _).trans (if_neg hx)
  refine ⟨d, t.onCore core f, hsave, hw.issuer.trans ⟨hwritten.me, hwritten.took, _, _, _, hcx'.trans hcx⟩, ?_, ?_⟩
  · rw [State.ctx, State.core_onCore_self, Core.ctx, hctxs]
    exact congrArg Ctx.run (Core.ctx_setCtx_self ..)
  · rw [State.core_onCore_self, hframes, hw.inc, tget_tset_self]
    rfl

/-! ### The issuing thread goes on -/

/-- A long result that the core itself forms, and the thread's passing on, change nothing but the issuing context, which passes to its next PC. -/
theorem longValue_pass_eq_onCx (s : State) (p : Pend) (data : Line) (flags : BitVec 6) :
    ∃ f : Ctx → Ctx, (s.longValue p data flags).pass = s.onCx f ∧ (f s.cx).pc = s.cx.npc := by
  unfold State.longValue
  split
  · exact ⟨_, State.onCx_onCx .., rfl⟩
  · unfold State.pass State.answerNow State.addPend
    rw [State.onCx_onCx, State.onCx_onCx]
    exact ⟨_, rfl, rfl⟩

theorem frames_onCx (s : State) (f : Ctx → Ctx) (c : Nat) : ((s.onCx f).core c).frames = (s.core c).frames := by
  obtain ⟨cs, hk⟩ := core_onCx s f c
  rw [hk]

/-! ### The instruction -/

theorem exec_ctxsv {h : Hdr} {b c : GReg} (hc : Clear (.ctxsv h b c) s = true) (hframe : s.cx.regs.getG b = frame)
    (hx' : (s.cx.regs.getG c).toNat % 32 = x) (hbit : frame.getLsbD 57 = false) (hal : frame.toNat % 4096 = 0) (hx : x ≠ s.me.2)
    (hpart : x / 8 < partCtx s.cx.part) (hrun : (s.ctx s.me.1 x).run ≠ .free) (hd : s.isDrained s.me.1 s.me.2 = true)
    (hsaves : s.mine.saves.length + (s.mine.paged.filter fun p => p.2.1.expects).length < 64)
    (hl : ∀ k < 2688, s.takesLine s.asker (ptrAdd frame (64 * k)) 2688 = true) :
    ∃ t, exec (.ctxsv h b c) s = .next t ∧ (t.ctx s.me.1 x).run = .free ∧ t.cx.pc = s.cx.npc ∧
      (tget (t.core s.me.1).frames (saveKey x (s.ctx s.me.1 x).inc)).isSome = true := by
  obtain ⟨d, t, ht, henters, hfree, hkept⟩ := saveTo_of_takesLines (a := s.asker) (frame := frame) (core := s.me.1) (x := x) rfl hx.symm hl
  have hroom : ¬ s.mine.saveCount ≥ Config.saveRecords := Nat.not_le.mpr hsaves
  have hgood : ¬ (decide (x = s.me.2) || !s.ctxExists x) = true := by simpa [State.ctxExists] using ⟨hx, hpart⟩
  let p : Pend := { s.newPend .none with reqs := [s.reqFor .unit (.ctxsv frame x) (s.newPend .none).tag] }
  have hbody : doCtxsv b c s = t.longValue p 0 0 := by
    rw [doCtxsv, rd_of_clear hc, fld_4_0, hframe, hx']
    rw [frameOk_iff.mpr ⟨hbit, hal⟩, if_neg (by decide), if_neg hgood, if_neg hrun, afterDrain_of_isDrained hd, State.ctxsvGo, if_neg hrun,
      if_neg hroom]
    dsimp only
    rw [ht]
  obtain ⟨f, hpass, hpc⟩ := longValue_pass_eq_onCx t p 0 0
  obtain ⟨_, _, _, hcx⟩ := henters.cx
  have hne : (s.me.1, x) ≠ t.me := by
    rw [henters.me]
    exact fun he => hx (congrArg Prod.snd he)
  refine ⟨_, congrArg Host.Outcome.next (issue_entersLong hc hbody (henters.trans (entersLong_longValue t p 0 0))), ?_, ?_, ?_⟩
  · rw [hpass, State.ctx_onCx_ne _ _ hne]
    exact hfree
  · rw [hpass, State.cx_onCx, hpc, hcx]
  · rw [hpass, frames_onCx]
    exact hkept

end

end Sys2Proof.Machine
end

section
/-! CTXLD: a saved thread brought into a free context (O33, R363, R374). -/
namespace Sys2Proof.Machine
open Sys2Proof.Manual

section
variable {s t : State} {core x : Nat} {c : Ctx}

/-! ### The restore of any thread -/

/-- A context whose records are resent keeps all but them. -/
theorem ctx_replayAll_self (s : State) (core x : Nat) : ∃ pend replay,
    (s.replayAll core x).ctx core x = { s.ctx core x with pend := pend, replay := replay } := by
  unfold State.replayAll
  extract_lets k ps u
  rw [(threadsStay_sendReqs ..).threads]
  exact ⟨_, _, State.ctx_setCtx_self ..⟩

theorem ctx_replayAll_ne {y : Nat} (core' : Nat) (h : ¬ (core' = core ∧ y = x)) : (s.replayAll core x).ctx core' y = s.ctx core' y := by
  unfold State.replayAll
  extract_lets k ps u
  rw [(threadsStay_sendReqs ..).threads]
  exact (State.ctx_setCtx ..).trans (if_neg h)

theorem me_replayAll (s : State) (core x : Nat) : (s.replayAll core x).me = s.me := (threadsStay_sendReqs ..).me

theorem took_replayAll (s : State) (core x : Nat) : (s.replayAll core x).took = s.took := (threadsStay_sendReqs ..).took

/-- What a restore leaves: its thread in the context, under the next incarnation, and the issuing thread as it was. -/
structure Restores (s t : State) (core x : Nat) (c : Ctx) : Prop where
  run    : (t.ctx core x).run ≠ .free
  inc    : (t.ctx core x).inc = (s.ctx core x).inc + 1
  pc     : (t.ctx core x).pc = c.pc
  launch : (t.ctx core x).launch = c.launch
  me     : t.me = s.me
  took   : t.took = s.took
  cx     : t.cx = s.cx

theorem restores_restore (old : Nat) (hx : (core, x) ≠ s.me) : Restores s (s.restore core x old c) core x c := by
  unfold State.restore
  extract_lets new named run owned kept placed
  have hrun : run ≠ .free := restored_run_ne_free c.run (named.coreNow core)
  have hnamed : Beside s named := beside_rename ..
  obtain ⟨hinc, hpc, hlaunch⟩ := sameThread_settle c
  have hctx : placed.ctx core x = kept := by
    rw [State.ctx, State.core_onCore_self]
    exact Core.ctx_setCtx_self ..
  have hother : placed.ctx s.me.1 s.me.2 = s.cx := by
    refine Eq.trans ?_ (hnamed.threads s.me.1 s.me.2)
    rw [State.ctx, State.core_onCore]
    split
    next h =>
      refine (Core.ctx_setCtx ..).trans ?_
      rw [if_neg fun hy => hx (by rw [← hy, ← h]), ← h]
      rfl
    next => rfl
  obtain ⟨pend, replay, hreplayed⟩ := ctx_replayAll_self placed core x
  rw [hctx] at hreplayed
  have hme : (placed.replayAll core x).me = s.me := (me_replayAll ..).trans hnamed.me
  refine ⟨?_, ?_, ?_, ?_, hme, (took_replayAll ..).trans hnamed.took, ?_⟩
  · rw [hreplayed]
    exact hrun
  · rw [hreplayed]
  · rw [hreplayed]
    exact hpc
  · rw [hreplayed]
    exact hlaunch
  · rw [State.cx, hme]
    exact (ctx_replayAll_ne _ fun h => hx (by rw [← h.1, ← h.2])).trans hother

/-! ### The frame's words -/

theorem byteIn_lt (ls : List Line) (n : Nat) : byteIn ls n < 256 := by
  unfold byteIn
  split
  · exact BitVec.isLt _
  · exact Nat.zero_lt_succ _

theorem foldl_frame_eq_leNat (ls : List Line) (off : Nat) : ∀ len,
    (upTo len).foldl (fun acc i => acc + byteIn ls (off + i) * 256 ^ i) 0 = leNat (fun i => BitVec.ofNat 8 (byteIn ls (off + i))) len
  | 0 => rfl
  | len + 1 => by
    have hbyte : (BitVec.ofNat 8 (byteIn ls (off + len))).toNat = byteIn ls (off + len) :=
      (BitVec.toNat_ofNat ..).trans (Nat.mod_eq_of_lt (byteIn_lt ..))
    rw [leNat, hbyte, ← foldl_frame_eq_leNat ls off len, upTo, List.foldl_append]
    rfl

/-! ### The instruction -/

/-- The incarnation that a frame names. -/
def frameInc (ls : List Line) : BitVec 16 := BitVec.ofNat 16 (byteIn ls 18 + 256 * byteIn ls 19)

/-- The launch that a frame names. -/
def frameLaunch (ls : List Line) : Nat := byteIn ls 8 + 256 * byteIn ls 9 + 65536 * byteIn ls 10 + 16777216 * byteIn ls 11

/-- The thread that a frame restores, from what its core kept of it. -/
def frameThread (ls : List Line) (c : Ctx) : Ctx := { frameCtx (byteIn ls) c with inc := frameInc ls }

/-- What CTXLD does when the lines of its frame, sound and of a launch that goes on, are read. -/
theorem doCtxld_of_frame {h : Hdr} {a b : GReg} {frame : Word} (hc : Clear (.ctxld h a b) s = true) (hframe : s.cx.regs.getG a = frame)
    (hx' : (s.cx.regs.getG b).toNat % 32 = x) (hbit : frame.getLsbD 57 = false) (hal : frame.toNat % 4096 = 0)
    (hpart : x / 8 < partCtx s.cx.part) (hrun : (s.ctx s.me.1 x).run = .free) (ls : List Line) (hlen : ls.length = 128)
    (hls : ∀ k < 128, ∃ l, ls[k]? = some l ∧ s.givesLine s.asker (ptrAdd frame (64 * k)) l = true)
    (hfits : s.frameFits (byteIn ls) = true)
    (hover : s.launchOver (frameLaunch ls) = false)
    (hsaves : ∀ q ∈ s.mine.saves, ¬(q.who.ctx = byteIn ls 15 ∧ q.who.inc = frameInc ls))
    (hhold : tget s.mine.capHold (x % 8) = none) : ∃ old c g, (∀ k : Core, (g k).ctxs = k.ctxs) ∧
      let t := s.restore s.me.1 x old (frameThread ls c)
      doCtxld a b s = (t.onMine g).longValue (t.newPend .none) 0 0 := by
  have hexists : ¬ (decide ((s.ctx s.me.1 x).run ≠ .free) || !s.ctxExists x) = true := by simpa [State.ctxExists, hrun] using hpart
  have hread (k : List Line → State → Served) : s.frameIn s.asker s.cx.tenant frame k 128 [] = k ls s :=
    frameIn_of_givesLines ls 128 [] rfl (by rw [hlen]; rfl) (by rw [hlen]; exact hls)
  have hrec : ¬ (s.mine.saves.any fun q => q.who == { core := s.me.1, ctx := byteIn ls 15, inc := frameInc ls }) = true := by
    rw [List.any_eq_true]
    rintro ⟨q, hq, he⟩
    have he' := eq_of_beq he
    exact hsaves q hq ⟨congrArg Who.ctx he', congrArg Who.inc he'⟩
  have hcap : ∀ c : Ctx, ¬ (c.cap.isSome && (tget s.mine.capHold (x % 8)).isSome) = true := fun c => by simp [hhold]
  refine ⟨byteIn ls 15, tgetD s.mine.frames (saveKey (byteIn ls 15) (frameInc ls))
      { Ctx.reset with inc := frameInc ls },
    fun k => { k with frames := tdel k.frames (saveKey (byteIn ls 15) (frameInc ls)) }, fun _ => rfl, ?_⟩
  rw [doCtxld, rd_of_clear hc, fld_4_0, hframe, hx', frameOk_iff.mpr ⟨hbit, hal⟩, if_neg (by decide), if_neg hexists, hread]
  unfold frameLaunch at hover
  unfold frameInc at hrec
  dsimp only
  rw [hfits, if_neg (by decide), hover, if_neg (by decide), if_neg hrec, if_neg (hcap _)]
  rfl

theorem four_bytes (a b c d : Nat) : 0 + a * 256 ^ 0 + b * 256 ^ 1 + c * 256 ^ 2 + d * 256 ^ 3 = a + 256 * b + 65536 * c + 16777216 * d := by
  omega

theorem foldl_upTo_four (g : Nat → Nat) : (upTo 4).foldl (fun acc i => acc + g i) 0 = 0 + g 0 + g 1 + g 2 + g 3 := rfl

theorem frameLaunch_eq_leNat (ls : List Line) : frameLaunch ls = leNat (fun i => BitVec.ofNat 8 (byteIn ls (8 + i))) 4 := by
  rw [← foldl_frame_eq_leNat ls 8 4, foldl_upTo_four fun i => byteIn ls (8 + i) * 256 ^ i]
  exact (four_bytes (byteIn ls 8) (byteIn ls 9) (byteIn ls 10) (byteIn ls 11)).symm

theorem frameInc_toNat (ls : List Line) : (frameInc ls).toNat = leNat (fun i => BitVec.ofNat 8 (byteIn ls (18 + i))) 2 := by
  have h0 := byteIn_lt ls 18
  have h1 := byteIn_lt ls 19
  rw [← foldl_frame_eq_leNat ls 18 2, frameInc, BitVec.toNat_ofNat, Nat.mod_eq_of_lt (by omega)]
  simp [upTo]
  omega

theorem byteIn_eq_leNat (ls : List Line) (off : Nat) : byteIn ls off = leNat (fun i => BitVec.ofNat 8 (byteIn ls (off + i))) 1 := by
  rw [← foldl_frame_eq_leNat ls off 1]
  simp [upTo]

theorem frameFits_iff (ls : List Line) : s.frameFits (byteIn ls) = true ↔
    leNat (fun i => BitVec.ofNat 8 (byteIn ls (0 + i))) 4 = 0x46585443 ∧ leNat (fun i => BitVec.ofNat 8 (byteIn ls (4 + i))) 2 = 1 ∧
      leNat (fun i => BitVec.ofNat 8 (byteIn ls (16 + i))) 2 = s.me.1 ∧
      s.mine.part = some (BitVec.ofNat 64 (leNat (fun i => BitVec.ofNat 8 (byteIn ls (48 + i))) 8)) := by
  unfold State.frameFits
  simp only [foldl_frame_eq_leNat, Bool.and_eq_true, beq_iff_eq, and_assoc, eq_comm (b := s.mine.part)]

/-- The PC and the launch of a frame's thread are the frame's words. -/
theorem frameThread_words (ls : List Line) (c : Ctx) :
    (frameThread ls c).pc.toNat = leNat (fun i => BitVec.ofNat 8 (byteIn ls (0x18 + i))) 8 ∧
      (frameThread ls c).launch.toNat = leNat (fun i => BitVec.ofNat 8 (byteIn ls (8 + i))) 4 := by
  have hpc : (frameThread ls c).pc = BitVec.ofNat 64 _ := congrArg (BitVec.ofNat 64) (foldl_frame_eq_leNat ls 0x18 8)
  have hlaunch : (frameThread ls c).launch = BitVec.ofNat 32 _ := congrArg (BitVec.ofNat 32) (foldl_frame_eq_leNat ls 8 4)
  rw [hpc, hlaunch, BitVec.toNat_ofNat, BitVec.toNat_ofNat]
  exact ⟨Nat.mod_eq_of_lt (leNat_lt _ 8), Nat.mod_eq_of_lt (leNat_lt _ 4)⟩

theorem restores_onMine {g : Core → Core} (hg : ∀ k : Core, (g k).ctxs = k.ctxs) (h : Restores s t core x c) : Restores s (t.onMine g) core x c := by
  have hb : Beside t (t.onMine g) := beside_onCore (hg _)
  have hctx := hb.threads core x
  exact ⟨by rw [hctx]; exact h.run, by rw [hctx]; exact h.inc, by rw [hctx]; exact h.pc, by rw [hctx]; exact h.launch,
    hb.me.trans h.me, hb.took.trans h.took, hb.cx.trans h.cx⟩

theorem exec_ctxld {h : Hdr} {a b : GReg} {frame : Word} (hc : Clear (.ctxld h a b) s = true) (hframe : s.cx.regs.getG a = frame)
    (hx' : (s.cx.regs.getG b).toNat % 32 = x) (hbit : frame.getLsbD 57 = false) (hal : frame.toNat % 4096 = 0)
    (hpart : x / 8 < partCtx s.cx.part) (hrun : (s.ctx s.me.1 x).run = .free) (ls : List Line) (hlen : ls.length = 128)
    (hls : ∀ k < 128, ∃ l, ls[k]? = some l ∧ s.givesLine s.asker (ptrAdd frame (64 * k)) l = true)
    (hfits : s.frameFits (byteIn ls) = true) (hover : s.launchOver (frameLaunch ls) = false)
    (hsaves : ∀ q ∈ s.mine.saves, ¬(q.who.ctx = byteIn ls 15 ∧ q.who.inc = frameInc ls)) (hhold : tget s.mine.capHold (x % 8) = none) :
    ∃ t c, exec (.ctxld h a b) s = .next t ∧ (t.ctx s.me.1 x).run ≠ .free ∧ (t.ctx s.me.1 x).inc = (s.ctx s.me.1 x).inc + 1 ∧
      (t.ctx s.me.1 x).pc = (frameThread ls c).pc ∧ (t.ctx s.me.1 x).launch = (frameThread ls c).launch := by
  obtain ⟨hready, -⟩ := clear_facts hc
  have hne : (s.me.1, x) ≠ s.me := fun he => by
    have hx : x = s.me.2 := congrArg Prod.snd he
    rw [hx] at hrun
    exact absurd (hrun.symm.trans hready) (by decide)
  obtain ⟨old, c, g, hg, hbody⟩ := doCtxld_of_frame hc hframe hx' hbit hal hpart hrun ls hlen hls hfits hover hsaves hhold
  obtain ⟨hfree, hinc, hpc, hlaunch, hme, htook, hcx⟩ := restores_onMine hg (restores_restore (c := frameThread ls c) old hne)
  dsimp only at hbody
  generalize (s.restore s.me.1 x old (frameThread ls c)).onMine g = t at hbody hfree hinc hpc hlaunch hme htook hcx
  have henters : EntersLong s t := ⟨hme, htook, _, _, _, hcx⟩
  obtain ⟨f, hpass, -⟩ := longValue_pass_eq_onCx t ((s.restore s.me.1 x old (frameThread ls c)).newPend .none) 0 0
  have hctx : (t.onCx f).ctx s.me.1 x = t.ctx s.me.1 x := State.ctx_onCx_ne _ _ (by rw [hme]; exact hne)
  refine ⟨_, c, congrArg Host.Outcome.next (issue_entersLong hc hbody (henters.trans (entersLong_longValue ..))), ?_⟩
  rw [hpass, hctx]
  exact ⟨hfree, hinc, hpc, hlaunch⟩

end

/-- Settles O33: CTXSV by its save, which writes the whole frame; CTXLD by the frame's words and the restore of its thread. -/
theorem contextSaves : Obligations.ContextSaves := by
  unfold Obligations.ContextSaves
  refine ⟨?save, ?load⟩
  case save =>
    intro h a b s hc frame x hbit hal hx hpart hrun hd hsaves hl
    exact exec_ctxsv hc rfl rfl hbit hal hx hpart hrun hd hsaves hl
  case load =>
    intro h a b s hc frame x hbit hal hpart hrun ls hlen hls n hmagic hversion hcore hp hover hsaves hhold
    have hover' : s.launchOver (frameLaunch ls) = false := by
      rw [frameLaunch_eq_leNat]
      exact hover
    have hsaves' : ∀ q ∈ s.mine.saves, ¬(q.who.ctx = byteIn ls 15 ∧ q.who.inc = frameInc ls) := fun q hq ⟨h1, h2⟩ =>
      hsaves q hq ⟨h1.trans (byteIn_eq_leNat ls 15), (congrArg BitVec.toNat h2).trans (frameInc_toNat ls)⟩
    obtain ⟨t, c, ht, hfree, hinc, hpc, hlaunch⟩ := exec_ctxld hc rfl rfl hbit hal hpart hrun ls hlen hls
      ((frameFits_iff ls).mpr ⟨hmagic, hversion, hcore, hp⟩) hover' hsaves' hhold
    obtain ⟨hpcw, hlaunchw⟩ := frameThread_words ls c
    exact ⟨t, ht, hfree, hinc, by rw [hpc]; exact hpcw, by rw [hlaunch]; exact hlaunchw⟩

end Sys2Proof.Machine
end

section
/-! Cards: accepted, decomposed, run, reported and retired (O48, R294 to R319). -/
namespace Sys2Proof.Machine
open Sys2Proof.Manual

section
variable {s t : State} {lvl unit core : Nat} {r : CardRec} {lane : Option Nat}

/-! ### A card's accesses -/

/-- What a card's accesses come to, where it waits for no page. -/
theorem cardRead_of_ok {bad : State → State} {k : CX → Except CErr State} (own : Asker) (howner : own = r.who.engine (unitAgent lvl unit))
    (hpage : s.pageWait own (cardTag r.id) lane = false) (hk : k { s := s, own := own, a := own, tag := cardTag r.id, lane := lane } = .ok t) :
    s.cardRead lvl unit r lane bad k = t.unhold own (cardTag r.id) lane := by
  subst howner
  unfold State.cardRead
  dsimp only
  rw [hpage, if_neg Bool.false_ne_true, hk]

/-- R294, R302: a level accepts a card when its entries are read, and refuses it then. -/
theorem cardAccept_of_entries {i : Nat} {es : List Line} {x : CX} (hr : (s.unit lvl unit).queue[i]? = some r) (hnew : r.accepted = false)
    (hpar : parityOk r.card = true) (hbefore : (((s.unit lvl unit).queue.take i).all fun q => q.accepted) = true)
    (hrun : s.unitStopped lvl unit = false) (hfence : isFence r.card = false) (hcoll : isCollective r.card = false)
    (hpage : s.pageWait (r.who.engine (unitAgent lvl unit)) (cardTag r.id) none = false)
    (hes : ({ s := s, own := r.who.engine (unitAgent lvl unit), a := r.who.engine (unitAgent lvl unit), tag := cardTag r.id, lane := none } : CX).entries
      r 4 [] = .ok (es, x)) :
    s.cardAccept lvl unit i = (x.s.onCard lvl unit r.id fun q =>
      if x.s.cardReject lvl unit r.who r.card es = 0 then { q with accepted := true, ents := es }
      else ({ q with accepted := true, ents := es } : CardRec).fail (x.s.cardReject lvl unit r.who r.card es) 4 (cardPath q.card)
        (funitOf lvl (x.s.unitNo lvl unit q.card))).unhold (r.who.engine (unitAgent lvl unit)) (cardTag r.id) none := by
  unfold State.cardAccept
  rw [hr]
  dsimp only
  rw [hrun, hnew, hpar, hbefore, if_neg (by decide)]
  refine cardRead_of_ok _ rfl hpage ?_
  rw [hfence, if_neg Bool.false_ne_true]
  simp only [hes, hcoll, Bool.false_and, Bool.false_eq_true, if_false]
  rfl

/-! ### A card's units -/

/-- A unit whose stores wait in the buffer notes what it counts; one that stored nothing counts at once. -/
theorem cardStep_opens {bad : State → State} {k : CX → Except CErr (List Nat × CX)} {fin : List Nat → State → State} {note : List Nat} {x : CX}
    {b : EBuf} (own : Asker) (howner : own = r.who.engine (unitAgent lvl unit)) (hnone : s.ebuf own.agent = none)
    (hpage : s.pageWait own (cardTag r.id) lane = false)
    (hk : k { s := s.setEbuf (EBuf.open' own.agent (cardTag r.id) lane), own := own, a := own, tag := cardTag r.id, lane := lane } = .ok (note, x))
    (hb : x.s.ebuf own.agent = some b) :
    s.cardStep lvl unit r lane bad k fin =
      (if b.ents.isEmpty then fin note (x.s.dropEbuf own.agent) else x.s.setEbuf { b with note := note }).unhold own (cardTag r.id) lane := by
  unfold State.cardStep
  dsimp only
  rw [← howner, hnone]
  refine cardRead_of_ok own howner hpage ?_
  simp only [hk, bind, Except.bind, hb]
  rfl

section
variable {bad : State → State} {k : CX → Except CErr (List Nat × CX)} {fin : List Nat → State → State} {b : EBuf} {own : Asker}
  (howner : own = r.who.engine (unitAgent lvl unit)) (hb : s.ebuf own.agent = some b) (htag : b.tag = cardTag r.id) (hlane : b.lane = lane)
include howner hb htag hlane

/-- One store of a card's buffer is made at its home. -/
theorem cardStep_drains {e : EEnt} {rest : List EEnt} {l : Line} {u : State} (hpage : s.pageWait own (cardTag r.id) lane = false)
    (hents : b.ents = e :: rest) (hst : s.eStore e.who e.pl e.data e.mask = .done l u) :
    s.cardStep lvl unit r lane bad k fin = (u.setEbuf { b with ents := rest }).unhold own (cardTag r.id) lane := by
  unfold State.cardStep
  dsimp only
  rw [← howner, hb]
  simp only [htag, hlane, decide_true, Bool.and_self, if_true, hents]
  refine cardRead_of_ok own howner hpage ?_
  simp only [hst, CX.take, bind, Except.bind]
  rfl

/-- A card whose unit's stores have all been acknowledged counts the unit. -/
theorem cardStep_counts (hents : b.ents = []) (hfwds : s.mem.fwds = []) :
    s.cardStep lvl unit r lane bad k fin = fin b.note (s.dropEbuf own.agent) := by
  unfold State.cardStep
  dsimp only
  rw [← howner, hb]
  simp only [htag, hlane, decide_true, Bool.and_self, if_true, hents, hfwds, List.isEmpty_nil]

end

/-- What a unit of a card's product does, and the note of what it counts. -/
def CX.unitWork (lane : Option Nat) (r : CardRec) (x : CX) : Except CErr (List Nat × CX) := do
  let (n, sat, nan, x) ← x.step lane r r.at'
  return ([n, bitNat sat, bitNat nan], x)

/-- A card after a unit of its product: what it counts, and its place. -/
def CardRec.unitDone (note : List Nat) (r : CardRec) : CardRec :=
  match note with
  | [n, sat, nan] => r.counted n (sat == 1) (nan == 1) (r.at' + 1) (decide (r.at' + 1 ≥ cardUnits r.card))
  | _ => r

theorem unitStep_of_product (h : cardOp r.card ≠ 0x0A) : s.unitStep lvl unit lane r =
    s.cardStep lvl unit r lane (fun s => s.poisonUnit (r.who.engine (unitAgent lvl unit)) r r.at') (CX.unitWork lane r)
      fun note s => s.onCard lvl unit r.id (CardRec.unitDone note) :=
  if_neg h

theorem bitNat_beq_one (b : Bool) : (bitNat b == 1) = b := by
  cases b <;> rfl

theorem unitDone_note (n : Nat) (sat nan : Bool) : CardRec.unitDone [n, bitNat sat, bitNat nan] = fun q : CardRec => { q with
    prog := q.prog + n, satf := q.satf || sat, nanf := q.nanf || nan, at' := q.at' + 1
    ran := q.ran || decide (q.at' + 1 ≥ cardUnits q.card) } := by
  funext q
  rw [CardRec.unitDone, bitNat_beq_one, bitNat_beq_one]
  rfl

theorem unitWork_of_step {x y : CX} {n : Nat} {sat nan : Bool} (h : x.step lane r r.at' = .ok (n, sat, nan, y)) :
    x.unitWork lane r = .ok ([n, bitNat sat, bitNat nan], y) := by
  rw [CX.unitWork, h]
  rfl

/-- What stands at the head of a core's queue and may run. -/
theorem cardRun_of_head {rest : List CardRec} (hq : (s.unit 1 core).queue = r :: rest) (hacc : r.accepted = true) (hran : r.ran = false)
    (hfence : isFence r.card = false) (hon : s.engineOn core = true) : s.cardRun core =
    if (cardSL r.card || r.slots.isSome) = true then s.unitStep 1 core (some core) r
    else match (s.core core).seqClaim r.id with
      | none => s.setCore core { s.core core with
          nextClaim := (s.core core).nextClaim + 1
          claims := (s.core core).claims ++ [{ id := (s.core core).nextClaim, who := none, n := 4, card := r.id, granted := none }] }
      | some cl =>
        match cl.granted with
        | none => s
        | some m => (s.setCore core { s.core core with claims := (s.core core).claims.filter fun c => c.id != cl.id }).onCard 1 core r.id
            fun r => { r with slots := some m } := by
  unfold State.cardRun
  rw [hq]
  dsimp only
  rw [hacc, hran, hfence, hon, if_neg (by decide)] <;> rfl

/-! ### The queues -/

@[simp] theorem queue_onCard (s : State) (lvl unit id : Nat) (f : CardRec → CardRec) :
    ((s.onCard lvl unit id f).unit lvl unit).queue = (s.unit lvl unit).queue.map fun r => if r.id = id then f r else r := by
  rw [State.onCard, unit_onUnit_self]

/-- The card of a name is found again under it, changed. -/
theorem find?_map_card {f : CardRec → CardRec} (hf : (f r).id = r.id) : ∀ {q : List CardRec}, q.find? (fun x => x.id == r.id) = some r →
    (q.map fun x => if x.id = r.id then f x else x).find? (fun x => x.id == r.id) = some (f r)
  | [], h => nomatch h
  | x :: q, h => by
    rw [List.find?_cons] at h
    rw [List.map_cons, List.find?_cons]
    by_cases hx : x.id = r.id
    · rw [hx, beq_self_eq_true] at h
      cases h
      simp only [if_true, hf, beq_self_eq_true]
    · have hne : (x.id == r.id) = false := by simpa using hx
      rw [hne] at h
      simp only [if_neg hx, hne]
      exact find?_map_card hf h

/-! ### Claims of slots -/

theorem foldl_tset_slots (v d : SlotHold) : ∀ (l : List Nat) (t : Tab SlotHold) (j : Nat),
    tgetD (l.foldl (fun t i => tset t i v) t) j d = if j ∈ l then v else tgetD t j d
  | [], t, j => rfl
  | i :: l, t, j => by
    rw [List.foldl_cons, foldl_tset_slots v d l, tgetD_tset]
    by_cases hj : j ∈ l
    · rw [if_pos hj, if_pos (List.mem_cons_of_mem _ hj)]
    · rw [if_neg hj]
      exact if_congr (by simp [hj]) rfl rfl

/-- The core after the sequencer has granted a claim its slots (R324). -/
def Core.grantsClaim (k : Core) (cl : Claim) : Core :=
  { k with
    slots := (k.freeSlots cl.n).foldl (fun t i => tset t i { by' := cl.who.elim .seqr Holder.ctx, pending := false }) k.slots
    claims := k.claims.map fun c => if c.id = cl.id then
      { c with granted := some ((k.freeSlots cl.n).foldl (fun m i => m ||| (1#32 <<< i)) 0) } else c }

theorem claimGrant_of_room {cl : Claim} (hstop : (s.core core).stopped = false)
    (hcl : (s.core core).claims.find? (fun c => c.granted.isNone) = some cl) (hroom : cl.n ≤ ((s.core core).freeSlots cl.n).length) :
    s.claimGrant core = s.setCore core ((s.core core).grantsClaim cl) := by
  have hfind : (if (s.core core).stopped = true then none else (s.core core).claims.find? fun c => c.granted.isNone) = some cl := by
    rw [hstop]
    exact hcl
  unfold State.claimGrant
  dsimp only
  rw [hfind]
  dsimp only
  rw [if_neg (Nat.not_lt.mpr hroom)]
  unfold Core.grantsClaim
  cases cl.who with
  | none => rfl
  | some w => rfl

/-- Slots that are freed one by one, where none but pending ones are, stay free. -/
theorem slot_free_of_cardSlots (s : State) (core : Nat) (r : CardRec) : ∀ j ∈ r.slotList, (((s.cardSlots core r).core core).slot j).by' = .free := by
  intro j hj
  unfold State.cardSlots
  extract_lets u
  refine foldl_keeps (p := fun t : State => ((t.core core).slot j).by' = .free) (fun t i (ht : ((t.core core).slot j).by' = .free) => ?_) _ u ?_
  · split
    · rw [State.core_onCore_self]
      change SlotHold.by' (tgetD (tset _ i _) j _) = _
      rw [tgetD_tset]
      split
      · rfl
      · exact ht
    · exact ht
  · unfold u
    rw [State.core_onCore_self]
    change SlotHold.by' (tgetD (r.slotList.foldl _ _) j _) = _
    rw [foldl_tset_slots, if_pos hj]

theorem cardSlots_keeps (s : State) (core : Nat) (r : CardRec) :
    (s.cardSlots core r).units = s.units ∧ (s.cardSlots core r).mem = s.mem ∧ (s.cardSlots core r).chan = s.chan := by
  unfold State.cardSlots
  extract_lets u
  refine foldl_keeps (p := fun t : State => t.units = s.units ∧ t.mem = s.mem ∧ t.chan = s.chan) (fun t i ht => ?_) _ u ⟨rfl, rfl, rfl⟩
  split
  · exact ht
  · exact ht

/-! ### Reports of children -/

/-- A card that has heard of a child's progress. -/
def CardRec.heardOf (r : CardRec) (prog : Nat) (satf nanf : Bool) : CardRec :=
  { r with prog := r.prog + prog, satf := r.satf || satf, nanf := r.nanf || nanf }

theorem hear_of_child {child code sev path funit prog at' : Nat} {satf nanf : Bool} {c : Child}
    (hc : r.children.find? (fun c => c.no == child) = some c) :
    r.hear lvl child code sev path funit prog satf nanf at' =
      if (code = 13 && c.tries = 0 && r.code = 0 && funit = funitOf (lvl - 1) c.unit) = true then
        { r.heardOf prog satf nanf with
          issued := false
          children := r.children.map fun d => if d.no = child then { d with sent := false, tries := 1, resume := at' } else d }
      else { r.heardOf prog satf nanf with
        children := r.children.map fun d => if d.no = child then { d with done := true } else d
        code := if code ≠ 0 ∧ r.code = 0 then code else r.code, sev := if code ≠ 0 ∧ r.code = 0 then sev else r.sev
        path := if code ≠ 0 ∧ r.code = 0 then path else r.path, funit := if code ≠ 0 ∧ r.code = 0 then funit else r.funit } := by
  unfold CardRec.hear
  dsimp only
  rw [hc]
  dsimp only
  refine if_congr Iff.rfl rfl ?_
  by_cases hfail : code ≠ 0 ∧ r.code = 0
  · rw [if_pos (by simpa using hfail)]
    simp only [if_pos hfail]
    rfl
  · rw [if_neg (by simpa using hfail)]
    simp only [if_neg hfail]
    rfl

theorem id_hear (r : CardRec) (lvl child code sev path funit prog : Nat) (satf nanf : Bool) (at' : Nat) :
    (r.hear lvl child code sev path funit prog satf nanf at').id = r.id := by
  cases hc : r.children.find? fun c => c.no == child with
  | none =>
    have hsame : r.hear lvl child code sev path funit prog satf nanf at' = r.heardOf prog satf nanf := by
      unfold CardRec.hear
      dsimp only
      rw [hc]
      rfl
    rw [hsame]
    rfl
  | some c =>
    rw [hear_of_child hc]
    split
    · rfl
    · rfl

/-! ### Retirement -/

/-- A card that is done, above the cores and no collective: it leaves its queue and reports, to its parent or its mailbox. -/
theorem cardRetire_of_done (hlvl : lvl ≠ 1) (hrun : s.unitStopped lvl unit = false) (hr : firstDone lvl (s.unit lvl unit).queue = some r)
    (hcoll : isCollective r.card = false) : s.cardRetire lvl unit =
    match r.parent with
    | some (l, u, c, no) =>
      (s.onUnit lvl unit fun q => { q with queue := q.queue.filter fun x => x.id != r.id }).send (.report l u c no r.code r.sev r.path
        (if r.code = 0 then funitOf lvl (s.unitNo lvl unit r.card) else r.funit) r.prog r.satf r.nanf r.at')
    | none => (s.onUnit lvl unit fun q => { q with queue := q.queue.filter fun x => x.id != r.id }).mailbox
        (r.who.engine (unitAgent lvl unit)) (cardMbox r.card)
        (mailWord r.sev r.code r.path (if r.code = 0 then funitOf lvl (s.unitNo lvl unit r.card) else r.funit) r.prog r.satf r.nanf) s.nowW := by
  have hfind : (if s.unitStopped lvl unit = true then none else firstDone lvl (s.unit lvl unit).queue) = some r := by
    rw [hrun]
    exact hr
  unfold State.cardRetire
  rw [hfind]
  dsimp only
  rw [if_neg hlvl, hcoll, if_neg Bool.false_ne_true]
  rfl

/-- A core's card with neither a parent nor a mailbox is over when it is done: its slots are free. -/
theorem cardRetire_of_over (hrun : s.unitStopped 1 core = false) (hr : firstDone 1 (s.unit 1 core).queue = some r) (hparent : r.parent = none)
    (hmbox : cardMbox r.card = 0) (hcoll : isCollective r.card = false) :
    s.cardRetire 1 core = (s.onUnit 1 core fun q => { q with queue := q.queue.filter fun x => x.id != r.id }).cardSlots core r := by
  have hfind : (if s.unitStopped 1 core = true then none else firstDone 1 (s.unit 1 core).queue) = some r := by
    rw [hrun]
    exact hr
  unfold State.cardRetire
  rw [hfind]
  dsimp only
  rw [if_pos rfl, hcoll, if_neg Bool.false_ne_true, hparent, State.mailbox, if_pos hmbox]

/-- A status word that its mailbox takes leaves memory as the store does. -/
theorem mem_mailbox_of_done {a : Asker} {va w0 w1 : Word} {d : Line} {u : State} (hva : va ≠ 0)
    (hst : s.gStore a (lineVa va) (atByte (fld va 5 0) w0.toNat ||| atByte (fld va 5 0 + 8) w1.toNat) (byteMask (fld va 5 0) 16) false = .done d u) :
    (s.mailbox a va w0 w1).mem = u.mem := by
  unfold State.mailbox
  rw [if_neg hva]
  dsimp only
  rw [hst]
  obtain ⟨h, c, e⟩ := mailWake_eq u
  dsimp only
  rw [e]

/-! ### The issue of children -/

theorem unit_onUnit_ne {lvl' n : Nat} (f : LUnit → LUnit) (h : unitKey lvl' n ≠ unitKey lvl unit) :
    (s.onUnit lvl unit f).unit lvl' n = s.unit lvl' n :=
  tgetD_tset_ne _ _ _ h

theorem card_newCard (id : Nat) (card : Line) (who : Asker) (origin : Nat) (parent : Option (Nat × Nat × Nat × Nat)) (part : Bool)
    (pairs : Option Nat) (at' : Nat) : (newCard id card who origin parent part pairs at').card = card := rfl

/-- What a card issues next: a child that waits is pushed below, where its queue has room. -/
theorem issueChild_of_room {c : Child} (hcode : r.code = 0) (hc : r.children.find? (fun c => !c.sent) = some c)
    (hroom : (s.unit (lvl - 1) c.unit).queue.length < queueCap (lvl - 1)) : ∃ f : CardRec → CardRec, s.issueChild lvl unit r =
    ((s.onUnit (lvl - 1) c.unit fun q => { q with
      queue := q.queue ++ [newCard (s.unit (lvl - 1) c.unit).next (sealCard c.card (s.unit lvl unit).sent) r.who r.origin
        (some (lvl, unit, r.id, c.no)) c.part c.pairs c.resume], next := q.next + 1 }).onUnit lvl unit fun q => { q with sent := q.sent + 1 }).onCard
      lvl unit r.id f := by
  unfold State.issueChild
  rw [hcode, if_neg (by decide), hc]
  unfold State.pushCard
  dsimp only
  rw [if_neg (Nat.not_le.mpr hroom)]
  exact ⟨_, rfl⟩

end

/-- Settles O48, clause by clause: a level's acceptance and its queues; a core's unit by its buffer; the children by their issue and their reports. -/
theorem cardSteps : Obligations.CardSteps := by
  unfold Obligations.CardSteps
  refine ⟨⟨?accept, ?refetch, ?claims, ?run, ?decompose, ?grant, ?report⟩, ?retire, ?root, ?mail, ?none⟩
  case accept =>
    intro lvl unit i r es x s hr hnew hpar hbefore hrun hfence hcoll own hpage hes code
    exact congrArg Host.Outcome.next (cardAccept_of_entries hr hnew hpar hbefore hrun hfence hcoll hpage hes)
  case refetch =>
    intro lvl unit r s hr
    change Host.Outcome.next (s.cardRefetch (lvlNo lvl) unit) = _
    unfold State.cardRefetch
    rw [hr]
  case claims =>
    intro core r rest s hcore hq hacc hran hfence hon hsl hslots
    have hrun := cardRun_of_head hq hacc hran hfence hon
    rw [hsl, hslots, if_neg (by decide)] at hrun
    have hexec : exec (.cardRun core) s = .next (s.cardRun core) := congrArg Host.Outcome.next (if_pos hcore)
    rw [hexec, hrun]
    refine ⟨fun hclaim => ?_, fun cl m hclaim hgranted => ?_⟩
    · rw [hclaim]
      exact ⟨_, rfl, congrArg Core.claims (State.core_setCore_self ..), rfl⟩
    · rw [hclaim]
      simp only [hgranted]
      refine ⟨_, { r with slots := some m }, rest.map fun x => if x.id = r.id then { x with slots := some m } else x, rfl, ?_, rfl, ?_⟩
      · rw [queue_onCard]
        change List.map _ (s.unit 1 core).queue = _
        rw [hq, List.map_cons, if_pos rfl]
      · change ∀ c ∈ ((s.setCore core _).core core).claims, _
        rw [State.core_setCore_self]
        intro c hc
        simpa using (List.mem_filter.mp hc).2
  case run =>
    intro core r rest s hcore hq hacc hran hfence hon hsl hop own tag hpage
    have hrun := cardRun_of_head hq hacc hran hfence hon
    rw [if_pos hsl, unitStep_of_product hop] at hrun
    have hexec : exec (.cardRun core) s = .next (s.cardRun core) := congrArg Host.Outcome.next (if_pos hcore)
    rw [hexec, hrun]
    refine ⟨?_, ?_, ?_, ?_⟩
    · intro n sat nan x b hnone hstep hb hents
      rw [cardStep_opens own rfl hnone hpage (unitWork_of_step hstep) hb, if_neg (by simpa using hents)]
    · intro n sat nan x b hnone hstep hb hents
      rw [cardStep_opens own rfl hnone hpage (unitWork_of_step hstep) hb, hents, if_pos List.isEmpty_nil, unitDone_note]
    · intro b e rest l u hb htag hlane hents hst
      rw [cardStep_drains (own := own) rfl hb htag hlane hpage hents hst]
    · intro b n sat nan hb htag hlane hents hfwds hnote
      rw [cardStep_counts (own := own) rfl hb htag hlane hents hfwds, hnote, unitDone_note]
  case decompose =>
    intro lvl unit r s hlvl hpkg hon hheard hr hacc hfence hcoll
    have hexec : exec (.cardDecompose lvl unit) s = .next (s.decompose (lvlNo lvl) unit) := by
      change Host.Outcome.next (if !(decide (lvlNo lvl ≥ 2) && s.unitOn (lvlNo lvl) unit) then s
        else if lvlNo lvl = 4 && decide (unit > 0) then s.peerRun unit else s.decompose (lvlNo lvl) unit) = _
      rw [hon]
      cases lvl with
      | L1 => exact absurd rfl hlvl
      | L4 => rw [hpkg rfl]; rfl
      | L2 => rfl
      | L3 => rfl
      | L5 => rfl
    have hnext : s.decompose (lvlNo lvl) unit =
        if (r.splits && r.code = 0 && r.children.all fun c => c.sent) = true then s.gmsSplit (lvlNo lvl) unit r
        else if (r.children.isEmpty && cardOp r.card != 0x0A) = true then s.onCard (lvlNo lvl) unit r.id fun q => { q with
          children := s.childrenFor (lvlNo lvl) unit r, issued := (s.childrenFor (lvlNo lvl) unit r).isEmpty }
        else s.issueChild (lvlNo lvl) unit r := by
      unfold State.decompose
      dsimp only
      rw [hheard, hr]
      dsimp only
      rw [hacc, hfence, hcoll, if_neg (by decide)]
    rw [hexec, hnext]
    refine ⟨fun hnone hop => ?_, fun c hcode hc hunit hroom => ?_⟩
    · have hsplit : r.splits = false := by simp [CardRec.splits, hop]
      rw [hsplit, Bool.false_and, Bool.false_and, if_neg Bool.false_ne_true, hnone, if_pos (by simpa using hop)]
    · have hwaits := List.find?_some hc
      have hmem := List.mem_of_find?_eq_some hc
      have hall : (r.children.all fun c => c.sent) = false := by
        rw [List.all_eq_false]
        exact ⟨c, hmem, by simpa using hwaits⟩
      have hsome : r.children.isEmpty = false := by
        rw [List.isEmpty_eq_false_iff]
        exact List.ne_nil_of_mem hmem
      rw [hall, Bool.and_false, if_neg Bool.false_ne_true, hsome, Bool.false_and, if_neg Bool.false_ne_true]
      obtain ⟨f, hf⟩ := issueChild_of_room hcode hc hroom
      have hkey : unitKey (lvlNo lvl - 1) c.unit ≠ unitKey (lvlNo lvl) unit := by
        have : 0 < lvlNo lvl := by cases lvl <;> decide
        unfold unitKey
        omega
      refine ⟨_, newCard (s.unit (lvlNo lvl - 1) c.unit).next (sealCard c.card (s.unit (lvlNo lvl) unit).sent) r.who r.origin
        (some (lvlNo lvl, unit, r.id, c.no)) c.part c.pairs c.resume, congrArg Host.Outcome.next hf, ?_, card_newCard .., rfl, rfl, rfl, rfl⟩
      rw [State.onCard, unit_onUnit_ne _ hkey, unit_onUnit_ne _ hkey, unit_onUnit_self]
  case grant =>
    intro core cl s hstop hcl hroom
    refine ⟨_, congrArg Host.Outcome.next (claimGrant_of_room hstop hcl hroom), rfl, ?_, ?_, ?_, ?_⟩
    · exact (threadsStay_setCore (by rfl)).threads
    · intro j hj
      rw [State.core_setCore_self, Core.slot, Core.grantsClaim, foldl_tset_slots, if_pos hj]
      exact ⟨rfl, rfl⟩
    · intro j hj
      rw [State.core_setCore_self, Core.slot, Core.grantsClaim, foldl_tset_slots, if_neg hj]
      rfl
    · rw [State.core_setCore_self]
      exact ⟨_, List.mem_map_of_mem (List.mem_of_find?_eq_some hcl), by rw [if_pos rfl], by rw [if_pos rfl]⟩
  case report =>
    intro i lvl unit card child code sev path funit prog sat nan at' r c s hmsg hrun hr hc
    obtain ⟨⟨born, body⟩, hm, hbody⟩ := hmsg
    have hid : r.id = card := by simpa using List.find?_some hr
    subst hid
    have hexec : exec (.childReport i) s = .next ((s.unsend i).onCard lvl unit r.id
        fun r => r.hear lvl child code sev path funit prog sat nan at') := by
      change execChildReport i s = _
      dsimp only at hbody
      subst hbody
      unfold execChildReport
      rw [hm]
      dsimp only
      rw [hrun, if_neg Bool.false_ne_true]
    refine ⟨_, r.hear lvl child code sev path funit prog sat nan at', hexec, rfl, ?_, ?_, ?_⟩
    · rw [queue_onCard]
      exact find?_map_card (id_hear ..) hr
    · intro hother
      rw [hear_of_child hc, if_neg (by simp only [Bool.and_eq_true, decide_eq_true_eq]; tauto)]
      rfl
    · intro hcode htries hok hunit
      rw [hear_of_child hc, if_pos (by simp [hcode, htries, hok, hunit])]
      rfl
  case retire =>
    intro lvl unit r l u c no s hlvl hrun hr hparent hcoll
    have hno : lvlNo lvl ≠ 1 := by cases lvl <;> simp_all [lvlNo]
    refine congrArg Host.Outcome.next ((cardRetire_of_done hno hrun hr hcoll).trans ?_)
    rw [hparent]
  case root =>
    intro core r s hrun hr hparent hmbox hcoll
    obtain ⟨hunits, hmem, hchan⟩ := cardSlots_keeps (s.onUnit 1 core fun q => { q with queue := q.queue.filter fun x => x.id != r.id }) core r
    refine ⟨_, congrArg Host.Outcome.next (cardRetire_of_over hrun hr hparent hmbox hcoll), ?_, hmem, hchan, slot_free_of_cardSlots _ core r⟩
    rw [State.unit, hunits]
    exact congrArg LUnit.queue (unit_onUnit_self ..)
  case mail =>
    intro lvl unit r d u s hlvl hrun hr hparent hmbox hcoll off funit w hst
    have hno : lvlNo lvl ≠ 1 := by cases lvl <;> simp_all [lvlNo]
    refine ⟨_, congrArg Host.Outcome.next (cardRetire_of_done hno hrun hr hcoll), ?_⟩
    rw [hparent]
    exact mem_mailbox_of_done hmbox hst
  case none =>
    intro lvl unit s h
    change Host.Outcome.next (s.cardRetire (lvlNo lvl) unit) = _
    unfold State.cardRetire
    rw [h, ite_self]

end Sys2Proof.Machine
end

section
/-! Breakpoints, stops, the debugger's commands, ticks and the clock (O50, R396 to R411). -/
namespace Sys2Proof.Machine
open Sys2Proof.Manual

section
variable {s t u : State} {core x : Nat}

/-! ### Trace records -/

/-- A trace record changes neither a core nor a stop. -/
structure Traced (s t : State) : Prop where
  cores : t.cores = s.cores
  dbg   : ∃ rings, t.dbg = { s.dbg with rings := rings }
  cycle : t.cycle = s.cycle

theorem Traced.refl (s : State) : Traced s s := ⟨rfl, ⟨_, rfl⟩, rfl⟩

theorem Traced.trans (h : Traced s t) (h' : Traced t u) : Traced s u := by
  obtain ⟨r, hr⟩ := h.dbg
  obtain ⟨r', hr'⟩ := h'.dbg
  exact ⟨h'.cores.trans h.cores, ⟨r', by rw [hr', hr]⟩, h'.cycle.trans h.cycle⟩

theorem Traced.core_eq (h : Traced s t) (c : Nat) : t.core c = s.core c := by
  rw [State.core, State.core, h.cores]

theorem Traced.ctx (h : Traced s t) (c y : Nat) : t.ctx c y = s.ctx c y := by
  rw [State.ctx, State.ctx, h.core_eq]

theorem Traced.stops (h : Traced s t) : t.dbg.stops = s.dbg.stops := by
  obtain ⟨_, hr⟩ := h.dbg
  rw [hr]

theorem traced_ringWrite (s : State) (key : Nat) (l : List Byte) : Traced s (s.ringWrite key l) := by
  unfold State.ringWrite
  dsimp only
  split
  · exact ⟨rfl, ⟨_, rfl⟩, rfl⟩
  · exact ⟨rfl, ⟨_, rfl⟩, rfl⟩

theorem traced_traceCtx (s : State) (c x typ tag : Nat) (data : Word) : Traced s (s.traceCtx c x typ tag data) := traced_ringWrite ..

/-! ### Halts (R404) -/

/-- What a halt makes of its context. -/
def Ctx.halts (c : Ctx) (edge : Bool) : Ctx := { c with
  halted := true, edge := edge, edgeWait := none, stepping := false
  skidReg := if c.skidReg.isNone then some (c.skid, edge) else c.skidReg }

theorem haltCtx_of_running (h : (s.ctx core x).halted = false) (edge : Bool) :
    Traced (s.setCtx core x ((s.ctx core x).halts edge)) (s.haltCtx core x edge) := by
  unfold State.haltCtx
  dsimp only
  rw [h, if_neg Bool.false_ne_true]
  exact traced_traceCtx ..

theorem ctx_haltCtx_self (h : (s.ctx core x).halted = false) (edge : Bool) : (s.haltCtx core x edge).ctx core x = (s.ctx core x).halts edge := by
  rw [(haltCtx_of_running h edge).ctx]
  exact State.ctx_setCtx_self ..

/-- Work on one core that leaves its engines held, the other cores and the stops as they are. -/
structure WorksOn (core : Nat) (s t : State) : Prop where
  held   : (t.core core).held = (s.core core).held
  others : ∀ c, c ≠ core → t.core c = s.core c
  stops  : t.dbg.stops = s.dbg.stops

theorem WorksOn.refl (core : Nat) (s : State) : WorksOn core s s := ⟨rfl, fun _ _ => rfl, rfl⟩

theorem WorksOn.trans (h : WorksOn core s t) (h' : WorksOn core t u) : WorksOn core s u :=
  ⟨h'.held.trans h.held, fun c hc => (h'.others c hc).trans (h.others c hc), h'.stops.trans h.stops⟩

theorem worksOn_setCtx (s : State) (core x : Nat) (c : Ctx) : WorksOn core s (s.setCtx core x c) :=
  ⟨by rw [State.setCtx, State.core_onCore_self]; rfl, fun d hd => (State.core_onCore ..).trans (if_neg hd), rfl⟩

theorem worksOn_haltCtx (s : State) (core x : Nat) (edge : Bool) : WorksOn core s (s.haltCtx core x edge) := by
  cases h : (s.ctx core x).halted with
  | true =>
    unfold State.haltCtx
    dsimp only
    rw [h, if_pos rfl]
    exact WorksOn.refl core s
  | false =>
    have ht := haltCtx_of_running h edge
    exact (worksOn_setCtx ..).trans ⟨by rw [ht.core_eq], fun c _ => ht.core_eq c, ht.stops⟩

/-- A stop that reaches a core holds its engines; its contexts halt, or are to halt at their next edge (R404, R406). -/
theorem reach_facts (s : State) (core : Nat) (edge : Bool) :
    ((s.reach core edge).core core).held = true ∧ (∀ c, c ≠ core → (s.reach core edge).core c = s.core c) ∧
      (s.reach core edge).dbg.stops = s.dbg.stops := by
  unfold State.reach
  extract_lets u
  have hu : (u.core core).held = true := congrArg Core.held (State.core_onCore_self ..)
  have hothers : ∀ c, c ≠ core → u.core c = s.core c := fun c hc => (State.core_onCore ..).trans (if_neg hc)
  have hwork := foldl_keeps (p := WorksOn core u) (f := fun t x =>
    if edge then t.onCtx core x fun c => if c.halted || c.edgeWait.isSome then c else { c with edgeWait := some 0 }
    else t.haltCtx core x false) (fun t x ht => ht.trans (by
      split
      · exact worksOn_setCtx ..
      · exact worksOn_haltCtx ..)) (u.core core).occupied u (WorksOn.refl core u)
  exact ⟨hwork.held.trans hu, fun c hc => (hwork.others c hc).trans (hothers c hc), hwork.stops⟩

theorem reach_of_empty (edge : Bool) (h : (s.core core).occupied = []) :
    s.reach core edge = s.onCore core fun k => { k with held := true } := by
  unfold State.reach
  extract_lets u
  have hocc : (u.core core).occupied = [] := by
    unfold u
    rw [State.core_onCore_self]
    exact h
  rw [hocc]
  rfl

theorem reach_of_single (edge : Bool) (h : (s.core core).occupied = [x]) : s.reach core edge =
    if edge then (s.onCore core fun k => { k with held := true }).onCtx core x fun c =>
      if c.halted || c.edgeWait.isSome then c else { c with edgeWait := some 0 }
    else (s.onCore core fun k => { k with held := true }).haltCtx core x false := by
  unfold State.reach
  extract_lets u
  have hocc : (u.core core).occupied = [x] := by
    unfold u
    rw [State.core_onCore_self]
    exact h
  rw [hocc]
  rfl

theorem ctx_holds (s : State) (core x : Nat) : (s.onCore core fun k => { k with held := true }).ctx core x = s.ctx core x := by
  rw [State.ctx, State.core_onCore_self]
  rfl

/-- The stop that has reached a core. -/
def DStop.reaches (d : DStop) (core : Nat) (halts : List Who) : DStop := { d with reached := core :: d.reached, halts := d.halts ++ halts }

theorem stopArrive_of_stop {n : Nat} {d : DStop} (hn : s.stopFor core = some n) (hd : s.dbg.stops[n]? = some d) :
    s.stopArrive core = (s.onStopN n fun d => d.reaches core (s.unhalted core)).reach core d.edge := by
  unfold State.stopArrive
  rw [hn]
  dsimp only
  rw [hd]
  rfl

theorem stops_onStopN {n : Nat} {d : DStop} (f : DStop → DStop) (hd : s.dbg.stops[n]? = some d) : (s.onStopN n f).dbg.stops[n]? = some (f d) := by
  change (s.dbg.stops.mapIdx fun j d => if j = n then f d else d)[n]? = _
  rw [List.getElem?_mapIdx, hd, Option.map_some, if_pos rfl]

/-! ### Breakpoints (R401) -/

theorem pairAt_onCtx (s : State) (core x : Nat) (f : Ctx → Ctx) (pc : Word) : (s.onCtx core x f).pairAt core pc = s.pairAt core pc := by
  unfold State.pairAt
  rw [State.onCtx, State.setCtx, State.core_onCore_self]
  rfl

theorem onCx_onCtx_standing (s : State) (core x : Nat) (f g : Ctx → Ctx) :
    ({ s.onCtx core x f with me := (core, x), took := none } : State).onCx g = s.stands core x fun c => g (f c) :=
  State.onCx_onCx { s with me := (core, x), took := none } f g

theorem stands_congr {f g : Ctx → Ctx} (h : f (s.ctx core x) = g (s.ctx core x)) : s.stands core x f = s.stands core x g :=
  congrArg (fun c => ({ s with me := (core, x), took := none } : State).setCtx core x c) h

/-- Without a debugger a breakpoint is a trap of its thread, which stands at the instruction. -/
theorem breakpoint_of_detached {n : Nat} {pc : Word} (hbp : s.bpAt core x = some (n, pc)) (hd : (s.core core).dctl.getLsbD 0 = false) :
    s.breakpoint core x = (s.stands core x fun c => { c with
      bpPass := (n, pc) :: c.bpPass, stepping := false, half := 0
      pairOf := if s.pairAt core c.pc then (if pc = c.pc then 1 else 2) else 0 }).trapInfo BREAK pc 0 := by
  have hctx : (s.onCtx core x fun c => { c with bpPass := (n, pc) :: c.bpPass, stepping := false }).ctx core x =
      { s.ctx core x with bpPass := (n, pc) :: (s.ctx core x).bpPass, stepping := false } := State.ctx_setCtx_self ..
  unfold State.breakpoint
  rw [hbp]
  dsimp only
  rw [hd, if_neg Bool.false_ne_true, hctx, pairAt_onCtx]
  rw [onCx_onCtx_standing]
  refine congrArg (fun u : State => u.trapInfo BREAK pc 0) (stands_congr ?_)
  cases s.pairAt core (s.ctx core x).pc with
  | true => rfl
  | false => rfl

/-! ### Resumes (R407) -/

/-- Only the record of what left the package has grown. -/
def State.tells (s t : State) : Prop := ∃ out, t = { s with out := out }

theorem State.tells.tell (h : s.tells t) (o : Out) : s.tells (t.tell o) := by
  obtain ⟨out, rfl⟩ := h
  exact ⟨_, rfl⟩

theorem flushPorts_eq (s : State) : ({ s with boot := { s.boot with portBuf := [] } } : State).tells s.flushPorts :=
  foldl_keeps (fun _ p ht => foldl_keeps (fun _ f hu => hu.tell (.frame p.1 f)) p.2 _ ht) s.boot.portBuf _ ⟨_, rfl⟩

/-- A resume of a core that every stop covers ends the stops, and lets go of the cores that they cover. -/
theorem resumeStop_of_covered (h : ∀ d ∈ s.dbg.stops, d.covers core = true) : ∃ out, s.resumeStop core = { s with
    cores := s.cores.map fun p => if (decide (p.1 = core) || s.dbg.stops.any fun d => d.covers p.1) = true then (p.1, p.2.unhalt) else p
    dbg := { s.dbg with stops := [], stepEngines := none, pkgHalt := false }
    boot := { s.boot with portBuf := [] }, out := out } := by
  have hall : s.dbg.stops.filter (fun d => d.covers core) = s.dbg.stops := List.filter_eq_self.mpr h
  have hnone : s.dbg.stops.filter (fun d => !d.covers core) = [] := List.filter_eq_nil_iff.mpr fun d hd => by simp [h d hd]
  obtain ⟨out, hout⟩ := flushPorts_eq { s with
    cores := s.cores.map fun p => if (decide (p.1 = core) || s.dbg.stops.any fun d => d.covers p.1) = true then (p.1, p.2.unhalt) else p
    dbg := { s.dbg with stops := [], stepEngines := none, pkgHalt := false } }
  refine ⟨out, Eq.trans ?_ hout⟩
  unfold State.resumeStop
  simp only [hall, hnone, List.any_nil, Bool.not_false, Bool.and_true, Bool.false_eq_true, if_false]

theorem core_unhalted {l : Tab Core} {p : Nat → Prop} [DecidablePred p] {c : Nat} {k : Core} (hk : tget l c = some k) (hp : p c) :
    tgetD (l.map fun q => if p q.1 then (q.1, q.2.unhalt) else q) c Core.reset = k.unhalt := by
  have hmap : (l.map fun q => if p q.1 then (q.1, q.2.unhalt) else q) = l.map fun q => (q.1, if p q.1 then q.2.unhalt else q.2) :=
    List.map_congr_left fun q _ => by split <;> rfl
  rw [hmap, tgetD, tget_map_keyed (f := fun c (k : Core) => if p c then k.unhalt else k), hk, Option.map_some, if_pos hp]
  rfl

theorem ctx_unhalt (k : Core) (x : Nat) : (k.unhalt.ctx x).halted = false := by
  change (tgetD (k.ctxs.map fun p => (p.1, { p.2 with
    halted := false, edge := false, edgeWait := none, stepping := false, skid := 0, skidReg := none })) x Ctx.reset).halted = false
  rw [tgetD, tget_map_values fun c : Ctx => { c with halted := false, edge := false, edgeWait := none, stepping := false, skid := 0, skidReg := none }]
  cases tget k.ctxs x with
  | none => rfl
  | some c => rfl

/-! ### Steps (R408) -/

theorem step1_of_halted {c : Ctx} (hh : c.halted = true) (hr : c.run = .ready) : c.step1 = { c with stepping := true } := by
  unfold Ctx.step1
  rw [hh, hr]
  rfl

theorem stepEng_facts (s : State) (core : Nat) (eng : Bool) : (s.stepEng core eng).cores = s.cores ∧ (s.stepEng core eng).mem = s.mem ∧
    (eng = false → (s.stepEng core eng).dbg = s.dbg) ∧
    (eng = true → ∃ e, (s.stepEng core eng).dbg = { s.dbg with stepEngines := some e } ∧ e.core = core ∧ e.limit = s.cycle + 2 ^ 20) := by
  cases eng with
  | false => exact ⟨rfl, rfl, fun _ => rfl, nofun⟩
  | true => exact ⟨rfl, rfl, nofun, fun _ => ⟨_, rfl, rfl, rfl⟩⟩

theorem ctx_of_cores (h : t.cores = s.cores) (c y : Nat) : t.ctx c y = s.ctx c y := by
  rw [State.ctx, State.ctx, State.core, State.core, h]

/-- A context of a core in which a step of a group is taken. -/
def groupStep (launch handle : BitVec 32) (members : List Who) (stops : List DStop) (core x : Nat) (c : Ctx) : Ctx :=
  if (c.launch = launch && (handle = 0 || members.contains { core := core, ctx := x, inc := c.inc }) && stops.any fun d => d.has core x c) = true
  then c.step1 else c

theorem groupStep_reset (launch handle : BitVec 32) (members : List Who) (stops : List DStop) (core x : Nat) :
    groupStep launch handle members stops core x Ctx.reset = Ctx.reset :=
  ite_self _

theorem ctx_groupStep (launch handle : BitVec 32) (members : List Who) (stops : List DStop) (core : Nat) (k : Core) (x : Nat) :
    ({ k with ctxs := k.ctxs.map fun q => (q.1, groupStep launch handle members stops core q.1 q.2) } : Core).ctx x =
      groupStep launch handle members stops core x (k.ctx x) := by
  change (tget (k.ctxs.map fun q => (q.1, groupStep launch handle members stops core q.1 q.2)) x).getD Ctx.reset = _
  rw [tget_map_keyed (groupStep launch handle members stops core), Core.ctx, tgetD]
  cases tget k.ctxs x with
  | none => exact (groupStep_reset ..).symm
  | some c => rfl

/-- A step of a group steps each context that its members, its launch and a stop of the core's name. -/
theorem ctx_stepGroup (s : State) (core : Nat) (handle : BitVec 32) (c x : Nat) : (s.stepGroup core handle).ctx c x =
    groupStep (s.ctx core 0).launch handle (((s.group (s.ctx core 0).launch handle).map fun g => g.members).getD [])
      (s.dbg.stops.filter fun d => d.covers core) c x (s.ctx c x) := by
  have hcore : (s.stepGroup core handle).core c = { s.core c with ctxs := (s.core c).ctxs.map fun q =>
      (q.1, groupStep (s.ctx core 0).launch handle (((s.group (s.ctx core 0).launch handle).map fun g => g.members).getD [])
        (s.dbg.stops.filter fun d => d.covers core) c q.1 q.2) } := by
    change (tget (s.cores.map fun p => (p.1, { p.2 with ctxs := p.2.ctxs.map fun q => (q.1, groupStep (s.ctx core 0).launch handle
      (((s.group (s.ctx core 0).launch handle).map fun g => g.members).getD []) (s.dbg.stops.filter fun d => d.covers core) p.1 q.1 q.2) })) c).getD
        Core.reset = _
    rw [tget_map_keyed (f := fun (core' : Nat) (k : Core) => { k with ctxs := k.ctxs.map fun q => (q.1, groupStep (s.ctx core 0).launch handle
      (((s.group (s.ctx core 0).launch handle).map fun g => g.members).getD []) (s.dbg.stops.filter fun d => d.covers core) core' q.1 q.2) }),
      State.core, tgetD]
    cases tget s.cores c with
    | none => rfl
    | some k => rfl
  rw [State.ctx, hcore, ctx_groupStep, ← State.ctx]

/-- A group's step, by the conditions on its context. -/
theorem groupStep_eq (launch handle : BitVec 32) (members : List Who) (stops : List DStop) (p : DStop → Bool) (core x : Nat) (c : Ctx) :
    groupStep launch handle members (stops.filter p) core x c =
      if c.launch = launch ∧ (handle = 0 ∨ { core := core, ctx := x, inc := c.inc } ∈ members) ∧
          (stops.any fun d => p d && d.has core x c) = true ∧ c.halted = true ∧ c.run = .ready
      then { c with stepping := true } else c := by
  unfold groupStep Ctx.step1
  rw [List.any_filter]
  simp only [Bool.and_eq_true, decide_eq_true_eq, Bool.or_eq_true, List.contains_iff_mem]
  by_cases hsel : (c.launch = launch ∧ (handle = 0 ∨ { core := core, ctx := x, inc := c.inc } ∈ members)) ∧ (stops.any fun d => p d && d.has core x c) = true
  · obtain ⟨⟨hl, hm⟩, hs⟩ := hsel
    rw [if_pos ⟨⟨hl, hm⟩, hs⟩]
    exact if_congr (by simp only [hl, hm, hs, true_and]) rfl rfl
  · rw [if_neg hsel, if_neg]
    rintro ⟨hl, hm, hs, -⟩
    exact hsel ⟨⟨hl, hm⟩, hs⟩

/-! ### Ticks (R411) -/

/-- What a tick's records leave: every core, and the tick that has been counted. -/
structure Recorded (s t : State) : Prop where
  cores : t.cores = s.cores
  tick  : t.dbg.tick = s.dbg.tick
  cyc   : t.dbg.tickCyc = s.dbg.tickCyc

theorem Recorded.refl (s : State) : Recorded s s := ⟨rfl, rfl, rfl⟩

theorem Recorded.trans (h : Recorded s t) (h' : Recorded t u) : Recorded s u :=
  ⟨h'.cores.trans h.cores, h'.tick.trans h.tick, h'.cyc.trans h.cyc⟩

theorem recorded_seriesWrite (s : State) (die : Nat) (l : List Byte) : Recorded s (s.seriesWrite die l) := by
  unfold State.seriesWrite
  dsimp only
  split
  · exact ⟨rfl, rfl, rfl⟩
  · exact ⟨rfl, rfl, rfl⟩

theorem recorded_coreSeries (s : State) (core n time : Nat) : Recorded s (s.coreSeries core n time) :=
  foldl_keeps (p := Recorded s) (fun _ _ h => h.trans (recorded_seriesWrite ..)) _ s (Recorded.refl s)

theorem recorded_unitSeries (s : State) (cls idx die n time : Nat) : Recorded s (s.unitSeries cls idx die n time) :=
  Recorded.trans (t := { s with fresh := s.fresh + 2 }) ⟨rfl, rfl, rfl⟩ (recorded_seriesWrite ..)

theorem recorded_foldl {f : State → Nat → State} (hf : ∀ t i, Recorded t (f t i)) (l : List Nat) (s : State) : Recorded s (l.foldl f s) :=
  foldl_keeps (p := Recorded s) (fun t i h => h.trans (hf t i)) l s (Recorded.refl s)

theorem recorded_allSeries (s : State) (n time : Nat) : Recorded s (s.allSeries n time) := by
  unfold State.allSeries
  dsimp only
  refine Recorded.trans ?_ (recorded_unitSeries ..)
  refine Recorded.trans ?_ (recorded_unitSeries ..)
  refine Recorded.trans ?_ (recorded_foldl (fun t i => recorded_unitSeries t 4 i (dieOf i) n time) _ _)
  refine Recorded.trans ?_ (recorded_foldl (fun t i => recorded_unitSeries t 3 i (i / 4) n time) _ _)
  refine Recorded.trans ?_ (recorded_foldl (fun t i => recorded_unitSeries t 2 i i n time) _ _)
  refine Recorded.trans ?_ (recorded_foldl (fun t i => recorded_unitSeries t 1 i (i / 32) n time) _ _)
  exact recorded_foldl (fun t c => recorded_coreSeries t c n time) _ _

/-- The first seven counters of a core are latched. -/
def Core.latched (k : Core) : Prop := ∀ n < 7, tgetD k.cntLat n 0 = tgetD k.cnt n 0

/-- What latching a list of cores leaves: threads and counters, the other cores and the tick; the latches of the list's cores are filled. -/
structure Latches (l : List Nat) (s t : State) : Prop where
  threads : s.threadsKept t
  cnt     : ∀ c, (t.core c).cnt = (s.core c).cnt
  others  : ∀ c, c ∉ l → t.core c = s.core c
  latched : ∀ c ∈ l, (t.core c).latched
  tick    : t.dbg.tick = s.dbg.tick
  cyc     : t.dbg.tickCyc = s.dbg.tickCyc

/-- A core that latches its counters; those of other units are free values (R412). -/
def Core.latches (k : Core) (f : Nat) : Core := { k with cntLat := (upTo 5).foldl (fun t i => tset t (7 + i) (Config.freeWord (f + i))) k.cnt }

theorem latched_latches (k : Core) (f : Nat) : (k.latches f).latched := by
  intro n hn
  change tgetD ((upTo 5).foldl (fun t i => tset t (7 + i) (Config.freeWord (f + i))) k.cnt) n 0 = tgetD k.cnt n 0
  exact foldl_keeps (p := fun t : Tab Word => tgetD t n 0 = tgetD k.cnt n 0)
    (fun t i h => (tgetD_tset_ne t (Config.freeWord (f + i)) 0 (show n ≠ 7 + i by omega)).trans h) (upTo 5) k.cnt rfl

def State.latchesCore (s : State) (core : Nat) : State := { s.onCore core (fun k => k.latches s.fresh) with fresh := s.fresh + 5 }

theorem latchCore_eq (s : State) (core : Nat) : s.latchCore core =
    if !((s.latchesCore core).core core).dctl.getLsbD 3 then s.latchesCore core
    else ((s.latchesCore core).core core).occupied.foldl (fun s x => s.traceCtx core x 7 (x % 8) (s.ctx core x).pc) (s.latchesCore core) := rfl

theorem core_latchesCore_self (s : State) (core : Nat) : (s.latchesCore core).core core = (s.core core).latches s.fresh :=
  State.core_onCore_self s core fun k => k.latches s.fresh

theorem core_latchesCore_ne {c : Nat} (s : State) (hc : c ≠ core) : (s.latchesCore core).core c = s.core c :=
  (State.core_onCore s core c fun k => k.latches s.fresh).trans (if_neg hc)

theorem latches_latchCore (s : State) (core : Nat) : Latches [core] s (s.latchCore core) := by
  rw [latchCore_eq]
  generalize hv' : s.latchesCore core = v
  have hv : Latches [core] s v := by
    rw [← hv']
    refine ⟨(threadsStay_setCore (s := s) (core := core) (k := (s.core core).latches s.fresh) rfl).threads, fun c => ?_,
      fun c hc => core_latchesCore_ne s (by simpa using hc), fun c hc => ?_, rfl, rfl⟩
    · by_cases hc : c = core
      · rw [hc, core_latchesCore_self]
        rfl
      · rw [core_latchesCore_ne s hc]
    · rw [List.mem_singleton.mp hc, core_latchesCore_self]
      exact latched_latches _ _
  have htraced (t : State) (ht : Traced v t) : Latches [core] s t := by
    have hk := ht.core_eq
    obtain ⟨rings, hr⟩ := ht.dbg
    exact ⟨fun c y => (ht.ctx c y).trans (hv.threads c y), fun c => by rw [hk]; exact hv.cnt c, fun c hc => by rw [hk]; exact hv.others c hc,
      fun c hc => by rw [hk]; exact hv.latched c hc, by rw [hr]; exact hv.tick, by rw [hr]; exact hv.cyc⟩
  split
  · exact hv
  · exact htraced _ (foldl_keeps (p := Traced v) (fun t x h => h.trans (traced_traceCtx ..)) _ v (Traced.refl v))

theorem latches_foldl : ∀ (l : List Nat) (s : State), Latches l s (l.foldl State.latchCore s)
  | [], s => ⟨fun _ _ => rfl, fun _ => rfl, fun _ _ => rfl, nofun, rfl, rfl⟩
  | core :: l, s => by
    have hfirst := latches_latchCore s core
    have hrest := latches_foldl l (s.latchCore core)
    refine ⟨fun c y => (hrest.threads c y).trans (hfirst.threads c y), fun c => (hrest.cnt c).trans (hfirst.cnt c), fun c hc => ?_, fun c hc => ?_,
      hrest.tick.trans hfirst.tick, hrest.cyc.trans hfirst.cyc⟩
    · exact (hrest.others c fun h => hc (List.mem_cons_of_mem _ h)).trans (hfirst.others c fun h => hc (List.mem_singleton.mp h ▸ List.mem_cons_self))
    · by_cases hl : c ∈ l
      · exact hrest.latched c hl
      · rw [List.foldl_cons, hrest.others c hl]
        exact hfirst.latched c (List.mem_singleton.mpr ((List.mem_cons.mp hc).resolve_right hl))

end

/-- Settles O50: breakpoints by their trap or their halt, stops by what reaches a core, and each command by what it changes. -/
theorem debugSteps : Obligations.DebugSteps := by
  unfold Obligations.DebugSteps
  refine ⟨?trapped, ?attached, ?arrive, ?edge, ?halt, ?late, ?haltCtx, ?stop, ?resume, ?stepCtx, ?stepGroup, ?limit, ?tick, ?ptp, ?rate, ?clock,
    ?keepalive⟩
  case trapped =>
    intro core x n pc s hbp hd hh hv
    have hctx := State.cx_onCx { s with me := (core, x), took := none } fun c => { c with
      bpPass := (n, pc) :: c.bpPass, stepping := false, half := 0
      pairOf := if s.pairAt core c.pc then (if pc = c.pc then 1 else 2) else 0 }
    have hexec : s.breakpoint core x = (s.stands core x fun c => { c with
        bpPass := (n, pc) :: c.bpPass, stepping := false, half := 0
        pairOf := if s.pairAt core c.pc then (if pc = c.pc then 1 else 2) else 0 }).trapInfo BREAK pc 0 :=
      breakpoint_of_detached hbp hd
    refine ⟨_, congrArg Host.Outcome.next hexec, (trapInfo_facts ?_ ?_ ?_ BREAK pc 0).1⟩
    · exact congrArg Ctx.half hctx
    · exact (congrArg Ctx.hnd hctx).trans hh
    · exact fun h0 => hv ((congrArg (fun c : Ctx => c.regs.trapvec) hctx).symm.trans h0)
  case attached =>
    intro core x n pc s hbp hd
    change Host.Outcome.next (s.breakpoint core x) = _
    unfold State.breakpoint
    rw [hbp]
    dsimp only
    rw [hd, if_pos rfl]
  case arrive =>
    intro core n d s hn hd
    refine ⟨_, congrArg Host.Outcome.next (stopArrive_of_stop hn hd), ?_⟩
    obtain ⟨hheld, hothers, hstops⟩ := reach_facts (s.onStopN n fun d => d.reaches core (s.unhalted core)) core d.edge
    refine ⟨hheld, fun hocc => ?_, ?_, hothers⟩
    · rw [reach_of_empty (s := s.onStopN n _) _ hocc]
      rfl
    · rw [hstops, stops_onStopN _ hd]
      rfl
  case edge =>
    intro core n d s hn hd hedge x hocc hrun hwait
    refine ⟨_, congrArg Host.Outcome.next (stopArrive_of_stop hn hd), ?_, (reach_facts ..).1⟩
    rw [reach_of_single (s := s.onStopN n _) _ hocc, hedge, if_pos rfl]
    refine (State.ctx_setCtx_self ..).trans ?_
    rw [ctx_holds]
    change (if (s.ctx core x).halted || (s.ctx core x).edgeWait.isSome then _ else _) = _
    rw [hrun, hwait, if_neg (by decide)]
    rfl
  case halt =>
    intro core n d s hn hd hedge x hocc hrun
    refine ⟨_, congrArg Host.Outcome.next (stopArrive_of_stop hn hd), ?_⟩
    have hctx : ((s.onStopN n fun d => d.reaches core (s.unhalted core)).onCore core fun k => { k with held := true }).ctx core x = s.ctx core x :=
      ctx_holds ..
    rw [reach_of_single (s := s.onStopN n _) _ hocc, hedge, if_neg (by decide), ctx_haltCtx_self (by rw [hctx]; exact hrun), hctx]
    exact ⟨rfl, rfl, rfl⟩
  case late =>
    intro core x n s hd he hn
    refine congrArg Host.Outcome.next (if_pos ?_)
    unfold State.edgeLate
    rw [he]
    simpa using ⟨hd, hn⟩
  case haltCtx =>
    intro core x s h
    rw [ctx_haltCtx_self h]
    exact ⟨rfl, rfl, rfl⟩
  case stop =>
    intro core scope edge s
    refine ⟨fun h => ?_, fun h => ?_⟩
    · rw [h]
      rfl
    · have hpkg : decide (scope.toNat = 3) = decide (scope = 3) := decide_eq_decide.mpr ⟨fun h3 => BitVec.eq_of_toNat_eq h3, fun h3 => by rw [h3]; rfl⟩
      rw [← hpkg]
      exact congrArg Host.Outcome.next (if_neg fun h0 => h (BitVec.eq_of_toNat_eq h0))
  case resume =>
    intro core s h
    obtain ⟨out, hout⟩ := resumeStop_of_covered h
    refine ⟨_, congrArg Host.Outcome.next hout, rfl, rfl, rfl, rfl, rfl, fun c k hk hc => ?_⟩
    have hcore := core_unhalted (p := fun c => (decide (c = core) || s.dbg.stops.any fun d => d.covers c) = true) hk (by simpa using hc)
    refine ⟨(congrArg Core.held hcore).trans rfl, fun x => ?_⟩
    exact (congrArg (fun k : Core => (k.ctx x).halted) hcore).trans (ctx_unhalt k x)
  case stepCtx =>
    intro core x eng s hhalt hrun
    obtain ⟨hcores, -, hsame, hnew⟩ := stepEng_facts (s.onCtx core x Ctx.step1) core eng
    refine ⟨_, rfl, ?_, fun c y hne => ?_, hsame, hnew⟩
    · rw [ctx_of_cores hcores]
      exact (State.ctx_setCtx_self ..).trans (step1_of_halted hhalt hrun)
    · rw [ctx_of_cores hcores]
      exact (State.ctx_setCtx ..).trans (if_neg fun h => hne (by rw [h.1, h.2]))
  case stepGroup =>
    intro core handle eng s members
    obtain ⟨hcores, hmem, -, -⟩ := stepEng_facts (s.stepGroup core handle) core eng
    refine ⟨_, rfl, hmem, fun c x => ?_⟩
    rw [ctx_of_cores hcores, ctx_stepGroup]
    exact groupStep_eq ..
  case limit =>
    intro core e s he hcore hlim
    change Host.Outcome.next (s.engLimit core) = _
    unfold State.engLimit
    rw [he]
    dsimp only
    rw [if_pos (by simp [hcore, hlim])]
  case tick =>
    intro s hdue
    obtain ⟨u, hu⟩ : ∃ u : State, { s with dbg := { s.dbg with tick := s.dbg.tick + 1, tickCyc := s.cycle } } = u := ⟨_, rfl⟩
    have hlatch := latches_foldl (s.cores.map fun p => p.1) u
    obtain ⟨time, hexec⟩ : ∃ time, s.tickLatch = ((s.cores.map fun p => p.1).foldl State.latchCore u).allSeries (s.dbg.tick + 1) time := by
      unfold State.tickLatch State.tickDue
      rw [decide_eq_true hdue, if_neg (by decide), ← hu]
      exact ⟨_, rfl⟩
    obtain ⟨hcores, htick, hcyc⟩ := recorded_allSeries ((s.cores.map fun p => p.1).foldl State.latchCore u) (s.dbg.tick + 1) time
    have hctx := ctx_of_cores hcores
    refine ⟨_, congrArg Host.Outcome.next hexec, ?_, ?_, fun c y => ?_, fun core k n hk hn => ?_⟩
    · rw [htick, hlatch.tick, ← hu]
    · rw [hcyc, hlatch.cyc, ← hu]
    · rw [hctx, hlatch.threads, ← hu]
      rfl
    · have hcore : (((s.cores.map fun p => p.1).foldl State.latchCore u).allSeries (s.dbg.tick + 1) time).core core =
          ((s.cores.map fun p => p.1).foldl State.latchCore u).core core := by
        rw [State.core, State.core, hcores]
      have hk' : u.core core = k := by
        rw [← hu]
        exact congrArg (fun o : Option Core => o.getD Core.reset) hk
      rw [hcore, hlatch.latched core (List.mem_map_of_mem (mem_of_tget hk)) n hn, hlatch.cnt, hk']
  case ptp =>
    intro port s h
    exact congrArg Host.Outcome.next (if_pos h)
  case rate =>
    intro adj s
    refine ⟨_, rfl, rfl, fun ⟨h1, h2⟩ => ?_⟩
    change max (-maxRate) (min maxRate adj.toInt) = _
    rw [maxRate] at *
    omega
  case clock =>
    intro ns s
    exact ⟨_, rfl, Nat.add_mul_div_right _ _ (by decide), rfl, rfl⟩
  case keepalive =>
    intro port s
    rfl

end Sys2Proof.Machine
end

section
/-! Machine checks, pairs and containment (O51, R425 to R435). -/
namespace Sys2Proof.Machine
open Sys2Proof.Manual

section
variable {s t u : State} {core x : Nat}

/-! ### A record of a machine check (R425) -/

/-- A machine check's record goes out; of all else only memory, the check ring and the counts of faults may change. -/
structure Checked (m : MCheck) (s t : State) : Prop where
  cores     : t.cores = s.cores
  out       : t.out = s.out ++ [.machineCheck m s.now]
  moved     : t.rel.moved = s.rel.moved
  contained : t.rel.contained = s.rel.contained

theorem checked_mcheck (s : State) (m : MCheck) (inc : BitVec 16) : Checked m s (s.mcheck m inc) := by
  unfold State.mcheck
  dsimp only
  split
  · exact ⟨rfl, rfl, rfl, rfl⟩
  · split
    · exact ⟨rfl, rfl, rfl, rfl⟩
    · exact ⟨rfl, rfl, rfl, rfl⟩

theorem Checked.core_eq {m : MCheck} (h : Checked m s t) (c : Nat) : t.core c = s.core c := by
  rw [State.core, State.core, h.cores]

theorem Checked.ctx_eq {m : MCheck} (h : Checked m s t) (c y : Nat) : t.ctx c y = s.ctx c y := by
  rw [State.ctx, State.ctx, h.core_eq]

/-- A lasting fault of a pool adds a word to the core's list of bad ones. -/
theorem lasting_of_pool {m : MCheck} (h : m.kind = 2) : s.lasting m =
    (s.mcheck m (s.ctx m.core m.ctx).inc).onCore m.core fun k => { k with ppoison := k.ppoison ++ [m.addr.toNat % 65536 / 8] } := by
  unfold State.lasting
  rw [h]
  rfl

/-- A lasting fault of a register stops its thread. -/
theorem lasting_of_register {m : MCheck} (h : m.kind = 1) (hrun : (s.ctx m.core m.ctx).run ≠ .free) : s.lasting m =
    (s.mcheck m (s.ctx m.core m.ctx).inc).onCtx m.core m.ctx fun c => { c with run := .stopped } := by
  unfold State.lasting
  rw [h]
  exact if_pos (decide_eq_true hrun)

/-- Memory with one more poisoned line. -/
def Memory.poisons (m : Memory) (line : Nat) : Memory := { m with poison := m.poison ++ [line] }

/-- A lasting fault of memory poisons its line. -/
theorem lasting_of_memory {m : MCheck} (h : m.kind = 4) (ht : s.mcheck m (s.ctx m.core m.ctx).inc = t) : s.lasting m =
    if t.mem.poison.contains (m.addr.toNat / 64 * 64) = true then t else { t with mem := t.mem.poisons (m.addr.toNat / 64 * 64) } := by
  unfold State.lasting
  rw [h, ht]
  rfl

/-- One more transient fault of a unit and a kind. -/
def Reliab.counts (r : Reliab) (key : Nat) : Reliab := { r with transients := tset r.transients key (tgetD r.transients key 0 + 1) }

/-- A transient fault of a core's fetch is counted there as well. -/
theorem transient_of_fetch (s : State) (hcore : core < 8192) : s.transient (BitVec.ofNat 32 core) mcFETCH =
    { s.onCore core Core.fetchParity with rel := s.rel.counts (core * 256 + mcFETCH.toNat) } := by
  have hn : (BitVec.ofNat 32 core).toNat = core := (BitVec.toNat_ofNat ..).trans (Nat.mod_eq_of_lt (by omega))
  have hhigh : fld (BitVec.ofNat 32 core) 31 24 = 0 := by
    rw [fld, hn]
    omega
  have hlow : fld (BitVec.ofNat 32 core) 15 0 = core := fld_ofNat (by omega) (by omega)
  unfold State.transient
  rw [hhigh, hlow, if_pos (by simp only [beq_self_eq_true, Bool.and_true, Bool.and_eq_true, decide_eq_true_eq]; exact ⟨trivial, hcore⟩), transKey, hn]
  rfl

theorem transient_of_other (s : State) (unit : BitVec 32) {kind : BitVec 8} (h : kind ≠ mcFETCH) :
    s.transient unit kind = { s with rel := s.rel.counts (unit.toNat * 256 + kind.toNat) } := by
  unfold State.transient
  rw [if_neg (by simp [h])]
  rfl

/-! ### Cores stay listed -/

/-- No core that is listed is forgotten, and what the machine knows of faults is as it was. -/
structure Listed (s t : State) : Prop where
  stays : ∀ c, (tget s.cores c).isSome → (tget t.cores c).isSome
  rel   : t.rel = s.rel

theorem Listed.refl (s : State) : Listed s s := ⟨fun _ h => h, rfl⟩

theorem Listed.trans (h : Listed s t) (h' : Listed t u) : Listed s u := ⟨fun c hc => h'.stays c (h.stays c hc), h'.rel.trans h.rel⟩

theorem listed_of_cores (h : t.cores = s.cores) (hrel : t.rel = s.rel) : Listed s t := ⟨fun c hc => by rw [h]; exact hc, hrel⟩

theorem listed_onCore (s : State) (core : Nat) (f : Core → Core) : Listed s (s.onCore core f) := ⟨fun c hc => by
  change (tget (tset s.cores core (f (s.core core))) c).isSome
  rw [tget_tset]
  split
  · rfl
  · exact hc, rfl⟩

theorem listed_foldl {α : Type} {f : State → α → State} (hf : ∀ t a, Listed t (f t a)) (l : List α) (s : State) : Listed s (l.foldl f s) :=
  foldl_keeps (p := Listed s) (fun t a ht => ht.trans (hf t a)) l s (Listed.refl s)

theorem listed_send (s : State) (b : Body) : Listed s (s.send b) := listed_of_cores rfl rfl

theorem listed_sendAll (s : State) (l : List Body) : Listed s (s.sendAll l) := listed_foldl listed_send l s

theorem listed_freeSlot (s : State) (core i : Nat) : Listed s (s.freeSlot core i) := by
  unfold State.freeSlot
  exact listed_onCore ..

theorem listed_onLaunch (s : State) (l : Nat) (f : Launch → Launch) : Listed s (s.onLaunch l f) := by
  unfold State.onLaunch
  split
  · exact Listed.refl s
  · exact listed_of_cores rfl rfl

theorem listed_freeSlotsOf (s : State) (w : Who) : Listed s (s.freeSlotsOf w) :=
  listed_foldl (f := fun t i => if ((t.core w.core).slot i).by' = .ctx w then t.freeSlot w.core i else t) (fun t i => by
    split
    · exact listed_freeSlot ..
    · exact Listed.refl t) _ s

theorem listed_sendMerge (s : State) (core : Nat) (e : XEnt) (ask : Option (Asker × Nat)) : Listed s (s.sendMerge core e ask) := by
  unfold State.sendMerge
  dsimp only
  split
  · exact Listed.refl s
  · exact (listed_onCore ..).trans (listed_send ..)

theorem listed_mergeWhere (s : State) (core : Nat) (p : XEnt → Bool) (ask : Option (Asker × Nat)) : Listed s (s.mergeWhere core p ask).1 := by
  unfold State.mergeWhere
  dsimp only
  exact (listed_foldl (fun t e => listed_sendMerge t core e ask) _ s).trans (listed_onCore ..)

theorem listed_endThread (s : State) (core x : Nat) (word : BitVec 32) : Listed s (s.endThread core x word) := by
  unfold State.endThread
  extract_lets c w drops sent freed slots ended
  have hended : Listed s ended :=
    (((listed_sendAll s _).trans (listed_onCore ..)).trans (listed_freeSlotsOf ..)).trans (listed_onLaunch ..)
  clear_value ended
  split
  · exact (hended.trans (listed_onCore ..)).trans (listed_mergeWhere ..)
  · exact hended

theorem listed_onCtx (s : State) (core x : Nat) (f : Ctx → Ctx) : Listed s (s.onCtx core x f) := by
  unfold State.onCtx State.setCtx
  exact listed_onCore ..

theorem listed_setCtx (s : State) (core x : Nat) (c : Ctx) : Listed s (s.setCtx core x c) := by
  unfold State.setCtx
  exact listed_onCore ..

theorem listed_dropCapture (s : State) (core x : Nat) : Listed s (s.dropCapture core x) := by
  unfold State.dropCapture
  exact (listed_onCtx ..).trans (listed_onCore ..)

theorem listed_deliver (s : State) (core x : Nat) (t : Taken) : Listed s (s.deliver core x t) := by
  unfold State.deliver
  extract_lets u c
  have hu : Listed s u := by
    unfold u
    split
    · exact listed_dropCapture ..
    · exact Listed.refl s
  clear_value u
  split
  · exact hu.trans (listed_endThread ..)
  · exact hu.trans (listed_setCtx ..)

theorem listed_trapInfo (s : State) (cause : BitVec 8) (addr : Word) (info : Nat) : Listed s (s.trapInfo cause addr info) := by
  unfold State.trapInfo
  extract_lets t u
  have hu : Listed s u := listed_of_cores rfl rfl
  split
  · exact hu.trans (listed_deliver ..)
  · exact hu

/-! ### Containment (R435) -/

theorem listed_reply (s : State) (r : Req) (data : Line) (flags : BitVec 6) (fault : Option RFault) : Listed s (s.reply r data flags fault) := by
  unfold State.reply
  split
  · exact Listed.refl s
  · exact listed_send ..

theorem listed_nackWaiters (cls : List Nat) : ∀ (l : List Req) (s : State), Listed s (s.nackWaiters cls l)
  | [], s => Listed.refl s
  | r :: l, s => by
    rw [State.nackWaiters]
    refine Listed.trans ?_ (listed_nackWaiters cls l _)
    split
    · exact Listed.refl s
    · exact listed_reply ..

theorem listed_groupRefused (s : State) (w : Who) (handle : BitVec 32) : Listed s (s.groupRefused w handle) := by
  unfold State.groupRefused
  split
  · split
    · refine Listed.trans (t := { s with me := (w.core, w.ctx), took := none }) (listed_of_cores rfl rfl) ?_
      exact (listed_onCtx ..).trans (listed_trapInfo ..)
    · exact Listed.refl s
  · exact Listed.refl s

theorem listed_dropGroup (s : State) (cls : List Nat) (g : Group) : Listed s (s.dropGroup cls g) := by
  unfold State.dropGroup
  extract_lets refuse out l v w
  refine Listed.trans (t := w) (Listed.trans (t := v) (listed_of_cores rfl rfl) (listed_sendAll ..)) (listed_foldl (fun t w => ?_) _ _)
  split
  · exact listed_groupRefused ..
  · exact Listed.refl t

theorem listed_reportLost (s : State) (cls : List Nat) (lvl unit : Nat) (r : CardRec) : Listed s (s.reportLost cls lvl unit r) := by
  unfold State.reportLost
  split
  · split
    · exact Listed.refl s
    · exact listed_send ..
  · exact Listed.refl s

theorem listed_dropUnits (s : State) (cls : List Nat) : Listed s (s.dropUnits cls) := by
  unfold State.dropUnits
  extract_lets inUnit lost u
  have hu : Listed s u := listed_foldl (fun t p => listed_foldl (fun t r => listed_reportLost t cls _ _ r) p.2.queue t) lost s
  clear_value u
  exact hu.trans (listed_of_cores rfl rfl)

/-- What containment makes of the cores inside, and of the clusters that it closes. -/
structure Contains (cls : List Nat) (s t : State) : Prop where
  moved     : t.rel.moved = s.rel.moved
  contained : t.rel.contained = s.rel.contained ++ cls
  inside    : ∀ core, (tget s.cores core).isSome → s.inside cls core = true → ∃ k : Core, t.core core = k.contained (cls.contains (clusterOf core))

theorem tgetD_map_inside {l : Tab Core} {isIn : Nat → Bool} (f g : Nat → Core → Core) {c : Nat} {k : Core} (hin : isIn c = true)
    (hk : tget l c = some k) :
    tgetD (l.map fun p => if isIn p.1 = true then (p.1, f p.1 p.2) else (p.1, g p.1 p.2)) c Core.reset = f c k := by
  have hmap : (l.map fun p => if isIn p.1 = true then (p.1, f p.1 p.2) else (p.1, g p.1 p.2)) =
      l.map fun p => (p.1, if isIn p.1 = true then f p.1 p.2 else g p.1 p.2) := List.map_congr_left fun p _ => by split <;> rfl
  rw [hmap, tgetD, tget_map_keyed (f := fun c k => if isIn c = true then f c k else g c k), hk, Option.map_some, if_pos hin]
  rfl

/-- A core outside loses the partners of its buffers that are inside (R435). -/
def Core.losesPartners (isIn : Nat → Bool) (k : Core) : Core :=
  { k with cbs := k.cbs.map fun q => (q.1, if q.2.set && decide (q.2.role ≥ 2) && isIn q.2.pcore then { q.2 with lost := true } else q.2) }

theorem contains_containAll (s : State) (cls : List Nat) : Contains cls s (s.containAll cls) := by
  unfold State.containAll
  extract_lets ins isIn t0 t1 q t2 t3 t4 t5 f r t6
  have h0 : Listed s t0 := listed_of_cores rfl rfl
  have h1 : Listed t0 t1 := listed_foldl (fun t p => listed_nackWaiters cls p.2.waiters t) ins t0
  have h2 : Listed t1 t2 := listed_of_cores rfl rfl
  have h3 : Listed t2 t3 := listed_foldl (fun t g => listed_dropGroup t cls g) _ t2
  have h4 : Listed t3 t4 := listed_foldl (fun t p => listed_foldl (fun t w => listed_sendAll t (leaveAll w.1 w.2)) (p.2.threads p.1) t) ins t3
  have h5 : Listed t4 t5 := listed_dropUnits t4 cls
  obtain ⟨hstays, hrel⟩ := ((((h0.trans h1).trans h2).trans h3).trans h4).trans h5
  have h6 : Contains cls s t6 := by
    refine ⟨?_, ?_, fun core hk hin => ?_⟩
    · rw [← hrel]
    · rw [← hrel]
    · obtain ⟨k, hk'⟩ := Option.isSome_iff_exists.mp (hstays core hk)
      exact ⟨k, tgetD_map_inside (isIn := isIn) (fun c k => k.contained (cls.contains (clusterOf c))) (fun _ => Core.losesPartners isIn) hin hk'⟩
  clear_value t6
  have hc := checked_mcheck t6 { kind := mcCONTAINED, lasting := true, unit := BitVec.ofNat 32 (2 ^ 24 + cls.headD 0), addr := 0,
                                 core := coreOfCluster (cls.headD 0) 0, ctx := 0 } 0
  refine ⟨hc.moved.trans h6.moved, hc.contained.trans h6.contained, fun core hk hin => ?_⟩
  rw [hc.core_eq]
  exact h6.inside core hk hin

/-- Containment of a cluster closes every cluster of its rectangle that is open. -/
theorem contain_eq (s : State) (cluster : Nat) : s.contain cluster =
    if (((s.rectClusters (s.rect cluster)).filter fun c => !s.rel.contained.contains c).isEmpty) = true then s
    else s.containAll ((s.rectClusters (s.rect cluster)).filter fun c => !s.rel.contained.contains c) := rfl

/-- After containment a cluster is closed, those that were closed before still are, and the cores that have moved are the same ones. -/
theorem contain_facts (s : State) {cluster : Nat} (hc : cluster < 512) : cluster ∈ (s.contain cluster).rel.contained ∧
    (s.contain cluster).rel.moved = s.rel.moved ∧ ∀ c ∈ s.rel.contained, c ∈ (s.contain cluster).rel.contained := by
  rw [contain_eq]
  obtain ⟨cls, hcls⟩ : ∃ cls, (s.rectClusters (s.rect cluster)).filter (fun c => !s.rel.contained.contains c) = cls := ⟨_, rfl⟩
  have hmem : cluster ∈ s.rel.contained ∨ cluster ∈ cls := by
    by_cases h : cluster ∈ s.rel.contained
    · exact Or.inl h
    · refine Or.inr ?_
      rw [← hcls, List.mem_filter]
      exact ⟨List.mem_filter.mpr ⟨mem_upTo.mpr hc, beq_self_eq_true _⟩, by simpa using h⟩
  rw [hcls]
  split
  next hnone =>
    rw [List.isEmpty_iff] at hnone
    rw [hnone] at hmem
    exact ⟨hmem.resolve_right (List.not_mem_nil), rfl, fun _ h => h⟩
  next =>
    have h := contains_containAll s cls
    rw [h.contained, h.moved]
    exact ⟨List.mem_append.mpr hmem, rfl, fun c hc => List.mem_append_left _ hc⟩

/-! ### Votes (R430) -/

/-- A vote either goes on with two copies that agree, or closes the clusters of both. -/
theorem vote_facts (s : State) (core : Nat) (hlow : clusterOf core < 512) (hhigh : clusterOf (core + 64) < 512) :
    core ∈ (s.vote core).rel.moved ∨
      clusterOf core ∈ (s.vote core).rel.contained ∧ clusterOf (core + 64) ∈ (s.vote core).rel.contained := by
  unfold State.vote
  extract_lets v u keep
  have hmoved (t : State) (c : Nat) : core ∈ ((keep t).pairCheck c).rel.moved := by
    unfold State.pairCheck
    rw [(checked_mcheck ..).moved]
    exact List.mem_append_right _ (List.mem_singleton_self core)
  split
  · refine Or.inl ?_
    rw [(contain_facts _ hhigh).2.1]
    exact hmoved ..
  · split
    · refine Or.inl ?_
      rw [(contain_facts _ hlow).2.1]
      exact hmoved ..
    · obtain ⟨hin, -, -⟩ := contain_facts ((u.onCore core Core.halt).pairCheck core) hlow
      obtain ⟨hin', -, hstays⟩ := contain_facts (((u.onCore core Core.halt).pairCheck core).contain (clusterOf core)) hhigh
      exact Or.inr ⟨hstays _ hin, hin'⟩

theorem clusterOf_lt {core : Nat} (h : core < 8192) : clusterOf core < 512 := by
  unfold clusterOf dieOf coreY coreX
  omega

end

end Sys2Proof.Machine
end

section
/-! Gang switches and resumes (O51, R364, R365). -/
namespace Sys2Proof.Machine
open Sys2Proof.Manual

section
variable {s t u : State} {core x : Nat}

/-! ### Lines written one after the other -/

theorem lineByte_full (m : List Host.Cell) (hm : cellsOk m = true) (a : Nat) (l : Line) (c : Nat) :
    rdByte (wrMasked m a l (BitVec.allOnes 64) 64) c = if a ≤ c ∧ c < a + 64 then lineByte l (c - a) else rdByte m c := by
  rw [rdByte_wrMasked hm]
  refine if_congr ⟨fun ⟨h1, h2, _⟩ => ⟨h1, h2⟩, fun ⟨h1, h2⟩ => ⟨h1, h2, ?_⟩⟩ rfl rfl
  simp only [BitVec.getLsbD_allOnes, decide_eq_true_eq]
  omega

theorem allOnes_64 : BitVec.ofNat 64 (2 ^ 64 - 1) = BitVec.allOnes 64 := rfl

/-- A list's lines with their places. -/
theorem mapIdx_upTo {α : Type} (f : Nat → α) : ∀ n, ((upTo n).map f).mapIdx (fun i l => (i, l)) = (upTo n).map fun i => (i, f i)
  | 0 => rfl
  | n + 1 => by
    rw [upTo, List.map_append, List.mapIdx_append, mapIdx_upTo f n, List.map_append, List.length_map, length_upTo]
    simp

/-- Cells in which lines have been written at their places, 64 bytes apart. -/
def wrLines (m : List Host.Cell) (a : Nat) (f : Nat → Line) (n : Nat) : List Host.Cell :=
  (upTo n).foldl (fun m i => wrMasked m (a + 64 * i) (f i) (BitVec.allOnes 64) 64) m

theorem cellsOk_wrLines {m : List Host.Cell} (hm : cellsOk m = true) (a : Nat) (f : Nat → Line) (n : Nat) : cellsOk (wrLines m a f n) = true :=
  foldl_keeps (p := fun m => cellsOk m = true) (fun _ _ h => cellsOk_wrMasked h _ _ _ _) _ m hm

theorem wrLines_succ (m : List Host.Cell) (a : Nat) (f : Nat → Line) (n : Nat) :
    wrLines m a f (n + 1) = wrMasked (wrLines m a f n) (a + 64 * n) (f n) (BitVec.allOnes 64) 64 := by
  rw [wrLines, upTo, List.foldl_append]
  rfl

theorem rdByte_wrLines {m : List Host.Cell} (hm : cellsOk m = true) (a : Nat) (f : Nat → Line) {b : Nat} :
    ∀ n, b < 64 * n → rdByte (wrLines m a f n) (a + b) = lineByte (f (b / 64)) (b % 64)
  | 0, h => absurd h (by omega)
  | n + 1, h => by
    rw [wrLines_succ, lineByte_full _ (cellsOk_wrLines hm a f n)]
    by_cases hb : b < 64 * n
    · rw [if_neg (by omega)]
      exact rdByte_wrLines hm a f n hb
    · rw [if_pos (by omega), show b / 64 = n by omega, show a + b - (a + 64 * n) = b % 64 by omega]

/-! ### A core is quiet (R364) -/

/-- The experience entries of one core have been merged; every other core and memory are as they were. -/
structure Merges (core : Nat) (s t : State) : Prop where
  self   : ∃ xs n, t.core core = { s.core core with xcache := xs, xnext := n }
  others : ∀ c, c ≠ core → t.core c = s.core c
  mem    : t.mem = s.mem

theorem Merges.refl (core : Nat) (s : State) : Merges core s s := ⟨⟨_, _, rfl⟩, fun _ _ => rfl, rfl⟩

theorem Merges.trans (h : Merges core s t) (h' : Merges core t u) : Merges core s u := by
  obtain ⟨xs, n, hk⟩ := h.self
  obtain ⟨xs', n', hk'⟩ := h'.self
  exact ⟨⟨xs', n', by rw [hk', hk]⟩, fun c hc => (h'.others c hc).trans (h.others c hc), h'.mem.trans h.mem⟩

theorem merges_onCore {f : Core → Core} {xs : List XEnt} {n : Nat} (hf : f (s.core core) = { s.core core with xcache := xs, xnext := n }) :
    Merges core s (s.onCore core f) :=
  ⟨⟨xs, n, (State.core_onCore_self ..).trans hf⟩, fun _ hc => (State.core_onCore ..).trans (if_neg hc), rfl⟩

theorem merges_send (s : State) (core : Nat) (b : Body) : Merges core s (s.send b) := ⟨⟨_, _, rfl⟩, fun _ _ => rfl, rfl⟩

theorem merges_sendMerge (s : State) (core : Nat) (e : XEnt) (ask : Option (Asker × Nat)) : Merges core s (s.sendMerge core e ask) := by
  unfold State.sendMerge
  dsimp only
  split
  · exact Merges.refl core s
  · exact Merges.trans (merges_onCore rfl) (merges_send ..)

theorem merges_mergeWhere (s : State) (core : Nat) (p : XEnt → Bool) (ask : Option (Asker × Nat)) : Merges core s (s.mergeWhere core p ask).1 := by
  unfold State.mergeWhere
  dsimp only
  refine Merges.trans (foldl_keeps (p := Merges core s) (f := fun t e => t.sendMerge core e ask)
    (fun t e ht => ht.trans (merges_sendMerge ..)) _ s (Merges.refl core s)) (merges_onCore rfl)

theorem finishWrite_of_no_answer (h : (s.ctx core x).answer = none) : s.finishWrite core x = s := by
  unfold State.finishWrite
  dsimp only
  rw [h]
  split
  next hsome => cases hsome
  next => rfl

theorem foldl_finishWrite (h : ∀ x, (s.ctx core x).answer = none) (l : List Nat) : l.foldl (fun s x => s.finishWrite core x) s = s := by
  induction l with
  | nil => rfl
  | cons x l ih => rw [List.foldl_cons, finishWrite_of_no_answer (h x), ih]

/-- What is left of a core that has been made quiet. -/
def Core.quiet (k : Core) : Core := { k.takeCsrs with xcache := k.xcache.filter fun e => e.gone }

theorem quiesce_of_no_answers (h : ∀ x, (s.ctx core x).answer = none) :
    s.quiesce core = (s.mergeWhere core (fun _ => true) none).1.onCore core Core.quiet := by
  have hmerge := beside_mergeWhere s core (fun _ => true) none
  unfold State.quiesce
  dsimp only
  rw [foldl_finishWrite fun x => by rw [hmerge.threads]; exact h x]
  rfl

theorem takeCsrs_of_none {k : Core} (h : k.csrs = []) : k.takeCsrs = k := by
  unfold Core.takeCsrs
  rw [h]
  exact congrArg (fun l => { k with csrs := l }) h.symm

/-- A core whose writes of its own registers have all been taken and which waits for no answer: only its experience entries go. -/
theorem quiesce_facts (hcsrs : (s.core core).csrs = []) (h : ∀ x, (s.ctx core x).answer = none) : Merges core s (s.quiesce core) := by
  have hmerge := merges_mergeWhere s core (fun _ => true) none
  rw [quiesce_of_no_answers h]
  obtain ⟨xs, n, hk⟩ := hmerge.self
  refine hmerge.trans (merges_onCore (xs := (((s.mergeWhere core (fun _ => true) none).1.core core).xcache.filter fun e => e.gone)) (n := n) ?_)
  rw [Core.quiet, takeCsrs_of_none (by rw [hk]; exact hcsrs), hk]

/-! ### The save area (R364) -/

theorem mergeLine_allOnes (old new : Line) : mergeLine old new (BitVec.allOnes 64) = new := by
  refine BitVec.eq_of_getLsbD_eq fun j hj => ?_
  simp only [mergeLine, BitVec.getLsbD_or, BitVec.getLsbD_and, BitVec.getLsbD_not, getLsbD_spread _ _ 64 (le_refl _), BitVec.getLsbD_allOnes,
    hj, decide_true, show j / 8 < 64 by omega, Bool.not_true, Bool.and_false, Bool.false_or, Bool.and_true]

/-- A whole line that is written reads back, whatever key it had. -/
theorem bytes_writePhys_full (s : State) (key : BitVec 16) (pa : Nat) (d : Line) :
    (s.writePhys key pa d (BitVec.allOnes 64)).mem.bytes = wrMasked s.mem.bytes pa d (BitVec.allOnes 64) 64 := by
  obtain ⟨m, hm⟩ : ∃ m, BitVec.allOnes 64 = m := ⟨_, rfl⟩
  have hor (lock : BitVec 64) : m ||| lock = m := by
    rw [← hm]
    exact BitVec.allOnes_or
  have hfull (old : Line) : mergeLine old d m = d := by rw [← hm, mergeLine_allOnes]
  rw [hm]
  unfold State.writePhys
  dsimp only
  rw [hor]
  split
  next => rfl
  next =>
    rw [hfull]
    rfl

/-- Writes to physical addresses from a bound on: below it every byte stays, and every core. -/
structure WritesAbove (b : Nat) (s t : State) : Prop where
  wf    : s.mem.wf = true → t.mem.wf = true
  below : s.mem.wf = true → ∀ a < b, t.byte a = s.byte a
  cores : t.cores = s.cores

theorem WritesAbove.refl (b : Nat) (s : State) : WritesAbove b s s := ⟨id, fun _ _ _ => rfl, rfl⟩

theorem WritesAbove.trans {b : Nat} (h : WritesAbove b s t) (h' : WritesAbove b t u) : WritesAbove b s u :=
  ⟨fun hw => h'.wf (h.wf hw), fun hw a ha => (h'.below (h.wf hw) a ha).trans (h.below hw a ha), h'.cores.trans h.cores⟩

theorem writesAbove_writePhys {b : Nat} (s : State) (key : BitVec 16) {pa : Nat} (d : Line) (h : b ≤ pa) :
    WritesAbove b s (s.writePhys key pa d (BitVec.allOnes 64)) := by
  refine ⟨fun hw => wf_writePhys hw .., fun hw a ha => ?_, cores_writePhys ..⟩
  rw [State.byte, bytes_writePhys_full, lineByte_full _ hw, if_neg (by omega)]
  rfl

theorem writesAbove_mailWake (b : Nat) (s : State) : WritesAbove b s s.mailWake := by
  obtain ⟨h, c, e⟩ := mailWake_eq s
  rw [e]
  exact ⟨id, fun _ _ _ => rfl, rfl⟩

/-- A save area's lines are whole lines. -/
theorem areaOut_eq (s : State) (key : BitVec 16) (pa : Nat) (l : List (Nat × Line)) :
    s.areaOut key pa l = (l.foldl (fun s p => s.writePhys key (pa + p.1) p.2 (BitVec.allOnes 64)) s).mailWake := by
  unfold State.areaOut
  rw [allOnes_64]

theorem writesAbove_areaOut {b : Nat} (s : State) (key : BitVec 16) {pa : Nat} (h : b ≤ pa) (l : List (Nat × Line)) :
    WritesAbove b s (s.areaOut key pa l) := by
  rw [areaOut_eq]
  refine WritesAbove.trans ?_ (writesAbove_mailWake b _)
  refine foldl_keeps (p := WritesAbove b s) (fun t p ht => ht.trans ?_) l s (WritesAbove.refl b s)
  exact writesAbove_writePhys t key p.2 (Nat.le_add_right_of_le h)

/-- The lines of a pool in its save area. -/
theorem areaOut_lines (s : State) (key : BitVec 16) (pa : Nat) (f : Nat → Line) (n : Nat) :
    (s.areaOut key pa ((upTo n).map fun i => (64 * i, f i))).mem.bytes = wrLines s.mem.bytes pa f n := by
  have hbytes (t : State) : t.mailWake.mem.bytes = t.mem.bytes := by
    obtain ⟨h, c, e⟩ := mailWake_eq t
    rw [e]
  rw [areaOut_eq, hbytes, wrLines, List.foldl_map]
  exact (List.foldl_hom (fun t : State => t.mem.bytes) (g₁ := fun t i => t.writePhys key (pa + 64 * i) (f i) (BitVec.allOnes 64))
    (fun t i => (bytes_writePhys_full t key (pa + 64 * i) (f i)).symm)).symm

/-- Lines of free values in a save area. -/
theorem writesAbove_free {b : Nat} (s : State) {pa : Nat} (h : b ≤ pa) (l : List (Nat × Line)) (n : Nat) :
    WritesAbove b s { s.areaOut 0 pa l with fresh := n } := by
  obtain ⟨hwf, hbelow, hcores⟩ := writesAbove_areaOut s 0 h l
  exact ⟨hwf, hbelow, hcores⟩

/-- A core's save, for any number of rows: its pool first, and all else above it. -/
theorem areaSave_above (s : State) (core pa : Nat) : ∃ v,
    v.mem.bytes = wrLines s.mem.bytes pa (fun i => (s.core core).poolLine (64 * i)) 1024 ∧
    v.cores = s.cores ∧ WritesAbove (pa + 0x10000) v (s.areaSave core pa) := by
  have hlines := areaOut_lines s 0 pa (fun i => (s.core core).poolLine (64 * i)) 1024
  have hpool := writesAbove_areaOut (b := 0) s 0 (Nat.zero_le pa) ((upTo 1024).map fun i => (64 * i, (s.core core).poolLine (64 * i)))
  obtain ⟨rows, hrows⟩ : ∃ rows, upTo = rows := ⟨_, rfl⟩
  rw [hrows] at hlines hpool
  refine ⟨_, hlines, hpool.cores, ?_⟩
  delta State.areaSave
  rw [hrows]
  refine foldl_keeps (p := WritesAbove (pa + 0x10000) _) ?_ _ _ ?_
  · intro t p ht
    split
    · exact ht.trans (writesAbove_areaOut t _ (by unfold areaFrame; omega) _)
    · exact ht
  · refine (writesAbove_areaOut _ 0 (le_refl _) _).trans (WritesAbove.trans (writesAbove_free _ (by omega) _ _) (writesAbove_free _ (by omega) _ _))

end

end Sys2Proof.Machine
end

section
/-! Gang switches and resumes of one core (O51, R364, R365). -/
namespace Sys2Proof.Machine
open Sys2Proof.Manual

section
variable {s t u : State} {core x : Nat}

theorem lineByte_rdLine (m : List Host.Cell) (a : Nat) {k : Nat} (hk : k < 64) : lineByte (rdLine m a) k = rdByte m (a + k) :=
  (el_eq_lineByte ..).symm.trans (el_rdLine m a hk)

/-- Lines that have been read from one place and written at another: a byte of the copy is the byte that was read. -/
theorem rdByte_wrLines_rdLine {m : List Host.Cell} (hm : cellsOk m = true) (r : List Host.Cell) (a b : Nat) {n k : Nat} (hk : k < 64 * n) :
    rdByte (wrLines m a (fun i => rdLine r (b + 64 * i)) n) (a + k) = rdByte r (b + k) := by
  rw [rdByte_wrLines hm a _ n hk, lineByte_rdLine _ _ (Nat.mod_lt _ (by decide)), Nat.add_assoc, Nat.div_add_mod]

/-! ### A gang switch -/

theorem core_of_cores (h : t.cores = s.cores) (c : Nat) : t.core c = s.core c := by rw [State.core, State.core, h]

theorem areaSave_cores (s : State) (core pa : Nat) : (s.areaSave core pa).cores = s.cores := by
  obtain ⟨v, -, hcores, habove⟩ := areaSave_above s core pa
  exact habove.cores.trans hcores

/-- A core's pool stands in its save area. -/
theorem byte_areaSave (hm : s.mem.wf = true) (core pa : Nat) {n : Nat} (hn : n < 65536) :
    (s.areaSave core pa).byte (pa + n) = s.poolByte core n := by
  obtain ⟨v, hbytes, -, habove⟩ := areaSave_above s core pa
  have hline : (fun i => (s.core core).poolLine (64 * i)) = fun i => rdLine (s.core core).pool (0 + 64 * i) := by
    funext i
    rw [Core.poolLine, Nat.mul_div_cancel_left i (by decide), Nat.mul_comm i 64, Nat.zero_add]
  have hv : v.mem.wf = true := by
    rw [Memory.wf, hbytes]
    exact cellsOk_wrLines hm ..
  rw [habove.below hv _ (by omega), State.byte, hbytes, hline, rdByte_wrLines_rdLine hm _ _ _ (by omega), Nat.zero_add]
  rfl

/-- A core that stops for a gang switch. -/
def Core.stops (k : Core) : Core := { k with stopped := true }

theorem switchCore_eq (s : State) (core : Nat) (area : Word) :
    s.switchCore (core, area) = ((s.quiesce core).onCore core Core.stops).areaSave core area.toNat := by
  unfold State.switchCore Core.stops
  dsimp only

theorem foldl_filter_one {α β : Type} (f : β → α → β) (p : α → Bool) (a : α) (b : β) : ([a].filter p).foldl f b = if p a = true then f b a else b := by
  rw [List.filter_cons]
  split
  · rw [List.filter_nil, List.foldl_cons, List.foldl_nil]
  · rw [List.filter_nil, List.foldl_nil]

theorem gangSwitch_of_one (s : State) (core : Nat) (area : Word) : exec (.gangSwitch [(core, area)]) s =
    .next (if (areaOk (core, area) && !(s.core core).stopped) = true then s.switchCore (core, area) else s) := by
  change Host.Outcome.next (([(core, area)].filter fun p => areaOk p && !(s.core p.1).stopped).foldl State.switchCore s) = _
  rw [foldl_filter_one]

theorem core_switched (s : State) (core : Nat) (area : Word) (c : Nat) : (s.switchCore (core, area)).core c =
    if c = core then ((s.quiesce core).core core).stops else (s.quiesce core).core c := by
  rw [switchCore_eq, core_of_cores (areaSave_cores ..), State.core_onCore]

theorem gone_quiesce (s : State) (core : Nat) : ∀ e ∈ ((s.quiesce core).core core).xcache, e.gone = true := by
  unfold State.quiesce
  rw [State.core_onCore_self]
  dsimp only
  exact fun e he => (List.mem_filter.mp he).2

/-- The save of a quiet core's pool. -/
theorem byte_switched (hcsrs : (s.core core).csrs = []) (hans : ∀ x, (s.ctx core x).answer = none) (hm : s.mem.wf = true) (area : Word) {n : Nat}
    (hn : n < 65536) : (s.switchCore (core, area)).byte (area.toNat + n) = s.poolByte core n := by
  obtain ⟨⟨_, _, hself⟩, -, hmem⟩ := quiesce_facts hcsrs hans
  have hm' : ((s.quiesce core).onCore core Core.stops).mem.wf = true := by
    rw [State.onCore_mem, hmem]
    exact hm
  rw [switchCore_eq, byte_areaSave hm' core area.toNat hn, State.poolByte, State.core_onCore_self, Core.stops, hself, State.poolByte]

theorem ctx_switched (hcsrs : (s.core core).csrs = []) (hans : ∀ x, (s.ctx core x).answer = none) (area : Word) :
    s.threadsKept (s.switchCore (core, area)) := fun c y => by
  obtain ⟨⟨_, _, hself⟩, hothers, -⟩ := quiesce_facts hcsrs hans
  rw [State.ctx, State.ctx, core_switched]
  split
  next hc =>
    subst hc
    rw [Core.stops, hself]
    rfl
  next hc => rw [hothers c hc]

/-! ### A resume -/

/-- Of a core that is reloaded: memory is as it was, and the core's pool. -/
structure Reloads (core : Nat) (s t : State) : Prop where
  mem  : t.mem = s.mem
  pool : (t.core core).pool = (s.core core).pool

theorem Reloads.trans (h : Reloads core s t) (h' : Reloads core t u) : Reloads core s u := ⟨h'.mem.trans h.mem, h'.pool.trans h.pool⟩

theorem reloads_readPhys (s : State) (core : Nat) (key : BitVec 16) (pa : Nat) : Reloads core s (s.readPhys key pa).2 := by
  unfold State.readPhys
  dsimp only
  split <;> exact ⟨rfl, rfl⟩

theorem reloads_areaIn (s : State) (core : Nat) (key : BitVec 16) (pa n : Nat) : Reloads core s (s.areaIn key pa n).2 := by
  unfold State.areaIn
  exact foldl_keeps (p := fun q : List Line × State => Reloads core s q.2) (fun q _ h => h.trans (reloads_readPhys q.2 core ..)) _ _ ⟨rfl, rfl⟩

theorem reloads_setCtx (s : State) (core x : Nat) (c : Ctx) : Reloads core s (s.setCtx core x c) := by
  unfold State.setCtx
  exact ⟨rfl, by rw [State.core_onCore_self, Core.setCtx]⟩

theorem reloads_areaCtx (s : State) (core pa x : Nat) : Reloads core s (s.areaCtx core pa x) := by
  have hin := reloads_areaIn s core (s.ctx core x).tenant (pa + areaFrame x) 128
  unfold State.areaCtx
  dsimp only
  revert hin
  generalize s.areaIn _ _ 128 = q
  intro hin
  split
  · exact hin.trans (reloads_setCtx ..)
  · exact ⟨rfl, rfl⟩

/-- Lines under no key are read as they stand. -/
theorem areaIn_of_no_keys {s : State} (key : BitVec 16) (pa : Nat) : ∀ n, (∀ i < 4 * n, tget s.mem.keys (pa / 16 + i) = none) →
    s.areaIn key pa n = ((upTo n).map fun i => rdLine s.mem.bytes (pa + 64 * i), s)
  | 0, _ => rfl
  | n + 1, h => by
    have hlast : s.readPhys key (pa + 64 * n) = (rdLine s.mem.bytes (pa + 64 * n), s) := by
      refine readPhys_of_no_keys key fun i hi => ?_
      rw [show (pa + 64 * n) / 16 + i = pa / 16 + (4 * n + i) by omega]
      exact h _ (by omega)
    have hrec := areaIn_of_no_keys key pa n fun i hi => h i (by omega)
    unfold State.areaIn at hrec ⊢
    rw [upTo, List.foldl_append, hrec, List.foldl_cons, List.foldl_nil, hlast, List.map_append]
    rfl

/-- A pool into which the lines of a save area go, one after the other. -/
theorem foldl_lines (m : List Host.Cell) (f : Nat → Line) (n : Nat) : (((upTo n).map f).mapIdx fun i l => (i, l)).foldl
    (fun m p => wrMasked m (64 * p.1) p.2 (BitVec.ofNat 64 (2 ^ 64 - 1)) 64) m = wrLines m 0 f n := by
  rw [mapIdx_upTo, List.foldl_map, wrLines, allOnes_64]
  simp only [Nat.zero_add]

/-- A reload, with the lines that it reads. -/
theorem areaLoad_facts (s : State) (core pa : Nat) : (s.areaLoad core pa).mem = s.mem ∧
    ((∀ i < 4096, tget s.mem.keys (pa / 16 + i) = none) →
      ((s.areaLoad core pa).core core).pool = wrLines (s.core core).pool 0 (fun i => rdLine s.mem.bytes (pa + 64 * i)) 1024) := by
  obtain ⟨⟨pool, u⟩, hp⟩ : ∃ q, s.areaIn 0 pa 1024 = q := ⟨_, rfl⟩
  obtain ⟨⟨slots, v⟩, hq⟩ : ∃ q, u.areaIn 0 (pa + 0x10000) 544 = q := ⟨_, rfl⟩
  have hu := reloads_areaIn s core 0 pa 1024
  have hv := reloads_areaIn u core 0 (pa + 0x10000) 544
  rw [hp] at hu
  rw [hq] at hv
  have hctx : Reloads core (v.onCore core fun k => k.areaRead pool slots) (s.areaLoad core pa) := by
    rw [areaLoad_of_read rfl hp hq]
    exact foldl_keeps (p := Reloads core (v.onCore core fun k => k.areaRead pool slots)) (fun t x h => h.trans (reloads_areaCtx t core pa x)) _ _ ⟨rfl, rfl⟩
  refine ⟨hctx.mem.trans (hv.mem.trans hu.mem), fun hkeys => ?_⟩
  have hpool : pool = (upTo 1024).map fun i => rdLine s.mem.bytes (pa + 64 * i) := by
    have h := areaIn_of_no_keys 0 pa 1024 fun i hi => hkeys i (by omega)
    rw [hp] at h
    exact (Prod.mk.inj h).1
  rw [hctx.pool, State.core_onCore_self, Core.areaRead]
  change (pool.mapIdx fun i l => (i, l)).foldl _ (v.core core).pool = _
  rw [hpool, hv.pool, hu.pool, foldl_lines]

/-- A core that goes on after a gang switch. -/
def Core.goesOn (k : Core) : Core := { k with stopped := false }

theorem resumeCore_eq (s : State) (core : Nat) (area : Word) :
    s.resumeCore (core, area) = ((s.areaLoad core area.toNat).onCore core Core.goesOn).snapEmpty core := by
  unfold State.resumeCore Core.goesOn
  dsimp only

theorem gangResume_of_one (s : State) (core : Nat) (area : Word) : exec (.gangResume [(core, area)]) s =
    .next (if (areaOk (core, area) && (s.core core).stopped) = true then s.resumeCore (core, area) else s) := by
  change Host.Outcome.next (([(core, area)].filter fun p => areaOk p && (s.core p.1).stopped).foldl State.resumeCore s) = _
  rw [foldl_filter_one]

theorem rdByte_pool_copy {m : List Host.Cell} (hm : cellsOk m = true) (r : List Host.Cell) (pa : Nat) {n : Nat} (hn : n < 65536) :
    rdByte (wrLines m 0 (fun i => rdLine r (pa + 64 * i)) 1024) n = rdByte r (pa + n) := by
  have h := rdByte_wrLines_rdLine hm r 0 pa (n := 1024) (k := n) (by omega)
  rwa [Nat.zero_add] at h

theorem pool_goesOn (s : State) (core : Nat) : (((s.onCore core Core.goesOn).snapEmpty core).core core).pool = (s.core core).pool := by
  rw [State.snapEmpty, State.core_onCore_self, State.core_onCore_self]
  rfl

/-- The pool of a core that has been reloaded. -/
theorem poolByte_resumed (hm : (s.core core).memWf = true) {area : Word} (hkeys : ∀ i < 4096, tget s.mem.keys (area.toNat / 16 + i) = none)
    {n : Nat} (hn : n < 65536) : (s.resumeCore (core, area)).poolByte core n = s.byte (area.toNat + n) := by
  obtain ⟨hpool, -⟩ : cellsOk (s.core core).pool = true ∧ cellsOk (s.core core).opmem = true := Bool.and_eq_true_iff.mp hm
  rw [State.poolByte, resumeCore_eq, pool_goesOn, (areaLoad_facts s core area.toNat).2 hkeys, rdByte_pool_copy hpool _ _ hn, State.byte]

end

end Sys2Proof.Machine
end

section
/-! Checkpoints (O51, R433, R434). -/
namespace Sys2Proof.Machine
open Sys2Proof.Manual

section
variable {s t u : State} {core x : Nat}

/-- Only cores change, each as a relation says. -/
def CoresTo (R : Core → Core → Prop) (s t : State) : Prop := ∃ l, t = { s with cores := l } ∧ ∀ c, R (s.core c) (tgetD l c Core.reset)

theorem CoresTo.each {R : Core → Core → Prop} (h : CoresTo R s t) (c : Nat) : R (s.core c) (t.core c) := by
  obtain ⟨l, rfl, hl⟩ := h
  exact hl c

theorem coresTo_refl {R : Core → Core → Prop} (hR : ∀ k, R k k) (s : State) : CoresTo R s s := ⟨s.cores, rfl, fun _ => hR _⟩

theorem CoresTo.trans {R : Core → Core → Prop} (hR : ∀ k k' k'', R k k' → R k' k'' → R k k'') (h : CoresTo R s t) (h' : CoresTo R t u) :
    CoresTo R s u := by
  obtain ⟨l, rfl, hl⟩ := h
  obtain ⟨l', rfl, hl'⟩ := h'
  exact ⟨l', rfl, fun c => hR _ _ _ (hl c) (hl' c)⟩

theorem coresTo_onCore {R : Core → Core → Prop} (hR : ∀ k, R k k) {f : Core → Core} (hf : R (s.core core) (f (s.core core))) :
    CoresTo R s (s.onCore core f) := by
  refine ⟨tset s.cores core (f (s.core core)), rfl, fun c => ?_⟩
  rw [tgetD_tset]
  split
  next h =>
    rw [h]
    exact hf
  next => exact hR _

theorem coresTo_foldl {α : Type} {R : Core → Core → Prop} (hR : ∀ k, R k k) (hT : ∀ k k' k'', R k k' → R k' k'' → R k k'')
    {f : State → α → State} (hf : ∀ t a, CoresTo R s t → CoresTo R t (f t a)) (l : List α) : CoresTo R s (l.foldl f s) :=
  foldl_keeps (p := CoresTo R s) (fun t a ht => ht.trans hT (hf t a ht)) l s (coresTo_refl hR s)

/-! ### The close -/

/-- Nothing is left to do on a core that stops: no experience entry, no write of its own registers, no answer. -/
structure Core.Idle (k : Core) : Prop where
  xcache : k.xcache = []
  csrs   : k.csrs = []
  answer : ∀ x, (k.ctx x).answer = none

theorem Core.Idle.quiet_eq {k : Core} (h : k.Idle) : k.quiet = k := by
  rw [Core.quiet, takeCsrs_of_none h.csrs, h.xcache]
  exact congrArg (fun l => { k with xcache := l }) h.xcache.symm

theorem mergeWhere_of_idle (h : (s.core core).Idle) : CoresTo Eq s (s.mergeWhere core (fun _ => true) none).1 := by
  unfold State.mergeWhere
  dsimp only
  rw [h.xcache, List.filter_nil, List.foldl_nil]
  refine coresTo_onCore (fun _ => rfl) ?_
  rw [h.xcache, List.map_nil]
  exact (congrArg (fun l => { s.core core with xcache := l }) h.xcache)

theorem quiesce_of_idle (h : (s.core core).Idle) : CoresTo Eq s (s.quiesce core) := by
  have hmerge := mergeWhere_of_idle h
  rw [quiesce_of_no_answers h.answer]
  refine hmerge.trans (fun _ _ _ => Eq.trans) (coresTo_onCore (fun _ => rfl) ?_)
  rw [← hmerge.each core, h.quiet_eq]

theorem core_idle (h : ∀ p ∈ s.cores, p.2.xcache = [] ∧ p.2.csrs = [] ∧ ∀ q ∈ p.2.ctxs, q.2.answer = none) (c : Nat) : (s.core c).Idle := by
  rw [State.core, tgetD]
  cases hk : tget s.cores c with
  | none => exact ⟨rfl, rfl, fun _ => rfl⟩
  | some k =>
    obtain ⟨hx, hcsrs, hans⟩ := h _ (mem_of_tget hk)
    refine ⟨hx, hcsrs, fun x => ?_⟩
    rw [Option.getD_some, Core.ctx, tgetD]
    cases hc : tget k.ctxs x with
    | none => rfl
    | some c => exact hans _ (mem_of_tget hc)

/-- A device on which every core is idle comes to a stop as it is. -/
theorem stop_of_idle (h : ∀ c, (s.core c).Idle) (l : Tab Core) : CoresTo Eq s (l.foldl (fun s p => if p.2.stopped then s else s.quiesce p.1) s) := by
  refine coresTo_foldl (fun _ => rfl) (fun _ _ _ => Eq.trans) (fun t p ht => ?_) l
  split
  · exact coresTo_refl (fun _ => rfl) t
  · exact quiesce_of_idle (ht.each p.1 ▸ h p.1)

/-- What a close saves of a device that has come to a stop. -/
def State.checkpt (s : State) : Checkpt :=
  { cores := s.cores, chan := s.chan, homes := s.homes, parked := s.parked, units := s.units, ebufs := s.ebufs, fwds := s.mem.fwds, sched := s.sched
    bars := s.fabric.bars }

/-- The lines of an interval that go to its journal. -/
def Memory.logged (m : Memory) : List (Nat × Line) := (m.stops.map fun p => p.2.log.map fun r => (r.line, rdLine m.bytes r.line)).flatten

theorem closeInterval_of_open (hopen : s.rel.closing = false) :
    ∃ t, t = s.cores.foldl (fun s p => if p.2.stopped then s else s.quiesce p.1) s ∧ s.closeInterval =
      { t with rel := { t.rel with closing := true, saved := some t.checkpt, journals := tset t.rel.journals t.mem.interval t.mem.logged } } := by
  refine ⟨_, rfl, ?_⟩
  unfold State.closeInterval
  rw [hopen]
  rfl

/-! ### The commit and the rollback -/

/-- A core forgets its snapshots, and keeps its pool. -/
def Core.Forgets (k k' : Core) : Prop := k'.pool = k.pool ∧ (k.snap = [] → k'.snap = [])

theorem Core.Forgets.refl (k : Core) : k.Forgets k := ⟨rfl, id⟩

theorem Core.Forgets.trans (k k' k'' : Core) (h : k.Forgets k') (h' : k'.Forgets k'') : k.Forgets k'' := ⟨h'.1.trans h.1, fun e => h'.2 (h.2 e)⟩

theorem forgets_snapEmpty (s : State) (core : Nat) : CoresTo Core.Forgets s (s.snapEmpty core) := by
  unfold State.snapEmpty
  exact coresTo_onCore Core.Forgets.refl ⟨rfl, fun _ => rfl⟩

theorem forgets_foldl (l : Tab Core) (s : State) : CoresTo Core.Forgets s (l.foldl (fun s p => s.snapEmpty p.1) s) :=
  coresTo_foldl Core.Forgets.refl Core.Forgets.trans (fun t p _ => forgets_snapEmpty t p.1) l

theorem snap_foldl_snapEmpty {c : Nat} {k : Core} : ∀ (l : Tab Core) (s : State), (c, k) ∈ l →
    ((l.foldl (fun s p => s.snapEmpty p.1) s).core c).snap = []
  | [], _, h => absurd h List.not_mem_nil
  | p :: l, s, h => by
    rw [List.foldl_cons]
    rcases List.mem_cons.mp h with rfl | h
    · exact ((forgets_foldl l _).each c).2 (snap_snapEmpty s c)
    · exact snap_foldl_snapEmpty l _ h

theorem snapsEmpty_facts (s : State) : CoresTo Core.Forgets s s.snapsEmpty ∧ ∀ c, (s.snapsEmpty.core c).snap = [] := by
  unfold State.snapsEmpty
  refine ⟨forgets_foldl s.cores s, fun c => ?_⟩
  cases hk : tget s.cores c with
  | none =>
    refine ((forgets_foldl s.cores s).each c).2 ?_
    rw [State.core, tgetD, hk]
    rfl
  | some k => exact snap_foldl_snapEmpty s.cores s (mem_of_tget hk)

/-- The next interval is open, with empty logs. -/
def State.opened (s : State) : State :=
  { s with rel := { s.rel with closing := false, commits := s.rel.commits ++ [s.mem.interval] } }.nextInterval

theorem commit_of_closing (hclosing : s.rel.closing = true) (hreset : s.boot.pendingReset = false) : s.commit = s.opened.snapsEmpty := by
  obtain ⟨⟨l, hl, -⟩, -⟩ := snapsEmpty_facts s.opened
  unfold State.commit
  rw [hclosing, if_neg (by decide)]
  refine if_neg ?_
  change ¬ s.opened.snapsEmpty.boot.pendingReset = true
  rw [hl]
  exact (Bool.not_eq_true _).mpr hreset

/-- What is taken up from a close, with the lines of the logs already written back. -/
def State.takesUp (s : State) (c : Checkpt) (m : Memory) : State :=
  { s with
    cores := c.cores, chan := c.chan, homes := c.homes, parked := c.parked, units := c.units, ebufs := c.ebufs, sched := c.sched
    fabric := { s.fabric with bars := c.bars }
    mem := { m with fwds := c.fwds, tlb := [], stops := m.stops.map fun p => (p.1, { p.2 with log := [], early := false }) } }

theorem rollBack_of_saved {c : Checkpt} (hopen : s.rel.closing = false) (hsaved : s.rel.saved = some c) : s.rollBack =
    (s.takesUp c ((s.mem.stops.map fun p => p.2.log).flatten.foldl Memory.unwrite s.mem)).snapsEmpty := by
  unfold State.rollBack
  rw [hopen, hsaved]
  rfl

theorem rollBack_of_none (h : s.rel.saved = none ∨ s.rel.closing = true) : s.rollBack = s := by
  unfold State.rollBack
  split
  · rfl
  next hopen =>
    rw [h.resolve_right hopen]

end

end Sys2Proof.Machine
end

section
/-! Reliability (O51). -/
namespace Sys2Proof.Machine
open Sys2Proof.Manual

/-! ### Machine checks -/

theorem exec_machineCheck (m : MCheck) (s : State) :
    exec (.machineCheck m) s = .next (if m.lasting then s.lasting m else s.transient m.unit m.kind) := rfl

theorem exec_of_transient {m : MCheck} (s : State) (h : m.lasting = false) : exec (.machineCheck m) s = .next (s.transient m.unit m.kind) := by
  rw [exec_machineCheck, h]
  rfl

theorem exec_of_lasting {m : MCheck} (s : State) (h : m.lasting = true) : exec (.machineCheck m) s = .next (s.lasting m) := by
  rw [exec_machineCheck, h]
  rfl

theorem fpar_fetchParity (k : Core) : k.fetchParity.fpar.toNat = min (k.fpar.toNat + 1) 0xFFFFFFFF := by
  rw [Core.fetchParity, BitVec.toNat_ofNat]
  exact Nat.mod_eq_of_lt (by omega)

theorem fetch_is_counted (m : MCheck) (core : Nat) (s : State) (hl : m.lasting = false) (hk : m.kind = mcFETCH) (hcore : core < 8192)
    (hunit : m.unit = BitVec.ofNat 32 core) : ∃ t, exec (.machineCheck m) s = .next t ∧
      (t.core core).fpar.toNat = min ((s.core core).fpar.toNat + 1) 0xFFFFFFFF ∧ t.mem = s.mem ∧ s.threadsKept t ∧
      tget t.rel.transients (core * 256 + mcFETCH.toNat) = some (tgetD s.rel.transients (core * 256 + mcFETCH.toNat) 0 + 1) := by
  rw [exec_of_transient s hl, hk, hunit, transient_of_fetch s hcore]
  refine ⟨_, rfl, ?_, rfl, fun c y => ctx_onCore_of_ctxs (s := s) (f := Core.fetchParity) rfl c y, tget_tset_self ..⟩
  change ((s.onCore core Core.fetchParity).core core).fpar.toNat = _
  rw [State.core_onCore_self, fpar_fetchParity]

theorem pool_is_poisoned (m : MCheck) (s : State) (hl : m.lasting = true) (hk : m.kind = 2) : ∃ t, exec (.machineCheck m) s = .next t ∧
    t.out = s.out ++ [.machineCheck m s.now] ∧
    (t.core m.core).ppoison = (s.core m.core).ppoison ++ [m.addr.toNat % 65536 / 8] ∧ ∀ c, c ≠ m.core → t.core c = s.core c := by
  have h := checked_mcheck s m (s.ctx m.core m.ctx).inc
  rw [exec_of_lasting s hl, lasting_of_pool hk]
  refine ⟨_, rfl, h.out, ?_, fun c hc => ?_⟩
  · rw [State.core_onCore_self, h.core_eq]
  · rw [State.core_onCore, if_neg hc, h.core_eq]

theorem thread_is_stopped (m : MCheck) (s : State) (hl : m.lasting = true) (hk : m.kind = 1) (hrun : (s.ctx m.core m.ctx).run ≠ .free) :
    ∃ t, exec (.machineCheck m) s = .next t ∧ t.ctx m.core m.ctx = { s.ctx m.core m.ctx with run := .stopped } ∧
      t.out = s.out ++ [.machineCheck m s.now] ∧ s.others t m.core m.ctx := by
  have h := checked_mcheck s m (s.ctx m.core m.ctx).inc
  rw [exec_of_lasting s hl, lasting_of_register hk hrun]
  refine ⟨_, rfl, ?_, h.out, fun c y hne => ?_⟩
  · rw [State.onCtx, State.ctx_setCtx_self, h.ctx_eq]
  · rw [State.onCtx, State.ctx_setCtx, if_neg fun ⟨hc, hy⟩ => hne (by rw [hc, hy]), h.ctx_eq]

theorem line_is_poisoned (m : MCheck) (s : State) (hl : m.lasting = true) (hk : m.kind = 4) : ∃ t, exec (.machineCheck m) s = .next t ∧
    m.addr.toNat / 64 * 64 ∈ t.mem.poison ∧ t.out = s.out ++ [.machineCheck m s.now] ∧ t.cores = s.cores := by
  have h := checked_mcheck s m (s.ctx m.core m.ctx).inc
  rw [exec_of_lasting s hl, lasting_of_memory hk rfl]
  split
  next hin => exact ⟨_, rfl, List.contains_iff_mem.mp hin, h.out, h.cores⟩
  next => exact ⟨_, rfl, List.mem_append_right _ (List.mem_singleton_self _), h.out, h.cores⟩

theorem exec_machineCheckThreadEnd (core x : Nat) (s : State) : exec (.machineCheckThreadEnd core x) s =
    .next (if (s.ctx core x).run = .stopped then s.endThread core x trapWord else s) := rfl

theorem stopped_thread_ends (core x : Nat) (s : State) (h : (s.ctx core x).run = .stopped) :
    ∃ t, exec (.machineCheckThreadEnd core x) s = .next t ∧ (t.ctx core x).run = .free ∧ (t.ctx core x).inc = (s.ctx core x).inc := by
  obtain ⟨f, hf, hend⟩ := endThread_beside s core x trapWord
  have hctx : (s.endThread core x trapWord).ctx core x = (s.ctx core x).freed := by
    rw [hend.threads, State.ctx, State.core_onCore_self, Core.ctx, hf]
    exact Core.ctx_setCtx_self ..
  rw [exec_machineCheckThreadEnd, if_pos h]
  exact ⟨_, rfl, by rw [hctx]; rfl, by rw [hctx]; rfl⟩

/-! ### Pairs -/

theorem exec_pairMismatch (core : Nat) (s : State) : exec (.pairMismatch core) s = .next (s.pairMismatch core) := rfl

theorem exec_pairTimeout (core x : Nat) (s : State) :
    exec (.pairTimeout core x) s = .next (if (s.ctx core x).occupied then s.pairMismatch core else s) := rfl

/-- A pair's mismatch, at first and again. -/
theorem pairMismatch_of_runs {s : State} {core : Nat} (h : s.pairRuns core = true) : s.pairMismatch core =
    if tgetD (s.replay core).rel.mismatch core 0 = 0 then
      ({ s.replay core with rel := { (s.replay core).rel with mismatch := tset (s.replay core).rel.mismatch core 1 } }).transient
        (BitVec.ofNat 32 core) mcPAIR
    else ({ s.replay core with rel := { (s.replay core).rel with mismatch := tdel (s.replay core).rel.mismatch core } }).vote core := by
  unfold State.pairMismatch
  rw [h]
  rfl

theorem coreX_of_runs {s : State} {core : Nat} (h : s.pairRuns core = true) : coreX core < 64 := by
  rw [State.pairRuns, Bool.and_eq_true, Bool.and_eq_true, decide_eq_true_eq] at h
  exact h.1.1

theorem pair_mismatches (core : Nat) (s : State) (hrun : s.pairRuns core = true) :
    let u := s.replay core
    (tgetD u.rel.mismatch core 0 = 0 →
      exec (.pairMismatch core) s = .next (({ u with rel := { u.rel with mismatch := tset u.rel.mismatch core 1 } }).transient
        (BitVec.ofNat 32 core) mcPAIR)) ∧
    (tgetD u.rel.mismatch core 0 ≠ 0 → core < 8192 → ∃ t, exec (.pairMismatch core) s = .next t ∧
      (core ∈ t.rel.moved ∨ clusterOf core ∈ t.rel.contained ∧ clusterOf (core + 64) ∈ t.rel.contained)) := by
  intro u
  rw [exec_pairMismatch, pairMismatch_of_runs hrun]
  refine ⟨fun h => by rw [if_pos h], fun h hcore => ?_⟩
  rw [if_neg h]
  have hx : core % 128 < 64 := coreX_of_runs hrun
  exact ⟨_, rfl, vote_facts _ core (clusterOf_lt hcore) (clusterOf_lt (by omega))⟩

theorem pairMismatch_of_not_runs (core : Nat) (s : State) (h : s.pairRuns core = false) : exec (.pairMismatch core) s = .next s := by
  rw [exec_pairMismatch, State.pairMismatch, h]
  rfl

theorem pair_times_out (core x : Nat) (s : State) (h : (s.ctx core x).run ≠ .free) : exec (.pairTimeout core x) s = exec (.pairMismatch core) s := by
  rw [exec_pairTimeout, exec_pairMismatch, if_pos (show (s.ctx core x).occupied = true from decide_eq_true h)]

/-! ### Containment -/

theorem exec_containment (cluster : Nat) (s : State) : exec (.containment cluster) s = .next (s.contain cluster) := rfl

/-- What containment leaves of a context. -/
def Ctx.ended (c : Ctx) : Ctx := { Ctx.reset with inc := c.inc, nextTag := c.nextTag }

/-- No context of a core that has been contained holds a thread. -/
theorem run_contained (k : Core) (dead : Bool) (x : Nat) : ((k.contained dead).ctx x).run = .free := by
  have hctx : (k.contained dead).ctx x = tgetD (k.ctxs.map fun p => (p.1, p.2.ended)) x Ctx.reset := rfl
  rw [hctx, tgetD, tget_map_keyed (f := fun _ => Ctx.ended)]
  cases tget k.ctxs x <;> rfl

theorem rectangle_is_contained (cluster : Nat) (s : State) (hc : cluster < 512)
    (hopen : cluster ∉ s.rel.contained) : ∃ t, exec (.containment cluster) s = .next t ∧ cluster ∈ t.rel.contained ∧
      ∀ core k, tget s.cores core = some k → clusterOf core = cluster → core ∉ s.rel.moved →
        (t.core core).dead = true ∧ (t.core core).pool = [] ∧ ∀ x, (t.ctx core x).run = .free := by
  refine ⟨_, exec_containment .., (contain_facts s hc).1, fun core k hk hcl hmoved => ?_⟩
  obtain ⟨cls, hcls⟩ : ∃ cls, (s.rectClusters (s.rect cluster)).filter (fun c => !s.rel.contained.contains c) = cls := ⟨_, rfl⟩
  have hmem : cls.contains (clusterOf core) = true := by
    rw [List.contains_iff_mem, hcl, ← hcls, List.mem_filter]
    exact ⟨List.mem_filter.mpr ⟨mem_upTo.mpr hc, beq_self_eq_true _⟩, by simpa using hopen⟩
  have hin : s.inside cls core = true := by
    rw [State.inside, hmem]
    simpa using hmoved
  have hne : ¬ cls.isEmpty = true := fun h => by
    rw [List.isEmpty_iff.mp h] at hmem
    cases hmem
  obtain ⟨j, hj⟩ := (contains_containAll s cls).inside core (Option.isSome_iff_exists.mpr ⟨k, hk⟩) hin
  rw [contain_eq, hcls, if_neg hne]
  refine ⟨?_, ?_, fun x => ?_⟩
  · rw [hj, hmem]
    rfl
  · rw [hj]
    rfl
  · rw [State.ctx, hj]
    exact run_contained ..

theorem contained_stays (cluster : Nat) (s : State) (h : ∀ c < 512, s.rect c = s.rect cluster → c ∈ s.rel.contained) :
    exec (.containment cluster) s = .next s := by
  rw [exec_containment, contain_eq, if_pos]
  rw [List.isEmpty_iff, List.filter_eq_nil_iff]
  intro c hc
  obtain ⟨hlt, heq⟩ := List.mem_filter.mp hc
  simpa using h c (mem_upTo.mp hlt) (beq_iff_eq.mp heq)

/-! ### Gang switches and resumes -/

theorem core_switches (core : Nat) (area : Word) (s : State) (hok : areaOk (core, area) = true) (hrun : (s.core core).stopped = false) :
    ∃ t, exec (.gangSwitch [(core, area)]) s = .next t ∧
    (t.core core).stopped = true ∧ (∀ e ∈ (t.core core).xcache, e.gone = true) ∧
    ((s.core core).csrs = [] → (∀ x, (s.ctx core x).answer = none) →
      s.threadsKept t ∧ (∀ c, c ≠ core → t.core c = s.core c) ∧ (t.core core).pool = (s.core core).pool ∧
      (s.mem.wf = true → ∀ n < 65536, t.byte (area.toNat + n) = s.poolByte core n)) := by
  have hself : (s.switchCore (core, area)).core core = ((s.quiesce core).core core).stops := by rw [core_switched, if_pos rfl]
  rw [gangSwitch_of_one, hok, hrun, if_pos (by rfl)]
  refine ⟨_, rfl, ?_, ?_, fun hcsrs hans => ?_⟩
  · rw [hself]
    rfl
  · rw [hself, Core.stops]
    dsimp only
    exact gone_quiesce s core
  · obtain ⟨⟨_, _, hk⟩, hothers, -⟩ := quiesce_facts hcsrs hans
    refine ⟨ctx_switched hcsrs hans area, fun c hc => ?_, ?_, fun hm n hn => byte_switched hcsrs hans hm area hn⟩
    · rw [core_switched, if_neg hc, hothers c hc]
    · rw [hself, hk]
      rfl

theorem core_resumes (core : Nat) (area : Word) (s : State) (hok : areaOk (core, area) = true) (hstop : (s.core core).stopped = true) :
    ∃ t, exec (.gangResume [(core, area)]) s = .next t ∧
    t.mem = s.mem ∧ (t.core core).stopped = false ∧ (t.core core).snap = [] ∧
    ((s.core core).memWf = true → (∀ n < 4096, tget s.mem.keys (area.toNat / 16 + n) = none) →
      ∀ n < 65536, t.poolByte core n = s.byte (area.toNat + n)) := by
  rw [gangResume_of_one, hok, hstop, if_pos (by rfl)]
  refine ⟨_, rfl, ?_, ?_, ?_, fun hm hkeys n hn => poolByte_resumed hm hkeys hn⟩
  · rw [resumeCore_eq, State.snapEmpty, State.onCore_mem, State.onCore_mem]
    exact (areaLoad_facts ..).1
  · rw [resumeCore_eq, State.snapEmpty, State.core_onCore_self, State.core_onCore_self]
    rfl
  · rw [resumeCore_eq]
    exact snap_snapEmpty ..

theorem no_switch (core : Nat) (area : Word) (s : State) (h : areaOk (core, area) = false ∨ (s.core core).stopped = true) :
    exec (.gangSwitch [(core, area)]) s = .next s := by
  rw [gangSwitch_of_one, if_neg]
  rcases h with h | h <;> simp [h]

theorem no_resume (core : Nat) (area : Word) (s : State) (h : areaOk (core, area) = false ∨ (s.core core).stopped = false) :
    exec (.gangResume [(core, area)]) s = .next s := by
  rw [gangResume_of_one, if_neg]
  rcases h with h | h <;> simp [h]

/-! ### Checkpoints -/

theorem interval_closes (s : State) (hopen : s.rel.closing = false)
    (hidle : ∀ p ∈ s.cores, p.2.xcache = [] ∧ p.2.csrs = [] ∧ ∀ q ∈ p.2.ctxs, q.2.answer = none) :
    ∃ t c, exec .checkpointClose s = .next t ∧ t.rel.closing = true ∧ t.rel.saved = some c ∧ c.sched = s.sched ∧ c.chan = s.chan ∧
      c.homes = s.homes ∧ c.units = s.units ∧ c.ebufs = s.ebufs ∧ c.fwds = s.mem.fwds ∧ c.parked = s.parked ∧
      (∀ core, tgetD c.cores core Core.reset = s.core core) ∧ t.mem = s.mem ∧ tget t.rel.journals s.mem.interval =
        some ((s.mem.stops.map fun p => p.2.log.map fun r => (r.line, rdLine s.mem.bytes r.line)).flatten) := by
  obtain ⟨u, hu, hclose⟩ := closeInterval_of_open hopen
  obtain ⟨l, hl, hcores⟩ := stop_of_idle (core_idle hidle) s.cores
  refine ⟨_, _, congrArg Host.Outcome.next hclose, rfl, rfl, ?_⟩
  rw [hu, hl]
  exact ⟨rfl, rfl, rfl, rfl, rfl, rfl, rfl, fun core => (hcores core).symm, rfl, tget_tset_self ..⟩

theorem interval_commits (s : State) (hclosing : s.rel.closing = true) (hreset : s.boot.pendingReset = false) :
    ∃ t, exec .commitRecord s = .next t ∧ t.rel.closing = false ∧
    t.rel.commits = s.rel.commits ++ [s.mem.interval] ∧ t.mem.interval = s.mem.interval + 1 ∧ t.mem.bytes = s.mem.bytes ∧
    (∀ p ∈ t.mem.stops, p.2.log = []) ∧ t.chan = s.chan ∧ ∀ core, (t.core core).snap = [] := by
  obtain ⟨⟨l, hl, -⟩, hsnap⟩ := snapsEmpty_facts s.opened
  rw [hl] at hsnap
  refine ⟨_, congrArg Host.Outcome.next ((commit_of_closing hclosing hreset).trans hl), rfl, rfl, rfl, rfl, fun p hp => ?_, rfl, hsnap⟩
  obtain ⟨q, -, rfl⟩ := List.mem_map.mp hp
  rfl

theorem rollback_of_saved {s : State} {c : Checkpt} (hopen : s.rel.closing = false) (hsaved : s.rel.saved = some c) : exec .rollback s =
    .next (s.takesUp c ((s.mem.stops.map fun p => p.2.log).flatten.foldl Memory.unwrite s.mem)).snapsEmpty :=
  congrArg Host.Outcome.next (rollBack_of_saved hopen hsaved)

theorem checkpoint_is_taken_up (c : Checkpt) (s : State) (hopen : s.rel.closing = false) (hsaved : s.rel.saved = some c) (hstops : s.mem.stops = []) :
    ∃ t, exec .rollback s = .next t ∧
    t.mem = { s.mem with fwds := c.fwds, tlb := [] } ∧ t.chan = c.chan ∧ t.homes = c.homes ∧ t.sched = c.sched ∧ t.units = c.units ∧
    t.ebufs = c.ebufs ∧ t.parked = c.parked ∧ ∀ core, (t.core core).pool = (tgetD c.cores core Core.reset).pool := by
  rw [rollback_of_saved hopen hsaved, hstops, List.map_nil, List.flatten_nil, List.foldl_nil]
  obtain ⟨⟨l, hl, hpool⟩, -⟩ := snapsEmpty_facts (s.takesUp c s.mem)
  rw [hl]
  refine ⟨_, rfl, ?_, rfl, rfl, rfl, rfl, rfl, rfl, fun core => (hpool core).1⟩
  change ({ s.mem with fwds := c.fwds, tlb := [], stops := s.mem.stops.map _ } : Memory) = _
  rw [hstops, List.map_nil, ← hstops]

theorem logged_line_is_written_back (c : Checkpt) (n : Nat) (st : Stop) (r : UndoRec) (s : State) (hopen : s.rel.closing = false)
    (hsaved : s.rel.saved = some c) (hm : s.mem.wf = true) (hstops : s.mem.stops = [(n, st)]) (hlog : st.log = [r]) :
    ∃ t, exec .rollback s = .next t ∧ ∀ a, t.byte a = if r.line ≤ a ∧ a < r.line + 64 then el 8 r.old (a - r.line) else s.byte a := by
  have hrecs : (s.mem.stops.map fun p => p.2.log).flatten.foldl Memory.unwrite s.mem = s.mem.unwrite r := by
    rw [hstops, List.map_singleton, hlog]
    rfl
  rw [rollback_of_saved hopen hsaved, hrecs]
  obtain ⟨⟨l, hl, -⟩, -⟩ := snapsEmpty_facts (s.takesUp c (s.mem.unwrite r))
  refine ⟨_, rfl, fun a => ?_⟩
  rw [hl]
  change rdByte (s.mem.unwrite r).bytes a = _
  rw [unwrite_bytes, lineByte_full _ hm, el_eq_lineByte]
  rfl

/-- Settles O51: each fault, pair, containment, gang switch and checkpoint does what the statement says. -/
theorem reliabilitySteps : Obligations.ReliabilitySteps := by
  unfold Obligations.ReliabilitySteps
  refine ⟨fun m s hl hk => ?_, fetch_is_counted, pool_is_poisoned, thread_is_stopped, line_is_poisoned, stopped_thread_ends, pair_mismatches,
    pairMismatch_of_not_runs, pair_times_out, fun cluster s _ hc _ hopen => rectangle_is_contained cluster s hc hopen, contained_stays,
    core_switches, core_resumes, no_switch, no_resume, interval_closes, interval_commits, checkpoint_is_taken_up, logged_line_is_written_back,
    fun s h => congrArg Host.Outcome.next (rollBack_of_none h)⟩
  rw [exec_of_transient s hl, transient_of_other s m.unit hk]
  rfl

end Sys2Proof.Machine
end
